-- ==== Sys2Proof/Word.lean ====
section
/-! DEFINITION. The words the manual counts in: bytes, queue numbers, functions, ports, and the 64-byte command. -/

namespace Sys2Proof

/-- A byte of memory, of a message or of a dictionary value. -/
abbrev Byte := BitVec 8
/-- A queue number, 0 to 32,767 (R18). -/
abbrev QNum := BitVec 15
/-- A semaphore number, 0 to 65,535 (R366). -/
abbrev SemNum := BitVec 16
/-- A host function number, 0 to 127 (R462). -/
abbrev Func := BitVec 7
/-- A torus port T0 to T7 (R404). -/
abbrev Port := BitVec 3
/-- A host port, H0 or H1 (R460). -/
abbrev HPort := BitVec 1
/-- A compute die, CD0 to CD3 (R12). -/
abbrev Die := BitVec 2
/-- A core of the module by die and logical number, 32 d + c (R16). -/
abbrev CoreNum := BitVec 7
/-- An array index, (32 d + c) 4 + n (R111). -/
abbrev ArrayNum := BitVec 9
/-- The 64 bytes of a command (R357): byte b is bits 8 b to 8 b + 7. -/
abbrev Cmd := BitVec 512
/-- A 64-byte flit of a torus link (R41), numbered as a command is. -/
abbrev Flit := BitVec 512

end Sys2Proof
end

