-- ==== Sys2Proof/Config.lean ====
section
/-! DEFINITION. What an implementation fixes and the manual does not give: fused and calibrated values, functions that the manual takes from outside standards, and the free values. Every one is an uninterpreted constant: nothing can evaluate it. -/

namespace Sys2Proof.Config

/-- A byte whose value the manual leaves open; the argument is drawn from State.free, so each draw is fresh (log entry 5). -/
opaque freeByte : Nat → BitVec 8
/-- A 64-bit value that the manual leaves open, drawn in the same way (log entry 5). -/
opaque freeWord : Nat → BitVec 64

/-- The functions that the manual bounds but whose bits it does not publish (R135, R145): 0 GELU, 1 SiLU, 2 sigmoid, 3 tanh, 4 e^x, 5 ln x, 6 reciprocal square root; the FP32 code in, the FP32 code out (log entry 7). -/
opaque approx : Nat → BitVec 32 → BitVec 32

/-- The stall counters count cycles, and this model has none: what a read returns, by engine index, cause and read (R496, log entry 8). -/
opaque stallCount : Nat → Nat → Nat → BitVec 64

/-- SHA3-256 of a byte string (R513, R516, R518), an outside standard (log entry 11). -/
opaque sha3 : List (BitVec 8) → BitVec 256
/-- Whether an ML-DSA-44 signature verifies: public key, message, signature (R513; log entry 11). -/
opaque mldsaVerify : List (BitVec 8) → BitVec 256 → List (BitVec 8) → Bool
/-- The root monitor's ML-DSA-44 signature over a message under the identity key (R516, R517; log entry 11). -/
opaque mldsaSign : List (BitVec 8) → List (BitVec 8)
/-- The public key that the identity derivation of R516 gives (log entry 11). -/
opaque identityKey : List (BitVec 8)
/-- The certificate chain stored at manufacture (R516; log entry 10). -/
opaque certChain : List (BitVec 8)

/-- STEPPING 0x1000:03, fused (R489; log entry 10). -/
opaque stepping : BitVec 8
/-- The module serial number 0x1000:04, fused, as UTF-8 bytes (R489; log entry 10). -/
opaque serial : List (BitVec 8)
/-- MODULE_ID 0x3400:01, fused (R429; log entry 10). -/
opaque moduleId : BitVec 64
/-- The fused key hash of a vendor key slot (R513; log entry 10). -/
opaque keyHash : Nat → BitVec 256
/-- Minimum SVN fused at manufacture for KIND 1 to 3 (R515; log entry 10). -/
opaque fusedSvn : Nat → BitVec 8
/-- Key revocations fused (R528; log entry 10). -/
opaque fusedRevoked : BitVec 8
/-- The unlock nonce of a power-on or of the n-th accepted UNLOCK since (R522; log entry 10). -/
opaque nonce : Nat → BitVec 128
/-- The version, SVN and measurement digest of the images the module is shipped with, by slot 0 to 3 (log entry 10). -/
opaque shippedVersion : Nat → BitVec 32
opaque shippedSvn : Nat → BitVec 16
opaque shippedDigest : Nat → BitVec 256
/-- What a flash byte holds that nothing has programmed since manufacture, by 2^24 x target + offset (R511, R519; log entry 10). -/
opaque flashByte : Nat → BitVec 8
/-- The reset-kind byte of a POWER_ON record, whose codes R505 does not give: 0 power-on, 1 module reset, 2 management-only reset (log entry 39). -/
opaque resetKindCode : Nat → BitVec 8
/-- The type of the black-box record of a reversed input (R560), which R505 does not list (log entry 39). -/
opaque reversedType : BitVec 16
/-- Digest of the boot ROM (R518; log entry 10). -/
opaque romDigest : BitVec 256
/-- The hashes that place a gather-cache line, physical line number to slice and set (R290; log entry 9). -/
opaque cacheSet : Nat → Nat
/-- Which way of a set pseudo-LRU replaces: set and lookups so far (R290; log entry 9). -/
opaque cacheVictim : Nat → Nat → Nat
/-- The coefficients of x^0 to x^3 of the light code's generator, which is monic of degree 4: R413 gives the field and the code's size and not its generator (log entry 13). -/
opaque lightGen : Nat → BitVec 8
/-- Which of several translations that the caches and the page table give an access takes: function, page, number of the choice (R284, log entry 103). -/
opaque xlateChoice : Nat → Nat → Nat → Nat
/-- 256b/257b transcoding of 32 bytes (R407, R408), an outside standard (log entry 13). -/
opaque transcode : List (BitVec 8) → BitVec 257
/-- The i-th parity symbol of the RS(544,514) codeword of 514 symbols (R407, R408), an outside standard (log entry 13). -/
opaque lineParity : List (BitVec 10) → Nat → BitVec 10
/-- The k-th 10 bits of the PRBS31 pattern (R408), an outside standard (log entry 13). -/
opaque prbs31 : Nat → BitVec 10

end Sys2Proof.Config
end

