-- ==== Sys2Proof/Syntax.lean ====
section
/-! DEFINITION. The commands: one constructor of Instr for each row of spec/opcode_table.json, with its operands. -/

namespace Sys2Proof

/-- A path to the dictionary (R485). -/
inductive Path where
  | mgmt                 -- MCTP over I3C
  | mctp (h : HPort)     -- in-band MCTP, the physical function of port h
  | window (f : Func)    -- the BAR0 window of function f
  deriving DecidableEq, Repr

/-- A requester of SPDM exchanges (R517): an MCTP path or the DOE mailbox of a physical function. -/
inductive SpdmPath where
  | mgmt
  | mctp (h : HPort)
  | doe (h : HPort)
  deriving DecidableEq, Repr

/-- A torus message as the link layer carries it: the head flit and the data flits (R419). -/
structure Msg where
  head : Flit
  data : List Flit
  deriving DecidableEq, Repr

/-- A slot on its way to the receiver (R408, R412, R413): the 16 header bytes, the 30 flit positions, the 8 group CRCs and the 32 parity bytes as the far end sent them, and what the lanes did to it. -/
structure RxSlot where
  hdr      : BitVec 128
  flits    : List Flit
  crcs     : List (BitVec 32)
  parity   : List Byte
  /-- bytes of the slot that the lanes changed: offset and difference -/
  errs     : List (Nat × Byte)
  /-- symbols in error of the line codewords that carry the slot, by number 0 to 24 of the codeword within its 8 slots -/
  line     : List (Nat × Nat)
  deriving DecidableEq, Repr

/-- What an array's own checks find during a command (R101): a column (true) or a row, and its number. -/
structure CheckFault where
  col : Bool
  idx : BitVec 6
  deriving DecidableEq, Repr

/-- One finding of the patrol scrubber or of a self-test of memory: an address, and whether the error is correctable (R307). -/
structure MemError where
  addr    : BitVec 44
  fixable : Bool
  deriving DecidableEq, Repr

/-- The order of lanes that a receiver finds in training (R422). -/
inductive LaneOrder where
  | straight | reversed | other
  deriving DecidableEq, Repr

/-- How a host port is reset (R541). -/
inductive PortResetKind where
  | perst | hotReset | linkDown
  deriving DecidableEq, Repr

/-- Registers of a function's PCI Express configuration that the manual names: MSI-X Enable (R464), AtomicOp Requester Enable (R371, R461), NumVFs of its port (R462), the page requests that the host allocates (R465). -/
inductive PcieReg where
  | msixEnable (on : Bool)
  | atomicEnable (on : Bool)
  | numVfs (n : BitVec 8)
  | pageRequests (n : BitVec 32)
  deriving DecidableEq, Repr

/-- What REGISTER_WRITE names: a dictionary entry on a path, a register of BAR0 at an offset with a size in bytes, or a configuration register. -/
inductive RegTarget where
  | dict (p : Path) (index : BitVec 16) (sub : BitVec 8) (data : List Byte)
  | bar0 (f : Func) (off : BitVec 26) (size : Nat) (v : BitVec 64)
  | pcie (f : Func) (r : PcieReg)
  deriving DecidableEq, Repr

/-- The commands of the block. A queue command carries its queue and its 64 bytes as the module read them from the ring (log entry 2). -/
inductive Instr where
  -- fabric time (02)
  | beatBoundary
  | epochBoundary
  | timeSyncPulse (rise : BitVec 64) (high low : Nat)
  | syncPulseMissing
  | refPllLock
  | timeRefLoss
  | timeRefReturn
  | holdoverExpiry
  | timeFaultRecovery
  | deadlineCheck
  | stretchLatch
  | tickSnapshot (p : Path)
  -- torus slots and messages (15, 16)
  | slotSend (p : Port)
  | slotReceived (p : Port) (slot : RxSlot)
  | retryTimeout (p : Port)
  | chainSegmentReceived (p : Port) (m : Msg)
  | transferSegmentReceived (p : Port) (m : Msg)
  | creditGrantReceived (p : Port) (m : Msg)
  | verdictMessageReceived (p : Port) (m : Msg)
  | ident (p : Port) (m : Msg)
  | ping (p : Port) (m : Msg)
  | pong (p : Port) (m : Msg)
  | offset (p : Port) (m : Msg)
  | laneMove (p : Port) (m : Msg)
  | laneAck (p : Port) (m : Msg)
  | recheck (p : Port) (m : Msg)
  | stretchRecord (p : Port) (m : Msg)
  -- torus training, lanes and plugs (15, 21)
  | signalDetect (p : Port)
  | equaliseConverged (p : Port) (lowError : Bool) (farSetting : BitVec 2) (farHolly : Bool)
  | equaliseTimeout (p : Port)
  | mapDone (p : Port) (order : LaneOrder) (usable inverted : BitVec 9) (txFailed : Option (BitVec 4))
  | lockAchieved (p : Port)
  | lockTimeout (p : Port)
  | failedRetryTimer (p : Port)
  | heldIdentTimer (p : Port)
  | retrainDone (p : Port)
  | retrainTimeout (p : Port)
  | linkLoss (p : Port)
  | laneSignalLoss (p : Port) (lane : BitVec 4)
  | laneErrorWindow (p : Port) (lane : BitVec 4) (corrections : Nat)
  | laneSwitch (p : Port) (agreed : Bool)
  | recalTimer (p : Port)
  | recalReadaptDone (p : Port)
  | portDetectIdle (p : Port)
  | torusSupplyOvercurrent (p : Port) (tenthAmps : BitVec 16)
  | modPrsChange (p : Port) (present : Bool)
  -- queue commands run by every executor (13, 02)
  | nop (q : QNum) (c : Cmd)
  | wait (q : QNum) (c : Cmd)
  | waitSatisfied (q : QNum)
  | prefetchReplayDone (q : QNum)
  | signal (q : QNum) (c : Cmd)
  | fence (q : QNum) (c : Cmd)
  | beatAlign (q : QNum) (c : Cmd)
  | unassignedOpcode (q : QNum) (c : Cmd)
  -- matrix arrays (04, 05, 06)
  | mmul (q : QNum) (c : Cmd) (chk : Option CheckFault)
  | mmulT (q : QNum) (c : Cmd) (chk : Option CheckFault)
  | loadStat (q : QNum) (c : Cmd) (chk : Option CheckFault)
  | preloadAcc (q : QNum) (c : Cmd)
  | drain (q : QNum) (c : Cmd)
  -- vector unit (05)
  | vecChain (q : QNum) (c : Cmd)
  | vecReduce (q : QNum) (c : Cmd)
  | softmax (q : QNum) (c : Cmd)
  | norm (q : QNum) (c : Cmd)
  | dropout (q : QNum) (c : Cmd)
  | quantise (q : QNum) (c : Cmd)
  | dequantise (q : QNum) (c : Cmd)
  -- mask unit (07, 09)
  | maskScore (q : QNum) (c : Cmd)
  | prune (q : QNum) (c : Cmd)
  | regrow (q : QNum) (c : Cmd)
  | maskCommit (q : QNum) (c : Cmd)
  | maskRefsReleased (id : BitVec 32)
  | predict (q : QNum) (c : Cmd)
  | maskGather (q : QNum) (c : Cmd)
  -- DMA and gather engines (12, 10)
  | copy (q : QNum) (c : Cmd)
  | fill (q : QNum) (c : Cmd)
  | compare (q : QNum) (c : Cmd)
  | transposeCopy (q : QNum) (c : Cmd)
  | gather (q : QNum) (c : Cmd)
  | scatter (q : QNum) (c : Cmd)
  -- reduction engines (16)
  | redBucket (q : QNum) (c : Cmd)
  | chainStart (q : QNum)
  | redFlush (q : QNum) (c : Cmd)
  | reshard (q : QNum) (c : Cmd)
  | reshardInstall (job : BitVec 32)
  -- training numerics (08)
  | optUpdate (q : QNum) (c : Cmd)
  | lossScaleCheck (q : QNum) (c : Cmd)
  | verdictRoundStart (q : QNum)
  -- semaphores, completion and waiting (13)
  | semCreate (q : QNum) (c : Cmd)
  | semDestroy (q : QNum) (c : Cmd)
  | commandComplete (q : QNum) (idx : BitVec 16)
  | deadlockTimeout (job : BitVec 32)
  -- host accesses (17)
  | doorbellWrite (f : Func) (q : QNum) (size : Nat) (v : BitVec 64)
  | semWindowSet (f : Func) (n : SemNum) (size : Nat) (v : BitVec 64)
  | semWindowAdd (f : Func) (n : SemNum) (size : Nat) (v : BitVec 64)
  | bar2Read (f : Func) (off : BitVec 42) (len : Nat)
  | bar2Write (f : Func) (off : BitVec 42) (data : List Byte)
  | levelWrite (f : Func) (v : BitVec 32)
  | msixVectorUnmask (f : Func) (v : BitVec 11)
  | hostPageResponse (f : Func) (va : BitVec 56) (granted : Bool) (hpa : BitVec 64)
  | hostPageTimeout (f : Func) (va : BitVec 56)
  | atsInvalidationRequest (f : Func) (va : BitVec 64) (len : BitVec 64)
  -- memory system (10)
  | invalidationComplete
  | pageMove (d : Die) (written : Bool)
  | scrubPatrol (found : List MemError)
  | ceSummaryMinute
  | shadowSampleDone (c : CoreNum)
  -- array repair (04)
  | repairRequest (p : Path) (v : BitVec 32)
  | rowTestTimer (a : ArrayNum) (row : Option (BitVec 6))
  | repairQuietPoint (a : ArrayNum) (sparePass : Bool)
  -- queue and descriptor actions (13, 11)
  | queueCreate (p : Path) (data : List Byte)
  | queueResume (p : Path) (q : QNum)
  | queueFlush (p : Path) (q : QNum)
  | queueDestroy (p : Path) (q : QNum)
  | queueDestroyDrained (q : QNum)
  | descCreate (p : Path) (data : List Byte)
  | descDestroy (p : Path) (data : List Byte)
  | eventRingSetup (p : Path) (f : Func) (data : List Byte)
  | jobAbort (p : Path) (job : BitVec 32)
  | functionAbort (p : Path) (f : BitVec 8)
  | abortAbandonDeadline (ofFunction : Bool) (target : BitVec 32)
  | abortComplete (ofFunction : Bool) (target : BitVec 32) (elapsedUs : BitVec 24)
  | loadRequest (p : Path) (data : List Byte)
  | redJobDrained (r : BitVec 10)
  | redJobHoldExpiry (r : BitVec 10)
  | assignSet (p : Path) (kind : BitVec 8) (f : BitVec 8) (first count : BitVec 32)
  | assignShare (p : Path) (kind : BitVec 8) (f : BitVec 8) (first count : BitVec 32)
  | assignRemove (p : Path) (kind : BitVec 8) (f : BitVec 8) (first count : BitVec 32)
  | invalRequest (p : Path) (data : List Byte)
  | recipeWrite (p : Path) (v : BitVec 32)
  | crimalScaleWrite (p : Path) (v : BitVec 8)
  | coordWrite (p : Path) (v : BitVec 32)
  | axisSizeWrite (p : Path) (v : BitVec 32)
  | portEnableWrite (p : Path) (v : BitVec 8)
  -- servicing (19)
  | coreReplace (p : Path) (v : BitVec 16)
  | coreSelfTestDone (d : Die) (pass oldWorks : Bool)
  | coreQuietPoint (c : CoreNum)
  | coreCopyDone (c : CoreNum)
  | memRepair (p : Path) (addr : BitVec 64)
  | memRepairDone (resource : Bool)
  -- the dictionary (18)
  | dictRead (p : Path) (index : BitVec 16) (sub : BitVec 8) (off len : BitVec 32)
  | dictWrite (p : Path) (index : BitVec 16) (sub : BitVec 8) (off : BitVec 32) (data : List Byte)
  | dictInfo (p : Path) (index : BitVec 16) (sub : BitVec 8)
  | registerWrite (t : RegTarget)
  | counterRead (p : Path) (snapshot : Bool)
  | faultAck (p : Path) (code : BitVec 16)
  | gpioClaim (p : Path) (index : BitVec 16) (sub : BitVec 8) (pin : BitVec 8)
  | restoreDefaults (p : Path) (v : BitVec 32)
  | traceEn (p : Path) (v : BitVec 8)
  | traceTrigger (p : Path) (v : BitVec 8)
  | traceGpioEdge (pin : BitVec 2)
  | tracePostExpiry
  -- firmware and attestation (19)
  | fwChunk (p : Path) (data : List Byte)
  | fwChunkProgrammed
  | fwCommit (p : Path)
  | fwActivate (p : Path)
  | handoverReady
  | handoverTimeout
  | svnRaise (p : Path) (kind : BitVec 8)
  | getVersion (p : SpdmPath)
  | getCapabilities (p : SpdmPath)
  | negotiateAlgorithms (p : SpdmPath) (offersSha3 offersMldsa : Bool)
  | getDigests (p : SpdmPath)
  | getCertificate (p : SpdmPath) (slot : BitVec 8) (off len : BitVec 16)
  | challenge (p : SpdmPath) (slot : BitVec 8) (nonce : BitVec 256)
  | getMeasurements (p : SpdmPath) (index : BitVec 8) (signed : Bool) (nonce : BitVec 256)
  -- power, modes, reset and start-up (20, 21)
  | powerOn
  | linkedReached (pBase : BitVec 16) (devices : BitVec 32) (coresFailed : List (Die × BitVec 6)) (arrays : List (ArrayNum × Option (BitVec 6) × Bool))
  | readyConditionsMet
  | inputLoss (mv : BitVec 16)
  | inputOutOfRange (mv : BitVec 16)
  | overvoltageCut
  | governorUpdate (watts : BitVec 16)
  | temperatureReport (tj : List (BitVec 8)) (coolant : BitVec 8)
  | thermalCapStep
  | thermalComparatorTrip (d : Die) (celsius : BitVec 8)
  | setModeDahlia (p : Path)
  | setModeAster (p : Path)
  | setModeLavender (p : Path)
  | setModeSnowdrop (p : Path)
  | lavenderCapWrite (p : Path) (w : BitVec 16)
  | drainRequest (p : Path) (v : BitVec 8)
  | moduleReset (request : Option Path)
  | mgmtOnlyReset (p : Path)
  | portReset (h : HPort) (kind : PortResetKind)
  | perstDeassert (h : HPort)
  | functionLevelReset (f : Func)
  | sidebandMismatchCount (pin : BitVec 5)
  | gpioShortClear (p : Path) (bits : BitVec 4)
  | torusSupplyRestore (p : Path) (bits : BitVec 8)
  | resetRelease
  | powerStageFault
  | inputReversed
  | bar2Resize (f : Func) (log2 : BitVec 6)
  | serviceFirmwareStart
  | rootMonitorReturn
  | arithPllRelock
  deriving DecidableEq, Repr

end Sys2Proof
end

