-- ==== Sys2Proof/WellFormed.lean ====
section
/-! DEFINITION. Which terms of Instr are commands that the surroundings of the module can send: the opcode byte of a queue command is its row's (R359), a slot has its 30 positions and 8 CRCs (R412), a message has the data flits its head counts (R419), and numbers lie in their ranges. -/

namespace Sys2Proof

/-- The opcodes assigned at level 1 (R359). -/
def assignedOpcodes : List (BitVec 8) :=
  [0x00, 0x01, 0x02, 0x03, 0x04, 0x10, 0x11, 0x12, 0x13, 0x14] ++
  [0x30, 0x31, 0x32, 0x33, 0x34, 0x35, 0x36, 0x40, 0x41, 0x42, 0x43, 0x44, 0x45] ++
  [0x50, 0x51, 0x52, 0x53, 0x60, 0x61, 0x70, 0x71, 0x72, 0x80, 0x81, 0xF0, 0xF1]

/-- The OPCODE byte of a command (R357). -/
def opByte (c : Cmd) : BitVec 8 := c.extractLsb' 0 8

/-- A message has as many data flits as its LEN says (R419). -/
def Msg.wf (m : Msg) : Bool := (m.head.extractLsb' 16 16).toNat == m.data.length

/-- A slot has 30 flit positions, 8 group CRCs and 32 parity bytes, and changed bytes lie in it, each once (R412). -/
def RxSlot.wf (r : RxSlot) : Bool :=
  r.flits.length == 30 && r.crcs.length == 8 && r.parity.length == 32 && r.errs.all (fun e => decide (e.1 < 2000) && e.2 != 0) &&
    decide ((r.errs.map (·.1)).Nodup) && r.line.all fun e => decide (e.1 < 25) && decide (e.2 ≤ 544)

/-- The check of every command. -/
def Instr.wf : Instr → Bool
  | .slotReceived _ r => r.wf
  | .chainSegmentReceived _ m | .transferSegmentReceived _ m | .creditGrantReceived _ m
  | .verdictMessageReceived _ m | .ident _ m | .ping _ m | .pong _ m | .offset _ m
  | .laneMove _ m | .laneAck _ m | .recheck _ m | .stretchRecord _ m => m.wf
  | .laneSignalLoss _ l | .laneErrorWindow _ l _ => decide (l.toNat < 9)
  | .mapDone _ _ _ _ (some l) => decide (l.toNat < 9)
  | .nop _ c => opByte c == 0x00
  | .wait _ c => opByte c == 0x01
  | .signal _ c => opByte c == 0x02
  | .fence _ c => opByte c == 0x03
  | .beatAlign _ c => opByte c == 0x04
  | .unassignedOpcode _ c => !assignedOpcodes.contains (opByte c)
  | .mmul _ c _ => opByte c == 0x10
  | .mmulT _ c _ => opByte c == 0x11
  | .loadStat _ c _ => opByte c == 0x12
  | .preloadAcc _ c => opByte c == 0x13
  | .drain _ c => opByte c == 0x14
  | .vecChain _ c => opByte c == 0x30
  | .vecReduce _ c => opByte c == 0x31
  | .softmax _ c => opByte c == 0x32
  | .norm _ c => opByte c == 0x33
  | .dropout _ c => opByte c == 0x34
  | .quantise _ c => opByte c == 0x35
  | .dequantise _ c => opByte c == 0x36
  | .maskScore _ c => opByte c == 0x40
  | .prune _ c => opByte c == 0x41
  | .regrow _ c => opByte c == 0x42
  | .maskCommit _ c => opByte c == 0x43
  | .predict _ c => opByte c == 0x44
  | .maskGather _ c => opByte c == 0x45
  | .copy _ c => opByte c == 0x50
  | .fill _ c => opByte c == 0x51
  | .compare _ c => opByte c == 0x52
  | .transposeCopy _ c => opByte c == 0x53
  | .gather _ c => opByte c == 0x60
  | .scatter _ c => opByte c == 0x61
  | .redBucket _ c => opByte c == 0x70
  | .redFlush _ c => opByte c == 0x71
  | .reshard _ c => opByte c == 0x72
  | .optUpdate _ c => opByte c == 0x80
  | .lossScaleCheck _ c => opByte c == 0x81
  | .semCreate _ c => opByte c == 0xF0
  | .semDestroy _ c => opByte c == 0xF1
  | .sidebandMismatchCount pin => decide (13 ≤ pin.toNat ∧ pin.toNat ≤ 18)
  | .temperatureReport tj _ => tj.length == 5
  | .doorbellWrite _ _ n _ | .semWindowSet _ _ n _ | .semWindowAdd _ _ n _ | .registerWrite (.bar0 _ _ n _) => [1, 2, 4, 8].contains n
  | .registerWrite (.pcie f (.numVfs n)) => f.toNat % 64 == 0 && decide (n.toNat ≤ 63)
  | .inputLoss mv => decide (mv.toNat < 36000)
  | .inputOutOfRange mv => decide (mv.toNat < 40000) || decide (60000 < mv.toNat)
  | .bar2Resize _ l => decide (30 ≤ l.toNat ∧ l.toNat ≤ 42)
  | .beatBoundary | .epochBoundary | .timeSyncPulse _ _ _ | .syncPulseMissing | .refPllLock | .timeRefLoss | .timeRefReturn | .holdoverExpiry
  | .timeFaultRecovery | .deadlineCheck | .stretchLatch | .tickSnapshot _ | .slotSend _ | .retryTimeout _ | .signalDetect _
  | .equaliseConverged _ _ _ _ | .equaliseTimeout _ | .mapDone _ _ _ _ none | .lockAchieved _ | .lockTimeout _ | .failedRetryTimer _
  | .heldIdentTimer _ | .retrainDone _ | .retrainTimeout _ | .linkLoss _ | .laneSwitch _ _ | .recalTimer _ | .recalReadaptDone _ | .portDetectIdle _
  | .torusSupplyOvercurrent _ _ | .modPrsChange _ _ | .waitSatisfied _ | .prefetchReplayDone _ | .maskRefsReleased _ | .chainStart _
  | .reshardInstall _ | .verdictRoundStart _ | .commandComplete _ _ | .deadlockTimeout _ | .bar2Read _ _ _ | .bar2Write _ _ _ | .levelWrite _ _
  | .msixVectorUnmask _ _ | .hostPageResponse _ _ _ _ | .hostPageTimeout _ _ | .atsInvalidationRequest _ _ _ | .invalidationComplete | .pageMove _ _
  | .scrubPatrol _ | .ceSummaryMinute | .shadowSampleDone _ | .repairRequest _ _ | .rowTestTimer _ _ | .repairQuietPoint _ _ | .queueCreate _ _
  | .queueResume _ _ | .queueFlush _ _ | .queueDestroy _ _ | .queueDestroyDrained _ | .descCreate _ _ | .descDestroy _ _ | .eventRingSetup _ _ _
  | .jobAbort _ _ | .functionAbort _ _ | .abortAbandonDeadline _ _ | .abortComplete _ _ _ | .loadRequest _ _ | .redJobDrained _ | .redJobHoldExpiry _
  | .assignSet _ _ _ _ _ | .assignShare _ _ _ _ _ | .assignRemove _ _ _ _ _ | .invalRequest _ _ | .recipeWrite _ _ | .crimalScaleWrite _ _
  | .coordWrite _ _ | .axisSizeWrite _ _ | .portEnableWrite _ _ | .coreReplace _ _ | .coreSelfTestDone _ _ _ | .coreQuietPoint _ | .coreCopyDone _
  | .memRepair _ _ | .memRepairDone _ | .dictRead _ _ _ _ _ | .dictWrite _ _ _ _ _ | .dictInfo _ _ _ | .registerWrite (.dict _ _ _ _)
  | .registerWrite (.pcie _ (.msixEnable _)) | .registerWrite (.pcie _ (.atomicEnable _)) | .registerWrite (.pcie _ (.pageRequests _)) | .counterRead _ _ | .faultAck _ _ | .gpioClaim _ _ _ _
  | .restoreDefaults _ _ | .traceEn _ _ | .traceTrigger _ _ | .traceGpioEdge _ | .tracePostExpiry | .fwChunk _ _ | .fwChunkProgrammed | .fwCommit _
  | .fwActivate _ | .handoverReady | .handoverTimeout | .svnRaise _ _ | .getVersion _ | .getCapabilities _ | .negotiateAlgorithms _ _ _
  | .getDigests _ | .getCertificate _ _ _ _ | .challenge _ _ _ | .getMeasurements _ _ _ _ | .powerOn | .linkedReached _ _ _ _ | .readyConditionsMet
  | .overvoltageCut | .governorUpdate _ | .thermalCapStep | .thermalComparatorTrip _ _ | .setModeDahlia _ | .setModeAster _ | .setModeLavender _
  | .setModeSnowdrop _ | .lavenderCapWrite _ _ | .drainRequest _ _ | .moduleReset _ | .mgmtOnlyReset _ | .portReset _ _ | .perstDeassert _
  | .functionLevelReset _ | .gpioShortClear _ _ | .torusSupplyRestore _ _ | .resetRelease | .powerStageFault | .inputReversed | .serviceFirmwareStart
  | .rootMonitorReturn | .arithPllRelock => true

end Sys2Proof
end

