-- ==== Sys2Proof/Decode.lean ====
section
/-! DEFINITION. No row of spec/opcode_table.json gives the bits of a command ("fields" is empty in every row), so no word spells one. -/

namespace Sys2Proof

/-- The command that a word spells by the table's bits: the table gives no bits, so none. -/
def decodeTableWord (_nbits _w : Nat) : Option Instr := none

end Sys2Proof
end

