-- ==== Sys2Proof/Machine/State.lean ====
section
/-! DEFINITION. The state of the module: every register, memory, queue and status the manual names, as plain data, and the queue of waiting commands. Tables with many equal entries are sparse: an entry that is not listed has the default that its reader gives (its reset value). -/

namespace Sys2Proof.Machine

/-- A sparse table: keys strictly rising. Its reader gives the default, the value of every key that is not listed. -/
abbrev Tab (α : Type) := List (Nat × α)

/-! ### Fabric time (02) -/

/-- The states of the time unit (R32). -/
inductive TimeState where
  | unlocked | locked | aligned | holdover | fault
  deriving DecidableEq, Repr

/-- The fabric time unit (R24, R28 to R32, R45 to R53). -/
structure TimeUnit where
  tick : BitVec 64 := 0
  /-- stretch offset: beat counter minus schedule beat counter (R24) -/
  offset : BitVec 48 := 0
  st : TimeState := .unlocked
  /-- the state that HOLDOVER was entered from (R32) -/
  heldFrom : TimeState := .locked
  /-- the latest well-formed pulse since lock, by the tick counter (R28, R32) -/
  lastPulse : Option (BitVec 64) := none
  nextEpoch : BitVec 32 := 0
  /-- NEXT_EPOCH was written since the previous pulse (R31) -/
  epochWritten : Bool := false
  alignedOnce : Bool := false
  /-- number of the epoch that the latest pulse of a pair in LOCKED opens, where one was written before it (R31) -/
  pairEpoch : Option (BitVec 32) := none
  missingRun : BitVec 8 := 0
  /-- expected tick of a pulse that a malformed pulse has already been counted missing for (R30) -/
  missedAt : Option (BitVec 64) := none
  slip : Bool := false
  inverted : Bool := false
  holdSeen : Bool := false
  refPresent : Bool := false
  /-- tick at which a pulse was last seen (SYNC_PRESENT, R53) -/
  pulseSeen : Option (BitVec 64) := none
  /-- stretch targets seen, as wall beats (R46) -/
  strSeen : List (BitVec 48) := []
  /-- stretch targets whose first indication came after their latch point: ignored, and no longer counted (R46, R48) -/
  strLate : List (BitVec 48) := []
  /-- stretch targets latched (R47) -/
  strLatched : List (BitVec 48) := []
  /-- consecutive stretch beats up to this one (R50) -/
  strRun : Nat := 0
  inStretch : Bool := false
  stretchTotal : BitVec 64 := 0
  /-- LAST_STRETCH: identity, schedule beat, queue (R46, R52) -/
  lastStretch : BitVec 160 := 0
  /-- engines issue no new command, from the beat boundary after FAULT (R34) -/
  stopIssue : Bool := false
  deriving DecidableEq, Repr

/-! ### Paths to the dictionary (18) -/

/-- What one path of R485 keeps for itself (R52, R335, R400, R483, R486, R487). -/
structure PathState where
  /-- selector entries by 256 index + subindex (R483) -/
  sel : Tab Nat := []
  /-- snapshot of tick, beat and schedule beat (R52) -/
  snap : Option (BitVec 64 × BitVec 48 × BitVec 48) := none
  descStatus : BitVec 32 := 0xFF
  loadStatus : List Byte := []
  /-- snapshot of the entry last read at offset 0 (R488) -/
  readSnap : Option (Nat × List Byte) := none
  resp : BitVec 16 := 0
  respData : List Byte := []
  winOff : BitVec 32 := 0
  winLen : BitVec 32 := 0
  winData : List Byte := []
  /-- a DESC_CREATE of the path that waits for a host page, by its value: the request is in progress (R283, R487) -/
  descWait : Option (List Byte) := none
  deriving DecidableEq, Repr

/-! ### Torus ports (15) -/

/-- The states of a port, in the order of STATE in PORT_STATUS (R421, R430). -/
inductive PortPhase where
  | disabled | detect | equalise | map | lock | identify | active | retrain | held | failed
  deriving DecidableEq, Repr

/-- A flit of the transmit side: its sequence number once it has one, its bytes, whether it is a message head, the chain context whose segment it belongs to, and whether its wait for the retry buffer has been counted (R416). -/
structure TxFlit where
  seq : BitVec 16
  flit : Flit
  isHead : Bool
  src : Option QNum
  held : Bool := false
  deriving DecidableEq, Repr

/-- A slot as the module sent it (R412): header, 30 positions, 8 group CRCs and the 32 parity bytes of the light code. -/
structure TxSlot where
  hdr : BitVec 128
  flits : List Flit
  crcs : List (BitVec 32)
  parity : List Byte
  deriving DecidableEq, Repr

/-- Why a lane moves (R426): a recalibration onto the spare, the way back from it, or for good. -/
inductive MoveKind where
  | recalOut | recalBack | spare
  deriving DecidableEq, Repr

/-- A lane move under way (R425): of our receive direction or not, logical lane, physical target, wall beat, acknowledged, and, at the receiver, which asks for it, its kind. -/
structure LaneMoveSt where
  rx : Bool
  lane : BitVec 4
  target : BitVec 4
  beat : BitVec 48
  acked : Bool
  kind : MoveKind
  deriving DecidableEq, Repr

/-- One torus port (R404 to R431). -/
structure PortState where
  st : PortPhase := .disabled
  reason : BitVec 4 := 0
  hollyhock : Bool := false
  /-- MISMATCH of stretch offsets or of wall time holds the port out of scheduled service (R35, R428) -/
  mismatch : Bool := false
  /-- a link that came up while time ran waits for the next epoch boundary (R427) -/
  awaitEpoch : Bool := false
  /-- the OFFSET exchange of this training agreed (R35, R427) -/
  offsetAgreed : Bool := false
  /-- the far end has reported another offset since they last agreed, and may yet adopt this module's (R35, log entry 79) -/
  offsetDiffers : Bool := false
  /-- the far end's IDENT has come, and the hop latency is measured, in this IDENTIFY (R410, R421) -/
  identSeen : Bool := false
  measured : Bool := false
  /-- tick at which the port entered RETRAIN (R428) -/
  retrainAt : BitVec 64 := 0
  skewRun : Nat := 0
  txSeq : BitVec 16 := 0
  retry : List TxFlit := []
  replay : List TxFlit := []
  backlog : List TxFlit := []
  /-- flits at the front of the backlog that continue a message whose head is placed (log entry 19) -/
  begun : Nat := 0
  strRecs : List TxFlit := []
  mgmt : List TxFlit := []
  replays : Nat := 0
  replayFrom : BitVec 16 := 0
  rxNext : BitVec 16 := 0
  nakOwed : Bool := false
  inGap : Bool := false
  partialMsg : Option (Flit × List Flit) := none
  inbox : List Msg := []
  strOut : List (BitVec 4) := []
  abtOut : List (BitVec 10) := []
  lastSlot : Option TxSlot := none
  /-- slot bytes that no line codeword holds yet (R408) -/
  lineBuf : List Byte := []
  /-- the symbols that each of the nine physical transmit lanes sent with the latest slot: codewords striped over the logical lanes, PRBS31 on the spare (R408) -/
  lanes : List (List (BitVec 10)) := List.replicate 9 []
  /-- symbols of the PRBS31 pattern sent so far -/
  prbsPos : Nat := 0
  neighbour : BitVec 160 := 0
  hopLatency : BitVec 16 := 0
  rxReversed : Bool := false
  rxPolarity : BitVec 9 := 0
  rxSpare : BitVec 4 := 8
  txSpare : BitVec 4 := 8
  recalBusy : Bool := false
  recalNext : BitVec 4 := 0
  /-- physical lane of each logical lane -/
  rxMap : List (BitVec 4) := [0, 1, 2, 3, 4, 5, 6, 7]
  txMap : List (BitVec 4) := [0, 1, 2, 3, 4, 5, 6, 7]
  rxSpareUsed : Bool := false
  txSpareUsed : Bool := false
  /-- the move under way of each direction (R425, R426) -/
  moveRx : Option LaneMoveSt := none
  moveTx : Option LaneMoveSt := none
  /-- the transmit spare as training left it: a logical lane that rides on it uses the spare up (R430) -/
  txHomeSpare : BitVec 4 := 8
  idle : Bool := false
  supplyCut : Bool := false
  plugged : Bool := false
  deriving DecidableEq, Repr

/-! ### Host ports and functions (17) -/

/-- One host port (R460, R477, R542). -/
structure HostPort where
  state : BitVec 3 := 0
  rate : BitVec 4 := 0
  width : BitVec 5 := 0
  flit : Bool := false
  numVfs : BitVec 8 := 0
  /-- PERST# is asserted -/
  perst : Bool := true
  /-- the port answers configuration requests without retry status (R542) -/
  ready : Bool := false
  deriving DecidableEq, Repr

/-- How a host page request stands (R283). -/
inductive AtsState where
  | requested | granted (hpa : BitVec 64) | refused | timedOut
  deriving DecidableEq, Repr

/-- One host function (R371, R374, R463 to R467, R469, R310). -/
structure FuncState where
  levelHost : BitVec 4 := 0
  agreed : BitVec 4 := 0
  eventRead : BitVec 32 := 0
  aperture : BitVec 64 := 0
  bar2Log2 : BitVec 6 := 38
  root : BitVec 64 := 0
  ringBase : BitVec 64 := 0
  ringN : BitVec 8 := 0
  ringW : BitVec 32 := 0
  msixEnabled : Bool := false
  msixMask : BitVec 2048 := BitVec.allOnes 2048
  msixPending : BitVec 2048 := 0
  /-- address and data words of the MSI-X table, by 4 x vector + word (R466) -/
  msixTable : Tab (BitVec 32) := []
  /-- messages sent by vector: the model's own record of an output -/
  msixSent : Tab Nat := []
  atomicEnable : Bool := false
  /-- host pages by 2^56 x (target - 1) + page number (R283, R465) -/
  ats : Tab AtsState := []
  /-- page requests that the host allocates in the PRI capability (R465) -/
  priAlloc : BitVec 32 := 0
  /-- ATS Invalidation Requests whose completion has not been sent: host address and length (R465) -/
  atsInval : List (BitVec 64 × BitVec 64) := []
  /-- ATS Invalidation Completions sent (R465): the model's own record of an output -/
  atsDone : Nat := 0
  /-- records for the event ring that wait for the host's translation of their page: virtual address and bytes (R283, R374) -/
  evWait : List (Nat × List Byte) := []
  /-- data returned by the latest BAR2 read; none for a poisoned completion (R306, R470) -/
  bar2Data : Option (List Byte) := some []
  deriving DecidableEq, Repr

/-! ### Queues and semaphores (13) -/

/-- Queue states (R355). -/
inductive QState where
  | free | active | halted | aborted
  deriving DecidableEq, Repr

/-- A validated descriptor (R314, R316): its 128 bytes with the assigned ALIAS class, and the ragged table it copied (R332). -/
structure Desc where
  raw : BitVec 1024
  mayAlias : Bool
  ragged : List Nat
  deriving DecidableEq, Repr

/-- A span of bytes that a started command writes (log entry 12): a physical or virtual start and a length. -/
structure Span where
  near : Bool
  start : Nat
  len : Nat
  deriving DecidableEq, Repr

/-- Where an abort may stop a DMA command, before a burst or at its end: bytes left, the first element left with its source and destination addresses (none at the end), mismatches found so far and the first of them (R343, R345, R346). -/
structure Burst where
  residue : Nat
  next : Option (Nat × Nat × Nat)
  bad : Nat
  first : Nat
  deriving DecidableEq, Repr

/-- A started command that has no record yet: what its record will hold (R362) and what its completion does (R344, R364, R206, R293, R294). -/
structure Started where
  idx : BitVec 16
  op : BitVec 8
  cmd : Cmd
  /-- PHASE of its pass over the ring (R362) -/
  phase : Bool := true
  /-- its work is over: COMMAND_COMPLETE may write its record -/
  done : Bool := true
  status : BitVec 16 := 0
  opspec : BitVec 32 := 0
  dkind : BitVec 3 := 0
  reason : BitVec 4 := 0
  detail : BitVec 56 := 0
  /-- semaphore advanced at completion with OK, and the value added -/
  sem : Option (BitVec 32 × BitVec 64) := none
  /-- mask references dropped at completion (R206) -/
  refs : List (BitVec 32) := []
  /-- identifiers of which the command is an active writer (R293) -/
  writes : List (BitVec 32) := []
  /-- tracked prefetch: core whose tracker holds it (R294) -/
  tracked : Option CoreNum := none
  /-- the tile's reference is dropped at completion (RELEASE, R94) -/
  release : Bool := false
  /-- weight whose registry entry is COMMITTING until the command completes (R207) -/
  commit : Option (BitVec 32) := none
  /-- the command holds its core's check buffer (R347) -/
  holdsBuffer : Bool := false
  /-- status block of a DMA command, written at its completion: tier, addresses and bytes (R344, R345) -/
  stat : Option (Nat × List Nat × List Byte) := none
  /-- bursts of a DMA command (R343) -/
  bursts : List Burst := []
  /-- descriptors as a command that works on after its start copied them: handle, descriptor, element format in force (R314, R227) -/
  copies : List (BitVec 32 × Desc × BitVec 8) := []
  spans : List Span := []
  /-- virtual memory that it has read, latest first (R285) -/
  loads : List Span := []
  /-- poison consumed: physical address and level of the first granule (R305) -/
  ue : Option (Nat × Nat) := none
  deriving DecidableEq, Repr

/-- What blocks the head of a queue (R368, R207, R361, R453). -/
inductive Hold where
  | none
  /-- an unsatisfied or satisfied WAIT: index, words, semaphore, compares equal, target, satisfied -/
  | wait (idx : BitVec 16) (c : Cmd) (sem : SemNum) (eq : Bool) (target : BitVec 64) (sat : Bool)
  /-- a mask reference of this tensor (R207) -/
  | maskRef (id : BitVec 32)
  /-- a FENCE of its job: the commands, by queue and index, that had started when it reached the head (R361) -/
  | fence (on : List (QNum × BitVec 16))
  /-- a RED_BUCKET, already started, that waits for its bucket to be full: index, semaphore, target, full or flushed (R447) -/
  | fill (idx : BitVec 16) (sem : SemNum) (target : BitVec 64) (sat : Bool)
  /-- a command that has started waits for a host page, with its words and its descriptors as it copied them: handle, descriptor, element format in force (R227, R283, R315) -/
  | page (c : Cmd) (copies : List (BitVec 32 × Desc × BitVec 8))
  /-- any other hold: not-before, SERIAL, FENCE, SIGNAL, reshard, tracker -/
  | other
  deriving DecidableEq, Repr

/-- An armed deadline marker (R39, R40). -/
structure Marker where
  idx : BitVec 16
  beat : BitVec 48
  deriving DecidableEq, Repr

/-- One queue (R349 to R356, R385). -/
structure Queue where
  st : QState := .free
  func : Func := 0
  log2N : BitVec 8 := 0
  job : BitVec 32 := 0
  engine : BitVec 16 := 0
  vector : BitVec 16 := 0
  irqMode : BitVec 2 := 0
  ring : BitVec 64 := 0
  comp : BitVec 64 := 0
  /-- BEAT_BASE as created, for QUEUE_QUERY -/
  createdBase : BitVec 64 := 0
  base : BitVec 48 := 0
  head : BitVec 16 := 0
  tail : BitVec 16 := 0
  /-- index of the next command to start -/
  next : BitVec 16 := 0
  /-- PHASE of the command at `next` (R362) -/
  phase : Bool := true
  started : List Started := []
  /-- indices at or past HEAD whose records are written (R352) -/
  written : List (BitVec 16) := []
  hold : Hold := .none
  /-- schedule beat and slot at which the present head command reached the head; slot 256 in a stretch beat (R38, R39) -/
  headBeat : BitVec 48 := 0
  headSlot : Nat := 0
  /-- tick at which the queue became blocked (R377) -/
  since : BitVec 64 := 0
  markers : List Marker := []
  /-- DEADLINE commands covered by a doorbell and not yet armed, and the SET_BASE commands covered and not yet completed: index and words (R39) -/
  unarmed : List (BitVec 16 × Cmd) := []
  destroying : Bool := false
  /-- a FLUSH has begun whose queue is not ACTIVE yet (R355, R356) -/
  flushing : Bool := false
  lastErr : BitVec 16 := 0
  deriving DecidableEq, Repr

/-- Semaphore states (R366). -/
inductive SemState where
  | free | live | orphaned
  deriving DecidableEq, Repr

/-- One semaphore (R366). -/
structure Sem where
  value : BitVec 64 := 0
  st : SemState := .free
  owner : Func := 0
  deriving DecidableEq, Repr

/-! ### Jobs (14, 16, 08, 11) -/

/-- A kind-table entry (R225, R392). -/
structure KindEntry where
  id : BitVec 32
  kind : BitVec 8
  role : BitVec 8
  layer : BitVec 16
  parent : BitVec 32
  deriving DecidableEq, Repr

/-- A layer's recipe and promotion state (R226 to R237, R243 to R247). -/
structure Layer where
  w : BitVec 5 := 0x0C
  a : BitVec 5 := 0x08
  g : BitVec 5 := 0x09
  kv : BitVec 5 := 0x08
  ceil : BitVec 3 := 4
  pending : Option (BitVec 32) := none
  run : Nat := 0
  p99 : BitVec 4 := 0
  promotions : BitVec 8 := 0
  blocked : Bool := false
  flagged : Bool := false
  threshold : BitVec 8 := 12
  hist : List Nat := List.replicate 16 0
  histLast : List Nat := List.replicate 16 0
  histTotal : List Nat := List.replicate 16 0
  crimal : BitVec 8 := 12
  crimalPending : Option (BitVec 8) := none
  deriving DecidableEq, Repr

/-- A verdict round: queue and index of the CLOSE, the chain context's queue, axes still to run, the word so far, and the module's own evidence at the start (R222, R224, R451). -/
structure Verdict where
  queue : QNum
  idx : BitVec 16
  chain : QNum
  axes : BitVec 4
  word : List Byte
  own : Bool
  deriving DecidableEq, Repr

/-- A loaded job (R217, R225, R391, R397, R434, R435, R452). -/
structure Job where
  func : Func := 0
  redJob : BitVec 10 := 0
  fingerprint : BitVec 64 := 0
  seed : BitVec 64 := 0
  stochRed : Bool := false
  crimalMode : Bool := false
  /-- size of the job's ring and the module's coordinate, axes A to D (R434) -/
  p : List Nat := [1, 1, 1, 1]
  q : List Nat := [0, 0, 0, 0]
  epoch : BitVec 6 := 0
  roles : BitVec 16 := 0
  /-- RESHARD waiting for drain: its queue, index, words (R453) -/
  reshard : Option (QNum × BitVec 16 × Cmd) := none
  step : BitVec 64 := 0
  closed : Bool := false
  l : Nat := 16
  clean : Nat := 0
  growth : Nat := 2000
  evidence : Bool := false
  /-- sealed verdict and exponent of the last CLOSE (R223) -/
  overflowed : Bool := false
  lStep : Nat := 16
  closedOnce : Bool := false
  lastVerdict : BitVec 32 := 0
  kinds : List KindEntry := []
  layers : Tab Layer := []
  priv : List (BitVec 32) := []
  descs : Tab Desc := []
  /-- root of the owning function as the job last read it (R282) -/
  root : Option (BitVec 64) := none
  sampleK : BitVec 8 := 8
  minSamples : BitVec 16 := 16
  /-- JOB_STOPPED (R305) -/
  stopped : Bool := false
  aborting : Bool := false
  /-- DEADLOCK raised and not cleared (R376), and its snapshot (R377) -/
  deadlocked : Bool := false
  snapshot : List Byte := []
  /-- a verdict round asked for or in progress (R222, R451) -/
  verdict : Option Verdict := none
  deriving DecidableEq, Repr

/-- The load in progress while it waits for a host page (R283, R398, R400): its path, function and request, and the stage that it has reached. -/
structure LoadWait where
  path : Path
  func : BitVec 7
  stage : BitVec 4
  data : List Byte
  deriving DecidableEq, Repr

/-- An abort under way (R378 to R380): of a function or of a job, its target, and whether its outstanding host requests have been abandoned. -/
structure Abort where
  ofFunction : Bool
  target : BitVec 32
  abandoned : Bool := false
  deriving DecidableEq, Repr

/-- States of a reduction job identifier (R454). -/
inductive RedJobState where
  | free | loaded | draining | hold
  deriving DecidableEq, Repr

/-! ### Reduction (16) -/

/-- A credit grant that has arrived: its port, TAG, LAYOUT_EPOCH and flits (R439, R440). -/
structure Grant where
  port : Port
  tag : BitVec 16
  epoch : BitVec 6
  n : Nat
  deriving DecidableEq, Repr

/-- A chain context: the RED_BUCKET that has started on it, or the verdict round that has entered it (R440, R445 to R451). -/
structure Ctx where
  /-- index and words of the current RED_BUCKET -/
  cur : Option (BitVec 16 × Cmd) := none
  /-- its chain has started (R447) -/
  running : Bool := false
  /-- the verdict round of this job runs here: axis, messages that have arrived on it (R451) -/
  round : Option (BitVec 32 × BitVec 2 × Nat) := none
  /-- layout epoch at the start (R452) -/
  epoch : BitVec 6 := 0
  /-- step numbers at the command's start, which draws its random bits (R217), and at the chain's start (R447) -/
  drawStep : BitVec 64 := 0
  step : BitVec 64 := 0
  /-- loss-scale exponent in force during the step -/
  l : BitVec 6 := 0
  /-- flits of credit from matching grants -/
  credits : Nat := 0
  /-- the whole window has been granted to the current command (R440, log entry 68) -/
  opened : Bool := false
  /-- grants that match nothing yet, oldest first (R440) -/
  grants : List Grant := []
  /-- recorded flush (R450) -/
  flush : Option (BitVec 16) := none
  /-- the context's request at the port arbiter: since which tick it has presented traffic without a break (R44) -/
  reqAt : Option (BitVec 64) := none
  /-- segments handled by shard, owner coordinate to a set of segment numbers as bits; a segment may overtake one that was displaced to a slack slot (R44, R439) -/
  segs : Tab Nat := []
  /-- segments that arrived before the chain started, and segments that wait for credit -/
  inq : List Msg := []
  outq : List Msg := []
  /-- OVF at the owner, and the sums of squares (R444, R448) -/
  ovf : Bool := false
  sumsqLocal : BitVec 32 := 0
  /-- sums of the squares of each vector of 32 of the owned sums, by segment (R146, R448) -/
  sqOwned : Tab (List (BitVec 32)) := []
  deriving DecidableEq, Repr

/-! ### Matrix arrays (04, 05, 06) -/

/-- The loaded stationary tile (R91 to R94, R157, R160, R175). -/
structure Tile where
  form : BitVec 2
  kExt : Nat
  nExt : Nat
  fmt : BitVec 8
  wId : BitVec 32
  epoch : BitVec 16
  masked : Bool
  /-- the array holds a reference on the tile's mask epoch (R94) -/
  ref : Bool
  released : Bool
  /-- the weight's descriptor, as copied, and the tile's offsets in it, for the parent of a sampled product (R231) -/
  desc : Desc
  kOff : Nat
  nOff : Nat
  deriving DecidableEq, Repr

/-- One element in a row feeder: its code, its E8M0 block-scale exponent, and whether it takes part in match mode (R86, R178). -/
structure FeedElem where
  code : BitVec 16
  exp : BitVec 8
  on : Bool
  deriving DecidableEq, Repr

/-- One matrix array (R77, R78, R85 to R87, R103, R104, R111, R118). Cells are numbered 64 row + column by LOGICAL row, entries 4 cell + entry. -/
structure ArrayState where
  /-- stationary element codes by cell; a cell that is not listed holds +0, whatever its column's scale (R93, R166) -/
  stat : Tab (BitVec 16) := []
  /-- position selects of the 2:4 forms by cell -/
  sel : Tab (BitVec 2) := []
  /-- pattern fields, 32 x 16 blocks -/
  pat : Tab (BitVec 7) := []
  /-- weight-scale registers, 4 column + register, E8M0 codes -/
  wscale : Tab (BitVec 8) := []
  acc : Tab (BitVec 32) := []
  /-- the queues of the row feeders, 0 to 64, the last the spare row's: entries, oldest first, of the elements that a cell row takes in one issue (R86, R87) -/
  feeders : Tab (List (List FeedElem)) := []
  tile : Option Tile := none
  resident : Tab Bool := []
  valid : Tab Bool := []
  terms : Tab Nat := []
  ordinal : Tab Nat := []
  /-- rows started by ACC_MODE = ZERO and not by PRELOAD_ACC (R229) -/
  zeroStart : Tab Bool := []
  /-- mask epoch and weight of the LOAD_STAT whose products wrote a row (R137, R164) -/
  tag : Tab (BitVec 16 × BitVec 32) := []
  /-- orientation (true: MMUL_T) and width 128 of the resident set (R85) -/
  set : Option (Bool × Bool) := none
  latency : BitVec 8 := 6
  spare : BitVec 8 := 0
  sparedRow : BitVec 8 := 0xFF
  /-- pending repair: row, source (R107, R112) -/
  repair : Option (BitVec 6 × BitVec 2) := none
  /-- the repair waits for AUTO_REPAIR and is only recorded (R107) -/
  recorded : Bool := false
  /-- its empty queue gave the quiet point of a repair or a replacement that waits for it: it takes no command (R108, R524) -/
  held : Bool := false
  deriving DecidableEq, Repr

/-- A sampled tile in a core's check buffer (R231): job, layer, the accumulator values and the shadow sums by element, in one order. -/
structure Sample where
  job : BitVec 32
  layer : BitVec 16
  acc : List (BitVec 32)
  ref : List (BitVec 32)
  deriving DecidableEq, Repr

/-! ### Masks (07) -/

/-- States of a registry entry (R207). -/
inductive RegState where
  | idle | commitWait | committing
  deriving DecidableEq, Repr

/-- A registry entry (R182). -/
structure MaskEntry where
  job : BitVec 32
  epoch : BitVec 16 := 0
  st : RegState := .idle
  refs : Nat := 0
  /-- the MASK_COMMIT that waits: queue and words -/
  commit : Option (QNum × Cmd) := none
  deriving DecidableEq, Repr

/-! ### Memory system (10) -/

/-- An entry of the generation table and the count of active writers (R292, R293). -/
structure Gen where
  entered : Bool := false
  gen : BitVec 32 := 0
  writers : Nat := 0
  job : BitVec 32 := 0
  deriving DecidableEq, Repr

/-- A tracker entry (R294, R295): queue and words of the prefetch, identifier and generation recorded, semaphore and value once complete, replays in a row, and the replay under way with the queue whose WAIT asked for it. -/
structure Track where
  queue : QNum
  cmd : Cmd
  id : BitVec 32
  gen : BitVec 32
  sem : Option (BitVec 32)
  v : BitVec 64
  replays : Nat
  run : Option (QNum × Started)
  job : BitVec 32
  deriving DecidableEq, Repr

/-- A page move decided (R301, R302) up into HBM3E: the leaf entry's address, its frame and the new frame, attempts so far, and for a swap the leaf entry of the HBM3E page that takes the old frame. -/
structure PageMv where
  leaf : Nat
  old : Nat
  new : Nat
  attempts : Nat
  other : Option Nat
  deriving DecidableEq, Repr

/-- A translation that a cache holds: the function and root it was made for, the 64 KiB page, and what the walk found: target, frame of 64 KiB, address of the leaf entry, MANAGED, WRITE (R278, R279). -/
structure CachedXl where
  func : Nat
  root : Nat
  page : Nat
  tgt : Nat
  frame : Nat
  leaf : Nat
  managed : Bool
  writable : Bool
  deriving DecidableEq, Repr

/-- Everything of the memory system that is not bytes (R278 to R307). -/
structure MemSys where
  gens : Tab Gen := []
  /-- tracker entries by core (R294) -/
  trackers : Tab (List Track) := []
  /-- the invalidation in progress: function, scope, address (R311) -/
  inval : Option (Func × BitVec 8 × BitVec 64) := none
  /-- INVAL_REQUEST writes that wait (R311) -/
  invalQ : List (Func × BitVec 8 × BitVec 64) := []
  invalDone : BitVec 16 := 0
  /-- gather-cache lines by die: set to lines, most recent first (R290) -/
  cache : Tab (List Nat) := []
  lookups : Nat := 0
  /-- managed pages by leaf address: hot count (R300) -/
  hot : Tab (BitVec 16) := []
  /-- frames of the pool that hold no page, by frame number (R299) -/
  freeFrames : List Nat := []
  /-- bytes of POOL_RANGES (R309) -/
  poolLen : Nat := 0
  /-- entries of the translation caches of the IOD and the dies (R278) -/
  xlates : List CachedXl := []
  moves : List PageMv := []
  /-- poisoned granules found by the scrubber and not yet cleared, by address / 32 (R306, R309) -/
  poisonFound : List Nat := []
  /-- 64 B line of the latest transaction to a managed page: the model's own memory, so that the bytes of one line count one transaction (R300, log entry 16) -/
  lastLine : Nat := 0
  lastUe : List Byte := []
  devices : BitVec 32 := 0x0FFFFFFF
  /-- ticks of the corrections of a row (by 4 KiB chunk) in the last 24 h (R307) -/
  corrections : Tab (List (BitVec 64)) := []
  /-- the memory-row repair in progress, and those waiting (R526) -/
  rowRepair : Option (BitVec 44) := none
  rowQueue : List (BitVec 44) := []
  deriving DecidableEq, Repr

/-! ### Dictionary, counters, trace, black box (18) -/

/-- One trace record's contents (R501). -/
structure TraceRec where
  queue : QNum
  op : BitVec 8
  complete : Bool
  status : BitVec 16
  seq : BitVec 16
  tick : BitVec 64
  deriving DecidableEq, Repr

/-- One black-box record's contents (R504); SEQ is its position in the ring. -/
structure BbRec where
  seq : Nat
  tick : BitVec 64
  powerCycle : BitVec 32
  type : BitVec 16
  source : BitVec 8
  summary : Bool
  inst : BitVec 32
  count : BitVec 32
  detail : List Byte
  crc : BitVec 32 := 0
  deriving DecidableEq, Repr

/-- A journal record of the persistent store (R491): its entry as 256 index + subindex, the value, and the CRC-32 of the record. -/
structure StoreRec where
  key : Nat
  value : List Byte
  crc : BitVec 32
  deriving DecidableEq, Repr

/-- A bank of the persistent store (R491): the generation and CRC-32 of its header, none while the bank is erased, and its journal, oldest first. -/
structure Bank where
  head : Option (BitVec 32 × BitVec 32) := none
  journal : List StoreRec := []
  deriving DecidableEq, Repr

/-- The object dictionary and what this chapter owns (R479 to R507). -/
structure Dict where
  /-- entries with no field of their own, by 256 index + subindex, as little-endian numbers -/
  regs : Tab Nat := []
  /-- the persistent store's two banks; as shipped, bank 0 has a header and no record (R491, log entry 109) -/
  bank0 : Bank := { head := some (0, 0x2144DF1C) }
  bank1 : Bank := {}
  /-- journal records written since power-on (R489) -/
  journal : Nat := 0
  storeBad : Bool := false
  /-- unacknowledged fault events, oldest first (R494) -/
  faults : List (BitVec 16) := []
  /-- counters by 2^48 class + 2^16 instance + code (R496, R499) -/
  ctr : Tab Nat := []
  /-- sticky saturation flags by job (R500) -/
  sticky : Tab Nat := []
  stallReads : Nat := 0
  traceOn : Bool := false
  /-- records still to write after a trigger (R501) -/
  tracePost : Option Nat := none
  traceWraps : BitVec 32 := 0
  traceCount : Nat := 0
  trace : List TraceRec := []
  bbHead : Nat := 0
  /-- the records that copy A and copy B of the black box hold, oldest first (R503) -/
  bb : List BbRec := []
  bbCopyB : List BbRec := []
  /-- records held during a management-only reset (R521) -/
  bbHeld : List BbRec := []
  bbDropped : Nat := 0
  bbRepaired : BitVec 16 := 0
  bbFromB : BitVec 16 := 0
  powerCycle : BitVec 32 := 0
  /-- correctable events of the running minute by 256 class + ... source: count and first location (R506) -/
  ce : Tab (Nat × BitVec 64) := []
  deriving DecidableEq, Repr

/-! ### Trust and servicing (19) -/

/-- A flash slot's image as verification sees it (R511 to R513). -/
structure Slot where
  valid : Bool := false
  kind : BitVec 8 := 0
  version : BitVec 32 := 0
  svn : BitVec 16 := 0
  digest : BitVec 256 := 0
  deriving DecidableEq, Repr

/-- A core replacement under way (R524). -/
structure CoreRepl where
  core : CoreNum
  /-- physical core under self-test, or 63 where the die has none to test -/
  spare : BitVec 6
  passed : Bool := false
  quiet : Bool := false
  copied : Bool := false
  deriving DecidableEq, Repr

/-- An entry of the repair record (R10, R16, R105): an array's row that the spare row replaced, by array index and physical row; or a core that a spare replaced, by die, logical number, old and new physical numbers. -/
inductive RepairRec where
  | row (array : Nat) (row : BitVec 6)
  | core (die : Nat) (logical : Nat) (old new : BitVec 6)
  deriving DecidableEq, Repr

/-- Trust, firmware and core servicing (R508 to R530). -/
structure Trust where
  /-- ROOT_SLOT and SF_SLOT, and the slots whose images run -/
  rootSlot : BitVec 1 := 0
  sfSlot : BitVec 1 := 0
  rootRun : BitVec 1 := 0
  sfRun : BitVec 1 := 0
  /-- targets 0 to 4 of FW_TARGET -/
  slots : List Slot := []
  rootFallback : Bool := false
  /-- the root monitor runs; the service firmware runs and serves; boot in recovery -/
  rootUp : Bool := true
  sfUp : Bool := false
  recovery : Bool := false
  /-- a live handover to a service slot, and whether an old instance keeps running (R520) -/
  handover : Option (BitVec 1 × Bool) := none
  /-- an activated root monitor image awaits the management-only reset's end (R521) -/
  rootNew : Bool := false
  fwTarget : BitVec 8 := 0xFF
  /-- chunks awaiting programming: target, offset, bytes (R519) -/
  chunks : List (Nat × Nat × List Byte) := []
  /-- flash bytes programmed since manufacture, by 2^24 x target + offset -/
  flash : Tab Byte := []
  /-- a COMMIT waits for programming to finish (R527) -/
  commitWait : Bool := false
  /-- the latest COMMIT of this target: none, passed, or the order of the check that failed (R529) -/
  verdict : Option Nat := none
  writtenBytes : Nat := 0
  svnRaised : List (BitVec 16) := [0, 0, 0]
  unlocked : Bool := false
  unlockSvn : Option (BitVec 16) := none
  unlockDigest : BitVec 256 := 0
  /-- nonces used in the module's life (R522) -/
  nonces : Nat := 0
  /-- SPDM negotiation by requester: 1 version, 2 capabilities, 3 algorithms (R517) -/
  spdm : Tab Nat := []
  /-- the latest SPDM response: the model's record of an output -/
  spdmResp : List Byte := []
  /-- logical to physical cores that differ from the identity; for a vacant one the physical core it had last (R16, R17) -/
  coreMap : Tab (BitVec 6) := []
  /-- logical cores that are vacant (R17) -/
  vacant : List CoreNum := []
  /-- the repair record, oldest entry first: it outlives every reset (R16, R105, log entry 93) -/
  record : List RepairRec := []
  /-- failed or used physical spares by die: bit 0 core 32, bit 1 core 33 -/
  sparesGone : List (BitVec 2) := [0, 0, 0, 0]
  repl : List CoreRepl := []
  coreStatus : BitVec 32 := 0
  /-- events that wait for the root monitor: functions, code, DETAIL (R527) -/
  heldPosts : List (List Nat × Nat × List Byte) := []
  deriving DecidableEq, Repr

/-! ### Power, modes, states, pins (20, 21) -/

/-- Module states (R539). -/
inductive ModState where
  | off | standby | managed | linked | ready | running | draining | faulted
  deriving DecidableEq, Repr

/-- Power, modes, reset and the sideband pins (R531 to R563). -/
structure Power where
  state : ModState := .managed
  mode : BitVec 8 := 0
  cap : BitVec 16 := 2800
  /-- idle ticks of this beat and of the next (R534, R535) -/
  s : Nat := 0
  sNext : Nat := 0
  sPrev : Nat := 0
  /-- envelope in force, and the change that the next beat boundary applies (R532) -/
  envelope : Nat := 2800
  envelopeNext : Option Nat := none
  /-- measured beat powers of the window, latest first; beats before the list count as padPower (R535) -/
  watts : List Nat := []
  padPower : Nat := 0
  /-- calculations in which the window's restart still counts: 2 in the first beat of a new envelope (R535) -/
  restart : Nat := 0
  /-- the governor has chosen s for the next beat -/
  governed : Bool := false
  /-- the thermal cap in 1/20 W; none while it stands at the envelope (R537) -/
  thermalCap : Option Nat := none
  /-- THERMAL_WARN is posted, and the dies have not been cool for 1 ms since (R537) -/
  warm : Bool := false
  /-- tick since which every die is at or below the threshold less 3 degrees -/
  coolSince : Option (BitVec 64) := none
  tj : List (BitVec 8) := [0, 0, 0, 0, 0]
  coolant : BitVec 8 := 0
  inputMv : BitVec 16 := 0
  /-- sum of the epoch's beat powers, for the mean (R547) -/
  epochW : Nat := 0
  meanW : BitVec 16 := 0
  peakW : BitVec 16 := 0
  /-- input energy since power-on in watts times beats of 2.56 us, 390,625 to the joule (R547) -/
  energy : Nat := 0
  pBase : BitVec 16 := 0
  mhz : BitVec 16 := 0
  /-- running cycles of the arithmetic clock in the epoch, and throttled cycles since power-on, to the end of the last beat (R534, R547) -/
  runTicks : Nat := 0
  throttled : Nat := 0
  windowPosted : Bool := false
  drain : Bool := false
  faultCause : BitVec 8 := 0
  /-- an input fault waits for the root monitor to return (R546) -/
  faultHeld : Bool := false
  /-- start-up self-test is over: memories, cores and arrays are known (R543) -/
  tested : Bool := false
  /-- the arithmetic clock is gated while its PLL relocks (R532) -/
  relock : Bool := false
  /-- ticks ratio of the arithmetic clock: 25 or 22 (R21) -/
  ratio : Nat := 25
  resetHeld : Bool := false
  pwrGood : Bool := false
  reversedLatch : Bool := false
  overvolt : Bool := false
  undervolt : Bool := false
  switchOpen : Bool := false
  enableMated : Bool := true
  inRange : Bool := true
  gpioShort : BitVec 4 := 0
  /-- FAULT# is held low from outside (R560) -/
  faultLineLow : Bool := false
  faultLineHigh : Bool := false
  pwrGoodMismatch : Bool := false
  deriving DecidableEq, Repr

/-! ### Outcomes -/

/-- Faults of a step. No command of the manual ends in one: an error of a command is a status in its record, and a fault of the module is the state FAULTED. -/
inductive Fault where
  /-- Raised by nothing in this model; the type must not be empty so that the host can name it. Safe. -/
  | none
  deriving DecidableEq, Repr

/-- Refusals of a step. -/
inductive Refusal where
  /-- Raised by exec for a row that has no meaning yet; safe. -/
  | notModelled (mnemonic : String)
  deriving DecidableEq, Repr

/-! ### The module -/

/-- The whole module. -/
structure State where
  /-- the commands that are waiting, first in first out -/
  pending : List Instr := []
  time : TimeUnit := {}
  paths : Tab PathState := []
  ports : Tab PortState := []
  hosts : Tab HostPort := []
  funcs : Tab FuncState := []
  /-- the primary port at power-on, whose physical function was given everything (R472) -/
  homePort : HPort := 0
  /-- assigned functions of an item by 2^32 kind + item, where not the primary PF alone (R472, R473) -/
  assign : Tab (BitVec 128) := []
  queues : Tab Queue := []
  /-- the queue whose head each executor took last (R354) -/
  turns : Tab QNum := []
  sems : Tab Sem := []
  jobs : Tab Job := []
  redJobs : Tab (RedJobState × BitVec 6) := []
  ctxs : Tab Ctx := []
  aborts : List Abort := []
  abortStatus : BitVec 32 := 0
  abtSeen : List (BitVec 10 × BitVec 64) := []
  load : Option LoadWait := none
  arrays : Tab ArrayState := []
  repairStatus : BitVec 32 := 0
  /-- samples waiting in the check buffer of each core (R233) -/
  samples : Tab (List Sample) := []
  masks : Tab MaskEntry := []
  commits : BitVec 64 := 0
  /-- device bytes at physical addresses, near memory in its window (R271) -/
  mem : List Host.Cell := []
  /-- poisoned 32 B granules by address / 32 (R304) -/
  poison : List Nat := []
  /-- bytes the module last wrote to host memory, by 2^64 port + address: the model's record of an output -/
  hostMem : List Host.Cell := []
  msys : MemSys := {}
  dict : Dict := {}
  trust : Trust := {}
  power : Power := {}
  /-- free values drawn so far (log entry 5) -/
  free : Nat := 0
  deriving DecidableEq, Repr

/-- The images the module is shipped with, in the slots of R511 (log entry 10). -/
def shippedSlot (n : Nat) : Slot :=
  ⟨true, if n < 2 then 1 else 2, Config.shippedVersion n, Config.shippedSvn n, Config.shippedDigest n⟩

/-- The module right after a power-on reset: state MANAGED, which 0x2010:01 gives as its default (R547); the root monitor runs, the IOD and the service firmware do not yet (R543); the time unit is UNLOCKED (R32). -/
def State.reset : State :=
  { trust := { slots := [shippedSlot 0, shippedSlot 1, shippedSlot 2, shippedSlot 3, {}] } }

end Sys2Proof.Machine
end

