-- ==== Sys2Proof/Machine/DictTable.lean ====
section
/-! DEFINITION. The table of dictionary entries: for each index and range of subindices its type, access right, live mark, persistence flag and default (R479 to R482), as the chapters that own the entries list them. A default that the table of its chapter does not give as a number (fused, derived, from the image) is held by the field that the entry reads. -/

namespace Sys2Proof.Machine

/-- Entry types (R480); the size of a BLOB or STR and the element count of an ARRAY. -/
inductive DType where
  | bool | u8 | u16 | u32 | u64
  | str (n : Nat)
  | blob (n : Nat)
  | arr (e : DType) (n : Nat)
  deriving DecidableEq, Repr

/-- Access rights (R481). -/
inductive Access where
  | ro | rw | rwl | wo | rws
  deriving DecidableEq, Repr

/-- One row: index, first and last subindex, type, access right, live, persistent, default as a little-endian number. -/
structure Entry where
  index : Nat
  lo : Nat
  hi : Nat
  type : DType
  acc : Access
  live : Bool
  pers : Bool
  dflt : Nat
  deriving DecidableEq, Repr

/-- Bytes of a value (R480). -/
def DType.size : DType → Nat
  | .bool | .u8 => 1
  | .u16 => 2
  | .u32 => 4
  | .u64 => 8
  | .str n | .blob n => n
  | .arr e n => e.size * n

/-- Type codes (R480). -/
def DType.code : DType → Nat
  | .bool => 1 | .u8 => 2 | .u16 => 3 | .u32 => 4 | .u64 => 5 | .str _ => 8 | .blob _ => 9 | .arr _ _ => 10

/-- Access codes of INFO (R486). -/
def Access.code : Access → Nat
  | .ro => 0 | .rw => 1 | .rwl => 2 | .wo => 3 | .rws => 4

/-- Entries: identity and capability (R3, R489). -/
def entriesIdentity : List Entry :=
  [⟨0x1000, 0x00, 0x00, .u8, .ro, false, false, 6⟩,
   ⟨0x1000, 0x01, 0x01, .u16, .ro, false, false, 0x1f3e⟩,
   ⟨0x1000, 0x02, 0x02, .u16, .ro, false, false, 0x710⟩,
   ⟨0x1000, 0x03, 0x03, .u8, .ro, false, false, 0⟩,
   ⟨0x1000, 0x04, 0x04, (.str 256), .ro, false, false, 0⟩,
   ⟨0x1000, 0x05, 0x05, (.str 256), .ro, false, false, 0⟩,
   ⟨0x1000, 0x06, 0x06, .u8, .ro, false, false, 1⟩,
   ⟨0x1010, 0x00, 0x00, .u8, .ro, false, false, 0x1b⟩,
   ⟨0x1010, 0x01, 0x01, .u32, .ro, false, false, 4⟩,
   ⟨0x1010, 0x02, 0x02, .u32, .ro, false, false, 0x20⟩,
   ⟨0x1010, 0x03, 0x03, .u32, .ro, false, false, 2⟩,
   ⟨0x1010, 0x04, 0x04, .u32, .ro, false, false, 4⟩,
   ⟨0x1010, 0x05, 0x05, .u32, .ro, false, false, 0x40⟩,
   ⟨0x1010, 0x06, 0x06, .u32, .ro, false, false, 0x40⟩,
   ⟨0x1010, 0x07, 0x07, .u32, .ro, false, false, 1⟩,
   ⟨0x1010, 0x08, 0x08, .u32, .ro, false, false, 0x100⟩,
   ⟨0x1010, 0x09, 0x09, .u32, .ro, false, false, 2⟩,
   ⟨0x1010, 0x0A, 0x0A, .u32, .ro, false, false, 0x2000⟩,
   ⟨0x1010, 0x0B, 0x0B, .u32, .ro, false, false, 0x10⟩,
   ⟨0x1010, 0x0C, 0x0C, .u32, .ro, false, false, 0xc000⟩,
   ⟨0x1010, 0x0D, 0x0D, .u32, .ro, false, false, 8⟩,
   ⟨0x1010, 0x0E, 0x0E, .u32, .ro, false, false, 2⟩,
   ⟨0x1010, 0x0F, 0x0F, .u32, .ro, false, false, 0x40⟩,
   ⟨0x1010, 0x10, 0x10, .u32, .ro, false, false, 0xc⟩,
   ⟨0x1010, 0x11, 0x11, .u32, .ro, false, false, 0x80⟩,
   ⟨0x1010, 0x12, 0x12, .u32, .ro, false, false, 0x10⟩,
   ⟨0x1010, 0x13, 0x13, .u32, .ro, false, false, 0x80⟩,
   ⟨0x1010, 0x14, 0x14, .u32, .ro, false, false, 8⟩,
   ⟨0x1010, 0x15, 0x15, .u32, .ro, false, false, 8⟩,
   ⟨0x1010, 0x16, 0x16, .u32, .ro, false, false, 1⟩,
   ⟨0x1010, 0x17, 0x17, .u32, .ro, false, false, 2⟩,
   ⟨0x1010, 0x18, 0x18, .u32, .ro, false, false, 0x8000⟩,
   ⟨0x1010, 0x19, 0x19, .u32, .ro, false, false, 0x8000⟩,
   ⟨0x1010, 0x1A, 0x1A, .u32, .ro, false, false, 0x10000⟩,
   ⟨0x1010, 0x1B, 0x1B, .u32, .ro, false, false, 0x800⟩]

/-- Entries: host ports and communication (R477, R489). -/
def entriesHost : List Entry :=
  [⟨0x1100, 0x00, 0x00, .u8, .ro, false, false, 8⟩,
   ⟨0x1100, 0x01, 0x01, .u8, .rwl, false, true, 0⟩,
   ⟨0x1100, 0x02, 0x02, (.arr .u32 2), .ro, false, false, 0⟩,
   ⟨0x1100, 0x03, 0x03, (.arr .u8 2), .rwl, false, true, 0x606⟩,
   ⟨0x1100, 0x04, 0x04, (.arr .u8 2), .ro, false, false, 0⟩,
   ⟨0x1100, 0x05, 0x05, (.blob 16), .wo, true, false, 0⟩,
   ⟨0x1100, 0x06, 0x06, .u64, .rw, true, false, 0⟩,
   ⟨0x1100, 0x07, 0x07, (.arr .u64 128), .rw, true, false, 0⟩,
   ⟨0x1100, 0x08, 0x08, (.blob 16), .ro, false, false, 0⟩,
   ⟨0x1200, 0x00, 0x00, .u8, .ro, false, false, 4⟩,
   ⟨0x1200, 0x01, 0x01, .u8, .ro, false, false, 0⟩,
   ⟨0x1200, 0x02, 0x02, .u8, .rwl, false, true, 0x3a⟩,
   ⟨0x1200, 0x03, 0x03, .u32, .ro, false, false, 0⟩,
   ⟨0x1200, 0x04, 0x04, .u32, .wo, false, false, 0⟩]

/-- Entries: power, pins, fault output, GPIO (R493, R494, R547, R562). -/
def entriesPower : List Entry :=
  [⟨0x2000, 0x00, 0x00, .u8, .ro, false, false, 4⟩,
   ⟨0x2000, 0x01, 0x01, .u8, .rw, true, true, 0⟩,
   ⟨0x2000, 0x02, 0x02, .u16, .rw, true, true, 0xaf0⟩,
   ⟨0x2000, 0x03, 0x03, .u8, .ro, false, false, 0⟩,
   ⟨0x2000, 0x04, 0x04, .u16, .ro, false, false, 0⟩,
   ⟨0x2010, 0x00, 0x00, .u8, .ro, false, false, 5⟩,
   ⟨0x2010, 0x01, 0x01, .u8, .ro, false, false, 2⟩,
   ⟨0x2010, 0x02, 0x02, .bool, .rw, true, false, 0⟩,
   ⟨0x2010, 0x03, 0x03, .u32, .rws, false, false, 0⟩,
   ⟨0x2010, 0x04, 0x04, .u8, .ro, false, false, 1⟩,
   ⟨0x2010, 0x05, 0x05, .u8, .ro, false, false, 0⟩,
   ⟨0x2020, 0x00, 0x00, .u8, .ro, false, false, 5⟩,
   ⟨0x2020, 0x01, 0x01, .u16, .ro, false, false, 0⟩,
   ⟨0x2020, 0x02, 0x02, .u16, .ro, false, false, 0⟩,
   ⟨0x2020, 0x03, 0x03, .u16, .ro, false, false, 0⟩,
   ⟨0x2020, 0x04, 0x04, .u16, .ro, false, false, 0⟩,
   ⟨0x2020, 0x05, 0x05, .u64, .ro, false, false, 0⟩,
   ⟨0x2030, 0x00, 0x00, .u8, .ro, false, false, 3⟩,
   ⟨0x2030, 0x01, 0x01, (.arr .u8 5), .ro, false, false, 0⟩,
   ⟨0x2030, 0x02, 0x02, .u8, .ro, false, false, 0⟩,
   ⟨0x2030, 0x03, 0x03, .u8, .rw, true, true, 0x64⟩,
   ⟨0x2040, 0x00, 0x00, .u8, .ro, false, false, 3⟩,
   ⟨0x2040, 0x01, 0x01, .u32, .rw, false, false, 0⟩,
   ⟨0x2040, 0x02, 0x02, .u32, .rw, true, false, 0⟩,
   ⟨0x2040, 0x03, 0x03, .u8, .rw, true, false, 0⟩,
   ⟨0x2E00, 0x00, 0x00, .u8, .ro, false, false, 3⟩,
   ⟨0x2E00, 0x01, 0x01, .u8, .rw, true, true, 0xff⟩,
   ⟨0x2E00, 0x02, 0x02, .u16, .wo, true, false, 0⟩,
   ⟨0x2E00, 0x03, 0x03, .u32, .ro, false, false, 0⟩,
   ⟨0x2F00, 0x00, 0x00, .u8, .ro, false, false, 1⟩,
   ⟨0x2F00, 0x01, 0x01, (.arr .u32 4), .ro, false, false, 0⟩]

/-- Entries: fabric time, torus, reduction (R52, R429, R457). -/
def entriesFabric : List Entry :=
  [⟨0x3000, 0x00, 0x00, .u8, .ro, false, false, 8⟩,
   ⟨0x3000, 0x01, 0x01, .u8, .ro, false, false, 0⟩,
   ⟨0x3000, 0x02, 0x02, .u64, .ro, false, false, 0⟩,
   ⟨0x3000, 0x03, 0x03, .u64, .ro, false, false, 0⟩,
   ⟨0x3000, 0x04, 0x04, .u64, .ro, false, false, 0⟩,
   ⟨0x3000, 0x05, 0x05, .u32, .rw, true, false, 0⟩,
   ⟨0x3000, 0x06, 0x06, .u64, .ro, false, false, 0⟩,
   ⟨0x3000, 0x07, 0x07, .u32, .rw, false, false, 0⟩,
   ⟨0x3000, 0x08, 0x08, (.blob 20), .ro, false, false, 0⟩,
   ⟨0x3010, 0x00, 0x00, .u8, .ro, false, false, 2⟩,
   ⟨0x3010, 0x01, 0x01, .u8, .rw, true, true, 0xff⟩,
   ⟨0x3010, 0x02, 0x02, .u8, .rw, true, true, 0⟩,
   ⟨0x3400, 0x00, 0x00, .u8, .ro, false, false, 0xa⟩,
   ⟨0x3400, 0x01, 0x01, .u64, .ro, false, false, 0⟩,
   ⟨0x3400, 0x02, 0x02, .u32, .rwl, false, true, 0xffffffff⟩,
   ⟨0x3400, 0x03, 0x03, .u32, .rwl, false, true, 0x1010101⟩,
   ⟨0x3400, 0x04, 0x04, .u8, .rw, true, true, 0xff⟩,
   ⟨0x3400, 0x05, 0x05, (.arr .u8 8), .rwl, false, true, 0x202020202020202⟩,
   ⟨0x3400, 0x06, 0x06, .u16, .rw, true, true, 0x3c⟩,
   ⟨0x3400, 0x07, 0x07, .u16, .rw, true, false, 0x40⟩,
   ⟨0x3400, 0x08, 0x08, .u8, .rw, true, false, 0x10⟩,
   ⟨0x3400, 0x09, 0x09, .u32, .rw, true, true, 0x100000⟩,
   ⟨0x3400, 0x0A, 0x0A, .u16, .ro, false, false, 0x800⟩,
   ⟨0x3410, 0x00, 0x00, .u8, .ro, false, false, 8⟩,
   ⟨0x3410, 0x01, 0x08, .u32, .ro, false, false, 0⟩,
   ⟨0x3418, 0x00, 0x00, .u8, .ro, false, false, 8⟩,
   ⟨0x3418, 0x01, 0x08, (.blob 20), .ro, false, false, 0⟩,
   ⟨0x3420, 0x00, 0x00, .u8, .ro, false, false, 8⟩,
   ⟨0x3420, 0x01, 0x08, .u16, .ro, false, false, 0⟩,
   ⟨0x3428, 0x00, 0x00, .u8, .ro, false, false, 8⟩,
   ⟨0x3428, 0x01, 0x08, .u32, .ro, false, false, 0⟩,
   ⟨0x3800, 0x00, 0x00, .u8, .ro, false, false, 7⟩,
   ⟨0x3800, 0x01, 0x01, .u16, .ro, false, false, 0x800⟩,
   ⟨0x3800, 0x02, 0x02, .u16, .ro, false, false, 0x400⟩,
   ⟨0x3800, 0x03, 0x03, .u16, .ro, false, false, 0x40⟩,
   ⟨0x3800, 0x04, 0x04, .u16, .ro, false, false, 0x80⟩,
   ⟨0x3800, 0x05, 0x05, .u16, .ro, false, false, 0x7d0⟩,
   ⟨0x3800, 0x06, 0x06, .u16, .rw, true, false, 0⟩,
   ⟨0x3800, 0x07, 0x07, .u32, .ro, false, false, 0⟩,
   ⟨0x3810, 0x00, 0x00, .u8, .ro, false, false, 2⟩,
   ⟨0x3810, 0x01, 0x01, .u32, .rw, true, false, 0⟩,
   ⟨0x3810, 0x02, 0x02, .u32, .ro, false, false, 0⟩]

/-- Entries: memory and descriptors (R309, R334). -/
def entriesMemory : List Entry :=
  [⟨0x4000, 0x00, 0x00, .u8, .ro, false, false, 6⟩,
   ⟨0x4000, 0x01, 0x01, .u64, .ro, false, false, 0⟩,
   ⟨0x4000, 0x02, 0x02, .u64, .ro, false, false, 0x18000000000⟩,
   ⟨0x4000, 0x03, 0x03, .u64, .ro, false, false, 0x20000000000⟩,
   ⟨0x4000, 0x04, 0x04, .u64, .ro, false, false, 0x20000000000⟩,
   ⟨0x4000, 0x05, 0x05, .u64, .ro, false, false, 0x40000000000⟩,
   ⟨0x4000, 0x06, 0x06, .u32, .ro, false, false, 0xfffffff⟩,
   ⟨0x4010, 0x00, 0x00, .u8, .ro, false, false, 9⟩,
   ⟨0x4010, 0x01, 0x01, .u16, .ro, false, false, 0x40⟩,
   ⟨0x4010, 0x02, 0x02, .u16, .ro, false, false, 0x40⟩,
   ⟨0x4010, 0x03, 0x03, .u16, .ro, false, false, 0x80⟩,
   ⟨0x4010, 0x04, 0x04, .u16, .ro, false, false, 0x80⟩,
   ⟨0x4010, 0x05, 0x05, .u16, .ro, false, false, 0x100⟩,
   ⟨0x4010, 0x06, 0x06, .u32, .ro, false, false, 0x8000⟩,
   ⟨0x4010, 0x07, 0x07, .u16, .ro, false, false, 0x258⟩,
   ⟨0x4010, 0x08, 0x08, .u16, .ro, false, false, 0x384⟩,
   ⟨0x4010, 0x09, 0x09, .u16, .ro, false, false, 0x40⟩,
   ⟨0x4020, 0x00, 0x00, .u8, .ro, false, false, 0x80⟩,
   ⟨0x4020, 0x01, 0x80, .u64, .rw, true, false, 0⟩,
   ⟨0x4021, 0x00, 0x00, .u8, .ro, false, false, 2⟩,
   ⟨0x4021, 0x01, 0x01, (.blob 16), .wo, true, false, 0⟩,
   ⟨0x4021, 0x02, 0x02, .u32, .ro, false, false, 0⟩,
   ⟨0x4030, 0x00, 0x00, .u8, .ro, false, false, 5⟩,
   ⟨0x4030, 0x01, 0x01, .u32, .ro, false, false, 0x20000⟩,
   ⟨0x4030, 0x02, 0x02, .u32, .ro, false, false, 0⟩,
   ⟨0x4030, 0x03, 0x03, .u8, .rw, true, false, 0x10⟩,
   ⟨0x4030, 0x04, 0x04, .u8, .ro, false, false, 0x40⟩,
   ⟨0x4030, 0x05, 0x05, .u16, .rwl, false, false, 0xa⟩,
   ⟨0x4040, 0x00, 0x00, .u8, .ro, false, false, 6⟩,
   ⟨0x4040, 0x01, 0x01, .bool, .rwl, false, false, 0⟩,
   ⟨0x4040, 0x02, 0x02, .u32, .rw, true, false, 0x1000⟩,
   ⟨0x4040, 0x03, 0x03, .u32, .ro, false, false, 0⟩,
   ⟨0x4040, 0x04, 0x04, .u32, .ro, false, false, 0⟩,
   ⟨0x4040, 0x05, 0x05, .u8, .rw, true, false, 1⟩,
   ⟨0x4040, 0x06, 0x06, (.blob 1024), .rwl, false, false, 0⟩,
   ⟨0x4050, 0x00, 0x00, .u8, .ro, false, false, 4⟩,
   ⟨0x4050, 0x01, 0x01, .u8, .rw, true, true, 0x18⟩,
   ⟨0x4050, 0x02, 0x02, .u16, .rw, true, true, 0x10⟩,
   ⟨0x4050, 0x03, 0x03, .u32, .ro, false, false, 0⟩,
   ⟨0x4050, 0x04, 0x04, (.blob 17), .ro, false, false, 0⟩,
   ⟨0x4060, 0x00, 0x00, .u8, .ro, false, false, 6⟩,
   ⟨0x4060, 0x01, 0x01, .u32, .ro, false, false, 0x100000⟩,
   ⟨0x4060, 0x02, 0x02, (.blob 136), .wo, true, false, 0⟩,
   ⟨0x4060, 0x03, 0x03, (.blob 8), .wo, true, false, 0⟩,
   ⟨0x4060, 0x04, 0x04, .u32, .ro, false, false, 0xff⟩,
   ⟨0x4060, 0x05, 0x05, .u64, .rw, true, false, 0⟩,
   ⟨0x4060, 0x06, 0x06, (.blob 128), .ro, false, false, 0⟩]

/-- Entries: arrays, numerics, sparsity (R111, R152, R180, R214, R245, R267). -/
def entriesEngine : List Entry :=
  [⟨0x4810, 0x00, 0x00, .u8, .ro, false, false, 4⟩,
   ⟨0x4810, 0x01, 0x01, (.arr .u8 512), .ro, false, false, 6⟩,
   ⟨0x4810, 0x02, 0x02, .u8, .ro, false, false, 6⟩,
   ⟨0x4810, 0x03, 0x03, (.arr .u8 512), .ro, false, false, 0⟩,
   ⟨0x4810, 0x04, 0x04, (.arr .u8 512), .ro, false, false, 0xff⟩,
   ⟨0x4820, 0x00, 0x00, .u8, .ro, false, false, 3⟩,
   ⟨0x4820, 0x01, 0x01, .u32, .wo, true, false, 0⟩,
   ⟨0x4820, 0x02, 0x02, .u32, .ro, false, false, 0⟩,
   ⟨0x4820, 0x03, 0x03, .bool, .rw, true, true, 1⟩,
   ⟨0x5010, 0x00, 0x00, .u8, .ro, false, false, 8⟩,
   ⟨0x5010, 0x01, 0x01, .u32, .rw, true, false, 0⟩,
   ⟨0x5010, 0x02, 0x02, .u64, .ro, false, false, 0⟩,
   ⟨0x5010, 0x03, 0x03, .u8, .ro, false, false, 0⟩,
   ⟨0x5010, 0x04, 0x04, .u8, .ro, false, false, 0x10⟩,
   ⟨0x5010, 0x05, 0x05, .u32, .ro, false, false, 0⟩,
   ⟨0x5010, 0x06, 0x06, .u32, .rwl, false, false, 0x7d0⟩,
   ⟨0x5010, 0x07, 0x07, .bool, .ro, false, false, 0⟩,
   ⟨0x5010, 0x08, 0x08, .u32, .ro, false, false, 0⟩,
   ⟨0x5020, 0x00, 0x00, .u8, .ro, false, false, 7⟩,
   ⟨0x5020, 0x01, 0x01, .u16, .rw, true, false, 0⟩,
   ⟨0x5020, 0x02, 0x02, .u32, .rw, true, false, 0x4250C⟩,
   ⟨0x5020, 0x03, 0x03, .u32, .ro, false, false, 0⟩,
   ⟨0x5020, 0x04, 0x04, .u8, .rw, true, false, 0xc⟩,
   ⟨0x5020, 0x05, 0x05, (.arr .u32 16), .ro, false, false, 0⟩,
   ⟨0x5020, 0x06, 0x06, (.arr .u64 16), .ro, false, false, 0⟩,
   ⟨0x5020, 0x07, 0x07, .u8, .rw, true, false, 0xc⟩,
   ⟨0x5030, 0x00, 0x00, .u8, .ro, false, false, 4⟩,
   ⟨0x5030, 0x01, 0x01, .u8, .rwl, false, false, 8⟩,
   ⟨0x5030, 0x02, 0x02, .u16, .rwl, false, false, 0x10⟩,
   ⟨0x5030, 0x03, 0x03, .u8, .ro, false, false, 4⟩,
   ⟨0x5030, 0x04, 0x04, .u16, .ro, false, false, 0x200⟩,
   ⟨0x5040, 0x00, 0x00, .u8, .ro, false, false, 6⟩,
   ⟨0x5040, 0x01, 0x01, .u8, .rwl, false, true, 1⟩,
   ⟨0x5040, 0x02, 0x02, .u32, .ro, false, false, 0x10000⟩,
   ⟨0x5040, 0x03, 0x03, .u32, .ro, false, false, 0x100000⟩,
   ⟨0x5040, 0x04, 0x04, .u32, .ro, false, false, 0x1000000⟩,
   ⟨0x5040, 0x05, 0x05, .u8, .ro, false, false, 8⟩,
   ⟨0x5040, 0x06, 0x06, .u8, .ro, false, false, 2⟩,
   ⟨0x5810, 0x00, 0x00, .u8, .ro, false, false, 6⟩,
   ⟨0x5810, 0x01, 0x01, .u8, .ro, false, false, 0x5a⟩,
   ⟨0x5810, 0x02, 0x02, .u8, .ro, false, false, 0x10⟩,
   ⟨0x5810, 0x03, 0x03, .u8, .ro, false, false, 8⟩,
   ⟨0x5810, 0x04, 0x04, .u8, .ro, false, false, 4⟩,
   ⟨0x5810, 0x05, 0x05, .u16, .ro, false, false, 0x80⟩,
   ⟨0x5810, 0x06, 0x06, .u16, .ro, false, false, 0x200⟩,
   ⟨0x5820, 0x00, 0x00, .u8, .ro, false, false, 6⟩,
   ⟨0x5820, 0x01, 0x01, .u32, .ro, false, false, 0x4000⟩,
   ⟨0x5820, 0x02, 0x02, .u32, .ro, false, false, 0⟩,
   ⟨0x5820, 0x03, 0x03, .u64, .ro, false, false, 0⟩,
   ⟨0x5820, 0x04, 0x04, .u32, .rw, true, false, 0⟩,
   ⟨0x5820, 0x05, 0x05, .u32, .ro, false, false, 0⟩,
   ⟨0x5820, 0x06, 0x06, .u8, .ro, false, false, 1⟩,
   ⟨0x5840, 0x00, 0x00, .u8, .ro, false, false, 6⟩,
   ⟨0x5840, 0x01, 0x01, .u16, .ro, false, false, 0x100⟩,
   ⟨0x5840, 0x02, 0x02, .u8, .rw, true, true, 1⟩,
   ⟨0x5840, 0x03, 0x03, .u8, .rw, true, true, 0⟩,
   ⟨0x5840, 0x04, 0x04, .u8, .rwl, false, true, 4⟩,
   ⟨0x5840, 0x05, 0x05, .u16, .ro, false, false, 0x400⟩,
   ⟨0x5840, 0x06, 0x06, .u16, .ro, false, false, 0x800⟩]

/-- Entries: queues, synchronisation, loading (R384, R403). -/
def entriesQueue : List Entry :=
  [⟨0x6000, 0x00, 0x00, .u8, .ro, false, false, 7⟩,
   ⟨0x6000, 0x01, 0x01, .u32, .ro, false, false, 0x8000⟩,
   ⟨0x6000, 0x02, 0x02, .u32, .ro, false, false, 0x10000⟩,
   ⟨0x6000, 0x03, 0x03, .u16, .ro, false, false, 0x100⟩,
   ⟨0x6000, 0x04, 0x04, (.blob 48), .wo, true, false, 0⟩,
   ⟨0x6000, 0x05, 0x05, .u32, .wo, true, false, 0⟩,
   ⟨0x6000, 0x06, 0x06, .u16, .rw, true, false, 0⟩,
   ⟨0x6000, 0x07, 0x07, (.blob 64), .ro, false, false, 0⟩,
   ⟨0x6010, 0x00, 0x00, .u8, .ro, false, false, 5⟩,
   ⟨0x6010, 0x01, 0x01, .u32, .ro, false, false, 0x10000⟩,
   ⟨0x6010, 0x02, 0x02, (.blob 16), .wo, true, false, 0⟩,
   ⟨0x6010, 0x03, 0x03, .u32, .wo, true, false, 0⟩,
   ⟨0x6010, 0x04, 0x04, .u16, .rw, true, false, 0⟩,
   ⟨0x6010, 0x05, 0x05, (.blob 16), .ro, false, false, 0⟩,
   ⟨0x6020, 0x00, 0x00, .u8, .ro, false, false, 0x80⟩,
   ⟨0x6020, 0x01, 0x80, (.blob 16), .rw, true, false, 0⟩,
   ⟨0x6030, 0x00, 0x00, .u8, .ro, false, false, 3⟩,
   ⟨0x6030, 0x01, 0x01, .u32, .rw, true, true, 0x100000⟩,
   ⟨0x6030, 0x02, 0x02, .u32, .rw, true, false, 0⟩,
   ⟨0x6030, 0x03, 0x03, (.blob 8208), .ro, false, false, 0⟩,
   ⟨0x6040, 0x00, 0x00, .u8, .ro, false, false, 3⟩,
   ⟨0x6040, 0x01, 0x01, .u32, .wo, true, false, 0⟩,
   ⟨0x6040, 0x02, 0x02, .u8, .wo, true, false, 0⟩,
   ⟨0x6040, 0x03, 0x03, .u32, .ro, false, false, 0⟩,
   ⟨0x6050, 0x00, 0x00, .u8, .ro, false, false, 5⟩,
   ⟨0x6050, 0x01, 0x01, .u8, .ro, false, false, 0x10⟩,
   ⟨0x6050, 0x02, 0x02, .u16, .ro, false, false, 0xe0⟩,
   ⟨0x6050, 0x03, 0x03, .u16, .ro, false, false, 0x780⟩,
   ⟨0x6050, 0x04, 0x04, .u8, .ro, false, false, 0x80⟩,
   ⟨0x6050, 0x05, 0x05, .u8, .ro, false, false, 2⟩,
   ⟨0x6058, 0x00, 0x00, .u8, .ro, false, false, 2⟩,
   ⟨0x6058, 0x01, 0x01, (.blob 40), .wo, true, false, 0⟩,
   ⟨0x6058, 0x02, 0x02, (.blob 32), .ro, false, false, 0⟩]

/-- Entries: trust, counters, trace, black box (R500, R502, R507, R528). -/
def entriesService : List Entry :=
  [⟨0x6800, 0x00, 0x00, .u8, .ro, false, false, 3⟩,
   ⟨0x6800, 0x01, 0x01, (.arr .u8 3), .ro, false, false, 0⟩,
   ⟨0x6800, 0x02, 0x02, .u8, .ro, false, false, 0⟩,
   ⟨0x6800, 0x03, 0x03, .u8, .rws, false, false, 0⟩,
   ⟨0x6810, 0x00, 0x00, .u8, .ro, false, false, 4⟩,
   ⟨0x6810, 0x01, 0x01, .u8, .ro, false, true, 0⟩,
   ⟨0x6810, 0x02, 0x02, .u8, .ro, false, true, 0⟩,
   ⟨0x6810, 0x03, 0x03, (.arr .u32 4), .ro, false, false, 0⟩,
   ⟨0x6810, 0x04, 0x04, .bool, .ro, false, false, 0⟩,
   ⟨0x6820, 0x00, 0x00, .u8, .ro, false, false, 4⟩,
   ⟨0x6820, 0x01, 0x01, .u8, .rws, false, false, 0xff⟩,
   ⟨0x6820, 0x02, 0x02, (.blob 1024), .rws, false, false, 0⟩,
   ⟨0x6820, 0x03, 0x03, .u8, .rws, false, false, 0⟩,
   ⟨0x6820, 0x04, 0x04, .u32, .ro, false, false, 0⟩,
   ⟨0x6830, 0x00, 0x00, .u8, .ro, false, false, 3⟩,
   ⟨0x6830, 0x01, 0x01, (.blob 1312), .ro, false, false, 0⟩,
   ⟨0x6830, 0x02, 0x02, (.blob 0), .ro, false, false, 0⟩,
   ⟨0x6830, 0x03, 0x03, (.blob 160), .ro, false, false, 0⟩,
   ⟨0x6840, 0x00, 0x00, .u8, .ro, false, false, 5⟩,
   ⟨0x6840, 0x01, 0x01, .u16, .wo, true, false, 0⟩,
   ⟨0x6840, 0x02, 0x02, .u32, .ro, false, false, 0⟩,
   ⟨0x6840, 0x03, 0x03, .bool, .rw, true, true, 1⟩,
   ⟨0x6840, 0x04, 0x04, .u64, .wo, true, false, 0⟩,
   ⟨0x6840, 0x05, 0x05, .bool, .rw, true, true, 1⟩,
   ⟨0x6850, 0x00, 0x00, .u8, .ro, false, false, 1⟩,
   ⟨0x6850, 0x01, 0x01, (.blob 16), .ro, false, false, 0⟩,
   ⟨0x7000, 0x00, 0x00, .u8, .ro, false, false, 4⟩,
   ⟨0x7000, 0x01, 0x01, .u64, .rw, true, false, 0⟩,
   ⟨0x7000, 0x02, 0x02, .u64, .ro, false, false, 0⟩,
   ⟨0x7000, 0x03, 0x03, (.arr .u64 16), .ro, false, false, 0⟩,
   ⟨0x7000, 0x04, 0x04, .u32, .rw, false, false, 0⟩,
   ⟨0x7E00, 0x00, 0x00, .u8, .ro, false, false, 7⟩,
   ⟨0x7E00, 0x01, 0x01, .bool, .rw, true, false, 0⟩,
   ⟨0x7E00, 0x02, 0x02, .u8, .rw, true, true, 0xff⟩,
   ⟨0x7E00, 0x03, 0x03, (.blob 4096), .rw, true, false, 0⟩,
   ⟨0x7E00, 0x04, 0x04, .u32, .rw, true, false, 0x400⟩,
   ⟨0x7E00, 0x05, 0x05, .u32, .ro, false, false, 0⟩,
   ⟨0x7E00, 0x06, 0x06, .bool, .wo, true, false, 0⟩,
   ⟨0x7E00, 0x07, 0x07, (.blob 67108864), .ro, false, false, 0⟩,
   ⟨0x8000, 0x00, 0x00, .u8, .ro, false, false, 4⟩,
   ⟨0x8000, 0x01, 0x01, .u64, .ro, false, false, 0⟩,
   ⟨0x8000, 0x02, 0x02, .u64, .rw, true, false, 0⟩,
   ⟨0x8000, 0x03, 0x03, (.blob 64), .ro, false, false, 0⟩,
   ⟨0x8000, 0x04, 0x04, .u32, .ro, false, false, 0⟩]

/-- All entries; an index is looked up in its own group first, so that a lookup stays short. -/
def entriesOf (index : Nat) : List Entry :=
  if index < 0x1100 then entriesIdentity else if index < 0x2000 then entriesHost
  else if index < 0x3000 then entriesPower else if index < 0x4000 then entriesFabric
  else if index < 0x4800 then entriesMemory else if index < 0x6000 then entriesEngine
  else if index < 0x6800 then entriesQueue else entriesService

/-- Every row of every group. -/
def allEntries : List Entry :=
  entriesIdentity ++ entriesHost ++ entriesPower ++ entriesFabric ++ entriesMemory ++ entriesEngine ++ entriesQueue ++ entriesService

/-- The row of an entry, if it exists. -/
def findEntry (index sub : Nat) : Option Entry :=
  (entriesOf index).find? fun e => e.index == index && decide (e.lo ≤ sub) && decide (sub ≤ e.hi)

/-- The default of an entry. -/
def entryDefault (index sub : Nat) : Nat :=
  match findEntry index sub with
  | some e => e.dflt
  | none => 0

/-- The selector entries (R483). -/
def isSelector (index sub : Nat) : Bool :=
  [0x501001, 0x502001, 0x582004, 0x406005, 0x600006, 0x601004, 0x603002, 0x380006, 0x381001, 0x110006, 0x700001, 0x800002].contains (256 * index + sub)

end Sys2Proof.Machine
end

