-- ==== Sys2Proof/Machine/Ops.lean ====
section
/-! DEFINITION. The named operations over State: bits and bytes, sparse tables, device memory with its poison and its gather-cache lines, address translation, counters, black-box records, MSI-X messages and event records. -/

namespace Sys2Proof.Machine

/-! ### Bits and bytes -/

/-- Bits [lo + n - 1 : lo] of a number. -/
def bits (x lo n : Nat) : Nat := (x >>> lo) % 2 ^ n

/-- The n little-endian bytes of a number (R57, R316). -/
def leBytes : Nat → Nat → List Byte
  | 0, _ => []
  | n + 1, v => BitVec.ofNat 8 v :: leBytes n (v / 256)

/-- The number that little-endian bytes spell. -/
def leNat : List Byte → Nat
  | [] => 0
  | b :: r => b.toNat + 256 * leNat r

/-- Bytes off to off + n - 1 of a list, as a number. -/
def byteField (l : List Byte) (off n : Nat) : Nat := leNat ((l.drop off).take n)

/-- A field of n bytes at offset off of a command (R357). -/
def cmdField (c : Cmd) (off n : Nat) : Nat := bits c.toNat (8 * off) (8 * n)

/-- The 64 bytes of a flit or command. -/
def bytes64 (c : BitVec 512) : List Byte := leBytes 64 c.toNat

/-- Numbers lo, lo + 1, ..., n of them. -/
def rangeFrom (lo n : Nat) : List Nat := (List.range n).map (lo + ·)

/-- A signed number in w-bit two's complement. -/
def sext (w x : Nat) : Int := if x < 2 ^ (w - 1) then (x : Int) else (x : Int) - 2 ^ w

/-! ### Sparse tables -/

/-- The entry of a key, or the reader's default. -/
def tget {α : Type} (d : α) : Tab α → Nat → α
  | [], _ => d
  | (k', v) :: r, k => if k = k' then v else tget d r k

/-- Sets the entry of a key, in key order. -/
def tput {α : Type} (k : Nat) (v : α) : Tab α → Tab α
  | [] => [(k, v)]
  | (k', v') :: r =>
    if k < k' then (k, v) :: (k', v') :: r
    else if k = k' then (k, v) :: r
    else (k', v') :: tput k v r

/-- Removes the entry of a key. -/
def tdel {α : Type} (k : Nat) (t : Tab α) : Tab α := t.filter fun e => e.1 != k

/-- The listed entry of a key. -/
def tfind {α : Type} : Tab α → Nat → Option α
  | [], _ => none
  | (k', v) :: r, k => if k = k' then some v else tfind r k

/-! ### Memory cells -/

/-- The canonical form of memory: addresses strictly rising, and no listed byte is 0, which is what an unlisted address reads as (log entry 4). -/
def Memory.wf : List Host.Cell → Bool
  | [] => true
  | [(_, v)] => v != 0
  | (a, v) :: (b, w) :: r => v != 0 && decide (a < b) && Memory.wf ((b, w) :: r)

/-- One byte of memory; an unlisted address reads as 0 (log entry 4). -/
def memGet : List Host.Cell → Nat → Byte
  | [], _ => 0
  | (k, v) :: r, a => if a = k then v else memGet r a

/-- Writes one byte and keeps the canonical form. -/
def memSet (a : Nat) (b : Byte) : List Host.Cell → List Host.Cell
  | [] => if b = 0 then [] else [(a, b)]
  | (k, v) :: r =>
    if a < k then (if b = 0 then (k, v) :: r else (a, b) :: (k, v) :: r)
    else if a = k then (if b = 0 then r else (a, b) :: r)
    else (k, v) :: memSet a b r

/-- Writes consecutive bytes. -/
def memPut (a : Nat) : List Byte → List Host.Cell → List Host.Cell
  | [], m => m
  | b :: r, m => memPut (a + 1) r (memSet a b m)

/-! ### The physical address map (R271 to R273) -/

def hbmEnd : Nat := 0x18000000000
def lpBase : Nat := 0x20000000000
def nearBase : Nat := 0x40000000000
def nearEnd : Nat := 0x40040000000

/-- A range of n bytes lies wholly in HBM3E. -/
def inHbm (a n : Nat) : Bool := decide (a + n ≤ hbmEnd)
/-- A range lies wholly in LPDDR5X. -/
def inLp (a n : Nat) : Bool := decide (lpBase ≤ a) && decide (a + n ≤ nearBase)
/-- A range lies wholly in HBM3E or LPDDR5X. -/
def inDev (a n : Nat) : Bool := inHbm a n || inLp a n
/-- A range lies wholly in the near-memory window. -/
def inNear (a n : Nat) : Bool := decide (nearBase ≤ a) && decide (a + n ≤ nearEnd)
/-- Core of a near-memory-window address, 32 d + c (R271). -/
def nearCore (a : Nat) : Nat := (a - nearBase) / 0x800000

/-- Device that holds an address, as its bit of DEVICES_OK (R272, R309). -/
def deviceOf (a : Nat) : Nat :=
  if a < hbmEnd then
    3 * (a / 0x6000000000) + (a % 0x6000000000 / 4096) % 3
  else 12 + ((a - lpBase) / 4096) % 16

/-- The device of an HBM3E or LPDDR5X address is in service (R273). -/
def deviceOk (s : State) (a : Nat) : Bool := s.msys.devices.toNat.testBit (deviceOf a)

/-- Every device that holds a 4 KiB chunk of a range is in service (R272, R273). -/
def devicesOk (s : State) (a n : Nat) : Bool :=
  (rangeFrom (a / 4096) ((a + n + 4095) / 4096 - a / 4096)).all fun c => deviceOk s (4096 * c)

/-- Memory unit of 1 GiB (R473). -/
def unitOf (a : Nat) : Nat := if a < hbmEnd then a / 2 ^ 30 else 1536 + (a - lpBase) / 2 ^ 30

/-- Level of an address in class LEVEL of R499. -/
def levelOf (a : Nat) : Nat := if inNear a 1 then 0 else if a < hbmEnd then 2 else 3

/-! ### Access to tables of the state -/

def State.queue (s : State) (q : QNum) : Queue := tget {} s.queues q.toNat
def State.setQueue (s : State) (q : QNum) (x : Queue) : State := { s with queues := tput q.toNat x s.queues }
def State.sem (s : State) (n : Nat) : Sem := tget {} s.sems n
def State.setSem (s : State) (n : Nat) (x : Sem) : State := { s with sems := tput n x s.sems }
def State.port (s : State) (p : Port) : PortState := tget {} s.ports p.toNat
def State.setPort (s : State) (p : Port) (x : PortState) : State := { s with ports := tput p.toNat x s.ports }
def State.hport (s : State) (h : HPort) : HostPort := tget {} s.hosts h.toNat
def State.setHport (s : State) (h : HPort) (x : HostPort) : State := { s with hosts := tput h.toNat x s.hosts }
def State.func (s : State) (f : Nat) : FuncState := tget {} s.funcs f
def State.setFunc (s : State) (f : Nat) (x : FuncState) : State := { s with funcs := tput f x s.funcs }
def State.array (s : State) (a : Nat) : ArrayState := tget {} s.arrays a
def State.setArray (s : State) (a : Nat) (x : ArrayState) : State := { s with arrays := tput a x s.arrays }
def State.ctx (s : State) (q : QNum) : Ctx := tget {} s.ctxs q.toNat
def State.setCtx (s : State) (q : QNum) (x : Ctx) : State := { s with ctxs := tput q.toNat x s.ctxs }
/-- A loaded job. -/
def State.job? (s : State) (j : Nat) : Option Job := tfind s.jobs j
def State.job (s : State) (j : Nat) : Job := tget {} s.jobs j
def State.setJob (s : State) (j : Nat) (x : Job) : State := { s with jobs := tput j x s.jobs }

/-- Number of a path in `State.paths`. -/
def pathKey : Path → Nat
  | .mgmt => 0
  | .mctp h => 1 + h.toNat
  | .window f => 3 + f.toNat

/-- The path of a key. -/
def pathAt (k : Nat) : Path := if k = 0 then .mgmt else if k < 3 then .mctp (BitVec.ofNat 1 (k - 1)) else .window (BitVec.ofNat 7 (k - 3))

def State.path (s : State) (p : Path) : PathState := tget {} s.paths (pathKey p)
def State.setPath (s : State) (p : Path) (x : PathState) : State := { s with paths := tput (pathKey p) x s.paths }

/-- The current value of a dictionary entry that has no field of its own. -/
def State.reg (s : State) (index sub : Nat) : Nat :=
  match tfind s.dict.regs (256 * index + sub) with
  | some v => v
  | none => entryDefault index sub
def State.setReg (s : State) (index sub v : Nat) : State :=
  { s with dict := { s.dict with regs := tput (256 * index + sub) v s.dict.regs } }
/-- A path's copy of a selector entry (R483). -/
def State.selector (s : State) (p : Path) (index sub : Nat) : Nat :=
  tget (entryDefault index sub) (s.path p).sel (256 * index + sub)

/-! ### Time (R24) -/

/-- The beat counter: bits [55:8] of the tick counter. -/
def State.beat (s : State) : BitVec 48 := s.time.tick.extractLsb' 8 48
/-- The schedule beat counter: the beat counter less the stretch offset. -/
def State.schedBeat (s : State) : BitVec 48 := s.beat - s.time.offset
/-- The tick within the beat, which is the slot. -/
def State.slot (s : State) : Nat := s.time.tick.toNat % 256
/-- Counters run: the time unit has left UNLOCKED (R32). -/
def State.ticking (s : State) : Bool := s.time.st != .unlocked

/-! ### Counters (R496 to R499) -/

/-- Key of a counter: class, instance, code. -/
def ctrKey (cls inst code : Nat) : Nat := cls * 2 ^ 48 + inst * 2 ^ 16 + code
def State.counter (s : State) (cls inst code : Nat) : Nat := tget 0 s.dict.ctr (ctrKey cls inst code)
/-- A cumulative counter rises by n, modulo 2^64 (R496). -/
def bump (s : State) (cls inst code n : Nat) : State :=
  if n = 0 then s
  else { s with dict := { s.dict with ctr := tput (ctrKey cls inst code) ((s.counter cls inst code + n) % 2 ^ 64) s.dict.ctr } }
/-- A per-step counter of a job rises by n in the open window, saturating with its sticky flag (R496, R500). -/
def bumpStep (s : State) (job code n : Nat) : State :=
  if n = 0 then s
  else
    let v := s.counter 2 job code + n
    let st := if v < 2 ^ 32 then s.dict.sticky
      else tput job (tget 0 s.dict.sticky job ||| 2 ^ (code - 1)) s.dict.sticky
    { s with dict := { s.dict with ctr := tput (ctrKey 2 job code) (min v (2 ^ 32 - 1)) s.dict.ctr, sticky := st } }

/-! ### Free values (log entry 5) -/

/-- Draws one value that the manual leaves open. -/
def drawWord (s : State) : BitVec 64 × State := (Config.freeWord s.free, { s with free := s.free + 1 })
/-- Draws n bytes that the manual leaves open. -/
def drawBytes (s : State) (n : Nat) : List Byte × State :=
  ((List.range n).map (fun i => Config.freeByte (s.free + i)), { s with free := s.free + n })

/-! ### Black box (R503 to R505) -/

/-- Eight steps of the IEEE 802.3 CRC-32, reflected. -/
def crc32Bits : Nat → Nat → Nat
  | 0, c => c
  | k + 1, c => crc32Bits k (if c.testBit 0 then c / 2 ^^^ 0xEDB88320 else c / 2)

/-- CRC-32 as the Ethernet frame check sequence (R413). -/
def crc32 (bs : List Byte) : Nat := bs.foldl (fun c b => crc32Bits 8 (c ^^^ b.toNat)) 0xFFFFFFFF ^^^ 0xFFFFFFFF

/-- Bytes 0x00 to 0x3B of a black-box record (R504). -/
def bbBody (r : BbRec) : List Byte :=
  leBytes 8 r.seq ++ leBytes 8 r.tick.toNat ++ leBytes 4 r.powerCycle.toNat ++ leBytes 2 r.type.toNat ++ leBytes 1 r.source.toNat ++
    leBytes 1 ((if r.seq < 64 then 1 else 0) + if r.summary then 2 else 0) ++ leBytes 4 r.inst.toNat ++ leBytes 4 r.count.toNat ++
    (r.detail ++ List.replicate 28 0).take 28

/-- A record's CRC is right. -/
def BbRec.good (r : BbRec) : Bool := BitVec.ofNat 32 (crc32 (bbBody r)) == r.crc

/-- A record is readable while SEQ < 64 or HEAD - 65,472 ≤ SEQ (R507). -/
def bbReadable (head seq : Nat) : Bool := decide (seq < head) && (decide (seq < 64) || decide (head ≤ seq + 65472))

/-- One copy of the black box with a record added: a record at or past 64 takes the slot of the one 65,472 before it (R503). -/
def bbPut (head : Nat) (r : BbRec) (l : List BbRec) : List BbRec := (l.filter fun x => bbReadable (head + 1) x.seq) ++ [r]

/-- Appends a record with the next SEQ, to copy A and then to copy B (R503). -/
def bbAppend (d : Dict) (r : BbRec) : Dict :=
  let x := { r with seq := d.bbHead }
  let x := { x with crc := BitVec.ofNat 32 (crc32 (bbBody x)) }
  { d with bb := bbPut d.bbHead x d.bb, bbCopyB := bbPut d.bbHead x d.bbCopyB, bbHead := d.bbHead + 1 }

/-- A slot that a copy of the black box holds with a right CRC. -/
def bbFind (l : List BbRec) (seq : Nat) : Option BbRec := l.find? fun r => r.seq == seq && r.good

/-- What the root monitor does with the black box at power-on: HEAD follows the highest SEQ with a right CRC in either copy, and a slot whose copies disagree is repaired from the copy with the right CRC, and counted (R503). -/
def bbRepair (d : Dict) : Dict :=
  let good := (d.bb ++ d.bbCopyB).filter BbRec.good
  let head := good.foldl (fun h r => max h (r.seq + 1)) 0
  let old := (d.bb ++ d.bbCopyB.filter fun r => d.bb.all fun x => x.seq != r.seq).map (·.seq)
  let slots := (rangeFrom 0 (min head 64) ++ rangeFrom (max 64 (head - 65472)) (head - max 64 (head - 65472))).filter old.contains
  let kept := slots.filterMap fun n => (bbFind d.bb n).or (bbFind d.bbCopyB n)
  let bad := slots.filter fun n => (d.bb.find? fun r => r.seq == n) != d.bbCopyB.find? fun r => r.seq == n
  { d with bb := kept, bbCopyB := kept, bbHead := head, bbRepaired := BitVec.ofNat 16 (min 0xFFFF bad.length) }

/-- Writes a black-box record: type, source class, instance, DETAIL. While the root monitor is not running the record is held, at most 256 of them; more are dropped and counted (R521). -/
def bbWrite (s : State) (type src inst : Nat) (detail : List Byte) (count : Nat := 1) (summary : Bool := false) : State :=
  let r : BbRec := ⟨0, if s.time.st = .unlocked then 0 else s.time.tick, s.dict.powerCycle, BitVec.ofNat 16 type,
    BitVec.ofNat 8 src, summary, BitVec.ofNat 32 inst, BitVec.ofNat 32 (min count (2 ^ 32 - 1)), detail, 0⟩
  if s.trust.rootUp then { s with dict := bbAppend s.dict r }
  else if s.dict.bbHeld.length < 256 then { s with dict := { s.dict with bbHeld := s.dict.bbHeld ++ [r] } }
  else { s with dict := { s.dict with bbDropped := s.dict.bbDropped + 1 } }

/-! ### Assignments (R472, R473) -/

/-- The functions to which an item of a kind is assigned, bit f for function f. -/
def State.assigned (s : State) (kind item : Nat) : BitVec 128 :=
  tget (BitVec.ofNat 128 (2 ^ (64 * s.homePort.toNat))) s.assign (2 ^ 32 * kind + item)
def State.assignedTo (s : State) (kind item f : Nat) : Bool := (s.assigned kind item).getLsbD f

/-! ### Device memory -/

/-- Bytes at physical addresses. -/
def physRead (s : State) (a n : Nat) : List Byte := (rangeFrom a n).map (memGet s.mem)

/-- The first poisoned granule of a range, as its address (R304). -/
def poisonIn (s : State) (a n : Nat) : Option Nat :=
  ((rangeFrom (a / 32) ((a + n + 31) / 32 - a / 32)).find? fun g => s.poison.contains g).map (32 * ·)

/-- A granule becomes poisoned: ECC_UE counts it at its level (R304, R312). -/
def poisonGranule (s : State) (g : Nat) : State :=
  if s.poison.contains g then s else bump { s with poison := g :: s.poison } 7 (levelOf (32 * g)) 2 1

/-- Granules that a write of n bytes replaces whole (R304). -/
def wholeGranules (a n : Nat) : List Nat := rangeFrom ((a + 31) / 32) ((a + n) / 32 - (a + 31) / 32)

/-- Drops the 64 B lines of a range from every gather cache (R291). -/
def dropLines (c : Tab (List Nat)) (a n : Nat) : Tab (List Nat) :=
  c.map fun e => (e.1, e.2.filter fun l => decide (64 * l + 64 ≤ a) || decide (a + n ≤ 64 * l))

/-- Writes bytes at a physical address: replaced granules lose their poison, and the lines touched leave the gather caches (R291, R304). -/
def physWrite (s : State) (a : Nat) (bs : List Byte) : State :=
  let w := wholeGranules a bs.length
  { s with
    mem := memPut a bs s.mem
    poison := s.poison.filter fun g => !w.contains g
    msys := { s.msys with
      cache := dropLines s.msys.cache a bs.length
      poisonFound := s.msys.poisonFound.filter fun g => !w.contains g } }

/-- Records bytes written to host memory by port and host address: an output (log entry 5). -/
def hostWrite (s : State) (port a : Nat) : List Byte → State
  | [] => s
  | b :: r => hostWrite { s with hostMem := tput (2 ^ 64 * port + a) b s.hostMem } port (a + 1) r

/-! ### Address translation (R278 to R283) -/

/-- Where a virtual address leads: a device address with the leaf entry of a managed page, a host port and address, a fault reason of R280, a table on a device out of service (R273), or a host page that the host has not answered for. -/
inductive Xl where
  | dev (a : Nat) (leaf : Option Nat)
  | host (port a : Nat)
  | fault (reason : Nat)
  | offline
  | need (key : Nat)
  deriving DecidableEq, Repr

/-- Levels of a walk: the lowest bit of the level's index and the index's width (R278). -/
def walkLevels : List (Nat × Nat) := [(43, 13), (30, 13), (21, 9), (16, 5)]

/-- A table of 2^nb entries may be read there by function f (R278, R279, R475). -/
def tableOk (s : State) (f t nb : Nat) : Bool :=
  t % (8 * 2 ^ nb) == 0 && inDev t (8 * 2 ^ nb) && s.assignedTo 3 (unitOf t) f

/-- What a walk answers in place of a reason of R280 where a table lies on a device that is out of service (R273). -/
def walkOffline : Nat := 16

/-- The walk of a page table from a level downward: the leaf's target, the address of the byte, the leaf entry's address and whether the page is managed; or a reason of R280. -/
def walkFrom (s : State) (f va : Nat) (wr : Bool) : List (Nat × Nat) → Nat → Except Nat (Nat × Nat × Nat × Bool)
  | [], _ => .error 3
  | (sh, nb) :: rest, t =>
    if !tableOk s f t nb then .error 3
    else if !deviceOk s (t + 8 * bits va sh nb) then .error walkOffline
    else
      let ea := t + 8 * bits va sh nb
      let e := leNat (physRead s ea 8)
      let ad := e / 256 * 256
      if !e.testBit 0 then .error 1
      else if e.testBit 5 || e.testBit 3 then .error 3
      else if e.testBit 1 then
        let tgt := bits e 6 2
        if sh == 43 || (e.testBit 4 && sh != 21) || tgt == 3 || ad % 2 ^ sh != 0 then .error 3
        else if tgt == 0 && (!inDev ad (2 ^ sh) || !s.assignedTo 3 (unitOf ad) f) then .error 3
        else if wr && !e.testBit 2 then .error 2
        else .ok (tgt, ad + va % 2 ^ sh, ea, e.testBit 4)
      else if e.testBit 4 || sh == 16 then .error 3
      else walkFrom s f va wr rest ad

/-- The root that accesses of a job or of a function use (R282, R310). -/
def rootOf (s : State) (f job : Nat) : BitVec 64 :=
  match s.job? job with
  | some j => j.root.getD (s.func f).root
  | none => (s.func f).root

/-- What a walk finds: target, address of the byte, address of the leaf entry, MANAGED; or a reason. -/
abbrev Walked := Except Nat (Nat × Nat × Nat × Bool)

/-- What the page table gives now. -/
def walkNow (s : State) (f root va : Nat) (wr : Bool) : Walked := walkFrom s f va wr walkLevels (bits root 16 28 * 65536)

/-- What a cached translation gives for an address of its page. -/
def CachedXl.gives (e : CachedXl) (va : Nat) (wr : Bool) : Walked :=
  if wr && !e.writable then .error 2 else .ok (e.tgt, 65536 * e.frame + va % 65536, e.leaf, e.managed)

/-- What the caches give that the page table no longer gives, since software changed it and has not had it invalidated (R284): a cached page of the device is a page of its memories, as its leaf was (R278). -/
def staleWalks (s : State) (f root va : Nat) (wr : Bool) : List Walked :=
  ((s.msys.xlates.filter fun e => e.func == f && e.root == root && e.page == va / 65536 && (e.tgt != 0 || inDev (65536 * e.frame) 65536)).map fun e => e.gives va wr).filter
    fun w => decide (w ≠ walkNow s f root va wr)

/-- A translation: the page table's, or any that a cache still holds, which is open until an invalidation completes (R278, R284, log entry 103). -/
def walkAny (s : State) (f root va : Nat) (wr : Bool) : Walked :=
  let old := staleWalks s f root va wr
  (walkNow s f root va wr :: old).getD (if old.isEmpty then 0 else Config.xlateChoice f (va / 65536) s.free % (old.length + 1))
    (walkNow s f root va wr)

/-- Key of a host page request: port and 64 KiB of host address (R283, log entry 17). -/
def atsKey (tgt a : Nat) : Nat := 2 ^ 64 * (tgt - 1) + a / 65536

/-- Translates one virtual address for function f, on behalf of a job or of none, with the tier check of R281 where a tier is given. -/
def xlate (s : State) (f job va : Nat) (wr : Bool) (tier : Option Nat := none) : Xl :=
  if va ≥ 2 ^ 56 then .fault 3
  else
    let root := (rootOf s f job).toNat
    if !root.testBit 0 then .fault 1
    else match walkAny s f root va wr with
      | .error r => if r = walkOffline then .offline else .fault r
      | .ok (tgt, a, leaf, man) =>
        let tierOk := match tier with
          | some 1 => tgt == 0 && !man && decide (a < hbmEnd)
          | some 2 => tgt == 0 && !man && decide (lpBase ≤ a)
          | some 3 => tgt == 0 && man
          | some 4 => tgt != 0
          | _ => true
        if !tierOk then .fault 4
        else if tgt == 0 then .dev a (if man then some leaf else none)
        else match tfind (s.func f).ats (atsKey tgt a) with
          | some (.granted h) => .host (tgt - 1) (h.toNat + a % 65536)
          | some .refused => .fault 5
          | some .timedOut => .fault 6
          | _ => .need (atsKey tgt a)

/-- Cuts a range into pieces that stay within 64 KiB pages. -/
def pieces : Nat → Nat → Nat → List (Nat × Nat)
  | 0, _, _ => []
  | k + 1, va, n =>
    if n = 0 then []
    else
      let m := min n (65536 - va % 65536)
      (va, m) :: pieces k (va + m) (n - m)
def piecesOf (va n : Nat) : List (Nat × Nat) := pieces (n / 65536 + 2) va n

/-- Page requests of a function that are outstanding. -/
def FuncState.requests (x : FuncState) : Nat := (x.ats.filter fun e => e.2 == .requested).length

/-- A host page request becomes outstanding, while the function has fewer than the host allocates and than 512; else it waits, and the access that needs it asks again (R283, R465). -/
def requestPage (s : State) (f key : Nat) : State :=
  let x := s.func f
  s.setFunc f { x with ats := if x.requests < min 512 x.priAlloc.toNat then tput key .requested x.ats else x.ats }

/-- One 64 B transaction to a managed page for each line that is not the line of the latest transaction (R300, log entry 16). -/
def touchPage (s : State) (a n : Nat) (leaf : Option Nat) : State :=
  match leaf with
  | none => s
  | some l =>
    let first := a / 64
    let last := (a + n - 1) / 64
    let k := last - first + (if first = s.msys.lastLine then 0 else 1)
    let h := (tget 0 s.msys.hot l).toNat
    { s with msys := { s.msys with hot := tput l (BitVec.ofNat 16 (min 0xFFFF (h + k))) s.msys.hot, lastLine := last } }

/-- Outcome of an access to virtual memory outside a command's body: done, a fault reason at an address, poison at a physical address, an unit out of service, or a host page to wait for. -/
inductive Acc (α : Type) where
  | ok (x : α)
  | fault (reason va : Nat)
  | poison (va a : Nat)
  | offline
  | need (key : Nat)

/-- The entries of the translation caches once an address has been translated: what the table gives is one of them (R278). -/
def cacheAfter (s : State) (f job va : Nat) : List CachedXl :=
  let root := (rootOf s f job).toNat
  match walkNow s f root va false with
  | .ok (tgt, a, leaf, man) =>
    let wr := match walkNow s f root va true with
      | .ok _ => true
      | .error _ => false
    let e : CachedXl := ⟨f, root, va / 65536, tgt, a / 65536, leaf, man, wr⟩
    if s.msys.xlates.contains e then s.msys.xlates else e :: s.msys.xlates
  | .error _ => s.msys.xlates

/-- The caches keep a translation. -/
def cacheXl (s : State) (f job va : Nat) : State := { s with msys := { s.msys with xlates := cacheAfter s f job va } }

/-- Reads n bytes within one page. A poisoned granule is named by its own address (R305). -/
def readPiece (s : State) (f job va n : Nat) (tier : Option Nat) : Acc (List Byte × State) :=
  match xlate s f job va false tier with
  | .fault r => .fault r va
  | .offline => .offline
  | .need k => .need k
  | .host _ _ => .ok (drawBytes (cacheXl s f job va) n)
  | .dev a leaf =>
    if !devicesOk s a n then .offline
    else match poisonIn s a n with
      | some g => .poison (va + g - a) g
      | none => .ok (physRead s a n, touchPage (cacheXl s f job va) a n leaf)

/-- Writes bytes within one page. -/
def writePiece (s : State) (f job va : Nat) (bs : List Byte) (tier : Option Nat) : Acc State :=
  match xlate s f job va true tier with
  | .fault r => .fault r va
  | .offline => .offline
  | .need k => .need k
  | .host p a => .ok (hostWrite (cacheXl s f job va) p a bs)
  | .dev a leaf =>
    if !devicesOk s a bs.length then .offline
    else .ok (touchPage (physWrite (cacheXl s f job va) a bs) a bs.length leaf)

def readPieces (s : State) (f job : Nat) (tier : Option Nat) : List (Nat × Nat) → Acc (List Byte × State)
  | [] => .ok ([], s)
  | (va, n) :: r =>
    match readPiece s f job va n tier with
    | .ok (b, s1) =>
      match readPieces s1 f job tier r with
      | .ok (b2, s2) => .ok (b ++ b2, s2)
      | .fault x y => .fault x y
      | .poison x y => .poison x y
      | .offline => .offline
      | .need k => .need k
    | .fault x y => .fault x y
    | .poison x y => .poison x y
    | .offline => .offline
    | .need k => .need k

/-- Reads n bytes of virtual memory. -/
def vRead (s : State) (f job va n : Nat) (tier : Option Nat := none) : Acc (List Byte × State) :=
  readPieces s f job tier (piecesOf va n)

def writePieces (s : State) (f job : Nat) (tier : Option Nat) : List (Nat × Nat) → List Byte → Acc State
  | [], _ => .ok s
  | (va, n) :: r, bs =>
    match writePiece s f job va (bs.take n) tier with
    | .ok s1 => writePieces s1 f job tier r (bs.drop n)
    | e => e

/-- Writes bytes to virtual memory; a record is one write, so a fault in a later piece leaves the earlier ones unwritten here too. -/
def vWrite (s : State) (f job va : Nat) (bs : List Byte) (tier : Option Nat := none) : Acc State :=
  writePieces s f job tier (piecesOf va bs.length) bs

/-! ### MSI-X (R464) -/

/-- Raises a vector of a function: dropped while MSI-X is disabled, pending while masked, else a message leaves. -/
def raiseMsix (s : State) (f v : Nat) : State :=
  let x := s.func f
  if !x.msixEnabled then s
  else if x.msixMask.getLsbD v then s.setFunc f { x with msixPending := x.msixPending ||| BitVec.ofNat 2048 (2 ^ v) }
  else s.setFunc f { x with msixSent := tput v (tget 0 x.msixSent v + 1) x.msixSent }

/-! ### Events (R374, R375, R494) -/

/-- The codes that make a fault event (R494). -/
def faultCodes : List Nat :=
  [0x0002, 0x0010, 0x0011, 0x0012, 0x0013, 0x0014, 0x0102, 0x0105, 0x0203, 0x0205, 0x0301, 0x0302, 0x0306, 0x0307]

/-- A fault event is unacknowledged from the moment it is posted (R494). -/
def noteFault (s : State) (code : Nat) : State :=
  if faultCodes.contains code then { s with dict := { s.dict with faults := s.dict.faults ++ [BitVec.ofNat 16 code] } } else s

/-- An event record of 32 B (R374). -/
def eventBytes (s : State) (w n code job : Nat) (detail : List Byte) : List Byte :=
  leBytes 2 code ++ [0, if w / 2 ^ n % 2 = 0 then 0x80 else 0] ++ leBytes 4 job ++ leBytes 8 s.time.tick.toNat ++
    (detail ++ List.replicate 16 0).take 16

/-- Posts an event to one function's ring and raises vector 0; a function without a ring, or whose ring write faults, loses it (R374). A record for a host page that the host has not answered for waits. -/
def postEvent (s : State) (f code job : Nat) (detail : List Byte) : State :=
  let x := s.func f
  let n := x.ringN.toNat
  if n = 0 then bump s 0x0B f 3 1
  else
    let w := x.ringW.toNat
    let va := x.ringBase.toNat + 32 * (w % 2 ^ n)
    let bs := eventBytes s w n code job detail
    let s := if (x.ringW - x.eventRead).toNat ≥ 2 ^ n then bump s 0x0B f 3 1 else s
    let s := s.setFunc f { x with ringW := x.ringW + 1 }
    match vWrite s f 0 va bs with
    | .ok s1 => raiseMsix s1 f 0
    | .need k =>
      let s1 := requestPage s f k
      let y := s1.func f
      s1.setFunc f { y with evWait := y.evWait ++ [(va, bs)] }
    | _ => bump s 0x0B f 3 1

/-- Posts to several functions, one record each; a fault event is noted once. -/
def postTo (s : State) (fs : List Nat) (code : Nat) (detail : List Byte) : State :=
  fs.foldl (fun s f => postEvent s f code 0 detail) (noteFault s code)

/-- Functions that have set up an event ring: those that hear of the module's own events, for which the manual names no addressee (log entry 18). -/
def ringFuncs (s : State) : List Nat := (List.range 128).filter fun f => (s.func f).ringN != 0

/-- An event of the module itself (log entry 18). -/
def postAll (s : State) (code : Nat) (detail : List Byte) : State := postTo s (ringFuncs s) code detail

/-- A fabric fault: an event to the owning host of every job, with the job's identifier (R28, R48, R50), and its black-box event record (R505). -/
def fabricFault (s : State) (code : Nat) (detail : List Byte) : State :=
  let s := bbWrite (noteFault s code) (0x1000 + code) 0 0 detail
  s.jobs.foldl (fun s j => postEvent s j.2.func.toNat code j.1 detail) s

/-- Functions that own a loaded job. -/
def jobOwners (s : State) : List Nat := (s.jobs.map fun j => j.2.func.toNat).dedup

/-! ### Write generations (R292, R293) -/

/-- A writer of a tensor becomes active. -/
def genStart (s : State) (tid : Nat) : State :=
  if tid = 0 then s
  else
    let g := tget {} s.msys.gens tid
    let g' := { g with writers := g.writers + 1, gen := if g.writers = 0 && g.entered then g.gen + 1 else g.gen }
    { s with msys := { s.msys with gens := tput tid g' s.msys.gens } }

/-- An active writer ends. -/
def genEnd (s : State) (tid : Nat) : State :=
  if tid = 0 then s
  else
    let g := tget {} s.msys.gens tid
    let g' := { g with writers := g.writers - 1, gen := if g.writers = 1 && g.entered then g.gen + 1 else g.gen }
    { s with msys := { s.msys with gens := tput tid g' s.msys.gens } }

/-- An identifier is entered when a CHECKED descriptor naming it is created (R292). -/
def genEnter (s : State) (tid job : Nat) : State :=
  let g := tget {} s.msys.gens tid
  if g.entered then s
  else { s with msys := { s.msys with gens := tput tid { g with entered := true, gen := if g.writers = 0 then 0 else 1, job := BitVec.ofNat 32 job } s.msys.gens } }

/-- Identifiers entered (R309 GEN_TABLE_USED). -/
def genUsed (s : State) : Nat := (s.msys.gens.filter fun g => g.2.entered).length

/-! ### Outcomes -/

/-- Shorthand of the only outcome that the meanings use. -/
abbrev Out := Host.Outcome State Fault Refusal

end Sys2Proof.Machine
end

