-- ==== Sys2Proof/Machine/Flags.lean ====
section
/-! DEFINITION. Number formats and FP32 arithmetic (03, 05): decoding and encoding of every format of R54, the two roundings, block scales and GM16 offsets, the random bits of R72, FP32 operations with their NaN signs (R124), and the counts that a narrowing makes (R67, R76). FP32 values are their 32-bit codes, as natural numbers. -/

namespace Sys2Proof.Machine

/-! ### Values -/

/-- What a code stands for: a NaN with its sign, an infinity, or the number (-1)^neg m 2^e. -/
inductive FVal where
  | nan (neg : Bool)
  | inf (neg : Bool)
  | fin (neg : Bool) (m : Nat) (e : Int)
  deriving DecidableEq, Repr

/-- m 2^e as a multiple of 2^k, for k at most e. -/
def scaleTo (m : Nat) (e k : Int) : Nat := m * 2 ^ (e - k).toNat

/-- Magnitudes compared: m1 2^e1 ≤ m2 2^e2. -/
def magLe (m1 : Nat) (e1 : Int) (m2 : Nat) (e2 : Int) : Bool :=
  let k := min e1 e2
  decide (scaleTo m1 e1 k ≤ scaleTo m2 e2 k)

/-- Rounding modes: to nearest even (R69), or stochastic with 16 random bits (R70). -/
inductive Rnd where
  | rne
  | sr (r : Nat)
  deriving DecidableEq, Repr

/-- Rounds m 2^e, which may have been cut off (sticky: something nonzero lies below), to a grid of p significant bits and least step 2^emin: the multiple and the step's exponent. -/
def roundGrid (p : Nat) (emin : Int) (mode : Rnd) (m : Nat) (e : Int) : Nat × Int :=
  if m = 0 then (0, emin)
  else
    let u := max emin (e + (Nat.log2 m + 1 : Nat) - p)
    if u ≤ e then (m * 2 ^ (e - u).toNat, u)
    else
      let k := (u - e).toNat
      let n := m / 2 ^ k
      let rem := m % 2 ^ k
      match mode with
      | .rne => (if 2 * rem > 2 ^ k || (2 * rem == 2 ^ k && n % 2 == 1) then n + 1 else n, u)
      | .sr r => (if rem * 65536 / 2 ^ k + r ≥ 65536 then n + 1 else n, u)

/-! ### Formats (R54) -/

/-- A format: element width, fraction bits, exponent bias, magnitude code of the largest finite element, magnitude code of the canonical NaN if it has NaN, whether it has infinity, and its block length. -/
structure Fmt where
  code : Nat
  w : Nat
  f : Nat
  bias : Nat
  maxMag : Nat
  nanMag : Option Nat
  hasInf : Bool
  block : Nat
  deriving DecidableEq, Repr

/-- The floating-point and block formats of R54; GT2 is given by its magnitudes 0 and 1. -/
def fmtOf (code : Nat) : Option Fmt :=
  match code with
  | 0x00 => some ⟨0x00, 32, 23, 127, 0x7F7FFFFF, some 0x7FC00000, true, 1⟩
  | 0x01 => some ⟨0x01, 16, 10, 15, 0x7BFF, some 0x7E00, true, 1⟩
  | 0x02 => some ⟨0x02, 16, 7, 127, 0x7F7F, some 0x7FC0, true, 1⟩
  | 0x03 => some ⟨0x03, 8, 3, 7, 0x7E, some 0x7F, false, 1⟩
  | 0x04 => some ⟨0x04, 8, 2, 15, 0x7B, some 0x7E, true, 1⟩
  | 0x05 => some ⟨0x05, 16, 11, 152, 0x7FFF, none, false, 64⟩
  | 0x08 => some ⟨0x08, 8, 3, 7, 0x7E, some 0x7F, false, 32⟩
  | 0x09 => some ⟨0x09, 8, 2, 15, 0x7B, some 0x7E, true, 32⟩
  | 0x0A => some ⟨0x0A, 6, 2, 3, 0x1F, none, false, 32⟩
  | 0x0B => some ⟨0x0B, 6, 3, 1, 0x1F, none, false, 32⟩
  | 0x0C => some ⟨0x0C, 4, 1, 1, 0x7, none, false, 32⟩
  | 0x0D => some ⟨0x0D, 3, 1, 1, 0x3, none, false, 32⟩
  | 0x0E => some ⟨0x0E, 2, 0, 1, 0x1, none, false, 32⟩
  | _ => none

/-- Element width of any code of R54, integers included. -/
def widthOf (code : Nat) : Option Nat :=
  match code with
  | 0x18 | 0x19 => some 32
  | 0x1A => some 64
  | 0x1B => some 8
  | c => (fmtOf c).map (·.w)

/-- The integer codes (R55). -/
def isIntFmt (code : Nat) : Bool := [0x18, 0x19, 0x1A, 0x1B].contains code
/-- Formats with an E8M0 block scale (R58). -/
def isBlockFmt (code : Nat) : Bool := decide (8 ≤ code) && decide (code ≤ 0x0E)
/-- GM16 (R62). -/
def isGm16 (code : Nat) : Bool := code == 5

/-- Exponent of the subnormal step; for GM16 at offset X it is X - 152, which the caller passes as a shift. -/
def Fmt.emin (t : Fmt) : Int := if t.code = 5 then 0 else 1 - (t.bias : Int) - t.f

/-- The magnitude that a finite magnitude code stands for, before scaling (R56, R60, R63). -/
def Fmt.mag (t : Fmt) (c : Nat) : Nat × Int :=
  let ex := c / 2 ^ t.f
  if ex = 0 then (c, t.emin) else (2 ^ t.f + c % 2 ^ t.f, t.emin + (ex : Int) - 1)

/-- The shift that a scale byte gives: an E8M0 code (R58), or a GM16 offset (R63, R64). -/
def scaleShift (t : Fmt) (sc : Nat) : Int :=
  if t.code = 5 then (if sc = 0xFF then 0xFE else (sc : Int)) - 152
  else if t.block = 32 then (sc : Int) - 127 else 0

/-- Decodes an element with its block's scale byte (R56, R58, R60, R63, R75). -/
def decodeElem (t : Fmt) (sc code : Nat) : FVal :=
  if t.code = 0x0E then
    let neg := code == 3
    if sc = 0xFF then .nan neg
    else .fin neg (code % 2) (scaleShift t sc)
  else
    let neg := code.testBit (t.w - 1)
    let c := code % 2 ^ (t.w - 1)
    if t.block = 32 && sc == 0xFF then .nan neg
    else if t.hasInf && decide (c > t.maxMag) then (if c = t.maxMag + 1 then .inf neg else .nan neg)
    else if t.nanMag.isSome && decide (c > t.maxMag) then .nan neg
    else
      let (m, e) := t.mag c
      .fin neg m (e + scaleShift t sc)

/-! ### FP32 codes -/

def f32Sign (neg : Bool) : Nat := if neg then 2 ^ 31 else 0
/-- The canonical NaN of R68. -/
def f32Nan (neg : Bool) : Nat := f32Sign neg + 0x7FC00000
def f32Inf (neg : Bool) : Nat := f32Sign neg + 0x7F800000
def f32One : Nat := 0x3F800000

/-- Rounds a number into FP32; 2^128 or more becomes infinity (R123). -/
def f32Round (mode : Rnd) (neg : Bool) (m : Nat) (e : Int) : Nat :=
  let (n, u) := roundGrid 24 (-149) mode m e
  let c := (u + 149).toNat * 2 ^ 23 + n
  if c ≥ 0x7F800000 then f32Inf neg else f32Sign neg + c

/-- The FP32 code of a value. -/
def f32Of (v : FVal) (mode : Rnd := .rne) : Nat :=
  match v with
  | .nan n => f32Nan n
  | .inf n => f32Inf n
  | .fin n m e => f32Round mode n m e

/-- The value of an FP32 code. -/
def f32Val (c : Nat) : FVal :=
  let neg := c.testBit 31
  let k := c % 2 ^ 31
  if k > 0x7F800000 then .nan neg
  else if k = 0x7F800000 then .inf neg
  else if k < 2 ^ 23 then .fin neg k (-149)
  else .fin neg (2 ^ 23 + k % 2 ^ 23) ((k / 2 ^ 23 : Nat) - 150)

/-- Widening to FP32 (R75). -/
def widen (t : Fmt) (sc code : Nat) : Nat := f32Of (decodeElem t sc code)

def f32IsNan (c : Nat) : Bool := decide (c % 2 ^ 31 > 0x7F800000)
def f32IsInf (c : Nat) : Bool := c % 2 ^ 31 == 0x7F800000
def f32IsFinite (c : Nat) : Bool := decide (c % 2 ^ 31 < 0x7F800000)
def f32Neg (c : Nat) : Bool := c.testBit 31
def f32IsZero (c : Nat) : Bool := c % 2 ^ 31 == 0
/-- The magnitude code, which orders finite magnitudes. -/
def f32Abs (c : Nat) : Nat := c % 2 ^ 31
def f32Flip (c : Nat) : Nat := if c.testBit 31 then c - 2 ^ 31 else c + 2 ^ 31

/-- A signed integer times 2^e, rounded; an exact zero takes the sign given. -/
def f32OfInt (mode : Rnd) (z : Bool) (i e : Int) : Nat :=
  if i = 0 then f32Sign z else f32Round mode (decide (i < 0)) i.natAbs e

/-- The signed integer of a finite value on the step 2^k. -/
def signedTo (neg : Bool) (m : Nat) (e k : Int) : Int := if neg then -(scaleTo m e k : Int) else (scaleTo m e k : Int)

/-- FP32 addition under a rounding mode (R114, R116, R123, R124). -/
def faddM (mode : Rnd) (a b : Nat) : Nat :=
  match f32Val a, f32Val b with
  | .nan n, _ => f32Nan n
  | _, .nan n => f32Nan n
  | .inf n, .inf k => if n = k then f32Inf n else f32Nan false
  | .inf n, _ => f32Inf n
  | _, .inf n => f32Inf n
  | .fin n1 m1 e1, .fin n2 m2 e2 =>
    let k := min e1 e2
    f32OfInt mode (n1 && n2) (signedTo n1 m1 e1 k + signedTo n2 m2 e2 k) k

/-- FP32 addition, rounded to nearest even. -/
def fadd (a b : Nat) : Nat := faddM .rne a b
/-- a - b: a NaN operand keeps its own sign (R124). -/
def fsub (a b : Nat) : Nat := if f32IsNan b then (if f32IsNan a then f32Nan (f32Neg a) else f32Nan (f32Neg b)) else fadd a (f32Flip b)

/-- The product of two values, rounded once into FP32 (R113, R124). -/
def mulVal (x y : FVal) : Nat :=
  match x, y with
  | .nan n, _ => f32Nan n
  | _, .nan n => f32Nan n
  | .inf n, .inf k => f32Inf (n != k)
  | .inf n, .fin k m _ => if m = 0 then f32Nan false else f32Inf (n != k)
  | .fin k m _, .inf n => if m = 0 then f32Nan false else f32Inf (n != k)
  | .fin n1 m1 e1, .fin n2 m2 e2 => f32Round .rne (n1 != n2) (m1 * m2) (e1 + e2)

/-- FP32 multiplication. -/
def fmul (a b : Nat) : Nat := mulVal (f32Val a) (f32Val b)

/-- v B + C, rounded once (R145). -/
def ffma (a b c : Nat) : Nat :=
  match f32Val a, f32Val b, f32Val c with
  | .nan n, _, _ => f32Nan n
  | _, .nan n, _ => f32Nan n
  | .fin n1 m1 e1, .fin n2 m2 e2, .fin n3 m3 e3 =>
    let k := min (e1 + e2) e3
    f32OfInt .rne ((n1 != n2) && n3) (signedTo (n1 != n2) (m1 * m2) (e1 + e2) k + signedTo n3 m3 e3 k) k
  | .fin _ _ _, .fin _ _ _, .inf n => f32Inf n
  | _, _, .nan n => f32Nan n
  | _, _, _ => fadd (fmul a b) c

/-- Correctly rounded division. -/
def fdiv (a b : Nat) : Nat :=
  match f32Val a, f32Val b with
  | .nan n, _ => f32Nan n
  | _, .nan n => f32Nan n
  | .inf _, .inf _ => f32Nan false
  | .inf n, .fin k _ _ => f32Inf (n != k)
  | .fin n _ _, .inf k => f32Sign (n != k)
  | .fin n1 m1 e1, .fin n2 m2 e2 =>
    if m2 = 0 then (if m1 = 0 then f32Nan false else f32Inf (n1 != n2))
    else
      let q := m1 * 2 ^ 60 / m2
      let st := if m1 * 2 ^ 60 % m2 = 0 then 0 else 1
      f32Round .rne (n1 != n2) (2 * q + st) (e1 - e2 - 61)

/-- Integer square root, bit by bit. -/
def isqrtBits (n : Nat) : Nat → Nat → Nat
  | 0, r => r
  | k + 1, r => if (r + 2 ^ k) * (r + 2 ^ k) ≤ n then isqrtBits n k (r + 2 ^ k) else isqrtBits n k r

/-- Correctly rounded square root; below 0 it creates a NaN, and the root of -0 is -0 (IEEE 754, R143). -/
def fsqrt (a : Nat) : Nat :=
  match f32Val a with
  | .nan n => f32Nan n
  | .inf n => if n then f32Nan false else f32Inf false
  | .fin n m e =>
    if m = 0 then f32Sign n
    else if n then f32Nan false
    else
      let k : Int := if e % 2 = 0 then e - 60 else e - 61
      let mm := scaleTo m e k
      let r := isqrtBits mm 48 0
      f32Round .rne false (2 * r + if r * r = mm then 0 else 1) (k / 2 - 1)

/-- a < b for values that are not NaN. -/
def fltb (a b : Nat) : Bool :=
  let key := fun c : Nat => if c.testBit 31 then -((c % 2 ^ 31 : Nat) : Int) else ((c % 2 ^ 31 : Nat) : Int)
  decide (key a < key b)

/-- MAX of R145: NaN if either is NaN, +0 beats -0. -/
def fmax (a b : Nat) : Nat :=
  if f32IsNan a then f32Nan (f32Neg a) else if f32IsNan b then f32Nan (f32Neg b)
  else if fltb a b then b else if fltb b a then a else if f32Neg a then b else a
/-- MIN of R145: NaN if either is NaN, -0 beats +0. -/
def fmin (a b : Nat) : Nat :=
  if f32IsNan a then f32Nan (f32Neg a) else if f32IsNan b then f32Nan (f32Neg b)
  else if fltb a b then a else if fltb b a then b else if f32Neg a then a else b

/-! ### The approximated functions and their bounds (R135, R145)

Real numbers are integers times 2^-320 here: far below half a step of any FP32 result. -/

def realOne : Int := 2 ^ 320

/-- Product of two reals. -/
def realMul (x y : Int) : Int := x * y / realOne

/-- The terms of 2 atanh z = 2 (z + z^3/3 + z^5/5 + ...) from the one with divisor d: fuel, d, z squared, the power of z so far. -/
def atanhTerms : Nat → Int → Int → Int → Int
  | 0, _, _, _ => 0
  | n + 1, d, zz, p => 2 * p / d + atanhTerms n (d + 2) zz (realMul p zz)

/-- ln m for m from 1 to 2. -/
def realLn (m : Int) : Int :=
  let z := (m - realOne) * realOne / (m + realOne)
  atanhTerms 110 1 (realMul z z) z

def realLn2 : Int := realLn (2 * realOne)

/-- The terms r^k/k! + ... of e^r: fuel, k, r, the term so far. -/
def expTerms : Nat → Int → Int → Int → Int
  | 0, _, _, _ => 0
  | n + 1, k, r, t => t + expTerms n (k + 1) r (realMul t r / k)

/-- e^x; beyond -256 to 256, where every result below is out of FP32's range either way, the value at the end. -/
def realExp (x : Int) : Int :=
  let x := max (-256 * realOne) (min (256 * realOne) x)
  let n := x / realLn2
  let y := expTerms 80 1 (x % realLn2) realOne
  if n < 0 then y / 2 ^ n.natAbs else y * 2 ^ n.toNat

/-- 1 / (1 + e^-x). -/
def realSigmoid (x : Int) : Int := realOne * realOne / (realOne + realExp (-x))

/-- A finite FP32 code as a real. -/
def realOf (a : Nat) : Int :=
  match f32Val a with
  | .fin n m e => signedTo n m e (-320)
  | _ => 0

/-- The function of a row of R135 or R145 at a finite input, which for 5 and 6 is positive: 0 GELU, whose 0.5 x (1 + tanh u) is x / (1 + e^-2u), 1 SiLU, 2 sigmoid, 3 tanh, 4 e^x, 5 ln x, 6 reciprocal square root. -/
def realFun (k a : Nat) : Int :=
  let x := realOf a
  match k with
  | 0 => realMul x (realSigmoid (2 * 79788456 * (x + 44715 * realMul x (realMul x x) / 1000000) / 100000000))
  | 1 => realMul x (realSigmoid x)
  | 2 => realSigmoid x
  | 3 => 2 * realSigmoid (2 * x) - realOne
  | 4 => realExp x
  | 5 =>
    let b := Nat.log2 x.toNat
    ((b : Int) - 320) * realLn2 + realLn (if b ≤ 320 then x * 2 ^ (320 - b) else x / 2 ^ (b - 320))
  | _ => (isqrtBits (2 ^ 960 / x.toNat) 400 0 : Nat)

/-- One unit in the last place of FP32 at a real. -/
def realUlp (r : Int) : Int := 2 ^ (max 171 (Nat.log2 r.natAbs - 23))

/-- Whether an FP32 code lies within n units in the last place of a real; infinity stands for 2^128 and all beyond it. -/
def withinUlps (n : Nat) (r : Int) (c : Nat) : Bool :=
  match f32Val c with
  | .nan _ => false
  | .inf neg =>
    let r := if neg then -r else r
    decide (2 ^ 448 ≤ r + n * realUlp r)
  | .fin .. => decide ((realOf c - r).natAbs ≤ n * (realUlp r).natAbs)

/-- A real rounded into FP32; a zero takes the sign given. -/
def realRound (z : Bool) (r : Int) : Nat := f32OfInt .rne z r (-320)

/-- The approximation at an input that is no special input of its row: any value within the row's bound, 1 ulp for the reciprocal square root and 2 ulp for the others. What Config.approx gives counts where it lies within it, and the rounded function elsewhere (R135, R145; log entry 7). -/
def approxOf (k a : Nat) : Nat :=
  let c := (Config.approx k (BitVec.ofNat 32 a)).toNat
  let r := realFun k a
  if withinUlps (if k = 6 then 1 else 2) r c then c else realRound (f32Neg a && k != 2 && k != 4) r

/-- An approximated function: special inputs as its row gives them, every other input one fixed approximation (R135, R145; log entry 7). -/
def fapprox (k a : Nat) : Nat :=
  if f32IsNan a then f32Nan (f32Neg a)
  else
    let neg := f32Neg a
    let other := approxOf k a
    match k with
    | 0 | 1 => if f32IsInf a then (if neg then f32Sign true else f32Inf false) else other
    | 2 => if f32IsInf a then (if neg then 0 else f32One) else other
    | 3 => if f32IsInf a then f32Sign neg + f32One else other
    | 4 => if f32IsInf a then (if neg then 0 else f32Inf false) else other
    | 5 => if f32IsZero a then f32Inf true else if neg then f32Nan false else if f32IsInf a then f32Inf false else other
    | _ => if f32IsZero a then f32Inf neg else if neg then f32Nan false else if f32IsInf a then 0 else other

/-- Activations of R135. -/
def activate (act lo hi a : Nat) : Nat :=
  match act with
  | 0 => if f32IsNan a then f32Nan (f32Neg a) else a
  | 1 => if f32IsNan a then f32Nan (f32Neg a) else if fltb 0 a then a else 0
  | 2 => fapprox 0 a
  | 3 => fapprox 1 a
  | 4 => fapprox 2 a
  | 5 => fapprox 3 a
  | _ => fmin (fmax a lo) hi

/-- An integer as FP32. -/
def f32Nat (n : Nat) : Nat := f32Round .rne false n 0

/-! ### Sums in fixed order (R114, R146) -/

/-- One level of a pairwise tree. -/
def pairUp (op : Nat → Nat → Nat) : List Nat → List Nat
  | a :: b :: r => op a b :: pairUp op r
  | l => l

/-- A tree of k levels over 2^k leaves. -/
def treeOf (op : Nat → Nat → Nat) : Nat → List Nat → Nat
  | 0, l => l.headD 0
  | k + 1, l => treeOf op k (pairUp op l)

/-- Cuts a list into pieces of n. -/
def chunksOf (n : Nat) : Nat → List Nat → List (List Nat)
  | 0, _ => []
  | k + 1, l => if l.isEmpty then [] else l.take n :: chunksOf n k (l.drop n)

/-- A row's reduction: each channel vector of 32 by a tree of five levels, the vectors in ascending order (R146). A last vector of fewer elements is padded with the neutral value. -/
def rowReduce (op : Nat → Nat → Nat) (neutral : Nat) (l : List Nat) : Nat :=
  let vs := (chunksOf 32 (l.length / 32 + 1) l).map fun v => treeOf op 5 (v ++ List.replicate (32 - v.length) neutral)
  match vs with
  | [] => neutral
  | v :: r => r.foldl op v

/-- Sum of a row. -/
def rowSum (l : List Nat) : Nat := rowReduce fadd 0 l

/-! ### Random bits (R72) -/

/-- Philox 4x32-10: rounds left, counter words, key words. -/
def philoxRounds : Nat → Nat → Nat → Nat → Nat → Nat → Nat → List Nat
  | 0, c0, c1, c2, c3, _, _ => [c0, c1, c2, c3]
  | n + 1, c0, c1, c2, c3, k0, k1 =>
    let p0 := 0xD2511F53 * c0
    let p1 := 0xCD9E8D57 * c2
    philoxRounds n (p1 / 2 ^ 32 ^^^ c1 ^^^ k0) (p1 % 2 ^ 32) (p0 / 2 ^ 32 ^^^ c3 ^^^ k1) (p0 % 2 ^ 32)
      ((k0 + 0x9E3779B9) % 2 ^ 32) ((k1 + 0xBB67AE85) % 2 ^ 32)

/-- The 16 random bits of an element: seed, step, tensor identifier, site, element index, bits [31:16] of counter word 1 (zero but for DROPOUT, R149). -/
def randBits (seed step tid site idx : Nat) (hi : Nat := 0) : Nat :=
  let i := idx % 2 ^ 45
  let out := philoxRounds 10 (bits i 3 32) (hi * 65536 + site * 1024 + bits i 35 10) (tid % 2 ^ 32) (step % 2 ^ 32)
    (seed % 2 ^ 32) (seed / 2 ^ 32)
  let w := out.getD (bits i 1 2) 0
  if i % 2 = 0 then w % 65536 else w / 65536

/-! ### Narrowing (R61 to R70) -/

/-- What a narrowing produced: codes, the scale byte or offset, and its counts. -/
structure Narrowed where
  codes : List Nat
  scale : Nat := 0
  ovf : Nat := 0
  nonfin : Nat := 0
  /-- the scale of R61 was clamped -/
  clamped : Bool := false
  deriving DecidableEq, Repr

/-- The largest finite magnitude of FP32 codes, as a magnitude code; none if no element is finite. -/
def amaxOf (l : List Nat) : Nat := (l.filter f32IsFinite).foldl (fun m c => max m (f32Abs c)) 0

/-- The smallest exponent s with amax ≤ M 2^s, for a finite maximum (R61); -127 for none. -/
def scaleRaw (t : Fmt) (amax : Nat) : Int :=
  match f32Val amax with
  | .fin _ m e =>
    if m = 0 then -127
    else
      let (mm, me) := t.mag t.maxMag
      let s0 : Int := (e + Nat.log2 m) - (me + Nat.log2 mm)
      if magLe m e mm (me + s0) then s0 else s0 + 1
  | _ => -127

/-- The scale exponent of R61. -/
def scaleExp (t : Fmt) (amax : Nat) : Int := max (-127) (min 127 (scaleRaw t amax))

/-- Encodes a magnitude code with a sign; GT2 has its own codes (R60). -/
def encodeMag (t : Fmt) (neg : Bool) (c : Nat) : Nat :=
  if t.code = 0x0E then (if c = 0 then 0 else if neg then 3 else 1)
  else (if neg then 2 ^ (t.w - 1) else 0) + c

/-- Narrows one element at a given shift (scale exponent; for GM16 the offset less 152): the code, and whether it saturated or was non-finite in a format that has no such code (R67 to R70). -/
def narrowElem (t : Fmt) (sh : Int) (mode : Rnd) (x : Nat) : Nat × Bool × Bool :=
  match f32Val x with
  | .nan n =>
    match t.nanMag with
    | some c => (encodeMag t n c, false, false)
    | none => (encodeMag t n t.maxMag, false, true)
  | .inf n => if t.hasInf then (encodeMag t n (t.maxMag + 1), false, false) else (encodeMag t n t.maxMag, false, true)
  | .fin n m e =>
    if t.code = 0x0E then
      let (q, u) := roundGrid 4096 0 mode m (e - sh)
      let q := q * 2 ^ u.toNat
      if q > 1 then (encodeMag t n 1, true, false) else (encodeMag t n q, false, false)
    else
      let (q, u) := roundGrid (t.f + 1) t.emin mode m (e - sh)
      let c := (u - t.emin).toNat * 2 ^ t.f + q
      if c > t.maxMag then (encodeMag t n t.maxMag, true, false) else (encodeMag t n c, false, false)

/-- Narrows every element of a block at one shift; the element's number selects its rounding mode. -/
def narrowAt (t : Fmt) (sh : Int) (mode : Nat → Rnd) (xs : List Nat) : List (Nat × Bool × Bool) :=
  xs.zipIdx.map fun p => narrowElem t sh (mode p.2) p.1

def collect (l : List (Nat × Bool × Bool)) (scale : Nat) : Narrowed :=
  { codes := l.map (·.1), scale := scale, ovf := (l.filter (·.2.1)).length, nonfin := (l.filter (·.2.2)).length }

/-- The GM16 offset of R65 step 2. -/
def gmOffset (amax : Nat) : Nat :=
  match f32Val amax with
  | .fin _ m e => if m = 0 then 3 else (max 3 (min 254 (e + Nat.log2 m + 127))).toNat
  | _ => 3

/-- Narrows one block: 32 elements with a computed or fixed scale exponent, 64 of GM16 with a computed or fixed offset, or one element (R61, R65, R68, R150). -/
def narrowBlock (t : Fmt) (mode : Nat → Rnd) (fixed : Option Int) (xs : List Nat) : Narrowed :=
  if t.code = 5 then
    let x : Nat := match fixed with
      | some e => (e + 127).toNat
      | none => gmOffset (amaxOf xs)
    let l := narrowAt t ((x : Int) - 152) mode xs
    if fixed.isNone && decide (x < 254) && l.any (·.2.1) then collect (narrowAt t ((x : Int) - 151) mode xs) (x + 1)
    else collect l x
  else if t.block = 32 then
    let raw := scaleRaw t (amaxOf xs)
    let s := match fixed with
      | some e => e
      | none => scaleExp t (amaxOf xs)
    { collect (narrowAt t s mode xs) (s + 127).toNat with clamped := fixed.isNone && (decide (raw < -127) || decide (127 < raw)) }
  else collect (narrowAt t 0 mode xs) 0

/-! ### Statuses (R365) -/

def stOk : Nat := 0x0000
def stAborted : Nat := 0x0001
def stOrphaned : Nat := 0x0002
def stReserved : Nat := 0x0003
def stUncorrectable : Nat := 0x0004
def stLevel : Nat := 0x0005
def stOpcode : Nat := 0x0006
def stOffline : Nat := 0x0007
def stFlushed : Nat := 0x0008
def stDescInvalid : Nat := 0x0010
def stDescOob : Nat := 0x0011
def stCmdInvalid : Nat := 0x0012
def stTileInvalid : Nat := 0x0013
def stXlate : Nat := 0x0014
def stRefetch : Nat := 0x0015
def stSemInvalid : Nat := 0x0016
def stHeld : Nat := 0x0020
def stEpochStale : Nat := 0x0030
def stLongSum : Nat := 0x0040

/-- A status other than OK and the informational ones (R365). -/
def isError (st : Nat) : Bool := st != 0 && !(decide (0x40 ≤ st) && decide (st ≤ 0x4F))

end Sys2Proof.Machine
end

