-- ==== Sys2Proof/Machine/Operands.lean ====
section
/-! DEFINITION. Operand forms: the executors of queues (R349), the running command as a state with an early stop, descriptors and their layouts (11), tiles (06), and the reading and writing of elements, rows and tiles. -/

namespace Sys2Proof.Machine

/-! ### Executors (R18, R349) -/

/-- What runs a queue; a core is 32 d + c. -/
inductive Exe where
  | ma (core n : Nat)
  | vu (core : Nat)
  | mu (core : Nat)
  | dm (core n : Nat)
  | ge (die n : Nat)
  | de (die n : Nat)
  | re (die n ctx : Nat)
  | cp
  | none
  deriving DecidableEq, Repr

/-- The executor of an engine queue number. -/
def engineOf (q : Nat) : Exe :=
  if q < 2048 then
    let core := q / 16
    match q % 16 with
    | 0 => .ma core 0 | 1 => .ma core 1 | 2 => .ma core 2 | 3 => .ma core 3
    | 4 => .vu core | 5 => .mu core | 6 => .dm core 0 | 7 => .dm core 1
    | _ => .none
  else if q < 4096 then
    let d := (q - 2048) / 512
    let j := (q - 2048) % 512
    if j < 256 then .ge d (j / 16) else if j < 384 then .de d ((j - 256) / 16) else .re d ((j - 384) / 64) ((j - 384) % 64)
  else .none

/-- The executor of a queue: by its number, or as its creation chose (R349, R385). -/
def exeOf (q : QNum) (x : Queue) : Exe :=
  if q.toNat < 4096 then engineOf q.toNat
  else if x.engine = 0xFFFF then .cp
  else engineOf x.engine.toNat

/-- Core that an executor belongs to. -/
def Exe.core? : Exe → Option Nat
  | .ma c _ | .vu c | .mu c | .dm c _ => some c
  | _ => Option.none
/-- Die that an executor belongs to. -/
def Exe.die? : Exe → Option Nat
  | .ma c _ | .vu c | .mu c | .dm c _ => some (c / 32)
  | .ge d _ | .de d _ | .re d _ _ => some d
  | _ => Option.none

/-- Index of the array that a queue drives (R111). -/
def Exe.array? : Exe → Option Nat
  | .ma c n => some (4 * c + n)
  | _ => Option.none

/-- The executors that run an opcode (R359). -/
def Exe.runs (e : Exe) (op : Nat) : Bool :=
  match e with
  | .none => false
  | e =>
    if op ≤ 0x04 then true
    else match e, op / 16 with
      | .ma _ _, 1 => true
      | .vu _, 3 => true
      | .vu _, 8 => true
      | .mu _, 4 => true
      | .dm _ _, 5 => true
      | .de _ _, 5 => true
      | .ge _ _, 6 => true
      | .re _ _ _, 7 => true
      | .cp, 15 => true
      | _, _ => false

/-- Number of an executor: its first queue; one of its own for the command processor. -/
def Exe.key : Exe → Nat
  | .ma c n => 16 * c + n
  | .vu c => 16 * c + 4
  | .mu c => 16 * c + 5
  | .dm c n => 16 * c + 6 + n
  | .ge d n => 2048 + 512 * d + 16 * n
  | .de d n => 2048 + 512 * d + 256 + 16 * n
  | .re d n _ => 2048 + 512 * d + 384 + 64 * n
  | .cp => 4096
  | .none => 4097

/-- Physical core behind a logical one; of a vacant one the core it had last (R16, R17). -/
def State.physCore (s : State) (core : Nat) : BitVec 6 := tget (BitVec.ofNat 6 (core % 32)) s.trust.coreMap core
/-- No physical core is behind the logical number (R17). -/
def State.vacantCore (s : State) (core : Nat) : Bool := s.trust.vacant.any fun c => c.toNat == core

/-! ### The running command -/

/-- Why a command's work stops before its end: it completes with a status and a location (R363, R365), it is held and presented again, or it waits for a host page. -/
inductive Stop where
  | done (status dkind reason detail : Nat)
  | hold (h : Hold)
  | need (key : Nat)
  deriving DecidableEq, Repr

/-- The machine while one command runs: the state, the record under construction, the queue, its executor, its function, its job (0: none) and the command's words. -/
structure Run where
  s : State
  w : Started
  q : QNum
  exe : Exe
  f : Nat
  job : Nat
  c : Cmd
  /-- the step number that the command's random bits take, where it is not the job's present one (R217) -/
  step : Option (BitVec 64) := none
  deriving DecidableEq, Repr

/-- A computation of a running command: it may stop early, and what it did before stays. -/
abbrev M := ExceptT Stop (StateM Run)

/-- The state. -/
def getS : M State := do return (← get).s
/-- Changes the state. -/
def modS (g : State → State) : M Unit := modify fun r => { r with s := g r.s }
/-- Changes the record under construction. -/
def modW (g : Started → Started) : M Unit := modify fun r => { r with w := g r.w }
/-- Completes the command with a status without a location. -/
def stopWith {α : Type} (st : Nat) : M α := throw (.done st 0 0 0)
/-- Completes with a status and a location (R363). -/
def stopAt {α : Type} (st dkind detail : Nat) : M α := throw (.done st dkind 0 detail)
/-- Completes with a status unless the condition holds. -/
def need (b : Bool) (st : Nat) : M Unit := if b then pure () else stopWith st
/-- A field of the command. -/
def fieldM (off n : Nat) : M Nat := do return cmdField (← get).c off n
/-- The job of the command's queue. -/
def jobM : M Job := do
  let r ← get
  return r.s.job r.job
/-- Counts a per-step event under the command's job (R496). -/
def countM (code n : Nat) : M Unit := modify fun r => { r with s := bumpStep r.s r.job code n }

/-- Runs a body for every element of a list, in order. -/
def forEach {α : Type} : List α → (α → M Unit) → M Unit
  | [], _ => pure ()
  | a :: r, g => do
    g a
    forEach r g

/-- Maps a body over a list, in order. -/
def mapEach {α β : Type} : List α → (α → M β) → M (List β)
  | [], _ => pure []
  | a :: r, g => do
    let b ← g a
    let bs ← mapEach r g
    return b :: bs

/-! ### Memory accesses of a command -/

/-- Ends the command as an access that failed ends it (R273, R280, R305, R363). -/
def accStop {α : Type} (near : Bool) : Acc α → M α
  | .ok x => pure x
  | .fault reason va => throw (.done stXlate 1 reason va)
  | .poison va a => do
    modW fun w => { w with ue := some (a, levelOf a) }
    stopAt stUncorrectable (if near then 2 else 1) va
  | .offline => stopWith stOffline
  | .need k => throw (.need k)

/-- Adds a span to a list whose latest comes first, joined to that one where it follows it. -/
def addSpan (near : Bool) (addr n : Nat) : List Span → List Span
  | sp :: r => if sp.near = near && sp.start + sp.len == addr then { sp with len := sp.len + n } :: r else ⟨near, addr, n⟩ :: sp :: r
  | [] => [⟨near, addr, n⟩]

/-- Largest request of an engine (R285); the units that reach near memory only move 32 B words (R274). -/
def Exe.request : Exe → Nat
  | .dm _ _ | .de _ _ | .re _ _ _ => 1024
  | .ge _ _ | .mu _ => 256
  | _ => 32

/-- Requests of an engine that write bytes of a region of 4 KiB within a span (R276). -/
def Span.requestsIn (sp : Span) (size region : Nat) : Nat :=
  let lo := max sp.start (4096 * region)
  let hi := min (sp.start + sp.len) (4096 * region + 4096)
  if sp.near && decide (lo < hi) then (hi - 1) / size - lo / size + 1 else 0

/-- The pending-write count of a region of 4 KiB of near memory, by address / 4,096: the writes of started commands, except one, whose record is not written yet (R276, log entry 104). A count of 10 bits never passes 1,023: what would raise it further waits in its engine. -/
def pendingWrites (s : State) (q : QNum) (idx : BitVec 16) (region : Nat) : Nat :=
  min 1023 ((s.queues.flatMap fun e => e.2.started.flatMap fun w =>
    if !w.done || (e.1 == q.toNat && w.idx == idx) then []
    else w.spans.map fun sp => sp.requestsIn (exeOf (BitVec.ofNat 15 e.1) e.2).request region).foldl (· + ·) 0)

/-- A read of near memory waits for the pending writes of its regions (R277). -/
def scoreboardM (addr n : Nat) : M Unit := do
  let r ← get
  if (rangeFrom (addr / 4096) ((addr + n + 4095) / 4096 - addr / 4096)).any fun g => pendingWrites r.s r.q r.w.idx g != 0 then
    throw (.hold .other)

/-- Entries of the load or the store queue of an engine that reaches HBM3E, LPDDR5X or host memory (R285). -/
def Exe.queueDepth (store : Bool) : Exe → Nat
  | .dm _ _ | .mu _ => 64
  | .ge _ _ => if store then 64 else 128
  | .de _ _ => 128
  | .re _ _ _ => 256
  | _ => 0

/-- Transaction tags reserved for an engine in its die's pool (R286). -/
def Exe.ownTags : Exe → Nat
  | .dm _ _ | .mu _ => 32
  | .ge _ _ => 64
  | .de _ _ => 128
  | .re _ _ _ => 256
  | _ => 0

/-- Tags of a die's pool that its engines share, first come first served (R286). -/
def sharedTags : Nat := 23040

/-- The 64 B transactions of n bytes at an address. -/
def transactions (addr n : Nat) : Nat := (addr + n + 63) / 64 - addr / 64

/-- Tags that an engine holds: of the writes to HBM3E, LPDDR5X and host memory of its commands whose work is over and whose record is not written, as many as its store queue holds (R285, R286, log entry 104). Loads of a command have returned when its work is over. -/
def tagsHeld (s : State) (e : Exe) : Nat :=
  min (e.queueDepth true * (e.request / 64)) ((s.queues.flatMap fun x => if exeOf (BitVec.ofNat 15 x.1) x.2 == e then x.2.started.flatMap fun w =>
    if w.done then w.spans.map fun sp => if sp.near then 0 else transactions sp.start sp.len else [] else []).foldl (· + ·) 0)

/-- Shared tags of a die in use: what its engines hold beyond their own. -/
def sharedHeld (s : State) (die : Nat) : Nat :=
  ((((s.queues.map fun x => exeOf (BitVec.ofNat 15 x.1) x.2).filter fun e => e.die? == some die).dedup).map fun e => tagsHeld s e - e.ownTags).foldl (· + ·) 0

/-- Tags that a request of an engine can get. -/
def tagsFree (s : State) (e : Exe) : Nat :=
  e.ownTags - tagsHeld s e + match e.die? with
    | some d => sharedTags - sharedHeld s d
    | none => 0

/-- A request waits in its queue until each of its transactions can get a tag (R286): the requests that an access of n bytes is cut into go one after another. -/
def tagsM (addr n : Nat) : M Unit := do
  let r ← get
  if r.exe.queueDepth false != 0 && decide (tagsFree r.s r.exe < transactions addr (min n r.exe.request)) then throw (.hold .other)

/-- Reads bytes at an address of a tier: near memory untranslated, other tiers through the function's page table (R278, R281). -/
def readM (tier addr n : Nat) : M (List Byte) := do
  let r ← get
  if tier = 0 then
    scoreboardM addr n
    match poisonIn r.s addr n with
    | some g => accStop true (.poison g g)
    | none => return physRead r.s addr n
  else
    tagsM addr n
    let (b, s') ← accStop false (vRead r.s r.f r.job addr n (some tier))
    modS fun _ => s'
    modW fun w => { w with loads := addSpan false addr n w.loads }
    return b

/-- Notes bytes that the command writes (log entry 12), joined to the latest span where they follow it. -/
def noteSpan (near : Bool) (addr n : Nat) : M Unit :=
  modW fun w => { w with spans := addSpan near addr n w.spans }

/-- The granules that a write makes whole together with the writes just before it that it follows: first address and bytes (R304). -/
def madeWhole (w : Started) (near : Bool) (addr n : Nat) : List Nat :=
  match w.spans with
  | sp :: _ =>
    if sp.near = near && sp.start + sp.len == addr then
      (wholeGranules sp.start (sp.len + n)).filter fun g => decide (addr < 32 * g + 32) && decide (32 * g < addr)
    else []
  | [] => []

/-- A granule that the writes of one command have replaced piece by piece loses its poison (R304). -/
def unpoison (s : State) (gs : List Nat) : State :=
  { s with poison := s.poison.filter fun g => !gs.contains g, msys := { s.msys with poisonFound := s.msys.poisonFound.filter fun g => !gs.contains g } }

/-- Physical granules of virtual ones. -/
def granulesOf (r : Run) (tier : Nat) (gs : List Nat) : List Nat :=
  if tier = 0 then gs
  else gs.filterMap fun g => match xlate r.s r.f r.job (32 * g) true (some tier) with
    | .dev a _ => some (a / 32)
    | _ => none

/-- Writes bytes at an address of a tier. -/
def writeM (tier addr : Nat) (bs : List Byte) : M Unit := do
  let r ← get
  if tier = 0 then modS fun s => physWrite s addr bs
  else
    tagsM addr bs.length
    let s' ← accStop false (vWrite r.s r.f r.job addr bs (some tier))
    modS fun _ => s'
  modS fun s => unpoison s (if r.s.poison.isEmpty then [] else granulesOf r tier (madeWhole r.w (tier == 0) addr bs.length))
  noteSpan (tier == 0) addr bs.length

/-- The stored bytes that a write of part of a byte keeps: no poison is consumed by it. Bytes of host memory are open. -/
def peekM (tier addr n : Nat) : M (List Byte) := do
  if tier = 0 then return physRead (← getS) addr n
  else
    let parts ← mapEach (piecesOf addr n) fun p => do
      let r ← get
      match xlate r.s r.f r.job p.1 true (some tier) with
      | .fault x => throw (.done stXlate 1 x p.1)
      | .offline => stopWith stOffline
      | .need k => throw (.need k)
      | .host _ _ => do
        let (b, s') := drawBytes r.s p.2
        modS fun _ => s'
        return b
      | .dev a _ => if devicesOk r.s a p.2 then return physRead r.s a p.2 else stopWith stOffline
    return parts.flatten

/-- Reads w bits at a bit address. -/
def readBits (tier bitAddr w : Nat) : M Nat := do
  let a := bitAddr / 8
  let b ← readM tier a ((bitAddr + w + 7) / 8 - a)
  return bits (leNat b) (bitAddr % 8) w

/-- Writes w bits at a bit address; the other bits of its bytes stay (R325). -/
def writeBits (tier bitAddr w v : Nat) : M Unit := do
  let a := bitAddr / 8
  let n := (bitAddr + w + 7) / 8 - a
  if bitAddr % 8 = 0 && w % 8 = 0 then writeM tier a (leBytes n v)
  else
    let old := leNat (← peekM tier a n)
    let sh := bitAddr % 8
    let kept := old - bits old sh w * 2 ^ sh
    writeM tier a (leBytes n (kept + v % 2 ^ w * 2 ^ sh))

/-! ### Descriptors (R316) -/

/-- A descriptor as a command copies it when it starts: its fields, with the format that the layer recipe gives (R227), and the local extents on this module (R331). -/
structure TDesc where
  handle : Nat
  fmt : Nat
  layout : Nat
  rank : Nat
  tier : Nat
  checked : Bool
  mayAlias : Bool
  access : Nat
  oobFault : Bool
  padStore : Bool
  twKind : Bool
  tid : Nat
  base : Nat
  allocBase : Nat
  allocLen : Nat
  aux : Nat
  size : List Nat
  stride : List Int
  shard : Nat
  raggedH : Nat
  indexH : Nat
  idxEn : Bool
  idxDim : Nat
  ragged : List Nat
  ext : List Nat
  deriving DecidableEq, Repr

/-- A field of a descriptor's 128 bytes. -/
def rawField (d : BitVec 1024) (off n : Nat) : Nat := bits d.toNat (8 * off) (8 * n)

/-- Code and axis of a dimension's sharding (R316, R331). -/
def shardOf (shard d : Nat) : Nat × Nat := (bits shard (4 * d + 2) 2, bits shard (4 * d) 2)

/-- Local extent of a dimension of global extent n on coordinate q of p (R331). -/
def localExt (code p q n : Nat) (ragged : List Nat) : Nat :=
  match code with
  | 0 => n
  | 1 => n / p + if q < n % p then 1 else 0
  | 2 => (n - q + p - 1) / p
  | _ => ragged.getD q 0

/-- Global coordinate of local coordinate i (R331). -/
def globalOf (code p q n : Nat) (ragged : List Nat) (i : Nat) : Nat :=
  match code with
  | 0 => i
  | 1 => q * (n / p) + min q (n % p) + i
  | 2 => i * p + q
  | _ => (ragged.take q).foldl (· + ·) 0 + i

/-- The kind-table entry of a tensor (R225). -/
def Job.kindOf (j : Job) (tid : Nat) : Option KindEntry :=
  if tid = 0 then none else j.kinds.find? fun k => k.id.toNat == tid

/-- A layer's state; the default where the image gives none (R226). -/
def Job.layer (j : Job) (l : Nat) : Layer := tget {} j.layers l

/-- The element format in force: the layer recipe's for W working copies, A, G and KV, else the descriptor's (R227). -/
def recipeFmt (j : Job) (tid fmt : Nat) : Nat :=
  match j.kindOf tid with
  | none => fmt
  | some k =>
    let l := j.layer k.layer.toNat
    match k.kind.toNat with
    | 0 => if k.role = 0 then l.w.toNat else fmt
    | 1 => l.a.toNat
    | 2 => l.g.toNat
    | 5 => l.kv.toNat
    | _ => fmt

/-- Reads the fields of a descriptor for a job. -/
def parseDesc (j : Job) (h : Nat) (d : Desc) : TDesc :=
  let raw := d.raw
  let rank := rawField raw 1 1 % 16
  let sizes := (List.range rank).map fun i => rawField raw (0x28 + 9 * i) 4
  let shard := rawField raw 0x70 4
  let exts := (List.range rank).map fun i =>
    let (code, axis) := shardOf shard i
    localExt code (j.p.getD axis 1) (j.q.getD axis 0) (sizes.getD i 0) d.ragged
  let b2 := rawField raw 2 1
  let b3 := rawField raw 3 1
  let b7c := rawField raw 0x7C 1
  { handle := h, fmt := recipeFmt j (rawField raw 4 4) (rawField raw 0 1), layout := rawField raw 1 1 / 16, rank := rank,
    tier := b2 / 32, checked := b2.testBit 4, mayAlias := d.mayAlias, access := b2 % 4,
    oobFault := b3.testBit 7, padStore := b3.testBit 6, twKind := b3.testBit 5, tid := rawField raw 4 4,
    base := rawField raw 8 8, allocBase := rawField raw 0x10 8, allocLen := rawField raw 0x18 8, aux := rawField raw 0x20 8,
    size := sizes, stride := (List.range rank).map fun i => sext 40 (rawField raw (0x2C + 9 * i) 5),
    shard := shard, raggedH := rawField raw 0x74 4, indexH := rawField raw 0x78 4,
    idxEn := b7c.testBit 3, idxDim := b7c % 8, ragged := d.ragged, ext := exts }

/-- A handle names a created descriptor of the job (R313). -/
def validHandle (j : Job) (h : Nat) : Bool := decide (1 ≤ h) && decide (h < 2 ^ 20) && (tfind j.descs h).isSome

/-- The descriptor that a handle names, as the command copied it or as it stands, or DESC_INVALID (R313, R314). -/
def descM (h : Nat) : M TDesc := do
  let r ← get
  let j := r.s.job r.job
  match r.w.copies.find? fun e => e.1.toNat == h with
  | some (_, d, f) => return { parseDesc j h d with fmt := f.toNat }
  | none =>
    if h ≥ 2 ^ 20 || h = 0 then stopAt stDescInvalid 5 h
    else match tfind j.descs h with
      | some d => return parseDesc j h d
      | none => stopAt stDescInvalid 5 h

/-- Copies descriptors into the record of a command that works on after its start, those that it has copied already as they are (R227, R314, R315). -/
def keepDescs (hs : List Nat) : M Unit := do
  let j ← jobM
  modW fun w => { w with copies := hs.filterMap fun h => match w.copies.find? fun e => e.1.toNat == h with
    | some e => some e
    | none => (tfind j.descs h).map fun d => (BitVec.ofNat 32 h, d, BitVec.ofNat 8 (parseDesc j h d).fmt) }

/-- The descriptor of a handle, or none for handle 0. -/
def descOpt (h : Nat) : M (Option TDesc) := if h = 0 then pure none else some <$> descM h

/-- Elements of the format's block along the channel, 1 for formats without (R58, R62). -/
def TDesc.block (t : TDesc) : Nat := if isGm16 t.fmt then 64 else if isBlockFmt t.fmt then 32 else 1
def TDesc.width (t : TDesc) : Nat := (widthOf t.fmt).getD 8
/-- Channel extent. -/
def TDesc.chan (t : TDesc) : Nat := t.ext.headD 0
/-- Rows: index of all dimensions but the channel, dimension 1 fastest. -/
def TDesc.rows (t : TDesc) : Nat := (t.ext.drop 1).foldl (· * ·) 1
/-- Elements of the local shard. -/
def TDesc.count (t : TDesc) : Nat := t.ext.foldl (· * ·) 1
/-- Tiled layouts (R320, R321). -/
def TDesc.tiled (t : TDesc) : Bool := t.layout == 2 || t.layout == 3

/-! ### The reachable span (R297, R328) -/

/-- Rung of a W, A or KV format, or of a G format, on the ladder of R228; none for a format off it. -/
def rungOf (f : Nat) : Option Nat :=
  match f with
  | 0x0E => some 0
  | 0x0D => some 1
  | 0x0C => some 2
  | 0x0B | 0x0A => some 3
  | 0x08 | 0x09 => some 4
  | _ => none

/-- Elements of a CV32 vector of a format (R319). -/
def vecOf (fmt : Nat) : Nat := if isGm16 fmt then 64 else 32

/-- Local extents of dimension i on every module of its axis (R331). -/
def extsOf (j : Job) (t : TDesc) (ragged : List Nat) (i : Nat) : List Nat :=
  let (code, axis) := shardOf t.shard i
  let p := if code = 0 then 1 else j.p.getD axis 1
  (List.range p).map fun q => localExt code p q (t.size.getD i 0) ragged

/-- Largest local extent of dimension i on any module (R328). -/
def nmax (j : Job) (t : TDesc) (ragged : List Nat) (i : Nat) : Nat := (extsOf j t ragged i).foldl max 0

/-- The format that a tensor's span is computed for: that of its layer's ceiling where a recipe governs it and its format stands on the ladder (R227, R228, R328). -/
def spanFmt (j : Job) (t : TDesc) : Nat :=
  match j.kindOf t.tid with
  | none => t.fmt
  | some k =>
    let c := (j.layer k.layer.toNat).ceil.toNat
    if (rungOf t.fmt).isNone then t.fmt
    else match k.kind.toNat with
      | 0 => if k.role = 0 then [0x0E, 0x0D, 0x0C, 0x0B, 0x08].getD c t.fmt else t.fmt
      | 1 | 5 => [0x0E, 0x0D, 0x0C, 0x0B, 0x08].getD c t.fmt
      | 2 => [0x0C, 0x0C, 0x0C, 0x0A, 0x09].getD c t.fmt
      | _ => t.fmt

/-- Largest local extents, dimension 0 padded in CV32 (R323, R328). -/
def maxExts (j : Job) (fmt : Nat) (t : TDesc) (ragged : List Nat) : List Nat :=
  (List.range t.rank).map fun i =>
    let n := nmax j t ragged i
    if i = 0 && t.layout == 1 then (n + vecOf fmt - 1) / vecOf fmt * vecOf fmt else n

/-- Lowest and highest element offsets over extents. -/
def reach (stride : List Int) (ext : List Nat) : Int × Int :=
  (stride.zip ext).foldl (fun m e => let v : Int := e.1 * ((e.2 : Int) - 1)
    if v < 0 then (m.1 + v, m.2) else (m.1, m.2 + v)) ((0 : Int), (0 : Int))

/-- The slots of a tiled tensor over extents. -/
def slotCount (layout : Nat) (ext : List Nat) : Nat :=
  if layout = 2 then ((ext.drop 1).foldl (· * ·) 1 + 31) / 32 * ((ext.headD 0 + 31) / 32)
  else ((ext.headD 0 + 127) / 128) * ((ext.getD 1 0 + 511) / 512) * ext.getD 2 1

/-- Coordinates of a linear index over extents, the first fastest. -/
def unflatten : List Nat → Nat → List Nat
  | [], _ => []
  | n :: r, i => i % n :: unflatten r (i / n)

/-- Linear index of coordinates. -/
def flatten : List Nat → List Nat → Nat
  | n :: r, i :: is => i + n * flatten r is
  | _, _ => 0

/-- Element offset Σ i_d STRIDE_d (R318). -/
def strideOff : List Int → List Nat → Int
  | s :: ss, i :: is => s * i + strideOff ss is
  | _, _ => 0

/-- Bytes of scales of a TILE_A tile (R166). -/
def TDesc.tileScales (t : TDesc) : Nat := if isBlockFmt t.fmt then 32 else 0
/-- Slot size of a TILE_A tensor (R167). -/
def TDesc.slotSize (t : TDesc) : Nat := 16 + t.tileScales + 128 * t.width
/-- Address of the TILE_A slot that holds (ρ, c) (R320). -/
def TDesc.slotAddr (t : TDesc) (row c : Nat) : Nat :=
  t.base + ((row / 32) * ((t.chan + 31) / 32) + c / 32) * t.slotSize

/-- Element offset of channel c of row ρ in LINEAR and CV32. -/
def TDesc.offset (t : TDesc) (row c : Nat) : Int := strideOff t.stride (c :: unflatten (t.ext.drop 1) row)

/-- Bit address of element (ρ, c) in LINEAR, CV32 and a DENSE TILE_A tile (R318 to R320). -/
def TDesc.bitAddr (t : TDesc) (row c : Nat) : Nat :=
  if t.layout = 2 then 8 * (t.slotAddr row c + 16 + t.tileScales) + (row % 32) * 32 * t.width + (c % 32) * t.width
  else ((8 * t.base : Nat) + t.offset row c * (t.width : Int)).toNat

/-- Address of the scale or offset byte of (ρ, c) (R166, R319). -/
def TDesc.scaleAddr (t : TDesc) (row c : Nat) : Nat :=
  if t.layout = 2 then t.slotAddr row c + 16 + row % 32
  else ((t.aux : Int) + (t.offset row c).fdiv (t.block : Int)).toNat

/-- Global element index of local coordinates (R72, R333). -/
def elemIndex (j : Job) (t : TDesc) (coords : List Nat) : Nat :=
  let g := coords.zipIdx.map fun (i, d) =>
    let (code, axis) := shardOf t.shard d
    globalOf code (j.p.getD axis 1) (j.q.getD axis 0) (t.size.getD d 0) t.ragged i
  flatten t.size g

/-- Coordinates of channel c of row ρ. -/
def TDesc.coords (t : TDesc) (row c : Nat) : List Nat := c :: unflatten (t.ext.drop 1) row

/-- Whether an executor may address a descriptor's memory (R15, R269, R270). -/
def reaches (e : Exe) (t : TDesc) : Bool :=
  if t.tier = 0 then
    match e with
    | .ma c _ | .vu c | .mu c | .dm c _ => nearCore t.base == c
    | .ge d _ | .de d _ | .re d _ _ => nearCore t.base / 32 == d
    | _ => false
  else match e with
    | .ma _ _ | .vu _ => false
    | .mu _ => t.tier != 4
    | .dm _ _ | .ge _ _ | .de _ _ | .re _ _ _ => true
    | _ => false

/-- A descriptor that the executor may read. -/
def srcOk (e : Exe) (t : TDesc) : Bool := reaches e t && !t.idxEn
/-- A destination of a command that R330 does not list: READ_WRITE (R317), no index dimension (R326), no TILE_W (R171). -/
def dstOk (e : Exe) (t : TDesc) : Bool := reaches e t && !t.idxEn && t.access == 1 && t.layout != 3

/-- Names a writer's destination: its tensor has one more active writer until the command completes (R293). -/
def writerM (t : TDesc) : M Unit := do
  if t.tid != 0 then
    modS fun s => genStart s t.tid
    modW fun w => { w with writes := BitVec.ofNat 32 t.tid :: w.writes }

/-! ### Tiles (06) -/

/-- A tile header's fields (R164). -/
structure Hdr where
  kind : Nat
  level : Nat
  fmt : Nat
  flags : Nat
  rsvd : Nat
  epoch : Nat
  nnz : Nat
  tid : Nat
  deriving DecidableEq, Repr

def Hdr.masked (h : Hdr) : Bool := h.flags.testBit 5
def Hdr.nonfinite (h : Hdr) : Bool := h.flags.testBit 6
def Hdr.escape (h : Hdr) : Bool := h.flags.testBit 7

def parseHdr (b : List Byte) : Hdr :=
  { kind := byteField b 0 1 / 16, level := byteField b 0 1 % 16, fmt := byteField b 1 1, flags := byteField b 2 1,
    rsvd := byteField b 3 1 + byteField b 12 4, epoch := byteField b 4 2, nnz := byteField b 6 2, tid := byteField b 8 4 }

def hdrBytes (kind fmt flags epoch nnz tid : Nat) : List Byte :=
  leBytes 1 (kind * 16 + 1) ++ leBytes 1 fmt ++ leBytes 1 flags ++ [0] ++ leBytes 2 epoch ++ leBytes 2 nnz ++ leBytes 4 tid ++ leBytes 4 0

/-- The kinds that a tensor's layout allows (R163, R165). -/
def kindAllowed (t : TDesc) (kind : Nat) : Bool :=
  if t.layout = 2 then kind == 1 || kind == 2
  else kind == if t.twKind then 3 else 4

/-- Stops with TILE_INVALID at a tile's address (R165, R363). -/
def tileInvalid {α : Type} (t : TDesc) (addr : Nat) : M α := stopAt stTileInvalid (if t.tier = 0 then 2 else 1) addr

/-- The header checks of R165 that need no tile contents. -/
def checkHdr (t : TDesc) (h : Hdr) (addr : Nat) : M Unit := do
  let s ← getS
  if kindAllowed t h.kind && h.level == 1 && h.fmt == t.fmt && h.rsvd == 0 && h.flags % 32 == 0
      && (!h.escape || h.kind == 1) && (!h.masked || (tfind s.masks h.tid).isSome) then pure ()
  else tileInvalid t addr

/-- Zero-coded elements (R168). -/
def zeroCode (t : TDesc) (code : Nat) : Bool := if t.fmt = 0x0E then code % 2 == 0 else code % 2 ^ (t.width - 1) == 0

/-- A TILE_A tile's contents: header, the 32 scale bytes, 32 rows of 32 codes, and which elements are stored. -/
structure TileA where
  hdr : Hdr
  scales : List Nat
  codes : List (List Nat)
  stored : List (List Bool)
  deriving DecidableEq, Repr

/-- Spreads stored values over a bitmap row by row: the row words, and the codes still to place. -/
def spread : List Bool → List Nat → List Nat × List Nat
  | [], vs => ([], vs)
  | true :: r, v :: vs => let (a, b) := spread r vs; (v :: a, b)
  | true :: r, [] => let (a, b) := spread r []; (0 :: a, b)
  | false :: r, vs => let (a, b) := spread r vs; (0 :: a, b)

def spreadRows : List (List Bool) → List Nat → List (List Nat)
  | [], _ => []
  | m :: r, vs => let (a, b) := spread m vs; a :: spreadRows r b

/-- Reads and checks one TILE_A tile (R165, R166). -/
def readTileA (t : TDesc) (addr : Nat) : M TileA := do
  let h := parseHdr (← readM t.tier addr 16)
  checkHdr t h addr
  let sc ← readM t.tier (addr + 16) t.tileScales
  let scales := if t.tileScales = 0 then List.replicate 32 0 else sc.map (·.toNat)
  let va := addr + 16 + t.tileScales
  if h.kind = 1 then
    let v := leNat (← readM t.tier va (128 * t.width))
    return ⟨h, scales, (List.range 32).map (fun r => (List.range 32).map fun c => bits v ((32 * r + c) * t.width) t.width),
      List.replicate 32 (List.replicate 32 true)⟩
  else
    let bm := leNat (← readM t.tier va 128)
    let stored := (List.range 32).map fun r => (List.range 32).map fun c => bm.testBit (32 * r + c)
    let pop := stored.foldl (fun n r => n + (r.filter id).length) 0
    let len := ((h.nnz * t.width + 7) / 8 + 15) / 16 * 16
    if pop != h.nnz || decide (16 + t.tileScales + 128 + len > t.slotSize) then tileInvalid t addr
    else
      let v := leNat (← readM t.tier (va + 128) len)
      return ⟨h, scales, spreadRows stored ((List.range h.nnz).map fun i => bits v (i * t.width) t.width), stored⟩

/-- Bytes of the pattern section of a TILE_W quad (R170). -/
def TDesc.patBytes (t : TDesc) : Nat := if t.twKind then 48 else 28
/-- Bytes of a TILE_W quad. -/
def TDesc.quadSize (t : TDesc) : Nat := (if isBlockFmt t.fmt then 8 else 0) + t.patBytes + 32 * t.width
/-- Bytes of a TILE_W tile. -/
def TDesc.wtileSize (t : TDesc) : Nat := 16 + 128 * t.quadSize

/-- First byte and end of what a descriptor can reach on any module (R297, R328). -/
def TDesc.reachable (t : TDesc) (j : Job) (ragged : List Nat) : Int × Int :=
  let ext := maxExts j t.fmt t ragged
  if t.tiled then ((t.base : Int), ((t.base + slotCount t.layout ext * (if t.layout = 2 then t.slotSize else t.wtileSize) : Nat) : Int))
  else
    let (lo, hi) := reach t.stride ext
    let w : Int := t.width
    (t.base + lo * w / 8, t.base + ((hi + 1) * w + 7) / 8)

/-- A run-ahead load that faults in translation, or would need a page request, is dropped. -/
def dropped : Xl → Bool
  | .fault _ | .need _ => true
  | _ => false

/-- The run-ahead loads of a DMA or gather engine from a tensor (R297, R298): which 64 KiB page of its reachable span they meet, and how often, is open (log entry 105); those to a page that cannot be translated are dropped and counted, and have no other effect. -/
def runAheadM (t : TDesc) : M Unit := do
  if t.tier = 0 then pure ()
  else
    let r ← get
    let (page, s1) := drawWord r.s
    let (n, s2) := drawWord s1
    modS fun _ => s2
    let (lo, hi) := t.reachable (r.s.job r.job) t.ragged
    let first := lo.toNat / 65536
    let a := 65536 * (first + page.toNat % ((hi.toNat + 65535) / 65536 - first))
    if dropped (xlate r.s r.f r.job a false (some t.tier)) then countM 20 (n.toNat % 2 ^ 32)
/-- Address of the TILE_W slot that holds (k, n, e) (R321). -/
def TDesc.wslotAddr (t : TDesc) (k n e : Nat) : Nat :=
  let kt := (t.chan + 127) / 128
  let nt := (t.ext.getD 1 0 + 511) / 512
  t.base + ((e * nt + n / 512) * kt + k / 128) * t.wtileSize

/-- The pairs of R155. -/
def pairOf (code : Nat) : Option (Nat × Nat) :=
  [(0, 1), (0, 2), (0, 3), (1, 2), (1, 3), (2, 3)][code]?

/-- The pair code of two positions. -/
def pairCode (a b : Nat) : Nat := [(0, 1), (0, 2), (0, 3), (1, 2), (1, 3), (2, 3)].findIdx (· == (a, b))

/-- Column counts of the pairs of the first three rows (R156). -/
def colCounts (codes : List Nat) : List Nat :=
  (List.range 4).map fun c => (codes.filter fun k => match pairOf k with | some (a, b) => a == c || b == c | none => false).length

/-- The valid triples in lexicographic order, each with row 3's code (R156). -/
def transPatterns : List (List Nat) :=
  (List.range 216).filterMap fun i =>
    let tr := [i / 36, i / 6 % 6, i % 6]
    let cnt := colCounts tr
    if cnt.any (· > 2) || cnt.any (· == 0) then none
    else
      let ones := (List.range 4).filter fun c => cnt.getD c 0 == 1
      some (tr ++ [pairCode (ones.getD 0 0) (ones.getD 1 0)])

/-- The four row codes of a pattern index (R156). -/
def transDecode (idx : Nat) : Option (List Nat) := transPatterns[idx]?

/-- K positions 0 to 3 of a group that column c of a transposable block stores. -/
def transColumn (rows : List Nat) (c : Nat) : List Nat :=
  (List.range 4).filter fun r => match pairOf (rows.getD r 0) with | some (a, b) => a == c || b == c | none => false

/-- One quad of a TILE_W tile: for each of the four output positions the stored K positions (64, ascending) and codes, the scale bytes by 2 c + h, and the pattern fields (TRANS24: 32 indices; PLAIN24: 128 pair codes by 32 c + g). -/
structure Quad where
  kpos : List (List Nat)
  codes : List (List Nat)
  scales : List Nat
  pats : List Nat
  deriving DecidableEq, Repr

/-- Stored K positions of position c of a quad, from its pattern fields; none if a field is invalid. -/
def quadPositions (plain : Bool) (pats : List Nat) (c : Nat) : Option (List Nat) :=
  ((List.range 32).mapM fun g =>
    if plain then (pairOf (pats.getD (32 * c + g) 7)).map fun (a, b) => [4 * g + a, 4 * g + b]
    else (transDecode (pats.getD g 127)).map fun rows => (transColumn rows c).map (4 * g + ·)).map List.flatten

/-- Reads one quad of a TILE_W tile (R170). -/
def readQuad (t : TDesc) (tile quad : Nat) : M Quad := do
  let a := tile + 16 + quad * t.quadSize
  let sc := if isBlockFmt t.fmt then 8 else 0
  let scales := (← readM t.tier a sc).map (·.toNat)
  let p := leNat (← readM t.tier (a + sc) t.patBytes)
  let pats := if t.twKind then (List.range 128).map (fun i => bits p (3 * i) 3) else (List.range 32).map fun i => bits p (7 * i) 7
  let v := leNat (← readM t.tier (a + sc + t.patBytes) (32 * t.width))
  let kp := (List.range 4).mapM (quadPositions t.twKind pats)
  match kp with
  | none => tileInvalid t tile
  | some kpos =>
    return ⟨kpos, (List.range 4).map (fun c => (List.range 64).map fun j => bits v (64 * t.width * c + j * t.width) t.width),
      if sc = 0 then List.replicate 8 0 else scales, pats⟩

/-! ### Rows -/

/-- Counts what reading codes of one row shows: reserved GT2 codes, and GM16 blocks with offset 0xFF (R76). -/
def countReads (t : TDesc) (c0 : Nat) (l : List (Nat × Nat)) : M Unit := do
  if t.fmt = 0x0E then countM 3 (l.filter fun e => e.1 == 2).length
  if isGm16 t.fmt then
    countM 4 (((l.zipIdx.filter fun e => e.1.2 == 0xFF).map fun e => (c0 + e.2) / 64).dedup).length

/-- The codes of n channels of a row of a TILE_W tensor, expanded: a position that is not stored reads as +0 (R162, R170). -/
def readCodesW (t : TDesc) (row c0 n : Nat) : M (List (Nat × Nat)) := do
  let pos := row % t.ext.getD 1 1
  let parts ← mapEach (rangeFrom (c0 / 128) ((c0 + n + 127) / 128 - c0 / 128)) fun h => do
    let a := t.wslotAddr (128 * h) pos (row / t.ext.getD 1 1)
    checkHdr t (parseHdr (← readM t.tier a 16)) a
    let q ← readQuad t a (pos % 512 / 4)
    let ks := q.kpos.getD (pos % 4) []
    return (List.range 128).map fun k => match ks.findIdx? (· == k) with
      | some i => ((q.codes.getD (pos % 4) []).getD i 0, q.scales.getD (2 * (pos % 4) + i / 32) 0)
      | none => (0, 0)
  return (parts.flatten.drop (c0 % 128)).take n

/-- Reads the codes and scale bytes of n channels of a row from c0; an element that a tile does not store is +0 (R166). -/
def readCodes (t : TDesc) (row c0 n : Nat) : M (List (Nat × Nat)) := do
  if t.layout = 2 then
    let parts ← mapEach (rangeFrom (c0 / 32) ((c0 + n + 31) / 32 - c0 / 32)) fun v => do
      let tile ← readTileA t (t.slotAddr row (32 * v))
      let sc := tile.scales.getD (row % 32) 0
      return ((tile.codes.getD (row % 32) []).zip (tile.stored.getD (row % 32) [])).map fun e => (e.1, if e.2 then sc else 0)
    return (parts.flatten.drop (c0 % 32)).take n
  else if t.layout = 3 then readCodesW t row c0 n
  else
    mapEach (rangeFrom c0 n) fun c => do
      let code ← readBits t.tier (t.bitAddr row c) t.width
      let sc ← if t.block = 1 then pure 0 else do
        let b ← readM t.tier (t.scaleAddr row c) 1
        pure (leNat b)
      return (code, sc)

/-- Reads n channels of a row as values. -/
def readVals (t : TDesc) (row c0 n : Nat) : M (List FVal) := do
  let l ← readCodes t row c0 n
  countReads t c0 l
  match fmtOf t.fmt with
  | some k => return l.map fun e => decodeElem k e.2 e.1
  | none => stopWith stDescInvalid

/-- Reads n channels of a row, widened to FP32 (R75). -/
def readRow (t : TDesc) (row c0 n : Nat) : M (List Nat) := do
  return (← readVals t row c0 n).map fun v => f32Of v

/-- The rounding mode of a conversion into a tensor: stochastic at a site, by row 6 of R71 for privileged G and WG tensors, else to nearest even; `rne` is a command whose own rule says to nearest even (R150, R162). The element's channel number follows c0. -/
def roundMode (r : Run) (t : TDesc) (row c0 : Nat) (site : Option Nat) (rne : Bool) : Nat → Rnd :=
  let j := r.s.job r.job
  let step := r.step.getD j.step
  let priv := j.priv.contains (BitVec.ofNat 32 t.tid) &&
    match j.kindOf t.tid with
    | some k => k.kind == 2 || k.kind == 3
    | none => false
  match (if rne then none else if site.isSome then site else if priv then some 0 else none) with
  | none => fun _ => .rne
  | some st => fun i => .sr (randBits j.seed.toNat step.toNat t.tid st (elemIndex j t (t.coords row (c0 + i))))

/-- Cuts values at c0 into pieces that end at multiples of b. -/
def blockPieces (b : Nat) : Nat → Nat → List Nat → List (Nat × List Nat)
  | 0, _, _ => []
  | k + 1, c, l =>
    if l.isEmpty then []
    else
      let m := b - c % b
      (c, l.take m) :: blockPieces b k (c + m) (l.drop m)

/-- A stored code is a non-finite value. -/
def badCode (t : TDesc) (scale code : Nat) : Bool :=
  match fmtOf t.fmt with
  | some k => !f32IsFinite (widen k scale code)
  | none => false

/-- Overflow evidence of a write to a WG tensor: a saturated or non-finite element (R221). -/
def evidenceM (t : TDesc) (bad : Bool) : M Unit := do
  if bad then
    let r ← get
    let j := r.s.job r.job
    match j.kindOf t.tid with
    | some k => if k.kind = 3 && (r.s.job? r.job).isSome then modS fun s => s.setJob r.job { j with evidence := true } else pure ()
    | none => pure ()

/-- Stores codes of one row from c0, and the scale byte of a block format. -/
def putCodes (t : TDesc) (row c0 : Nat) (codes : List Nat) (scale : Nat) : M Unit := do
  forEach codes.zipIdx fun e => writeBits t.tier (t.bitAddr row (c0 + e.2)) t.width e.1
  if t.block != 1 then writeM t.tier (t.scaleAddr row c0) (leBytes 1 scale)

/-- Stores the +0 code in the padding elements of a row that ends at the channel extent: in CV32 under PAD_STORE (R329), in a tile always (R136, R163). -/
def padRow (t : TDesc) (row last : Nat) : M Unit := do
  if (t.layout == 2 || (t.layout == 1 && t.padStore)) && last == t.chan then
    let unit := if t.layout == 1 && isGm16 t.fmt then 64 else 32
    forEach (rangeFrom last ((last + unit - 1) / unit * unit - last)) fun c => writeBits t.tier (t.bitAddr row c) t.width 0

/-- Narrows FP32 values for one row of a destination from c0, without a store: the pieces with their first channel, blocks ending at multiples of the block length, with computed or fixed scales, counted under R76 and R248 (R61, R66 to R71, R136). -/
def narrowRow (t : TDesc) (k : Fmt) (row c0 : Nat) (vals : List Nat) (site : Option Nat) (fixed : Option Int) (rne : Bool := false) : M (List (Nat × Narrowed)) := do
  let r ← get
  let ps := if t.block = 1 then [(c0, vals)] else blockPieces t.block (vals.length + 1) c0 vals
  mapEach ps fun p => do
    let n := narrowBlock k (roundMode r t row p.1 site rne) fixed p.2
    countM 1 n.ovf
    countM 2 n.nonfin
    countM 11 (if decide (k.w ≤ 4) && (n.ovf != 0 || n.clamped) then 1 else 0)
    evidenceM t (n.ovf != 0 || n.nonfin != 0 || p.2.any fun v => !f32IsFinite v)
    return (p.1, n)

/-- Narrows FP32 values into one row of a destination and stores them. Answers whether a value was met that sets the NONFINITE flag (R67). -/
def writeRow (t : TDesc) (row c0 : Nat) (vals : List Nat) (site : Option Nat := none) (fixed : Option Int := none) (rne : Bool := false) : M Bool := do
  match fmtOf t.fmt with
  | none => stopWith stDescInvalid
  | some k => do
    let ps ← narrowRow t k row c0 vals site fixed rne
    forEach ps fun p => putCodes t row p.1 p.2.codes p.2.scale
    padRow t row (c0 + vals.length)
    return ps.any fun p => p.2.nonfin != 0

/-- Every row of a tensor, widened to FP32. -/
def readAll (t : TDesc) : M (List (List Nat)) := mapEach (List.range t.rows) fun r => readRow t r 0 t.chan

/-- Writes the header of a DENSE tile whose rows are in place, with NNZ counted from the stored codes (R164, R171). -/
def putDenseHdr (t : TDesc) (addr flags epoch tid : Nat) : M Unit := do
  let v := leNat (← peekM t.tier (addr + 16 + t.tileScales) (128 * t.width))
  let nnz := ((List.range 1024).filter fun i => !zeroCode t (bits v (i * t.width) t.width)).length
  writeM t.tier addr (hdrBytes 1 t.fmt flags epoch nnz tid)

/-- Clears a tile slot's values and scales to +0 before rows are written into it, so that its padding is +0 (R136, R163). -/
def clearTile (t : TDesc) (addr : Nat) : M Unit :=
  writeM t.tier (addr + 16) (List.replicate (t.tileScales + 128 * t.width) 0)

/-- Writes every row of a tensor in ascending order (R325); a TILE_A destination gets DENSE tiles whose headers carry the flags, epoch and tensor identifier given, and NONFINITE under R67 (R163, R171). -/
def writeTensor (t : TDesc) (rows : List (List Nat)) (flags epoch tid : Nat) (site : Option Nat := none) (fixed : Option Int := none) (rne : Bool := false) : M Unit := do
  if t.layout = 2 then
    forEach (rangeFrom 0 ((t.rows + 31) / 32)) fun g =>
      forEach (rangeFrom 0 ((t.chan + 31) / 32)) fun v => do
        let addr := t.slotAddr (32 * g) (32 * v)
        clearTile t addr
        let bad ← mapEach (((rows.drop (32 * g)).take 32).zipIdx) fun e =>
          writeRow t (32 * g + e.2) (32 * v) ((e.1.drop (32 * v)).take 32) site fixed rne
        putDenseHdr t addr (flags + if bad.any id then 64 else 0) epoch tid
  else forEach rows.zipIdx fun e => do
    let _ ← writeRow t e.2 0 e.1 site fixed rne
    pure ()

/-! ### Checks shared by commands (R358) -/

/-- Bytes off to off + n - 1 are zero. -/
def zeroBytes (c : Cmd) (off n : Nat) : Bool := cmdField c off n == 0

/-- The fields common to every command: reserved bit 0 of byte 1, and R37. -/
def headerOk (c : Cmd) : Bool :=
  !(cmdField c 1 1).testBit 0 && ((cmdField c 4 4).testBit 31 || cmdField c 4 4 == 0)

/-- The semaphore fields of DMA, gather and reduction commands: a number or none (R337). -/
def semFieldOk (n : Nat) : Bool := decide (n ≤ 65535) || n == 0xFFFFFFFF

/-- The semaphore that the command adds to at its completion (R344). -/
def setSem (sem add : Nat) : M Unit :=
  modW fun w => { w with sem := if sem = 0xFFFFFFFF then none else some (BitVec.ofNat 32 sem, BitVec.ofNat 64 add) }

/-- A mask-epoch reference taken by the command until it completes (R206). -/
def refMask (id : Nat) : M Unit := do
  let s ← getS
  match tfind s.masks id with
  | none => pure ()
  | some e =>
    modS fun s => { s with masks := tput id { e with refs := e.refs + 1 } s.masks }
    modW fun w => { w with refs := BitVec.ofNat 32 id :: w.refs }

end Sys2Proof.Machine
end

