-- ==== Sys2Proof/Machine/Queues.lean ====
section
/-! DEFINITION. What every queue command shares (13): when the head of a queue may start, the checks of R358 in their order, the record under construction, and the end of a command: its semaphore, its record, its queue's halt, its MSI-X message and what it held. -/

namespace Sys2Proof.Machine

/-! ### Trace (R501, R502) -/

def traceDepth : Nat := 2097152

/-- Writes a trace record for a traced queue while recording runs. -/
def traceRec (s : State) (q : QNum) (op : BitVec 8) (complete : Bool) (status seq : Nat) : State :=
  if !s.dict.traceOn || !(s.reg 0x7E00 3).testBit q.toNat || s.dict.tracePost = some 0 then s
  else
    let r : TraceRec := ⟨q, op, complete, BitVec.ofNat 16 status, BitVec.ofNat 16 seq, s.time.tick⟩
    let d := s.dict
    let n := d.traceCount + 1
    { s with dict := { d with
        trace := (if d.trace.length < traceDepth then d.trace else d.trace.drop 1) ++ [r]
        traceCount := n
        traceWraps := if n % traceDepth = 0 && d.traceWraps != BitVec.allOnes 32 then d.traceWraps + 1 else d.traceWraps
        tracePost := d.tracePost.map (· - 1) } }

/-! ### Semaphores (R366 to R373) -/

/-- Whether a value meets a wait (R368). -/
def waitMet (eq : Bool) (target v : BitVec 64) : Bool := if eq then v == target else decide (target.toNat ≤ v.toNat)

/-- Marks the waits on semaphore n that value v satisfies; a later value does not unsatisfy them (R368). -/
def markWaits (n : Nat) (v : BitVec 64) (qs : Tab Queue) : Tab Queue :=
  qs.map fun (k, x) =>
    match x.hold with
    | .wait i c m eq t sat => (k, { x with hold := .wait i c m eq t (sat || (m.toNat == n && waitMet eq t v)) })
    | .fill i m t sat => (k, { x with hold := .fill i m t (sat || (m.toNat == n && waitMet false t v)) })
    | _ => (k, x)

/-- A raised DEADLOCK condition of a job with a queue held in this way is cleared (R376). -/
def undeadlock (p : Hold → Bool) (s : State) : State :=
  { s with jobs := s.jobs.map fun e =>
      if e.2.deadlocked && s.queues.any (fun q => q.2.job.toNat == e.1 && q.2.st != .free && p q.2.hold) then (e.1, { e.2 with deadlocked := false }) else e }

/-- The hold is a wait on semaphore n. -/
def Hold.waitsOn (n : Nat) : Hold → Bool
  | .wait _ _ m _ _ _ => m.toNat == n
  | .fill _ m _ _ => m.toNat == n
  | _ => false

/-- The descriptors that a waiting command has copied. -/
def Hold.copies : Hold → List (BitVec 32 × Desc × BitVec 8)
  | .page _ l => l
  | _ => []

/-- The hold is a WAIT. -/
def Hold.isWait : Hold → Bool
  | .wait _ _ _ _ _ _ => true
  | _ => false

/-- The semaphore unit gives a LIVE semaphore a new value (R367, R376). -/
def semStore (s : State) (n : Nat) (v : BitVec 64) : State :=
  let x := s.sem n
  let s := if x.value = v then s else undeadlock (Hold.waitsOn n) s
  { s with sems := tput n { x with value := v } s.sems, queues := markWaits n v s.queues }

/-- ADD, modulo 2^64 (R367). -/
def semAdd (s : State) (n : Nat) (v : BitVec 64) : State := semStore s n ((s.sem n).value + v)

/-- What naming a semaphore answers before any effect: SEM_INVALID where it is not assigned or FREE, ORPHANED where it is (R366, R373). -/
def semCheck (s : State) (f n : Nat) : Nat :=
  if !s.assignedTo 2 n f || (s.sem n).st = .free then stSemInvalid
  else if (s.sem n).st = .orphaned then stOrphaned
  else stOk

/-- The engines of the arithmetic domain (R19, R534). -/
def Exe.arith : Exe → Bool
  | .ma _ _ | .vu _ | .mu _ | .dm _ _ => true
  | _ => false

/-- The command at `next` comes to the head now (R38, R39). In a stretch beat every slot of its schedule beat has passed; an arithmetic engine takes what comes in the idle ticks at the beat's start as there from its beginning. -/
def atHead (s : State) (q : QNum) (x : Queue) : Queue :=
  { x with
    headBeat := s.schedBeat
    headSlot := if s.time.inStretch then 256 else if (exeOf q x).arith && decide (s.slot ≤ s.power.s) then 0 else s.slot }

/-- The index after `next` and its PHASE. -/
def bumpNext (x : Queue) : Queue :=
  let n := x.next + 1
  { x with next := n, phase := if n.toNat % 2 ^ x.log2N.toNat = 0 then !x.phase else x.phase }

/-- The command at the head, which was blocked, ends with a status and waits for its record (R368, R372, R373, R380). -/
def endBlocked (x : Queue) (idx : BitVec 16) (c : Cmd) (status dkind detail : Nat) (reason : Nat := 0) : Queue :=
  { bumpNext x with
    hold := .none
    started := x.started ++ [{ idx := idx, op := opByte c, cmd := c, phase := x.phase, status := BitVec.ofNat 16 status,
                               dkind := BitVec.ofNat 3 dkind, reason := BitVec.ofNat 4 reason, detail := BitVec.ofNat 56 detail }] }

/-- A RED_BUCKET that waits for fill ends with a status and the semaphore in DETAIL. -/
def endFill (x : Queue) (idx : BitVec 16) (status detail : Nat) : Queue :=
  { x with
    hold := .none
    started := x.started.map fun w =>
      if w.idx = idx then { w with done := true, status := BitVec.ofNat 16 status, dkind := 6, detail := BitVec.ofNat 56 detail } else w }

/-- Every WAIT on semaphore n, and every RED_BUCKET whose fill it marks, in any queue of any function, completes with a status and the semaphore in DETAIL (R372, R373, R447). -/
def failWaits (s : State) (n status : Nat) : State :=
  { s with
    queues := s.queues.map fun (k, x) =>
      match x.hold with
      | .wait i c m _ _ _ => if m.toNat = n then (k, atHead s (BitVec.ofNat 15 k) (endBlocked x i c status 6 n)) else (k, x)
      | .fill i m _ _ => if m.toNat = n then (k, endFill x i status n) else (k, x)
      | _ => (k, x)
    ctxs := s.ctxs.map fun (k, x) =>
      match (tget {} s.queues k).hold with
      | .fill _ m _ _ => if m.toNat = n then (k, { grants := x.grants, flush := x.flush }) else (k, x)
      | _ => (k, x) }

/-- Every LIVE semaphore that a function owns becomes ORPHANED, and its waiters complete with ORPHANED (R373). -/
def orphanSems (s : State) (f : Nat) : State :=
  let mine := (s.sems.filter fun e => e.2.st = .live && e.2.owner.toNat == f).map (·.1)
  mine.foldl (fun s n => failWaits (s.setSem n { s.sem n with st := .orphaned }) n stOrphaned) s

/-! ### The head of a queue -/

/-- N, the entries of a queue's ring. -/
def Queue.n (x : Queue) : Nat := 2 ^ x.log2N.toNat
/-- Commands submitted and not yet started. -/
def Queue.waiting (x : Queue) : Nat := (x.tail - x.next).toNat

/-- The schedule beat that an offset from the queue's beat base names. -/
def Queue.target (x : Queue) (off : Nat) : Nat := (x.base + BitVec.ofNat 48 off).toNat

/-- Where time stands against slot k of schedule beat b: not yet, exactly there, or past. In a stretch beat every slot of its schedule beat has passed (R38, R49). An arithmetic engine's target within the throttled ticks stands at their end (R38, R534). -/
inductive When where
  | early | due | late
  deriving DecidableEq, Repr

def whenIs (s : State) (arith : Bool) (b k : Nat) : When :=
  let sb := s.schedBeat.toNat
  let k := if arith && b == sb then max k s.power.s else k
  if sb < b then .early
  else if b < sb then .late
  else if s.time.inStretch then .late
  else if s.slot < k then .early
  else if s.slot = k then .due else .late

/-- Whether the command at the head came there after slot k of schedule beat b (R38, R39). -/
def Queue.headLate (x : Queue) (b k : Nat) : Bool :=
  decide (b < x.headBeat.toNat) || (b == x.headBeat.toNat && decide (k < x.headSlot))

/-- The not-before field of a command against the present (R36, R38); a command without one is never early. -/
def notBefore (s : State) (x : Queue) (e : Exe) (c : Cmd) : When :=
  let nb := cmdField c 4 4
  if nb.testBit 31 then whenIs s e.arith (x.target (bits nb 8 23)) (nb % 256) else .due

/-- The compute dies are gated: in Snowdrop, after a fault of the module, or without power (R532, R537, R539; log entry 38). -/
def gated (s : State) : Bool := s.power.state == .standby || s.power.state == .faulted || s.power.state == .off

/-- Cycles of the arithmetic clock to a tick: none while it is stopped (R21, R531, R532). -/
def arithRatio (s : State) : Nat := if gated s || s.power.relock then 0 else s.power.ratio

/-- A core is under replacement (R524). -/
def replacing (s : State) (e : Exe) : Bool := s.trust.repl.any fun r => e.core? == some r.core.toNat

/-- An array has a repair request to carry out (R107, R108). -/
def ArrayState.pendingRepair (x : ArrayState) : Bool := x.repair.isSome && !x.recorded

/-- A repair of the array, or the replacement of its core, waits for its quiet point (R108, R524). -/
def wantsQuiet (s : State) (e : Exe) (a : Nat) : Bool := replacing s e || (s.array a).pendingRepair

/-- A queue stands at a quiet point that is waited for, before a command: an array with no row resident and LOAD_STAT next, another engine at a command boundary without a mask reference; there it takes no command (R108, R524). -/
def quietAt (s : State) (x : Queue) (e : Exe) (c : Cmd) : Bool :=
  (x.started.all fun w => w.done && w.refs.isEmpty) &&
    match e.array? with
    | some a => wantsQuiet s e a && (s.array a).resident.isEmpty && opByte c == 0x12
    | none => replacing s e

/-- An array whose empty queue stands at the quiet point that is waited for (R108, R524). -/
def quietEmpty (s : State) (x : Queue) (e : Exe) (a : Nat) : Bool :=
  wantsQuiet s e a && x.next == x.tail && (s.array a).resident.isEmpty && x.started.all fun w => w.done && w.refs.isEmpty

/-- An array that a quiet point holds (R108, R524). -/
def heldQuiet (s : State) (e : Exe) : Bool :=
  match e.array? with
  | some a => wantsQuiet s e a && (s.array a).held
  | none => false

/-- The queue may be asked for its next command: it is ACTIVE, it holds one, time issues commands, its core is not being copied to a spare, no quiet point that its empty queue gave holds its array, and neither a WAIT nor a wait for fill holds the head (R34, R108, R354, R355, R447, R524). -/
def headOpen (s : State) (x : Queue) (e : Exe) : Bool :=
  x.st == .active && !x.destroying && x.next != x.tail && s.ticking && !s.time.stopIssue &&
    !(e.arith && (decide (s.slot < s.power.s) || s.power.relock)) && !(e.die?.isSome && gated s) &&
    !(s.trust.repl.any fun r => r.quiet && e.core? == some r.core.toNat) && !heldQuiet s e &&
    match x.hold with
    | .wait _ _ _ _ _ _ => false
    | .fill _ _ _ _ => false
    | _ => true

/-- Holds the head; the tick at which a queue became blocked in the sense of R376 is kept (R377). -/
def block (s : State) (q : QNum) (h : Hold) : State :=
  let x := s.queue q
  s.setQueue q { x with
    hold := h
    since := match h with
      | .wait _ _ _ _ _ _ | .maskRef _ => if x.hold = h then x.since else s.time.tick
      | _ => x.since }

/-- The unit behind a queue is in service: an array that is not offline, a core that is not vacant (R17, R109). -/
def unitOk (s : State) (e : Exe) : Bool :=
  (match e.core? with
    | some c => !s.vacantCore c
    | none => true) &&
  match e.array? with
    | some a => (s.array a).spare != 3
    | none => true

/-- Adds a command to those started: the head moves past it. -/
def pushStarted (s : State) (q : QNum) (w : Started) : State :=
  let x := s.queue q
  let s1 := s.setQueue q (atHead s q { bumpNext x with hold := .none, started := x.started ++ [{ w with phase := x.phase }] })
  traceRec { s1 with turns := tput (exeOf q x).key q s1.turns } q w.op false 0 (cmdField w.cmd 2 2)

/-- The job's root is read when its first command starts (R282). -/
def readRoot (s : State) (x : Queue) : State :=
  match s.job? x.job.toNat with
  | some j => if j.root.isNone then s.setJob x.job.toNat { j with root := some (s.func x.func.toNat).root } else s
  | none => s

/-- Checks 1 to 5 of R358: the first status that applies, with its location. A handle that a waiting command has copied stays its own (R315). -/
def earlyChecks (j : Job) (e : Exe) (c : Cmd) (kept : List Nat) (resv : Cmd → Bool) (handles : Cmd → List Nat) : Option (Nat × Nat × Nat) :=
  if bits (cmdField c 1 1) 4 4 ≠ 1 then some (stLevel, 0, 0)
  else if !assignedOpcodes.contains (opByte c) then some (stOpcode, 0, 0)
  else if !e.runs (opByte c).toNat then some (stCmdInvalid, 0, 0)
  else if !headerOk c || !resv c then some (stReserved, 0, 0)
  else match (handles c).find? fun h => !validHandle j h && !kept.contains h with
    | some h => some (stDescInvalid, 5, h)
    | none => none

/-- A handle that a command field may leave zero for none (R313). -/
def optH (h : Nat) : List Nat := if h = 0 then [] else [h]

/-- The record of a command that has just started. -/
def freshStarted (x : Queue) (c : Cmd) : Started := { idx := x.next, op := opByte c, cmd := c }

/-- A refusal or a timeout of a host page faults the access that waited; a later access asks again (R283). -/
def forgetRefusals (s : State) (f reason : Nat) : State :=
  if reason = 5 ∨ reason = 6 then
    let x := s.func f
    s.setFunc f { x with ats := x.ats.filter fun e => e.2 != .refused && e.2 != .timedOut }
  else s

/-- Drops a mask-epoch reference (R206, R376). -/
def dropRef (s : State) (id : Nat) : State :=
  match tfind s.masks id with
  | none => s
  | some e =>
    let s := undeadlock (· == .maskRef (BitVec.ofNat 32 id)) s
    { s with masks := tput id { e with refs := e.refs - 1 } s.masks }

/-- An array gives up the reference on its tile's mask epoch (R94, R206). -/
def dropTileRef (s : State) (a : Nat) : State :=
  let x := s.array a
  match x.tile with
  | some t => if t.ref then dropRef (s.setArray a { x with tile := some { t with ref := false } }) t.wId.toNat else s
  | none => s

/-- The product among started commands whose completion ends the reference of the tile it runs on, when the next LOAD_STAT has come: the first with RELEASE, else the last (R94). -/
def lastProduct (l : List Started) : Option (BitVec 16) :=
  let ps := l.filter fun w => w.op == 0x10 || w.op == 0x11
  match ps.find? (·.release) with
  | some w => some w.idx
  | none => ps.getLast?.map (·.idx)

/-- A LOAD_STAT has come to an array: the reference of the tile in it lasts until the last product on that tile completes, which takes it over; where none is under way it ends now (R94). -/
def leaveTile (s : State) (q : QNum) (a : Nat) : State :=
  let x := s.array a
  match x.tile with
  | none => s
  | some t =>
    if !t.ref then s
    else match lastProduct (s.queue q).started with
      | none => dropTileRef s a
      | some i =>
        let y := s.queue q
        (s.setArray a { x with tile := some { t with ref := false } }).setQueue q { y with
          started := y.started.map fun w => if w.idx = i then { w with refs := t.wId :: w.refs } else w }

/-- Virtual address of the ring entry at the head of a queue (R351). -/
def entryAddr (x : Queue) : Nat := x.ring.toNat + 64 * (x.next.toNat % x.n)

/-- A command may be taken from a queue: nothing holds its head, no quiet point stands before it, its not-before target is not to come, and its SERIAL flag waits for no earlier command (R34, R38, R354, R357, R524). -/
def takeable (s : State) (q : QNum) (c : Cmd) : Bool :=
  let x := s.queue q
  let e := exeOf q x
  headOpen s x e && !quietAt s x e c && notBefore s x e c != .early && !((cmdField c 1 1).testBit 1 && !x.started.isEmpty)

/-- The command at the head of a queue, where its ring entry can be read. -/
def peekCmd (s : State) (x : Queue) : Option Cmd :=
  match vRead s x.func.toNat x.job.toNat (entryAddr x) 64 with
  | .ok (b, _) => some (BitVec.ofNat 512 (leNat b))
  | _ => none

/-- A queue has a ready head: no WAIT blocks it, its not-before target has been reached, and no SERIAL or FENCE hold applies (R354). A head that has been presented and is held is not ready. -/
def hasReady (s : State) (q : QNum) : Bool :=
  let x := s.queue q
  x.hold == .none && match peekCmd s x with
    | some c => takeable s q c && !(opByte c == 3 && !x.started.isEmpty)
    | none => headOpen s x (exeOf q x)

/-- Round robin (R354): of the ready heads of one executor, the next in ascending queue number after the one taken last is taken first. -/
def hasTurn (s : State) (q : QNum) : Bool :=
  let e := (exeOf q (s.queue q)).key
  let last := tget 0x7FFF s.turns e
  s.queues.all fun k =>
    let p := BitVec.ofNat 15 k.1
    p == q || (exeOf p k.2).key != e || decide ((q - last - 1).toNat < (p - last - 1).toNat) || !hasReady s p

/-- The head of a queue is taken now: it may be, and its queue has the turn (R354). -/
def headReady (s : State) (q : QNum) (c : Cmd) : Bool := takeable s q c && hasTurn s q

/-- NB_LATE counts, at its first presentation, a command that came to the head of its queue after its target (R38, R499). -/
def noteLate (s : State) (q : QNum) (c : Cmd) : State :=
  let x := s.queue q
  let nb := cmdField c 4 4
  if nb.testBit 31 && x.headLate (x.target (bits nb 8 23)) (nb % 256) && x.hold = .none then bump s 5 0 1 1 else s

/-- Reads the ring entry at the head of a queue, after the count of R38 and the root of R282. -/
def fetchHead (s : State) (q : QNum) (c : Cmd) : Acc (List Byte × State) :=
  let x := s.queue q
  vRead (readRoot (noteLate s q c) x) x.func.toNat x.job.toNat (entryAddr x) 64

/-- The running command of a queue at its start: s1 is the state once its ring entry is read, x the queue before. One that waited for a host page works on the descriptors that it copied (R315). -/
def headRun (s1 : State) (q : QNum) (x : Queue) (c : Cmd) : Run :=
  { s := s1, w := { freshStarted x c with copies := x.hold.copies }, q := q, exe := exeOf q x, f := x.func.toNat, job := x.job.toNat, c := c }

/-- The descriptors of a command's handles, and of the index tensors they name, as they stand (R227, R315). -/
def copiesOf (j : Job) (hs : List Nat) : List (BitVec 32 × Desc × BitVec 8) :=
  let one := fun h => (tfind j.descs h).map fun d => (h, d)
  let ds := hs.filterMap one
  (ds ++ ds.filterMap fun e => let t := parseDesc j e.1 e.2; if t.idxEn then one t.indexH else none).map fun e =>
    (BitVec.ofNat 32 e.1, e.2, BitVec.ofNat 8 (parseDesc j e.1 e.2).fmt)

/-- What the body of a started command leaves: the command among those started, complete or under way; a held head; or a host page asked for. -/
def afterBody (s1 : State) (q : QNum) (x : Queue) (c : Cmd) (hs : List Nat) : Except Stop Unit × Run → State
  | (.ok _, r) => pushStarted r.s q r.w
  | (.error (.done st dk rs dt), r) =>
    pushStarted (forgetRefusals r.s x.func.toNat rs) q { r.w with done := true, status := BitVec.ofNat 16 st, dkind := BitVec.ofNat 3 dk, reason := BitVec.ofNat 4 rs, detail := BitVec.ofNat 56 dt }
  | (.error (.hold h), _) =>
    let s2 := match h, (exeOf q x).array? with
      | .maskRef _, some a => leaveTile (block s1 q h) q a
      | _, _ => block s1 q h
    if h.isWait then traceRec s2 q (opByte c) false 0 (cmdField c 2 2) else s2
  | (.error (.need k), _) =>
    let l := if x.hold.copies.isEmpty then copiesOf (s1.job x.job.toNat) hs else x.hold.copies
    requestPage (block s1 q (.page c l)) x.func.toNat k

/-- Completes the head at once, with a status and a location. -/
def endAtHead (s : State) (q : QNum) (w : Started) (st dk dt : Nat) : State :=
  pushStarted s q { w with status := BitVec.ofNat 16 st, dkind := BitVec.ofNat 3 dk, detail := BitVec.ofNat 56 dt }

/-- Presents the command at the head of a queue, which nothing holds before it: its ring entry, its unit and the checks of R358 first, then its body (R358, R363). -/
def present (q : QNum) (c : Cmd) (resv : Cmd → Bool) (handles : Cmd → List Nat) (body : M Unit) (s : State) : State :=
  let x := s.queue q
  let e := exeOf q x
  let s0 := readRoot (noteLate s q c) x
  let va := entryAddr x
  let w := freshStarted x c
  let dead : Started := { w with cmd := 0 }
  match fetchHead s q c with
  | .need k => requestPage (block s0 q .other) x.func.toNat k
  | .fault r _ => endAtHead (forgetRefusals s0 x.func.toNat r) q { dead with reason := BitVec.ofNat 4 r } stXlate 1 va
  | .poison _ _ => endAtHead s0 q dead stUncorrectable 1 va
  | .offline => endAtHead s0 q dead stOffline 0 0
  | .ok (_, s1) =>
    if !unitOk s1 e then endAtHead s1 q w stOffline 7 q.toNat
    else match earlyChecks (s1.job x.job.toNat) e c (x.hold.copies.map (·.1.toNat)) resv handles with
      | some (st, dk, dt) => endAtHead s1 q w st dk dt
      | none => afterBody s1 q x c (handles c) ((ExceptT.run body).run (headRun s1 q x c))

/-- Starts the command at the head of a queue: nothing happens while the head is not open; it is held while a quiet point, its not-before target or SERIAL is outstanding; it is left for its queue's turn; else it is presented. -/
def startCmd (q : QNum) (c : Cmd) (resv : Cmd → Bool) (handles : Cmd → List Nat) (body : M Unit) (s : State) : Out :=
  let x := s.queue q
  let e := exeOf q x
  .next <|
    if !headOpen s x e then s
    else if quietAt s x e c then (if x.hold = .none then block s q .other else s)
    else if !takeable s q c then block (noteLate s q c) q .other
    else if !hasTurn s q then s
    else present q c resv handles body s

/-! ### Completion (R362, R364) -/

/-- The 16-byte completion record (R362). -/
def recordBytes (w : Started) : List Byte :=
  leBytes 2 w.status.toNat ++ leBytes 2 (cmdField w.cmd 2 2) ++ leBytes 4 w.opspec.toNat ++
    leBytes 8 (w.detail.toNat + w.reason.toNat * 2 ^ 56 + w.dkind.toNat * 2 ^ 60 + if w.phase then 2 ^ 63 else 0)

/-- HEAD passes every index whose record is written (R352). -/
def advanceHead : Nat → BitVec 16 → List (BitVec 16) → BitVec 16 × List (BitVec 16)
  | 0, h, w => (h, w)
  | k + 1, h, w => if w.contains h then advanceHead k (h + 1) (w.filter (· != h)) else (h, w)

/-- Notes that the record of an index is written. -/
def noteWritten (x : Queue) (idx : BitVec 16) : Queue :=
  let (h, w) := advanceHead (x.written.length + 1) x.head (idx :: x.written)
  { x with head := h, written := w }

/-- The queue's vector is raised for a completion (R385). -/
def irqFor (x : Queue) (w : Started) : Bool :=
  match x.irqMode.toNat with
  | 0 => false
  | 1 => true
  | 2 => (cmdField w.cmd 1 1).testBit 3 || isError w.status.toNat
  | _ => isError w.status.toNat

/-- A queue enters HALTED and QUEUE_HALTED is posted to its function (R355, R375). -/
def haltQueue (s : State) (q : QNum) (status seq : Nat) : State :=
  let x := s.queue q
  if x.st = .active then
    postEvent (s.setQueue q { x with st := .halted }) x.func.toNat 0x0001 x.job.toNat (leBytes 2 q.toNat ++ leBytes 2 status ++ leBytes 2 seq)
  else s

/-- The queues of a job. -/
def queuesOf (s : State) (job : Nat) : List QNum :=
  if job = 0 then [] else (s.queues.filter fun e => e.2.st != .free && e.2.job.toNat == job).map fun e => BitVec.ofNat 15 e.1

/-- LAST_UE (R309). -/
def ueBytes (s : State) (a level : Nat) : List Byte := leBytes 8 a ++ leBytes 1 level ++ leBytes 8 s.time.tick.toNat

/-- A command consumed poison: the job stops and the error is recorded (R305). -/
def stopJob (s : State) (f job a level : Nat) : State :=
  let ue := ueBytes s a level
  let s := bump { s with msys := { s.msys with lastUe := ue } } 5 0 16 1
  let s := bbWrite s 0x0003 7 level ue
  let s := match s.job? job with
    | some j => (queuesOf s job).foldl (fun s q => haltQueue s q stUncorrectable 0) (s.setJob job { j with stopped := true })
    | none => s
  postEvent (noteFault s 0x0002) f 0x0002 job (ue.take 16)

/-- The end of a MASK_COMMIT: the registry entry returns to IDLE, with the next epoch where the commit completed with OK (R204, R207, R208). -/
def endCommit (s : State) (w : Started) : State :=
  match w.commit with
  | none => s
  | some id =>
    match tfind s.masks id.toNat with
    | none => s
    | some e =>
      if w.status = 0 then { s with masks := tput id.toNat { e with st := .idle, epoch := e.epoch + 1 } s.masks, commits := s.commits + 1 }
      else { s with masks := tput id.toNat { e with st := .idle } s.masks }

/-- Drops what a finished command held: mask references, its place among active writers, the reference of a released tile (R94, R206, R293). -/
def dropHeld (s : State) (e : Exe) (w : Started) : State :=
  let s := endCommit s w
  let s := w.refs.foldl (fun s i => dropRef s i.toNat) s
  let s := w.writes.foldl (fun s i => genEnd s i.toNat) s
  match w.release, e.array? with
  | true, some a =>
    let s := dropTileRef s a
    let x := s.array a
    match x.tile with
    | some t => s.setArray a { x with tile := some { t with released := true } }
    | none => s
  | _, _ => s

/-- The tracker entry of a tracked prefetch records the value of its semaphore at completion; older entries on that semaphore, in whichever core's tracker, which no WAIT freed or replays, are freed; a prefetch that failed leaves no entry (R294, R295). -/
def trackDone (s : State) (q : QNum) (w : Started) : State :=
  match w.tracked with
  | none => s
  | some c =>
    let l := tget [] s.msys.trackers c.toNat
    let mine := fun (t : Track) => t.queue == q && t.cmd == w.cmd && t.sem.isNone
    let drop := tput c.toNat (l.filter fun t => !mine t) s.msys.trackers
    let l' := if isError w.status.toNat then drop
      else match w.sem with
        | none => drop
        | some (n, _) =>
          s.msys.trackers.map fun e =>
            let kept := e.2.filter fun t => t.sem != some n || t.run.isSome
            (e.1, if e.1 = c.toNat then kept.map fun t => if mine t then { t with sem := some n, v := (s.sem n.toNat).value } else t else kept)
    { s with msys := { s.msys with trackers := l' } }

/-- A queue whose DESTROY waited becomes FREE with its last completion (R355). -/
def settleDestroy (s : State) (q : QNum) : State :=
  let x := s.queue q
  if x.destroying && x.started.isEmpty then s.setQueue q {} else s

/-- A flushed queue becomes ACTIVE with HEAD = TAIL once every index has its record: no command of it is left, started or not (R355, R356). -/
def settleFlush (s : State) (q : QNum) : State :=
  let x := s.queue q
  if x.flushing && x.st == .halted && x.started.isEmpty && x.next == x.tail then
    s.setQueue q { x with st := .active, flushing := false, head := x.tail, written := [], since := s.time.tick }
  else s

/-- Writes whose responses are outstanding: those of the function's started commands that have no record yet (R285, log entry 104). -/
def outstandingWrites (s : State) (f : Nat) : List Span :=
  s.queues.flatMap fun e => if e.2.func.toNat = f then e.2.started.flatMap fun w => if w.done then w.spans.filter (!·.near) else [] else []

/-- An outstanding write of a function was translated to a host address of a range at its own port (R284, R465). -/
def writesHost (s : State) (f : Nat) (r : BitVec 64 × BitVec 64) : Bool :=
  (outstandingWrites s f).any fun p => s.msys.xlates.any fun e =>
    e.func == f && e.tgt == f / 64 + 1 && decide (p.start < 65536 * (e.page + 1)) && decide (65536 * e.page < p.start + p.len) &&
      decide (r.1.toNat < 65536 * (e.frame + 1)) && decide (65536 * e.frame < r.1.toNat + r.2.toNat)

/-- Sends the ATS Invalidation Completions of a function whose conditions hold (R284, R465). -/
def settleAts (s : State) (f : Nat) : State :=
  let x := s.func f
  let left := x.atsInval.filter (writesHost s f)
  s.setFunc f { x with atsInval := left, atsDone := x.atsDone + (x.atsInval.length - left.length) }

/-- Everything that the completion of a command does, its record's write excepted. A lost record's index is not passed by HEAD, and its fault halts the queue; a command that consumed poison halts its own queue, with its SEQ, before the others of its job (R344, R364, R375). -/
def finishCmd (s : State) (q : QNum) (w : Started) (lost : Option Nat) : State :=
  let x := s.queue q
  let e := exeOf q x
  let seq := cmdField w.cmd 2 2
  let left := x.started.filter (·.idx != w.idx)
  let x1 := { x with
    started := left
    lastErr := if isError w.status.toNat then w.status else x.lastErr
    since := if left.isEmpty && x.next == x.tail then s.time.tick else x.since }
  let x1 := if lost.isNone then noteWritten x1 w.idx else x1
  let s := traceRec (s.setQueue q x1) q w.op true w.status.toNat seq
  let s := dropHeld (trackDone s q w) e w
  let poison := w.ue.isSome && w.status.toNat == stUncorrectable
  let s := match lost with
    | some st => haltQueue s q st seq
    | none => if isError w.status.toNat && (poison || !(cmdField w.cmd 1 1).testBit 2) then haltQueue s q w.status.toNat seq else s
  let s := match w.ue with
    | some (a, l) => if poison then stopJob s x.func.toNat x.job.toNat a l else s
    | none => s
  let s := if lost.isNone && irqFor x w then raiseMsix s x.func.toNat x.vector.toNat else s
  settleAts (settleFlush (settleDestroy s q) q) x.func.toNat

/-- The semaphore add of a completion with OK; a semaphore that is no longer LIVE gives the record its own status instead (R344, R366, R373). -/
def completeSem (s : State) (f : Nat) (w : Started) : State × Started :=
  match w.sem with
  | none => (s, w)
  | some (n, v) =>
    if w.status != 0 then (s, w)
    else
      let st := semCheck s f n.toNat
      if st = stOk then (semAdd s n.toNat v, w)
      else (s, { w with status := BitVec.ofNat 16 st, dkind := 6, detail := BitVec.ofNat 56 n.toNat })

/-- Writes bytes one by one at addresses of a tier. -/
def putEach (s : State) (f job tier : Nat) : List (Nat × Byte) → Acc State
  | [] => .ok s
  | (a, b) :: r =>
    match (if tier = 0 then Acc.ok (physWrite s a [b]) else vWrite s f job a [b] (some tier)) with
    | .ok s1 => putEach s1 f job tier r
    | e => e

/-- Writes the status block with the command's status; where its write fails, that is the command's status (R344, R345). The key of a host page where the host has not answered for it. -/
def completeStat (s : State) (f job : Nat) (w : Started) : State × Started × Option Nat :=
  match w.stat with
  | none => (s, w, none)
  | some (tier, addrs, bs) =>
    match putEach s f job tier (addrs.zip (leBytes 2 w.status.toNat ++ bs.drop 2)) with
    | .ok s1 => (s1, w, none)
    | .need k => (s, w, some k)
    | .fault r va => (s, { w with status := BitVec.ofNat 16 stXlate, dkind := 1, reason := BitVec.ofNat 4 r, detail := BitVec.ofNat 56 va }, none)
    | .poison _ _ => (s, w, none)
    | .offline => (s, { w with status := BitVec.ofNat 16 stOffline, dkind := 0, detail := 0 }, none)

/-- Completes one started command of a queue: status block, semaphore, record, and the rest (R344, R364). -/
def completeOne (s : State) (q : QNum) (w : Started) : State :=
  let x := s.queue q
  let f := x.func.toNat
  let (s0, w0, wait) := completeStat s f x.job.toNat w
  match wait with
  | some k => requestPage s f k
  | none =>
    let (s1, w1) := completeSem s0 f w0
    match vWrite s1 f x.job.toNat (x.comp.toNat + 16 * (w1.idx.toNat % x.n)) (recordBytes w1) with
    | .ok s2 => finishCmd s2 q w1 none
    | .need k => requestPage s f k
    | .offline => finishCmd s1 q w1 (some stOffline)
    | .fault r _ => finishCmd (forgetRefusals s1 f r) q w1 (some stXlate)
    | .poison _ _ => finishCmd s1 q w1 (some stXlate)

/-- The started command of an index whose work is over. -/
def findDone (x : Queue) (idx : BitVec 16) : Option Started := x.started.find? fun w => w.idx == idx && w.done

end Sys2Proof.Machine
end

