-- ==== Sys2Proof/Machine/Torus.lean ====
section
/-! DEFINITION. What the torus commands share (15): the checks of slots, messages and their heads, the ports' axes and neighbours, the queues of the transmit side, indications, and a port that leaves service. -/

namespace Sys2Proof.Machine

/-! ### Checks (R413, R414) -/

/-- Eight steps of a CRC that shifts toward the top bit, polynomial 0x1021. -/
def crc16Bits : Nat → Nat → Nat
  | 0, c => c
  | k + 1, c => crc16Bits k (if c.testBit 15 then (2 * c % 2 ^ 16) ^^^ 0x1021 else 2 * c)

/-- HCRC: CRC-16 with polynomial 0x1021 and initial value 0xFFFF (R414). -/
def crc16 (bs : List Byte) : Nat := bs.foldl (fun c b => crc16Bits 8 (c ^^^ (b.toNat * 256))) 0xFFFF

/-- A flit of bytes, padded with zeros. -/
def flitOf (bs : List Byte) : Flit := BitVec.ofNat 512 (leNat bs)

/-- CRC_g of a slot: header bytes 4 and 5, then the group's positions (R413). -/
def groupCrc (seq : Nat) (fl : List Flit) (g : Nat) : Nat :=
  crc32 (leBytes 2 seq ++ ((fl.drop (4 * g)).take (if g = 7 then 2 else 4)).flatMap bytes64)

/-! ### The light code (R412, R413) -/

/-- Bytes of a slot before its parity: header, 30 positions, 8 CRCs (R412). -/
def slotBody (hdr : BitVec 128) (fl : List Flit) (crcs : List (BitVec 32)) : List Byte :=
  leBytes 16 hdr.toNat ++ fl.flatMap bytes64 ++ crcs.flatMap fun c => leBytes 4 c.toNat

/-- Multiplication in GF(2^8) with field polynomial x^8 + x^4 + x^3 + x^2 + 1, over the low k bits of the second factor. -/
def gf8Mul : Nat → Nat → Nat → Nat
  | 0, _, _ => 0
  | k + 1, a, b => (if b.testBit 0 then a else 0) ^^^ gf8Mul k (if a.testBit 7 then (2 * a % 256) ^^^ 0x1D else 2 * a) (b / 2)

/-- One step of the division by the generator: the remainder's coefficients of x^0 to x^3, the next data byte. -/
def lightStep (r : List Nat) (d : Byte) : List Nat :=
  let f := d.toNat ^^^ r.getD 3 0
  (List.range 4).map fun i => (if i = 0 then 0 else r.getD (i - 1) 0) ^^^ gf8Mul 8 (Config.lightGen i).toNat f

/-- The remainder of codeword j: the bytes of the slot at offsets congruent to j modulo 8. -/
def lightRest (body : List Byte) (j : Nat) : List Nat :=
  ((List.range 246).map fun n => body.getD (8 * n + j) 0).foldl lightStep [0, 0, 0, 0]

/-- The 32 parity bytes: byte 8 i + j is the i-th of codeword j, the highest coefficient first (log entry 13). -/
def lightParity (body : List Byte) : List Byte :=
  (List.range 32).map fun n => BitVec.ofNat 8 ((lightRest body (n % 8)).getD (3 - n / 8) 0)

/-- The bytes that the light code leaves wrong: those of a codeword with more than 2 of them. -/
def afterLight (l : List (Nat × Byte)) : List (Nat × Byte) :=
  l.filter fun e => decide (2 < (l.filter fun x => x.1 % 8 == e.1 % 8).length)

/-! ### The line code (R407 to R409) -/

/-- The line codeword, of the 25 over 8 slots, that carries byte o of slot k. -/
def lineWord (k o : Nat) : Nat := (2000 * (k % 8) + o) / 640

/-- Symbols in error of a line codeword. -/
def lineErrors (r : RxSlot) (k c : Nat) : Nat :=
  match r.line.find? fun e => e.1 == c with
  | some e => e.2
  | none => (r.errs.filter fun e => lineWord k e.1 == c).length

/-- The line codewords that end in slot k. -/
def lineEnds (k : Nat) : List Nat := (List.range 25).filter fun c => 2000 * (k % 8) < 640 * (c + 1) && 640 * (c + 1) ≤ 2000 * (k % 8) + 2000

/-- Symbols corrected, and codewords beyond correction, of the codewords that end in slot k. -/
def lineCounts (r : RxSlot) (k : Nat) : Nat × Nat :=
  let l := (lineEnds k).map (lineErrors r k)
  ((l.filter (· ≤ 15)).foldl (· + ·) 0, (l.filter (15 < ·)).length)

/-- The bytes that are wrong when the light code sees the slot: in Hollyhock the line code has corrected up to 15 symbols of each codeword. -/
def afterLine (holly : Bool) (r : RxSlot) (k : Nat) : List (Nat × Byte) :=
  if holly then r.errs.filter fun e => 15 < lineErrors r k (lineWord k e.1) else r.errs

/-- The slot with the bytes that stay wrong. -/
def asReceived (r : RxSlot) (l : List (Nat × Byte)) : RxSlot :=
  if l.isEmpty then r
  else
    let bs := l.foldl (fun bs e => bs.set e.1 (bs.getD e.1 0 ^^^ e.2)) (slotBody r.hdr r.flits r.crcs)
    { r with
      hdr := BitVec.ofNat 128 (byteField bs 0 16)
      flits := (List.range 30).map fun i => flitOf ((bs.drop (16 + 64 * i)).take 64)
      crcs := (List.range 8).map fun g => BitVec.ofNat 32 (byteField bs (0x790 + 4 * g) 4) }

/-- What a port's codes make of a slot: the slot as used, symbols corrected, codewords beyond correction, and, in Poppy, errors that the line parity finds and the light code missed (R409). -/
def decodeSlot (holly : Bool) (r : RxSlot) : RxSlot × Nat × Nat × Nat :=
  let k := bits r.hdr.toNat 24 8
  let l := afterLight (afterLine holly r k)
  let (corr, uncorr) := lineCounts r k
  (asReceived r l, corr, uncorr, if holly then 0 else (l.filter fun e => lineErrors r k (lineWord k e.1) ≤ 15).length)

/-- A line codeword: 640 bytes transcoded to 514 symbols, and 30 parity symbols (R408). -/
def lineCodeword (bs : List Byte) : List (BitVec 10) :=
  let v := (List.range 20).foldl (fun v i => v + (Config.transcode ((bs.drop (32 * i)).take 32)).toNat * 2 ^ (257 * i)) 0
  let d := (List.range 514).map fun i => BitVec.ofNat 10 (bits v (10 * i) 10)
  d ++ (List.range 30).map (Config.lineParity d)

/-- Cuts bytes into codewords: the codewords, and the bytes left. -/
def lineCut : Nat → List Byte → List (List (BitVec 10)) × List Byte
  | 0, bs => ([], bs)
  | n + 1, bs =>
    if bs.length < 640 then ([], bs)
    else
      let (l, r) := lineCut n (bs.drop 640)
      (lineCodeword (bs.take 640) :: l, r)

/-- A slot leaves on the nine lanes (R408, R425): codewords begin with every eighth slot and are striped symbol by symbol over the logical lanes; in the beat before a move the target carries its lane too; a lane that carries none sends PRBS31. -/
def sendLine (x : PortState) (slot : Nat) (beat : BitVec 48) (bs : List Byte) : PortState :=
  let (ws, rest) := lineCut 5 ((if slot % 8 = 0 then [] else x.lineBuf) ++ bs)
  let n := ws.length * 68
  let of := fun (l : Nat) => (List.range n).map fun i => ws.flatten.getD (8 * i + l) 0
  { x with
    lineBuf := rest
    prbsPos := x.prbsPos + n
    lanes := (List.range 9).map fun p =>
      match x.txMap.findIdx? (·.toNat == p), x.moveTx with
      | some l, _ => of l
      | none, some v => if v.target.toNat = p ∧ v.beat = beat + 1 then of v.lane.toNat else (List.range n).map fun i => Config.prbs31 (x.prbsPos + i)
      | none, none => (List.range n).map fun i => Config.prbs31 (x.prbsPos + i) }

/-! ### Messages (R419, R420) -/

def msgKind (m : Msg) : Nat := bits m.head.toNat 0 8
def msgJob (m : Msg) : Nat := bits m.head.toNat 32 10
/-- n bytes of a head at an offset. -/
def msgField (m : Msg) (off n : Nat) : Nat := bits m.head.toNat (8 * off) (8 * n)

/-- A head: kind, LEN, RED_JOB, and the bytes from 0x06 on. -/
def mkHead (kind len job : Nat) (rest : List Byte) : Flit :=
  flitOf ([BitVec.ofNat 8 kind, 0] ++ leBytes 2 len ++ leBytes 2 job ++ rest)

/-- A LINK_MGMT message (R420). -/
def mgmtMsg (sub : Nat) (fields : List Byte) : Msg := ⟨mkHead 3 0 0 (BitVec.ofNat 8 sub :: 0 :: fields), []⟩

/-- The bytes of a TRANSFER or CHAIN head from 0x06 on hold no nonzero reserved field and no value that R439 does not give. -/
def chainHeadOk (x : Nat) : Bool :=
  bits x 59 4 == 0 && bits x 73 7 == 0 && bits x 104 8 == 0 && bits x 256 256 == 0 &&
    (if x.testBit 55 then bits x 16 16 == 0 else bits x 112 16 == 0) &&
    (if bits x 0 8 = 1 then bits x 56 8 == 0 else decide (bits x 56 3 ≤ 3))

/-- A head that R419 admits: kind, LEN and reserved values; a LINK_MGMT message and a STRETCH_RECORD have no data flits (R420, R439, log entry 86). -/
def headOk (h : Flit) : Bool :=
  let x := h.toNat
  let kind := bits x 0 8
  decide (1 ≤ kind) && decide (kind ≤ 4) && bits x 8 8 == 0 && decide (bits x 16 16 ≤ 1024) && bits x 42 6 == 0 &&
    (if kind ≤ 2 then chainHeadOk x else bits x 32 10 == 0 && bits x 16 16 == 0 && (kind == 3 || bits x 208 304 == 0))

/-! ### Axes (R404, R405) -/

/-- Size of an axis, 0x3400:03. -/
def axisSize (s : State) (axis : Nat) : Nat := bits (s.reg 0x3400 3) (8 * axis) 8
/-- The module's coordinate on an axis, 0x3400:02; 0xFF when unset. -/
def coord (s : State) (axis : Nat) : Nat := bits (s.reg 0x3400 2) (8 * axis) 8
/-- Axis of a port. -/
def portAxis (p : Port) : Nat := p.toNat / 2
/-- The port of an axis in direction + or -. -/
def axisPort (axis : Nat) (plus : Bool) : Port := BitVec.ofNat 3 (2 * axis + if plus then 1 else 0)

/-- The coordinates that the neighbour on a port must have (R404). -/
def neighbourCoord (s : State) (p : Port) (axis : Nat) : Nat :=
  let q := coord s axis
  let n := axisSize s axis
  if axis = portAxis p then (if p.toNat % 2 = 0 then (q + n - 1) % n else (q + 1) % n) else q

/-! ### Service (R33 to R35, R421) -/

/-- The time unit is ALIGNED, or keeps that alignment in holdover and until the beat boundary after FAULT (R32, R34). -/
def timeAligned (s : State) : Bool :=
  match s.time.st with
  | .aligned => true
  | .holdover => s.time.heldFrom == .aligned
  | .fault => s.time.heldFrom == .aligned && !s.time.stopIssue
  | _ => false

/-- The port reports TIME_MISMATCH (R35, R428). -/
def PortState.mismatched (x : PortState) : Bool := x.mismatch || decide (16 ≤ x.skewRun)

/-- Scheduled service (R421, R427). -/
def scheduled (s : State) (x : PortState) : Bool := x.st == .active && timeAligned s && !x.mismatched && !x.awaitEpoch

/-- Ports in service (R421). -/
def activePorts (s : State) : List Port :=
  ((List.range 8).map fun n => BitVec.ofNat 3 n).filter fun p => (s.port p).st == .active

/-! ### Transmit queues -/

/-- The flits of a message. -/
def toFlits (m : Msg) (src : Option QNum) : List TxFlit := ⟨0, m.head, true, src, false⟩ :: m.data.map fun f => ⟨0, f, false, src, false⟩

/-- Queues a management message on a port. -/
def sendMgmt (s : State) (p : Port) (m : Msg) : State :=
  let x := s.port p
  s.setPort p { x with mgmt := x.mgmt ++ toFlits m none }

/-- A port takes messages: in service, or in RETRAIN, which keeps what waits (R421, R428, log entry 87). -/
def PortState.up (x : PortState) : Bool := x.st == .active || x.st == .retrain

/-- Queues a message as backlog; a port that has lost its link discards it (R427). -/
def sendBacklog (s : State) (p : Port) (m : Msg) (src : Option QNum) : State :=
  let x := s.port p
  if x.up then s.setPort p { x with backlog := x.backlog ++ toFlits m src } else s

/-- The IDENT message of a port (R420). -/
def identMsg (s : State) (p : Port) : Msg :=
  mgmtMsg 1 (leBytes 8 Config.moduleId.toNat ++ leBytes 4 (s.reg 0x3400 2) ++ leBytes 4 (s.reg 0x3400 3) ++
    [BitVec.ofNat 8 p.toNat, BitVec.ofNat 8 (bits (s.reg 0x3400 5) (8 * p.toNat) 8)])

/-- TIME_STATE (R52). -/
def TimeState.code : TimeState → Nat
  | .unlocked => 0 | .locked => 1 | .aligned => 2 | .holdover => 3 | .fault => 4

/-- The OFFSET message (R420). -/
def offsetMsg (s : State) : Msg := mgmtMsg 4 (leBytes 8 s.time.offset.toNat ++ [BitVec.ofNat 8 s.time.st.code])

/-- The PING message (R420); its tick is set again as its slot leaves. -/
def pingMsg (s : State) : Msg := mgmtMsg 2 (leBytes 8 s.time.tick.toNat)

/-- A port sends IDENT, PING and OFFSET (R421). -/
def sendTrio (s : State) (p : Port) : State :=
  sendMgmt (sendMgmt (sendMgmt s p (identMsg s p)) p (pingMsg s)) p (offsetMsg s)

/-! ### Indications (R46, R381) -/

/-- A stretch indication goes out on every port in service but the one it arrived on. -/
def sendStr (s : State) (tgt : BitVec 4) (except : Option Port) : State :=
  (activePorts s).foldl (fun s p => if some p = except then s else s.setPort p { s.port p with strOut := (s.port p).strOut ++ [tgt] }) s

/-- An abort indication goes out on every port in service but the one it arrived on, unless the module forwarded it in the last 1.0 ms. -/
def sendAbt (s : State) (job : BitVec 10) (except : Option Port) : State :=
  if s.abtSeen.any fun e => e.1 == job && decide ((s.time.tick - e.2).toNat < 100000) then s
  else
    let s := (activePorts s).foldl (fun s p => if some p = except then s else s.setPort p { s.port p with abtOut := (s.port p).abtOut ++ [job] }) s
    { s with abtSeen := (s.abtSeen.filter fun e => e.1 != job) ++ [(job, s.time.tick)] }

/-! ### Events (R432) -/

/-- The DETAIL of a torus event: port, reason, lane, 5 B of zero, the far end's identity. -/
def torusDetail (s : State) (p : Port) (lane : Nat) : List Byte :=
  [BitVec.ofNat 8 p.toNat, BitVec.ofNat 8 (s.port p).reason.toNat, BitVec.ofNat 8 lane, 0, 0, 0, 0, 0] ++
    leBytes 8 ((s.port p).neighbour.toNat % 2 ^ 64)

/-! ### Chains on a port (R427, R437, R455) -/

/-- AXIS and DIR of a RED_BUCKET: the port it sends on. -/
def bucketPort (c : Cmd) : Port := axisPort (bits (cmdField c 0x34 1) 4 2) !((cmdField c 0x34 1).testBit 3)
/-- The port it receives on, where its credits leave. -/
def bucketBack (c : Cmd) : Port := axisPort (bits (cmdField c 0x34 1) 4 2) ((cmdField c 0x34 1).testBit 3)

/-- The segments that a context presents for a slot: whole messages that its credits cover, until they fill n positions. -/
def presentSegs : Nat → Ctx → List Msg → List Msg × Ctx
  | n, x, m :: r =>
    if n = 0 ∨ x.credits < m.data.length + 1 then ([], { x with outq := m :: r })
    else
      let (l, y) := presentSegs (n - (m.data.length + 1)) { x with credits := x.credits - (m.data.length + 1) } r
      (m :: l, y)
  | _, x, [] => ([], { x with outq := [] })

/-- What a context presents for n positions. -/
def takeFrom (s : State) (q n : Nat) : State × List TxFlit :=
  let qn := BitVec.ofNat 15 q
  let (l, x) := presentSegs n (s.ctx qn) (s.ctx qn).outq
  (s.setCtx qn x, l.flatMap fun m => toFlits m (some qn))

/-- The RED_BUCKET of a context whose chain runs on a port, with a segment ready and credit for it (R441). -/
def Ctx.ready (x : Ctx) (p : Port) : Option Cmd :=
  match x.cur, x.outq with
  | some (_, c), m :: _ => if x.running && bucketPort c == p && decide (m.data.length + 1 ≤ x.credits) then some c else none
  | _, _ => none

/-- A context presents traffic for slot k of a port (R441). -/
def Ctx.presents (x : Ctx) (p : Port) (k : Nat) : Bool :=
  match x.ready p with
  | some c => decide (cmdField c 0x36 1 ≤ k) && decide (k ≤ cmdField c 0x37 1)
  | none => false

/-- The slots of a context's range that a beat in RETRAIN took from it, from slot k on (R428). -/
def lostSlots (c : Cmd) (k : Nat) : Nat := cmdField c 0x37 1 + 1 - max k (cmdField c 0x36 1)

/-- Late senders (R44, R428): as a schedule beat ends in which a port was in RETRAIN, what its contexts would have sent in the slots lost waits as backlog, and LATE_SEND counts each of them. -/
def lateSenders (s : State) : State :=
  ((List.range 8).map fun n => BitVec.ofNat 3 n).foldl (fun s p =>
    let x := s.port p
    if x.st != .retrain || !timeAligned s || s.time.inStretch || x.mismatched || x.awaitEpoch then s
    else
      let k := if x.retrainAt.toNat / 256 = s.time.tick.toNat / 256 then x.retrainAt.toNat % 256 else 0
      s.ctxs.foldl (fun s e =>
        match e.2.ready p with
        | some c =>
          if lostSlots c k = 0 then s
          else
            let (s, l) := takeFrom s e.1 (30 * lostSlots c k)
            bump (s.setPort p { s.port p with backlog := (s.port p).backlog ++ l }) 0x0A p.toNat 9 1
        | none => s) s) s

/-- The work of a started command is over, with a status. -/
def markDone (s : State) (q : QNum) (idx : BitVec 16) (st : Nat) : State :=
  let x := s.queue q
  s.setQueue q { x with started := x.started.map fun w => if w.idx = idx then { w with done := true, status := BitVec.ofNat 16 st } else w }

/-- What a context keeps when its command ends: grants and its recorded flush. -/
def Ctx.idle (x : Ctx) : Ctx := { grants := x.grants, flush := x.flush }

/-- The RED_BUCKET of a context, or the CLOSE whose verdict round runs on it, ends with a status (R222, R427). -/
def stopChain (s : State) (q : QNum) (st : Nat) : State :=
  let x := s.ctx q
  match x.cur, x.round with
  | some (idx, _), _ => markDone (s.setCtx q x.idle) q idx st
  | none, some (j, _, _) =>
    let s := s.setCtx q x.idle
    match s.job? j.toNat with
    | some y => match y.verdict with
      | some v => markDone (s.setJob j.toNat { y with verdict := none }) v.queue v.idx st
      | none => s
    | none => s
  | none, none => s

/-- Whether a context's work passes through a port. -/
def Ctx.uses (x : Ctx) (p : Port) : Bool :=
  (match x.cur with
    | some (_, c) => x.running && (bucketPort c == p || bucketBack c == p)
    | none => false) ||
  match x.round with
    | some (_, a, _) => axisPort a.toNat true == p || axisPort a.toNat false == p
    | none => false

/-- Every running chain and verdict round that uses a port ends with UNIT_OFFLINE. -/
def stopChainsOn (s : State) (p : Port) : State :=
  (s.ctxs.filter fun e => e.2.uses p).foldl (fun s e => stopChain s (BitVec.ofNat 15 e.1) stOffline) s

/-! ### States of a port (R421) -/

/-- A port's link state is lost: transmit and receive queues, sequence state, moves; what it knows of its plug, its far end and its setting stays (R427). -/
def PortState.cleared (x : PortState) (st : PortPhase) (reason : BitVec 4) : PortState :=
  { st := st, reason := reason, hollyhock := x.hollyhock, neighbour := x.neighbour, hopLatency := x.hopLatency,
    supplyCut := x.supplyCut, plugged := x.plugged }

/-- A link is lost: the port goes to DETECT, and LINK_DOWN is posted to every function with a running job (R421, R427). -/
def linkDown (s : State) (p : Port) : State :=
  let d := torusDetail s p 0
  let s := stopChainsOn (s.setPort p ((s.port p).cleared .detect 0)) p
  postTo s (jobOwners s) 0x0101 d

/-- A port fails with a reason (R421, R432). -/
def failPort (s : State) (p : Port) (reason : Nat) : State :=
  let was := (s.port p).st
  let s := s.setPort p ((s.port p).cleared .failed (BitVec.ofNat 4 reason))
  let s := if was = .active ∨ was = .retrain then stopChainsOn s p else s
  postAll s 0x0105 (torusDetail s p 0)

/-- A port goes to DISABLED. -/
def disablePort (s : State) (p : Port) : State :=
  let was := (s.port p).st
  let s := s.setPort p ((s.port p).cleared .disabled (s.port p).reason)
  if was = .active ∨ was = .retrain then stopChainsOn s p else s

/-- Whether a port may train: enabled, an axis of two or more, its supply not cut, time LOCKED or later, and a module that runs its IOD and is not in Snowdrop (R405, R421, R532, R560). -/
def mayTrain (s : State) (p : Port) : Bool :=
  (s.reg 0x3400 4).testBit p.toNat && decide (2 ≤ axisSize s (portAxis p)) && !(s.port p).supplyCut && s.ticking &&
    s.power.state != .standby && s.power.state != .off

/-- Moves every port between DISABLED and DETECT as its conditions say. -/
def settlePorts (s : State) : State :=
  ((List.range 8).map fun n => BitVec.ofNat 3 n).foldl (fun s p =>
    if mayTrain s p then
      (if (s.port p).st = .disabled then s.setPort p ((s.port p).cleared .detect 0) else s)
    else if (s.port p).st = .disabled then s else disablePort s p) s

/-- The identity checks of R423 on a port whose neighbour has sent IDENT: the first reason that fails, 7 while the module's own coordinates are unset, or 0. -/
def identReason (s : State) (p : Port) : Nat :=
  let n := (s.port p).neighbour.toNat
  let far := bits n 128 8
  if (List.range 4).any fun a => coord s a == 0xFF then 7
  else if n % 2 ^ 64 = Config.moduleId.toNat then 1
  else if far / 2 != portAxis p then 2
  else if far % 2 == p.toNat % 2 then 3
  else if (List.range 4).any fun a => bits n (96 + 8 * a) 8 != axisSize s a then 4
  else if (List.range 4).any fun a => bits n (64 + 8 * a) 8 != neighbourCoord s p a then 5
  else 0

/-- Runs the checks: the port becomes ACTIVE with LINK_UP, or is HELD with its reason and, but for IDENT_HOLD, MISCABLED and its black-box record (R423, R424). -/
def runChecks (s : State) (p : Port) : State :=
  let r := identReason s p
  let x := s.port p
  if r = 0 then
    let s := s.setPort p { x with st := .active, reason := 0, awaitEpoch := !s.jobs.isEmpty }
    postAll s 0x0100 (torusDetail s p 0)
  else
    let new := x.st != .held || x.reason != BitVec.ofNat 4 r
    let s := s.setPort p { x with st := .held, reason := BitVec.ofNat 4 r }
    if r = 7 || !new then s
    else
      let d := torusDetail s p 0
      postAll (bbWrite s 0x1102 0x0A p.toNat d) 0x0102 d

/-- Re-runs the checks on every HELD port, and sends IDENT and RECHECK so that the far end re-runs its own on the new fields (R424). -/
def recheckPorts (s : State) : State :=
  ((List.range 8).map fun n => BitVec.ofNat 3 n).foldl (fun s p =>
    if (s.port p).st = .held then sendMgmt (sendMgmt (runChecks s p) p (identMsg s p)) p (mgmtMsg 7 []) else s) s

/-- A correctable event of the running minute: class and instance of its source, its location (R506). -/
def noteCe (s : State) (cls inst n : Nat) (loc : Nat) : State :=
  if n = 0 then s
  else
    let k := ctrKey cls inst 0
    let (m, l) := tget (0, BitVec.ofNat 64 loc) s.dict.ce k
    { s with dict := { s.dict with ce := tput k (m + n, l) s.dict.ce } }

end Sys2Proof.Machine
end

