-- ==== Sys2Proof/Machine/Memory.lean ====
section
/-! DEFINITION. The memory system's own commands (10): invalidations, answers to host page requests, managed pages and their moves, the scrubber, the minute's summary of correctable errors, and memory-row repair (19). -/

namespace Sys2Proof.Machine

/-! ### Invalidations (R282, R284, R311) -/

/-- Starts an invalidation, or lets it wait for the one in progress. -/
def startInval (s : State) (f : Func) (scope : Nat) (va : Nat) : State :=
  let r := (f, BitVec.ofNat 8 scope, BitVec.ofNat 64 va)
  if s.msys.inval.isNone then { s with msys := { s.msys with inval := some r } }
  else { s with msys := { s.msys with invalQ := s.msys.invalQ ++ [r] } }

/-- The function's jobs read its root again (R282). -/
def rereadRoots (s : State) (f : Nat) : State :=
  { s with jobs := s.jobs.map fun e => if e.2.func.toNat = f && e.2.root.isSome then (e.1, { e.2 with root := some (s.func f).root }) else e }

/-- A cached translation lies in the range that an invalidation names: a page of 64 KiB, 2 MiB or 1 GiB, or the whole address space of the function (R311). -/
def CachedXl.within (e : CachedXl) (f scope va : Nat) : Bool :=
  let n := match scope with
    | 0 => 16
    | 1 => 21
    | _ => 30
  e.func == f && (decide (3 ≤ scope) || 65536 * e.page / 2 ^ n == va / 2 ^ n)

/-- An outstanding write of a function lies in the range that an invalidation names (R284). -/
def writesRange (s : State) (f scope va : Nat) : Bool :=
  let n := match scope with
    | 0 => 16
    | 1 => 21
    | _ => 30
  (outstandingWrites s f).any fun p =>
    decide (0 < p.len) && (decide (3 ≤ scope) || (decide (p.start / 2 ^ n ≤ va / 2 ^ n) && decide (va / 2 ^ n ≤ (p.start + p.len - 1) / 2 ^ n)))

/-- INVALIDATION_COMPLETE (R284, R309): once every write through an old translation has its response, the invalidation in progress completes and is counted, no cached translation of its range remains, nor any answer of the host to the function, and the next one that waited starts. -/
def execInvalidationComplete (s : State) : Out :=
  match s.msys.inval with
  | none => .next s
  | some (f, scope, va) =>
    if writesRange s f.toNat scope.toNat va.toNat then .next s else
    let x := s.func f.toNat
    let s := rereadRoots (s.setFunc f.toNat { x with ats := x.ats.filter fun e => e.2 == .requested }) f.toNat
    .next { s with msys := { s.msys with
      xlates := s.msys.xlates.filter fun e => !e.within f.toNat scope.toNat va.toNat
      inval := s.msys.invalQ.head?, invalQ := s.msys.invalQ.tail, invalDone := s.msys.invalDone + 1 } }

/-! ### Host pages (R283, R465) -/

/-- Roots that a function's accesses may use now: its own and those that its jobs have read. -/
def rootsOf (s : State) (f : Nat) : List Nat :=
  (s.func f).root.toNat :: (s.jobs.filter fun e => e.2.func.toNat == f).filterMap fun e => e.2.root.map (·.toNat)

/-- The host page that a virtual address of a function names, under the first root that leads to one whose request is outstanding. -/
def outstanding (s : State) (f va : Nat) : Option Nat :=
  (rootsOf s f).findSome? fun r =>
    if !r.testBit 0 then none
    else match walkFrom s f va false walkLevels (bits r 16 28 * 65536) with
      | .ok (tgt, a, _, _) =>
        if tgt = 0 then none
        else if tfind (s.func f).ats (atsKey tgt a) = some .requested then some (atsKey tgt a) else none
      | .error _ => none

/-- Writes the event records that waited for a host page, as far as their pages are answered for (R374). -/
def retryEvents (s : State) (f : Nat) : State :=
  let x := s.func f
  x.evWait.foldl (fun s e =>
    match vWrite s f 0 e.1 e.2 with
    | .ok s1 => raiseMsix s1 f 0
    | .need k =>
      let s := requestPage s f k
      let y := s.func f
      s.setFunc f { y with evWait := y.evWait ++ [e] }
    | .fault r _ => forgetRefusals (bump s 0x0B f 3 1) f r
    | _ => bump s 0x0B f 3 1) (s.setFunc f { x with evWait := [] })

/-- The host's answer to an outstanding page request of a function. -/
def answerPage (s : State) (f va : Nat) (a : AtsState) : State :=
  match outstanding s f va with
  | none => s
  | some k =>
    let x := s.func f
    retryEvents (s.setFunc f { x with ats := tput k a x.ats }) f

/-- ATS_INVALIDATION_REQUEST (R465): translations of the named host addresses leave the caches, and the completion is sent once every write through them has its response. Of more than 32 outstanding requests the module takes none (log entry 110). -/
def execAtsInvalidationRequest (f : Func) (va len : BitVec 64) (s : State) : Out :=
  let x := s.func f.toNat
  let port := f.toNat / 64
  if 32 ≤ x.atsInval.length then .next s
  else .next (settleAts (s.setFunc f.toNat { x with
    ats := x.ats.filter fun e =>
      !(e.1 / 2 ^ 64 == port && e.2 != .requested &&
        decide (va.toNat < (e.1 % 2 ^ 64 + 1) * 65536) && decide (e.1 % 2 ^ 64 * 65536 < va.toNat + len.toNat))
    atsInval := x.atsInval ++ [(va, len)] }) f.toNat)

/-! ### Managed pages (R299 to R302) -/

/-- Entries of a table of 2^nb entries at t whose bytes are not all zero: entry addresses and values. -/
def liveEntries (s : State) (t nb : Nat) : List (Nat × Nat) :=
  let cells := s.mem.filter fun c => decide (t ≤ c.1) && decide (c.1 < t + 8 * 2 ^ nb)
  ((cells.map fun c => (c.1 - t) / 8).dedup).map fun i => (t + 8 * i, leNat (physRead s (t + 8 * i) 8))

/-- The tables that the live non-leaf entries of a table name. -/
def subTables (s : State) (t nb : Nat) : List Nat :=
  (liveEntries s t nb).filterMap fun e => if e.2.testBit 0 && !e.2.testBit 1 then some (e.2 / 256 * 256) else none

/-- Leaf entries of managed pages: entry address and frame address. -/
def managedLeaves (s : State) : List (Nat × Nat) :=
  let roots := ((List.range 128).filterMap fun f =>
    let r := (s.func f).root.toNat
    if r.testBit 0 then some (bits r 16 28 * 65536) else none).dedup
  let l2 := ((roots.flatMap fun t => subTables s t 13).dedup.flatMap fun t => subTables s t 13).dedup
  (l2.flatMap fun t => (liveEntries s t 9).filterMap fun e =>
    if e.2.testBit 0 && e.2.testBit 1 && e.2.testBit 4 && bits e.2 6 2 == 0 then some (e.1, e.2 / 256 * 256) else none).dedup

/-- Frames of 2 MiB that POOL_RANGES gives, those that lie in HBM3E or LPDDR5X (R299). -/
def poolFrames (s : State) : List Nat :=
  let v := s.reg 0x4040 6
  (((List.range 64).flatMap fun i =>
    rangeFrom (bits v (128 * i) 64 / 2 ^ 21) (bits v (128 * i + 64) 64 / 2 ^ 21)).filter fun f => inDev (f * 2 ^ 21) (2 ^ 21)).dedup

/-- The pool as MANAGED_EN and POOL_RANGES give it: while the first is 1, the frames of the pool to which no managed leaf points are free; while it is 0 the module has no pool and no move is left (R299). -/
def takePool (s : State) : State :=
  let used := (managedLeaves s).map fun e => e.2 / 2 ^ 21
  if s.reg 0x4040 1 = 1 then { s with msys := { s.msys with freeFrames := (poolFrames s).filter fun f => !used.contains f } }
  else { s with msys := { s.msys with freeFrames := [], moves := [] } }

/-- Hot count of a page. -/
def hotOf (s : State) (leaf : Nat) : Nat := (tget 0 s.msys.hot leaf).toNat

/-- Inserts a page in order of descending hot count. -/
def insertHot (s : State) (e : Nat × Nat) : List (Nat × Nat) → List (Nat × Nat)
  | [] => [e]
  | a :: r => if hotOf s a.1 < hotOf s e.1 then e :: a :: r else a :: insertHot s e r

/-- HBM3E frames beside a die. -/
def besideDie (d fr : Nat) : Bool := fr * 2 ^ 21 / 0x6000000000 == d

/-- One die's choices over the LPDDR5X pages in descending order of hot count: pages not moved yet, its free frames, its own pages, MiB left. -/
def chooseMoves (s : State) (d : Nat) : List (Nat × Nat) → List Nat → List (Nat × Nat) → Nat → List PageMv
  | [], _, _, _ => []
  | (leaf, fr) :: rest, free, mine, left =>
    match free with
    | n :: more =>
      if left < 2 then []
      else ⟨leaf, fr, n * 2 ^ 21, 0, none⟩ :: chooseMoves s d rest more mine (left - 2)
    | [] =>
      match mine.foldl (fun b e => match b with
          | none => some e
          | some c => if hotOf s e.1 < hotOf s c.1 then some e else some c) none with
      | none => []
      | some (cl, cf) =>
        if hotOf s leaf < 2 * hotOf s cl then []
        else if left < 4 then []
        else ⟨leaf, fr, cf, 0, some cl⟩ :: chooseMoves s d rest [] (mine.filter fun e => e.1 != cl) (left - 4)

/-- The migrations that the four dies choose at an epoch boundary (R301); no page moves twice. -/
def decideMoves (s : State) : List PageMv :=
  if s.reg 0x4040 1 = 0 then []
  else
    let all := managedLeaves s
    let lp := (all.filter fun e => decide (lpBase ≤ e.2)).foldl (fun l e => insertHot s e l) []
    (List.range 4).foldl (fun ms d =>
      let todo := lp.filter fun e => !(ms.any fun m => m.leaf == e.1)
      ms ++ chooseMoves s d todo (s.msys.freeFrames.filter (besideDie d))
        (all.filter fun e => decide (e.2 < hbmEnd) && besideDie d (e.2 / 2 ^ 21)) (s.reg 0x4040 2)) []

/-- Every hot count shifts right by HOT_DECAY (R300). -/
def decayHot (s : State) : Tab (BitVec 16) := s.msys.hot.map fun e => (e.1, e.2.ushiftRight (s.reg 0x4040 5))

/-- Copies the 2 MiB of one frame over another. -/
def copyFrame (old new : Nat) (m : List Host.Cell) : List Host.Cell :=
  (m.filter fun c => decide (old ≤ c.1) && decide (c.1 < old + 2 ^ 21)).foldl (fun m c => memSet (c.1 - old + new) c.2 m)
    (m.filter fun c => decide (c.1 < new) || decide (new + 2 ^ 21 ≤ c.1))

/-- Moves the poison of one frame over another. -/
def copyPoison (old new : Nat) (p : List Nat) : List Nat :=
  (p.filter fun g => decide (32 * g < new) || decide (new + 2 ^ 21 ≤ 32 * g)) ++
    (p.filter fun g => decide (old ≤ 32 * g) && decide (32 * g < old + 2 ^ 21)).map fun g => g - old / 32 + new / 32

/-- Points a leaf entry at another frame; its bits [20:8] of ADDR are zero already. -/
def pointLeaf (s : State) (leaf fr : Nat) : State :=
  physWrite s leaf (leBytes 8 (fr + leNat (physRead s leaf 8) % 256))

/-- Some die DMA engine of a die has nothing to do (R302). -/
def idleDe (s : State) (d : Nat) : Bool :=
  (List.range 8).any fun n => s.queues.all fun e =>
    exeOf (BitVec.ofNat 15 e.1) e.2 != .de d n || (e.2.waiting == 0 && e.2.started.isEmpty)

/-- Moves the poison of a page, and of the page that it changes places with. -/
def movePoison (m : PageMv) (p : List Nat) : List Nat :=
  let q := copyPoison m.old m.new p
  match m.other with
  | some _ => (q.filter fun g => decide (32 * g < m.old) || decide (m.old + 2 ^ 21 ≤ 32 * g)) ++
      (p.filter fun g => decide (m.new ≤ 32 * g) && decide (32 * g < m.new + 2 ^ 21)).map fun g => g - m.new / 32 + m.old / 32
  | none => q

/-- Carries out one move: the page's bytes and its poison, known poison with it, then the leaf entry, whose translations leave the caches (R302). -/
def doMove (s : State) (m : PageMv) : State :=
  let mem := copyFrame m.old m.new s.mem
  let back := match m.other with
    | some _ => (s.mem.filter fun c => decide (m.new ≤ c.1) && decide (c.1 < m.new + 2 ^ 21)).foldl
        (fun k c => memSet (c.1 - m.new + m.old) c.2 k) (mem.filter fun c => decide (c.1 < m.old) || decide (m.old + 2 ^ 21 ≤ c.1))
    | none => mem
  let s := pointLeaf { s with mem := back, poison := movePoison m s.poison } m.leaf m.new
  let s := match m.other with
    | some c => pointLeaf s c m.old
    | none => s
  let free := match m.other with
    | some _ => s.msys.freeFrames
    | none => (m.old / 2 ^ 21) :: s.msys.freeFrames.filter (· != m.new / 2 ^ 21)
  { s with msys := { s.msys with
    freeFrames := free
    poisonFound := movePoison m s.msys.poisonFound
    xlates := s.msys.xlates.filter fun e => e.leaf != m.leaf && some e.leaf != m.other
    cache := dropLines (dropLines s.msys.cache m.new (2 ^ 21)) m.old (2 ^ 21) } }

/-- PAGE_MOVE (R302): the die's first chosen move is carried out and counted, or, where the page was written meanwhile, tried again and after the third attempt abandoned. -/
def execPageMove (d : Die) (written : Bool) (s : State) : Out :=
  match s.msys.moves.find? fun m => besideDie d.toNat (m.new / 2 ^ 21) with
  | none => .next s
  | some m =>
    if !idleDe s d.toNat then .next s
    else
      let rest := s.msys.moves.erase m
      if written then
        if m.attempts + 1 ≥ 3 then .next (bump { s with msys := { s.msys with moves := rest } } 6 d.toNat 5 1)
        else .next { s with msys := { s.msys with moves := { m with attempts := m.attempts + 1 } :: rest } }
      else
        let s := bump (doMove { s with msys := { s.msys with moves := rest } } m) 6 d.toNat 3 1
        .next (if m.other.isSome then bump s 6 d.toNat 4 1 else s)

/-! ### Memory rows (R526) -/

/-- A row's repair starts, or waits for the one in progress. -/
def offerRow (s : State) (a : Nat) : State :=
  let r := BitVec.ofNat 44 a
  if s.msys.rowRepair = some r || s.msys.rowQueue.contains r then s
  else if s.msys.rowRepair.isNone then { s with msys := { s.msys with rowRepair := some r } }
  else { s with msys := { s.msys with rowQueue := s.msys.rowQueue ++ [r] } }

/-- MEM_REPAIR_DONE (R526): the row is written back and its bank released, with MEM_ROW_REPAIRED; a bank without a repair resource posts MEM_REPAIR_EXHAUSTED. During a live handover the repair stays pending, for the new instance (R527). -/
def execMemRepairDone (resource : Bool) (s : State) : Out :=
  match s.msys.rowRepair with
  | none => .next s
  | some a =>
    if s.trust.handover.isSome then .next s else
    let s := { s with msys := { s.msys with rowRepair := s.msys.rowQueue.head?, rowQueue := s.msys.rowQueue.tail } }
    .next (postAll s (if resource then 0x0204 else 0x0205) (leBytes 8 a.toNat))

/-! ### The scrubber (R306, R307) -/

/-- Ticks of 24 hours. -/
def dayTicks : Nat := 24 * 3600 * 100000000

/-- One finding of the scrubber. -/
def scrubOne (s : State) (e : MemError) : State :=
  let a := e.addr.toNat
  if !inDev a 1 then s
  else if e.fixable then
    let s := noteCe (bump s 7 (levelOf a) 1 1) 7 (levelOf a) 1 a
    let row := a / 4096
    let l := s.time.tick :: (tget [] s.msys.corrections row).filter fun t => decide ((s.time.tick - t).toNat < dayTicks)
    if l.length ≥ s.reg 0x4050 2 then
      let s := { s with msys := { s.msys with corrections := tdel row s.msys.corrections } }
      if s.reg 0x6840 5 = 1 then offerRow s (4096 * row) else s
    else { s with msys := { s.msys with corrections := tput row l s.msys.corrections } }
  else
    let g := a / 32
    let s := poisonGranule s g
    if s.msys.poisonFound.contains g then s
    else
      let ue := ueBytes s (32 * g) (levelOf a)
      bbWrite { s with msys := { s.msys with poisonFound := g :: s.msys.poisonFound, lastUe := ue } } 0x0003 7 (levelOf a) ue

/-- SCRUB_PATROL (R307): what one patrol finds; SCRUB_HOURS 0 disables it. -/
def execScrubPatrol (found : List MemError) (s : State) : Out :=
  .next (if s.reg 0x4050 1 = 0 then s else found.foldl scrubOne s)

/-- CE_SUMMARY_MINUTE (R506): one record for each source that saw correctable events. -/
def execCeSummaryMinute (s : State) : Out :=
  let l := s.dict.ce
  .next (l.foldl (fun s e =>
    let cls := e.1 / 2 ^ 48
    let inst := e.1 / 2 ^ 16 % 2 ^ 32
    bbWrite s 0x0002 cls inst (BitVec.ofNat 8 inst :: leBytes 8 e.2.2.toNat) e.2.1 true) { s with dict := { s.dict with ce := [] } })

end Sys2Proof.Machine
end

