-- ==== Sys2Proof/Machine/Time.lean ====
section
/-! DEFINITION. Fabric time (02): beats and epochs, TIME_REF and TIME_SYNC, deadline markers, and beat stretch. -/

namespace Sys2Proof.Machine

/-- Ticks of an epoch (R23). -/
def epochTicks : Nat := 16777216

/-! ### Beats and epochs (R24, R34, R35, R49, R50) -/

/-- The tick at which the present beat began. -/
def beatStart (s : State) : BitVec 64 := s.time.tick >>> 8 <<< 8

/-- BEAT_BOUNDARY (R24, R44, R49): senders whose slots a retrain took are late; the tick counter reaches the next beat; a beat that was latched is a stretch beat, which the stretch offset takes up. The idle cycles of the beat that ends count as THROTTLE, and its other cycles as running ones (R534, R547); the idle ticks and the envelope chosen for the new beat apply (R532, R534), and a module in FAULT stops issuing (R34). -/
def execBeatBoundary (s : State) : Out :=
  if !s.ticking then .next s
  else
    let s := lateSenders s
    let b := s.beat + 1
    let next := beatStart s + 256
    let str := s.time.strLatched.contains b
    let t := s.time
    let run := if str then t.strRun + 1 else 0
    let s := { s with
      time := { t with
        tick := next
        offset := if str then t.offset + 1 else t.offset
        inStretch := str
        strRun := run
        strLatched := t.strLatched.filter (· != b)
        strSeen := t.strSeen.filter fun x => decide ((b - x).toNat ≤ 13) || decide ((x - b).toNat ≤ 2)
        strLate := t.strLate.filter fun x => decide ((b - x).toNat ≤ 13) || decide ((x - b).toNat ≤ 2)
        stretchTotal := if str then t.stretchTotal + 1 else t.stretchTotal
        stopIssue := t.st == .fault }
      power := { s.power with
        sPrev := s.power.s
        s := s.power.sNext
        runTicks := s.power.runTicks + (256 - s.power.s) * arithRatio s
        throttled := s.power.throttled + s.power.s * arithRatio s
        envelope := s.power.envelopeNext.getD s.power.envelope
        envelopeNext := none
        padPower := s.power.envelopeNext.getD s.power.padPower
        watts := if s.power.envelopeNext.isSome then [] else s.power.watts
        restart := if s.power.envelopeNext.isSome then 2 else s.power.restart
        governed := false } }
    let s := if str then bump s 5 0 3 1 else s
    .next (if str && run == 8 then fabricFault s 0x0014 [] else s)

/-- EPOCH_BOUNDARY (R35, R300, R301, R427): at the start of an epoch the ports in service send their OFFSET, ports that waited for the epoch take up scheduled traffic, migrations are chosen, hot counts decay, and the epoch's power figures are drawn up (R547). -/
def execEpochBoundary (s : State) : Out :=
  if !s.ticking || s.beat.toNat % 65536 != 0 then .next s
  else
    let s := (activePorts s).foldl (fun s p => sendMgmt s p (offsetMsg s)) s
    let s := (activePorts s).foldl (fun s p => let x := s.port p; s.setPort p { x with awaitEpoch := x.awaitEpoch && !x.offsetAgreed }) s
    .next { s with
      msys := { s.msys with moves := decideMoves s, hot := decayHot s }
      power := { s.power with
        windowPosted := false
        meanW := BitVec.ofNat 16 (s.power.epochW / 65536)
        epochW := 0
        mhz := BitVec.ofNat 16 (s.power.runTicks * 100 / epochTicks)
        runTicks := 0 } }

/-! ### TIME_REF (R32) -/

/-- The time unit at lock: LOCKED, every counter from 0, no pair begun (R32). -/
def lockTime (s : State) : State :=
  { s with time := { s.time with tick := 0, offset := 0, st := .locked, lastPulse := none, pairEpoch := none, refPresent := true, strSeen := [], strLate := [],
                                 strLatched := [], strRun := 0, inStretch := false, stopIssue := false, missedAt := none } }

/-- REF_PLL_LOCK (R32): from UNLOCKED to LOCKED; the torus ports may train (R421). -/
def execRefPllLock (s : State) : Out :=
  if s.time.st = .unlocked ∧ s.power.state ≠ .off ∧ !s.power.resetHeld then .next (settlePorts (lockTime s)) else .next s

/-- TIME_REF_LOSS (R32): from LOCKED or ALIGNED to HOLDOVER. -/
def execTimeRefLoss (s : State) : Out :=
  let t := { s.time with refPresent := false }
  if t.st = .locked ∨ t.st = .aligned then .next { s with time := { t with st := .holdover, heldFrom := t.st, holdSeen := true } }
  else .next { s with time := t }

/-- TIME_REF_RETURN (R32): from HOLDOVER to the state it came from, with REF_GLITCH. -/
def execTimeRefReturn (s : State) : Out :=
  let t := { s.time with refPresent := true }
  if t.st = .holdover then .next (bump { s with time := { t with st := t.heldFrom } } 5 0 8 1)
  else .next { s with time := t }

/-- HOLDOVER_EXPIRY (R32, R34): from HOLDOVER to FAULT, with the fabric fault TIME_LOST; engines stop at the next beat boundary. -/
def execHoldoverExpiry (s : State) : Out :=
  if s.time.st = .holdover then .next (fabricFault { s with time := { s.time with st := .fault } } 0x0011 [])
  else .next s

/-- TIME_FAULT_RECOVERY (R32): from FAULT to LOCKED once TIME_REF is present and no job runs. -/
def execTimeFaultRecovery (s : State) : Out :=
  if s.time.st = .fault && s.time.refPresent && s.jobs.isEmpty then .next (settlePorts (lockTime s)) else .next s

/-! ### TIME_SYNC (R28 to R32) -/

/-- The number of the epoch that a tick lies in: bits [55:24] of the tick (R24). -/
def epochOf (t : BitVec 64) : BitVec 32 := t.extractLsb' 24 32
/-- The first tick of an epoch. -/
def epochStart (n : BitVec 32) : BitVec 64 := n.setWidth 64 <<< 24

/-- Moves the counters so that the tick at which the pulse rose begins epoch n; the stretch offset is kept (R28, R31). What becomes of the pending stretch targets, which name wall beats of the old count, the manual does not say: the model drops them (DESIGN CHOICE, log entry 90). -/
def moveTime (s : State) (rise : BitVec 64) (n : BitVec 32) : State :=
  let d := epochStart n - rise
  { s with time := { s.time with
      tick := s.time.tick + d
      lastPulse := s.time.lastPulse.map (· + d)
      pulseSeen := s.time.pulseSeen.map (· + d)
      strSeen := [], strLate := [], strLatched := [] } }

/-- The epoch boundary of the module's own count nearest to a tick. -/
def nearestEpoch (t : BitVec 64) : BitVec 64 := (t + 0x800000) >>> 24 <<< 24

/-- A missing pulse (R28, R53). -/
def countMissing (s : State) : State :=
  bump { s with time := { s.time with missingRun := if s.time.missingRun = 255 then 255 else s.time.missingRun + 1 } } 5 0 5 1

/-- A sync slip under a running job (R28, R31). -/
def syncSlip (s : State) : State :=
  fabricFault (bump { s with time := { s.time with slip := true } } 5 0 7 1) 0x0010 []

/-- A well-formed pulse by the state of the time unit (R28, R31, R32). In LOCKED a pulse that begins a pair takes the number written before it, and the next pulse, with none written since, advances it by one. -/
def goodPulse (s : State) (rise : BitVec 64) : State :=
  if s.time.st = .unlocked ∨ s.time.st = .fault then s else
  let w := if s.time.epochWritten then some s.time.nextEpoch else none
  let last := s.time.lastPulse
  let num := match w with
    | some e => some e
    | none => s.time.pairEpoch.map (· + 1)
  let s := { s with time := { s.time with epochWritten := false, missingRun := 0, lastPulse := some rise } }
  match s.time.st with
  | .locked =>
    if last = some (rise - 0x1000000) then
      let s := moveTime s rise (num.getD (if s.time.alignedOnce then epochOf rise + 1 else 0))
      { s with time := { s.time with st := .aligned, alignedOnce := true, pairEpoch := none } }
    else { s with time := { s.time with pairEpoch := num } }
  | .unlocked | .fault => s
  | .aligned | .holdover =>
    let job := !s.jobs.isEmpty
    if rise.extractLsb' 0 24 = 0 then
      match w with
      | some e => if e = epochOf rise then s else if job then syncSlip s else bump (moveTime s rise e) 5 0 6 1
      | none => s
    else if job then syncSlip s
    else bump (moveTime s rise (w.getD (epochOf rise + 1))) 5 0 6 1

/-- A malformed pulse (R30): it marks nothing; where a pulse was expected, its epoch counts as missing. -/
def badPulse (s : State) (rise : BitVec 64) : State :=
  match s.time.st with
  | .locked => if s.time.lastPulse.isSome then countMissing { s with time := { s.time with lastPulse := none } } else s
  | .aligned | .holdover =>
    if s.time.missedAt = some (nearestEpoch rise) then s
    else countMissing { s with time := { s.time with missedAt := some (nearestEpoch rise) } }
  | _ => s

/-- TIME_SYNC_PULSE (R28 to R32): the pulse is judged for form, in the polarity now corrected for, and then against its expected tick. `rise` is the tick of the rising edge on the wire, `high` and `low` the ticks it is high and then low. -/
def execTimeSyncPulse (rise : BitVec 64) (high low : Nat) (s : State) : Out :=
  if s.time.st = .unlocked then .next s
  else
    let s := { s with time := { s.time with pulseSeen := some rise } }
    let (h, l) := if s.time.inverted then (low, high) else (high, low)
    if 2 ≤ h ∧ h ≤ 16 then .next (goodPulse s rise)
    else if h > 16777000 ∧ 2 ≤ l ∧ l ≤ 16 ∧ s.time.st ≠ .aligned then
      .next (goodPulse { s with time := { s.time with inverted := !s.time.inverted } } rise)
    else .next (badPulse s rise)

/-- SYNC_PULSE_MISSING (R28): no well-formed pulse within one tick of the expected tick; in LOCKED the pair search ends. -/
def execSyncPulseMissing (s : State) : Out :=
  match s.time.st with
  | .locked => if s.time.lastPulse.isSome then .next (countMissing { s with time := { s.time with lastPulse := none } }) else .next s
  | .aligned | .holdover =>
    if s.time.missedAt = some (nearestEpoch s.time.tick) then .next s
    else .next (countMissing { s with time := { s.time with missedAt := some (nearestEpoch s.time.tick) } })
  | _ => .next s

/-! ### Deadline markers and stretch (R40, R45 to R47) -/

/-- Time stands at slot k of the present beat; later in the beat it stays (log entry 15). -/
def atSlot (s : State) (k : Nat) : State :=
  if s.slot ≤ k then { s with time := { s.time with tick := beatStart s + BitVec.ofNat 64 k } } else s

/-- The armed markers of the present schedule beat: queue and marker, in ascending queue number. -/
def dueMarkers (s : State) : List (Nat × Marker) :=
  s.queues.flatMap fun e => (e.2.markers.filter fun m => m.beat == s.schedBeat).map fun m => (e.1, m)

/-- The stretch record of R46: origin identity, schedule beat, queue. -/
def stretchRecord (m : Nat × Marker) : List Byte :=
  leBytes 8 Config.moduleId.toNat ++ leBytes 8 m.2.beat.toNat ++ leBytes 4 m.1

/-- DEADLINE_CHECK (R40, R45, R46): as slot 128 of a schedule beat begins, an armed marker that its queue has not reached requests a stretch of the wall beat after the next; the markers of the beat are checked once. One record names one queue: of several that missed their markers in the beat the model names the lowest (DESIGN CHOICE, log entry 91). -/
def execDeadlineCheck (s : State) : Out :=
  if !s.ticking || s.time.inStretch || decide (128 < s.slot) then .next s
  else
    let s := atSlot s 128
    match dueMarkers s with
    | [] => .next s
    | m :: _ =>
      let sb := s.schedBeat
      let s := { s with queues := s.queues.map fun e => (e.1, { e.2 with markers := e.2.markers.filter fun k => k.beat != sb }) }
      let t := s.beat + 2
      let s := bump s 5 0 2 1
      let rec20 := stretchRecord m
      let s := { s with time := { s.time with lastStretch := BitVec.ofNat 160 (leNat rec20) } }
      let s := (activePorts s).foldl (fun s p =>
        s.setPort p { s.port p with strRecs := (s.port p).strRecs ++ toFlits ⟨mkHead 4 0 0 rec20, []⟩ none }) s
      if s.time.strSeen.contains t then .next s
      else .next (sendStr { s with time := { s.time with strSeen := s.time.strSeen ++ [t] } } (t.extractLsb' 0 4) none)

/-- STRETCH_LATCH (R47): at tick 240 of a beat, the next beat becomes a stretch beat if an indication for it was seen. -/
def execStretchLatch (s : State) : Out :=
  if !s.ticking || decide (240 < s.slot) then .next s
  else
    let s := atSlot s 240
    let t := s.beat + 1
    .next (if s.time.strSeen.contains t && !s.time.strLatched.contains t then
      { s with time := { s.time with strLatched := s.time.strLatched ++ [t] } } else s)

/-- A stretch indication in a received header (R46 to R48): one that comes after its latch point is ignored but for its count and its fault, once for each target. -/
def strIndication (s : State) (p : Port) (tgt : BitVec 4) : State :=
  let c := s.beat
  let lo := c - 13
  let t := lo + BitVec.ofNat 48 ((tgt.toNat + 16 - lo.toNat % 16) % 16)
  if s.time.strSeen.contains t || s.time.strLate.contains t then s
  else
    let ahead := (t - c).toNat
    if ahead = 2 ∨ (ahead = 1 ∧ s.slot < 240) then sendStr { s with time := { s.time with strSeen := s.time.strSeen ++ [t] } } tgt (some p)
    else fabricFault (bump { s with time := { s.time with strLate := s.time.strLate ++ [t] } } 5 0 4 1) 0x0013 [BitVec.ofNat 8 p.toNat]

end Sys2Proof.Machine
end

