-- ==== Sys2Proof/Machine/Aborts.lean ====
section
/-! DEFINITION. Aborts (13 R378 to R383): what begins and what ends the abort of a job or of a function, the abandon limit, and the module states that follow the last job (20 R539). -/

namespace Sys2Proof.Machine

/-! ### Module states (R539) -/

/-- STATE as 0x2010:01 reports it (R547). -/
def ModState.code : ModState → Nat
  | .off => 0 | .standby => 1 | .managed => 2 | .linked => 3 | .ready => 4 | .running => 5 | .draining => 6 | .faulted => 7

/-- The module enters a state; STATE_CHANGED is posted at each change. -/
def enterState (s : State) (n : ModState) : State :=
  let o := s.power.state
  if o = n then s
  else postAll { s with power := { s.power with state := n } } 0x0303 [BitVec.ofNat 8 o.code, BitVec.ofNat 8 n.code]

/-- The last job has ended: READY, and a drain request returns to 0. -/
def jobsEnded (s : State) : State :=
  if s.jobs.isEmpty && (s.power.state == .running || s.power.state == .draining) then
    enterState { s with power := { s.power with drain := false } } .ready
  else s

/-! ### The load in progress (R400, R401) -/

/-- Where and why a load stops (R400). -/
structure LoadFail where
  status : Nat
  stage : Nat
  sect : Nat := 0xFFFF
  item : Nat := 0
  field : Nat := 0xFF
  deriving DecidableEq, Repr

/-- The 32 bytes of LOAD_STATUS (R400). -/
def loadStatusBytes (e : LoadFail) (busy above : Bool) (done job : Nat) : List Byte :=
  leBytes 2 e.status ++ leBytes 1 e.stage ++ leBytes 1 ((if busy then 1 else 0) + if above then 2 else 0) ++ leBytes 2 e.sect ++ [0, 0] ++ leBytes 4 e.item ++
    leBytes 1 e.field ++ [0, 0, 0] ++ leBytes 8 done ++ leBytes 4 job ++ [0, 0, 0, 0]

/-- JOB of the load. -/
def LoadWait.job (w : LoadWait) : Nat := byteField w.data 0 4

/-- An abort stops the load in progress, which has undone itself and reports ABORTED (R401). -/
def stopLoad (s : State) (p : LoadWait → Bool) : State :=
  match s.load with
  | none => s
  | some w =>
    if p w then
      { s with load := none }.setPath w.path { s.path w.path with
        loadStatus := loadStatusBytes { status := stAborted, stage := w.stage.toNat } false false 0 w.job }
    else s

/-! ### Beginning (R380 Stop, Release, Quiesce) -/

/-- The MASK_COMMIT of a queue that is in COMMIT_WAIT (R207). -/
def commitWaits (s : State) (q : Nat) : Option Cmd :=
  s.masks.findSome? fun e => match e.2.commit with
    | some (k, c) => if k.toNat = q then some c else none
    | none => none

/-- A queue enters ABORTED: an unsatisfied or satisfied WAIT, a MASK_COMMIT in COMMIT_WAIT, a command that waits for a host page and every started command will complete with ABORTED (R380, R383). -/
def abortQueue (commit : Option Cmd) (x : Queue) : Queue :=
  if x.st = .free then x
  else
    let x := match x.hold, commit with
      | .wait i c _ _ _ _, _ => endBlocked x i c stAborted 0 0
      | .maskRef _, some c => endBlocked x x.next c stAborted 0 0
      | .page c _, _ => endBlocked x x.next c stAborted 0 0
      | _, _ => { x with hold := .none }
    { x with
      st := .aborted
      markers := []
      unarmed := []
      started := x.started.map fun w =>
        { w with done := true, status := BitVec.ofNat 16 stAborted, opspec := 0, dkind := 0, reason := 0, detail := 0, sem := none, ue := none } }

/-- Queues that satisfy a test are aborted, and their chain contexts stop. -/
def abortQueues (s : State) (p : Nat → Queue → Bool) : State :=
  let hit := (s.queues.filter fun e => e.2.st != .free && p e.1 e.2).map (·.1)
  { s with
    queues := s.queues.map fun e => if e.2.st != .free && p e.1 e.2 then (e.1, abortQueue (commitWaits s e.1) e.2) else e
    ctxs := s.ctxs.map fun e => if hit.contains e.1 then (e.1, {}) else e
    masks := s.masks.map fun e => match e.2.commit with
      | some (k, _) => if hit.contains k.toNat then (e.1, { e.2 with st := .idle, commit := none }) else e
      | none => e }

/-- A reduction job identifier enters DRAINING (R454). -/
def drainRed (s : State) (r : Nat) : State :=
  match tfind s.redJobs r with
  | some (.loaded, e) => { s with redJobs := tput r (.draining, e) s.redJobs }
  | _ => s

/-- The abort of a loaded job begins; `except` is the port on which an indication arrived (R380, R381). -/
def beginJobAbort (s : State) (j : Nat) (except : Option Port) : State :=
  match s.job? j with
  | none => s
  | some x =>
    if x.aborting then s
    else
      let s := s.setJob j { x with aborting := true, verdict := none, reshard := none }
      let s := abortQueues s fun _ q => q.job.toNat == j
      drainRed (sendAbt s x.redJob except) x.redJob.toNat

/-- An abort is entered among those under way. -/
def enterAbort (s : State) (ofF : Bool) (t : Nat) : State :=
  let a : Abort := ⟨ofF, BitVec.ofNat 32 t, false⟩
  if s.aborts.any fun b => b.ofFunction == ofF && b.target == a.target then s
  else { s with aborts := s.aborts ++ [a], abortStatus := BitVec.ofNat 32 ((if ofF then 2 ^ 30 else 0) + s.abortStatus.toNat % 2 ^ 24) }

/-- JOB_ABORT of a job, from here or from a peer (R378). -/
def abortJob (s : State) (j : Nat) (except : Option Port := none) : State := enterAbort (beginJobAbort s j except) false j

/-- FUNCTION_ABORT (R379): the function's load in progress, its jobs and submission queues, and its semaphores. -/
def abortFunction (s : State) (f : Nat) : State :=
  let s := stopLoad s fun w => w.func.toNat == f
  let s := (s.jobs.filter fun e => e.2.func.toNat == f).foldl (fun s e => beginJobAbort s e.1 none) s
  let s := abortQueues s fun k q => decide (4096 ≤ k) && q.func.toNat == f && q.st != .aborted
  enterAbort (orphanSems s f) true f

/-! ### Abandoning (R380) -/

/-- Requests to a function's host memory that are outstanding are given up; event records that waited for them are lost. -/
def abandonHost (s : State) (f : Nat) (events : Bool) : State :=
  let x := s.func f
  let n := if events then x.evWait.length else 0
  bump (s.setFunc f { x with ats := x.ats.filter fun e => e.2 != .requested, evWait := if events then [] else x.evWait }) 0x0B f 3 n

/-- ABORT_ABANDON_DEADLINE (R380). -/
def execAbortAbandonDeadline (ofFunction : Bool) (target : BitVec 32) (s : State) : Out :=
  if s.aborts.any fun a => a.ofFunction == ofFunction && a.target == target then
    let s := { s with aborts := s.aborts.map fun a => if a.ofFunction = ofFunction ∧ a.target = target then { a with abandoned := true } else a }
    .next (if ofFunction then abandonHost s target.toNat true
      else match s.job? target.toNat with
        | some j => abandonHost s j.func.toNat false
        | none => s)
  else .next s

/-! ### Release of resources (R380, R382) -/

/-- The bytes that an aborted command was writing are open (R382, log entry 12). -/
def blurSpan (f job : Nat) (s : State) (sp : Span) : State :=
  let (b, s') := drawBytes s sp.len
  if sp.near then physWrite s' sp.start b
  else match vWrite s' f job sp.start b with
    | .ok s2 => s2
    | _ => s'

/-- The status block (R345), its STATUS to be filled at completion. -/
def statBlock (op residue : Nat) (next : Option (Nat × Nat × Nat)) (first count : Nat) : List Byte :=
  let cmp := op == 0x52
  [0, 0] ++ leBytes 1 op ++ [BitVec.ofNat 8 ((if next.isSome then 1 else 0) + if cmp && count != 0 then 2 else 0), 0, 0, 0, 0] ++ leBytes 8 residue ++
    (match next with
      | some (i, a, b) => leBytes 8 i ++ leBytes 8 a ++ leBytes 8 b
      | none => List.replicate 8 0xFF ++ List.replicate 16 0) ++
    (if cmp then (if count = 0 then List.replicate 8 0xFF else leBytes 8 first) else List.replicate 8 0) ++
    leBytes 8 (if cmp then count else 0) ++ List.replicate 8 0

/-- What a DMA command reports that stops at a burst: its opcode-specific word and its status block (R344, R345). -/
def stoppedAt (w : Started) (b : Burst) : Started :=
  { w with
    opspec := BitVec.ofNat 32 (min (if w.op = 0x52 then b.bad else b.residue) (2 ^ 32 - 1))
    stat := w.stat.map fun t => (t.1, t.2.1, statBlock w.op.toNat b.residue b.next b.first b.bad) }

/-- An aborted DMA command stops before one of its bursts, or at its end; which is open (R346, log entry 12). -/
def abortedDma (s : State) (w : Started) : State × Started :=
  let (x, s') := drawWord s
  match w.bursts[x.toNat % max 1 w.bursts.length]? with
  | some b => (s', stoppedAt w b)
  | none => (s, w)

/-- One started command of an aborted queue gets its ABORTED record. -/
def recordAborted (s : State) (q : QNum) (w : Started) : State :=
  let x := s.queue q
  let f := x.func.toNat
  let s := w.spans.foldl (blurSpan f x.job.toNat) s
  let (s, w) := abortedDma s w
  let s := (completeStat s f x.job.toNat w).1
  match vWrite s f x.job.toNat (x.comp.toNat + 16 * (w.idx.toNat % x.n)) (recordBytes w) with
  | .ok s1 => finishCmd s1 q w none
  | _ => finishCmd s q w (some stXlate)

/-- The started commands of an aborted queue end, and its HEAD reads as its TAIL. -/
def endAborted (s : State) (q : QNum) : State :=
  let s := (s.queue q).started.foldl (fun s w => recordAborted s q w) s
  let x := s.queue q
  if x.st = .free then s else s.setQueue q { x with head := x.tail, next := x.tail, written := [], hold := .none }

/-- An array keeps nothing of an ended job: its tile gives up its reference and takes no product, and no row stays resident (log entry 20). -/
def freeTile (s : State) (a : Nat) : State :=
  let s := dropTileRef s a
  let x := s.array a
  s.setArray a { x with tile := x.tile.map fun t => { t with released := true }, resident := [], valid := [], set := none }

/-- Replays of a job's prefetches end with it, and write no more (R293). -/
def endReplays (s : State) (j : Nat) : State :=
  (s.msys.trackers.flatMap (·.2)).foldl (fun s t =>
    match t.run with
    | some (_, w) => if t.job.toNat = j then w.writes.foldl (fun s i => genEnd s i.toNat) s else s
    | none => s) s

/-- A DESC_CREATE that waits for a host page is refused once its job is no longer loaded (R335). -/
def dropDescWait (j : Nat) (x : PathState) : PathState :=
  match x.descWait with
  | some d => if byteField d 0 4 = j then { x with descWait := none, resp := BitVec.ofNat 16 stCmdInvalid, respData := [], descStatus := BitVec.ofNat 32 (stCmdInvalid * 2 ^ 16 + 0xFF) } else x
  | none => x

/-- Everything of a job is released and the job ends (R355, R380, R454). -/
def releaseJob (s : State) (j : Nat) : State :=
  let qs := queuesOf s j
  let s := qs.foldl endAborted s
  let s := qs.foldl (fun s q =>
    let s := match (exeOf q (s.queue q)).array? with
      | some a => freeTile s a
      | none => s
    { s.setQueue q {} with ctxs := tdel q.toNat s.ctxs }) s
  let s := endReplays s j
  jobsEnded { s with
    jobs := tdel j s.jobs
    paths := s.paths.map fun e => (e.1, dropDescWait j e.2)
    masks := s.masks.filter fun e => e.2.job.toNat != j
    samples := s.samples.map fun e => (e.1, e.2.filter fun x => x.job.toNat != j)
    msys := { s.msys with
      gens := s.msys.gens.map fun e => if e.2.entered && e.2.job.toNat == j then (e.1, { e.2 with entered := false, gen := 0 }) else e
      trackers := s.msys.trackers.map fun e => (e.1, e.2.filter fun t => t.job.toNat != j) } }

/-- An abort is over: its duration is reported, beside the kind of the latest abort begun (R384), the black box notes it (R505), and ABORT_DONE is posted to the function (R375). -/
def abortDone (s : State) (ofF : Bool) (t f us : Nat) : State :=
  let st := BitVec.ofNat 32 (bits s.abortStatus.toNat 30 1 * 2 ^ 30 + us % 2 ^ 24)
  let s := { s with aborts := s.aborts.filter fun a => !(a.ofFunction == ofF && a.target.toNat == t), abortStatus := st }
  let s := bbWrite s 0x0006 0 0 (leBytes 4 st.toNat ++ leBytes 4 t)
  postEvent s f 0x0004 (if ofF then 0 else t) (BitVec.ofNat 8 (if ofF then 1 else 0) :: leBytes 4 t ++ leBytes 4 us)

/-- The end of a job's abort that a function's abort met: its own duration, which is open, is reported (R383). -/
def endMetAbort (f : Nat) (s : State) (j : Nat) : State :=
  let (us, s) := drawWord s
  abortDone s false j f (us.toNat % 2 ^ 24)

/-- The end of a function's abort. A job abort under way ends with it, within its limit, and makes its own report (R383). -/
def completeFunction (s : State) (f us : Nat) : State :=
  let js := (s.jobs.filter fun e => e.2.func.toNat == f).map (·.1)
  let s := js.foldl releaseJob s
  let s := ((s.aborts.filter fun a => !a.ofFunction && js.contains a.target.toNat).map (·.target.toNat)).foldl (endMetAbort f) s
  let qs := (s.queues.filter fun e => decide (4096 ≤ e.1) && e.2.func.toNat == f && e.2.st == .aborted).map (·.1)
  let s := qs.foldl (fun s q => endAborted s (BitVec.ofNat 15 q)) s
  abortDone (abandonHost s f true) true f f us

/-- ABORT_COMPLETE (R380): an abort under way releases what its target held and is over after `elapsedUs` microseconds. -/
def execAbortComplete (ofFunction : Bool) (target : BitVec 32) (elapsedUs : BitVec 24) (s : State) : Out :=
  let t := target.toNat
  if s.aborts.any fun a => a.ofFunction == ofFunction && a.target == target then
    if ofFunction then .next (completeFunction s t elapsedUs.toNat)
    else
      let f := (s.job t).func.toNat
      .next (abortDone (releaseJob s t) false t f elapsedUs.toNat)
  else .next s

/-- A function's abort carried out at once, as a reset waits for it (R379); its duration is open. -/
def abortFunctionNow (s : State) (f : Nat) : State :=
  let (us, s) := drawWord (abortFunction s f)
  completeFunction s f (us.toNat % 2 ^ 24)

/-- An abort indication in a received header (R381): forwarded, and a module that runs the job aborts it and posts PEER_ABORT. -/
def abtIndication (s : State) (p : Port) (r : BitVec 10) : State :=
  let s := sendAbt s r (some p)
  match s.jobs.find? fun e => e.2.redJob == r && !e.2.aborting with
  | some (j, x) =>
    postEvent (abortJob s j (some p)) x.func.toNat 0x0005 j
      (leBytes 2 r.toNat ++ [BitVec.ofNat 8 p.toNat] ++ leBytes 8 ((s.port p).neighbour.toNat % 2 ^ 64))
  | none => s

end Sys2Proof.Machine
end

