-- ==== Sys2Proof/Machine/TorusSlots.lean ====
section
/-! DEFINITION. Slots and link-management messages of a torus port (15): what a slot carries out, how a received slot is checked and its flits accepted, retry, and the LINK_MGMT and STRETCH_RECORD messages. -/

namespace Sys2Proof.Machine

/-! ### Retry (R417, R418, R428) -/

/-- a lies before b, modulo 65,536. -/
def seqBefore (a b : BitVec 16) : Bool := decide (0 < (b - a).toNat) && decide ((b - a).toNat < 32768)

/-- A replay starts from a flit; after RETRY_LIMIT replays in a row from the same flit a port in service enters RETRAIN instead, keeping them to replay (R418, R421). -/
def startReplay (s : State) (p : Port) (from_ : BitVec 16) : State :=
  let x := s.port p
  let n := if x.replays ≠ 0 ∧ x.replayFrom = from_ then x.replays + 1 else 1
  let l := x.retry.filter fun f => !seqBefore f.seq from_
  if n > s.reg 0x3400 8 && x.st == .active then
    let s := s.setPort p { x with st := .retrain, retrainAt := s.time.tick, replays := 0, replay := l, replayFrom := from_ }
    postAll s 0x0104 (torusDetail s p 0)
  else bump (s.setPort p { x with replays := n, replayFrom := from_, replay := l }) 0x0A p.toNat 6 1

/-- RETRY_TIMEOUT (R418): the oldest unacknowledged flit has waited too long. -/
def execRetryTimeout (p : Port) (s : State) : Out :=
  let x := s.port p
  match x.retry with
  | [] => .next s
  | f :: _ => if x.st = .active ∨ x.st = .identify ∨ x.st = .held then .next (startReplay s p f.seq) else .next s

/-- ACK and NAK of a received header. An ACK past the flit that replays started from ends their run (R418). -/
def takeAck (s : State) (p : Port) (ack : BitVec 16) (nak : Bool) : State :=
  let x := s.port p
  let within := x.retry.any fun f => f.seq == ack
  let y := { x with
    retry := x.retry.filter (fun f => !seqBefore f.seq ack), replay := x.replay.filter (fun f => !seqBefore f.seq ack)
    replays := if seqBefore x.replayFrom ack then 0 else x.replays }
  let running := !y.replay.isEmpty
  let s := s.setPort p y
  if nak && within && (!running || seqBefore ack y.replayFrom) then startReplay s p ack else s

/-! ### Sending (R41 to R44, R415, R416, R441) -/

/-- Numbers new flits from a sequence number. -/
def number (seq : BitVec 16) : List TxFlit → List TxFlit
  | [] => []
  | f :: r => { f with seq := seq } :: number (seq + 1) r

/-- Every context's request at a port's arbiter for slot k: since when it has presented traffic without a break (R44). -/
def noteRequests (s : State) (p : Port) (k : Nat) : State :=
  { s with ctxs := s.ctxs.map fun e =>
      match e.2.cur with
      | some (_, c) =>
        if bucketPort c != p then e
        else (e.1, { e.2 with reqAt := if e.2.presents p k then some (e.2.reqAt.getD s.time.tick) else none })
      | none => e }

/-- Contexts that present traffic for slot k of a port, in ascending queue number (R44, R441). -/
def presenters (s : State) (p : Port) (k : Nat) : List Nat := (s.ctxs.filter fun e => e.2.presents p k).map (·.1)

/-- The presenter whose request came first, the lower queue number among equals (R44). -/
def firstAsker (s : State) (l : List Nat) : Option Nat :=
  let at_ := fun (q : Nat) => (((s.ctx (BitVec.ofNat 15 q)).reqAt).getD 0).toNat
  l.foldl (fun b q => match b with
    | some k => if at_ q < at_ k then some q else b
    | none => some q) none

/-- A PING carries the tick at which it leaves, and a PONG's turnaround is measured as it leaves: until then its field holds the tick of the PING's arrival (R410, R420). -/
def stampMgmt (t : BitVec 64) (f : TxFlit) : TxFlit :=
  let x := f.flit.toNat
  if f.isHead && bits x 0 8 == 3 && bits x 48 8 == 3 then
    let at_ := bits x 128 32
    { f with flit := BitVec.ofNat 512 (x - at_ * 2 ^ 128 + ((t.toNat + 2 ^ 32 - at_) % 2 ^ 32) * 2 ^ 128) }
  else if f.isHead && bits x 0 8 == 3 && bits x 48 8 == 2 then
    { f with flit := BitVec.ofNat 512 (x - bits x 64 64 * 2 ^ 64 + t.toNat * 2 ^ 64) }
  else f

/-- Marks the first n flits of a list as held back, where they are not yet, and says how many that is (R416). -/
def markHeld : Nat → List TxFlit → List TxFlit × Nat
  | 0, l => (l, 0)
  | _, [] => ([], 0)
  | n + 1, f :: r =>
    let (l, k) := markHeld n r
    ({ f with held := true } :: l, if f.held then k else k + 1)

/-- The 16 header bytes of a slot (R414). -/
def slotHeader (s : State) (x : PortState) (n : Nat) (seq : BitVec 16) (heads : Nat) : List Byte :=
  let (sv, st) := match x.strOut with
    | t :: _ => (1, t.toNat)
    | [] => (0, 0)
  let (av, aj) := match x.abtOut with
    | j :: _ => (1, j.toNat)
    | [] => (0, 0)
  let b0 := sv * 128 + st * 8 + av * 4 + (if x.nakOwed then 2 else 0)
  let h := [BitVec.ofNat 8 b0, BitVec.ofNat 8 aj, BitVec.ofNat 8 (aj / 256 * 64 + n), BitVec.ofNat 8 s.slot] ++
    leBytes 2 seq.toNat ++ leBytes 2 x.rxNext.toNat ++ leBytes 4 heads ++ leBytes 2 s.beat.toNat
  h ++ leBytes 2 (crc16 h)

/-- The bit set of head positions. -/
def headBits : List TxFlit → Nat
  | [] => 0
  | f :: r => (if f.isHead then 1 else 0) + 2 * headBits r

/-- The new flits that a slot may carry, in fill order, after the flits of a message already begun: the granted sender's (scheduled slots) or stretch records, then the rest of the backlog, then management messages (slack slots). -/
structure Fill where
  s : State
  first : List TxFlit
  backlog : List TxFlit
  last : List TxFlit

/-- Gathers what a scheduled slot may carry (R44, R415): the presenter whose request came first keeps the slot, the others are moved to the backlog and counted. -/
def fillScheduled (s : State) (p : Port) : Fill :=
  let x := s.port p
  let want := 30 - min 30 x.begun
  let l := if want = 0 then [] else presenters s p s.slot
  match firstAsker s l with
  | none => ⟨s, [], x.backlog, []⟩
  | some q =>
    let losers := l.filter (· != q)
    let (s, g) := takeFrom s q want
    let (s, late) := losers.foldl (fun (a : State × List TxFlit) l => let (s, f) := takeFrom a.1 l 30; (bump s 0x0A p.toNat 16 1, a.2 ++ f)) (s, [])
    ⟨s, g, x.backlog ++ late, []⟩

/-- Gathers what a slot may carry by the port's state and the time (R33, R415, R421, R423). -/
def fillOf (s : State) (p : Port) : Fill :=
  let x := s.port p
  let slack := decide (224 ≤ s.slot) || (s.time.inStretch && timeAligned s)
  if slack then
    if x.st = .active then ⟨s, x.strRecs, x.backlog, x.mgmt⟩ else ⟨s, [], [], x.mgmt⟩
  else if scheduled s x then fillScheduled s p
  else ⟨s, [], [], []⟩

/-- SLOT_SEND (R412, R415, R416): a port builds and sends the slot of the present tick: its header with pending indications, replayed flits first, then new flits in the fixed order as far as the retry buffer has room. -/
def execSlotSend (p : Port) (s : State) : Out :=
  let x0 := s.port p
  if !(x0.st = .active ∨ x0.st = .identify ∨ x0.st = .held) || !s.ticking then .next s
  else
    let mute := decide (s.slot < 224) && !timeAligned s
    let quiet := decide (s.slot < 224) && !(s.time.inStretch && timeAligned s) && !scheduled s x0
    let rep := if mute then [] else x0.replay.take 30
    let f := fillOf (noteRequests s p s.slot) p
    let s := f.s
    let b0 := f.backlog.take x0.begun
    let b1 := f.backlog.drop x0.begun
    let cand := b0 ++ f.first ++ b1 ++ f.last
    let n := if quiet then 0 else min (30 - rep.length) cand.length
    let k := min n (2048 - x0.retry.length)
    let (left, full) := markHeld (n - k) (cand.drop k)
    let new := (number x0.txSeq (cand.take k)).map (stampMgmt s.time.tick)
    let r0 := b0.length - k
    let rF := f.first.length - (k - b0.length)
    let r1 := b1.length - (k - b0.length - f.first.length)
    let lF := (left.drop r0).take rF
    let l1 := (left.drop (r0 + rF)).take r1
    let lM := left.drop (r0 + rF + r1)
    let slack := decide (224 ≤ s.slot) || (s.time.inStretch && timeAligned s)
    let back :=
      if slack then (if x0.st = .active then left.take r0 ++ l1 else x0.backlog)
      else if scheduled s x0 then left.take r0 ++ (lF.takeWhile fun t => !t.isHead) ++ l1 ++ lF.dropWhile fun t => !t.isHead
      else x0.backlog
    let flits := rep ++ new
    let seq := match flits with
      | t :: _ => t.seq
      | [] => x0.txSeq
    let pos := flits.map (·.flit) ++ List.replicate (30 - flits.length) 0
    let hdr := slotHeader s x0 flits.length seq (headBits flits)
    let crcs := (List.range 8).map (groupCrc seq.toNat pos)
    let slot : TxSlot :=
      let h := BitVec.ofNat 128 (leNat hdr)
      let cs := crcs.map (BitVec.ofNat 32)
      ⟨h, pos, cs, lightParity (slotBody h pos cs)⟩
    let x := { x0 with
      strOut := x0.strOut.tail, abtOut := x0.abtOut.tail, nakOwed := false
      txSeq := x0.txSeq + BitVec.ofNat 16 k
      retry := x0.retry ++ new
      replay := if mute then x0.replay else x0.replay.drop 30
      backlog := back
      begun := (back.takeWhile fun t => !t.isHead).length
      strRecs := if slack && x0.st == .active then lF else x0.strRecs
      mgmt := if slack then lM else x0.mgmt
      lastSlot := some slot }
    let x := sendLine x s.slot s.beat (slotBody slot.hdr slot.flits slot.crcs ++ slot.parity)
    .next (bump (bump (s.setPort p x) 0x0A p.toNat 7 rep.length) 0x0A p.toNat 8 full)

/-! ### Receiving (R413, R414, R417, R419, R428) -/

/-- A complete message: dropped for a job being aborted or aborted, whose identifier is draining or held, or for one not loaded, else delivered (R419, R454). -/
def deliver (s : State) (p : Port) (m : Msg) : State :=
  let keep := let x := s.port p; s.setPort p { x with inbox := x.inbox ++ [m] }
  if msgKind m ≤ 2 then
    match tfind s.redJobs (msgJob m) with
    | none => bump s 0x0A p.toNat 11 1
    | some e => if e.1 = .loaded then keep else bump s 0x0A p.toNat 12 1
  else keep

/-- An accepted flit joins its message. -/
def acceptFlit (s : State) (p : Port) (f : Flit) (isHead : Bool) : State :=
  let x := s.port p
  if isHead then
    if !headOk f then bump (s.setPort p { x with partialMsg := none }) 0x0A p.toNat 10 1
    else if bits f.toNat 16 16 = 0 then deliver s p ⟨f, []⟩
    else s.setPort p { x with partialMsg := some (f, []) }
  else
    match x.partialMsg with
    | none => s
    | some (h, l) =>
      let l := l ++ [f]
      if l.length = bits h.toNat 16 16 then deliver (s.setPort p { x with partialMsg := none }) p ⟨h, l⟩
      else s.setPort p { x with partialMsg := some (h, l) }

/-- The flits of a slot in order: position, its flit, whether its group's CRC passes (R417). -/
def takeFlits (p : Port) (seq : BitVec 16) (heads : Nat) : List (Nat × Flit × Bool) → State → State
  | [], s => s
  | (i, f, ok) :: r, s =>
    let x := s.port p
    let n := seq + BitVec.ofNat 16 i
    if n = x.rxNext ∧ ok then
      takeFlits p seq heads r (acceptFlit (s.setPort p { x with rxNext := x.rxNext + 1, inGap := false }) p f (heads.testBit i))
    else if seqBefore n x.rxNext then takeFlits p seq heads r s
    else takeFlits p seq heads r (s.setPort p { x with inGap := true, nakOwed := x.nakOwed || !x.inGap })

/-- The header's time against the receiver's own, less the measured latency (R428), in hundredths of a tick modulo 2^24 ticks. -/
def skewed (s : State) (x : PortState) (beat slot : Nat) : Bool :=
  let m := 100 * 2 ^ 24
  let d := (100 * (s.time.tick.toNat % 2 ^ 24) + 2 * m - x.hopLatency.toNat - 100 * (beat * 256 + slot)) % m
  !(decide (d ≤ 100) || decide (m - 100 ≤ d))

/-- BEAT_SKEW: counted, and after 16 in a row the port leaves scheduled service with TIME_MISMATCH (R428). -/
def checkSkew (s : State) (p : Port) (beat slot : Nat) : State :=
  let x := s.port p
  if x.st != .active || !timeAligned s then s
  else if skewed s x beat slot then
    let s := bump (s.setPort p { x with skewRun := x.skewRun + 1 }) 0x0A p.toNat 15 1
    if x.skewRun + 1 = 16 then fabricFault s 0x0012 [BitVec.ofNat 8 p.toNat] else s
  else if 16 ≤ x.skewRun then s
  else s.setPort p { x with skewRun := 0 }

/-- A header that passes HCRC, with its reserved bits zero and at most 30 flits (R414). -/
def headerGood (h : Nat) : Bool :=
  bits h 112 16 == crc16 (leBytes 14 h) && !h.testBit 0 && !h.testBit 21 && decide (bits h 16 5 ≤ 30) && bits h 94 2 == 0

/-- SLOT_RECEIVED (R409, R413, R414, R417): the slot is corrected by the codes of the port's mode, whose findings are counted; a bad header loses the slot; else its indications, its ACK and NAK, and its flits in order are taken. -/
def execSlotReceived (p : Port) (slot : RxSlot) (s : State) : Out :=
  let x := s.port p
  if !(x.st = .active ∨ x.st = .identify ∨ x.st = .held) then .next s
  else
    let (slot, corr, uncorr, miss) := decodeSlot x.hollyhock slot
    let s := bump (bump (bump s 0x0A p.toNat 1 corr) 0x0A p.toNat 2 uncorr) 0x0A p.toNat 3 miss
    let s := noteCe s 0x0A p.toNat corr 0
    let h := slot.hdr.toNat
    if !headerGood h then .next (bump s 0x0A p.toNat 4 1)
    else
      let s := checkSkew s p (bits h 96 16) (bits h 24 8)
      let s := if h.testBit 7 then strIndication s p (BitVec.ofNat 4 (bits h 3 4)) else s
      let s := if h.testBit 2 then abtIndication s p (BitVec.ofNat 10 (bits h 8 8 + bits h 22 2 * 256)) else s
      let s := takeAck s p (BitVec.ofNat 16 (bits h 48 16)) (h.testBit 1)
      let seq := BitVec.ofNat 16 (bits h 32 16)
      let oks := (List.range 8).map fun g => groupCrc seq.toNat slot.flits g == ((slot.crcs.getD g 0).toNat)
      let s := bump s 0x0A p.toNat 5 (oks.filter (· == false)).length
      .next (takeFlits p seq (bits h 64 30)
        ((slot.flits.take (bits h 16 5)).zipIdx.map fun e => (e.2, e.1, oks.getD (min (e.2 / 4) 7) false)) s)

/-! ### LINK_MGMT and STRETCH_RECORD (R46, R410, R420, R423 to R425) -/

/-- A delivered message is taken out of the port's inbox. -/
def takeMsg (s : State) (p : Port) (m : Msg) : State :=
  let x := s.port p
  s.setPort p { x with inbox := x.inbox.erase m }

/-- The port is trained far enough to take messages. -/
def linked (x : PortState) : Bool := x.st == .active || x.st == .identify || x.st == .held

/-- The port's inbox holds a message, and it is the LINK_MGMT message of a subtype (R420). -/
def mgmtIs (s : State) (p : Port) (m : Msg) (sub : Nat) : Bool :=
  (s.port p).inbox.contains m && msgKind m == 3 && msgField m 6 1 == sub && m.data.isEmpty

/-- IDENT (R421, R423, R424): the far end's fields are kept; a HELD port is checked, and a port in IDENTIFY once its hop latency is measured too (log entry 88). -/
def execIdent (p : Port) (m : Msg) (s : State) : Out :=
  if !mgmtIs s p m 1 then .next s
  else
    let s := takeMsg s p m
    let x := s.port p
    if !linked x then .next s
    else
      let s := s.setPort p { x with neighbour := BitVec.ofNat 160 (msgField m 8 18), identSeen := true }
      .next (if x.st = .held || (x.st = .identify && x.measured) then runChecks s p else s)

/-- PING (R410): answered with a PONG. -/
def execPing (p : Port) (m : Msg) (s : State) : Out :=
  if !mgmtIs s p m 2 then .next s
  else
    let s := takeMsg s p m
    if !linked (s.port p) then .next s
    else .next (sendMgmt s p (mgmtMsg 3 (leBytes 8 (msgField m 8 8) ++ leBytes 4 s.time.tick.toNat)))

/-- Half the round trip of a PONG less the turnaround, in units of 0.1 ns (R410). -/
def pongLatency (s : State) (m : Msg) : Nat := ((s.time.tick - BitVec.ofNat 64 (msgField m 8 8)).toNat - msgField m 0x10 4) * 50

/-- The greatest hop latency of a link mode, in units of 0.1 ns (R409). -/
def latencyLimit (x : PortState) : Nat := if x.hollyhock then 950 else 400

/-- PONG (R410, R421): in IDENTIFY the hop latency is measured; beyond the limit of the mode the port fails with LATENCY, else it is checked once the far end's IDENT has come. -/
def execPong (p : Port) (m : Msg) (s : State) : Out :=
  if !mgmtIs s p m 3 then .next s
  else
    let s := takeMsg s p m
    let x := s.port p
    if x.st ≠ .identify then .next s
    else
      let lat := pongLatency s m
      let s := s.setPort p { x with hopLatency := BitVec.ofNat 16 (min lat 0xFFFF), measured := true }
      .next (if lat > latencyLimit x then failPort s p 11 else if x.identSeen then runChecks s p else s)

/-- OFFSET (R35; log entry 79): offsets that agree end a mismatch. A module with no job adopts the offset of an aligned far end and reports it. A module with a job reports its own once more, so that a far end with none may adopt it; a far end that then still differs runs a job, and the fault is TIME_MISMATCH. -/
def execOffset (p : Port) (m : Msg) (s : State) : Out :=
  if !mgmtIs s p m 4 then .next s
  else
    let s := takeMsg s p m
    let x := s.port p
    if !linked x then .next s
    else
      let o := BitVec.ofNat 48 (msgField m 8 8)
      if o = s.time.offset then .next (s.setPort p { x with offsetAgreed := true, offsetDiffers := false, mismatch := false })
      else if s.jobs.isEmpty then
        if msgField m 0x10 1 = 2 ∨ msgField m 0x10 1 = 3 then
          let s := { s.setPort p { x with offsetAgreed := true, offsetDiffers := false, mismatch := false } with time := { s.time with offset := o } }
          .next (sendMgmt s p (offsetMsg s))
        else .next s
      else if x.mismatch then .next s
      else if !x.offsetDiffers then .next (sendMgmt (s.setPort p { x with offsetDiffers := true, offsetAgreed := false }) p (offsetMsg s))
      else .next (fabricFault (s.setPort p { x with mismatch := true }) 0x0012 [BitVec.ofNat 8 p.toNat])

/-- LANE_MOVE (R425): the module is the sender of the direction; it echoes the fields and sends the lane twice in beat b - 1. -/
def execLaneMove (p : Port) (m : Msg) (s : State) : Out :=
  if !mgmtIs s p m 5 then .next s
  else
    let s := takeMsg s p m
    let x := s.port p
    if x.st != .active then .next s
    else
      let s := s.setPort p { x with
        moveTx := some ⟨false, BitVec.ofNat 4 (msgField m 9 1), BitVec.ofNat 4 (msgField m 10 1), BitVec.ofNat 48 (msgField m 11 8), true, .spare⟩ }
      .next (sendMgmt s p (mgmtMsg 6 (leBytes 11 (msgField m 8 11))))

/-- LANE_ACK (R425): the move that it echoes may be compared in beat b - 1. -/
def execLaneAck (p : Port) (m : Msg) (s : State) : Out :=
  if !mgmtIs s p m 6 then .next s
  else
    let s := takeMsg s p m
    let x := s.port p
    match x.moveRx with
    | some v =>
      if v.lane.toNat == msgField m 9 1 && v.target.toNat == msgField m 10 1 && v.beat.toNat == msgField m 11 8 then
        .next (s.setPort p { x with moveRx := some { v with acked := true } })
      else .next s
    | none => .next s

/-- RECHECK (R420, R424): the module sends IDENT, and a HELD port runs its checks again. -/
def execRecheck (p : Port) (m : Msg) (s : State) : Out :=
  if !mgmtIs s p m 7 then .next s
  else
    let s := takeMsg s p m
    if !linked (s.port p) then .next s
    else
      let s := sendMgmt s p (identMsg s p)
      .next (if (s.port p).st = .held then runChecks s p else s)

/-- STRETCH_RECORD (R46): the latest is kept in LAST_STRETCH. -/
def execStretchRecord (p : Port) (m : Msg) (s : State) : Out :=
  if !((s.port p).inbox.contains m && msgKind m == 4) then .next s
  else
    let s := takeMsg s p m
    .next { s with time := { s.time with lastStretch := BitVec.ofNat 160 (msgField m 6 20) } }

end Sys2Proof.Machine
end

