-- ==== Sys2Proof/Machine/TorusTraining.lean ====
section
/-! DEFINITION. Training of torus ports, their lanes, and the plugs in their receptacles (15 R421 to R427, 20 R544, 21 R556 and R560). -/

namespace Sys2Proof.Machine

/-! ### Training (R411, R421, R422) -/

/-- SIGNAL_DETECT (R421, R423): from DETECT to EQUALISE; on an axis of size 1 the signal is reported as AXIS_UNUSED and the port stays DISABLED. -/
def execSignalDetect (p : Port) (s : State) : Out :=
  let x := s.port p
  if x.st = .detect then .next (s.setPort p { x with st := .equalise, idle := false })
  else if x.st = .disabled && axisSize s (portAxis p) == 1 && (s.reg 0x3400 4).testBit p.toNat then .next (s.setPort p { x with reason := 6 })
  else .next s

/-- EQUALISE_CONVERGED (R411): the mode follows from the two settings; a fixed Poppy end against a choice of Hollyhock fails with MODE. -/
def execEqualiseConverged (p : Port) (lowError : Bool) (farSetting : BitVec 2) (farHolly : Bool) (s : State) : Out :=
  let x := s.port p
  if x.st != .equalise then .next s
  else
    let own := bits (s.reg 0x3400 5) (8 * p.toNat) 8
    let ownHolly := if own = 2 then !lowError else own == 1
    let far := farSetting.toNat
    let farH := if far = 2 then farHolly else far == 1
    if !ownHolly && !farH then .next (s.setPort p { x with st := .map, hollyhock := false })
    else if own = 0 ∨ far = 0 then .next (failPort s p 8)
    else .next (s.setPort p { x with st := .map, hollyhock := true })

/-- EQUALISE_TIMEOUT (R421). -/
def execEqualiseTimeout (p : Port) (s : State) : Out :=
  if (s.port p).st = .equalise then .next (failPort s p 10) else .next s

/-- The lanes of a direction in the sender's numbers 0 to 8 on the receiver's numbers. -/
def laneAt (reversed : Bool) (n : Nat) : Nat := if reversed then 8 - n else n

/-- MAP_DONE (R422): only the straight and the reversed order are accepted, and at most one lane may be unusable; `usable` and `inverted` go by receive lane, and `txFailed` is the transmit lane that the far end's receiver marked failed. -/
def execMapDone (p : Port) (order : LaneOrder) (usable inverted : BitVec 9) (txFailed : Option (BitVec 4)) (s : State) : Out :=
  let x := s.port p
  if x.st != .map then .next s
  else if order = .other then .next (failPort s p 9)
  else
    let rev := order == .reversed
    let good := (List.range 9).filter fun n => usable.getLsbD (laneAt rev n)
    if good.length < 8 then .next (failPort s p 10)
    else
      let bad := (List.range 9).filter fun n => !usable.getLsbD (laneAt rev n)
      let tx := (List.range 9).filter fun n => some (BitVec.ofNat 4 n) != txFailed
      .next (s.setPort p { x with
        st := .lock
        rxReversed := rev
        rxPolarity := inverted
        rxMap := (good.take 8).map fun n => BitVec.ofNat 4 (laneAt rev n)
        rxSpare := BitVec.ofNat 4 (laneAt rev (bad.headD 8))
        rxSpareUsed := !bad.isEmpty
        txMap := (tx.take 8).map fun n => BitVec.ofNat 4 n
        txSpare := txFailed.getD 8
        txHomeSpare := txFailed.getD 8
        txSpareUsed := txFailed.isSome })

/-- LOCK_ACHIEVED (R421): sequence numbers start at 0, and IDENT, PING and OFFSET are sent. -/
def execLockAchieved (p : Port) (s : State) : Out :=
  let x := s.port p
  if x.st != .lock then .next s
  else .next (sendTrio (s.setPort p { x with
    st := .identify, txSeq := 0, rxNext := 0, retry := [], replay := [], replays := 0, backlog := [], begun := 0, strRecs := [], mgmt := [],
    partialMsg := none, inbox := [], inGap := false, nakOwed := false, strOut := [], abtOut := [], skewRun := 0, mismatch := false,
    offsetAgreed := false, offsetDiffers := false, identSeen := false, measured := false, awaitEpoch := false }) p)

/-- LOCK_TIMEOUT (R421). -/
def execLockTimeout (p : Port) (s : State) : Out :=
  if (s.port p).st = .lock then .next (failPort s p 10) else .next s

/-- FAILED_RETRY_TIMER (R421): one second after FAILED the port seeks its far end again. -/
def execFailedRetryTimer (p : Port) (s : State) : Out :=
  if (s.port p).st = .failed then .next (s.setPort p ((s.port p).cleared .detect 0)) else .next s

/-- HELD_IDENT_TIMER (R421): a HELD port repeats IDENT. -/
def execHeldIdentTimer (p : Port) (s : State) : Out :=
  if (s.port p).st = .held then .next (sendMgmt s p (identMsg s p)) else .next s

/-- RETRAIN_DONE (R421): back to ACTIVE, and the replay resumes. -/
def execRetrainDone (p : Port) (s : State) : Out :=
  let x := s.port p
  if x.st = .retrain then .next (s.setPort p { x with st := .active }) else .next s

/-- RETRAIN_TIMEOUT (R421). -/
def execRetrainTimeout (p : Port) (s : State) : Out :=
  if (s.port p).st = .retrain then .next (linkDown s p) else .next s

/-- LINK_LOSS (R421, R427). -/
def execLinkLoss (p : Port) (s : State) : Out :=
  let x := s.port p
  match x.st with
  | .active | .retrain => .next (linkDown s p)
  | .equalise | .map | .lock | .identify | .held => .next (s.setPort p (x.cleared .detect 0))
  | .disabled | .detect | .failed => .next s

/-- PORT_DETECT_IDLE (R544): no signal for 1 s counts as finished for READY; the port keeps seeking. -/
def execPortDetectIdle (p : Port) (s : State) : Out :=
  let x := s.port p
  if x.st = .detect then .next (s.setPort p { x with idle := true }) else .next s

/-! ### Lane moves (R425, R426) -/

/-- The receiver asks for a move of a logical lane of its direction. -/
def askMove (s : State) (p : Port) (lane target : BitVec 4) (ahead : Nat) (k : MoveKind) : State :=
  let b := s.beat + BitVec.ofNat 48 ahead
  let x := s.port p
  let s := s.setPort p { x with moveRx := some ⟨true, lane, target, b, false, k⟩, recalBusy := k != .spare }
  sendMgmt s p (mgmtMsg 5 ([0, BitVec.ofNat 8 lane.toNat, BitVec.ofNat 8 target.toNat] ++ leBytes 8 b.toNat))

/-- A receive lane of a port in service fails: its logical lane moves to the spare for good, or the port goes down where no spare is left. -/
def laneFailed (s : State) (p : Port) (lane : BitVec 4) (ahead : Nat) : State :=
  let x := s.port p
  if x.st != .active then s
  else if lane = x.rxSpare then s.setPort p { x with rxSpareUsed := true }
  else match x.rxMap.findIdx? (· == lane) with
    | none => s
    | some k =>
      let moving := match x.moveRx with
        | some v => v.kind == .spare
        | none => false
      if x.rxSpareUsed || moving then linkDown s p
      else askMove s p (BitVec.ofNat 4 k) x.rxSpare ahead .spare

/-- LANE_SIGNAL_LOSS (R425, R426): the move is for the current beat plus 2. -/
def execLaneSignalLoss (p : Port) (lane : BitVec 4) (s : State) : Out := .next (laneFailed s p lane 2)

/-- LANE_ERROR_WINDOW (R426): a lane whose corrections in one second exceed LANE_ERR_LIMIT is moved, planned for the current beat plus 4. -/
def execLaneErrorWindow (p : Port) (lane : BitVec 4) (corrections : Nat) (s : State) : Out :=
  let s := noteCe s 0x0A p.toNat corrections lane.toNat
  .next (if corrections > s.reg 0x3400 9 then laneFailed s p lane 4 else s)

/-- The move whose beat has come, of the two directions the earlier, the receive direction first (log entry 89). -/
def dueMove (s : State) (x : PortState) : Option LaneMoveSt :=
  let due := fun (v : LaneMoveSt) => decide ((s.beat - v.beat).toNat < 2 ^ 47)
  match x.moveRx.filter due, x.moveTx.filter due with
  | some r, some t => if (s.beat - t.beat).toNat ≤ (s.beat - r.beat).toNat then some r else some t
  | some r, none => some r
  | none, t => t

/-- A move ends: its direction has none under way. -/
def endMove (x : PortState) (v : LaneMoveSt) : PortState := if v.rx then { x with moveRx := none } else { x with moveTx := none }

/-- LANE_SWITCH (R425, R426): at wall beat b both ends switch, or keep the old map where the comparison failed. A move that does not say why it is made uses the transmit spare up for as long as a lane rides on it (R430, log entry 89). -/
def execLaneSwitch (p : Port) (agreed : Bool) (s : State) : Out :=
  let x := s.port p
  match dueMove s x with
  | none => .next s
  | some v =>
    let k := v.lane.toNat
    let y := endMove x v
    if !agreed || !v.acked then
      .next (bump (s.setPort p { y with recalBusy := x.recalBusy && !v.rx }) 0x0A p.toNat 14 1)
    else if v.rx then
      let old := x.rxMap.getD k 0
      let y := { y with rxMap := x.rxMap.set k v.target, rxSpare := old }
      let s := bump s 0x0A p.toNat 13 1
      match v.kind with
      | .spare =>
        let s := s.setPort p { y with rxSpareUsed := true, recalBusy := false }
        .next (postAll s 0x0103 (torusDetail s p old.toNat))
      | .recalOut => .next (s.setPort p y)
      | .recalBack => .next (s.setPort p { y with recalBusy := false, recalNext := BitVec.ofNat 4 ((x.recalNext.toNat + 1) % 8) })
    else
      .next (bump (s.setPort p { y with txMap := x.txMap.set k v.target, txSpare := x.txMap.getD k 0,
                                        txSpareUsed := v.target == x.txHomeSpare }) 0x0A p.toNat 13 1)

/-- RECAL_TIMER (R426): a direction with a working, unused spare moves its next logical lane onto it. -/
def execRecalTimer (p : Port) (s : State) : Out :=
  let x := s.port p
  if x.st = .active && s.reg 0x3400 6 != 0 && !x.rxSpareUsed && !x.recalBusy && x.moveRx.isNone then
    .next (askMove s p x.recalNext x.rxSpare 4 .recalOut)
  else .next s

/-- RECAL_READAPT_DONE (R426): the freed lane has re-adapted, and the logical lane moves back. -/
def execRecalReadaptDone (p : Port) (s : State) : Out :=
  let x := s.port p
  if x.st = .active && x.recalBusy && x.moveRx.isNone then .next (askMove s p x.recalNext x.rxSpare 4 .recalBack)
  else .next s

/-! ### Plugs (R556, R560) -/

/-- TORUS_SUPPLY_OVERCURRENT (R560, R563): VCC_T is cut and the port held DISABLED. -/
def execTorusSupplyOvercurrent (p : Port) (tenthAmps : BitVec 16) (s : State) : Out :=
  let s := disablePort s p
  let s := s.setPort p { s.port p with supplyCut := true }
  .next (postAll s 0x0307 (BitVec.ofNat 8 p.toNat :: leBytes 2 tenthAmps.toNat))

/-- MOD_PRS_CHANGE (R556): VCC_T is on only while a plug is present. -/
def execModPrsChange (p : Port) (present : Bool) (s : State) : Out :=
  .next (s.setPort p { s.port p with plugged := present })

end Sys2Proof.Machine
end

