-- ==== Sys2Proof/Machine/QueueCmds.lean ====
section
/-! DEFINITION. The commands that every executor runs (13 R359 to R373, 02 R39), the semaphore commands of the command processor, and the deadlock detector. -/

namespace Sys2Proof.Machine

/-! ### Deadline markers (R39, R40) -/

/-- The reserved fields of BEAT_ALIGN (R39). -/
def beatAlignOk (c : Cmd) : Bool :=
  bits (cmdField c 8 1) 2 6 == 0 && cmdField c 8 1 % 4 != 3 && zeroBytes c 9 3 && !(cmdField c 0x0C 4).testBit 31 &&
    (cmdField c 8 1 % 4 == 0 || cmdField c 0x0C 1 == 0) && zeroBytes c 0x10 48

/-- The schedule beat offset of a BEAT_ALIGN. -/
def alignBeat (c : Cmd) : Nat := bits (cmdField c 0x0C 4) 8 23

/-- A ring entry is a BEAT_ALIGN of a mode, valid as it stands. -/
def isAlign (c : Cmd) (mode : Nat) : Bool :=
  opByte c == 0x04 && bits (cmdField c 1 1) 4 4 == 1 && headerOk c && beatAlignOk c && cmdField c 8 1 % 4 == mode

/-- Arms a marker with the queue's beat base of this moment; one that slot 128 of its beat has overtaken is never checked (R40). -/
def armMarker (s : State) (q : QNum) (idx : BitVec 16) (c : Cmd) : State :=
  let x := s.queue q
  let b := x.target (alignBeat c)
  if whenIs s false b 128 = .early then s.setQueue q { x with markers := x.markers ++ [⟨idx, BitVec.ofNat 48 b⟩] } else s

/-- Arms the markers that no uncompleted SET_BASE precedes. -/
def armList (s : State) (q : QNum) : List (BitVec 16 × Cmd) → State
  | [] => s.setQueue q { s.queue q with unarmed := [] }
  | (i, c) :: r =>
    if isAlign c 2 then s.setQueue q { s.queue q with unarmed := (i, c) :: r }
    else armList (armMarker s q i c) q r

def armReady (s : State) (q : QNum) : State := armList s q (s.queue q).unarmed

/-- Reads the ring entry of an index; entries in host memory are open (log entry 5). -/
def ringEntry (s : State) (x : Queue) (idx : BitVec 16) : Option (List Byte) × State :=
  match vRead s x.func.toNat x.job.toNat (x.ring.toNat + 64 * (idx.toNat % x.n)) 64 with
  | .ok (b, s1) => (some b, s1)
  | .need k =>
    let (b, s1) := drawBytes (requestPage s x.func.toNat k) 64
    (some b, s1)
  | _ => (none, s)

/-- Notes the markers and SET_BASE commands among n covered entries from an index. -/
def noteAligns (s : State) (q : QNum) (idx : BitVec 16) : Nat → State
  | 0 => s
  | n + 1 =>
    let (b, s) := ringEntry s (s.queue q) idx
    let s := match b with
      | some l =>
        let c : Cmd := BitVec.ofNat 512 (leNat l)
        if isAlign c 1 || isAlign c 2 then s.setQueue q { s.queue q with unarmed := (s.queue q).unarmed ++ [(idx, c)] } else s
      | none => s
    noteAligns s q (idx + 1) n

/-- Commands come to a queue: an array whose empty queue was the quiet point that is waited for takes none of them until then (R108, R524). -/
def latchQuiet (s : State) (q : QNum) : State :=
  let x := s.queue q
  match (exeOf q x).array? with
  | some a => if quietEmpty s x (exeOf q x) a then s.setArray a { s.array a with held := true } else s
  | none => s

/-- A doorbell, or the loader, covers commands up to a TAIL: the queue holds them, and the markers among them are armed as far as they can be (R39, R352). -/
def coverTo (s : State) (q : QNum) (tail : BitVec 16) : State :=
  let s := latchQuiet s q
  let x := s.queue q
  let y := { x with tail := tail }
  armReady (noteAligns (s.setQueue q (if x.next = x.tail then atHead s q y else y)) q x.tail (tail - x.tail).toNat) q

/-- The queue has reached the marker of an index. -/
def reachMarker (s : State) (q : QNum) (idx : BitVec 16) : State :=
  let x := s.queue q
  s.setQueue q { x with markers := x.markers.filter (·.idx != idx), unarmed := x.unarmed.filter (·.1 != idx) }

/-! ### FLUSH (R356) -/

/-- What ends a flush before its last record: a lost record, with its status and SEQ, or a host page of the completion ring to wait for. -/
inductive FlushStop where
  | lost (status seq : Nat)
  | page
  deriving DecidableEq, Repr

/-- The FLUSHED record of the next unstarted command: it is written at the command's index and passes HEAD; one whose write fails is lost (R356, R364). -/
def flushOne (s : State) (q : QNum) : State × Option FlushStop :=
  let x := s.queue q
  let f := x.func.toNat
  let (b, s) := ringEntry s x x.next
  let c : Cmd := BitVec.ofNat 512 (leNat (b.getD []))
  let w : Started := { idx := x.next, op := opByte c, cmd := c, phase := x.phase, status := BitVec.ofNat 16 stFlushed }
  let gone (s : State) (st : Nat) : State × Option FlushStop :=
    (s.setQueue q { bumpNext (s.queue q) with lastErr := BitVec.ofNat 16 stFlushed }, some (.lost st (cmdField c 2 2)))
  match vWrite s f x.job.toNat (x.comp.toNat + 16 * (x.next.toNat % x.n)) (recordBytes w) with
  | .ok s1 =>
    let y := s1.queue q
    (traceRec (s1.setQueue q (noteWritten { bumpNext y with lastErr := BitVec.ofNat 16 stFlushed } x.next)) q w.op true stFlushed (cmdField c 2 2), none)
  | .need k => (requestPage s f k, some .page)
  | .offline => gone s stOffline
  | .fault r _ => gone (forgetRefusals s f r) stXlate
  | .poison _ _ => gone s stXlate

/-- Flushes n commands; it stops at a record that is lost, or that must wait. -/
def flushFrom (s : State) (q : QNum) : Nat → State × Option FlushStop
  | 0 => (s, none)
  | n + 1 =>
    match flushOne s q with
    | (t, none) => flushFrom t q n
    | r => r

/-- Carries a flush on: FLUSHED records for every unstarted command, in index order; then the vector, and ACTIVE once the started commands have their records too. A lost record ends the flush with the queue HALTED, and QUEUE_HALTED is posted (R356, R364). -/
def runFlush (s : State) (q : QNum) : State :=
  let x := s.queue q
  match flushFrom s q x.waiting with
  | (t, some (.lost st seq)) =>
    postEvent (t.setQueue q { t.queue q with flushing := false }) x.func.toNat 0x0001 x.job.toNat (leBytes 2 q.toNat ++ leBytes 2 st ++ leBytes 2 seq)
  | (t, some .page) => t
  | (t, none) => settleFlush (if x.irqMode = 0 then t else raiseMsix t x.func.toNat x.vector.toNat) q

/-! ### NOP, WAIT, SIGNAL, FENCE, BEAT_ALIGN -/

/-- Names a semaphore before any effect: SEM_INVALID or ORPHANED with the semaphore in DETAIL (R366, R373). -/
def semM (n : Nat) : M Unit := do
  let r ← get
  let st := semCheck r.s r.f n
  if st = stOk then pure () else stopAt st 6 n

/-- The reserved fields of NOP (R360). -/
def nopOk (c : Cmd) : Bool := zeroBytes c 8 56

/-- NOP (R360): nothing. -/
def execNop (q : QNum) (c : Cmd) (s : State) : Out :=
  startCmd q c nopOk (fun _ => []) (pure ()) s

/-- WAIT at the head of its queue (R368): the queue is held, and the value that the semaphore has now may satisfy it already. -/
def waitBody : M Unit := do
  let r ← get
  let n := cmdField r.c 8 4
  semM n
  let eq := cmdField r.c 0x0C 1 == 1
  let t := BitVec.ofNat 64 (cmdField r.c 0x10 8)
  throw (.hold (.wait r.w.idx r.c (BitVec.ofNat 16 n) eq t (waitMet eq t (r.s.sem n).value)))

/-- The reserved fields of WAIT (R360). -/
def waitOk (c : Cmd) : Bool :=
  zeroBytes c 0x0A 2 && decide (cmdField c 0x0C 1 ≤ 1) && zeroBytes c 0x0D 3 && zeroBytes c 0x18 40

/-- WAIT (R368). -/
def execWait (q : QNum) (c : Cmd) (s : State) : Out :=
  startCmd q c waitOk (fun _ => []) waitBody s

/-- Holds the command until every earlier command of its queue has completed. -/
def earlierDone : M Unit := do
  let r ← get
  if (r.s.queue r.q).started.isEmpty then pure () else throw (.hold .other)

/-- AtomicOp requests are enabled for a function: the enable of its physical function (R371). -/
def atomicOn (s : State) (f : Nat) : Bool := (s.func (f / 64 * 64)).atomicEnable

/-- SIGNAL (R361, R371, R373): SET or ADD on a semaphore of the module, or on one in host memory, after every earlier command of the queue; one that names a semaphore which is not LIVE ends at once. -/
def signalBody : M Unit := do
  let r ← get
  let add := (cmdField r.c 8 1).testBit 0
  let v := cmdField r.c 0x10 8
  if (cmdField r.c 8 1).testBit 1 then
    let a := cmdField r.c 0x18 8
    need (a % 8 == 0 && (!add || atomicOn r.s r.f)) stCmdInvalid
    earlierDone
    let old ← (if add then do
        let (w, s1) := drawWord (← getS)
        modS fun _ => s1
        pure w.toNat
      else pure 0)
    writeM 4 a (leBytes 8 (old + v))
  else
    let n := cmdField r.c 0x0C 4
    semM n
    earlierDone
    if add then modS fun s => semAdd s n (BitVec.ofNat 64 v) else modS fun s => semStore s n (BitVec.ofNat 64 v)

/-- The reserved fields of SIGNAL (R360). -/
def signalOk (c : Cmd) : Bool :=
  bits (cmdField c 8 1) 2 6 == 0 && zeroBytes c 9 3 && zeroBytes c 0x20 32 &&
    if (cmdField c 8 1).testBit 1 then zeroBytes c 0x0C 4 else zeroBytes c 0x0E 2 && zeroBytes c 0x18 8

/-- SIGNAL (R361, R371). -/
def execSignal (q : QNum) (c : Cmd) (s : State) : Out := startCmd q c signalOk (fun _ => []) signalBody s

/-- The commands of a job, by queue and index, that have started and have no record. -/
def jobStarted (s : State) (job : Nat) (q : QNum) : List (QNum × BitVec 16) :=
  ((queuesOf s job).filter (· != q)).flatMap fun k => (s.queue k).started.map fun w => (k, w.idx)

/-- FENCE (R361): the commands that its scope names have completed. -/
def fenceBody : M Unit := do
  let r ← get
  if (cmdField r.c 8 1).testBit 0 then
    let now := jobStarted r.s r.job r.q
    let on := match (r.s.queue r.q).hold with
      | .fence l => l.filter now.contains
      | _ => now
    if on.isEmpty && (r.s.queue r.q).started.isEmpty then pure () else throw (.hold (.fence on))
  else earlierDone

/-- The reserved fields of FENCE (R360). -/
def fenceOk (c : Cmd) : Bool := decide (cmdField c 8 1 ≤ 1) && zeroBytes c 9 55

/-- FENCE (R361). -/
def execFence (q : QNum) (c : Cmd) (s : State) : Out :=
  startCmd q c fenceOk (fun _ => []) fenceBody s

/-- BEAT_ALIGN (R39): WAIT holds until its slot begins, and counts NB_LATE where it came to the head after it, DEADLINE completes, SET_BASE sets the queue's beat base. -/
def alignBody : M Unit := do
  let r ← get
  let x := r.s.queue r.q
  match cmdField r.c 8 1 % 4 with
  | 0 =>
    match whenIs r.s false (x.target (alignBeat r.c)) (cmdField r.c 0x0C 1) with
    | .early => throw (.hold .other)
    | _ => if x.headLate (x.target (alignBeat r.c)) (cmdField r.c 0x0C 1) then modS fun s => bump s 5 0 1 1 else pure ()
  | 1 => pure ()
  | _ => modS fun s => s.setQueue r.q { s.queue r.q with base := s.schedBeat + BitVec.ofNat 48 (alignBeat r.c) }

/-- BEAT_ALIGN (R39). A marker is reached when its command comes to the head of its queue. -/
def execBeatAlign (q : QNum) (c : Cmd) (s : State) : Out :=
  let x := s.queue q
  let s := if headOpen s x (exeOf q x) && cmdField c 8 1 % 4 == 1 then reachMarker s q x.next else s
  startCmd q c beatAlignOk (fun _ => []) alignBody s

/-- A command whose opcode is unassigned at level 1 (R358): OPCODE_UNKNOWN, or LEVEL_MISMATCH before it. -/
def execUnassignedOpcode (q : QNum) (c : Cmd) (s : State) : Out :=
  startCmd q c (fun _ => true) (fun _ => []) (stopWith stOpcode) s

/-! ### Creating and destroying semaphores (R372) -/

/-- SEM_CREATE by function f: the status and the new state. -/
def semCreateAs (s : State) (f n : Nat) (v : BitVec 64) : Nat × State :=
  if !s.assignedTo 2 n f || decide (65536 ≤ n) then (stSemInvalid, s)
  else if (s.sem n).st = .live then (stHeld, s)
  else (stOk, s.setSem n ⟨v, .live, BitVec.ofNat 7 f⟩)

/-- SEM_DESTROY by a function, or by the management path, which acts as the owner. -/
def semDestroyAs (s : State) (f : Option Nat) (n : Nat) : Nat × State :=
  let x := s.sem n
  if decide (65536 ≤ n) || (match f with | some g => !s.assignedTo 2 n g | none => false) then (stSemInvalid, s)
  else match x.st with
    | .free => (stSemInvalid, s)
    | .orphaned => (stOk, s.setSem n {})
    | .live =>
      if f.isSome && f != some x.owner.toNat then (stHeld, s)
      else (stOk, failWaits (s.setSem n {}) n stSemInvalid)

/-- Ends a semaphore command with the status that an operation answered. -/
def semOp (g : State → Nat → Nat → Nat × State) : M Unit := do
  let r ← get
  let n := cmdField r.c 8 4
  let (st, s1) := g r.s r.f n
  if st = stOk then modS fun _ => s1
  else if st = stSemInvalid then stopAt st 6 n
  else stopWith st

/-- The reserved fields of SEM_CREATE and SEM_DESTROY (R372). -/
def semCreateOk (c : Cmd) : Bool := zeroBytes c 0x0C 4 && zeroBytes c 0x18 40
def semDestroyOk (c : Cmd) : Bool := zeroBytes c 0x0C 52

/-- SEM_CREATE (R372). -/
def execSemCreate (q : QNum) (c : Cmd) (s : State) : Out :=
  startCmd q c semCreateOk (fun _ => [])
    (semOp fun s f n => semCreateAs s f n (BitVec.ofNat 64 (cmdField c 0x10 8))) s

/-- SEM_DESTROY (R372). -/
def execSemDestroy (q : QNum) (c : Cmd) (s : State) : Out :=
  startCmd q c semDestroyOk (fun _ => []) (semOp fun s f n => semDestroyAs s (some f) n) s

/-! ### Deadlock -/

/-- A queue is blocked in the sense of R376, and how: the kind, semaphore or tensor, target of its snapshot entry. -/
def blockedAs (x : Queue) : Option (Nat × Nat × Nat) :=
  match x.hold with
  | .wait _ _ n eq t sat => if sat then none else some (if eq then 1 else 0, n.toNat, t.toNat)
  | .fill _ n t sat => if sat then none else some (0, n.toNat, t.toNat)
  | .maskRef id => some (2, id.toNat, 0)
  | _ => if x.next = x.tail && x.started.isEmpty then some (3, 0, 0) else none

/-- One snapshot entry of 32 bytes (R377). -/
def snapEntry (s : State) (q : QNum) : List Byte :=
  let x := s.queue q
  let (k, n, t) := (blockedAs x).getD (3, 0, 0)
  leBytes 2 q.toNat ++ leBytes 1 k ++ [0] ++ leBytes 4 n ++ leBytes 8 t ++
    leBytes 8 (if k < 2 then (s.sem n).value.toNat else 0) ++ leBytes 8 x.since.toNat

/-- DEADLOCK_TIMEOUT (R376, R377): the job's queues are all blocked, one at least by a WAIT or a mask reference, and the condition has not been raised since the last change; the snapshot is taken and DEADLOCK posted. -/
def execDeadlockTimeout (job : BitVec 32) (s : State) : Out :=
  let j := job.toNat
  match s.job? j with
  | none => .next s
  | some x =>
    let qs := queuesOf s j
    let ks := qs.map fun q => blockedAs (s.queue q)
    if x.deadlocked || x.aborting || ks.any Option.isNone || !(ks.any fun k => match k with | some (n, _) => n != 3 | none => false) then .next s
    else
      let es := qs.take 256
      let snap := leBytes 2 es.length ++ [0, 0] ++ leBytes 4 j ++ leBytes 8 s.time.tick.toNat ++ es.flatMap (snapEntry s)
      .next (postEvent (s.setJob j { x with deadlocked := true, snapshot := snap }) x.func.toNat 0x0003 j (leBytes 4 qs.length))

end Sys2Proof.Machine
end

