-- ==== Sys2Proof/Machine/OutputPath.lean ====
section
/-! DEFINITION. The output path of the matrix arrays (05 R132 to R140, 06 R169): its parameter block, its checks, the stages that turn accumulator entries into stored elements, and the tiles it writes. -/

namespace Sys2Proof.Machine

/-- The array operand formats (R79). -/
def arrayFmt (f : Nat) : Bool := [0x01, 0x02, 0x03, 0x04, 0x08, 0x09, 0x0A, 0x0B, 0x0C, 0x0D, 0x0E].contains f

/-- Class of an operand format, in order of rising rate: 0 H, 1 E, 2 Q, 3 T (R79). -/
def fmtClass (f : Nat) : Nat := if f = 0x0E then 3 else if f = 0x0C ∨ f = 0x0D then 2 else if f = 1 ∨ f = 2 then 0 else 1

/-- Layouts of rows that are vectors or dense tiles: CV32 and TILE_A (R319). -/
def rowLayout (t : TDesc) : Bool := t.layout == 1 || t.layout == 2
/-- Layouts that arrays and feeders accept: CV32 and the tiled ones (R319). -/
def arrayLayout (t : TDesc) : Bool := t.layout != 0

/-- The parameter block of R133, and the elements of its scale and bias vectors for the columns that are written, as a command reads them at its start (R140). -/
structure OutParams where
  scale : Option TDesc
  bias : Option TDesc
  scaleVals : Option (List Nat) := none
  biasVals : Option (List Nat) := none
  act : Nat
  compress : Bool
  lo : Nat
  hi : Nat
  deriving DecidableEq, Repr

/-- Reads the parameter block that a handle names in the core's near memory, by a descriptor without an index dimension (R133, R135, R326). -/
def outParams (h : Nat) : M OutParams := do
  let r ← get
  let t ← descM h
  need (t.tier == 0 && srcOk r.exe t) stCmdInvalid
  need (decide (t.base + 64 ≤ t.allocBase + t.allocLen)) stDescOob
  let b ← readM 0 t.base 64
  let f := byteField b
  need (bits (f 8 1) 3 5 == 0 && decide (f 9 1 ≤ 1) && f 0x0A 2 == 0 && f 0x14 44 == 0 && f 8 1 % 8 != 7) stReserved
  let sc ← descOpt (f 0 4)
  let bi ← descOpt (f 4 4)
  return { scale := sc, bias := bi, act := f 8 1 % 8, compress := f 9 1 == 1, lo := f 0x0C 4, hi := f 0x10 4 }

/-- Columns of a destination that rows of a width from a column can fill: those within its channel extent (R136, log entry 21). -/
def outCols (t : TDesc) (col width : Nat) : Nat := min width (t.chan - col)

/-- A scale or bias vector is an FP32 vector in the core's near memory that covers the destination columns (R97, R139). -/
def vectorOk (e : Exe) (last : Nat) : Option TDesc → Bool
  | none => true
  | some v => v.fmt == 0 && rowLayout v && v.rank == 1 && srcOk e v && decide (last ≤ v.chan)

/-- The destination of rows from an array: the core's near memory, CV32 or TILE_A, READ_WRITE (R97, R317, R319). -/
def outDescOk (e : Exe) (t : TDesc) : Bool := dstOk e t && rowLayout t

/-- The checks of R139, and that a compressed destination has tiles. -/
def outputCheck (t : TDesc) (p : OutParams) (row col n width : Nat) : M Unit := do
  let r ← get
  let last := col + outCols t col width
  need (!isGm16 t.fmt && !isIntFmt t.fmt
    && (t.block == 1 || col % 32 == 0)
    && (!p.compress || (row % 32 == 0 && n % 32 == 0 && t.layout == 2))
    && (p.act != 6 || (f32IsFinite p.lo && f32IsFinite p.hi && !fltb p.hi p.lo))
    && vectorOk r.exe last p.scale && vectorOk r.exe last p.bias) stCmdInvalid

/-- Reads a scale or bias vector's elements for n columns (R140). -/
def vectorVals (v : Option TDesc) (col n : Nat) : M (Option (List Nat)) :=
  match v with
  | none => pure none
  | some t => some <$> readRow t 0 col n

/-- Reads both vectors, once, at the start of the command (R140). -/
def readVectors (t : TDesc) (p : OutParams) (col width : Nat) : M OutParams := do
  let n := outCols t col width
  let sc ← vectorVals p.scale col n
  let bi ← vectorVals p.bias col n
  return { p with scaleVals := sc, biasVals := bi }

/-- The parameters of a command that drains n rows: the block, the checks of R139, and the vectors (R133, R139, R140). -/
def startOutput (t : TDesc) (h row col n width : Nat) : M OutParams := do
  let p ← outParams h
  outputCheck t p row col n width
  readVectors t p col width

/-- Stages 1 to 3 on one entry (R132, R134, R135). -/
def outStage (p : OutParams) (sc bi : Option (List Nat)) (j v : Nat) : Nat :=
  let v := match sc with
    | some l => fmul v (l.getD j 0)
    | none => v
  let v := match bi with
    | some l => fadd v (l.getD j 0)
    | none => v
  activate p.act p.lo p.hi v

/-- A row that leaves the accumulators: its number from the command's first row, its entries, and the mask epoch and weight that its header carries. -/
structure OutRow where
  i : Nat
  entries : List Nat
  epoch : Nat
  wid : Nat
  deriving DecidableEq, Repr

/-- The rows of a drain that are written, how many of their elements lie beyond the extents of the destination, and the first of these, as a linear index, where it stops the command (R329): with OOB_FAULT = 1 rows up to it are written, of a tile that waits for its 32nd row none. -/
def oobCut (t : TDesc) (compress : Bool) (row col width : Nat) (rows : List OutRow) : List OutRow × Nat × Option Nat :=
  let excess := width - outCols t col width
  let inside := fun (o : OutRow) => decide (row + o.i < t.rows)
  match (if t.oobFault then rows.find? fun o => decide (0 < excess) || !inside o else none) with
  | none => (rows.filter inside, (rows.map fun o => if inside o then excess else width).foldl (· + ·) 0, none)
  | some b =>
    (rows.filter fun o => inside o && decide (o.i ≤ b.i) && !(compress && decide ((row + o.i) / 32 = (row + b.i) / 32)), 0,
      some ((if inside b then max col t.chan else col) + t.chan * (row + b.i)))

/-- Packs codes of w bits into bytes (R59). -/
def packCodes (w : Nat) (codes : List Nat) : List Byte :=
  leBytes ((codes.length * w + 7) / 8) (codes.foldr (fun c n => c + 2 ^ w * n) 0)

/-- Rounds a length up to a multiple of 16. -/
def up16 (n : Nat) : Nat := (n + 15) / 16 * 16

/-- One whole TILE_A tile with COMPRESS: a BITMAP tile where that is smaller, else DENSE with DENSE_ESCAPE (R166, R169, R181). -/
def putCompressed (t : TDesc) (addr nonfin epoch tid : Nat) (rows : List (List Nat × Nat)) : M Unit := do
  let codes := rows.flatMap fun r => r.1 ++ List.replicate (32 - r.1.length) 0
  let scales := if t.tileScales = 0 then [] else rows.map fun r => BitVec.ofNat 8 r.2
  let kept := codes.filter fun c => !zeroCode t c
  let vals := packCodes t.width kept
  let vals := vals ++ List.replicate (up16 vals.length - vals.length) 0
  if 16 + t.tileScales + 128 + vals.length < t.slotSize then
    countM 7 1
    let bm := packCodes 1 (codes.map fun c => if zeroCode t c then 0 else 1)
    writeM t.tier addr (hdrBytes 2 t.fmt nonfin epoch kept.length tid ++ scales ++ bm ++ vals)
  else
    countM 8 1
    writeM t.tier addr (hdrBytes 1 t.fmt (nonfin + 128) epoch kept.length tid ++ scales ++ packCodes t.width codes)

/-- The rows of a command that fall into one row of tiles, narrowed and compressed for the tile at column c0. Columns of the tile that the command does not write become +0: this model's choice for a first or last tile of which it writes only a part (R137, log entry 96). -/
def compressTile (t : TDesc) (k : Fmt) (row0 col c0 : Nat) (rows : List (Nat × OutRow × List Nat)) : M Unit := do
  let cut := fun (l : List Nat) => (l.drop (c0 - col)).take (min 32 (t.chan - c0) - (col - c0))
  let out ← mapEach (List.range 32) fun i =>
    match rows.find? fun e => e.1 == row0 + i with
    | none => pure (List.replicate 32 0, 0, false)
    | some (row, o, vals) => do
      let ps ← narrowRow t k row (max c0 col) (cut vals) none none
      let lead := List.replicate (max c0 col - c0) 0
      return (lead ++ (ps.map fun p => p.2.codes).flatten, (ps.map fun p => p.2.scale).headD 0,
        (ps.any fun p => p.2.nonfin != 0) || (cut (o.entries.take vals.length)).any fun v => !f32IsFinite v)
  let tag := (rows.getLast?.map fun e => (e.2.1.epoch, e.2.1.wid)).getD (0, 0)
  putCompressed t (t.slotAddr row0 c0) (if out.any fun o => o.2.2 then 64 else 0) tag.1 tag.2 (out.map fun o => (o.1, o.2.1))

/-- The same tile written dense: rows and columns that the command does not write keep their stored elements; padding of a tile wholly written is +0. A tile of which only a part is written keeps the NONFINITE flag of its old header, and takes the epoch and tensor identifier of the new rows: this model's choice (R137, log entry 97). -/
def denseTile (t : TDesc) (k : Fmt) (raw : Bool) (row0 col c0 : Nat) (rows : List (Nat × OutRow × List Nat)) : M Unit := do
  let addr := t.slotAddr row0 c0
  let width := (rows.head?.map fun e => e.2.2.length).getD 0
  let rowsHere := min 32 (t.rows - row0)
  let whole := rows.length == rowsHere && decide (col ≤ c0) && decide (min (c0 + 32) t.chan ≤ col + width)
  let old := parseHdr (← peekM t.tier addr 16)
  if whole then clearTile t addr
  let cut := fun (l : List Nat) => (l.drop (c0 - col)).take (min 32 (t.chan - c0) - (col - c0))
  let flags ← mapEach rows fun e => do
    let seg := cut e.2.2
    if raw then
      putCodes t e.1 (max c0 col) seg 0
      padRow t e.1 (max c0 col + seg.length)
      evidenceM t (seg.any fun v => !f32IsFinite v)
      return false
    else
      let f ← writeRow t e.1 (max c0 col) seg
      return f || (cut (e.2.1.entries.take width)).any fun v => !f32IsFinite v
  let tag := (rows.getLast?.map fun e => (e.2.1.epoch, e.2.1.wid)).getD (0, 0)
  let keep := !whole && old.kind == 1 && old.level == 1 && old.fmt == k.code && old.nonfinite
  putDenseHdr t addr (if keep || flags.any id then 64 else 0) tag.1 tag.2

/-- Writes rows to their destination in ascending order (R132 to R138). Without parameters the entries are written as they stand (R129). Elements beyond the destination's extents are not stored (R329, log entry 21). -/
def drainRows (t : TDesc) (p : Option OutParams) (row col width : Nat) (all : List OutRow) : M Unit := do
  let n := outCols t col width
  let compress := (p.map (·.compress)).getD false
  let (rows, lost, stop) := oobCut t compress row col width all
  let vals ← match p with
    | none => pure (rows.map fun o => o.entries.take n)
    | some p => do
      let bad := (all.map fun o => (o.entries.filter fun v => !f32IsFinite v).length).foldl (· + ·) 0
      countM 5 bad
      evidenceM t (bad != 0)
      pure (rows.map fun o => (o.entries.take n).zipIdx.map fun e => outStage p p.scaleVals p.biasVals e.2 e.1)
  match fmtOf t.fmt with
  | none => stopWith stCmdInvalid
  | some k => do
    let inside := (rows.zip vals).map fun e => (row + e.1.i, e.1, e.2)
    if n = 0 then pure ()
    else if t.layout = 2 then
      forEach (inside.map fun e => e.1 / 32).dedup fun g => do
        let mine := inside.filter fun e => e.1 / 32 == g
        forEach (rangeFrom (col / 32) ((col + n + 31) / 32 - col / 32)) fun ct =>
          if compress then compressTile t k (32 * g) col (32 * ct) mine
          else denseTile t k p.isNone (32 * g) col (32 * ct) mine
    else
      forEach inside fun e =>
        if p.isNone then do
          putCodes t e.1 col e.2.2 0
          padRow t e.1 (col + n)
          evidenceM t (e.2.2.any fun v => !f32IsFinite v)
        else do
          let _ ← writeRow t e.1 col e.2.2
          pure ()
    countM 22 lost
    match stop with
      | some i => stopAt stDescOob 3 i
      | none => pure ()

end Sys2Proof.Machine
end

