-- ==== Sys2Proof/Machine/Repair.lean ====
section
/-! DEFINITION. Spare rows and their repair (04 R105 to R112), and the offer of a core for replacement (19 R524, R528). -/

namespace Sys2Proof.Machine

/-! ### Core replacement: its start (R109, R524) -/

/-- CORE_STATUS: state, spares left on a die, low bits of the request (R528). -/
def coreStatusOf (s : State) (st die req : Nat) : BitVec 32 :=
  let gone := s.trust.sparesGone.getD die 0
  let left := (if gone.getLsbD 0 then 0 else 1) + if gone.getLsbD 1 then 0 else 1
  BitVec.ofNat 32 (st * 2 ^ 30 + left * 2 ^ 24 + req % 256)

/-- A spare core of a die that no replacement has under test: its physical number. -/
def freeSpare (s : State) (die : Nat) : Option Nat :=
  [32, 33].find? fun p =>
    !(s.trust.sparesGone.getD die 0).getLsbD (p - 32) && !(s.trust.repl.any fun r => r.core.toNat / 32 == die && r.spare.toNat == p)

/-- The request word of a core: bits [9:8] die, [4:0] logical core. -/
def coreReq (core : Nat) : Nat := core / 32 * 256 + core % 32

/-- No quiet point of an array of a core has come yet (R108, R524). -/
def unholdCore (s : State) (core : Nat) : State :=
  (rangeFrom (4 * core) 4).foldl (fun s a => if (s.array a).held then s.setArray a { s.array a with held := false } else s) s

/-- Starts the replacement of a core with the self-test of a spare; where its die has none, the test ends with nothing to pass (R524, R525). -/
def startRepl (s : State) (core : Nat) : State :=
  let s := unholdCore s core
  { s with trust := { s.trust with
    repl := s.trust.repl ++ [{ core := BitVec.ofNat 7 core, spare := BitVec.ofNat 6 ((freeSpare s (core / 32)).getD 63) }]
    coreStatus := coreStatusOf s 1 (core / 32) (coreReq core) } }

/-- The offer of R109: carried out while CORE_AUTO is 1. -/
def offerCore (s : State) (core : Nat) : State :=
  if s.reg 0x6840 3 = 1 && !(s.trust.repl.any fun r => r.core.toNat == core) then startRepl s core else s

/-! ### Repair requests (R107, R112) -/

/-- Arrays whose request waits for a quiet point. -/
def pendingRepairs (s : State) : Nat := (s.arrays.filter fun e => e.2.repair.isSome && !e.2.recorded).length

/-- The fields of REPAIR_STATUS that a request fixes, with PENDING zero (R112). -/
def repairStatusOf (a row src res : Nat) : BitVec 32 := BitVec.ofNat 32 (res * 2 ^ 26 + src * 2 ^ 24 + a * 64 + row)

/-- A value of REPAIR_STATUS with PENDING as it stands (R112). -/
def withPending (s : State) (st : BitVec 32) : Nat := st.toNat + min 255 (pendingRepairs s) * 2 ^ 16

/-- Records the latest request, and its black-box record (R107, R108, R505). -/
def noteRepair (s : State) (a row src res : Nat) (bb : Bool) : State :=
  let st := repairStatusOf a row src res
  let s := { s with repairStatus := st }
  if bb then bbWrite s 0x0004 8 a (leBytes 4 (withPending s st) ++ leBytes 1 row) else s

/-- A request that was pending ends: REPAIR_STATUS shows it while it is still the most recent one, and the black box keeps it (R108, R112). -/
def endRepair (s : State) (a row src res : Nat) : State :=
  let st := repairStatusOf a row src res
  let s := if s.repairStatus = repairStatusOf a row src 1 then { s with repairStatus := st } else s
  bbWrite s 0x0004 8 a (leBytes 4 (withPending s st) ++ leBytes 1 row)

/-- The spare row is in service in place of a logical row, which the repair record keeps (R103, R105, R108). -/
def switchRow (s : State) (a row : Nat) : State :=
  let s := s.setArray a { s.array a with repair := none, recorded := false, spare := 1, sparedRow := BitVec.ofNat 8 row, latency := 7 }
  { s with trust := { s.trust with record := s.trust.record ++ [.row a (BitVec.ofNat 6 row)] } }

/-- Raises a repair request from a source: 0 check fault, 1 REPAIR_REQUEST, 2 row test. A check fault is only recorded while AUTO_REPAIR is 0 (R107). -/
def raiseRepair (s : State) (a row src : Nat) : State :=
  let x := s.array a
  let auto := src != 0 || s.reg 0x4820 3 == 1
  if auto then
    noteRepair (s.setArray a { x with repair := some (BitVec.ofNat 6 row, BitVec.ofNat 2 src), recorded := false, held := false }) a row src 1 false
  else if x.repair.isSome && !x.recorded then noteRepair s a row src 0 true
  else noteRepair (s.setArray a { x with repair := some (BitVec.ofNat 6 row, 0), recorded := true }) a row src 0 true

/-- A write of REPAIR_REQUEST: status and new state (R111, R112). -/
def repairWrite (s : State) (v : Nat) : Nat × State :=
  if v ≥ 65536 then (stReserved, s)
  else
    let a := v / 64
    if a ≥ 512 then (stReserved, s)
    else if (s.array a).spare = 3 then (stOffline, s)
    else (stOk, raiseRepair s a (v % 64) 1)

/-- ROW_TEST_TIMER (R107): the service firmware's test of an array's rows, and the row that failed. -/
def execRowTestTimer (a : ArrayNum) (row : Option (BitVec 6)) (s : State) : Out :=
  match row with
  | none => .next s
  | some r => .next (if !s.trust.sfUp || (s.array a.toNat).spare = 3 then s else raiseRepair s a.toNat r.toNat 2)

/-! ### Quiet points (R108, R109) -/

/-- Queue of an array. -/
def arrayQueue (a : Nat) : QNum := BitVec.ofNat 15 (a / 4 * 16 + a % 4)

/-- The array stands at a quiet point: a command boundary with no row resident, and LOAD_STAT next or the queue empty; an aborted queue is empty, and one whose empty queue was the quiet point is held there (R108, R383). -/
def arrayQuiet (s : State) (a : Nat) : Bool × State :=
  let x := s.queue (arrayQueue a)
  if !(s.array a).resident.isEmpty || x.started.any (!·.done) then (false, s)
  else if x.st = .free || x.st = .aborted || x.next = x.tail || heldQuiet s (exeOf (arrayQueue a) x) then (true, s)
  else
    let (b, s') := ringEntry s x x.next
    (match b with
      | some l => byteField l 0 1 == 0x12
      | none => false, s')

/-- The array goes out of service (R109). -/
def arrayOut (s : State) (a : Nat) : State := s.setArray a { s.array a with repair := none, recorded := false, spare := 3 }

/-- Steps 2 to 7 of R108. -/
def doRepair (s : State) (a row src : Nat) (pass : Bool) : State :=
  let s := dropTileRef s a
  let x := s.array a
  let s := s.setArray a { x with tile := none, held := false }
  if !pass || x.spare = 1 || x.spare = 2 then offerCore (endRepair (arrayOut s a) a row src 3) (a / 4)
  else endRepair (switchRow s a row) a row src 2

/-- REPAIR_QUIET_POINT (R108, R109): an array with a pending request reaches a quiet point; `sparePass` is the outcome of the spare row's self-test. During a live handover the repair stays pending, for the new instance (R520, R527). -/
def execRepairQuietPoint (a : ArrayNum) (sparePass : Bool) (s : State) : Out :=
  let n := a.toNat
  match (s.array n).repair with
  | none => .next s
  | some (row, src) =>
    if (s.array n).recorded || s.trust.handover.isSome then .next s
    else
      let (quiet, s) := arrayQuiet s n
      .next (if quiet then doRepair s n row.toNat src.toNat sparePass else s)

end Sys2Proof.Machine
end

