-- ==== Sys2Proof/Machine/Arrays.lean ====
section
/-! DEFINITION. The matrix arrays (04, 05 R113 to R131, 06 R154 to R179): LOAD_STAT, MMUL and MMUL_T in every form and feed mode, the accumulators with long sums, PRELOAD_ACC and DRAIN. -/

namespace Sys2Proof.Machine

/-! ### Accumulators (R84, R85) -/

/-- Orientation (true: MMUL_T) and width 128 of an accumulator set. -/
abbrev AccSet := Bool × Bool

def setWidth (m : AccSet) : Nat := if m.2 then 128 else 64
/-- Racc, the rows that can stay resident (R80). -/
def racc (m : AccSet) : Nat := 16384 / setWidth m

/-- Number of the entry that holds output element j of accumulator row a, 4 (64 row + column) + entry (R84). -/
def accKey (m : AccSet) (a j : Nat) : Nat :=
  if !m.1 then 4 * (64 * (a % 64) + j) + a / 64
  else if m.2 then 4 * (64 * (j / 2) + a % 64) + 2 * (a / 64) + j % 2
  else 4 * (64 * j + a % 64) + a / 64

/-- The entries of an accumulator row. -/
def readAcc (x : ArrayState) (m : AccSet) (a : Nat) : List Nat :=
  (List.range (setWidth m)).map fun j => (tget 0 x.acc (accKey m a j)).toNat

/-- Stores the entries of an accumulator row. -/
def writeAcc (x : ArrayState) (m : AccSet) (a : Nat) (l : List Nat) : ArrayState :=
  { x with acc := l.zipIdx.foldl (fun t e => tput (accKey m a e.2) (BitVec.ofNat 32 e.1) t) x.acc }

/-- The row is resident. -/
def isRes (x : ArrayState) (a : Nat) : Bool := tget false x.resident a

/-- A row becomes resident with its output-valid bit set, in a set of this orientation and width (R85, R104). -/
def makeRes (x : ArrayState) (m : AccSet) (a : Nat) : ArrayState :=
  { x with resident := tput a true x.resident, valid := tput a true x.valid, set := some m }

/-- A row stops being resident; an empty set has no orientation (R85). Its output-valid bit stands until the row's next first update (R104). -/
def dropRes (x : ArrayState) (a : Nat) : ArrayState :=
  let r := tdel a x.resident
  { x with resident := r, set := if r.isEmpty then none else x.set }

/-- Rows of another orientation or width are resident. -/
def otherSet (x : ArrayState) (m : AccSet) : Bool := x.set.isSome && x.set != some m

/-- The array of the running command. -/
def arrayM : M Nat := do
  match (← get).exe.array? with
  | some a => return a
  | none => stopWith stCmdInvalid

/-- Changes the array of the running command. -/
def modArray (a : Nat) (g : ArrayState → ArrayState) : M Unit := modS fun s => s.setArray a (g (s.array a))

/-! ### LOAD_STAT (R91 to R94, R157 to R160, R165) -/

/-- The reserved fields of LOAD_STAT. -/
def loadStatOk (c : Cmd) : Bool := bits (cmdField c 0x16 1) 2 6 == 0 && cmdField c 0x16 1 != 3 && zeroBytes c 0x17 41

/-- What LOAD_STAT reads: codes by cell of the elements that are stored and lie within K_EXT and N_EXT, selects by cell, pattern fields by block, weight scales by 4 column + register, and the headers of its tiles with their addresses. -/
structure StatLoad where
  codes : List (Nat × Nat)
  sels : List (Nat × Nat)
  pats : List (Nat × Nat)
  scales : List (Nat × Nat)
  hdrs : List (Nat × Hdr)
  deriving DecidableEq, Repr

/-- Tiles of TILE_A that a rectangle of rows and channels touches. -/
def tilesOfA (t : TDesc) (n0 n k0 k : Nat) : List Nat :=
  (rangeFrom (n0 / 32) ((n0 + n + 31) / 32 - n0 / 32)).flatMap fun g =>
    (rangeFrom (k0 / 32) ((k0 + k + 31) / 32 - k0 / 32)).map fun h => t.slotAddr (32 * g) (32 * h)

/-- Codes, scale bytes and presence of n channels of a row: as `readCodes`, with the scale of a block also at elements that a BITMAP tile does not store. -/
def denseElems (t : TDesc) (row c0 n : Nat) : M (List (Nat × Nat × Bool)) := do
  if t.layout = 2 then
    let parts ← mapEach (rangeFrom (c0 / 32) ((c0 + n + 31) / 32 - c0 / 32)) fun v => do
      let tile ← readTileA t (t.slotAddr row (32 * v))
      let sc := tile.scales.getD (row % 32) 0
      return ((tile.codes.getD (row % 32) []).zip (tile.stored.getD (row % 32) [])).map fun e => (e.1, sc, e.2)
    return (parts.flatten.drop (c0 % 32)).take n
  else return (← readCodes t row c0 n).map fun e => (e.1, e.2, true)

/-- FORM of LOAD_STAT that a header's KIND is of; none for an invalid KIND (R92, R165). -/
def formOfKind (kind : Nat) : Option Nat := if kind = 1 ∨ kind = 2 then some 0 else if kind = 3 then some 1 else if kind = 4 then some 2 else none

/-- A header that LOAD_STAT reads: CMD_INVALID where its form is not FORM, or where it carries DENSE_ESCAPE and FORM is not 0 (R92), before the checks of every reader (R165). -/
def statHdr (t : TDesc) (form a : Nat) : M (Nat × Hdr) := do
  let h := parseHdr (← readM t.tier a 16)
  need ((match formOfKind h.kind with | some k => k == form | none => true) && (!h.escape || form == 0)) stCmdInvalid
  checkHdr t h a
  return (a, h)

/-- A dense tile: output positions are rows, reduced positions channels (R160, R163). -/
def loadDense (t : TDesc) (ko no kext next : Nat) : M StatLoad := do
  let hdrs ← if t.layout = 2 then mapEach (tilesOfA t no next ko kext) (statHdr t 0) else pure []
  let cols ← mapEach (List.range next) fun n => do
    let l ← denseElems t (no + n) ko kext
    countReads t ko (l.map fun e => (e.1, e.2.1))
    return (n, l)
  let codes := cols.flatMap fun (n, l) => (l.zipIdx.filter fun e => e.1.2.2).map fun e => (64 * e.2 + n, e.1.1)
  let scales := cols.flatMap fun (n, l) => (List.range 4).filterMap fun i =>
    (l[32 * i]?).map fun e => (4 * n + i, if t.block = 1 then 127 else e.2.1)
  return ⟨codes, [], [], scales, hdrs⟩

/-- The matrix of a stack and the output position in it that N_OFF runs over (R91, R321; log entry 22). -/
def stackPos (t : TDesc) (n : Nat) : Nat × Nat := (n / t.ext.getD 1 1, n % t.ext.getD 1 1)

/-- A 2:4 tile: quads of four output positions, groups of four reduced positions (R157, R170). -/
def loadSparse (t : TDesc) (form ko no kext next : Nat) : M StatLoad := do
  let groups := (kext + 3) / 4
  let tileAt := fun n k => let (e, m) := stackPos t n; t.wslotAddr k m e
  let quads := (List.range next).map fun n => no + n
  let addrs := (quads.flatMap fun n => [tileAt n ko, tileAt n (ko + kext - 1)]).dedup
  let hdrs ← mapEach addrs (statHdr t form)
  let per ← mapEach (rangeFrom (no / 4) ((no + next + 3) / 4 - no / 4)) fun q => do
    let n0 := 4 * q
    let qi := (stackPos t n0).2 % 512 / 4
    let q1 ← readQuad t (tileAt n0 ko) qi
    let q2 ← if tileAt n0 (ko + kext - 1) = tileAt n0 ko then pure q1 else readQuad t (tileAt n0 (ko + kext - 1)) qi
    let first := tileAt n0 ko
    let pick := fun (k : Nat) => if tileAt n0 k = first then q1 else q2
    let poss := (List.range 4).filter fun c => decide (no ≤ n0 + c) && decide (n0 + c < no + next)
    let vals := poss.flatMap fun c => (List.range groups).flatMap fun g =>
      (List.range 2).map fun r =>
        let k := ko + 4 * g
        let qd := pick k
        let slot := 2 * (k % 128 / 4) + r
        let p := (qd.kpos.getD c []).getD slot 0 % 4
        let code := (qd.codes.getD c []).getD slot 0
        (64 * (2 * g + r) + (n0 + c - no), p, if 4 * g + p < kext then some code else none)
    let scales := poss.flatMap fun c => ((List.range 4).filter fun i => decide (32 * i < kext)).map fun i =>
      let k := ko + 32 * i
      (4 * (n0 + c - no) + i, if t.block = 1 then 127 else ((pick k).scales.getD (2 * c + k % 128 / 64) 127))
    let pats := if t.twKind then [] else (List.range groups).map fun g =>
      let k := ko + 4 * g
      (16 * g + (n0 - no) / 4, (pick k).pats.getD (k % 128 / 4) 0)
    return (vals, scales, pats)
  let vals := per.flatMap fun e => e.1
  if t.fmt = 0x0E then countM 3 (vals.filter fun e => e.2.2 == some 2).length
  return ⟨vals.filterMap fun e => e.2.2.map fun v => (e.1, v), vals.map fun e => (e.1, e.2.1), per.flatMap fun e => e.2.2, per.flatMap fun e => e.2.1, hdrs⟩

/-- The one weight and epoch that the MASKED tiles name (R165). -/
def maskedOf (t : TDesc) : List (Nat × Hdr) → Option (Nat × Nat) → M (Option (Nat × Nat))
  | [], r => pure r
  | (a, h) :: rest, r =>
    if !h.masked then maskedOf t rest r
    else match r with
      | none => maskedOf t rest (some (h.tid, h.epoch))
      | some m => if m = (h.tid, h.epoch) then maskedOf t rest r else tileInvalid t a

/-- A tile epoch against the registry's (R205): EPOCH_STALE with the tile's epoch, and bit 30 where the tile is ahead. -/
def epochCheck (e tile : Nat) : M Unit :=
  if tile = e then pure ()
  else do
    let d := (tile + 65536 - e) % 65536
    modW fun w => { w with opspec := BitVec.ofNat 32 (tile + if 1 ≤ d ∧ d ≤ 32767 then 2 ^ 30 else 0) }
    stopWith stEpochStale

/-- A reference on a masked weight that the command, or its array, takes: held while a commit of the weight waits or runs (R206, R207). -/
def idleMask (id : Nat) : M MaskEntry := do
  let s ← getS
  match tfind s.masks id with
  | none => stopWith stCmdInvalid
  | some e => if e.st = .idle then return e else throw (.hold (.maskRef (BitVec.ofNat 32 id)))

/-- A table of the listed entries whose values are not the default, in key order. -/
def tabOf {α : Type} [DecidableEq α] (d : α) (l : List (Nat × α)) : Tab α :=
  l.foldl (fun t e => if e.2 = d then t else tput e.1 e.2 t) []

/-- UNCORRECTABLE from an array's own checks: its location, and the repair request (R101, R363). A fault in a column names no row: the row of the request is open (log entry 23). -/
def checkFault (a : Nat) (f : CheckFault) : M Unit := do
  let row ← if f.col then do
      let (w, s) := drawWord (← getS)
      modS fun _ => s
      pure (w.toNat % 64)
    else pure f.idx.toNat
  modS fun s => raiseRepair s a row 0
  stopAt stUncorrectable 4 (f.idx.toNat * 65536 + a * 64 + if f.col then 32 else 0)

/-- Ends a command with the fault that the array's checks found in it, if any. -/
def checked (a : Nat) (chk : Option CheckFault) : M Unit :=
  match chk with
  | none => pure ()
  | some f => checkFault a f

/-- LOAD_STAT (R91 to R94, R165). -/
def loadStatBody (chk : Option CheckFault) : M Unit := do
  let r ← get
  let a ← arrayM
  let t ← descM (cmdField r.c 8 4)
  let ko := cmdField r.c 0x0C 4
  let no := cmdField r.c 0x10 4
  let kext := cmdField r.c 0x14 1
  let next := cmdField r.c 0x15 1
  let form := cmdField r.c 0x16 1
  let depth := if form = 0 then 64 else 128
  let kindOk := if form = 0 then rowLayout t else t.layout == 3
  need (srcOk r.exe t && arrayFmt t.fmt && kindOk && ko % 32 == 0 && no % 4 == 0
    && decide (1 ≤ kext) && decide (kext ≤ depth) && decide (1 ≤ next) && decide (next ≤ 64)) stCmdInvalid
  let nmax := if form = 0 then t.rows else (t.ext.drop 1).foldl (· * ·) 1
  need (decide (ko + kext ≤ t.chan) && decide (no + next ≤ nmax)) stDescOob
  modS fun s => leaveTile s r.q a
  let l ← if form = 0 then loadDense t ko no kext next else loadSparse t form ko no kext next
  let m ← maskedOf t l.hdrs none
  match m with
  | none => pure ()
  | some (id, ep) => do
    let e ← idleMask id
    epochCheck e.epoch.toNat ep
    modS fun s => { s with masks := tput id { e with refs := e.refs + 1 } s.masks }
  let s ← getS
  let wid := (m.map (·.1)).getD t.tid
  let ep := (m.map (·.2)).getD 0
  let raw := (tget ⟨0, false, []⟩ (s.job r.job).descs t.handle)
  -- a RELEASE of an earlier product does not reach the new tile (R94, R97)
  modS fun s => s.setQueue r.q { s.queue r.q with started := (s.queue r.q).started.map fun w => { w with release := false } }
  modArray a fun x => { x with
    stat := l.codes.foldl (fun t e => tput e.1 (BitVec.ofNat 16 e.2) t) []
    sel := tabOf 0 (l.sels.map fun e => (e.1, BitVec.ofNat 2 e.2))
    pat := tabOf 0 (l.pats.map fun e => (e.1, BitVec.ofNat 7 e.2))
    wscale := tabOf 0 (l.scales.map fun e => (e.1, BitVec.ofNat 8 e.2))
    tile := some { form := BitVec.ofNat 2 form, kExt := kext, nExt := next, fmt := BitVec.ofNat 8 t.fmt, wId := BitVec.ofNat 32 wid,
                   epoch := BitVec.ofNat 16 ep, masked := m.isSome, ref := m.isSome, released := false, desc := raw, kOff := ko, nOff := no } }
  checked a chk

/-- The handle of LOAD_STAT. -/
def loadStatHandles (c : Cmd) : List Nat := [cmdField c 8 4]

/-- LOAD_STAT (R93). -/
def execLoadStat (q : QNum) (c : Cmd) (chk : Option CheckFault) (s : State) : Out :=
  startCmd q c loadStatOk loadStatHandles (loadStatBody chk) s

/-! ### Operand rows (R89, R90, R174) -/

/-- +0 with scale exponent -127 (R90). -/
def plusZero : FeedElem := ⟨0, 0, true⟩

/-- n elements of a row from a channel, with scale exponent 0 in a format without block scales; +0 beyond the channel extent (R86, R90). -/
def fetchRow (t : TDesc) (row k0 n : Nat) : M (List FeedElem) := do
  let have' := min n (t.chan - k0)
  let l ← if have' = 0 then pure [] else readCodes t row k0 have'
  countReads t k0 l
  return l.map (fun e => ⟨BitVec.ofNat 16 e.1, if t.block = 1 then 127 else BitVec.ofNat 8 e.2, true⟩) ++ List.replicate (n - have') plusZero

/-- The window's fields (R95). -/
def windowRow (t : TDesc) (c : Cmd) (m n : Nat) : M (List FeedElem) := do
  let f := fun o => cmdField c o 1
  let ow := m % cmdField c 0x3A 2
  let u := m / cmdField c 0x3A 2
  let oh := u % cmdField c 0x38 2
  let img := u / cmdField c 0x38 2
  let ih : Int := (oh * f 0x30 + f 0x36 * f 0x32 : Nat) - (f 0x34 : Int)
  let iw : Int := (ow * f 0x31 + f 0x37 * f 0x33 : Nat) - (f 0x35 : Int)
  let w := t.ext.getD 1 1
  let h := t.ext.getD 2 1
  if ih < 0 || iw < 0 || decide ((h : Int) ≤ ih) || decide ((w : Int) ≤ iw) then return List.replicate n plusZero
  else fetchRow t (iw.toNat + w * (ih.toNat + h * img)) (cmdField c 0x20 4) n

/-- Bits of a bitmap row from a channel (R174). -/
def bitmapRow (t : TDesc) (row k0 n : Nat) : M (List Bool) := do
  let l ← readCodes t row (k0 / 8) ((k0 + n + 7) / 8 - k0 / 8)
  return (rangeFrom k0 n).map fun k => ((l.getD (k / 8 - k0 / 8) (0, 0)).1).testBit (k % 8)

/-! ### Row feeders (R86 to R88, R158) -/

/-- Operand rows that one issue takes, by class (R79, R86). -/
def issueRows (cls : Nat) : Nat := if cls = 3 then 4 else if cls = 2 then 2 else 1

/-- Feeder of a logical row or column: in MMUL the spare row's feeder, 64, in place of that of the row it replaces, which stays idle; in MMUL_T feeders 0 to 63 drive the columns (R87). -/
def feederOf (x : ArrayState) (tr : Bool) (i : Nat) : Nat := if !tr && x.spare == 1 && x.sparedRow.toNat == i then 64 else i

/-- Elements of one operand row in an entry: two under a 2:4 form in MMUL, else one (R86, R158). -/
def feedWidth (tr : Bool) (form : Nat) : Nat := if tr || form == 0 then 1 else 2

/-- The fetcher writes the operand rows of one issue into the in-service feeders, each of which has room for 16 entries (R86 to R88, R158). -/
def pushIssue (tr : Bool) (form : Nat) (rows : List (List FeedElem)) (x : ArrayState) : ArrayState :=
  let w := feedWidth tr form
  { x with feeders := (List.range 64).foldl (fun t i =>
      let l := tget [] t (feederOf x tr i)
      if l.length < 16 then tput (feederOf x tr i) (l ++ [rows.flatMap fun v => (List.range w).map fun k => v.getD (w * i + k) plusZero]) t else t) x.feeders }

/-- The operand rows that the entries at the heads of the in-service feeders hold: n rows of one issue (R86, R88). -/
def headIssue (tr : Bool) (form n : Nat) (x : ArrayState) : List (List FeedElem) :=
  let w := feedWidth tr form
  let lines := (List.range 64).map fun i => (tget [] x.feeders (feederOf x tr i)).headD []
  (List.range n).map fun r => lines.flatMap fun l => (l.drop (w * r)).take w

/-- All in-service feeders issue together (R88). -/
def popIssue (x : ArrayState) : ArrayState :=
  { x with feeders := (x.feeders.map fun e => (e.1, e.2.tail)).filter fun e => !e.2.isEmpty }

/-! ### Sums (R113 to R115, R158, R159) -/

/-- A loaded tile as its cells hold it: value and reduced position of the cell at row p and column c. -/
structure Cells where
  val : Nat → Nat → FVal
  pos : Nat → Nat → Nat

/-- The cells of an array (R157, R160); a cell that is not listed holds +0 (R93, R166). -/
def cellsOf (x : ArrayState) (t : Tile) : Cells :=
  let k := (fmtOf t.fmt.toNat).getD ⟨0, 8, 0, 0, 0, none, false, 1⟩
  let pos := fun p c => if t.form = 0 then p else 4 * (p / 2) + (tget 0 x.sel (64 * p + c)).toNat
  { pos := pos
    val := fun p c =>
      match tfind x.stat (64 * p + c) with
      | none => .fin false 0 0
      | some code => decodeElem k (tget 0 x.wscale (4 * c + pos p c / 32)).toNat code.toNat }

/-- The 64-leaf tree (R114). -/
def treeSum (l : List Nat) : Nat := treeOf fadd 6 l

/-- Sums of one operand row, elements in format k: by columns in MMUL, by rows in MMUL_T; an inactive element of match mode is a leaf of +0 (R178). An active element at a position of a dense tile without a nonzero weight is multiplied as in linear mode, by R178; the comment of R177's pseudocode would enter +0 for its lane (log entry 95). -/
def rowSums (cs : Cells) (form : Nat) (tr : Bool) (k : Fmt) (v : List FeedElem) : List Nat :=
  let el := fun i => let e := v.getD i plusZero; decodeElem k e.exp.toNat e.code.toNat
  let on := fun i => (v.getD i plusZero).on
  if !tr then
    (List.range 64).map fun c => treeSum ((List.range 64).map fun p =>
      if on (cs.pos p c) then mulVal (cs.val p c) (el (cs.pos p c)) else 0)
  else if form = 0 then
    (List.range 64).map fun k => treeSum ((List.range 64).map fun c => mulVal (cs.val k c) (el c))
  else
    (List.range 128).map fun k => treeSum ((List.range 64).map fun c =>
      match [2 * (k / 4), 2 * (k / 4) + 1].find? fun p => cs.pos p c == k with
      | some p => mulVal (cs.val p c) (el c)
      | none => 0)

/-! ### Match mode (R173 to R179) -/

/-- Lanes of the tile: cell rows, or pairs of them under the 2:4 forms. -/
def laneOf (form k : Nat) : Nat := if form = 0 then k else k / 4

/-- The weight flags wp(k) (R175). -/
def weightFlags (x : ArrayState) (t : Tile) : List Bool :=
  let cs := cellsOf x t
  let td := fun (code : Nat) => if t.fmt = 0x0E then code % 2 == 0 else code % 2 ^ ((widthOf t.fmt.toNat).getD 8 - 1) == 0
  (List.range t.kExt).map fun k =>
    if t.form = 0 then (List.range t.nExt).any fun c => !td (tget 0 x.stat (64 * k + c)).toNat
    else (List.range t.nExt).any fun c => [2 * (k / 4), 2 * (k / 4) + 1].any fun p => cs.pos p c == k

/-- Need set of a row, as its lanes (R175). -/
def needSet (form : Nat) (wp act : List Bool) : List Nat :=
  (((wp.zip act).zipIdx.filter fun e => e.1.1 && e.1.2).map fun e => laneOf form e.2).dedup

/-- The walker fills: rows enter while fewer than 16 await issue and no lane of theirs holds 8 entries (R176). -/
def matchWalk : Nat → List (List Nat) → List (List Nat) → List (List Nat) × List (List Nat)
  | 0, win, rest => (win, rest)
  | k + 1, win, rest =>
    match rest with
    | [] => (win, [])
    | r :: more =>
      if win.length ≥ 16 || r.any (fun l => decide (8 ≤ (win.filter fun w => w.contains l).length)) then (win, rest)
      else matchWalk k (win ++ [r]) more

/-- One issue over the rows awaiting issue: those that stay, given the lanes claimed and the rows taken so far (R177). -/
def matchIssue : List (List Nat) → List Nat → Nat → List (List Nat)
  | [], _, _ => []
  | r :: rest, claimed, n =>
    if decide (n < 4) && !(r.any claimed.contains) then matchIssue rest (r ++ claimed) (n + 1)
    else r :: matchIssue rest (r ++ claimed) n

/-- Issues of a match-mode product, the walker running ahead of each issue (R176 to R179; log entry 24). -/
def matchIssues : Nat → List (List Nat) → List (List Nat) → Nat
  | 0, _, _ => 0
  | k + 1, win, rest =>
    let (w, more) := matchWalk 16 win rest
    if w.isEmpty then 0 else 1 + matchIssues k (matchIssue w [] 0) more

/-! ### Updates (R116 to R122) -/

/-- One accumulator update of a row. -/
def updateRow (j : Job) (a : Nat) (mode tid inc : Nat) (m : AccSet) (row : Nat) (sums : List Nat) (x : ArrayState) : ArrayState :=
  let terms := min (tget 0 x.terms row + inc) (2 ^ 32 - 1)
  let ord := tget 0 x.ordinal row
  let sr := mode == 1 && decide (terms > 65536)
  let l := ((readAcc x m row).zip sums).zipIdx.map fun e =>
    let rnd := if sr then Rnd.sr (randBits j.seed.toNat j.step.toNat tid 4 (ord % 2 ^ 21 * 2 ^ 24 + a * 2 ^ 15 + row * 128 + e.2)) else .rne
    faddM rnd e.1.1 e.1.2
  { writeAcc x m row l with terms := tput row terms x.terms, ordinal := tput row (ord + 1) x.ordinal }

/-- Starts a row from zero (R118, R120). -/
def zeroRow (m : AccSet) (row : Nat) (x : ArrayState) : ArrayState :=
  { writeAcc x m row (List.replicate (setWidth m) 0) with
    terms := tput row 0 x.terms, ordinal := tput row 0 x.ordinal, zeroStart := tput row true x.zeroStart }

/-- TERMS above which no bound is given (R121, R122). -/
def longLimit (mode : Nat) : Nat := if mode = 1 then 2 ^ 24 else 2 ^ 20

/-! ### Shadow sampling (R229 to R233) -/

/-- A product's kind-table entry of its output, if the product is eligible apart from its rows (R229). -/
def sampleKind (j : Job) (out a : TDesc) (wfmt feed : Nat) : Option KindEntry :=
  let narrow := fun f => decide ((widthOf f).getD 8 ≤ 4)
  if feed = 0 && (narrow a.fmt || narrow wfmt) then j.kindOf out.tid else none

/-- A run of 32 elements along K converted to MXFP8 and back (R231). Whether this narrowing of the shadow datapath counts OVF_SAT and NONFINITE the manual does not say (R76): this model counts none (log entry 99). -/
def x8Block (g : Bool) (l : List Nat) : List Nat :=
  match fmtOf (if g then 0x09 else 0x08) with
  | none => l
  | some k =>
    let n := narrowBlock k (fun _ => .rne) none l
    n.codes.map fun c => widen k n.scale c

/-- The same for a whole row in blocks of 32. -/
def x8Row (g : Bool) (l : List Nat) : List Nat := (chunksOf 32 (l.length / 32 + 1) l).flatMap (x8Block g)

/-- The descriptor of an operand's parent: none where the kind table names no parent; none inside where the job has no descriptor of it. -/
def parentOf (j : Job) (tid : Nat) : Option (Option TDesc) :=
  match j.kindOf tid with
  | none => none
  | some k =>
    if k.parent = 0 then none
    else some ((j.descs.find? fun e => rawField e.2.raw 4 4 == k.parent.toNat).map fun e => parseDesc j e.1 e.2)

/-- FP32 values that are open: a parent that cannot be read (log entry 25). -/
def freeVals (n : Nat) : M (List Nat) := mapEach (List.range n) fun _ => do
  let (w, s) := drawWord (← getS)
  modS fun _ => s
  return w.toNat % 2 ^ 32

/-- A read of the shadow datapath: where it fails, the values are open. -/
def shadowRead (n : Nat) (act : M (List Nat)) : M (List Nat) := tryCatch act fun _ => do
  modW fun w => { w with ue := none }
  freeVals n

/-- x8 of a row of an operand that is no masked weight: of its parent, or its own elements (R231). -/
def x8Operand (j : Job) (t : TDesc) (row n : Nat) : M (List Nat) := do
  let isG := match j.kindOf t.tid with
    | some k => k.kind == 2
    | none => false
  match parentOf j t.tid with
  | none => readRow t row 0 n
  | some none => freeVals n
  | some (some p) => return x8Row isG (← shadowRead n (readRow p row 0 n))

/-- x8 of all K positions of an output position of a masked 2:4 weight, from its master companion, read through the pattern of the tile; from its own elements where it has none (R183, R231). -/
def x8Masked (j : Job) (t : TDesc) (wid n : Nat) : M (List Nat) := do
  let (e, m) := stackPos t n
  let kt := (t.chan + 127) / 128
  let nt := (t.ext.getD 1 0 + 511) / 512
  let par := parentOf j wid
  let parts ← mapEach (List.range kt) fun h => do
    let q ← readQuad t (t.wslotAddr (128 * h) m e) (m % 512 / 4)
    let slot := (e * nt + m / 512) * kt + h
    let vals ← match par with
      | some (some p) => shadowRead 64 (readRow p 0 ((512 * slot + m % 512) * 64) 64)
      | some none => freeVals 64
      | none => pure (((q.codes.getD (m % 4) []).zipIdx.map fun c =>
          match fmtOf t.fmt with
          | some k => widen k (if t.block = 1 then 127 else q.scales.getD (2 * (m % 4) + c.2 / 32) 127) c.1
          | none => 0))
    let ks := q.kpos.getD (m % 4) []
    return (List.range 128).map fun k => match ks.findIdx? (· == k) with
      | some i => vals.getD i 0
      | none => 0
  let l := parts.flatten.take t.chan
  return if par.isSome then x8Row false l else l

/-- x8 of all K positions of an output position of the loaded weight, masked under the identifier given or not; +0 outside it (R231). -/
def x8Weight (j : Job) (t : TDesc) (masked : Option Nat) (n : Int) : M (List Nat) :=
  if n < 0 || decide (((t.ext.drop 1).foldl (· * ·) 1 : Nat) ≤ n) then pure (List.replicate t.chan 0)
  else match masked with
    | some wid => if t.layout = 3 then x8Masked j t wid n.toNat else x8Operand j t n.toNat t.chan
    | none => x8Operand j t n.toNat t.chan

/-- A list moved by k places: its first k elements dropped, or -k zeros put before it. -/
def shiftList (k : Int) (l : List Nat) : List Nat :=
  if k < 0 then List.replicate (-k).toNat 0 ++ l else l.drop k.toNat

/-- s(i, j): the products of x8 in ascending order (R231). -/
def shadowSum (x w : List Nat) : Nat := (x.zip w).foldl (fun acc e => fadd acc (fmul e.1 e.2)) 0

/-- Row and column of an output element in OUT's global shape. -/
def globalRC (j : Job) (t : TDesc) (row c : Nat) : Nat × Nat :=
  let i := elemIndex j t (t.coords row c)
  (i / t.size.headD 1, i % t.size.headD 1)

/-- A region of 32 rows and 32 columns is sampled (R230). -/
def sampled (j : Job) (t : TDesc) (g : Nat × Nat) : Bool :=
  randBits j.seed.toNat j.step.toNat t.tid 0 (32 * g.2 + t.size.headD 1 * (32 * g.1)) 2 % 2 ^ j.sampleK.toNat == 0

/-- Takes the samples of a product: for each chosen region the accumulator entries and the shadow sums of its elements (R230, R231, R233). -/
def takeSamples (k : KindEntry) (core : Nat) (out a : TDesc) (tl : Tile) (tr : Bool) (rowStart kOff outRow outCol width : Nat) (rows : List OutRow) : M Unit := do
  let r ← get
  let j := r.s.job r.job
  let n := outCols out outCol width
  let cells := (rows.filter fun o => decide (outRow + o.i < out.rows)).flatMap fun o =>
    (List.range n).map fun c => (globalRC j out (outRow + o.i) (outCol + c), o, c)
  let regions := (cells.map fun e => (e.1.1 / 32, e.1.2 / 32)).dedup.filter (sampled j out)
  let wt := parseDesc j 0 tl.desc
  forEach regions fun g => do
    let mine := cells.filter fun e => e.1.1 / 32 == g.1 && e.1.2 / 32 == g.2
    let is := (mine.map fun e => e.2.1.i).dedup
    let cs := (mine.map fun e => e.2.2).dedup
    let before := (← getS).dict
    let mid := if tl.masked then some tl.wId.toNat else none
    let xs ← mapEach is fun i => do
      let l ← shadowRead a.chan (x8Operand j a (rowStart + i) a.chan)
      return (i, l)
    -- the weight's elements that meet the operand's channels, by output column
    let ws ← if !tr then
        mapEach cs fun c => do
          let l ← shadowRead wt.chan (x8Weight j wt mid ((tl.nOff + c : Nat) : Int))
          return (c, shiftList ((tl.kOff : Int) - kOff) l)
      else do
        let cols ← mapEach (List.range a.chan) fun m => shadowRead wt.chan (x8Weight j wt mid ((tl.nOff : Int) - kOff + m))
        pure (cs.map fun c => (c, cols.map fun l => l.getD (tl.kOff + c) 0))
    -- of the counters of R76 the shadow datapath, a unit that reads blocks, counts GM16_BAD_OFFSET only
    let bad := (← getS).counter 2 r.job 4 - tget 0 before.ctr (ctrKey 2 r.job 4)
    modS fun s => bumpStep { s with dict := { s.dict with ctr := before.ctr, sticky := before.sticky } } r.job 4 bad
    let ref := mine.map fun e => shadowSum ((xs.lookup e.2.1.i).getD []) ((ws.lookup e.2.2).getD [])
    let sm : Sample := ⟨BitVec.ofNat 32 r.job, k.layer, mine.map fun e => BitVec.ofNat 32 (e.2.1.entries.getD e.2.2 0), ref.map (BitVec.ofNat 32)⟩
    modS fun s =>
      let l := tget [] s.samples core
      let s := if l.length ≥ 4 then bump s 5 0 15 1 else s
      { s with samples := tput core (l ++ [sm]) s.samples }

/-- The bin of a relative error (R232). -/
def errorBin (acc ref : List Nat) : Nat :=
  if (acc ++ ref).any fun v => !f32IsFinite v then 15
  else
    let d := fsqrt (rowSum ((acc.zip ref).map fun e => fmul (fsub e.1 e.2) (fsub e.1 e.2)))
    let n := fsqrt (rowSum (ref.map fun v => fmul v v))
    let na := fsqrt (rowSum (acc.map fun v => fmul v v))
    if f32IsZero n then (if f32IsZero na then 0 else 15)
    else
      let e := fdiv d n
      if !f32IsFinite e then 15
      else
        -- exponent of e: its biased exponent field less 127
        let x := e / 2 ^ 23
        if x < 112 then 0 else if x ≥ 126 then 15 else x - 111

/-- SHADOW_SAMPLE_DONE (R232, R347): the oldest sample of a core's check buffer is binned into the histogram of its layer; while a COMPARE holds the buffer the shadow datapath stands. -/
def execShadowSampleDone (c : CoreNum) (s : State) : Out :=
  let core := c.toNat
  let held := s.queues.any fun e => (exeOf (BitVec.ofNat 15 e.1) e.2).core? == some core && e.2.started.any fun w => w.holdsBuffer
  match tget [] s.samples core with
  | [] => .next s
  | x :: rest =>
    if held then .next s
    else
      let s := bumpStep { s with samples := tput core rest s.samples } x.job.toNat 12 1
      let b := errorBin (x.acc.map (·.toNat)) (x.ref.map (·.toNat))
      match s.job? x.job.toNat with
      | none => .next s
      | some j =>
        let l := j.layer x.layer.toNat
        .next (s.setJob x.job.toNat { j with layers := tput x.layer.toNat { l with hist := l.hist.set b (l.hist.getD b 0 + 1) } j.layers })

/-! ### MMUL and MMUL_T (R95 to R101) -/

/-- The reserved fields of a product (R95, R96). -/
def productOk (c : Cmd) : Bool :=
  let m := cmdField c 0x2C 1
  m % 4 == 0 && bits m 6 2 != 3 && decide (bits m 4 2 ≤ 1) && zeroBytes c 0x2E 2 && zeroBytes c 0x3C 4 &&
    (bits m 6 2 == 1 || zeroBytes c 0x30 12) && (bits m 6 2 == 2 || zeroBytes c 0x14 4)

/-- The handles of a product. -/
def productHandles (c : Cmd) : List Nat :=
  cmdField c 8 4 :: (optH (cmdField c 0x0C 4) ++ optH (cmdField c 0x10 4) ++ optH (cmdField c 0x14 4))

/-- R97's cases on the command, the tile and the accumulator set. -/
def productRejected (r : Run) (tr : Bool) (x : ArrayState) (t : Tile) (a : TDesc) (out bmap : Option TDesc) : Bool :=
  let c := r.c
  let m := cmdField c 0x2C 1
  let feed := bits m 6 2
  let zero := bits m 4 2 == 1
  let last := m.testBit 3
  let n := cmdField c 0x1C 4
  let a0 := cmdField c 0x2D 1
  let set : AccSet := (tr, tr && t.form == 2)
  let rc := racc set
  let rows := (List.range (min n rc)).map fun i => (a0 + i) % rc
  t.released || (tr && (t.form == 1 || feed != 0)) || n == 0 || decide (rc ≤ a0) || (decide (rc < n) && !(last && zero))
    || (!zero && (x.set != some set || rows.any fun k => !isRes x k)) || (zero && otherSet x set)
    || (last && (out.isNone || cmdField c 0x10 4 == 0)) || (!last && (cmdField c 0x0C 4 != 0 || cmdField c 0x10 4 != 0))
    || (feed == 1 && ((List.range 4).any (fun i => cmdField c (0x30 + i) 1 == 0) || cmdField c 0x38 2 == 0 || cmdField c 0x3A 2 == 0
        || a.rank != 4 || a.layout != 1))
    || !srcOk r.exe a || !arrayFmt a.fmt || !arrayLayout a
    || (match out with | some o => !outDescOk r.exe o | none => false)
    || (match bmap with | some b => !srcOk r.exe b | none => false)
    || (feed == 2 && (decide (2 ≤ min (fmtClass a.fmt) (fmtClass t.fmt.toNat)) || match bmap with
        | none => true
        | some b => if cmdField c 0x14 4 = cmdField c 8 4 then a.layout != 2 else b.fmt != 0x1B))

/-- The operand rows lie within the operand, and the bitmap covers them (R97, R173). -/
def productInside (c : Cmd) (feed kx : Nat) (a : TDesc) (bmap : Option TDesc) : Bool :=
  let rs := cmdField c 0x18 4
  let n := cmdField c 0x1C 4
  let ko := cmdField c 0x20 4
  (if feed = 1 then decide ((rs + n - 1) / (cmdField c 0x38 2 * cmdField c 0x3A 2) < a.ext.getD 3 0)
   else decide (rs + n ≤ a.rows))
    && (feed != 2 || cmdField c 0x14 4 == cmdField c 8 4 || match bmap with
      | some b => decide (rs + n ≤ b.rows) && decide (ko + kx ≤ 8 * b.chan)
      | none => false)

/-- Operand row i, in match mode with the activity of its elements (R174). A K_OFF of window mode that is no multiple of 32, which R97 does not reject, is taken as it stands (R95, log entry 98). -/
def operandRow (c : Cmd) (feed kx : Nat) (a : TDesc) (bmap : Option TDesc) (i : Nat) : M (List FeedElem) := do
  let row := cmdField c 0x18 4 + i
  let ko := cmdField c 0x20 4
  if feed = 1 then windowRow a c row kx
  else
    let v ← fetchRow a row ko kx
    if feed != 2 then return v
    else if cmdField c 0x14 4 = cmdField c 8 4 then
      return v.zipIdx.map fun e => { e.1 with on := decide (ko + e.2 < a.chan) && !zeroCode a e.1.code.toNat }
    else match bmap with
      | none => return v
      | some b => do
        let bs ← bitmapRow b row ko kx
        return (v.zip bs).zipIdx.map fun e => { e.1.1 with on := e.1.2 && decide (ko + e.2 < a.chan) }

/-- The parameters of a product whose rows drain: the block, the checks of R139, the operand's extents, and the vectors, which are read at the start (R97, R133, R139, R140). -/
def productParams (c : Cmd) (inside : Bool) (out : Option TDesc) (n width : Nat) : M (Option OutParams) :=
  match out with
  | none => pure none
  | some o => do
    let p ← outParams (cmdField c 0x10 4)
    outputCheck o p (cmdField c 0x24 4) (cmdField c 0x28 4) n width
    need inside stDescOob
    some <$> readVectors o p (cmdField c 0x28 4) width

/-- One operand row has left the feeders: the update of accumulator row k, which becomes resident with the tag of the tile, and is read out where it is the last slab (R85, R104, R116). Answers the row as it leaves, whether its sum began at zero, and its TERMS. -/
def updateM (an : Nat) (set : AccSet) (t : Tile) (zero last : Bool) (i k : Nat) (upd : ArrayState → ArrayState) : M (OutRow × Bool × Nat) := do
  let x := (← getS).array an
  let fromZero := zero || tget false x.zeroStart k
  modArray an fun x =>
    let x := upd (if zero then zeroRow set k x else x)
    { makeRes x set k with tag := tput k (t.epoch, t.wId) x.tag }
  let y := (← getS).array an
  if last then modArray an fun x => dropRes x k
  return (⟨i, readAcc y set k, t.epoch.toNat, t.wId.toNat⟩, fromZero, tget 0 y.terms k)

/-- MMUL and MMUL_T. A fault of the array's checks leaves the rows before it done and the rows after it not resident; which row it falls on is open (R101, log entry 23). -/
def productBody (tr : Bool) (chk : Option CheckFault) : M Unit := do
  let r ← get
  let c := r.c
  let an ← arrayM
  let a ← descM (cmdField c 8 4)
  let out ← descOpt (cmdField c 0x0C 4)
  let bmap ← descOpt (cmdField c 0x14 4)
  let x := r.s.array an
  match x.tile with
  | none => stopWith stCmdInvalid
  | some t => do
    need (!productRejected r tr x t a out bmap) stCmdInvalid
    let mb := cmdField c 0x2C 1
    let feed := bits mb 6 2
    let zero := bits mb 4 2 == 1
    let last := mb.testBit 3
    let n := cmdField c 0x1C 4
    let a0 := cmdField c 0x2D 1
    let set : AccSet := (tr, tr && t.form == 2)
    let rc := racc set
    let width := setWidth set
    let outRow := cmdField c 0x24 4
    let outCol := cmdField c 0x28 4
    let kx := if tr then t.nExt else t.kExt
    let inside := productInside c feed kx a bmap
    let prm ← productParams c inside out n width
    need inside stDescOob
    let j ← jobM
    let mode := (← getS).reg 0x5040 1
    let cs := cellsOf x t
    let wp := if feed = 2 then weightFlags x t else []
    match out with
      | some o => writerM o
      | none => pure ()
    if mb.testBit 2 then modW fun w => { w with release := true }
    let good ← match chk with
      | none => pure n
      | some _ => do
        let (w, s) := drawWord (← getS)
        modS fun _ => s
        pure (w.toNat % n)
    let form := t.form.toNat
    let group := issueRows (min (fmtClass a.fmt) (fmtClass t.fmt.toNat))
    let fmt := (fmtOf a.fmt).getD ⟨0, 8, 0, 0, 0, none, false, 1⟩
    let parts ← mapEach (chunksOf group (good + 1) (List.range good)) fun is => do
      let vs ← mapEach is (operandRow c feed kx a bmap)
      modArray an (pushIssue tr form vs)
      let heads := headIssue tr form is.length ((← getS).array an)
      modArray an popIssue
      let out ← mapEach (is.zip heads) fun e =>
        updateM an set t zero last e.1 ((a0 + e.1) % rc) (updateRow j an mode a.tid (max 64 kx) set ((a0 + e.1) % rc) (rowSums cs form tr fmt e.2))
      return (out, vs.map fun v => needSet form wp (v.map (·.on)))
    let rows := parts.flatMap (·.1)
    if feed = 2 then
      modS fun s => bump (bump s 8 an 1 good) 8 an 2 (matchIssues good [] (parts.flatMap (·.2)))
    match out with
      | some o =>
        if last then
          match sampleKind j o a t.fmt.toNat feed with
          | some k =>
            if rows.all fun e => e.2.1 then
              takeSamples k (an / 4) o a t tr (cmdField c 0x18 4) (cmdField c 0x20 4) outRow outCol width (rows.map (·.1))
          | none => pure ()
          drainRows o prm outRow outCol width (rows.map (·.1))
      | none => pure ()
    if chk.isSome then
      modArray an fun x => (rangeFrom good (n - good)).foldl (fun x i => dropRes x ((a0 + i) % rc)) x
      checked an chk
    if rows.any fun e => decide (e.2.2 > longLimit mode) then stopWith stLongSum

/-- MMUL (R82). -/
def execMmul (q : QNum) (c : Cmd) (chk : Option CheckFault) (s : State) : Out :=
  startCmd q c productOk productHandles (productBody false chk) s

/-- MMUL_T (R83). -/
def execMmulT (q : QNum) (c : Cmd) (chk : Option CheckFault) (s : State) : Out :=
  startCmd q c productOk productHandles (productBody true chk) s

/-! ### PRELOAD_ACC and DRAIN (R125 to R130) -/

/-- The reserved fields of PRELOAD_ACC (R125). -/
def preloadOk (c : Cmd) : Bool :=
  let m := cmdField c 0x19 1
  m % 16 == 0 && bits m 6 2 != 3 && zeroBytes c 0x1C 36 && (bits m 6 2 != 0 || zeroBytes c 8 4)

/-- PRELOAD_ACC (R126, R127). -/
def preloadBody : M Unit := do
  let r ← get
  let c := r.c
  let an ← arrayM
  let m := cmdField c 0x19 1
  let src := bits m 6 2
  let set : AccSet := (m.testBit 5, m.testBit 4)
  let n := cmdField c 0x1A 2
  let a0 := cmdField c 0x18 1
  let width := setWidth set
  let rc := racc set
  let d ← if src = 0 then pure none else some <$> descM (cmdField c 8 4)
  let sr := cmdField c 0x0C 4
  let sc := cmdField c 0x10 4
  need (!otherSet (r.s.array an) set && (set.1 || !set.2) && decide (1 ≤ n) && decide (n ≤ rc) && decide (a0 < rc)
    && match d with
      | none => true
      | some t => srcOk r.exe t && arrayLayout t && (if src = 1 then t.fmt == 0 else !isIntFmt t.fmt)) stCmdInvalid
  match d with
    | some t => need (decide (sc + width ≤ t.chan) && (src == 1 || decide (sr + n ≤ t.rows))) stDescOob
    | none => pure ()
  let bias ← match d with
    | some t => if src = 1 then readRow t 0 sc width else pure []
    | none => pure (List.replicate width 0)
  let terms := if src = 0 then 0 else if src = 1 then 64 else cmdField c 0x14 4
  forEach (List.range n) fun i => do
    let vals ← match d with
      | some t => if src = 2 then readRow t (sr + i) sc width else pure bias
      | none => pure bias
    let k := (a0 + i) % rc
    modArray an fun x => makeRes { writeAcc x set k vals with
      terms := tput k terms x.terms, ordinal := tput k ((terms + 63) / 64) x.ordinal
      zeroStart := tput k false x.zeroStart, tag := tput k (0, 0) x.tag } set k

/-- The handle of PRELOAD_ACC. -/
def preloadHandles (c : Cmd) : List Nat := if bits (cmdField c 0x19 1) 6 2 = 0 then [] else [cmdField c 8 4]

/-- PRELOAD_ACC (R126). -/
def execPreloadAcc (q : QNum) (c : Cmd) (s : State) : Out :=
  startCmd q c preloadOk preloadHandles preloadBody s

/-- The reserved fields of DRAIN (R128). -/
def drainOk (c : Cmd) : Bool :=
  zeroBytes c 0x19 1 && decide (cmdField c 0x1C 1 ≤ 1) && zeroBytes c 0x1D 35 && (cmdField c 0x1C 1 == 0 || zeroBytes c 0x0C 4)

/-- DRAIN (R129). -/
def drainBody : M Unit := do
  let r ← get
  let c := r.c
  let an ← arrayM
  let x := r.s.array an
  let raw := cmdField c 0x1C 1 == 1
  let n := cmdField c 0x1A 2
  let a0 := cmdField c 0x18 1
  let out ← descM (cmdField c 8 4)
  match x.set with
  | none => stopWith stCmdInvalid
  | some set => do
    let rc := racc set
    let ks := (List.range n).map fun i => (a0 + i) % rc
    need (decide (1 ≤ n) && decide (n ≤ rc) && decide (a0 < rc) && ks.all (isRes x) && outDescOk r.exe out
      && (!raw || out.fmt == 0)) stCmdInvalid
    let prm ← if raw then pure none else some <$> startOutput out (cmdField c 0x0C 4) (cmdField c 0x10 4) (cmdField c 0x14 4) n (setWidth set)
    writerM out
    let rows := ks.zipIdx.map fun e =>
      let tg := tget (0, 0) x.tag e.1
      (⟨e.2, readAcc x set e.1, tg.1.toNat, tg.2.toNat⟩ : OutRow)
    modW fun w => { w with opspec := BitVec.ofNat 32 ((ks.map fun k => tget 0 x.terms k).foldl max 0) }
    modArray an fun x => ks.foldl dropRes x
    drainRows out prm (cmdField c 0x10 4) (cmdField c 0x14 4) (setWidth set) rows

/-- The handles of DRAIN. -/
def drainHandles (c : Cmd) : List Nat := cmdField c 8 4 :: if cmdField c 0x1C 1 = 1 then [] else [cmdField c 0x0C 4]

/-- DRAIN (R129). -/
def execDrain (q : QNum) (c : Cmd) (s : State) : Out :=
  startCmd q c drainOk drainHandles drainBody s

end Sys2Proof.Machine
end

