-- ==== Sys2Proof/Machine/Vector.lean ====
section
/-! DEFINITION. The vector unit (05 R141 to R151): VEC_CHAIN, VEC_REDUCE, SOFTMAX, NORM, DROPOUT, QUANTISE and DEQUANTISE. A command reads all its sources before it writes (log entry 26). -/

namespace Sys2Proof.Machine

/-! ### What the commands share (R142, R143) -/

/-- Handles of the sources and the destination (R142): IN0 and OUT always, IN1 and IN2 where they are not zero. -/
def vecHandles (c : Cmd) : List Nat := [cmdField c 8 4, cmdField c 0x14 4] ++ optH (cmdField c 0x0C 4) ++ optH (cmdField c 0x10 4)

/-- A source or destination of a conversion in an integer format is refused with DESC_INVALID (R55). -/
def noInts (ts : List TDesc) : M Unit := forEach ts fun t => if isIntFmt t.fmt then stopAt stDescInvalid 5 t.handle else pure ()

/-- A tensor has a shape, or broadcasts to it: every dimension has its extent or, in an untiled layout, a zero stride (R143, R323). -/
def broadcasts (shape : List Nat) (t : TDesc) : Bool :=
  t.ext == shape || (!t.tiled && t.ext.length == shape.length &&
    (shape.zip (t.ext.zip t.stride)).all fun e => e.1 == e.2.1 || e.2.2 == 0)

/-- A source of the vector unit: addressable, and of the shape given or broadcast to it (R143). -/
def vecSrc (e : Exe) (shape : List Nat) (t : TDesc) : Bool := srcOk e t && broadcasts shape t

/-- A source as it reads over a shape that it broadcasts to: along a zero stride every coordinate reads the same elements (R323). -/
def TDesc.spread (t : TDesc) (shape : List Nat) : TDesc := if t.tiled then t else { t with ext := shape }

/-- All sources have OUT's shape or broadcast to it, one that the command does not read included (R143). -/
def vecShapes (c : Cmd) (out : TDesc) : M Unit := do
  let e := (← get).exe
  forEach (optH (cmdField c 0x0C 4) ++ optH (cmdField c 0x10 4)) fun h => do need (vecSrc e out.ext (← descM h)) stCmdInvalid

/-- The rows of a source over OUT's shape, or rows of one value where the handle is zero. -/
def rowsOr (t : Option TDesc) (out : TDesc) (v : Nat) : M (List (List Nat)) :=
  match t with
  | some t => readAll (t.spread out.ext)
  | none => pure (List.replicate out.rows (List.replicate out.chan v))

/-- An FP32 scalar that receives a result. -/
def scalarOk (e : Exe) (t : TDesc) : Bool := dstOk e t && t.fmt == 0 && t.count == 1

/-! ### VEC_CHAIN (R144, R145) -/

/-- Stage i of a chain: operation, source codes of B and C. -/
def stageOf (c : Cmd) (i : Nat) : Nat × Nat × Nat :=
  let w := cmdField c (0x18 + 2 * i) 2
  (bits w 10 6, bits w 7 3, bits w 4 3)

/-- Stages of a chain. -/
def stagesOf (c : Cmd) : List (Nat × Nat × Nat) := (List.range (min 8 (cmdField c 0x38 1 % 16))).map (stageOf c)

/-- Operations that use B. -/
def usesB (op : Nat) : Bool := (decide (1 ≤ op) && decide (op ≤ 7)) || op == 0x14
/-- Operations that use C. -/
def usesC (op : Nat) : Bool := op == 5 || op == 0x14

/-- A chain reads source k of IN0 to IN2. -/
def chainUses (c : Cmd) (k : Nat) : Bool := (stagesOf c).any fun (op, b, d) => (usesB op && b == k) || (usesC op && d == k)

/-- The reserved fields and codes of a chain; codes of stages beyond NSTAGES are not looked at. -/
def chainOk (c : Cmd) : Bool :=
  ((List.range 8).all fun i => cmdField c (0x18 + 2 * i) 2 % 16 == 0) &&
    ((stagesOf c).all fun (op, b, d) => decide (op ≤ 0x14) && b != 7 && d != 7) &&
    bits (cmdField c 0x38 1) 4 4 == 0 && zeroBytes c 0x39 7

/-- One operation on the running value (R124, R145). -/
def chainOp (op v b c : Nat) : Nat :=
  match op with
  | 0x00 => v
  | 0x01 => fadd v b
  | 0x02 => fsub v b
  | 0x03 => if f32IsNan v then f32Nan (f32Neg v) else fsub b v
  | 0x04 => fmul v b
  | 0x05 => ffma v b c
  | 0x06 => fmax v b
  | 0x07 => fmin v b
  | 0x08 => if f32IsNan v then v else f32Abs v
  | 0x09 => if f32IsNan v then v else f32Flip v
  | 0x0A => fapprox 4 v
  | 0x0B => fapprox 5 v
  | 0x0C => fdiv f32One v
  | 0x0D => fapprox 6 v
  | 0x0E => fsqrt v
  | 0x14 => fmin (fmax v b) c
  | op => activate (op - 0x0E) 0 0 v

/-- A chain on one element: IN0 to IN2 and the constants C0 to C3 (R144). -/
def chainElem (c : Cmd) (ins : List Nat) : Nat :=
  let src := fun k => if k < 3 then ins.getD k 0 else cmdField c (0x28 + 4 * (k - 3)) 4
  (stagesOf c).foldl (fun v st => chainOp st.1 v (src st.2.1) (src st.2.2)) (src 0)

/-- Joins the rows of three sources element by element. -/
def zip3 (g : List Nat → Nat) (a b d : List (List Nat)) : List (List Nat) :=
  (a.zip (b.zip d)).map fun e => (e.1.zip (e.2.1.zip e.2.2)).map fun v => g [v.1, v.2.1, v.2.2]

/-- VEC_CHAIN (R144): a source that no stage reads is not read. -/
def vecChainBody : M Unit := do
  let r ← get
  let c := r.c
  let in0 ← descM (cmdField c 8 4)
  let in1 ← if chainUses c 1 then some <$> descM (cmdField c 0x0C 4) else pure none
  let in2 ← if chainUses c 2 then some <$> descM (cmdField c 0x10 4) else pure none
  let out ← descM (cmdField c 0x14 4)
  let ins := in0 :: (in1.toList ++ in2.toList)
  noInts (out :: ins)
  let n := cmdField c 0x38 1 % 16
  need (decide (1 ≤ n) && decide (n ≤ 8) && dstOk r.exe out && ins.all (vecSrc r.exe out.ext)) stCmdInvalid
  vecShapes c out
  writerM out
  let a ← rowsOr (some in0) out 0
  let b ← rowsOr in1 out 0
  let d ← rowsOr in2 out 0
  writeTensor out (zip3 (chainElem c) a b d) 0 0 0

/-- The handles of VEC_CHAIN. -/
def chainHandles (c : Cmd) : List Nat := vecHandles c ++ ((List.range 2).filter fun k => chainUses c (k + 1)).map fun k => cmdField c (0x0C + 4 * k) 4

/-- VEC_CHAIN (R144). -/
def execVecChain (q : QNum) (c : Cmd) (s : State) : Out :=
  startCmd q c chainOk chainHandles vecChainBody s

/-! ### VEC_REDUCE (R146) -/

/-- The reduction of one row. -/
def reduceRow (op : Nat) (l : List Nat) : Nat :=
  match op with
  | 0 => rowSum l
  | 1 => rowSum (l.map fun v => fmul v v)
  | 2 => rowReduce fmax (f32Inf true) l
  | 3 => rowReduce fmin (f32Inf false) l
  | _ => rowReduce fmax 0 (l.map (chainOp 0x08 · 0 0))

/-- VEC_REDUCE (R146). -/
def vecReduceBody : M Unit := do
  let r ← get
  let in0 ← descM (cmdField r.c 8 4)
  let out ← descM (cmdField r.c 0x14 4)
  noInts [out, in0]
  need (srcOk r.exe in0 && dstOk r.exe out && out.ext == 1 :: in0.ext.drop 1) stCmdInvalid
  vecShapes r.c out
  writerM out
  let rows ← readAll in0
  writeTensor out (rows.map fun l => [reduceRow (cmdField r.c 0x18 1) l]) 0 0 0
  if decide (2 ^ 20 < in0.chan) then stopWith stLongSum

/-- The reserved fields of VEC_REDUCE. -/
def vecReduceOk (c : Cmd) : Bool := decide (cmdField c 0x18 1 ≤ 4) && zeroBytes c 0x19 39

/-- VEC_REDUCE (R146). -/
def execVecReduce (q : QNum) (c : Cmd) (s : State) : Out :=
  startCmd q c vecReduceOk vecHandles vecReduceBody s

/-! ### SOFTMAX and NORM (R147, R148, R151) -/

/-- Softmax of one row of scaled and biased inputs; none for a row whose every input is −∞ (R147). -/
def softmaxRow (x : List Nat) : Option (List Nat) :=
  let m := rowReduce fmax (f32Inf true) x
  if m = f32Inf true then none
  else
    let e := x.map fun v => fapprox 4 (fsub v m)
    let sm := rowSum e
    some (e.map fun v => fdiv v sm)

/-- SOFTMAX (R147). -/
def softmaxBody : M Unit := do
  let r ← get
  let in0 ← descM (cmdField r.c 8 4)
  let in1 ← descOpt (cmdField r.c 0x0C 4)
  let out ← descM (cmdField r.c 0x14 4)
  noInts (out :: in0 :: in1.toList)
  need (dstOk r.exe out && (in0 :: in1.toList).all (vecSrc r.exe out.ext) && decide (out.chan ≤ 65536)) stCmdInvalid
  vecShapes r.c out
  writerM out
  let a ← rowsOr (some in0) out 0
  let b ← rowsOr in1 out 0
  let scale := cmdField r.c 0x18 4
  let rows := (a.zip b).map fun e => softmaxRow ((e.1.zip e.2).map fun v => fadd (fmul v.1 scale) v.2)
  countM 6 (rows.filter Option.isNone).length
  writeTensor out (rows.map fun l => l.getD (List.replicate out.chan 0)) 0 0 0

/-- The reserved fields of SOFTMAX. -/
def softmaxOk (c : Cmd) : Bool := zeroBytes c 0x1C 36

/-- SOFTMAX (R147). -/
def execSoftmax (q : QNum) (c : Cmd) (s : State) : Out :=
  startCmd q c softmaxOk vecHandles softmaxBody s

/-- Normalisation of one row: its results, and its mean and reciprocal deviation (R148). -/
def normRow (rms : Bool) (eps : Nat) (x g b : List Nat) : List Nat × Nat × Nat :=
  let n := f32Nat x.length
  if rms then
    let d := fapprox 6 (fadd (fdiv (rowSum (x.map fun v => fmul v v)) n) eps)
    ((x.zip g).map (fun e => fmul (fmul e.1 d) e.2), 0, d)
  else
    let mu := fdiv (rowSum x) n
    let dev := x.map fun v => fsub v mu
    let d := fapprox 6 (fadd (fdiv (rowSum (dev.map fun v => fmul v v)) n) eps)
    ((dev.zip (g.zip b)).map (fun e => fadd (fmul (fmul e.1 d) e.2.1) e.2.2), mu, d)

/-- NORM (R148). STAT has OUT's rows and a channel extent of 2: the mean, then the reciprocal deviation. -/
def normBody : M Unit := do
  let r ← get
  let c := r.c
  let rms := cmdField c 0x18 1 == 1
  let eps := cmdField c 0x1C 4
  let in0 ← descM (cmdField c 8 4)
  let g ← descOpt (cmdField c 0x0C 4)
  let b ← if rms then pure none else descOpt (cmdField c 0x10 4)
  let out ← descM (cmdField c 0x14 4)
  let st ← descOpt (cmdField c 0x20 4)
  let ins := in0 :: (g.toList ++ b.toList)
  noInts (out :: ins)
  need (dstOk r.exe out && ins.all (vecSrc r.exe out.ext) && decide (out.chan ≤ 65536) && f32IsFinite eps && !fltb eps 0
    && match st with
      | some t => dstOk r.exe t && t.fmt == 0 && t.ext == 2 :: out.ext.drop 1
      | none => true) stCmdInvalid
  vecShapes c out
  writerM out
  match st with
    | some t => writerM t
    | none => pure ()
  let a ← rowsOr (some in0) out 0
  let gs ← rowsOr g out f32One
  let bs ← rowsOr b out 0
  let res := (a.zip (gs.zip bs)).map fun e => normRow rms eps e.1 e.2.1 e.2.2
  writeTensor out (res.map fun e => e.1) 0 0 0
  match st with
    | some t => writeTensor t (res.map fun e => [e.2.1, e.2.2]) 0 0 0
    | none => pure ()

/-- The handles of NORM and DROPOUT: the third output may be absent. -/
def statHandles (c : Cmd) : List Nat := vecHandles c ++ optH (cmdField c 0x20 4)

/-- The reserved fields of NORM. -/
def normOk (c : Cmd) : Bool := decide (cmdField c 0x18 1 ≤ 1) && zeroBytes c 0x19 3 && zeroBytes c 0x24 28

/-- NORM (R148). -/
def execNorm (q : QNum) (c : Cmd) (s : State) : Out :=
  startCmd q c normOk statHandles normBody s

/-! ### DROPOUT (R149) -/

/-- An element of OUT is kept: its 16 random bits are below P_KEEP. -/
def kept (j : Job) (out : TDesc) (p row c : Nat) : Bool :=
  decide (randBits j.seed.toNat j.step.toNat out.tid 0 (elemIndex j out (out.coords row c)) 1 < p)

/-- DROPOUT (R149). MASK_OUT is a bitmap tensor in the form of R174: of OUT's rows, each of a bit per channel rounded up to bytes, and the bits of a row's last byte beyond the channels stay as they are stored (DESIGN CHOICE, log entry 75: R149 says one bit per element and no more). -/
def dropoutBody : M Unit := do
  let r ← get
  let c := r.c
  let j := r.s.job r.job
  let in0 ← descM (cmdField c 8 4)
  let out ← descM (cmdField c 0x14 4)
  let mk ← descOpt (cmdField c 0x20 4)
  noInts [out, in0]
  need (dstOk r.exe out && vecSrc r.exe out.ext in0
    && match mk with
      | some t => dstOk r.exe t && t.fmt == 0x1B && t.rows == out.rows && t.chan == (out.chan + 7) / 8
      | none => true) stCmdInvalid
  vecShapes c out
  writerM out
  match mk with
    | some t => writerM t
    | none => pure ()
  let a ← rowsOr (some in0) out 0
  let keep := (List.range out.rows).map fun row => (List.range out.chan).map (kept j out (cmdField c 0x18 2) row)
  writeTensor out ((a.zip keep).map fun e => (e.1.zip e.2).map fun v => if v.2 then fmul v.1 (cmdField c 0x1C 4) else 0) 0 0 0
  match mk with
    | some t => forEach keep.zipIdx fun e => forEach e.1.zipIdx fun v =>
        writeBits t.tier (t.bitAddr e.2 (v.2 / 8) + v.2 % 8) 1 (if v.1 then 1 else 0)
    | none => pure ()

/-- The reserved fields of DROPOUT. -/
def dropoutOk (c : Cmd) : Bool := zeroBytes c 0x1A 2 && zeroBytes c 0x24 28

/-- DROPOUT (R149). -/
def execDropout (q : QNum) (c : Cmd) (s : State) : Out :=
  startCmd q c dropoutOk statHandles dropoutBody s

/-! ### QUANTISE and DEQUANTISE (R150) -/

/-- QUANTISE (R150). R142 gives FIX_EXP's range: -128 is refused with CMD_INVALID where SCALE_MODE is 1, and not looked at where it is 0 (DESIGN CHOICE, log entry 73: no rule gives the status). -/
def quantiseBody : M Unit := do
  let r ← get
  let c := r.c
  let fix := cmdField c 0x18 1 == 1
  let e := sext 8 (cmdField c 0x19 1)
  let in0 ← descM (cmdField c 8 4)
  let out ← descM (cmdField c 0x14 4)
  let am ← descOpt (cmdField c 0x1C 4)
  noInts [out, in0]
  need (dstOk r.exe out && vecSrc r.exe out.ext in0 && (!fix || (e != -128 && (!isGm16 out.fmt || decide (-124 ≤ e))))
    && match am with
      | some t => scalarOk r.exe t
      | none => true) stCmdInvalid
  vecShapes c out
  writerM out
  match am with
    | some t => writerM t
    | none => pure ()
  let a ← rowsOr (some in0) out 0
  writeTensor out a 0 0 0 none (if fix then some e else none)
  match am with
    | some t => writeTensor t [[amaxOf a.flatten]] 0 0 0
    | none => pure ()

/-- The reserved fields of QUANTISE. -/
def quantiseOk (c : Cmd) : Bool := decide (cmdField c 0x18 1 ≤ 1) && zeroBytes c 0x1A 2 && zeroBytes c 0x20 32

/-- The handles of QUANTISE. -/
def quantiseHandles (c : Cmd) : List Nat := vecHandles c ++ optH (cmdField c 0x1C 4)

/-- QUANTISE (R150). -/
def execQuantise (q : QNum) (c : Cmd) (s : State) : Out :=
  startCmd q c quantiseOk quantiseHandles quantiseBody s

/-- DEQUANTISE (R150). R69 rounds a result into FP16 or BF16 to nearest even; into a privileged G or WG tensor row 6 of R71 comes first (R73; log entry 73). -/
def dequantiseBody : M Unit := do
  let r ← get
  let in0 ← descM (cmdField r.c 8 4)
  let out ← descM (cmdField r.c 0x14 4)
  noInts [out, in0]
  need (dstOk r.exe out && vecSrc r.exe out.ext in0 && decide (out.fmt ≤ 2)) stCmdInvalid
  vecShapes r.c out
  writerM out
  writeTensor out (← rowsOr (some in0) out 0) 0 0 0

/-- The reserved fields of DEQUANTISE. -/
def dequantiseOk (c : Cmd) : Bool := zeroBytes c 0x18 40

/-- DEQUANTISE (R150). -/
def execDequantise (q : QNum) (c : Cmd) (s : State) : Out :=
  startCmd q c dequantiseOk vecHandles dequantiseBody s

end Sys2Proof.Machine
end

