-- ==== Sys2Proof/Machine/Masks.lean ====
section
/-! DEFINITION. The mask unit (07): MASK_SCORE, PRUNE, REGROW, MASK_COMMIT and MASK_GATHER, with the registry's states (R207). A command reads everything before it writes (log entry 26). -/

namespace Sys2Proof.Machine

/-! ### The weight and its units (R183 to R186) -/

/-- One TILE_W tile as a command holds it. -/
structure WTile where
  num : Nat
  addr : Nat
  hdr : Hdr
  quads : List Quad
  deriving DecidableEq, Repr

/-- Tiles of a TILE_W shard along K, along N, and in all (R321). -/
def TDesc.wKT (t : TDesc) : Nat := (t.chan + 127) / 128
def TDesc.wNT (t : TDesc) : Nat := (t.ext.getD 1 0 + 511) / 512
def TDesc.wTiles (t : TDesc) : Nat := t.ext.getD 2 1 * t.wNT * t.wKT
/-- Units of a tile (R185). -/
def TDesc.wUnits (t : TDesc) : Nat := if t.twKind then 16384 else 4096

/-- First K position, first output position and stack index of a tile. -/
def TDesc.wPlace (t : TDesc) (i : Nat) : Nat × Nat × Nat :=
  (i % t.wKT * 128, i / t.wKT % t.wNT * 512, i / t.wKT / t.wNT)

/-- Reads and checks a tile of a masked weight (R165, R190). -/
def readWTile (t : TDesc) (epoch i : Nat) : M WTile := do
  let a := t.base + i * t.wtileSize
  let h := parseHdr (← readM t.tier a 16)
  checkHdr t h a
  if h.masked && h.tid == t.tid then pure () else tileInvalid t a
  let qs ← mapEach (List.range 128) fun q => readQuad t a q
  epochCheck epoch h.epoch
  return ⟨i, a, h, qs⟩

/-- Positions that a pattern stores, as DROP numbers them (R199): bit 4 r + c of a block, or bit p of a group. -/
def patMask (plain : Bool) (idx : Nat) : Nat :=
  if plain then
    match pairOf idx with
    | some (a, b) => 2 ^ a + 2 ^ b
    | none => 0
  else
    match transDecode idx with
    | some rows => ((rows.zipIdx.map fun e => match pairOf e.1 with
        | some (a, b) => 2 ^ (4 * e.2 + a) + 2 ^ (4 * e.2 + b)
        | none => 0)).foldl (· + ·) 0
    | none => 0

/-- The candidate patterns of a unit (R185). -/
def candidates (plain : Bool) : List Nat := (List.range (if plain then 6 else 90)).map (patMask plain)

/-- One unit of a tile (R185): its number in the shard, group, first tile-local output position, current pattern, and whether all its positions lie within the extents (R186). -/
structure MUnit where
  num : Nat
  grp : Nat
  out : Nat
  pat : Nat
  part : Bool
  deriving DecidableEq, Repr

/-- The units of a tile in ascending order. -/
def unitsOf (t : TDesc) (w : WTile) : List MUnit :=
  let (k0, n0, _) := t.wPlace w.num
  let width := if t.twKind then 1 else 4
  (List.range t.wUnits).map fun u =>
    let g := u % 32
    let n := u / 32 * width
    let pats := (w.quads[n / 4]?.map (·.pats)).getD []
    ⟨t.wUnits * w.num + u, g, n, pats.getD (if t.twKind then 32 * (n % 4) + g else g) 0,
      decide (k0 + 4 * g + 4 ≤ t.chan) && decide (n0 + n + width ≤ t.ext.getD 1 0)⟩

/-- The positions of a unit, as bit number, K position in the tile and output position in the tile. -/
def unitCells (plain : Bool) (u : MUnit) : List (Nat × Nat × Nat) :=
  if plain then (List.range 4).map fun p => (p, 4 * u.grp + p, u.out)
  else (List.range 16).map fun b => (b, 4 * u.grp + b / 4, u.out + b % 4)

/-- Rows of the weight's shape that a tile covers: tile-local output position and row number. -/
def tileRows (t : TDesc) (i : Nat) : List (Nat × Nat) :=
  let (_, n0, e) := t.wPlace i
  (List.range (min 512 (t.ext.getD 1 0 - n0))).map fun n => (n, n0 + n + t.ext.getD 1 0 * e)

/-- K positions of a tile within the extents. -/
def tileDepth (t : TDesc) (i : Nat) : Nat := min 128 (t.chan - (t.wPlace i).1)

/-- Whether the unit of a position of a tile lies within the extents: only such units are counted (R186). -/
def countedPos (t : TDesc) (i k n : Nat) : Bool :=
  let (k0, n0, _) := t.wPlace i
  decide (k0 + k / 4 * 4 + 4 ≤ t.chan) && (t.twKind || decide (n0 + n / 4 * 4 + 4 ≤ t.ext.getD 1 0))

/-- Element index of a position of a tile (R72). -/
def posIndex (j : Job) (t : TDesc) (i k n : Nat) : Nat :=
  let (k0, n0, e) := t.wPlace i
  elemIndex j t ([k0 + k, n0 + n] ++ if t.rank = 3 then [e] else [])

/-! ### Operands (R188 to R190) -/

/-- Reserved fields of the five commands; `zeros` are the argument words marked 0. -/
def maskOk (score : Bool) (zeros : List Nat) (c : Cmd) : Bool :=
  (zeros.all fun i => zeroBytes c (0x14 + 4 * i) 4) && cmdField c 0x30 1 % 32 == 0 && (score || bits (cmdField c 0x30 1) 5 2 == 0) && zeroBytes c 0x31 15

/-- Argument word i. -/
def maskArg (c : Cmd) (i : Nat) : Nat := cmdField c (0x14 + 4 * i) 4

/-- A tensor with the shape of the weight's positions (R189). -/
def denseOk (w t : TDesc) : Bool := t.ext == w.ext && t.layout != 3 && !isIntFmt t.fmt
/-- A score tensor (R189). -/
def scoreOk (w t : TDesc) : Bool := denseOk w t && t.fmt == 0
/-- A score tensor that the mask unit writes: it writes no tiles but those of the weight (R171). -/
def scoreDstOk (w t : TDesc) : Bool := scoreOk w t && !t.tiled
/-- A companion's shape and format (R183). -/
def companionOk (w t : TDesc) : Bool := !t.tiled && t.ext == [32768 * w.wTiles] && [0x00, 0x01, 0x02, 0x05].contains t.fmt
/-- A proposal tensor (R189). -/
def proposalOk (w t : TDesc) : Bool := t.fmt == 0x19 && t.ext == [w.wTiles * w.wUnits]
/-- A report: 32 bytes (R189). -/
def reportOk (t : TDesc) : Bool := !t.tiled && t.rank == 1 && t.block == 1 && t.chan * t.width == 256

/-- The weight's registry entry; a weight that is not TILE_W, not addressable or not registered is refused (R190). -/
def weightM (w : TDesc) : M MaskEntry := do
  let r ← get
  match tfind r.s.masks w.tid with
  | some e => if w.layout = 3 && srcOk r.exe w then return e else stopWith stCmdInvalid
  | none => stopWith stCmdInvalid

/-- The range of tiles that a command names (R188, R190). -/
def rangeM (w : TDesc) : M (List Nat) := do
  let a ← fieldM 0x0C 4
  let n ← fieldM 0x10 4
  need (n != 0) stCmdInvalid
  need (decide (a + n ≤ w.wTiles)) stDescOob
  return rangeFrom a n

/-- The command is skipped in an overflowed step (R191). -/
def skippedM : M Bool := do
  let r ← get
  return (cmdField r.c 0x30 1).testBit 7 && (r.s.job r.job).overflowed

/-- The opcode-specific word (R192): SKIPPED and a count that saturates. -/
def wordM (skipped : Bool) (n : Nat) : M Unit :=
  modW fun w => { w with opspec := BitVec.ofNat 32 ((if skipped then 2 ^ 31 else 0) + min n (2 ^ 31 - 1)) }

/-- Takes the reference on the weight and runs the command's work, or skips it (R191, R206). -/
def maskWork (w : TDesc) (act : MaskEntry → M Unit) : M Unit := do
  let e ← idleMask w.tid
  refMask w.tid
  if ← skippedM then wordM true 0 else act e

/-- Reads codes for the mask unit: a GM16 block with offset 0xFF is counted (R76). -/
def maskCodes (t : TDesc) (row c0 n : Nat) : M (List (Nat × Nat)) := do
  let l ← readCodes t row c0 n
  if isGm16 t.fmt then countReads t c0 l
  return l

/-- Reads values for the mask unit, widened to FP32. -/
def maskVals (t : TDesc) (row c0 n : Nat) : M (List Nat) := do
  let l ← maskCodes t row c0 n
  match fmtOf t.fmt with
  | some k => return l.map fun e => widen k e.2 e.1
  | none => stopWith stCmdInvalid

/-! ### MASK_SCORE (R193, R194) -/

/-- The new score of one position in GRAD mode: gradient, scale, accumulate, old score; and whether the product was not finite (R194). -/
def gradScore (g scale : Nat) (acc : Bool) (old : Nat) : Nat × Bool :=
  let x := fmul g scale
  if f32IsFinite x then (if acc then fadd old (f32Abs x) else f32Abs x, false)
  else (if acc then old else 0, true)

/-- The scores of MASTER mode at output position n of a tile: magnitudes of the masters of stored positions, +0 elsewhere. -/
def masterScores (m : TDesc) (t : WTile) (n depth : Nat) : M (List (Nat × Bool × Bool)) := do
  let ms ← maskVals m 0 (32768 * t.num + 64 * n) 64
  let ks := ((t.quads[n / 4]?.map fun q => q.kpos.getD (n % 4) [])).getD []
  return (List.range depth).map fun k => match ks.findIdx? (· == k) with
    | some i => (f32Abs (ms.getD i 0), !f32IsFinite (ms.getD i 0), false)
    | none => (0, false, false)

/-- MASK_SCORE (R193, R194): the word counts source elements that are not finite, MASK_NONFINITE products that are not (R192). -/
def maskScoreBody : M Unit := do
  let r ← get
  let c := r.c
  let grad := (cmdField c 0x30 1).testBit 6
  let acc := (cmdField c 0x30 1).testBit 5
  let scale := maskArg c 2
  let w ← descM (cmdField c 8 4)
  let src ← descM (maskArg c 0)
  let sc ← descM (maskArg c 1)
  let _ ← weightM w
  if grad then noInts [src]
  need (srcOk r.exe src && scoreDstOk w sc && dstOk r.exe sc
    && (if grad then denseOk w src && f32IsFinite scale && !f32IsZero scale && !f32Neg scale
        else companionOk w src && !acc && scale == 0)) stCmdInvalid
  let ts ← rangeM w
  writerM sc
  maskWork w fun e => do
    let out ← mapEach ts fun i => do
      let t ← readWTile w e.epoch.toNat i
      let k0 := (w.wPlace i).1
      let depth := tileDepth w i
      mapEach (tileRows w i) fun (n, row) => do
        let l ← if grad then do
            let gs ← maskVals src row k0 depth
            let old ← if acc then readCodes sc row k0 depth else pure []
            pure (gs.zipIdx.map fun g =>
              let x := gradScore g.1 scale acc (old.getD g.2 (0, 0)).1
              (x.1, !f32IsFinite g.1, x.2))
          else masterScores src t n depth
        return (row, k0, l.zipIdx.map fun v => (v.1.1, countedPos w i v.2 n && v.1.2.1, countedPos w i v.2 n && v.1.2.2))
    let all := out.flatten.flatMap fun o => o.2.2
    countM 9 (all.filter fun v => v.2.2).length
    forEach (out.flatten.mergeSort fun a b => decide (a.1 < b.1) || (a.1 == b.1 && decide (a.2.1 ≤ b.2.1))) fun (row, k0, l) => do
      putCodes sc row k0 (l.map fun v => v.1) 0
      padRow sc row (k0 + l.length)
    wordM false (all.filter fun v => v.2.1).length

/-- The handles of MASK_SCORE and MASK_GATHER. -/
def scoreHandles (c : Cmd) : List Nat := [cmdField c 8 4, maskArg c 0, maskArg c 1]

/-- MASK_SCORE (R193). -/
def execMaskScore (q : QNum) (c : Cmd) (s : State) : Out :=
  startCmd q c (maskOk true [3, 4, 5, 6]) scoreHandles maskScoreBody s

/-! ### PRUNE and REGROW (R195 to R203) -/

/-- The key of a score, and whether it is counted as bad (R195). -/
def scoreKey (code : Nat) : Nat × Bool :=
  if code = 2 ^ 31 then (0, false) else if code ≥ 2 ^ 31 ∨ code > 0x7F800000 then (0, true) else (code, false)

/-- A position that selection looks at: bit number, key, element index, and whether its score was bad. -/
structure Pick where
  bit : Nat
  key : Nat
  idx : Nat
  bad : Bool
  deriving DecidableEq, Repr

/-- The stored (or unstored) positions of the participating units of a tile, with their scores. -/
def picksM (w sc : TDesc) (t : WTile) (stored : Bool) : M (List (MUnit × List Pick)) := do
  let j ← jobM
  let k0 := (w.wPlace t.num).1
  let depth := tileDepth w t.num / 4 * 4
  let rows ← mapEach (tileRows w t.num) fun (_, row) => readCodes sc row k0 depth
  return ((unitsOf w t).filter (·.part)).map fun u =>
    let m := patMask w.twKind u.pat
    (u, ((unitCells w.twKind u).filter fun e => m.testBit e.1 == stored).map fun (b, k, n) =>
      let (key, bad) := scoreKey (((rows.getD n []).getD k (0, 0)).1)
      ⟨b, key, posIndex j w t.num k n, bad⟩)

/-- Ascending key, then ascending element index. -/
def pruneOrder (a b : Nat × Nat) : Bool := decide (a.1 < b.1) || (a.1 == b.1 && decide (a.2 ≤ b.2))
/-- Descending key, then ascending element index. -/
def regrowOrder (a b : Nat × Nat) : Bool := decide (b.1 < a.1) || (a.1 == b.1 && decide (a.2 ≤ b.2))

/-- The last position of the first n in an order, by which the n are known. -/
def lastOf (le : Nat × Nat → Nat × Nat → Bool) (l : List (Nat × Nat)) (n : Nat) : Option (Nat × Nat) :=
  if n = 0 then none else (l.mergeSort le)[min n l.length - 1]?

/-- Whether a position is among those up to the last one. -/
def upTo (le : Nat × Nat → Nat × Nat → Bool) (last : Option (Nat × Nat)) (p : Pick) : Bool :=
  match last with
  | some z => le (p.key, p.idx) z
  | none => false

/-- Sum of distinct bits. -/
def bitsOf (l : List Pick) : Nat := (l.map fun p => 2 ^ p.bit).foldl (· + ·) 0

/-- Bits set in a mask of 16. -/
def popCount (m : Nat) : Nat := ((List.range 16).filter fun b => m.testBit b).length

/-- Reads the proposal entries of a tile. -/
def proposalsM (w p : TDesc) (i : Nat) : M (List Nat) := do
  return (← readCodes p 0 (w.wUnits * i) w.wUnits).map fun e => e.1

/-- Writes a report (R201): seven words and the epoch, cut into the elements of its tensor. -/
def reportM (t : Option TDesc) (words : List Nat) (epoch : Nat) : M Unit :=
  match t with
  | none => pure ()
  | some t => do
    let v := leNat ((words.flatMap fun x => leBytes 4 x) ++ leBytes 4 epoch)
    putCodes t 0 0 ((List.range t.chan).map fun i => bits v (i * t.width) t.width) 0

/-- A selection's operands and their checks, in common to PRUNE and REGROW. -/
def selectM : M (TDesc × TDesc × TDesc × Option TDesc × List Nat) := do
  let r ← get
  let c := r.c
  let w ← descM (cmdField c 8 4)
  let sc ← descM (maskArg c 0)
  let p ← descM (maskArg c 1)
  let rep ← descOpt (maskArg c 2)
  let _ ← weightM w
  need (scoreOk w sc && srcOk r.exe sc && proposalOk w p && dstOk r.exe p
    && match rep with
      | some t => reportOk t && dstOk r.exe t
      | none => true) stCmdInvalid
  let ts ← rangeM w
  return (w, sc, p, rep, ts)

/-- PRUNE and REGROW are writers of their proposal and report from their start (R293). -/
def writeSelect (p : TDesc) (rep : Option TDesc) : M Unit := do
  writerM p
  match rep with
    | some t => writerM t
    | none => pure ()

/-- PRUNE (R200). -/
def pruneBody : M Unit := do
  let (w, sc, p, rep, ts) ← selectM
  let frac ← fieldM 0x20 2
  writeSelect p rep
  maskWork w fun e => do
    let us := (← mapEach ts fun i => do picksM w sc (← readWTile w e.epoch.toNat i) true).flatten
    let all := us.flatMap fun u => u.2
    countM 10 (all.filter (·.bad)).length
    let d := frac * all.length / 65536
    let last := lastOf pruneOrder (all.map fun x => (x.key, x.idx)) d
    forEach us fun (u, l) => putCodes p 0 u.num [2 ^ 31 + bitsOf (l.filter (upTo pruneOrder last))] 0
    reportM rep [us.length, all.length, d, d, (last.map fun z => z.1).getD 0, 0, 0] e.epoch.toNat
    wordM false d

/-- The bits of a mask that another does not have. -/
def maskDiff (a b : Nat) : Nat := a &&& (a ^^^ (a &&& b))

/-- The pattern that REGROW chooses for a unit: current pattern, droppable positions, growable positions with their scores in ascending element index (R202). -/
def choosePattern (plain : Bool) (pat drop : Nat) (grow : List Pick) : Option Nat :=
  let cur := patMask plain pat
  let g := bitsOf grow
  ((candidates plain).zipIdx.foldl (fun (best : Option (Nat × Nat)) e =>
    let add := maskDiff e.1 cur
    if e.1 == cur || maskDiff (maskDiff cur e.1) drop != 0 || maskDiff add g != 0 then best
    else
      let gain := ((grow.filter fun p => add.testBit p.bit).map (·.key)).foldl fadd 0
      match best with
      | some (bg, bi) => if fltb bg gain then some (gain, e.2) else some (bg, bi)
      | none => some (gain, e.2)) none).map fun b => b.2

/-- REGROW (R202). -/
def regrowBody : M Unit := do
  let (w, sc, p, rep, ts) ← selectM
  let frac ← fieldM 0x20 2
  writeSelect p rep
  maskWork w fun e => do
    let us := (← mapEach ts fun i => do
      let t ← readWTile w e.epoch.toNat i
      let l ← picksM w sc t false
      let props ← proposalsM w p i
      return l.map fun x => (x.1, x.2, props.getD (x.1.num - w.wUnits * i) 0)).flatten
    let all := us.flatMap fun u => u.2.1
    countM 10 (all.filter (·.bad)).length
    let stored := (us.map fun u => popCount (patMask w.twKind u.1.pat)).foldl (· + ·) 0
    let pos := all.filter fun x => x.key != 0
    let g := frac * stored / 65536
    let last := lastOf regrowOrder (pos.map fun x => (x.key, x.idx)) g
    let chosen := us.filterMap fun (u, l, ent) =>
      if !ent.testBit 31 then none
      else
        let grow := ((l.filter fun x => x.key != 0 && upTo regrowOrder last x)).mergeSort fun a b => decide (a.idx ≤ b.idx)
        (choosePattern w.twKind u.pat (ent % 65536) grow).map fun q => (u, ent, q)
    forEach chosen fun (u, ent, q) => putCodes p 0 u.num [2 ^ 31 + 2 ^ 30 + q * 2 ^ 23 + ent % 2 ^ 23] 0
    let changed := (chosen.map fun x => popCount (maskDiff (patMask w.twKind x.1.pat) (patMask w.twKind x.2.2))).foldl (· + ·) 0
    reportM rep [us.length, stored, g, min g pos.length, (last.map fun z => z.1).getD 0, changed, chosen.length] e.epoch.toNat
    wordM false changed

/-- Handles of PRUNE and REGROW. -/
def selectHandles (c : Cmd) : List Nat := [cmdField c 8 4, maskArg c 0, maskArg c 1] ++ optH (maskArg c 2)
/-- Reserved fields of PRUNE and REGROW. -/
def selectOk (c : Cmd) : Bool := maskOk false [4, 5, 6] c && zeroBytes c 0x22 2

/-- PRUNE (R200). -/
def execPrune (q : QNum) (c : Cmd) (s : State) : Out := startCmd q c selectOk selectHandles pruneBody s

/-- REGROW (R202). -/
def execRegrow (q : QNum) (c : Cmd) (s : State) : Out := startCmd q c selectOk selectHandles regrowBody s

/-! ### MASK_COMMIT (R204, R207 to R209) -/

/-- A proposal entry has a fault (R208 phase 1): fields of the entry, the unit's current pattern. -/
def entryBad (plain : Bool) (ent pat : Nat) : Bool :=
  bits ent 16 7 != 0 || (plain && bits ent 4 12 != 0) || (ent.testBit 30 && !ent.testBit 31)
    || decide ((if plain then 6 else 90) ≤ bits ent 23 7) || (ent.testBit 30 && bits ent 23 7 == pat)

/-- K positions 0 to 3 of a group that a pattern stores in column c. -/
def columnOf (plain : Bool) (pat c : Nat) : List Nat :=
  (List.range 4).filter fun p => (patMask plain pat).testBit (if plain then p else 4 * p + c)

/-- The codes of a group after a change of pattern: retained values move, added positions take the +0 code (R208). -/
def remap (old new codes : List Nat) : List Nat :=
  new.map fun p => match old.findIdx? (· == p) with
    | some i => codes.getD i 0
    | none => 0

/-- Sets elements i and i + 1 of a list. -/
def setTwo (l : List Nat) (i : Nat) (v : List Nat) : List Nat := (l.set i (v.getD 0 0)).set (i + 1) (v.getD 1 0)

/-- One unit's change in a tile's quads. -/
def changeUnit (plain : Bool) (qs : List Quad) (u : MUnit) (new : Nat) : List Quad :=
  let qi := u.out / 4
  match qs[qi]? with
  | none => qs
  | some q =>
    let cols := if plain then [u.out % 4] else [0, 1, 2, 3]
    let codes := cols.foldl (fun cs c =>
      let l := cs.getD c []
      cs.set c (setTwo l (2 * u.grp) (remap (columnOf plain u.pat c) (columnOf plain new c) ((l.drop (2 * u.grp)).take 2)))) q.codes
    qs.set qi { q with codes := codes, pats := q.pats.set (if plain then 32 * (u.out % 4) + u.grp else u.grp) new }

/-- Bytes of a quad (R170). -/
def quadBytes (t : TDesc) (q : Quad) : List Byte :=
  (if isBlockFmt t.fmt then q.scales.map (BitVec.ofNat 8) else []) ++ packCodes (if t.twKind then 3 else 7) q.pats
    ++ q.codes.flatMap (packCodes t.width)

/-- Rearranges one companion for a changed unit: codes move and take +0 as the tile's do, offsets stay (R208). -/
def changeCompanion (plain : Bool) (t : TDesc) (tile : Nat) (u : MUnit) (new : Nat) : M Unit :=
  forEach (if plain then [u.out % 4] else [0, 1, 2, 3]) fun c => do
    let i := 32768 * tile + 64 * (u.out / 4 * 4 + c) + 2 * u.grp
    let old ← mapEach [i, i + 1] fun k => readBits t.tier (t.bitAddr 0 k) t.width
    let new := remap (columnOf plain u.pat c) (columnOf plain new c) old
    if new != old then
      forEach (new.zipIdx) fun e => writeBits t.tier (t.bitAddr 0 (i + e.2)) t.width e.1
      evidenceM t (new.any (badCode t 127))

/-- Phase 2 on one tile: its changed units, then NNZ and the new epoch (R208). -/
def rewriteTile (w : TDesc) (comps : List TDesc) (t : WTile) (ch : List (MUnit × Nat)) (epoch : Nat) : M Unit := do
  let qs := ch.foldl (fun qs x => changeUnit w.twKind qs x.1 x.2) t.quads
  forEach (t.quads.zip qs).zipIdx fun e =>
    if e.1.1 = e.1.2 then pure () else writeM w.tier (t.addr + 16 + e.2 * w.quadSize) (quadBytes w e.1.2)
  forEach ch fun x => forEach comps fun d => changeCompanion w.twKind d t.num x.1 x.2
  let nnz := (qs.map fun q => (q.codes.flatten.filter fun v => !zeroCode w v).length).foldl (· + ·) 0
  writeM w.tier (t.addr + 4) (leBytes 2 epoch ++ leBytes 2 nnz)

/-- MASK_COMMIT (R191, R207 to R209). The entry is COMMITTING until the command completes. -/
def maskCommitBody : M Unit := do
  let r ← get
  let c := r.c
  let w ← descM (cmdField c 8 4)
  let p ← descOpt (maskArg c 0)
  let m ← descOpt (maskArg c 1)
  let others ← mapEach [2, 3, 4] fun i => descOpt (maskArg c i)
  let grow ← descOpt (maskArg c 5)
  let rep ← descOpt (maskArg c 6)
  let e ← weightM w
  match p, m with
  | some p, some m => do
    let comps := m :: others.filterMap id
    need (zeroBytes c 0x0C 8 && w.access == 1 && proposalOk w p && dstOk r.exe p && comps.all (fun t => companionOk w t && dstOk r.exe t)
      && (match grow with | some t => scoreDstOk w t && dstOk r.exe t | none => true)
      && (match rep with | some t => reportOk t && dstOk r.exe t | none => true)) stCmdInvalid
    let mine := e.commit == some (r.q, c)
    if (e.st == .idle || (e.st == .commitWait && mine)) && e.refs == 0 then pure ()
    else throw (.hold (.maskRef (BitVec.ofNat 32 w.tid)))
    modS fun s => { s with masks := tput w.tid { e with st := .committing, commit := none } s.masks }
    modW fun x => { x with commit := some (BitVec.ofNat 32 w.tid) }
    let skip ← skippedM
    let new := (e.epoch.toNat + 1) % 65536
    let ts ← mapEach (List.range w.wTiles) fun i => readWTile w e.epoch.toNat i
    let work ← if skip then pure (ts.map fun t => (t, ([] : List (MUnit × Nat)), 0)) else mapEach ts fun t => do
      let props ← proposalsM w p t.num
      let us := unitsOf w t
      need ((us.zip props).all fun x => !entryBad w.twKind x.2 x.1.pat) stCmdInvalid
      let stored := ((us.filter (·.part)).map fun u => popCount (patMask w.twKind u.pat)).foldl (· + ·) 0
      return (t, ((us.zip props).filter fun x => x.1.part && x.2.testBit 30).map (fun x => (x.1, bits x.2 23 7)), stored)
    writerM w
    if skip then forEach ts fun t => writeM w.tier (t.addr + 4) (leBytes 2 new)
    else
      forEach comps writerM
      match grow with
        | some t => writerM t
        | none => pure ()
      forEach work fun x => rewriteTile w comps x.1 x.2.1 new
      match grow with
        | some t => writeTensor t (List.replicate t.rows (List.replicate t.chan 0)) 0 0 0
        | none => pure ()
    forEach ts fun t => putCodes p 0 (w.wUnits * t.num) (List.replicate w.wUnits 0) 0
    let units := (work.map fun x => x.2.1.length).foldl (· + ·) 0
    let changed := (work.flatMap fun x => x.2.1.map fun u => popCount (maskDiff (patMask w.twKind u.1.pat) (patMask w.twKind u.2))).foldl (· + ·) 0
    if !skip then
      modS fun s => bump s 5 0 9 changed
      reportM rep [units, (work.map fun x => x.2.2).foldl (· + ·) 0, 0, 0, 0, changed, units] new
    wordM skip new
  | _, _ => stopWith stCmdInvalid

/-- Handles of MASK_COMMIT: PROP_DESC and MASTER_DESC of zero are refused with CMD_INVALID (R190). -/
def commitHandles (c : Cmd) : List Nat := cmdField c 8 4 :: (List.range 7).flatMap fun i => optH (maskArg c i)

/-- A commit that ends without running, such as one whose descriptor is gone, leaves its weight IDLE again. -/
def leaveWait (q : QNum) (c : Cmd) (s : State) : State :=
  { s with masks := s.masks.map fun e => if e.2.st = .commitWait ∧ e.2.commit = some (q, c) then (e.1, { e.2 with st := .idle, commit := none }) else e }

/-- MASK_COMMIT (R208): at the head of its queue it takes an IDLE entry to COMMIT_WAIT, and runs when no reference is left (R207). -/
def execMaskCommit (q : QNum) (c : Cmd) (s : State) : Out :=
  match startCmd q c (maskOk false []) commitHandles maskCommitBody s with
  | .next t =>
    match (t.queue q).hold with
    | .maskRef id =>
      match tfind t.masks id.toNat with
      | some e => if headOpen s (s.queue q) (exeOf q (s.queue q)) && e.st == .idle then
          .next { t with masks := tput id.toNat { e with st := .commitWait, commit := some (q, c) } t.masks }
        else .next t
      | none => .next t
    | _ => .next (if (t.queue q).next = (s.queue q).next then t else leaveWait q c t)
  | o => o

/-- MASK_REFS_RELEASED (R207, R208): the last reference on a weight in COMMIT_WAIT is gone, and its commit runs. -/
def execMaskRefsReleased (id : BitVec 32) (s : State) : Out :=
  match tfind s.masks id.toNat with
  | some e =>
    match e.commit with
    | some (q, c) => if e.st = .commitWait ∧ e.refs = 0 then execMaskCommit q c s else .next s
    | none => .next s
  | none => .next s

/-! ### MASK_GATHER (R197) -/

/-- MASK_GATHER (R197). -/
def maskGatherBody : M Unit := do
  let r ← get
  let c := r.c
  let w ← descM (cmdField c 8 4)
  let src ← descM (maskArg c 0)
  let dst ← descM (maskArg c 1)
  let _ ← weightM w
  noInts [src]
  need (denseOk w src && srcOk r.exe src && companionOk w dst && dst.fmt != 5 && dstOk r.exe dst) stCmdInvalid
  let ts ← rangeM w
  writerM dst
  maskWork w fun e => do
    let out ← mapEach ts fun i => do
      let t ← readWTile w e.epoch.toNat i
      let depth := tileDepth w i
      mapEach (tileRows w i) fun (n, row) => do
        let l ← maskVals src row (w.wPlace i).1 depth
        let ks := ((t.quads[n / 4]?.map fun q => q.kpos.getD (n % 4) [])).getD []
        return (32768 * i + 64 * n, (ks.filter (decide <| · < depth)).map fun k => l.getD k 0)
    forEach out.flatten fun (i, l) => do
      let _ ← writeRow dst 0 i l
      pure ()
    wordM false e.epoch.toNat

/-- MASK_GATHER (R197). -/
def execMaskGather (q : QNum) (c : Cmd) (s : State) : Out :=
  startCmd q c (maskOk false [2, 3, 4, 5, 6]) scoreHandles maskGatherBody s

end Sys2Proof.Machine
end

