-- ==== Sys2Proof/Machine/Predictor.lean ====
section
/-! DEFINITION. The neuron predictor (09): PREDICT, its scores, its selection, its policies and its audit. Shapes written "a × b" have b as the channel (log entry 31). -/

namespace Sys2Proof.Machine

/-- What a PREDICT names (R254). -/
structure PredOps where
  x : TDesc
  p : TDesc
  q : TDesc
  sbias : Option TDesc
  w1 : Option TDesc
  b1 : Option TDesc
  tok : TDesc
  gate : Option TDesc
  stats : Option TDesc
  deriving DecidableEq, Repr

/-- Reads the descriptors of a PREDICT. -/
def predOps : M PredOps := do
  let c := (← get).c
  return ⟨← descM (cmdField c 8 4), ← descM (cmdField c 0x0C 4), ← descM (cmdField c 0x10 4), ← descOpt (cmdField c 0x14 4),
    ← descOpt (cmdField c 0x18 4), ← descOpt (cmdField c 0x1C 4), ← descM (cmdField c 0x20 4), ← descOpt (cmdField c 0x24 4),
    ← descOpt (cmdField c 0x28 4)⟩

/-- A descriptor of the core's near memory that may be read. -/
def nearSrc (e : Exe) (t : TDesc) : Bool := t.tier == 0 && srcOk e t
/-- A descriptor of the core's near memory that may be written. -/
def nearDst (e : Exe) (t : TDesc) : Bool := t.tier == 0 && dstOk e t
/-- A test on a descriptor that may be absent. -/
def optOk (p : TDesc → Bool) : Option TDesc → Bool
  | some t => p t
  | none => true
/-- Marks the tensor of a destination that may be absent (R293). -/
def writerOpt : Option TDesc → M Unit
  | some t => writerM t
  | none => pure ()

/-- The formats of P and Q (R256). -/
def factorFmt (f : Nat) : Bool := [0x02, 0x01, 0x03, 0x08, 0x0C].contains f

/-- Global token number of a local row of the bitmap. -/
def tokenOf (j : Job) (t : TDesc) (row : Nat) : Nat := elemIndex j t (t.coords row 0) / t.size.headD 1

/-- The token groups of 64 of the bitmap's global shape that a shard has tokens of, ascending: the rows of its gate bytes (R249). -/
def gateGroups (j : Job) (tok : TDesc) : List Nat := ((List.range tok.rows).map fun i => tokenOf j tok i / 64).dedup

/-- The cases of R256 are absent. -/
def predictOk (j : Job) (c : Cmd) (e : Exe) (o : PredOps) : Bool :=
  let n := o.q.chan
  let topk := !(cmdField c 0x3C 1).testBit 5
  let sel := cmdField c 0x2C 4
  let vec := fun (t : TDesc) => nearSrc e t && t.fmt == 0 && t.rows == 1 && t.chan == n
  let bitmap := fun (t : TDesc) => nearDst e t && t.fmt == 0x1B && t.rows == o.x.rows && t.chan == n / 8
  nearSrc e o.x && nearSrc e o.p && nearSrc e o.q && optOk vec o.sbias && optOk vec o.b1
    && decide (o.p.chan ≤ 256) && o.p.chan == o.q.rows && o.p.rows == o.x.chan && factorFmt o.p.fmt && factorFmt o.q.fmt
    && n % 32 == 0 && bitmap o.tok && optOk bitmap o.stats
    && optOk (fun t => nearDst e t && t.fmt == 0x1B && t.rows == (gateGroups j o.tok).length && t.chan == n) o.gate
    && (match o.w1 with
      | some w => nearSrc e w && w.chan == o.x.chan && w.rows == n
      | none => false)
    && (if topk then decide (1 ≤ sel) && decide (sel ≤ n) else f32IsFinite sel) && f32IsFinite (cmdField c 0x30 4)
    && cmdField c 0x34 4 % (if o.gate.isSome then 64 else 32) == 0 && cmdField c 0x38 4 != 0

/-! ### Scores and selection (R258 to R260) -/

/-- Key of a score, and whether it is NaN (R259). -/
def rankKey (v : Nat) : Int × Bool :=
  if f32IsNan v then (-0x7F800000, true)
  else if f32Neg v then (-(f32Abs v : Int), false) else ((f32Abs v : Int), false)

/-- The bits of the k largest keys; among equal keys the lower index is taken first (R260). -/
def topBits (k : Nat) (keys : List Int) : List Bool :=
  let order := fun (a b : Int × Nat) => decide (b.1 < a.1) || (a.1 == b.1 && decide (a.2 ≤ b.2))
  match (keys.zipIdx.mergeSort order)[k - 1]? with
  | some z => keys.zipIdx.map fun e => order e z
  | none => keys.map fun _ => true

/-- Predicted bits of a token from its scores (R260). -/
def predictBits (c : Cmd) (s : List Nat) : List Bool :=
  let sel := cmdField c 0x2C 4
  if (cmdField c 0x3C 1).testBit 5 then s.map fun v => !f32IsNan v && fltb sel v
  else topBits sel (s.map fun v => (rankKey v).1)

/-- Scores of one token: the factors by columns, the bias by neuron (R258). -/
def tokenScores (x : List Nat) (pc qc : List (List Nat)) (bias : Option (List Nat)) : List Nat :=
  let u := pc.map fun col => rowSum ((x.zip col).map fun e => fmul e.1 e.2)
  (qc.zipIdx.map fun col =>
    let s := rowSum ((u.zip col.1).map fun e => fmul e.1 e.2)
    match bias with
    | some b => fadd s (b.getD col.2 0)
    | none => s)

/-- Columns of a list of rows of n elements. -/
def columns (n : Nat) (rows : List (List Nat)) : List (List Nat) := (List.range n).map fun i => rows.map fun r => r.getD i 0

/-! ### The audit (R263 to R265) -/

/-- A row converted to MXFP4 in blocks of 32 and back. -/
def x4Row (l : List Nat) : List Nat :=
  match fmtOf 0x0C with
  | none => l
  | some k => (chunksOf 32 (l.length / 32 + 1) l).flatMap fun b =>
      let n := narrowBlock k (fun _ => .rne) none b
      n.codes.map fun v => widen k n.scale v

/-- Checks the epochs of the tiles that hold a row of W1 (R165, R205). -/
def rowEpochs (w : TDesc) (row : Nat) : M Unit := do
  if w.layout = 2 ∨ w.layout = 3 then
    let addrs := if w.layout = 2 then (List.range ((w.chan + 31) / 32)).map fun v => w.slotAddr row (32 * v)
      else (List.range w.wKT).map fun h => w.wslotAddr (128 * h) (row % w.ext.getD 1 1) (row / w.ext.getD 1 1)
    forEach addrs fun a => do
      let h := parseHdr (← readM w.tier a 16)
      checkHdr w h a
      let s ← getS
      match tfind s.masks h.tid with
        | some e => if h.masked then epochCheck e.epoch.toNat h.epoch else pure ()
        | none => pure ()

/-- What the audit found at one position: the class of R265 and whether z was NaN. -/
structure Audit where
  miss : Bool
  falsePos : Bool
  nan : Bool
  deriving DecidableEq, Repr

/-- One audited position: x4 and w4 along k, b1, Z_MIN, the predicted bit (R264, R265). -/
def auditOne (x w : List Nat) (b zmin : Nat) (pred : Bool) : Audit :=
  let z := fadd ((x.zip w).foldl (fun a e => fadd a (fmul e.1 e.2)) 0) b
  let active := !f32IsNan z && fltb zmin z
  ⟨active && !pred, pred && !active, f32IsNan z⟩

/-- Global neuron number of a local bit of the bitmap's rows. -/
def neuronOf (j : Job) (t : TDesc) (n : Nat) : Nat := 8 * (elemIndex j t (t.coords 0 (n / 8)) % t.size.headD 1) + n % 8

/-- The members of each aligned group of 32 of the global numbers g that a list has whole. -/
def wholeGroups (g : Nat → Nat) (l : List Nat) : List (List Nat) :=
  ((l.map fun i => g i / 32).dedup.map fun k => l.filter fun i => g i / 32 == k).filter fun m => m.length == 32

/-- The audit tiles of a range that lie wholly in it and are chosen, 32 tokens by 32 neurons of the global shape: local rows and local neurons (R263). -/
def auditTiles (j : Job) (tok : TDesc) (a n : Nat) (rows : List Nat) : List (List Nat × List Nat) :=
  (wholeGroups (tokenOf j tok) rows).flatMap fun mine =>
    ((wholeGroups (neuronOf j tok) (List.range n)).filter fun ns =>
      randBits j.seed.toNat j.step.toNat tok.tid 0 (elemIndex j tok (tok.coords (mine.headD 0) (ns.headD 0 / 8))) 3 % 2 ^ a == 0).map fun ns => (mine, ns)

/-- One audit tile: the positions' findings. -/
def auditTile (c : Cmd) (w1 : TDesc) (b1 : Option (List Nat)) (xs : List (Nat × List Nat)) (pred : List (Nat × List Bool)) (tile : List Nat × List Nat) : M (List Audit) := do
  let ws ← mapEach tile.2 fun n => do
    rowEpochs w1 n
    return (n, x4Row (← maskVals w1 n 0 w1.chan))
  return tile.1.flatMap fun r =>
    let x := x4Row ((xs.lookup r).getD [])
    ws.map fun w => auditOne x w.2 ((b1.map fun l => l.getD w.1 0).getD 0) (cmdField c 0x30 4) (((pred.lookup r).getD []).getD w.1 false)

/-! ### PREDICT -/

/-- Addresses of a tiled tensor's slots. -/
def slotAddrs (t : TDesc) : List Nat :=
  if t.layout = 2 then (List.range (((t.rows + 31) / 32) * ((t.chan + 31) / 32))).map fun k => t.base + k * t.slotSize
  else if t.layout = 3 then (List.range t.wTiles).map fun k => t.base + k * t.wtileSize
  else []

/-- The registered weights that the MASKED tiles of a tensor name (R165, R206). Tiles that cannot be read are met again when they are audited. -/
def maskedIds (t : TDesc) : M (List Nat) := do
  let hs ← mapEach (slotAddrs t) fun a => do
    let before := (← get).w
    let r ← tryCatch (Option.some <$> readM t.tier a 16) fun e => match e with
      | .done _ _ _ _ => pure none
      | e => throw e
    modW fun _ => before
    return r.map parseHdr
  let s ← getS
  return (((hs.filterMap id).filter (·.masked)).map (·.tid)).dedup.filter fun id => (tfind s.masks id).isSome

/-- Packs bits into bytes, bit 0 first (R174). -/
def bitBytes (l : List Bool) : List Nat := (packCodes 1 (l.map fun b => if b then 1 else 0)).map (·.toNat)

/-- The policy in force (R255). -/
def policyOf (s : State) (c : Cmd) : Nat :=
  let b := cmdField c 0x3C 1
  if bits b 6 2 = 3 then s.reg 0x5840 (if b.testBit 4 then 3 else 2) else bits b 6 2

/-- PREDICT: the body of the command (R249 to R265). -/
def predictBody : M Unit := do
  let r ← get
  let c := r.c
  let o ← predOps
  let j ← jobM
  need (factorFmt o.p.fmt && factorFmt o.q.fmt) stCmdInvalid
  noInts (o.x :: o.w1.toList)
  need (predictOk j c r.exe o) stCmdInvalid
  let start := cmdField c 0x34 4
  let count := cmdField c 0x38 4
  need (decide (start + count ≤ o.x.rows)) stDescOob
  match o.w1 with
  | none => stopWith stCmdInvalid
  | some w1 => do
    forEach (← maskedIds w1) fun id => do
      let _ ← idleMask id
      refMask id
    writerM o.tok
    writerOpt o.gate
    writerOpt o.stats
    let n := o.q.chan
    let policy := policyOf r.s c
    let rows := rangeFrom start count
    let pc := columns o.p.chan (← mapEach (List.range o.p.rows) fun k => maskVals o.p k 0 o.p.chan)
    let qc := columns n (← mapEach (List.range o.q.rows) fun k => maskVals o.q k 0 n)
    let bias ← match o.sbias with
      | some t => some <$> maskVals t 0 0 n
      | none => pure none
    let b1 ← match o.b1 with
      | some t => some <$> maskVals t 0 0 n
      | none => pure none
    let xs ← mapEach rows fun t => do return (t, ← maskVals o.x t 0 o.x.chan)
    let scores := xs.map fun x => (x.1, tokenScores x.2 pc qc bias)
    let pred := scores.map fun e => (e.1, predictBits c e.2)
    let audits ← mapEach (auditTiles j o.tok (r.s.reg 0x5840 4) n rows) fun t => do return (t, ← auditTile c w1 b1 xs pred t)
    let missed := audits.filter fun a => a.2.any (·.miss)
    let made := if policy = 1 then missed else []
    let token := pred.map fun e => (e.1, e.2.zipIdx.map fun b =>
      b.1 || policy == 2 || made.any fun m => m.1.1.contains e.1 && m.1.2.contains b.2)
    let all := audits.flatMap fun a => a.2
    countM 14 ((pred.map fun e => (e.2.filter id).length).foldl (· + ·) 0)
    countM 15 all.length
    countM 16 (all.filter (·.miss)).length
    countM 17 (all.filter (·.falsePos)).length
    countM 18 made.length
    countM 19 (((scores.map fun e => (e.2.filter f32IsNan).length).foldl (· + ·) 0) + (all.filter (·.nan)).length)
    forEach token fun e => putCodes o.tok e.1 0 (bitBytes e.2) 0
    match o.stats with
      | some t => forEach pred fun e => putCodes t e.1 0 (bitBytes e.2) 0
      | none => pure ()
    match o.gate with
      | some t =>
        forEach (rows.map fun i => tokenOf j o.tok i / 64).dedup fun g => do
          let mine := token.filter fun e => tokenOf j o.tok e.1 / 64 == g
          putCodes t ((gateGroups j o.tok).idxOf g) 0 ((List.range n).map fun k => if mine.any fun e => e.2.getD k false then 0xFF else 0) 0
      | none => pure ()
    modW fun w => { w with opspec := BitVec.ofNat 32 ((if made.isEmpty then 0 else 2 ^ 31) + min missed.length 32767 * 65536 + min audits.length 65535) }

/-- Handles of PREDICT. -/
def predictHandles (c : Cmd) : List Nat :=
  [cmdField c 8 4, cmdField c 0x0C 4, cmdField c 0x10 4, cmdField c 0x20 4] ++
    [0x14, 0x18, 0x1C, 0x24, 0x28].flatMap fun o => optH (cmdField c o 4)

/-- The reserved fields of PREDICT. -/
def predictReserved (c : Cmd) : Bool := cmdField c 0x3C 1 % 16 == 0 && zeroBytes c 0x3D 3

/-- PREDICT (R254 to R264). -/
def execPredict (q : QNum) (c : Cmd) (s : State) : Out :=
  startCmd q c predictReserved predictHandles predictBody s

end Sys2Proof.Machine
end

