-- ==== Sys2Proof/Machine/Dma.lean ====
section
/-! DEFINITION. The DMA engines (12): COPY, FILL, COMPARE and TRANSPOSE_COPY. A command is a list of units in ascending order of the destination's local linear index: an element, a block of a scaled destination, or 16 bytes of a tile slot; it stops at the unit that faults (R346). -/

namespace Sys2Proof.Machine

/-! ### Units (R343, R346) -/

/-- One unit of a DMA command: destination bits, local linear index of its first element in the selected range, source and destination addresses, and its work, which answers whether a COMPARE found a mismatch. -/
structure DUnit where
  bits : Nat
  idx : Nat
  src : Nat
  dst : Nat
  act : M Bool

/-- Runs a body and answers why it stopped, if it did; what it did before stays. A hold, or a wait for a host page, holds the whole command. -/
def tryStop (act : M Bool) : M (Except Stop Bool) :=
  tryCatch (Except.ok <$> act) fun e => match e with
    | .done a b c d => pure (.error (.done a b c d))
    | e => throw e

/-- Runs units up to the first that stops: the mismatching ones, the units not done, and the reason. -/
def runUnits : List DUnit → M (List Nat × List DUnit × Option Stop)
  | [] => pure ([], [], none)
  | u :: r => do
    match ← tryStop u.act with
    | .ok b => do
      let (l, rest, st) ← runUnits r
      return (if b then u.idx :: l else l, rest, st)
    | .error st => return ([], u :: r, some st)

/-- The bursts that units are done in, from the one under way: its bits so far and its pages, and the bits left. A burst is at most 4 KiB, within one 64 KiB page of each operand (R343). `bad` has the mismatches that the command finds. -/
def burstsOf (bad : List Nat) : Nat → Nat → Nat → Nat → List DUnit → List Burst
  | _, _, _, _, [] => []
  | used, sp, dp, left, u :: r =>
    let fresh := used == 0 || decide (32768 < used + u.bits) || u.src / 65536 != sp || u.dst / 65536 != dp
    let rest := burstsOf bad (if fresh then u.bits else used + u.bits) (u.src / 65536) (u.dst / 65536) (left - u.bits) r
    let before := bad.filter fun i => decide (i < u.idx)
    if fresh then ⟨(left + 7) / 8, some (u.idx, u.src, u.dst), before.length, before.headD 0⟩ :: rest else rest

/-! ### Selected ranges (R337, R338) -/

/-- Local shape of a selection: COUNT coordinates of the outermost dimension, or all. -/
def selShape (t : TDesc) (count : Nat) : List Nat :=
  if count = 0 then t.ext else t.ext.dropLast ++ [count]

/-- Coordinates of the whole tensor from coordinates of a selection. -/
def selAt (first : Nat) (x : List Nat) : List Nat := x.dropLast ++ [x.getLastD 0 + first]

/-- Row of coordinates: their flattened outer part. -/
def TDesc.rowAt (t : TDesc) (x : List Nat) : Nat := flatten (t.ext.drop 1) (x.drop 1)

/-- Bit address of an element of an untiled tensor. -/
def TDesc.bitAt (t : TDesc) (x : List Nat) : Nat := ((8 * t.base : Nat) + strideOff t.stride x * (t.width : Int)).toNat
/-- Address of its scale or offset byte. -/
def TDesc.scaleAt (t : TDesc) (x : List Nat) : Nat := ((t.aux : Int) + (strideOff t.stride x).fdiv (t.block : Int)).toNat
/-- Byte address of an element; of a tiled tensor, of its slot. -/
def TDesc.byteAt (t : TDesc) (x : List Nat) : Nat :=
  if t.layout = 2 then t.slotAddr (t.rowAt x) (x.headD 0)
  else if t.layout = 3 then t.wslotAddr (x.getD 0 0) (x.getD 1 0) (x.getD 2 0)
  else t.bitAt x / 8

/-- Exchanges coordinates 0 and 1. -/
def swap01 : List Nat → List Nat
  | a :: b :: r => b :: a :: r
  | l => l

/-- The first element of a block within a row of a selection. -/
def blockStart (t : TDesc) (first : Bool) (c : Nat) : Bool := first || c % t.block == 0

/-- The pieces of n elements from coordinate c that end at multiples of b. -/
def piecesBy (b : Nat) : Nat → Nat → Nat → List (Nat × Nat)
  | 0, _, _ => []
  | k + 1, c, n =>
    if n = 0 then []
    else
      let m := min n (b - c % b)
      (c, m) :: piecesBy b k (c + m) (n - m)

/-! ### Ranges that overlap (R338) -/

/-- Reads with memory as it stood in z: a source that the command overwrites is moved as it was. -/
def asOf {α : Type} (z : State) (act : M α) : M α := do
  let now ← getS
  modS fun s => { s with mem := z.mem, poison := z.poison }
  let x ← tryCatch (Except.ok <$> act) fun e => pure (Except.error e)
  modS fun s => { s with mem := now.mem, poison := now.poison }
  match x with
    | .ok a => pure a
    | .error e => throw e

/-- Where bytes of a tier lie on the device: pieces of physical addresses, without what lies in host memory, whose reads are free. -/
def placesOf (r : Run) (tier : Nat) (e : Nat × Nat) : List (Nat × Nat) :=
  if tier = 0 then [e]
  else (piecesOf e.1 e.2).filterMap fun p =>
    match xlate r.s r.f r.job p.1 false (some tier) with
    | .dev a _ => some (a, p.2)
    | _ => none

/-- The bytes of a selection's elements and scales. -/
def selBytes (t : TDesc) (first count : Nat) : List (Nat × Nat) :=
  let shape := selShape t count
  (List.range (shape.foldl (· * ·) 1)).flatMap fun i =>
    let x := selAt first (unflatten shape i)
    (t.bitAt x / 8, (t.bitAt x % 8 + t.width + 7) / 8) :: if t.block = 1 then [] else [(t.scaleAt x, 1)]

/-! ### Elements -/

/-- Code and scale byte of an element of an untiled tensor. -/
def codeAt (t : TDesc) (x : List Nat) : M (Nat × Nat) := do
  let code ← readBits t.tier (t.bitAt x) t.width
  let sc ← if t.block = 1 then pure 0 else do
    let b ← readM t.tier (t.scaleAt x) 1
    pure (leNat b)
  return (code, sc)

/-- The epoch of a MASKED source tile must be its weight's current one, and the one that the command read first (R162, R205, R346). -/
def sameEpoch (t : TDesc) (x : List Nat) (epoch : Option (Nat × Nat)) : M Unit :=
  match epoch with
  | none => pure ()
  | some (_, e) => do
    let h := parseHdr (← readM t.tier (t.byteAt x) 16)
    if h.masked then
      match tfind (← getS).masks h.tid with
        | some m => epochCheck m.epoch.toNat h.epoch
        | none => pure ()
      epochCheck e h.epoch

/-- An element widened to FP32, counted as the decoder counts it (R76). -/
def valueAt (t : TDesc) (epoch : Option (Nat × Nat)) (first : Bool) (x : List Nat) : M Nat := do
  let e ← if t.tiled then do
      let l ← readCodes t (t.rowAt x) (x.headD 0) 1
      sameEpoch t x epoch
      pure (l.headD (0, 0))
    else codeAt t x
  if t.fmt = 0x0E && e.1 == 2 then countM 3 1
  if isGm16 t.fmt && e.2 == 0xFF && blockStart t first (x.headD 0) then countM 4 1
  match fmtOf t.fmt with
  | some k => return widen k e.2 e.1
  | none => stopWith stCmdInvalid

/-- Stores a code as it stands, with its block's scale byte where asked, and the padding behind a row's last element; a non-finite value in a WG tensor is evidence (R221, R329). -/
def storeCode (t : TDesc) (x : List Nat) (code : Nat) (scale : Option Nat) : M Unit := do
  match scale with
    | some v => if t.block = 1 then pure () else writeM t.tier (t.scaleAt x) (leBytes 1 v)
    | none => pure ()
  writeBits t.tier (t.bitAt x) t.width code
  padRow t (t.rowAt x) (x.headD 0 + 1)
  match fmtOf t.fmt with
    | some _ => evidenceM t (badCode t (scale.getD 127) code)
    | none => pure ()

/-- Adds to a stored element (R330). -/
def addAt (t : TDesc) (x : List Nat) (v : Nat) : M Unit := do
  let a := t.bitAt x
  let b := leNat (← peekM t.tier (a / 8) (t.width / 8))
  if isIntFmt t.fmt then writeBits t.tier a t.width (b + v)
  else match fmtOf t.fmt with
    | some k => do
      let _ ← writeRow t (t.rowAt x) (x.headD 0) [fadd (widen k 0 b) v]
      pure ()
    | none => pure ()

/-! ### The commands' units -/

/-- Units that move the elements of a selection one by one: `body` has the selection's coordinates and whether the element is the first of its row. -/
def elemUnits (shape : List Nat) (w : Nat) (src dst : List Nat → Nat) (body : List Nat → Bool → M Bool) : List DUnit :=
  (List.range (shape.foldl (· * ·) 1)).map fun i =>
    let x := unflatten shape i
    ⟨w, i, src x, dst x, body x (x.headD 0 == 0)⟩

/-- Units that write whole pieces of a destination's blocks from values. -/
def pieceUnits (shape : List Nat) (d : TDesc) (df : Nat) (src : List Nat → Nat) (val : List Nat → Bool → M Nat) (rne : Bool) : List DUnit :=
  let n := shape.headD 0
  (List.range ((shape.drop 1).foldl (· * ·) 1)).flatMap fun r =>
    let outer := unflatten (shape.drop 1) r
    let c0 := if shape.length = 1 then df else 0
    (piecesBy d.block (n + 1) c0 n).map fun (c, m) =>
      let x := (c - c0) :: outer
      ⟨m * d.width, flatten shape x, src x, d.byteAt (selAt df x), do
        let vals ← mapEach (List.range m) fun k => val ((c - c0 + k) :: outer) (c - c0 + k == 0)
        let _ ← writeRow d (d.rowAt (selAt df x)) c vals none none rne
        return false⟩

/-- Slots of a tiled tensor that a selection covers; none where it splits one (R320, R321, R338). -/
def slotRange (t : TDesc) (first count : Nat) : Option (Nat × Nat) :=
  let n := t.ext.getLastD 0
  let last := if count = 0 then n else first + count
  let (lo, hi, lim, unit, per) :=
    if t.layout = 2 then
      if t.rank = 1 then (first, last, n, 32, 1)
      else
        let inner := (t.ext.drop 1).dropLast.foldl (· * ·) 1
        (first * inner, last * inner, n * inner, 32, (t.chan + 31) / 32)
    else if t.rank = 2 then (first, last, n, 512, t.wKT)
    else (first, last, n, 1, t.wNT * t.wKT)
  if lo % unit != 0 || (hi % unit != 0 && hi != lim) then none else some (lo / unit * per, (hi + unit - 1) / unit * per)

/-- Bytes of a slot. -/
def TDesc.anySlot (t : TDesc) : Nat := if t.layout = 2 then t.slotSize else t.wtileSize

/-- The bytes that a selection of a source is read from; of a tiled tensor its slots. -/
def sourceBytes (t : TDesc) (first count : Nat) : List (Nat × Nat) :=
  if t.tiled then
    match slotRange t first count, slotRange t 0 0 with
    | some (a, b), _ | none, some (a, b) => [(t.base + a * t.anySlot, (b - a) * t.anySlot)]
    | none, none => []
  else selBytes t first count

/-- The bytes that the command has written and that belong to its source as well hold free values (R338). -/
def freeOverlap (s d : TDesc) (first count : Nat) : M Unit := do
  let r ← get
  let src := (sourceBytes s first count).flatMap (placesOf r s.tier)
  let out := r.w.spans.flatMap fun sp => if sp.near then [(sp.start, sp.len)] else if d.tier = 0 then [] else placesOf r d.tier (sp.start, sp.len)
  forEach (out.flatMap fun e => (rangeFrom e.1 e.2).filter fun a => src.any fun x => decide (x.1 ≤ a) && decide (a < x.1 + x.2)) fun a =>
    modS fun m => { (drawBytes m 1).2 with mem := memPut a (drawBytes m 1).1 m.mem }

/-- Coordinates of the first element of a slot. -/
def TDesc.slotFirst (t : TDesc) (k : Nat) : List Nat :=
  if t.layout = 2 then
    let ct := (t.chan + 31) / 32
    (32 * (k % ct)) :: unflatten (t.ext.drop 1) (32 * (k / ct))
  else
    let (a, b, e) := t.wPlace k
    if t.rank = 2 then [a, b] else [a, b, e]

/-- A slot of a WG tensor holds a non-finite value; the slots of other tensors are not looked at (R221). -/
def slotBad (t : TDesc) (addr : Nat) : M Bool := do
  let r ← get
  if ((r.s.job r.job).kindOf t.tid).all fun k => k.kind != 3 then return false
  let v := leNat (← peekM t.tier addr t.anySlot)
  if t.layout = 2 then
    let h := parseHdr (leBytes 16 v)
    let vals := 8 * (16 + t.tileScales)
    let places := if h.kind = 1 then List.range 1024 else (List.range 1024).filter fun i => v.testBit (vals + i)
    let at0 := if h.kind = 1 then vals else vals + 1024
    return places.zipIdx.any fun e => badCode t (bits v (128 + 8 * (e.1 / 32)) 8) (bits v (at0 + e.2 * t.width) t.width)
  else
    let sc := if isBlockFmt t.fmt then 8 else 0
    return (List.range 128).any fun q => (List.range 256).any fun i =>
      let a := 8 * (16 + q * t.quadSize)
      badCode t (bits v (a + 8 * (i / 32)) 8) (bits v (a + 8 * (sc + t.patBytes) + i * t.width) t.width)

/-- Units of a COPY between tiled tensors: whole slots, verbatim and unchecked. -/
def slotUnits (z : State) (s d : TDesc) (s0 s1 d0 sf : Nat) : List DUnit :=
  (List.range ((s1 - s0) * (s.anySlot / 16))).map fun i =>
    let k := i / (s.anySlot / 16)
    let o := 16 * (i % (s.anySlot / 16))
    let first := s.slotFirst (s0 + k)
    let a := s.base + (s0 + k) * s.anySlot + o
    let b := d.base + (d0 + k) * d.anySlot + o
    ⟨128, flatten s.ext (first.dropLast ++ [first.getLastD 0 - sf]), a, b, do
      writeM d.tier b (← asOf z (readM s.tier a 16))
      if o + 16 = d.anySlot then
        evidenceM d (← slotBad d (b - o))
      return false⟩

/-- Units of a TRANSPOSE_COPY into tiles: one DENSE tile each (R162). -/
def tileUnits (z : State) (s d : TDesc) (sf df : Nat) (d0 d1 : Nat) (epoch : Option (Nat × Nat)) : List DUnit :=
  (rangeFrom d0 (d1 - d0)).map fun k =>
    let ct := (d.chan + 31) / 32
    let row0 := 32 * (k / ct)
    let c0 := 32 * (k % ct)
    let back := fun (x : List Nat) => x.dropLast ++ [x.getLastD 0 - df]
    let srcOf := fun (row c : Nat) => selAt sf (swap01 (back (d.coords row c)))
    let addr := d.slotAddr row0 c0
    ⟨8 * d.slotSize, flatten (selShape d 0) (back (d.coords row0 c0)), s.byteAt (srcOf row0 c0), addr, do
      let rows ← mapEach (rangeFrom row0 (min 32 (d.rows - row0))) fun row =>
        mapEach (rangeFrom c0 (min 32 (d.chan - c0))) fun c => asOf z (valueAt s epoch ((srcOf row c).headD 0 == 0) (srcOf row c))
      clearTile d addr
      let bad ← mapEach rows.zipIdx fun e => writeRow d (row0 + e.2) c0 e.1 none none (isBlockFmt d.fmt)
      putDenseHdr d addr ((if epoch.isSome then 32 else 0) + if bad.any id then 64 else 0) ((epoch.map (·.2)).getD 0) ((epoch.map (·.1)).getD 0)
      return false⟩

/-! ### Checks (R342) -/

/-- What a DMA command names. -/
structure DmaOps where
  src : Option TDesc
  dst : Option TDesc
  stat : Option TDesc
  deriving DecidableEq, Repr

/-- The fill value obeys R340. -/
def fillOk (t : TDesc) (v : Nat) : Bool :=
  if t.block = 1 then decide (v < 2 ^ t.width)
  else
    let sc := bits v 56 8
    bits v t.width (56 - t.width) == 0 && sc != 0xFF && (!isGm16 t.fmt || (decide (3 ≤ sc) && decide (sc ≤ 254)))
      && (t.fmt != 0x0E || v % 4 != 2)

/-- The status block's descriptor (R345). -/
def statOk (e : Exe) (t : TDesc) : Bool := dstOk e t && t.layout == 0 && t.fmt == 0x1B && decide (64 ≤ t.count)

/-- A source and a destination that no conversion of integers joins. R342 names CMD_INVALID for a pair that R55 forbids, where R55 itself names DESC_INVALID: the rule of the command is taken (DEDUCED, log entry 100). -/
def pairOk (s d : TDesc) : Bool := s.fmt == d.fmt || (!isIntFmt s.fmt && !isIntFmt d.fmt)

/-- The cases of R342 are absent. A TRANSPOSE_COPY of rank 3 or more whose range splits a destination tile is refused with them (DESIGN CHOICE, log entry 102). -/
def dmaOk (c : Cmd) (e : Exe) (o : DmaOps) : Bool :=
  let op := (opByte c).toNat
  let sf := cmdField c 0x24 4
  let df := cmdField c 0x28 4
  let n := cmdField c 0x2C 4
  let k := cmdField c 0x10 8
  let pre := (cmdField c 0x30 1).testBit 7
  semFieldOk (cmdField c 0x18 4) && (n != 0 || (sf == 0 && df == 0)) && optOk (statOk e) o.stat &&
    match op, o.src, o.dst with
    | 0x51, none, some d => !pre && dstOk e d && !d.tiled && fillOk d k
    | 0x52, some a, b =>
      !pre && srcOk e a && !a.tiled &&
        (match b with
          | some b => srcOk e b && !b.tiled && selShape a n == selShape b n
          | none => a.block == 1 && decide (k < 2 ^ a.width))
    | 0x50, some s, some d =>
      srcOk e s && reaches e d && !d.idxEn && (d.access == 1 || d.access == 2) && selShape s n == selShape d n && pairOk s d
        && (!pre || d.tier == 0) && s.tiled == d.tiled && (!s.tiled || (s.layout == d.layout && s.fmt == d.fmt && s.twKind == d.twKind
          && (slotRange s sf n).isSome && (slotRange d df n).isSome))
    | 0x53, some s, some d =>
      srcOk e s && dstOk e d && (!pre || d.tier == 0) && pairOk s d && decide (2 ≤ s.rank) && s.rank == d.rank
        && swap01 (selShape s n) == selShape d n && (s.rank != 2 || (sf == 0 && df == 0 && n == 0))
        && (s.layout != 3 || (match e with | .de _ _ => true | _ => false)) && (!d.tiled || (slotRange d df n).isSome)
    | _, _, _ => false

/-- A selection lies within its tensor's local extent. -/
def selInside (t : Option TDesc) (first count : Nat) : Bool := optOk (fun t => decide (first + count ≤ t.ext.getLastD 0)) t

/-- The units of a command. Regions of different formats are compared code by code: codes of different widths differ, and scales are compared where both regions have them (DESIGN CHOICE, log entry 101). What they read of a source that they also write is as in z, where the command starts (log entry 65). -/
def dmaUnits (z : State) (c : Cmd) (o : DmaOps) (epoch : Option (Nat × Nat)) : List DUnit :=
  let sf := cmdField c 0x24 4
  let df := cmdField c 0x28 4
  let n := cmdField c 0x2C 4
  let k := cmdField c 0x10 8
  match (opByte c).toNat, o.src, o.dst with
  | 0x51, _, some d =>
    elemUnits (selShape d n) d.width (fun _ => 0) (fun x => d.byteAt (selAt df x)) fun x first => do
      let y := selAt df x
      storeCode d y (k % 2 ^ d.width) (if d.block != 1 && blockStart d first (y.headD 0) then some (bits k 56 8) else none)
      return false
  | 0x52, some a, b =>
    elemUnits (selShape a n) a.width (fun x => a.byteAt (selAt sf x)) (fun x => (b.map fun t => t.byteAt (selAt df x)).getD 0) fun x _ => do
      let u ← codeAt a (selAt sf x)
      match b with
      | some t =>
        let v ← codeAt t (selAt df x)
        return a.width != t.width || u.1 != v.1 || (a.block != 1 && t.block != 1 && u.2 != v.2)
      | none => return u.1 != k
  | 0x50, some s, some d =>
    if s.tiled then
      match slotRange s sf n, slotRange d df n with
      | some (s0, s1), some (d0, _) => slotUnits z s d s0 s1 d0 sf
      | _, _ => []
    else if d.access = 2 then
      elemUnits (selShape d n) d.width (fun x => s.byteAt (selAt sf x)) (fun x => d.byteAt (selAt df x)) fun x first => do
        let v ← if isIntFmt s.fmt then do
            let e ← asOf z (codeAt s (selAt sf x))
            pure e.1
          else asOf z (valueAt s none first (selAt sf x))
        addAt d (selAt df x) v
        return false
    else if s.fmt = d.fmt then
      elemUnits (selShape d n) d.width (fun x => s.byteAt (selAt sf x)) (fun x => d.byteAt (selAt df x)) fun x first => do
        let a := selAt sf x
        let b := selAt df x
        let (code, sc) ← asOf z (codeAt s a)
        storeCode d b code (if blockStart s first (a.headD 0) || blockStart d first (b.headD 0) then some sc else none)
        return false
    else
      pieceUnits (selShape d n) d df (fun x => s.byteAt (selAt sf x)) (fun x first => asOf z (valueAt s none first (selAt sf x))) false
  | 0x53, some s, some d =>
    let srcOf := fun (x : List Nat) => selAt sf (swap01 x)
    if d.tiled then
      match slotRange d df n with
      | some (d0, d1) => tileUnits z s d sf df d0 d1 epoch
      | none => []
    else if isIntFmt d.fmt then
      elemUnits (selShape d n) d.width (fun x => s.byteAt (srcOf x)) (fun x => d.byteAt (selAt df x)) fun x _ => do
        let e ← asOf z (codeAt s (srcOf x))
        storeCode d (selAt df x) e.1 none
        return false
    else
      pieceUnits (selShape d n) d df (fun x => s.byteAt (srcOf x)) (fun x _ => asOf z (valueAt s epoch ((srcOf x).headD 0 == 0) (srcOf x))) (isBlockFmt d.fmt)
  | _, _, _ => []

/-! ### The commands -/

/-- The command stopped at a tile of a stale epoch, which its opcode-specific word names (R205). -/
def isStale : Option Stop → Bool
  | some (.done st _ _ _) => st == stEpochStale
  | _ => false

/-- The first MASKED tile of a TRANSPOSE_COPY's source: its weight and epoch. Tiles that cannot be read are met again in their order. -/
def sourceMask (s : TDesc) (first count : Nat) : M (Option (Nat × Nat)) := do
  if !s.tiled then return none
  else
    match slotRange s 0 0 with
    | none => return none
    | some (_, n) =>
      let addrs := (List.range n).filter fun k =>
        let z := (s.slotFirst k).getLastD 0
        let y := if s.layout = 2 then (unflatten (s.ext.drop 1) (min (s.rows - 1) (32 * (k / ((s.chan + 31) / 32)) + 31))).getLastD 0 else z
        count == 0 || (decide (first ≤ y) && decide (z < first + count))
      let hs ← mapEach addrs fun k => do
        let before := (← get).w
        let r ← tryCatch (Option.some <$> readM s.tier (s.base + k * s.anySlot) 16) fun e => match e with
          | .done _ _ _ _ => pure none
          | e => throw e
        modW fun _ => before
        return r.map parseHdr
      return ((hs.filterMap id).find? (·.masked)).map fun h => (h.tid, h.epoch)

/-- A tracked prefetch takes its entry, or waits for one (R294). -/
def trackM (src dst : TDesc) : M Unit := do
  let r ← get
  let core := nearCore dst.base
  let g := tget {} r.s.msys.gens src.tid
  if src.tid = 0 || !g.entered then pure ()
  else
    let l := tget [] r.s.msys.trackers core
    if l.length ≥ r.s.reg 0x4030 4 then throw (.hold .other)
    else
      let t : Track := ⟨r.q, r.c, BitVec.ofNat 32 src.tid, g.gen, none, 0, 0, none, BitVec.ofNat 32 r.job⟩
      modS fun s => { s with msys := { s.msys with trackers := tput core (l ++ [t]) s.msys.trackers } }
      modW fun w => { w with tracked := some (BitVec.ofNat 7 core) }

/-- The check buffer of the core is held by another COMPARE (R347). -/
def bufferHeld (s : State) (core : Nat) : Bool :=
  s.queues.any fun e => (exeOf (BitVec.ofNat 15 e.1) e.2).core? == some core && e.2.started.any fun w => w.holdsBuffer

/-- COPY, FILL, COMPARE and TRANSPOSE_COPY (R337 to R347); a replay takes no tracker entry and signals nothing (R295). -/
def dmaBody (replay : Bool) : M Unit := do
  let r ← get
  let c := r.c
  let op := (opByte c).toNat
  let o : DmaOps := ⟨← descOpt (cmdField c 8 4), ← descOpt (cmdField c 0x0C 4), ← descOpt (cmdField c 0x20 4)⟩
  need (dmaOk c r.exe o) stCmdInvalid
  let n := cmdField c 0x2C 4
  need (n == 0 || (selInside o.src (cmdField c 0x24 4) n && selInside o.dst (cmdField c 0x28 4) n)) stDescOob
  let sem := cmdField c 0x18 4
  if !replay && sem != 0xFFFFFFFF then semM sem
  let epoch ← match op, o.src with
    | 0x53, some s => sourceMask s (cmdField c 0x24 4) n
    | _, _ => pure none
  match epoch with
    | some (id, _) =>
      if (tfind (← getS).masks id).isSome then
        let _ ← idleMask id
        if !replay then refMask id
    | none => pure ()
  match r.exe.core?, op with
    | some core, 0x52 =>
      if bufferHeld (← getS) core then throw (.hold .other)
      modW fun w => { w with holdsBuffer := true }
    | _, _ => pure ()
  if !replay then
    match o.src, o.dst with
      | some s, some d => if (cmdField c 0x30 1).testBit 7 then trackM s d else pure ()
      | _, _ => pure ()
    setSem sem (cmdField c 0x1C 4)
  if op != 0x52 then writerOpt o.dst
  writerOpt o.stat
  forEach (o.src.toList ++ if op = 0x52 then o.dst.toList else []) runAheadM
  let units := dmaUnits (← getS) c o epoch
  let (bad, rest, stop) ← runUnits units
  match op, o.src, o.dst with
    | 0x50, some s, some d | 0x53, some s, some d => freeOverlap s d (cmdField c 0x24 4) n
    | _, _, _ => pure ()
  let last : Burst := ⟨((rest.map (·.bits)).foldl (· + ·) 0 + 7) / 8, rest.head?.map fun u => (u.idx, u.src, u.dst), bad.length, bad.headD 0⟩
  modW fun w =>
    let w1 := stoppedAt { w with
      stat := o.stat.map fun t => (t.tier, (List.range 64).map fun i => t.byteAt (unflatten t.ext i), [])
      bursts := burstsOf bad 0 0 0 ((units.map (·.bits)).foldl (· + ·) 0) (units.take (units.length - rest.length)) ++ [last] } last
    if isStale stop then { w1 with opspec := w.opspec } else w1
  match stop with
    | some st => throw st
    | none => pure ()

/-- The reserved fields of the DMA commands (R337): CONST where the command has none. -/
def dmaReserved (c : Cmd) : Bool :=
  cmdField c 0x30 1 % 128 == 0 && zeroBytes c 0x31 15 &&
    (opByte c == 0x51 || (opByte c == 0x52 && zeroBytes c 0x0C 4) || zeroBytes c 0x10 8)

/-- Handles of the DMA commands; one that is missing is refused with CMD_INVALID (R342). -/
def dmaHandles (c : Cmd) : List Nat := optH (cmdField c 8 4) ++ optH (cmdField c 0x0C 4) ++ optH (cmdField c 0x20 4)

/-- COPY (R338). -/
def execCopy (q : QNum) (c : Cmd) (s : State) : Out := startCmd q c dmaReserved dmaHandles (dmaBody false) s

/-- FILL (R340). -/
def execFill (q : QNum) (c : Cmd) (s : State) : Out := startCmd q c dmaReserved dmaHandles (dmaBody false) s

/-- COMPARE (R341). -/
def execCompare (q : QNum) (c : Cmd) (s : State) : Out := startCmd q c dmaReserved dmaHandles (dmaBody false) s

/-- TRANSPOSE_COPY (R339). -/
def execTransposeCopy (q : QNum) (c : Cmd) (s : State) : Out := startCmd q c dmaReserved dmaHandles (dmaBody false) s

end Sys2Proof.Machine
end

