-- ==== Sys2Proof/Machine/Gather.lean ====
section
/-! DEFINITION. The gather engines (10 R288 to R291): GATHER and SCATTER, the walk of an index tensor, and the gather caches, which count hits and misses and never change the data. -/

namespace Sys2Proof.Machine

/-! ### Gather caches (R290, R291) -/

/-- Ways of a set. -/
def cacheWays : Nat := 16
/-- Sets of a die's cache: 12 slices of 4,096. -/
def cacheSets : Nat := 49152

/-- A line enters a die's cache; in a full set it takes the place of the line that pseudo-LRU gives up (R290). -/
def cacheAdd (l : List Nat) (line lookups : Nat) : List Nat :=
  if l.length < cacheWays then line :: l
  else
    let set := Config.cacheSet line % cacheSets
    let same := l.filter fun x => Config.cacheSet x % cacheSets == set
    if same.length < cacheWays then line :: l
    else line :: l.filter (· != same.getD (Config.cacheVictim set lookups % cacheWays) 0)

/-- The lines that a miss brings into a cache: its own and, within its 64 KiB page, the next (R297, log entry 105). -/
def cacheFill (l : List Nat) (line lookups : Nat) : List Nat :=
  let l := cacheAdd l line lookups
  if line % 1024 = 1023 || l.contains (line + 1) then l else cacheAdd l (line + 1) lookups

/-- One lookup of a die's cache (R290, R312): a hit, or a miss that allocates where the command asks. -/
def cacheLookup (s : State) (die : Nat) (alloc : Bool) (line : Nat) : State :=
  let l := tget [] s.msys.cache die
  let s := { s with msys := { s.msys with lookups := s.msys.lookups + 1 } }
  if l.contains line then bump s 6 die 1 1
  else
    let s := bump s 6 die 2 1
    if alloc then { s with msys := { s.msys with cache := tput die (cacheFill l line s.msys.lookups) s.msys.cache } } else s

/-- The lines that bytes of a tensor lie in, in order of first use, one entry each. -/
def linesOf (bytes : List Nat) : List Nat :=
  (bytes.foldl (fun l b => if l.contains (b / 64) then l else b / 64 :: l) []).reverse

/-- Looks up the lines of a slice in the engine's die; near memory and host memory are never cached (R290). -/
def lookupM (t : TDesc) (alloc : Bool) (bytes : List Nat) : M Unit := do
  let r ← get
  match r.exe.die? with
  | some d =>
    if t.tier = 0 then pure ()
    else forEach (linesOf bytes) fun l => modS fun s =>
      match xlate s r.f r.job (64 * l) false (some t.tier) with
      | .dev a _ => cacheLookup s d alloc (a / 64)
      | _ => s
  | none => pure ()

/-! ### The walk (R288, R326, R327) -/

/-- What a GATHER or SCATTER names. -/
structure GOps where
  src : TDesc
  dst : TDesc
  idx : TDesc
  deriving DecidableEq, Repr

/-- The side with the index dimension. -/
def GOps.side (o : GOps) (scatter : Bool) : TDesc := if scatter then o.dst else o.src

/-- Local shape of one slice: every dimension but the replaced one. -/
def GOps.slice (o : GOps) (scatter : Bool) : List Nat :=
  let t := o.side scatter
  t.ext.take t.idxDim ++ t.ext.drop (t.idxDim + 1)

/-- Coordinates on the indexed side of a slice's coordinates at an index value. -/
def indexedAt (t : TDesc) (v : Nat) (x : List Nat) : List Nat := x.take t.idxDim ++ v :: x.drop t.idxDim

/-- Reads an index value, signed as its format is. -/
def indexM (t : TDesc) (i : Nat) : M Int := do
  let e ← readBits t.tier (t.bitAt [i]) t.width
  return if t.fmt = 0x19 then (e : Int) else sext t.width e

/-- The bytes of an element and of its scale. -/
def elemBytes (t : TDesc) (x : List Nat) : List Nat :=
  if t.layout = 2 || t.layout = 3 then rangeFrom (t.byteAt x) (if t.layout = 2 then t.slotSize else t.wtileSize)
  else
    let a := t.bitAt x
    rangeFrom (a / 8) ((a + t.width + 7) / 8 - a / 8) ++ if t.block = 1 then [] else [t.scaleAt x]

/-- A slice moves element by element, code and scale as they stand: its blocks stay whole. -/
def GOps.verbatim (o : GOps) (scatter : Bool) : Bool :=
  o.src.fmt == o.dst.fmt && !o.src.tiled && (o.src.block == 1 || (o.side scatter).idxDim != 0)

/-- Moves one slice: source and destination coordinates of a slice's coordinates. -/
def moveSlice (o : GOps) (scatter : Bool) (src dst : List Nat → List Nat) : M Unit := do
  let shape := o.slice scatter
  let n := shape.foldl (· * ·) 1
  let d := o.dst
  if d.access = 2 then
    forEach (List.range n) fun i => do
      let x := unflatten shape i
      let v ← if isIntFmt d.fmt then (·.1) <$> codeAt o.src (src x) else valueAt o.src none (x.headD 0 == 0) (src x)
      addAt d (dst x) v
  else if o.verbatim scatter then
    forEach (List.range n) fun i => do
      let x := unflatten shape i
      let (code, sc) ← codeAt o.src (src x)
      storeCode d (dst x) code (some sc)
  else
    let run := if scatter && d.idxDim == 0 then 1 else shape.headD 1
    forEach (List.range (n / max run 1)) fun r =>
      let x0 := unflatten shape (r * run)
      forEach (piecesBy d.block (run + 1) ((dst x0).headD 0) run) fun (c, m) => do
        let k := c - (dst x0).headD 0
        let vals ← mapEach (List.range m) fun j =>
          let x := (x0.headD 0 + k + j) :: x0.drop 1
          let x := if shape.isEmpty then [] else x
          valueAt o.src none (k + j == 0) (src x)
        let _ ← writeRow d (d.rowAt (dst x0)) c vals
        pure ()

/-- Fetches the lines of a slice through the gather cache. -/
def fetchSlice (o : GOps) (scatter alloc : Bool) (src : List Nat → List Nat) : M Unit :=
  let shape := o.slice scatter
  lookupM o.src alloc ((List.range (shape.foldl (· * ·) 1)).flatMap fun i => elemBytes o.src (src (unflatten shape i)))

/-- Walk position p of a GATHER: the index clamped (R327), one slice. -/
def gatherAt (o : GOps) (alloc : Bool) (first p : Nat) : M Unit := do
  let n : Int := o.src.ext.getD o.src.idxDim 1
  let v ← indexM o.idx (first + p)
  if v < 0 ∨ n ≤ v then countM 23 1
  let i := (max 0 (min v (n - 1))).toNat
  fetchSlice o false alloc (indexedAt o.src i)
  moveSlice o false (indexedAt o.src i) (· ++ [p])

/-- A GATHER whose slices are single elements of a block format's row: whole blocks of the destination at a time (R61). -/
def gatherBlock (o : GOps) (alloc : Bool) (first : Nat) (piece : Nat × Nat) : M Unit := do
  let n : Int := o.src.ext.getD 0 1
  let vals ← mapEach (rangeFrom piece.1 piece.2) fun p => do
    let v ← indexM o.idx (first + p)
    if v < 0 ∨ n ≤ v then countM 23 1
    let i := (max 0 (min v (n - 1))).toNat
    fetchSlice o false alloc (indexedAt o.src i)
    valueAt o.src none true [i]
  let _ ← writeRow o.dst 0 piece.1 vals
  pure ()

/-- Walk position p of a SCATTER: an index out of range writes nothing, or stops the command (R327, R329). -/
def scatterAt (o : GOps) (alloc : Bool) (first p : Nat) : M Unit := do
  let n : Int := o.dst.ext.getD o.dst.idxDim 1
  let shape := o.slice true
  let v ← indexM o.idx (first + p)
  if v < 0 ∨ n ≤ v then
    countM 23 1
    if o.dst.oobFault then
      let unit := (o.dst.ext.take o.dst.idxDim).foldl (· * ·) 1
      stopAt stDescOob 3 ((v * Int.ofNat unit) % (2 ^ 56 : Int)).toNat
    else countM 22 (shape.foldl (· * ·) 1)
  else
    fetchSlice o true alloc (· ++ [p])
    moveSlice o true (· ++ [p]) (indexedAt o.dst v.toNat)

/-! ### The commands -/

/-- The cases of R289, and those of R15, R171, R317, R326 and R330, are absent. -/
def gatherOk (c : Cmd) (e : Exe) (scatter : Bool) (o : GOps) : Bool :=
  let n := cmdField c 0x14 4
  let pre := (cmdField c 0x20 1).testBit 6
  let other := if scatter then o.src else o.dst
  n != 0 && reaches e o.src && reaches e o.dst && reaches e o.idx && !other.idxEn && !o.dst.tiled
    && other.ext == o.slice scatter ++ [n]
    && (if scatter then o.dst.access == 1 || o.dst.access == 2 else o.dst.access == 1)
    && (!pre || (!scatter && o.dst.tier == 0)) && semFieldOk (cmdField c 0x18 4)

/-- GATHER and SCATTER (R288 to R291); a replay takes no tracker entry and signals nothing (R295). -/
def gatherBody (scatter replay : Bool) : M Unit := do
  let r ← get
  let c := r.c
  let src ← descM (cmdField c 8 4)
  let dst ← descM (cmdField c 0x0C 4)
  need (if scatter then dst.idxEn else src.idxEn) stCmdInvalid
  let o : GOps := ⟨src, dst, ← descM (if scatter then dst.indexH else src.indexH)⟩
  need (gatherOk c r.exe scatter o) stCmdInvalid
  if !pairOk src dst then stopAt stDescInvalid 5 (if isIntFmt src.fmt then src.handle else dst.handle)
  let first := cmdField c 0x10 4
  let n := cmdField c 0x14 4
  need (decide (first + n ≤ o.idx.count) && (o.side scatter).ext.all (0 < ·)) stDescOob
  let sem := cmdField c 0x18 4
  if !replay then
    if sem != 0xFFFFFFFF then semM sem
    if (cmdField c 0x20 1).testBit 6 then trackM src dst
    setSem sem (cmdField c 0x1C 4)
  writerM dst
  runAheadM o.idx
  runAheadM src
  let alloc := (cmdField c 0x20 1).testBit 7
  if scatter then forEach (List.range n) (scatterAt o alloc first)
  else if (o.slice false).isEmpty && o.dst.block != 1 then
    forEach (piecesBy o.dst.block (n + 1) 0 n) (gatherBlock o alloc first)
  else forEach (List.range n) (gatherAt o alloc first)

/-- The reserved fields of GATHER and SCATTER (R288). -/
def gatherReserved (c : Cmd) : Bool := cmdField c 0x20 1 % 64 == 0 && zeroBytes c 0x21 31

/-- The handles that both name (R313). -/
def gatherHandles (c : Cmd) : List Nat := [cmdField c 8 4, cmdField c 0x0C 4]

/-- GATHER (R288). -/
def execGather (q : QNum) (c : Cmd) (s : State) : Out := startCmd q c gatherReserved gatherHandles (gatherBody false false) s

/-- SCATTER (R288). -/
def execScatter (q : QNum) (c : Cmd) (s : State) : Out := startCmd q c gatherReserved gatherHandles (gatherBody true false) s

end Sys2Proof.Machine
end

