-- ==== Sys2Proof/Machine/Waiting.lean ====
section
/-! DEFINITION. The end of a WAIT (13 R368) and the check of tracked prefetches that comes before it, with its replays (10 R294 to R296). -/

namespace Sys2Proof.Machine

/-- A tracker entry that a WAIT on semaphore n checks: its value meets the wait (R295). -/
def Track.checkedBy (t : Track) (n : SemNum) (eq : Bool) (target : BitVec 64) : Bool :=
  t.sem == some (BitVec.ofNat 32 n.toNat) && if eq then t.v == target else decide (t.v.toNat ≤ target.toNat)

/-- The entry is valid: its generation is even and the tensor's present one (R295). -/
def Track.valid (t : Track) (s : State) : Bool :=
  t.gen.toNat % 2 == 0 && (tget {} s.msys.gens t.id.toNat).gen == t.gen

/-- Whether an entry belongs to the same prefetch. -/
def Track.same (t u : Track) : Bool := t.queue == u.queue && t.cmd == u.cmd && t.sem == u.sem && t.v == u.v

/-- Changes a tracker entry, or frees it. -/
def putTrack (s : State) (t : Track) (n : Option Track) : State :=
  { s with msys := { s.msys with trackers := s.msys.trackers.map fun e =>
      (e.1, e.2.filterMap fun u => if u.same t then n else some u) } }

/-- The command of a tracked prefetch, run again: the same destination, no semaphore, no new entry (R295). -/
def replayBody (op : Nat) : M Unit := if op = 0x60 then gatherBody false true else dmaBody true

/-- Replays an entry for the WAIT of queue q: the generation recorded is that of the replay's own start (R295). One that must wait for a host page or a mask is started by a later presentation. -/
def startRefetch (s : State) (q : QNum) (t : Track) : State :=
  let x := s.queue t.queue
  let f := x.func.toNat
  let t1 : Track := { t with gen := (tget {} s.msys.gens t.id.toNat).gen, replays := t.replays + 1 }
  let w : Started := { idx := 0, op := opByte t.cmd, cmd := t.cmd }
  match (ExceptT.run (replayBody (opByte t.cmd).toNat)).run { s := s, w := w, q := t.queue, exe := exeOf t.queue x, f := f, job := t.job.toNat, c := t.cmd } with
  | (.ok _, r) => putTrack (bumpStep r.s t.job.toNat 21 1) t (some { t1 with run := some (q, r.w) })
  | (.error (.done st dk rs dt), r) =>
    putTrack (bumpStep (forgetRefusals r.s f rs) t.job.toNat 21 1) t (some { t1 with run := some (q, { r.w with
      status := BitVec.ofNat 16 st, dkind := BitVec.ofNat 3 dk, reason := BitVec.ofNat 4 rs, detail := BitVec.ofNat 56 dt }) })
  | (.error (.need k), _) => requestPage s f k
  | (.error (.hold _), _) => s

/-- The WAIT at the head of a queue ends with a status and a location. -/
def endWait (s : State) (q : QNum) (status dkind reason detail : Nat) : State :=
  let x := s.queue q
  match x.hold with
  | .wait i c _ _ _ _ => s.setQueue q (atHead s q (endBlocked x i c status dkind detail reason))
  | _ => s

/-- Entries that the WAIT of a queue checks. -/
def checkedTracks (s : State) (n : SemNum) (eq : Bool) (target : BitVec 64) : List Track :=
  (s.msys.trackers.flatMap (·.2)).filter fun t => t.checkedBy n eq target

/-- A satisfied WAIT at the head of a queue: it completes when every entry checked is valid, and frees them; else the invalid ones replay (R295). -/
def settleWait (s : State) (q : QNum) : State :=
  match (s.queue q).hold with
  | .wait _ _ n eq target true =>
    let ts := checkedTracks s n eq target
    if ts.all fun t => t.run.isNone && t.valid s then
      endWait (ts.foldl (fun s t => putTrack s t none) s) q stOk 0 0 0
    else (ts.filter fun t => t.run.isNone && !t.valid s).foldl (fun s t => startRefetch s q t) s
  | _ => s

/-- WAIT_SATISFIED (R368): the WAIT at the head of the queue, which an update has satisfied. -/
def execWaitSatisfied (q : QNum) (s : State) : Out :=
  let x := s.queue q
  .next (if x.st = .active ∨ x.st = .halted then settleWait s q else s)

/-- The first replay that a queue's WAIT asked for and that is under way. -/
def replayOf (s : State) (q : QNum) : Option (Track × Started) :=
  (s.msys.trackers.flatMap (·.2)).findSome? fun t =>
    match t.run with
    | some (k, w) => if k = q then some (t, w) else none
    | none => none

/-- PREFETCH_REPLAY_DONE (R295, R296): a replay ends. An error ends the wait with its status; a valid entry lets the wait be settled; an invalid one replays again, up to REFETCH_LIMIT times in a row. -/
def execPrefetchReplayDone (q : QNum) (s : State) : Out :=
  match replayOf s q with
  | none => .next s
  | some (t, w) =>
    let x := s.queue t.queue
    let f := x.func.toNat
    let (s, w, page) := completeStat s f t.job.toNat w
    match page with
    | some k => .next (requestPage s f k)
    | none =>
      let s := w.writes.foldl (fun s i => genEnd s i.toNat) s
      let s := match w.ue with
        | some (a, l) => stopJob s f t.job.toNat a l
        | none => s
      let t1 := { t with run := none }
      let s1 := putTrack s t (some t1)
      if isError w.status.toNat then
        .next (endWait s1 q w.status.toNat w.dkind.toNat w.reason.toNat w.detail.toNat)
      else if t.valid s then .next (settleWait (putTrack s t (some { t1 with replays := 0 })) q)
      else if t.replays ≥ s.reg 0x4030 3 then .next (endWait (putTrack s t none) q stRefetch 0 0 0)
      else .next (startRefetch s1 q t1)

end Sys2Proof.Machine
end

