-- ==== Sys2Proof/Machine/Numerics.lean ====
section
/-! DEFINITION. Training numerics (08): the close and the opening of a step with LOSS_SCALE_CHECK, promotion of layer recipes, and OPT_UPDATE. A command reads all its sources before it writes (log entry 26). -/

namespace Sys2Proof.Machine

/-! ### Promotion (R228, R234 to R237, R243) -/

/-- A format of 4 bits or narrower. -/
def narrowFmt (f : BitVec 5) : Bool := decide ((widthOf f.toNat).getD 8 ≤ 4)

/-- The format one rung up. -/
def widenFmt (g : Bool) (f : BitVec 5) : BitVec 5 :=
  match f.toNat with
  | 0x0E => 0x0D
  | 0x0D => 0x0C
  | 0x0C => if g then 0x0A else 0x0B
  | _ => f

/-- A narrow format below the ceiling. -/
def Layer.movable (x : Layer) (f : BitVec 5) : Bool :=
  narrowFmt f && match rungOf f.toNat with
    | some r => decide (r < x.ceil.toNat)
    | none => false

/-- Samples of a histogram. -/
def histCount (h : List Nat) : Nat := h.foldl (· + ·) 0

/-- P of R234: the smallest bin up to which lie 99 of 100 samples. -/
def histP (h : List Nat) : Nat :=
  let want := (99 * histCount h + 99) / 100
  ((List.range 16).find? fun b => decide (want ≤ histCount (h.take (b + 1)))).getD 15

/-- The layer's exceed bit on this module (R234). -/
def exceedBit (j : Job) (x : Layer) : Bool :=
  decide (j.minSamples.toNat ≤ histCount x.hist) && decide (x.threshold.toNat < histP x.hist)

/-- Outcome of a layer's run that reaches 4: promoted, flagged, or flagged because the ceiling blocks it (R235, R236, R243). -/
inductive Promo where
  | none | promoted | flagged | blocked
  deriving DecidableEq, Repr

/-- A layer at a CLEAN CLOSE: the pending recipe, then the run (R235 to R237). -/
def closeLayer (crimal exceed : Bool) (x : Layer) : Layer × Promo :=
  let x := match x.pending with
    | some r => { x with pending := Option.none, w := BitVec.ofNat 5 (bits r.toNat 0 5), a := BitVec.ofNat 5 (bits r.toNat 5 5), g := BitVec.ofNat 5 (bits r.toNat 10 5), kv := BitVec.ofNat 5 (bits r.toNat 15 5) }
    | none => x
  let x := { x with p99 := BitVec.ofNat 4 (histP x.hist) }
  if !exceed then ({ x with run := 0 }, .none)
  else if x.run + 1 < 4 then ({ x with run := x.run + 1 }, .none)
  else if !crimal && (x.movable x.w || x.movable x.a || x.movable x.g) then
    ({ x with
        run := 0
        w := if x.movable x.w then widenFmt false x.w else x.w
        a := if x.movable x.a then widenFmt false x.a else x.a
        g := if x.movable x.g then widenFmt true x.g else x.g
        promotions := if x.promotions = 255 then 255 else x.promotions + 1 }, .promoted)
  else if !crimal && (narrowFmt x.w || narrowFmt x.a || narrowFmt x.g) then ({ x with run := 0, flagged := true, blocked := true }, .blocked)
  else ({ x with run := 0, flagged := true }, .flagged)

/-- The histogram of the closed step moves into the cumulative one (R234). -/
def rollHist (x : Layer) : Layer :=
  { x with hist := List.replicate 16 0, histLast := x.hist, histTotal := (x.histTotal.zip x.hist).map fun e => (e.1 + e.2) % 2 ^ 64 }

/-! ### The verdict word (R222) -/

/-- Bit of a layer in the word's bitmap. -/
def wordBit (word : List Byte) (l : Nat) : Bool := (word.getD (1 + l / 8) 0).getLsbD (l % 8)

/-- The module's own word: overflow evidence and exceed bits. -/
def ownWord (j : Job) : List Byte :=
  let ls := (j.layers.filter fun e => exceedBit j e.2).map (·.1)
  (if j.evidence then 1 else 0) :: (List.range 512).map fun i =>
    BitVec.ofNat 8 ((((List.range 8).filter fun b => ls.contains (8 * i + b)).map (2 ^ ·)).foldl (· + ·) 0)

/-- Layers that a close looks at: those with state of their own, and those that the word names. -/
def closeLayers (j : Job) (word : List Byte) : List Nat :=
  j.layers.map (·.1) ++ ((List.range 4096).filter fun l => wordBit word l && (tfind j.layers l).isNone)

/-! ### LOSS_SCALE_CHECK (R217 to R224) -/

/-- 2^k as an FP32 code. -/
def pow2 (k : Int) : Nat := (k + 127).toNat * 2 ^ 23

/-- What a close finds: the job after it, outcomes of the layers. -/
structure Closed where
  job : Job
  promos : List Promo

/-- CLOSE once the word of every module is in (R222): loss scale, clean run, recipes and runs, Crimal scales, the seal. -/
def closeJob (j : Job) (word : List Byte) : Closed :=
  let ovf := word.headD 0 != 0
  let lStep := j.l
  let clean := if ovf then 0 else if j.clean + 1 = j.growth then 0 else (j.clean + 1) % 2 ^ 32
  let l := if ovf then j.l - 1 else if j.clean + 1 = j.growth then min (j.l + 1) 32 else j.l
  let r := (closeLayers j word).map fun k =>
    let x := j.layer k
    let (x, p) := if ovf then (x, Promo.none) else closeLayer j.crimalMode (wordBit word k) x
    let x := if l = lStep then x else match x.crimalPending with
      | some v => { x with crimal := v, crimalPending := none }
      | none => x
    (k, rollHist x, p)
  let promoted := r.any fun e => e.2.2 == .promoted
  let word32 := (if ovf then 2 ^ 31 else 0) + (if promoted then 2 ^ 30 else 0) + l
  ⟨{ j with l := l, clean := clean, lStep := lStep, overflowed := ovf, evidence := false, closed := true, closedOnce := true, verdict := none
            lastVerdict := BitVec.ofNat 32 word32, layers := r.foldl (fun t e => tput e.1 e.2.1 t) j.layers }, r.map fun e => e.2.2⟩

/-- Cumulative counters of a close (R248). -/
def countClose (s : State) (c : Closed) : State :=
  let s := if c.job.overflowed then bump s 5 0 10 1 else s
  let s := if c.job.overflowed && c.job.lStep == 0 then bump s 5 0 11 1 else s
  let s := bump s 5 0 13 (c.promos.filter (· == .promoted)).length
  bump s 5 0 14 (c.promos.filter (· == .blocked)).length

/-- The step record (R224). -/
def stepRecord (c : Closed) (own : Bool) : List Byte :=
  let j := c.job
  let pr := (c.promos.filter (· == .promoted)).length
  let fl := (c.promos.filter fun p => p == .flagged || p == .blocked).length
  leBytes 8 j.step.toNat ++ leBytes 1 j.lStep ++ leBytes 1 j.l ++
    leBytes 1 ((if j.overflowed then 1 else 0) + (if own then 2 else 0) + if pr = 0 then 0 else 4) ++ [0] ++
    leBytes 4 j.clean ++ leBytes 2 pr ++ leBytes 2 fl ++ List.replicate 12 0

/-- Ends a CLOSE with the word of the job (R220, R222): the job, its counters, LS_OUT, REPORT and the completion word. -/
def finishClose (word : List Byte) (own : Bool) : M Unit := do
  let r ← get
  let ls ← descOpt (cmdField r.c 0x10 4)
  let rep ← descOpt (cmdField r.c 0x14 4)
  let c := closeJob (r.s.job r.job) word
  modS fun s => countClose (s.setJob r.job c.job) c
  match ls with
    | some t => writeTensor t ((List.range t.rows).map fun i => ([pow2 c.job.l, pow2 (-(c.job.l : Int))].drop (i * t.chan)).take t.chan) 0 0 0
    | none => pure ()
  match rep with
    | some t => do
      let v := leNat (stepRecord c own)
      putCodes t 0 0 ((List.range t.chan).map fun i => bits v (i * t.width) t.width) 0
    | none => pure ()
  modW fun w => { w with opspec := c.job.lastVerdict }

/-- The open window of a job's per-step counters closes (R496). -/
def closeWindow (s : State) (job : Nat) : State :=
  (rangeFrom 1 24).foldl (fun s code =>
    let v := s.counter 2 job code
    let t := (s.counter 4 job code + v) % 2 ^ 64
    { s with dict := { s.dict with ctr := tput (ctrKey 2 job code) 0 (tput (ctrKey 3 job code) v (tput (ctrKey 4 job code) t s.dict.ctr)) } }) s

/-- The axes that a word's bits name. -/
def axesOf (a : Nat) : List Nat := (List.range 4).filter fun i => a.testBit i

/-- A queue number names a chain context created for a job (R220). -/
def chainQueueOk (s : State) (q job : Nat) : Bool :=
  (match engineOf q with
    | .re _ _ _ => true
    | _ => false) && (s.queue (BitVec.ofNat 15 q)).st != .free && (s.queue (BitVec.ofNat 15 q)).job.toNat == job

/-- CLOSE: alone, or after a verdict round on the axes named (R220, R222, R451). -/
def closeBody : M Unit := do
  let r ← get
  let c := r.c
  let j := r.s.job r.job
  let ls ← descOpt (cmdField c 0x10 4)
  let rep ← descOpt (cmdField c 0x14 4)
  let axes := cmdField c 9 1 % 16
  if j.verdict.isSome then throw (.hold .other)
  need (!j.closed && (axesOf axes).all (fun a => decide (2 ≤ j.p.getD a 1)) && (axes == 0 || chainQueueOk r.s (cmdField c 0x0C 4) r.job)
    && optOk (fun t => nearDst r.exe t && t.fmt == 0 && t.count == 2) ls && optOk (fun t => nearDst r.exe t && reportOk t) rep) stCmdInvalid
  writerOpt ls
  writerOpt rep
  if axes = 0 then finishClose (ownWord j) j.evidence
  else
    keepDescs [cmdField c 0x10 4, cmdField c 0x14 4]
    modW fun w => { w with done := false }
    modS fun s => s.setJob r.job { j with verdict := some ⟨r.q, r.w.idx, BitVec.ofNat 15 (cmdField c 0x0C 4), BitVec.ofNat 4 axes, ownWord j, j.evidence⟩ }

/-- OPEN (R217, R220, R224). -/
def openBody : M Unit := do
  let r ← get
  let j := r.s.job r.job
  need j.closed stCmdInvalid
  modS fun s => closeWindow (s.setJob r.job { j with step := j.step + 1, closed := false }) r.job
  modW fun w => { w with opspec := BitVec.ofNat 32 j.l }

/-- The reserved fields of LOSS_SCALE_CHECK (R219). -/
def lossReserved (c : Cmd) : Bool :=
  let open_ := (cmdField c 8 1).testBit 0
  let axes := cmdField c 9 1 % 16
  decide (cmdField c 8 1 ≤ 1) && decide (cmdField c 9 1 ≤ 15) && zeroBytes c 0x0A 2 && zeroBytes c 0x18 40
    && (!open_ || (axes == 0 && zeroBytes c 0x0C 12)) && (axes != 0 || zeroBytes c 0x0C 4)

/-- The handles of LOSS_SCALE_CHECK. -/
def lossHandles (c : Cmd) : List Nat := optH (cmdField c 0x10 4) ++ optH (cmdField c 0x14 4)

/-- LOSS_SCALE_CHECK (R219 to R224, R222 its close). -/
def execLossScaleCheck (q : QNum) (c : Cmd) (s : State) : Out :=
  startCmd q c lossReserved lossHandles
    (if (cmdField c 8 1).testBit 0 then openBody else closeBody) s

/-! ### OPT_UPDATE (R238 to R242) -/

/-- The hyperparameters (R239), FP32 codes. -/
structure Hyper where
  lr : Nat
  beta1 : Nat
  beta2 : Nat
  eps : Nat
  wd : Nat
  c1 : Nat
  c2 : Nat
  gscale : Nat
  deriving DecidableEq, Repr

/-- Finite and at least 0; -0 counts as 0. -/
def finNonneg (x : Nat) : Bool := f32IsFinite x && (!f32Neg x || f32IsZero x)
/-- Finite and above 0. -/
def finPos (x : Nat) : Bool := f32IsFinite x && !f32Neg x && !f32IsZero x
/-- At least 0 and below 1. -/
def betaOk (x : Nat) : Bool := finNonneg x && fltb x f32One

/-- The constraints of R239. -/
def Hyper.ok (h : Hyper) (rule : Nat) : Bool :=
  finNonneg h.lr && betaOk h.beta1 && (decide (2 ≤ rule) || betaOk h.beta2) && finNonneg h.eps && finNonneg h.wd
    && finPos h.c1 && finPos h.c2 && finPos h.gscale

/-- Master, moments of one element. -/
structure OptElem where
  w : Nat
  m : Nat
  v : Nat
  deriving DecidableEq, Repr

/-- One element's update (R241), every operation FP32 to nearest even, in the order written. -/
def optElem (rule : Nat) (h : Hyper) (invLs crimal grad : Nat) (e : OptElem) : OptElem :=
  let g := fmul (fmul grad h.gscale) invLs
  let g := if rule = 1 then g else fadd g (fmul h.wd e.w)
  if rule < 2 then
    let m := fadd (fmul h.beta1 e.m) (fmul (fsub f32One h.beta1) g)
    let v := fadd (fmul h.beta2 e.v) (fmul (fsub f32One h.beta2) (fmul g g))
    let u := fdiv (fmul m h.c1) (fadd (fsqrt (fmul v h.c2)) h.eps)
    let u := if rule = 1 then fadd u (fmul h.wd e.w) else u
    ⟨fsub e.w (fmul (fmul h.lr crimal) u), m, v⟩
  else
    let m := fadd (fmul h.beta1 e.m) g
    let u := if rule = 3 then fadd g (fmul h.beta1 m) else m
    ⟨fsub e.w (fmul (fmul h.lr crimal) u), m, e.v⟩

/-- A new value, and whether its element keeps its old values (R241). -/
abbrev Kept := List (Nat × Bool)

/-- The codes of a piece: a kept element keeps its stored bits where its block's scale did not change (R241). -/
def keptCodes (unscaled : Bool) (vals : Kept) (old : List (Nat × Nat)) (n : Narrowed) : List Nat :=
  n.codes.zipIdx.map fun e =>
    let o := old.getD e.2 (0, 0)
    if (vals.getD e.2 (0, false)).2 && (unscaled || o.2 == n.scale) then o.1 else e.1

/-- Writes new values over an untiled tensor, kept elements by their old decoded values (R241). -/
def writeKept (t : TDesc) (vals : Kept) (site : Option Nat) (rne : Bool) : M Unit := do
  match fmtOf t.fmt with
  | none => stopWith stDescInvalid
  | some k => forEach (List.range t.rows) fun row => do
    let l := (vals.drop (row * t.chan)).take t.chan
    let old ← readCodes t row 0 t.chan
    let ps ← narrowRow t k row 0 (l.map fun e => e.1) site none rne
    forEach ps fun p => putCodes t row p.1 (keptCodes (t.block == 1) (l.drop p.1) (old.drop p.1) p.2) p.2.scale
    padRow t row t.chan

/-- Every element of a tensor in local linear order, widened. -/
def linear (t : TDesc) : M (List Nat) := do return (← readAll t).flatten

/-- The kept elements of an untiled tensor in local linear order, widened; the others are not read, and stand as +0. -/
def linearKept (t : TDesc) (vals : Kept) : M (List Nat) :=
  match fmtOf t.fmt with
  | none => stopWith stDescInvalid
  | some k => do
    let rows ← mapEach (List.range t.rows) fun row => do
      let keep := (vals.drop (row * t.chan)).take t.chan
      let l ← if keep.any fun e => e.2 then readCodes t row 0 t.chan else pure []
      countReads t 0 ((l.zip keep).filterMap fun e => if e.2.2 then some e.1 else none)
      return keep.zipIdx.map fun e => if e.1.2 then widen k (l.getD e.2 (0, 0)).2 (l.getD e.2 (0, 0)).1 else 0
    return rows.flatten

/-- The formats of W working copies (R226). -/
def workFmts : List Nat := [0x0E, 0x0D, 0x0C, 0x0B, 0x08, 0x02]

/-- The formats that the tiles of a working copy may still have: those that promotions have moved its layer from, since its descriptor took the layer's initial format (R227, R228, R235). -/
def earlierFmts (j : Job) (t : TDesc) : List Nat :=
  match tfind j.descs t.handle with
  | some d => (workFmts.dropWhile (· != rawField d.raw 0 1)).takeWhile (· != t.fmt)
  | none => []

/-- A TILE_W working copy as it stands. Before the first OPT_UPDATE after a promotion its tiles have an earlier format of its layer, which its first header names (R171, R235); any other format than the one in force is TILE_INVALID, and a MASKED tile must be of the current epoch (R165, R205). -/
def readWork (j : Job) (t : TDesc) : M (TDesc × List WTile) := do
  let h0 := parseHdr (← readM t.tier t.base 16)
  let t0 := if (earlierFmts j t).contains h0.fmt then { t with fmt := h0.fmt } else t
  let ts ← mapEach (List.range t.wTiles) fun i => do
    let a := t0.base + i * t0.wtileSize
    let h := parseHdr (← readM t0.tier a 16)
    checkHdr t0 h a
    match tfind (← getS).masks h.tid with
      | some e => if h.masked then epochCheck e.epoch.toNat h.epoch else pure ()
      | none => pure ()
    let qs ← mapEach (List.range 128) fun q => readQuad t0 a q
    return ⟨i, a, h, qs⟩
  return (t0, ts)

/-- The stored slots of an output position of a quad: code and scale byte. -/
def slotsOf (q : Quad) (c : Nat) : List (Nat × Nat) :=
  (q.codes.getD c []).zipIdx.map fun e => (e.1, q.scales.getD (2 * c + e.2 / 32) 0)

/-- Rewrites one tile of a working copy with the values of its 32,768 slots; its pattern stays (R171, R241). -/
def writeWorkTile (t0 t : TDesc) (w : WTile) (vals : Kept) : M Unit := do
  match fmtOf t.fmt, fmtOf t0.fmt with
  | some k, some k0 => do
    let a := t.base + w.num * t.wtileSize
    let qs ← mapEach w.quads.zipIdx fun (q, qi) => do
      let cols ← mapEach (List.range 4) fun c => do
        let l := (vals.drop (64 * (4 * qi + c))).take 64
        let old := slotsOf q c
        countReads t0 0 ((old.zip l).filterMap fun e => if e.2.2 then some e.1 else none)
        let src := l.zipIdx.map fun e => if e.1.2 then widen k0 (old.getD e.2 (0, 0)).2 (old.getD e.2 (0, 0)).1 else e.1.1
        let ps ← narrowRow t k 0 0 src none none true
        let same := t0.fmt == t.fmt
        return (ps.flatMap fun p => if same then keptCodes (t.block == 1) (l.drop p.1) (old.drop p.1) p.2 else p.2.codes,
          ps.map (fun p => p.2.scale), ps.any fun p => p.2.nonfin != 0)
      return ({ q with codes := cols.map (fun e => e.1), scales := cols.flatMap fun e => e.2.1 }, cols.any fun e => e.2.2)
    forEach qs.zipIdx fun e => writeM t.tier (a + 16 + e.2 * t.quadSize) (quadBytes t e.1.1)
    let nnz := (qs.map fun q => (q.1.codes.flatten.filter fun v => !zeroCode t v).length).foldl (· + ·) 0
    writeM t.tier a (hdrBytes w.hdr.kind t.fmt ((if w.hdr.masked then 32 else 0) + if qs.any (fun q => q.2) then 64 else 0) w.hdr.epoch nnz w.hdr.tid)
  | _, _ => stopWith stDescInvalid

/-- What an OPT_UPDATE names. -/
structure OptOps where
  master : TDesc
  m1 : TDesc
  m2 : Option TDesc
  grad : TDesc
  work : Option TDesc
  hyper : TDesc
  deriving DecidableEq, Repr

/-- The hyperparameter block and whether its reserved bytes are zero. -/
def hyperM (t : TDesc) : M (Hyper × Bool) := do
  let l ← readCodes t 0 0 t.chan
  let v := l.zipIdx.foldl (fun a e => a + e.1.1 * 2 ^ (e.2 * t.width)) 0
  let f := fun i => bits v (32 * i) 32
  return (⟨f 0, f 1, f 2, f 3, f 4, f 5, f 6, f 7⟩, v / 2 ^ 256 == 0)

/-- The cases of R240 that need no memory are absent. -/
def optOps (s : State) (c : Cmd) (e : Exe) (j : Job) (o : OptOps) : Bool :=
  let rule := bits (cmdField c 0x24 1) 6 2
  let moment := fun (t : TDesc) => nearDst e t && !t.tiled && (t.fmt == 5 || t.fmt == 2) && t.count == o.master.count
  j.closed && nearDst e o.master && !o.master.tiled && o.master.fmt == (if j.crimalMode then 2 else 5) && moment o.m1 && optOk moment o.m2
    && o.m2.isSome == decide (rule < 2)
    && nearSrc e o.grad && !o.grad.tiled && [0, 1, 2].contains o.grad.fmt && o.grad.count == o.master.count
    && nearSrc e o.hyper && !o.hyper.tiled && o.hyper.rank == 1 && o.hyper.block == 1 && o.hyper.chan * o.hyper.width == 512
    && optOk (fun t => t.tier == 0 && reaches e t && !t.idxEn && t.access == 1 && t.layout != 2 && !isIntFmt t.fmt &&
        o.master.count == if t.layout = 3 then 32768 * t.wTiles else t.count) o.work
    && (!(cmdField c 0x24 1).testBit 5 || match o.work with
      | some t => t.layout == 3 && (tfind s.masks t.tid).isSome
      | none => false)

/-- OPT_UPDATE (R238 to R242). -/
def optBody : M Unit := do
  let r ← get
  let c := r.c
  let j := r.s.job r.job
  let o : OptOps := ⟨← descM (cmdField c 8 4), ← descM (cmdField c 0x0C 4), ← descOpt (cmdField c 0x10 4), ← descM (cmdField c 0x14 4),
    ← descOpt (cmdField c 0x18 4), ← descM (cmdField c 0x1C 4)⟩
  let rule := bits (cmdField c 0x24 1) 6 2
  need (optOps r.s c r.exe j o) stCmdInvalid
  let (h, zero) ← hyperM o.hyper
  need (zero && h.ok rule) stCmdInvalid
  writerM o.master
  writerM o.m1
  writerOpt o.m2
  writerOpt o.work
  if j.overflowed then
    modS fun s => bump s 5 0 12 1
    modW fun w => { w with opspec := BitVec.ofNat 32 (2 ^ 31) }
  else
    match o.work with
      | some t =>
        if t.layout = 3 && (tfind r.s.masks t.tid).isSome then
          let e ← idleMask t.tid
          if (cmdField c 0x24 1).testBit 5 && e.epoch.toNat != cmdField c 0x22 2 then stopWith stEpochStale
          refMask t.tid
      | none => pure ()
    let ws ← linear o.master
    let ms ← linear o.m1
    let vs ← match o.m2 with
      | some t => linear t
      | none => pure []
    let gs ← linear o.grad
    let tiles ← match o.work with
      | some t => if t.layout = 3 then some <$> readWork j t else pure none
      | none => pure none
    let layer := cmdField c 0x20 2 % 4096
    let crimal := if j.crimalMode then pow2 (((j.layer layer).crimal.toNat : Int) - 12) else f32One
    let new := ws.zipIdx.map fun e =>
      let old : OptElem := ⟨e.1, ms.getD e.2 0, vs.getD e.2 0⟩
      let n := optElem rule h (pow2 (-(j.lStep : Int))) crimal (gs.getD e.2 0) old
      if f32IsFinite n.w && f32IsFinite n.m && (decide (2 ≤ rule) || f32IsFinite n.v) then (n, false) else (old, true)
    countM 13 (new.filter fun e => e.2).length
    writeKept o.m1 (new.map fun e => (e.1.m, e.2)) (some 2) false
    match o.m2 with
      | some t => writeKept t (new.map fun e => (e.1.v, e.2)) (some 3) false
      | none => pure ()
    writeKept o.master (new.map fun e => (e.1.w, e.2)) (some 1) false
    let now ← linear o.master
    let vals : Kept := now.zipIdx.map fun e => (e.1, (new.getD e.2 (⟨0, 0, 0⟩, false)).2)
    match o.work, tiles with
      | some t, some (t0, ts) => forEach ts fun w => writeWorkTile t0 t w ((vals.drop (32768 * w.num)).take 32768)
      | some t, none => do
        let old ← linearKept t vals
        writeKept t (vals.zipIdx.map fun e => (if e.1.2 then old.getD e.2 0 else e.1.1, e.1.2)) none true
      | none, _ => pure ()

/-- The reserved fields of OPT_UPDATE (R238). -/
def optReserved (c : Cmd) : Bool := bits (cmdField c 0x20 2) 12 4 == 0 && cmdField c 0x24 1 % 32 == 0 && zeroBytes c 0x25 27

/-- The handles of OPT_UPDATE. -/
def optHandles (c : Cmd) : List Nat := [cmdField c 8 4, cmdField c 0x0C 4] ++ optH (cmdField c 0x10 4) ++ [cmdField c 0x14 4] ++
    optH (cmdField c 0x18 4) ++ [cmdField c 0x1C 4]

/-- OPT_UPDATE (R238 to R242). -/
def execOptUpdate (q : QNum) (c : Cmd) (s : State) : Out :=
  startCmd q c optReserved optHandles optBody s

end Sys2Proof.Machine
end

