-- ==== Sys2Proof/Machine/Reduction.lean ====
section
/-! DEFINITION. The reduction engines (16): RED_BUCKET with its chains, segments and credits, RED_FLUSH, RESHARD, the verdict round, and reduction job identifiers. A RED_BUCKET starts, and grants its window, when its queue starts it; its chain starts when its bucket is full (log entry 32). -/

namespace Sys2Proof.Machine

/-! ### Work of a started command -/

/-- How the work of a started command ended: done, failed with a status, or to be presented again. -/
inductive Ran where
  | ok | failed | again
  deriving DecidableEq, Repr

/-- The step number that a started command's random bits take: a RED_BUCKET in its context keeps the one of its start (R217). -/
def drawnStep (s : State) (q : QNum) (idx : BitVec 16) : Option (BitVec 64) :=
  match (s.ctx q).cur with
  | some (i, _) => if i = idx then some (s.ctx q).drawStep else none
  | none => none

/-- Runs work of a started command that has no record yet; a failure is its status, and its work is over. -/
def runStarted (s : State) (q : QNum) (idx : BitVec 16) (act : M Unit) : Ran × State :=
  let x := s.queue q
  match x.started.find? fun w => w.idx == idx with
  | none => (.failed, s)
  | some w =>
    let put := fun (s : State) (w : Started) =>
      let y := s.queue q
      s.setQueue q { y with started := y.started.map fun u => if u.idx = idx then w else u }
    match (ExceptT.run act).run { s := s, w := w, q := q, exe := exeOf q x, f := x.func.toNat, job := x.job.toNat, c := w.cmd, step := drawnStep s q idx } with
    | (.ok _, r) => (.ok, put r.s r.w)
    | (.error (.done st dk rs dt), r) =>
      (.failed, put (forgetRefusals r.s x.func.toNat rs) { r.w with done := true, status := BitVec.ofNat 16 st, dkind := BitVec.ofNat 3 dk, reason := BitVec.ofNat 4 rs, detail := BitVec.ofNat 56 dt })
    | (.error (.need k), _) => (.again, requestPage s x.func.toNat k)
    | (.error (.hold _), _) => (.again, s)

/-! ### Fields (R445) -/

def bkGather (c : Cmd) : Bool := (cmdField c 0x34 1).testBit 7
def bkAxis (c : Cmd) : Nat := bits (cmdField c 0x34 1) 4 2
def bkPlus (c : Cmd) : Bool := !(cmdField c 0x34 1).testBit 3
def bkWire (c : Cmd) : Nat := cmdField c 0x34 1 % 8
/-- N of R447. -/
def bkN (c : Cmd) : Nat := cmdField c 0x35 1 + 1
def bkTag (c : Cmd) : BitVec 16 := BitVec.ofNat 16 (cmdField c 0x30 2)

/-! ### Chains (R436 to R439) -/

/-- A chain set as one module sees it: size of the ring, own coordinate, direction +, GATHER, elements or bytes of the bucket. -/
structure Chain where
  p : Nat
  me : Nat
  plus : Bool
  gather : Bool
  tot : Nat
  deriving DecidableEq, Repr

/-- Elements or bytes of a unit of R436, and of a full segment of R439. -/
def Chain.unit (h : Chain) : Nat := if h.gather then 256 else 32
def Chain.seg (h : Chain) : Nat := if h.gather then 4096 else 2048
/-- Units before shard s: shards take the units in ascending order, the first ones one more. -/
def Chain.start (h : Chain) (s : Nat) : Nat :=
  let n := (h.tot + h.unit - 1) / h.unit
  s * (n / h.p) + min s (n % h.p)
/-- First element of shard s, and the one after its last. -/
def Chain.lo (h : Chain) (s : Nat) : Nat := min h.tot (h.start s * h.unit)
def Chain.hi (h : Chain) (s : Nat) : Nat := min h.tot (h.start (s + 1) * h.unit)
/-- Segments of shard s. -/
def Chain.nseg (h : Chain) (s : Nat) : Nat := (h.hi s - h.lo s + h.seg - 1) / h.seg
/-- First element and length of segment k of shard s. -/
def Chain.segAt (h : Chain) (s k : Nat) : Nat × Nat :=
  let a := h.lo s + k * h.seg
  (a, min h.seg (h.hi s - a))
/-- The module's position in shard s's chain (R437). -/
def Chain.pos (h : Chain) (s : Nat) : Nat :=
  let d := if h.plus then h.me + h.p - s else s + h.p - h.me
  (if h.gather then d else d + h.p - 1) % h.p

/-- Element format on the wire (R445). -/
def wireFmt (w : Nat) : Nat := if w = 0 then 0x02 else if w = 1 then 0x09 else 0x00
/-- Data bytes of n elements or bytes; a block of MXFP8 is whole on the wire, 32 codes and its scale (R59). -/
def wireLen (h : Chain) (wire n : Nat) : Nat :=
  if h.gather then n
  else if wire = 1 then (n + 31) / 32 * 33
  else n * (if wire = 2 then 4 else 2)
/-- Flits of a segment's message, head included. -/
def segFlits (h : Chain) (wire n : Nat) : Nat := 1 + (wireLen h wire n + 63) / 64

/-- Every segment of every shard is handled: the set of each shard is full. -/
def Chain.handled (h : Chain) (segs : Tab Nat) : Bool := (List.range h.p).all fun s => tget 0 segs s == 2 ^ h.nseg s - 1

/-! ### Messages (R439) -/

/-- Number of a context's queue (R18). -/
def ctxQueue (die eng ctx : Nat) : QNum := BitVec.ofNat 15 (2048 + 512 * die + 384 + 64 * eng + ctx)

/-- The head of a chain message; queue numbers of contexts are as R18 gives. -/
def chainHead (j : Job) (q : QNum) (kind b6 b7 len tag shard pos credits segment count : Nat) : Flit :=
  let n := q.toNat - 2048
  mkHead kind len j.redJob.toNat ([BitVec.ofNat 8 b6, BitVec.ofNat 8 b7] ++ leBytes 2 (n / 512 * 128 + (n % 512 - 384)) ++
    leBytes 2 tag ++ [BitVec.ofNat 8 (shard * 16 + pos), 0] ++ leBytes 2 credits ++ leBytes 4 segment ++ leBytes 4 count ++ leBytes 8 j.fingerprint.toNat)

/-- A message of data flits. -/
def dataFlits (bs : List Byte) : Nat → List Flit
  | 0 => []
  | n + 1 => flitOf (bs.take 64) :: dataFlits (bs.drop 64) n

/-- A credit grant. -/
def creditMsg (j : Job) (q : QNum) (gather : Bool) (epoch tag n : Nat) : Msg :=
  ⟨chainHead j q (if gather then 1 else 2) (128 + epoch) 0 0 tag 0 0 n 0 0, []⟩

/-- A message is a credit, a verdict word, and its LAYOUT_EPOCH, TAG, SHARD, POSITION, SEGMENT and COUNT. -/
def msgCredit (m : Msg) : Bool := (msgField m 6 1).testBit 7
def msgOr (m : Msg) : Bool := (msgField m 7 1).testBit 7
def msgEpoch (m : Msg) : BitVec 6 := BitVec.ofNat 6 (msgField m 6 1)
def msgTag (m : Msg) : BitVec 16 := BitVec.ofNat 16 (msgField m 0x0A 2)
def msgShard (m : Msg) : Nat := msgField m 0x0C 1 / 16

/-- The bytes of a message's data. -/
def msgData (m : Msg) : List Byte := m.data.flatMap bytes64

/-- The context that a message names, where its queue belongs to the message's job and the fingerprints agree (R438). -/
def msgCtx (s : State) (m : Msg) : Option (QNum × Nat) :=
  let a := msgField m 8 2
  let q := ctxQueue (bits a 7 2) (bits a 6 1) (a % 64)
  let x := s.queue q
  match s.job? x.job.toNat with
  | some j => if x.st != .free && j.redJob.toNat == msgJob m && j.fingerprint.toNat == msgField m 0x18 8 then some (q, x.job.toNat) else none
  | none => none

/-- A message discarded by R438. -/
def unmatched (s : State) : State := bump s 5 0 17 1

/-! ### The bucket in the running command -/

/-- The chain set of the running RED_BUCKET. -/
def chainM : M Chain := do
  let r ← get
  let j := r.s.job r.job
  let a := bkAxis r.c
  let t ← descM (if bkGather r.c then cmdField r.c 0x0C 4 else cmdField r.c 8 4)
  return ⟨j.p.getD a 1, j.q.getD a 0, bkPlus r.c, bkGather r.c, t.count⟩

def ctxM : M Ctx := do
  let r ← get
  return r.s.ctx r.q
def modCtx (g : Ctx → Ctx) : M Unit := modify fun r => { r with s := r.s.setCtx r.q (g (r.s.ctx r.q)) }

/-- Overflow evidence of the job (R221). -/
def noteEvidence : M Unit := modify fun r => { r with s := r.s.setJob r.job { r.s.job r.job with evidence := true } }

/-- The local contribution of n elements of the bucket from a (R447). -/
def localVals (a n : Nat) : M (List Nat) := do
  let r ← get
  let x := r.s.ctx r.q
  let v ← readRow (← descM (cmdField r.c 8 4)) 0 a n
  if bkN r.c = 1 then return v
  else
    let acc ← readRow (← descM (cmdField r.c 0x10 4)) 0 a n
    return (acc.zip v).map fun e => fmul (fadd e.1 (fmul e.2 (pow2 (-(x.l.toNat : Int))))) (pow2 x.l.toNat)

/-- The rounding of a chain's narrowing at position j from bucket element a: row 5 of R71 where the job has stochastic adders. -/
def chainMode (j a : Nat) : M (Nat → Rnd) := do
  let r ← get
  let b := r.s.job r.job
  if !b.stochRed then return fun _ => .rne
  else
    let t ← descM (cmdField r.c 8 4)
    let st := (r.s.ctx r.q).drawStep.toNat
    return fun i => .sr (randBits b.seed.toNat st t.tid 5 (j * 2 ^ 41 + (a + i) % 2 ^ 41))

/-- Narrows sums to the wire: the data bytes, and whether OVF_SAT or NONFINITE was counted (R442, R444). -/
def toWire (wire j a : Nat) (xs : List Nat) : M (List Byte × Bool) := do
  if wire = 2 then return (xs.flatMap (leBytes 4), false)
  else match fmtOf (wireFmt wire) with
    | none => return ([], false)
    | some k => do
      let mode ← chainMode j a
      let ps := (blockPieces (if wire = 1 then 32 else 4096) (xs.length + 1) 0 xs).map fun e => narrowBlock k (fun i => mode (e.1 + i)) none e.2
      let ovf := (ps.map (·.ovf)).foldl (· + ·) 0
      let nf := (ps.map (·.nonfin)).foldl (· + ·) 0
      countM 1 ovf
      countM 2 nf
      let fill := fun (l : List Nat) => if wire = 1 then l ++ List.replicate (32 - l.length) 0 else l
      return (ps.flatMap (fun n => (fill n.codes).flatMap (leBytes (k.w / 8))) ++ (if wire = 1 then ps.map (fun n => BitVec.ofNat 8 n.scale) else []), ovf != 0 || nf != 0)

/-- Values of n elements as they arrive, widened (R75). -/
def fromWire (wire n : Nat) (bs : List Byte) : List Nat :=
  (List.range n).map fun i =>
    if wire = 2 then byteField bs (4 * i) 4
    else match fmtOf (wireFmt wire) with
      | some k => if wire = 1 then widen k (byteField bs ((n + 31) / 32 * 32 + i / 32) 1) (byteField bs i 1) else widen k 0 (byteField bs (2 * i) 2)
      | none => 0

/-- The sums of the squares of each vector of 32 values (R146). -/
def vecSquares (xs : List Nat) : List Nat :=
  (chunksOf 32 (xs.length / 32 + 1) (xs.map fun x => fmul x x)).map fun v => treeOf fadd 5 (v ++ List.replicate (32 - v.length) 0)

/-- SUMSQ_OWNED: the vectors of the owned shard, added in ascending order whatever the order of their arrival (R146, R448). -/
def Ctx.sumsqOwned (x : Ctx) : Nat := (x.sqOwned.flatMap fun e => e.2.map (·.toNat)).foldl fadd 0

/-- A segment waits for credit. -/
def sendSeg (shard pos k n wire : Nat) (ovf : Bool) (bs : List Byte) : M Unit := do
  let r ← get
  let x := r.s.ctx r.q
  let nf := (bs.length + 63) / 64
  let g := bkGather r.c
  let m : Msg := ⟨chainHead (r.s.job r.job) r.q (if g then 1 else 2) ((if ovf then 64 else 0) + x.epoch.toNat) (if g then 0 else wire) nf
    (bkTag r.c).toNat shard pos 0 k n, dataFlits bs nf⟩
  modCtx fun x => { x with outq := x.outq ++ [m] }
  if ovf then countM 24 1

/-- Stores finished sums in the owned shard (R442), under row 5 of R71 where the job has stochastic adders. -/
def storeOwned (h : Chain) (a : Nat) (xs : List Nat) : M Unit := do
  let r ← get
  let t ← descM (cmdField r.c 0x0C 4)
  let c0 := a - h.lo h.me
  match fmtOf t.fmt with
  | none => stopWith stDescInvalid
  | some k =>
    if (r.s.job r.job).stochRed then
      let mode ← chainMode (h.p - 1) a
      forEach (if t.block = 1 then [(c0, xs)] else blockPieces t.block (xs.length + 1) c0 xs) fun p => do
        let n := narrowBlock k (fun i => mode (p.1 - c0 + i)) none p.2
        countM 1 n.ovf
        countM 2 n.nonfin
        evidenceM t (n.ovf != 0 || n.nonfin != 0 || p.2.any fun v => !f32IsFinite v)
        putCodes t 0 p.1 n.codes n.scale
      padRow t 0 (c0 + xs.length)
    else
      let _ ← writeRow t 0 c0 xs
      pure ()

/-- Segment k of shard s at this module's position of a SUM chain (R442, R444): the arriving values, if any, and their OVF bit. -/
def sumSeg (h : Chain) (s k : Nat) (vin : Option (List Nat)) (ovfIn : Bool) : M Unit := do
  let r ← get
  let wire := bkWire r.c
  let (a, n) := h.segAt s k
  let j := h.pos s
  let c ← localVals a n
  let x := match vin with
    | some v => (v.zip c).map fun e => fadd e.1 e.2
    | none => c
  let ovf := ovfIn || c.any (fun v => !f32IsFinite v) || x.any fun v => !f32IsFinite v
  if ovf then noteEvidence
  if j + 1 < h.p then
    let (bs, sat) ← toWire wire j a x
    sendSeg s j k n wire (ovf || sat) bs
  else
    storeOwned h a x
    if ovf then countM 24 1
    modCtx fun y => { y with ovf := y.ovf || ovf, sqOwned := tput k ((vecSquares x).map (BitVec.ofNat 32)) y.sqOwned }

/-- Bytes of a shard's segment, and their place in the gathered tensor (R443). -/
def storeBytes (a : Nat) (bs : List Byte) : M Unit := do
  let t ← descM (← fieldM 0x0C 4)
  putCodes t 0 a (bs.map (·.toNat)) 0

/-- Handles one segment that arrives, and returns the credit of the space it held (R440, R442, R443). -/
def arriveSeg (m : Msg) : M Unit := do
  let r ← get
  let h ← chainM
  let wire := bkWire r.c
  let s := msgShard m
  let k := msgField m 0x10 4
  let n := (h.segAt s k).2
  if h.gather then
    let bs := (msgData m).take n
    storeBytes (h.segAt s k).1 bs
    if (msgField m 6 1).testBit 6 then noteEvidence
    if h.pos s + 1 < h.p then sendSeg s (h.pos s) k n 0 false bs
  else sumSeg h s k (some (fromWire wire n (msgData m))) ((msgField m 6 1).testBit 6)
  let x ← ctxM
  modCtx fun x => { x with segs := tput s (tget 0 x.segs s + 2 ^ k) x.segs }
  modS fun st => sendBacklog st (bucketBack r.c) (creditMsg (st.job r.job) r.q h.gather x.epoch.toNat (bkTag r.c).toNat (m.data.length + 1)) none

/-- An arriving segment is one of its shard that has not come yet, on a chain that this module does not begin, and its counts fit (R438, R439). -/
def segFits (h : Chain) (wire : Nat) (segs : Tab Nat) (m : Msg) : Bool :=
  let s := msgShard m
  let k := msgField m 0x10 4
  let n := (h.segAt s k).2
  decide (s < h.p) && h.pos s != 0 && !(tget 0 segs s).testBit k && decide (k < h.nseg s) && msgField m 0x14 4 == n
    && m.data.length == segFlits h wire n - 1 && msgField m 0x0C 1 % 16 + 1 == h.pos s && msgField m 7 1 == (if h.gather then 0 else wire)

/-- Handles the segments that waited for the chain's start; one that does not fit is discarded (R438). -/
def drainIn : List Msg → M Unit
  | [] => pure ()
  | m :: r => do
    let h ← chainM
    if segFits h (bkWire (← get).c) (← ctxM).segs m then arriveSeg m else modS unmatched
    drainIn r

/-! ### Start of a chain (R447) -/

/-- The step sends (R447). -/
def sends (c : Cmd) (t : BitVec 64) : Bool := t.toNat % bkN c == bkN c - 1

/-- The loss-scale exponent in force during the step: after its CLOSE, the sealed one. -/
def stepScale (j : Job) : Nat := if j.closed then j.lStep else j.l

/-- Adds the bucket to its accumulator in a step that does not send (R447). -/
def accumulate : M Unit := do
  let r ← get
  let j := r.s.job r.job
  let src ← descM (cmdField r.c 8 4)
  let acc ← descM (cmdField r.c 0x10 4)
  let v ← readRow src 0 0 src.count
  let old ← readRow acc 0 0 src.count
  let x := (old.zip v).map fun e => fadd e.1 (fmul e.2 (pow2 (-(stepScale j : Int))))
  if v.any (fun u => !f32IsFinite u) || x.any (fun u => !f32IsFinite u) then noteEvidence
  putCodes acc 0 0 x 0
  modW fun w => { w with done := true, opspec := BitVec.ofNat 32 (2 ^ 31 + (bkTag r.c).toNat) }
  match r.exe with
  | .re d n _ => modS fun s => bump s 9 (2 * d + n) 2 1
  | _ => pure ()

/-- The chain starts: the module's own segments are formed, and those that have arrived are handled (R437, R442, R443, R447). -/
def startBody : M Unit := do
  let r ← get
  let j := r.s.job r.job
  if bkN r.c != 1 && !sends r.c j.step then
    accumulate
    modCtx Ctx.idle
  else
    let h ← chainM
    let l := stepScale j
    modCtx fun x => { x with running := true, step := j.step, l := BitVec.ofNat 6 l, inq := [] }
    if !h.gather && cmdField r.c 0x14 4 != 0 then
      let c ← localVals 0 h.tot
      modCtx fun x => { x with sumsqLocal := BitVec.ofNat 32 ((vecSquares c).foldl fadd 0) }
    forEach ((List.range h.p).filter fun s => h.pos s == 0) fun s => do
      forEach (List.range (h.nseg s)) fun k => do
        let (a, n) := h.segAt s k
        if h.gather then
          let src ← descM (cmdField r.c 8 4)
          let bs := (← readCodes src 0 (a - h.lo s) n).map fun e => BitVec.ofNat 8 e.1
          storeBytes a bs
          sendSeg s 0 k n 0 false bs
        else sumSeg h s k none false
      modCtx fun x => { x with segs := tput s (2 ^ h.nseg s - 1) x.segs }
    drainIn (r.s.ctx r.q).inq
    if !(r.s.port (bucketPort r.c)).up then stopWith stOffline

/-- Clears a context whose command has failed. -/
def dropCtx (s : State) (q : QNum) : State := s.setCtx q (s.ctx q).idle

/-- Starts the chain of the RED_BUCKET that waits in a context; where it must wait for a host page it is presented again. -/
def startChain (s : State) (q : QNum) : State :=
  match (s.ctx q).cur with
  | some (idx, _) =>
    let release := fun (s : State) => s.setQueue q { s.queue q with hold := .none }
    match runStarted s q idx startBody with
    | (.ok, t) => release t
    | (.failed, t) => release (dropCtx t q)
    | (.again, t) => t
  | none => s

/-! ### RED_BUCKET (R445 to R449) -/

/-- A tensor that a reduction engine reads or writes: rank 1, untiled, stride 1. -/
def bucketVecOk (t : TDesc) : Bool := t.rank == 1 && !t.tiled && t.stride == [1]

/-- The formats of buckets and owned shards. -/
def bucketFmt (f : Nat) : Bool := [0x00, 0x01, 0x02, 0x09].contains f

/-- The descriptors of a RED_BUCKET. -/
structure BucketOps where
  src : TDesc
  dst : TDesc
  acc : Option TDesc
  stats : Option TDesc
  deriving DecidableEq, Repr

/-- The cases of R446 are absent; a semaphore that R366 does not let the command name has the status of R366 (DEDUCED, log entry 108). -/
def bucketOk (c : Cmd) (e : Exe) (j : Job) (o : BucketOps) : Bool :=
  let a := bkAxis c
  let p := j.p.getD a 1
  let lo := cmdField c 0x36 1
  let hi := cmdField c 0x37 1
  let h : Chain := ⟨p, j.q.getD a 0, bkPlus c, bkGather c, if bkGather c then o.dst.count else o.src.count⟩
  let mine := h.hi h.me - h.lo h.me
  decide (2 ≤ p) && decide (lo ≤ hi) && decide (hi ≤ 223) && bkTag c != 0xFFFF && semFieldOk (cmdField c 0x18 4) && semFieldOk (cmdField c 0x20 4)
    && o.acc.isSome == (bkN c != 1) && srcOk e o.src && dstOk e o.dst
    && (if bkGather c then
        o.src.access == 0 && o.src.layout == 0 && o.dst.layout == 0 && o.src.fmt == 0x1B && o.dst.fmt == 0x1B && o.src.rank == 1 && o.dst.rank == 1
          && o.dst.count % 256 == 0 && o.dst.count != 0 && o.src.count == mine && o.acc.isNone && o.stats.isNone
      else
        let b := o.src.count * o.src.width / 8
        bucketVecOk o.src && bucketFmt o.src.fmt && decide (2 ^ 20 ≤ b) && decide (b ≤ 2 ^ 26) && o.dst.rank == 1 && bucketFmt o.dst.fmt && o.dst.count == mine
          && !o.dst.tiled)
    && optOk (fun t => dstOk e t && !t.tiled && t.rank == 1 && t.fmt == 0 && t.count == o.src.count) o.acc
    && optOk (fun t => dstOk e t && t.layout == 0 && t.fmt == 0x1B && decide (32 * (cmdField c 0x32 2 + 1) ≤ t.count)) o.stats

/-- RED_BUCKET at the head of its context's queue: checks, then either the whole of a step that does not send, or a start whose chain is yet to come. -/
def bucketBody : M Unit := do
  let r ← get
  let c := r.c
  let j := r.s.job r.job
  let o : BucketOps := ⟨← descM (cmdField c 8 4), ← descM (cmdField c 0x0C 4), ← descOpt (cmdField c 0x10 4), ← descOpt (cmdField c 0x14 4)⟩
  need (bucketOk c r.exe j o) stCmdInvalid
  if cmdField c 0x18 4 != 0xFFFFFFFF then semM (cmdField c 0x18 4)
  if cmdField c 0x20 4 != 0xFFFFFFFF then semM (cmdField c 0x20 4)
  let x := r.s.ctx r.q
  let asked := match j.verdict with
    | some v => v.chain == r.q
    | none => false
  if x.cur.isSome || x.round.isSome || j.reshard.isSome || asked then throw (.hold .other)
  setSem (cmdField c 0x18 4) (cmdField c 0x1C 4)
  writerM o.dst
  if sends c j.step then
    keepDescs [cmdField c 8 4, cmdField c 0x0C 4, cmdField c 0x10 4, cmdField c 0x14 4]
    modW fun w => { w with done := false }
  else accumulate

/-- The grant that a message carries. -/
def grantOf (p : Port) (m : Msg) : Grant := ⟨p, msgTag m, msgEpoch m, msgField m 0x0E 2⟩

/-- A grant matches a context's command of a TAG whose segments leave on a port; a whole window that follows the command's own is for a later command of that TAG (R440, R455, log entry 68). -/
def Ctx.takes (x : Ctx) (window : Nat) (p : Port) (tag : BitVec 16) (g : Grant) : Bool :=
  g.port == p && g.tag == tag && g.epoch == x.epoch && !(x.opened && g.n == window)

/-- A grant applies. -/
def Ctx.credit (x : Ctx) (window : Nat) (g : Grant) : Ctx := { x with credits := x.credits + g.n, opened := x.opened || g.n == window }

/-- A grant that matches nothing is held. -/
def Ctx.hold (x : Ctx) (g : Grant) : Ctx := { x with grants := x.grants ++ [g] }

/-- A command of a TAG and epoch starts in a context: the held grants that match it apply (R440). -/
def takeGrants (x : Ctx) (window : Nat) (p : Port) (tag : BitVec 16) (epoch : BitVec 6) : Ctx :=
  x.grants.foldl (fun y g => if y.takes window p tag g then y.credit window g else y.hold g)
    { x with epoch := epoch, credits := 0, opened := false, grants := [] }

/-- A RED_BUCKET has started in its context (R440, R447, R450, R452): it takes the epoch and the grants that match, grants its window, and waits for its bucket, or its chain starts. -/
def launchBucket (s : State) (q : QNum) (idx : BitVec 16) (c : Cmd) : State :=
  let x := s.queue q
  let j := s.job x.job.toNat
  let tag := bkTag c
  let y := takeGrants (s.ctx q) (s.reg 0x3800 2) (bucketPort c) tag j.epoch
  let flushed := y.flush == some tag
  let s := s.setCtx q { y with cur := some (idx, c), drawStep := j.step, flush := if flushed then none else y.flush }
  if !(s.port (bucketBack c)).up then markDone (dropCtx s q) q idx stOffline
  else
    let s := sendBacklog s (bucketBack c) (creditMsg j q (bkGather c) j.epoch.toNat tag.toNat (s.reg 0x3800 2)) none
    let fs := cmdField c 0x20 4
    let t := BitVec.ofNat 64 (cmdField c 0x28 8)
    let full := flushed || fs == 0xFFFFFFFF || waitMet false t (s.sem fs).value
    let s := s.setQueue q { s.queue q with hold := .fill idx (BitVec.ofNat 16 fs) t full, since := s.time.tick }
    if full then startChain s q else s

/-- The reserved fields of RED_BUCKET (R445). -/
def bucketReserved (c : Cmd) : Bool :=
  zeroBytes c 0x24 4 && !(cmdField c 0x34 1).testBit 6 && decide (bkWire c ≤ 2) && (!bkGather c || (bkWire c == 0)) && zeroBytes c 0x38 8

/-- The handles of RED_BUCKET. -/
def bucketHandles (c : Cmd) : List Nat := [cmdField c 8 4, cmdField c 0x0C 4] ++ optH (cmdField c 0x10 4) ++ optH (cmdField c 0x14 4)

/-- RED_BUCKET (R445 to R449). -/
def execRedBucket (q : QNum) (c : Cmd) (s : State) : Out :=
  match startCmd q c bucketReserved bucketHandles bucketBody s with
  | .next t =>
    let idx := (s.queue q).next
    match (t.queue q).started.find? fun w => w.idx == idx with
    | some w => if (t.queue q).next != idx && !w.done then .next (launchBucket t q idx c) else .next t
    | none => .next t
  | o => o

/-- CHAIN_START (R447): FILL_SEM has reached FILL_TARGET, and the chain of the RED_BUCKET that waits for it starts. -/
def execChainStart (q : QNum) (s : State) : Out :=
  match (s.queue q).hold with
  | .fill _ _ _ true => .next (startChain s q)
  | _ => .next s

/-! ### Arrivals (R438, R440, R442, R443) -/

/-- A data segment reaches its context: handled if its chain runs, kept if the chain is yet to start, else discarded. -/
def takeSegment (p : Port) (m : Msg) (s : State) : State :=
  let s1 := takeMsg s p m
  match msgCtx s m with
  | none => unmatched s1
  | some (q, _) =>
    let x := s.ctx q
    match x.cur with
    | none => unmatched s1
    | some (idx, c) =>
      if bkTag c != msgTag m || x.epoch != msgEpoch m || bkGather c != (msgKind m == 1) then unmatched s1
      else if !x.running then s1.setCtx q { x with inq := x.inq ++ [m] }
      else match runStarted s1 q idx (drainIn [m]) with
        | (.ok, t) => t
        | (.failed, t) => dropCtx t q
        | (.again, t) => t.setPort p { t.port p with inbox := (s.port p).inbox }

/-- A port's inbox holds a message (R419). -/
def arrived (s : State) (p : Port) (m : Msg) : Bool := (s.port p).inbox.contains m

/-- CHAIN_SEGMENT_RECEIVED (R442). -/
def execChainSegmentReceived (p : Port) (m : Msg) (s : State) : Out :=
  if arrived s p m ∧ msgKind m = 2 ∧ !msgCredit m ∧ !msgOr m then .next (takeSegment p m s) else .next s

/-- TRANSFER_SEGMENT_RECEIVED (R443). -/
def execTransferSegmentReceived (p : Port) (m : Msg) (s : State) : Out :=
  if arrived s p m ∧ msgKind m = 1 ∧ !msgCredit m then .next (takeSegment p m s) else .next s

/-! ### The verdict round (R222, R451) -/

/-- The tag of the verdict round. -/
def roundTag : BitVec 16 := 0xFFFF

/-- Sends what the round's credits cover, as backlog. -/
def flushRound (s : State) (q : QNum) (port : Port) : Nat → State
  | 0 => s
  | n + 1 =>
    let x := s.ctx q
    match x.outq with
    | [] => s
    | m :: r =>
      if x.credits < m.data.length + 1 then s
      else flushRound (sendBacklog (s.setCtx q { x with outq := r, credits := x.credits - (m.data.length + 1) }) port m (some q)) q port n

/-- The round's message of a pass around an axis. -/
def roundMsg (j : Job) (q : QNum) (epoch me pass : Nat) (word : List Byte) : Msg :=
  ⟨chainHead j q 2 epoch (128 + 3) 9 roundTag.toNat 0 me 0 pass 513, dataFlits word 9⟩

/-- The round begins on an axis: the window is granted to the predecessor, held grants apply, and coordinate 0 sends its word. -/
def startAxis (s : State) (q : QNum) (jid a : Nat) (word : List Byte) : State :=
  let j := s.job jid
  let me := j.q.getD a 0
  let y := takeGrants (s.ctx q) (s.reg 0x3800 2) (axisPort a true) roundTag j.epoch
  let out := if me = 0 then [roundMsg j q j.epoch.toNat 0 0 word] else []
  let s := s.setCtx q { y with round := some (BitVec.ofNat 32 jid, BitVec.ofNat 2 a, 0), outq := out }
  if !(s.port (axisPort a true)).up || !(s.port (axisPort a false)).up then stopChain s q stOffline
  else
    let s := sendBacklog s (axisPort a false) (creditMsg j q false j.epoch.toNat roundTag.toNat (s.reg 0x3800 2)) none
    flushRound s q (axisPort a true) 2

/-- The lowest axis that a mask names. -/
def firstAxis (axes : BitVec 4) : Option Nat := (axesOf axes.toNat).head?

/-- The next axis begins, or the CLOSE ends with the OR of every module's word. -/
def nextAxis (s : State) (q : QNum) (jid : Nat) : State :=
  let j := s.job jid
  match j.verdict with
  | none => s
  | some v =>
    match firstAxis v.axes with
    | some a => startAxis s q jid a v.word
    | none =>
      let s := s.setCtx q (s.ctx q).idle
      (runStarted s v.queue v.idx do
        finishClose v.word v.own
        modW fun w => { w with done := true }).2

/-- Messages that a module at coordinate me takes on an axis: coordinate 0 the full OR alone, the others both passes. -/
def roundIn (me : Nat) : Nat := if me = 0 then 1 else 2

/-- The axis is done when its messages are in and its own are sent. -/
def settleRound (s : State) (q : QNum) : State :=
  let x := s.ctx q
  match x.round with
  | some (jid, a, n) =>
    let j := s.job jid.toNat
    match j.verdict with
    | some v =>
      if x.outq.isEmpty && n == roundIn (j.q.getD a.toNat 0) then
        let s := s.setJob jid.toNat { j with verdict := some { v with axes := v.axes &&& ~~~(1#4 <<< a.toNat) } }
        nextAxis (s.setCtx q x.idle) q jid.toNat
      else s
    | none => s
  | none => s

/-- Every module's word ORed byte by byte. -/
def orWords (a b : List Byte) : List Byte := (a.zip b).map fun e => e.1 ||| e.2

/-- A verdict word reaches a context that is in the round; the space that it held is granted again (R440, R451). -/
def takeWord (s : State) (q : QNum) (x : Ctx) (jid : BitVec 32) (a : BitVec 2) (n : Nat) (m : Msg) : State :=
  let j := s.job jid.toNat
  match j.verdict with
  | none => s
  | some v =>
    let me := j.q.getD a.toNat 0
    let p := j.p.getD a.toNat 1
    let got := (msgData m).take 513
    let word := if me = 0 || n = 1 then got else orWords got v.word
    let out := if me = 0 then [roundMsg j q x.epoch.toNat 0 1 word]
      else if n = 0 then [roundMsg j q x.epoch.toNat me 0 word]
      else if me + 1 < p then [roundMsg j q x.epoch.toNat me 1 word] else []
    let s := s.setJob jid.toNat { j with verdict := some { v with word := word } }
    let s := s.setCtx q { x with round := some (jid, a, n + 1), outq := x.outq ++ out }
    let s := sendBacklog s (axisPort a.toNat false) (creditMsg j q false x.epoch.toNat roundTag.toNat (m.data.length + 1)) none
    settleRound (flushRound s q (axisPort a.toNat true) 2) q

/-- VERDICT_MESSAGE_RECEIVED (R451). -/
def execVerdictMessageReceived (p : Port) (m : Msg) (s : State) : Out :=
  if !arrived s p m || msgKind m != 2 || msgCredit m || !msgOr m then .next s
  else
    let s1 := takeMsg s p m
    match msgCtx s m with
    | none => .next (unmatched s1)
    | some (q, _) =>
      let x := s.ctx q
      match x.round with
      | some (jid, a, n) =>
        let j := s.job jid.toNat
        if x.epoch = msgEpoch m ∧ msgTag m = roundTag ∧ m.data.length = 9 ∧ n < roundIn (j.q.getD a.toNat 0) then .next (takeWord s1 q x jid a n m)
        else .next (unmatched s1)
      | none => .next (unmatched s1)

/-- VERDICT_ROUND_START (R451): the round that a CLOSE asked for enters the chain context between two of its commands; no round starts while a RESHARD of the job waits (R453). -/
def execVerdictRoundStart (q : QNum) (s : State) : Out :=
  let jid := (s.queue q).job.toNat
  match s.job? jid with
  | none => .next s
  | some j =>
    match j.verdict with
    | some v =>
      let x := s.ctx q
      if v.chain = q ∧ x.cur.isNone ∧ x.round.isNone ∧ j.reshard.isNone ∧ (s.queue q).started.all (·.done) then .next (nextAxis s q jid) else .next s
    | none => .next s

/-- CREDIT_GRANT_RECEIVED (R440): a grant that matches the command in its context applies, any other is held. -/
def execCreditGrantReceived (p : Port) (m : Msg) (s : State) : Out :=
  if !arrived s p m || msgKind m > 2 || !msgCredit m then .next s
  else
    let s1 := takeMsg s p m
    match msgCtx s m with
    | none => .next (unmatched s1)
    | some (q, _) =>
      let x := s.ctx q
      let g := grantOf p m
      let win := s.reg 0x3800 2
      match x.cur, x.round with
      | some (_, c), _ => .next (s1.setCtx q (if x.takes win (bucketPort c) (bkTag c) g then x.credit win g else x.hold g))
      | none, some (_, a, _) =>
        let out := axisPort a.toNat true
        .next (if x.takes win out roundTag g then settleRound (flushRound (s1.setCtx q (x.credit win g)) q out 2) q else s1.setCtx q (x.hold g))
      | none, none => .next (s1.setCtx q (x.hold g))

/-! ### Completion (R448, R449) -/

/-- Every message of a context has been acknowledged by the neighbour's link (R418, R449). -/
def acked (s : State) (p : Port) (q : QNum) : Bool :=
  let x := s.port p
  !((x.retry ++ x.replay ++ x.backlog).any fun f => f.src == some q)

/-- The record of a sending SUM step (R448). -/
def noiseRecord (x : Ctx) (h : Chain) (tag : Nat) : List Byte :=
  let bad := !(f32IsFinite x.sumsqLocal.toNat && f32IsFinite x.sumsqOwned)
  leBytes 4 x.sumsqLocal.toNat ++ leBytes 4 x.sumsqOwned ++ leBytes 4 h.tot ++ leBytes 4 (h.hi h.me - h.lo h.me) ++
    leBytes 1 x.l.toNat ++ leBytes 1 ((if x.ovf then 1 else 0) + if bad then 2 else 0) ++ leBytes 2 tag ++ leBytes 8 x.step.toNat ++ leBytes 4 0

/-- The end of a chain: its record, its accumulator, its completion word (R447 to R449). -/
def endChain : M Unit := do
  let r ← get
  let c := r.c
  let x := r.s.ctx r.q
  let h ← chainM
  match ← descOpt (cmdField c 0x14 4) with
    | some t => forEach (noiseRecord x h (bkTag c).toNat).zipIdx fun e => writeM t.tier (t.byteAt (unflatten t.ext (32 * cmdField c 0x32 2 + e.2))) [e.1]
    | none => pure ()
  match ← descOpt (cmdField c 0x10 4) with
    | some t => putCodes t 0 0 (List.replicate t.count 0) 0
    | none => pure ()
  modW fun w => { w with done := true, opspec := BitVec.ofNat 32 ((if x.ovf then 2 ^ 30 else 0) + (bkTag c).toNat) }
  match r.exe with
  | .re d n _ => modS fun s => bump s 9 (2 * d + n) 1 1
  | _ => pure ()

/-- A RED_BUCKET whose segments are all handled, sent and acknowledged ends (R449). -/
def settleChain (s : State) (q : QNum) : State :=
  let x := s.ctx q
  match x.cur with
  | some (idx, c) =>
    if !x.running || !x.outq.isEmpty || !acked s (bucketPort c) q then s
    else
      let fin := runStarted s q idx do
        let h ← chainM
        if h.handled x.segs then endChain else throw (.hold .other)
      match fin with
      | (.again, t) => t
      | (_, t) => dropCtx t q
  | none => s

/-- COMMAND_COMPLETE (R344, R356, R362, R364, R449): a started command whose work is over advances its semaphore, writes its record, raises its vector and halts its queue on an error. A completed SET_BASE lets the markers after it be armed (R39). The next index of a flush that waited for a host page carries the flush on. -/
def execCommandComplete (q : QNum) (idx : BitVec 16) (s : State) : Out :=
  let s := if (s.ctx q).cur.isSome then settleChain s q else s
  let x := s.queue q
  if x.st = .active ∨ x.st = .halted then
    match findDone x idx with
    | none => .next (if x.flushing && x.next == idx then runFlush s q else s)
    | some w =>
      let s := completeOne s q w
      let y := s.queue q
      if y.started.any (·.idx == idx) then .next s
      else .next (armReady (s.setQueue q { y with unarmed := y.unarmed.filter (·.1 != idx) }) q)
  else .next s

/-! ### RED_FLUSH (R450) -/

/-- RED_FLUSH: the chain of a RED_BUCKET with that TAG that waits for fill starts, or the flush is recorded. -/
def flushBody : M Unit := do
  let r ← get
  match r.exe with
  | .re d n _ =>
    let q := ctxQueue d n (cmdField r.c 8 1 % 64)
    let tag := BitVec.ofNat 16 (cmdField r.c 0x0A 2)
    let x := r.s.queue q
    need (x.st != .free && x.job.toNat == r.job) stCmdInvalid
    let y := r.s.ctx q
    match x.hold, y.cur with
    | .fill i n t _, some (_, c) =>
      if bkTag c = tag then modS fun s => startChain (s.setQueue q { x with hold := .fill i n t true }) q
      else modS fun s => s.setCtx q { y with flush := some tag }
    | _, _ => modS fun s => s.setCtx q { y with flush := some tag }
  | _ => stopWith stCmdInvalid

/-- The reserved fields of RED_FLUSH. -/
def flushOk (c : Cmd) : Bool := decide (cmdField c 8 1 ≤ 63) && zeroBytes c 9 1 && zeroBytes c 0x0C 52

/-- RED_FLUSH (R450). -/
def execRedFlush (q : QNum) (c : Cmd) (s : State) : Out :=
  startCmd q c flushOk (fun _ => []) flushBody s

/-! ### RESHARD (R452, R453) -/

/-- Chains and verdict rounds of a job that have started on the module. -/
def activeChains (s : State) (job : Nat) : Nat :=
  (s.ctxs.filter fun e => (s.queue (BitVec.ofNat 15 e.1)).job.toNat == job && (s.queue (BitVec.ofNat 15 e.1)).st != .free &&
    (e.2.cur.isSome || e.2.round.isSome)).length

/-- RESHARD at the head of its queue: no chain of the job starts until it is installed. -/
def reshardBody : M Unit := do
  let r ← get
  let j := r.s.job r.job
  if j.reshard.isSome then throw (.hold .other)
  need (cmdField r.c 8 1 == (j.epoch + 1).toNat) stCmdInvalid
  modW fun w => { w with done := false }
  modS fun s => s.setJob r.job { j with reshard := some (r.q, r.w.idx, r.c) }

/-- The reserved fields of RESHARD. -/
def reshardOk (c : Cmd) : Bool := decide (cmdField c 8 1 ≤ 63) && zeroBytes c 9 3 && zeroBytes c 0x0E 50 &&
    (List.range 4).all fun i => decide (bits (cmdField c 0x0C 2) (4 * i) 4 ≤ 5)

/-- RESHARD (R453). -/
def execReshard (q : QNum) (c : Cmd) (s : State) : Out :=
  startCmd q c reshardOk (fun _ => []) reshardBody s

/-- RESHARD_INSTALL (R453): at a beat boundary, once every chain of the old epoch has completed, the new epoch and roles are installed and the RESHARD completes. -/
def execReshardInstall (job : BitVec 32) (s : State) : Out :=
  match s.job? job.toNat with
  | none => .next s
  | some j =>
    match j.reshard with
    | none => .next s
    | some (q, idx, c) =>
      if activeChains s job.toNat != 0 || s.slot != 0 || !s.ticking then .next s
      else
        let e := BitVec.ofNat 6 (cmdField c 8 1)
        let s := s.setJob job.toNat { j with epoch := e, roles := BitVec.ofNat 16 (cmdField c 0x0C 2), reshard := none }
        let s := match tfind s.redJobs j.redJob.toNat with
          | some (st, _) => { s with redJobs := tput j.redJob.toNat (st, e) s.redJobs }
          | none => s
        .next (markDone s q idx stOk)

/-! ### Reduction job identifiers (R454) -/

/-- A chain of a reduction job identifier is active on the module. -/
def redBusy (s : State) (r : Nat) : Bool := s.jobs.any fun e => e.2.redJob.toNat == r && activeChains s e.1 != 0

/-- RED_JOB_DRAINED (R454): from DRAINING to HOLD when no chain of the job is active. -/
def execRedJobDrained (r : BitVec 10) (s : State) : Out :=
  match tfind s.redJobs r.toNat with
  | some (.draining, e) => if redBusy s r.toNat then .next s else .next { s with redJobs := tput r.toNat (.hold, e) s.redJobs }
  | _ => .next s

/-- RED_JOB_HOLD_EXPIRY (R454): from HOLD to FREE. -/
def execRedJobHoldExpiry (r : BitVec 10) (s : State) : Out :=
  match tfind s.redJobs r.toNat with
  | some (.hold, _) => .next { s with redJobs := tdel r.toNat s.redJobs }
  | _ => .next s

end Sys2Proof.Machine
end

