-- ==== Sys2Proof/Machine/HostAccess.lean ====
section
/-! DEFINITION. What hosts do to the module through BAR0 and BAR2 (17 R463 to R471): the IOD that serves them is held in reset until TIME_REF has locked, and an access before has no effect (R20, R542); doorbells, the semaphore window, the LEVEL register, the MSI-X table, the aperture. -/

namespace Sys2Proof.Machine

/-- A function exists: a physical one, or a virtual one that its port has enabled (R462). -/
def functionExists (s : State) (f : Nat) : Bool :=
  decide (f < 128) && (f % 64 == 0 || decide (f % 64 ≤ (s.hport (BitVec.ofNat 1 (f / 64))).numVfs.toNat))

/-- A host reaches a function's BARs: the IOD is out of reset, and the function exists (R20, R462). -/
def hostOpen (s : State) (f : Nat) : Bool := s.ticking && functionExists s f

/-! ### The configuration header (R461) -/

/-- A word of 4 bytes of a function's configuration header: vendor and device ID, class code 0x12_0000 with the revision, which is the stepping, and the subsystem IDs. A virtual function's vendor and device ID read as all ones, its device ID 0x0711 standing in the SR-IOV capability (PCI Express; log entry 14). No row reads it. -/
def configHeader (f off : Nat) : Option Nat :=
  match off with
  | 0x00 => some (if f % 64 = 0 then 0x07101F3E else 0xFFFFFFFF)
  | 0x08 => some (0x12000000 + Config.stepping.toNat)
  | 0x2C => some 0x00011F3E
  | _ => none

/-- TotalVFs, First VF Offset, VF Stride and VF Device ID of a port's SR-IOV capability (R461). -/
def sriov : Nat × Nat × Nat × Nat := (63, 1, 1, 0x0711)

/-! ### Doorbells (R352, R467, R468) -/

/-- A function owns a loaded job. -/
def ownsJob (s : State) (f : Nat) : Bool := s.jobs.any fun e => e.2.func.toNat == f

/-- A job that a function owns. -/
def jobOf (s : State) (f j : Nat) : Bool :=
  match s.job? j with
  | some x => x.func.toNat == f
  | none => false

/-- The queues that a function reaches: submission queues assigned to it, and engine queues of its jobs (R384, R468). -/
def reachesQueue (s : State) (f : Nat) (q : QNum) : Bool :=
  if 4096 ≤ q.toNat then s.assignedTo 1 q.toNat f
  else (s.queue q).st != .free && jobOf s f (s.queue q).job.toNat

/-- A doorbell of a job has been written: a raised DEADLOCK may be raised again (R376). -/
def jobDoorbell (s : State) (j : Nat) : State :=
  match s.job? j with
  | some x => if x.deadlocked then s.setJob j { x with deadlocked := false } else s
  | none => s

/-- A doorbell of a queue (R352, R355, R383): ignored where the queue takes none, ignored and counted where it would overrun the ring or move TAIL backward, else the commands up to it are covered. -/
def ringDoorbell (s : State) (f : Nat) (q : QNum) (tail : BitVec 16) : State :=
  let x := s.queue q
  if x.st = .free || x.st = .aborted || x.destroying then s
  else
    let s := jobDoorbell s x.job.toNat
    let n := (tail - x.head).toNat
    if x.n ≤ n || n < (x.tail - x.head).toNat then bump s 0x0B f 1 1 else coverTo s q tail

/-- The value that a write of a size carries. -/
def sized (size : Nat) (v : BitVec 64) : Nat := v.toNat % 2 ^ (8 * size)

/-- DOORBELL_WRITE (R20, R352, R468). -/
def execDoorbellWrite (f : Func) (q : QNum) (size : Nat) (v : BitVec 64) (s : State) : Out :=
  if !hostOpen s f.toNat then .next s
  else if (size != 4 && size != 8) || decide (65536 ≤ sized size v) || (s.func f.toNat).agreed = 0 || !reachesQueue s f.toNat q then
    .next (bump s 0x0B f.toNat 5 1)
  else .next (ringDoorbell s f.toNat q (BitVec.ofNat 16 v.toNat))

/-! ### The semaphore window (R370) -/

/-- An abort of a function is under way: its writes are ignored (R380). -/
def functionAborting (s : State) (f : Nat) : Bool := s.aborts.any fun a => a.ofFunction && a.target.toNat == f

/-- A write through the semaphore window: dropped and counted, or applied by the semaphore unit. -/
def semWindow (s : State) (f n size : Nat) (act : State → State) : State :=
  if !hostOpen s f || functionAborting s f then s
  else if size != 8 || (s.func f).agreed = 0 || !s.assignedTo 2 n f || (s.sem n).st != .live then bump s 0x0B f 2 1
  else act s

/-- What a read of a semaphore's 16 bytes returns, at +0x0 and +0x8 alike: the current value, or all ones where the semaphore is not assigned to the function or not LIVE (R370). No row of the table reads the window (log entry 55). -/
def semWindowRead (s : State) (f n : Nat) : BitVec 64 :=
  if s.assignedTo 2 n f && (s.sem n).st == .live then (s.sem n).value else BitVec.allOnes 64

/-- SEM_WINDOW_SET (R370). -/
def execSemWindowSet (f : Func) (n : SemNum) (size : Nat) (v : BitVec 64) (s : State) : Out :=
  .next (semWindow s f.toNat n.toNat size fun s => semStore s n.toNat v)

/-- SEM_WINDOW_ADD (R370). -/
def execSemWindowAdd (f : Func) (n : SemNum) (size : Nat) (v : BitVec 64) (s : State) : Out :=
  .next (semWindow s f.toNat n.toNat size fun s => semAdd s n.toNat v)

/-! ### LEVEL (R467) -/

/-- A function owns a job or a LIVE semaphore. -/
def ownsWork (s : State) (f : Nat) : Bool := ownsJob s f || s.sems.any fun e => e.2.st == .live && e.2.owner.toNat == f

/-- A write of LEVEL: AGREED becomes min(HOST, 1); a write that would change AGREED is ignored while the function owns work. -/
def levelSet (s : State) (f : Nat) (v : Nat) : State :=
  if !hostOpen s f then s else
  let x := s.func f
  let h := BitVec.ofNat 4 v
  let a : BitVec 4 := if h = 0 then 0 else 1
  if a != x.agreed && ownsWork s f then s else s.setFunc f { x with levelHost := h, agreed := a }

/-- LEVEL_WRITE (R467). -/
def execLevelWrite (f : Func) (v : BitVec 32) (s : State) : Out := .next (levelSet s f.toNat v.toNat)

/-! ### MSI-X (R464) -/

/-- A vector's mask bit is set. -/
def maskVector (s : State) (f v : Nat) : State :=
  let x := s.func f
  s.setFunc f { x with msixMask := x.msixMask ||| BitVec.ofNat 2048 (2 ^ v) }

/-- A vector's mask bit clears, and a pending message leaves, or is dropped while MSI-X is disabled. -/
def unmaskVector (s : State) (f v : Nat) : State :=
  let x := s.func f
  let b := BitVec.ofNat 2048 (2 ^ v)
  let t := s.setFunc f { x with msixMask := x.msixMask &&& ~~~b, msixPending := x.msixPending &&& ~~~b }
  if x.msixPending.getLsbD v then raiseMsix t f v else t

/-- MSIX_VECTOR_UNMASK (R20, R464). -/
def execMsixVectorUnmask (f : Func) (v : BitVec 11) (s : State) : Out := .next (if hostOpen s f.toNat then unmaskVector s f.toNat v.toNat else s)

/-! ### The aperture (R469, R470) -/

/-- The 1 GiB units of a range are all assigned to a function. -/
def unitsAssigned (s : State) (f a n : Nat) : Bool :=
  (rangeFrom (a / 2 ^ 30) ((a + n + 2 ^ 30 - 1) / 2 ^ 30 - a / 2 ^ 30)).all fun u => s.assignedTo 3 (unitOf (2 ^ 30 * u)) f

/-- A BAR2 access is served (R470, R532): inside the BAR, in memory, in assigned units, and not in STANDBY. -/
def apertureOk (s : State) (f off n : Nat) : Bool :=
  let x := s.func f
  let a := x.aperture.toNat + off
  decide (off + n ≤ 2 ^ x.bar2Log2.toNat) && inDev a n && unitsAssigned s f a n && s.power.state != .standby

/-- The leaf entry of the managed page whose frame holds a physical address: a BAR2 access is a transaction to that page (R300). -/
def leafAt (s : State) (a : Nat) : Option Nat :=
  ((managedLeaves s).find? fun e => e.2 / 2 ^ 21 == a / 2 ^ 21).map (·.1)

/-- BAR2_READ (R20, R306, R469, R470): the bytes; all ones and a count where denied; a poisoned completion and a black-box record; open bytes from a device out of service. -/
def execBar2Read (f : Func) (off : BitVec 42) (len : Nat) (s : State) : Out :=
  let x := s.func f.toNat
  let a := x.aperture.toNat + off.toNat
  let answer := fun (s : State) (d : Option (List Byte)) => s.setFunc f.toNat { s.func f.toNat with bar2Data := d }
  if !hostOpen s f.toNat then .next s
  else if !apertureOk s f.toNat off.toNat len then .next (answer (bump s 0x0B f.toNat 4 1) (some (List.replicate len 0xFF)))
  else if !devicesOk s a len then
    let (b, t) := drawBytes s len
    .next (answer t (some b))
  else
    let t := touchPage s a len (leafAt s a)
    match poisonIn s a len with
    | some g => .next (answer (bbWrite t 0x0008 0 0 (BitVec.ofNat 8 (f.toNat / 64) :: leBytes 8 g)) none)
    | none => .next (answer t (some (physRead s a len)))

/-- BAR2_WRITE (R20, R291, R469, R470): the bytes land, or the write is dropped and counted; one to a device out of service lands nowhere. -/
def execBar2Write (f : Func) (off : BitVec 42) (data : List Byte) (s : State) : Out :=
  let a := (s.func f.toNat).aperture.toNat + off.toNat
  if !hostOpen s f.toNat then .next s
  else if !apertureOk s f.toNat off.toNat data.length then .next (bump s 0x0B f.toNat 4 1)
  else if !devicesOk s a data.length then .next s
  else .next (touchPage (physWrite s a data) a data.length (leafAt s a))

/-- An aperture base fits a BAR2 size (R469). -/
def baseOk (base log2 : Nat) : Bool := base % 2 ^ log2 == 0 && decide (base + 2 ^ log2 ≤ 0x40000000000)

/-- A function's BAR2 takes a size; a base that no longer fits resets to 0. -/
def resizeBar2 (log2 : BitVec 6) (s : State) (f : Nat) : State :=
  let x := s.func f
  s.setFunc f { x with bar2Log2 := log2, aperture := if baseOk x.aperture.toNat log2.toNat then x.aperture else 0 }

/-- BAR2_RESIZE (R20, R463, R469): a physical function's own size, or that of all virtual functions of its port together; 1 GiB to 4 TiB. -/
def execBar2Resize (f : Func) (log2 : BitVec 6) (s : State) : Out :=
  if log2.toNat < 30 ∨ 42 < log2.toNat ∨ !hostOpen s f.toNat then .next s
  else if f.toNat % 64 = 0 then .next (resizeBar2 log2 s f.toNat)
  else .next ((rangeFrom (f.toNat / 64 * 64 + 1) 63).foldl (resizeBar2 log2) s)

end Sys2Proof.Machine
end

