-- ==== Sys2Proof/Machine/Descriptors.lean ====
section
/-! DEFINITION. Creating and destroying descriptors (11 R313 to R335, R564): the checks of R328 in their order, the overlap class of R323, the ragged table of R332. FIELD of a failed check is the lowest offset among the fields that its row of R328 names (log entry 33). -/

namespace Sys2Proof.Machine

/-! ### Paths (R485) -/

/-- The function that a path is judged as; none for the management path. -/
def pathFunc : Path → Option Nat
  | .mgmt => none
  | .mctp h => some (64 * h.toNat)
  | .window f => some f.toNat

/-- A path reaches a loaded job: the function's own, or every job on the management path. -/
def pathReaches (s : State) (p : Path) (j : Nat) : Bool :=
  match pathFunc p with
  | none => (s.job? j).isSome
  | some f => jobOf s f j

/-! ### Reads outside commands -/

/-- Reads n bytes at an address of a tier for a function and a job. -/
def readNow (s : State) (f job tier a n : Nat) : Acc (List Byte × State) :=
  if tier = 0 then
    match poisonIn s a n with
    | some g => .poison g g
    | none => if inNear a n then .ok (physRead s a n, s) else .offline
  else vRead s f job a n (some tier)

/-! ### The checks of R328 -/

/-- The lowest offset among the faults of one check. -/
def lowest (l : List (Bool × Nat)) : Option Nat :=
  (l.filter (·.1)).foldl (fun m e => match m with
    | none => some e.2
    | some k => some (min k e.2)) none

/-- Check 1: codes, reserved bits, fields beyond RANK. -/
def check1 (d : BitVec 1024) : Option Nat :=
  let b1 := rawField d 1 1
  let b2 := rawField d 2 1
  let b3 := rawField d 3 1
  let rank := b1 % 16
  let len := rawField d 0x18 8
  lowest ([((widthOf (rawField d 0 1)).isNone, 0), (decide (3 < b1 / 16) || rank == 0 || decide (8 < rank), 1),
    (decide (4 < b2 / 32) || bits b2 2 2 ≥ 2 || b2 % 4 == 3, 2), (b3 % 32 != 0 || (b3.testBit 5 && b1 / 16 != 3), 3),
    (len == 0 || decide (2 ^ 44 < len), 0x18), (rawField d 0x7C 1 / 16 != 0 || decide (rank ≤ rawField d 0x7C 1 % 8), 0x7C), (rawField d 0x7D 3 != 0, 0x7D),
    (decide (rank ≤ 8) && rawField d 0x70 4 / 2 ^ (4 * rank) != 0, 0x70)] ++
    (List.range 8).flatMap fun i => if i < rank then [] else
      [(rawField d (0x28 + 9 * i) 4 != 0, 0x28 + 9 * i), (rawField d (0x2C + 9 * i) 5 != 0, 0x2C + 9 * i)])

/-- The integer codes of R55. -/
def isInt (f : Nat) : Bool := [0x18, 0x19, 0x1A, 0x1B].contains f

/-- Check 2: FORMAT in LAYOUT, of TILE_W, of ACCUM_WRITE. -/
def check2 (fmt : Nat) (t : TDesc) : Option Nat :=
  let ok := match t.layout with
    | 0 => [0x00, 0x01, 0x02, 0x03, 0x04, 0x18, 0x19, 0x1A, 0x1B].contains fmt
    | 1 => !isInt fmt
    | 2 => !isInt fmt && !isGm16 fmt
    | _ => !isInt fmt && !isGm16 fmt && fmt != 0
  lowest [(!ok, 0), (t.layout == 3 && t.rank != 2 && t.rank != 3, 1),
    (t.access == 2 && !([0x00, 0x01, 0x02, 0x18, 0x19, 0x1A].contains fmt), 0), (t.access == 2 && decide (1 < t.layout), 1)]

/-- Check 3: sizes, strides, AUX. -/
def check3 (fmt : Nat) (t : TDesc) : Option Nat :=
  lowest ([(t.aux != 0 && !(t.layout == 1 && (isBlockFmt fmt || isGm16 fmt)), 0x20)] ++
    (List.range t.rank).flatMap fun i =>
      let st := t.stride.getD i 0
      let bad := match t.layout with
        | 0 => false
        | 1 => if i = 0 then st != 1 else st % vecOf fmt != 0
        | _ => st != 0
      [(t.size.getD i 0 == 0, 0x28 + 9 * i), (bad, 0x2C + 9 * i)])

/-- Check 4: alignment of BASE. -/
def check4 (fmt : Nat) (t : TDesc) : Option Nat :=
  let al := match t.layout with
    | 0 => max 1 ((widthOf fmt).getD 8 / 8)
    | 1 => 4
    | _ => 16
  lowest [(t.base % al != 0, 8)]

/-- Check 5: zero strides (R324). -/
def check5 (j : Job) (t : TDesc) (ragged : List Nat) : Option Nat :=
  lowest ((List.range t.rank).map fun i =>
    (t.access == 1 && !t.tiled && t.stride.getD i 0 == 0 && decide (1 < nmax j t ragged i), 0x2C + 9 * i))

/-- Check 6: write-generation mode and the room of the generation table (R292). -/
def check6 (s : State) (t : TDesc) : Option Nat :=
  lowest [(t.checked && (t.tid == 0 || (!(tget {} s.msys.gens t.tid).entered && decide (131072 ≤ genUsed s))), 2)]

/-- The dimension that is RAGGED, if any. -/
def raggedDim (t : TDesc) : Option Nat := (List.range t.rank).find? fun i => (shardOf t.shard i).1 == 3

/-- Reads n entries of a ragged table, from one on. -/
def readTable (f job : Nat) (r : TDesc) : Nat → Nat → List Nat → State → Acc (List Nat × State)
  | 0, _, l, s => .ok (l, s)
  | n + 1, k, l, s =>
    match readNow s f job r.tier (r.bitAddr 0 k / 8) 4 with
    | .ok (b, t) => readTable f job r n (k + 1) (l ++ [leNat b]) t
    | .need key => .need key
    | .fault r a => .fault r a
    | _ => .offline

/-- The ragged table that a descriptor names (R332): none where it is not as the rule asks or cannot be read; the key of a host page to wait for. -/
def readRagged (s : State) (f job : Nat) (j : Job) (t : TDesc) : Except Nat (Option (List Nat) × State) :=
  match raggedDim t with
  | none => .ok (if t.raggedH = 0 then some [] else none, s)
  | some i =>
    let p := j.p.getD (shardOf t.shard i).2 1
    match tfind j.descs t.raggedH with
    | none => .ok (none, s)
    | some d =>
      let r := parseDesc j t.raggedH d
      if r.access != 0 || r.layout != 0 || r.fmt != 0x19 || r.rank != 1 || r.size != [p] || r.ext != [p] || decide (16 < p) then .ok (none, s)
      else match readTable f job r p 0 [] s with
        | .ok (l, u) => .ok (if l.foldl (· + ·) 0 = t.size.getD i 0 then some l else none, u)
        | .need k => .error k
        | .fault r _ => .ok (none, forgetRefusals s f r)
        | _ => .ok (none, s)

/-- The coordinate multiple at which every shard of dimension i must begin (R331). -/
def shardUnit (fmt : Nat) (t : TDesc) (i : Nat) : Nat :=
  match t.layout with
  | 1 => if i = 0 && (isBlockFmt fmt || isGm16 fmt) then vecOf fmt else 1
  | 2 => if i = 0 then 32 else 32 / Nat.gcd 32 (((t.size.take i).drop 1).foldl (· * ·) 1)
  | 3 => if i = 0 then 128 else if i = 1 then 512 else 1
  | _ => 1

/-- Every shard of dimension i that holds elements begins where it may; one that holds none begins nowhere (DEDUCED, log entry 106). -/
def shardsOk (j : Job) (fmt : Nat) (t : TDesc) (ragged : List Nat) (i : Nat) : Bool :=
  let (code, axis) := shardOf t.shard i
  let p := j.p.getD axis 1
  let n := t.size.getD i 0
  code == 0 || ((List.range p).all fun q => localExt code p q n ragged == 0 || globalOf code p q n ragged 0 % shardUnit fmt t i == 0)
    && !(i == 0 && code == 2 && (isBlockFmt fmt || isGm16 fmt))

/-- Check 7: SHARD, RAGGED, INDEX (R326, R331, R332). -/
def check7 (j : Job) (fmt : Nat) (t : TDesc) (ragged : Option (List Nat)) : Option Nat :=
  let sh := (List.range t.rank).map (shardOf t.shard)
  let axes := (sh.filter (·.1 != 0)).map (·.2)
  let idx := match tfind j.descs t.indexH with
    | some d =>
      let x := parseDesc j t.indexH d
      x.access == 0 && x.layout == 0 && x.rank == 1 && [0x18, 0x19, 0x1A].contains x.fmt && !x.idxEn
    | none => false
  lowest [(sh.any (fun e => e.1 == 0 && e.2 != 0) || axes.dedup.length != axes.length || decide (1 < (sh.filter (·.1 == 3)).length) ||
      !(List.range t.rank).all (shardsOk j fmt t (ragged.getD [])), 0x70),
    (ragged.isNone, 0x74), (if t.idxEn then !idx else t.indexH != 0, 0x78)]

/-- Check 8: an allocation of tier NEAR lies in one core's near memory. -/
def check8 (t : TDesc) : Option Nat :=
  lowest [(t.tier == 0 && !(inNear t.allocBase t.allocLen && nearCore t.allocBase == nearCore (t.allocBase + t.allocLen - 1)), 2)]

/-- A span of bytes lies in the allocation. -/
def inAlloc (t : TDesc) (lo hi : Int) : Bool := decide ((t.allocBase : Int) ≤ lo) && decide (hi ≤ (t.allocBase + t.allocLen : Int))

/-- Check 9: the reachable span and the span of scales or offsets. -/
def check9 (j : Job) (t : TDesc) (ragged : List Nat) : Option Nat :=
  let u := { t with fmt := spanFmt j t }
  let ext := maxExts j u.fmt t ragged
  if t.tiled then
    lowest [(!inAlloc t (u.reachable j ragged).1 (u.reachable j ragged).2, 8)]
  else
    let (lo, hi) := reach t.stride ext
    let v : Int := vecOf u.fmt
    lowest [(!inAlloc t (u.reachable j ragged).1 (u.reachable j ragged).2, 8),
      (t.layout == 1 && (isBlockFmt u.fmt || isGm16 u.fmt) && !inAlloc t (t.aux + lo / v) (t.aux + hi / v + 1), 0x10)]

/-- Inserts a dimension in ascending order of stride magnitude, ties in the order of the dimensions. -/
def insertDim (e : Nat × Nat) : List (Nat × Nat) → List (Nat × Nat)
  | [] => [e]
  | x :: r => if e.1 < x.1 then e :: x :: r else x :: insertDim e r

/-- The sorted-magnitude test (R323). -/
def injective (stride : List Int) (ext : List Nat) : Bool :=
  let dims := ((stride.map Int.natAbs).zip ext).filter fun e => decide (1 < e.2)
  ((dims.foldl (fun l e => insertDim e l) []).foldl (fun (m : Bool × Nat) e =>
    (m.1 && decide (m.2 < e.1), m.2 + e.1 * (e.2 - 1))) (true, 0)).1

/-- What validating a descriptor comes to: the descriptor with its overlap class, a status and FIELD, or a host page of its ragged table to wait for. -/
inductive Checked where
  | good (d : Desc)
  | bad (status field : Nat)
  | page (key : Nat)
  deriving DecidableEq, Repr

/-- Validates a descriptor (R328), check by check. -/
def validate (s : State) (f job : Nat) (j : Job) (raw : BitVec 1024) : Checked × State :=
  let fmt := rawField raw 0 1
  match check1 raw with
  | some k => (.bad stDescInvalid k, s)
  | none =>
    let t := parseDesc j 0 ⟨raw, false, []⟩
    match (check2 fmt t).or ((check3 fmt t).or (check4 fmt t)) with
    | some k => (.bad stDescInvalid k, s)
    | none => match readRagged s f job j t with
      | .error k => (.page k, s)
      | .ok (ragged, s) =>
        let rg := ragged.getD []
        match (check5 j t (ragged.getD (t.size.map id))).or ((check6 s t).or ((check7 j fmt t ragged).or (check8 t))) with
        | some k => (.bad stDescInvalid k, s)
        | none => match check9 j t rg with
          | some k => (.bad stDescOob k, s)
          | none =>
            let b2 := rawField raw 2 1
            let shared := t.access != 0 && !t.tiled && (bits b2 2 1 == 1 || t.idxEn || !injective t.stride (maxExts j t.fmt t rg))
            let cleared := raw.toNat - bits b2 2 2 * 2 ^ 18
            (.good ⟨BitVec.ofNat 1024 (cleared + if shared then 2 ^ 18 else 0), shared, rg⟩, s)

/-- Enters a validated descriptor in its job's table, and its identifier in the generation table (R292, R313). -/
def installDesc (s : State) (job h : Nat) (d : Desc) : State :=
  let j := s.job job
  let s := s.setJob job { j with descs := tput h d j.descs }
  if (rawField d.raw 2 1).testBit 4 then genEnter s (rawField d.raw 4 4) job else s

/-! ### DESC_CREATE and DESC_DESTROY (R564) -/

/-- Ends a create or destroy: DESC_STATUS of the path (R335) and the response status. -/
def descOutcome (s : State) (p : Path) (st field : Nat) (mayAlias : Bool) : Nat × State :=
  (st, s.setPath p { s.path p with descStatus := BitVec.ofNat 32 (st * 2 ^ 16 + (if mayAlias then 256 else 0) + field) })

/-- What a write answers with that has no response yet: its request is in progress. -/
def stWait : Nat := 0x10000

/-- A create that the checks of R488 have passed; one whose ragged table awaits a host page is answered later (R283, log entry 107). -/
def descCreate (s : State) (p : Path) (data : List Byte) : Nat × State :=
  let job := byteField data 0 4
  let h := byteField data 4 4
  if !pathReaches s p job then descOutcome s p stCmdInvalid 0xFF false
  else
    let j := s.job job
    if h = 0 || decide (1048575 < h) || (tfind j.descs h).isSome then descOutcome s p stDescInvalid 0xFF false
    else match validate s j.func.toNat job j (BitVec.ofNat 1024 (byteField data 8 128)) with
      | (.bad st field, t) => descOutcome t p st field false
      | (.good d, t) => descOutcome (installDesc t job h d) p stOk 0xFF d.mayAlias
      | (.page k, _) =>
        let t := requestPage s j.func.toNat k
        (stWait, t.setPath p { t.path p with descWait := some data })

/-- A destroy that the checks of R488 have passed. -/
def descDestroy (s : State) (p : Path) (data : List Byte) : Nat × State :=
  let job := byteField data 0 4
  let h := byteField data 4 4
  if !pathReaches s p job then descOutcome s p stCmdInvalid 0xFF false
  else
    let j := s.job job
    if h = 0 || decide (1048575 < h) || (tfind j.descs h).isNone then descOutcome s p stDescInvalid 0xFF false
    else descOutcome (s.setJob job { j with descs := tdel h j.descs }) p stOk 0xFF false

end Sys2Proof.Machine
end

