-- ==== Sys2Proof/Machine/QueueActions.lean ====
section
/-! DEFINITION. Queues from outside (13 R349 to R356, R384, R385): creation, RESUME, FLUSH, DESTROY, event rings, the semaphore writes of the dictionary, and requests for aborts (R378, R379). Each action answers the status of its write. -/

namespace Sys2Proof.Machine

/-! ### QUEUE_CREATE (R350, R385) -/

/-- An ENGINE field names the engine of a submission queue (R349): the command processor, a gather engine or a die DMA engine. -/
def engineOk (e : Nat) : Bool := e == 0xFFFF || (decide (2048 ≤ e) && decide (e < 4096) && decide ((e - 2048) % 512 < 384))

/-- The bytes of a QUEUE_CREATE record that must be zero. -/
def createReserved (d : List Byte) : Bool :=
  byteField d 0x0C 1 / 4 == 0 && byteField d 0x0D 3 == 0 && byteField d 0x26 2 == 0 && byteField d 0x28 8 == 0

/-- Another job holds a slot of a core (R349). -/
def coreSplit (s : State) (q job : Nat) : Bool :=
  (List.range 8).any fun k =>
    let x := s.queue (BitVec.ofNat 15 (q / 16 * 16 + k))
    x.st != .free && x.job.toNat != job

/-- QUEUE_CREATE of a 48-byte record whose owner is function f; the loader's job is its own (R350, R393). -/
def queueCreateAs (s : State) (f : Nat) (loader : Bool) (d : List Byte) : Nat × State :=
  let q := byteField d 0 2
  let job := byteField d 4 4
  let eng := byteField d 8 2
  let log2 := byteField d 3 1
  let vec := byteField d 0x0A 2
  let ring := byteField d 0x10 8
  let comp := byteField d 0x18 8
  let base := byteField d 0x20 8
  let mine := loader || jobOf s f job
  if decide (q < 2048) && decide (8 ≤ q % 16) then (stReserved, s)
  else if decide (32768 ≤ q) || (if 4096 ≤ q then !s.assignedTo 1 q f else !mine) then (stCmdInvalid, s)
  else if (s.queue (BitVec.ofNat 15 q)).st != .free then (stHeld, s)
  else if decide (q < 2048) && coreSplit s q job then (stHeld, s)
  else if !(if 4096 ≤ q then engineOk eng && (job == 0 || mine) else eng == 0 && job != 0) || !createReserved d ||
      byteField d 2 1 != f || decide (log2 < 4) || decide (16 < log2) || vec == 0 || decide (2048 ≤ vec) || ring % 256 != 0 || comp % 256 != 0 then
    (stCmdInvalid, s)
  else
    (stOk, s.setQueue (BitVec.ofNat 15 q)
      { st := .active, func := BitVec.ofNat 7 f, log2N := BitVec.ofNat 8 log2, job := BitVec.ofNat 32 job, engine := BitVec.ofNat 16 eng,
        vector := BitVec.ofNat 16 vec, irqMode := BitVec.ofNat 2 (byteField d 0x0C 1), ring := BitVec.ofNat 64 ring, comp := BitVec.ofNat 64 comp,
        createdBase := BitVec.ofNat 64 base, base := BitVec.ofNat 48 base, since := s.time.tick })

/-- A write of 0x6000:04 that the checks of R488 have passed: FUNCTION equals the path's function, or names the owner on the management path. -/
def queueCreateWrite (s : State) (p : Path) (d : List Byte) : Nat × State :=
  let own := byteField d 2 1
  match pathFunc p with
  | some f => if own = f then queueCreateAs s f false d else (stCmdInvalid, s)
  | none => if 128 ≤ own then (stCmdInvalid, s) else queueCreateAs s own false d

/-! ### RESUME, FLUSH, DESTROY (R355, R356) -/

/-- A path reaches a queue (R384). -/
def pathReachesQueue (s : State) (p : Path) (q : QNum) : Bool :=
  match pathFunc p with
  | none => true
  | some f => reachesQueue s f q

/-- A job of the queue is stopped by poison: its queues take no RESUME (R305). -/
def stoppedQueue (s : State) (q : QNum) : Bool :=
  match s.job? (s.queue q).job.toNat with
  | some j => j.stopped
  | none => false

/-- RESUME: ACTIVE again, starting at the next command. A queue that a DESTROY or a FLUSH is still taking elsewhere takes neither (log entry 57). -/
def resumeAs (s : State) (p : Path) (q : QNum) : Nat × State :=
  let x := s.queue q
  if x.st != .halted || x.destroying || x.flushing || !pathReachesQueue s p q || stoppedQueue s q then (stCmdInvalid, s)
  else (stOk, s.setQueue q { x with st := .active })

/-- FLUSH of a HALTED queue: its markers and holds end, and the flush runs (R356). -/
def flushAs (s : State) (p : Path) (q : QNum) : Nat × State :=
  let x := s.queue q
  if x.st != .halted || x.destroying || x.flushing || !pathReachesQueue s p q then (stCmdInvalid, s)
  else
    let masks := s.masks.map fun e => match e.2.commit with
      | some (k, _) => if k = q then (e.1, { e.2 with st := .idle, commit := none }) else e
      | none => e
    let hold := match x.hold with
      | .fill i n t b => Hold.fill i n t b
      | _ => .none
    (stOk, runFlush { s.setQueue q { x with markers := [], unarmed := [], hold := hold, flushing := true } with masks := masks } q)

/-- The queue becomes FREE; an array's tile and a chain context belong to the job and stay with it. -/
def freeQueue (s : State) (q : QNum) : State := s.setQueue q {}

/-- DESTROY: a queue waits for its started commands, which complete; its unstarted commands get no records (R355). -/
def destroyAs (s : State) (p : Path) (q : QNum) : Nat × State :=
  let x := s.queue q
  if x.st = .free || !pathReachesQueue s p q then (stCmdInvalid, s)
  else
    let masks := s.masks.map fun e => match e.2.commit with
      | some (k, _) => if k = q then (e.1, { e.2 with st := .idle, commit := none }) else e
      | none => e
    let s := { s with masks := masks }
    if !x.started.isEmpty then
      let hold := match x.hold with
        | .fill i n t b => Hold.fill i n t b
        | _ => .none
      (stOk, s.setQueue q { x with destroying := true, head := x.tail, next := x.tail, written := [], markers := [], unarmed := [], hold := hold })
    else (stOk, freeQueue s q)

/-- QUEUE_DESTROY_DRAINED (R355): the last started command of a queue under DESTROY has completed. -/
def execQueueDestroyDrained (q : QNum) (s : State) : Out := .next (settleDestroy s q)

/-- A write of 0x6000:05 (R384). -/
def queueControl (s : State) (p : Path) (v : Nat) : Nat × State :=
  let q : QNum := BitVec.ofNat 15 v
  if v / 2 ^ 18 ≠ 0 ∨ v.testBit 15 ∨ bits v 16 2 = 0 then (stReserved, s)
  else match bits v 16 2 with
    | 1 => resumeAs s p q
    | 2 => flushAs s p q
    | _ => destroyAs s p q

/-! ### Semaphores through the dictionary (R372, R384) -/

/-- A write of 0x6010:02: FUNCTION equals the path's function, or names the owner on the management path. -/
def semCreateWrite (s : State) (p : Path) (d : List Byte) : Nat × State :=
  let n := byteField d 0 4
  let f := byteField d 4 1
  let v := BitVec.ofNat 64 (byteField d 8 8)
  if byteField d 5 3 ≠ 0 then (stReserved, s)
  else match pathFunc p with
    | some g => if f = g then semCreateAs s f n v else (stCmdInvalid, s)
    | none => if 128 ≤ f then (stReserved, s) else semCreateAs s f n v

/-- A write of 0x6010:03. -/
def semDestroyWrite (s : State) (p : Path) (v : Nat) : Nat × State := semDestroyAs s (pathFunc p) v

/-! ### Event rings (R374, R384) -/

/-- A write of 0x6020:(f + 1): a ring of 2^n entries, or none; both indices become 0. -/
def eventRingWrite (s : State) (f : Nat) (d : List Byte) : Nat × State :=
  let base := byteField d 0 8
  let n := byteField d 8 1
  if byteField d 9 7 ≠ 0 ∨ base % 256 ≠ 0 ∨ (n ≠ 0 ∧ (n < 4 ∨ 16 < n)) then (stReserved, s)
  else (stOk, s.setFunc f { s.func f with ringBase := BitVec.ofNat 64 base, ringN := BitVec.ofNat 8 n, ringW := 0, eventRead := 0 })

/-! ### Requests for aborts (R378, R379) -/

/-- Function g may abort function f: itself, or a virtual function of its own (R379). -/
def mayAbort (g f : Nat) : Bool := g == f || (g % 64 == 0 && g / 64 == f / 64)

/-- A path may abort a job of function f (R379). -/
def mayAbortJob (p : Path) (f : Nat) : Bool :=
  match pathFunc p with
  | some g => g == f
  | none => true

/-- The abort of the job being loaded (R401): the load stops, the indication leaves, and the abort is over at once, as nothing of the job is left to end; its duration is open. -/
def abortLoading (s : State) (w : LoadWait) : State :=
  let s := sendAbt (stopLoad s fun _ => true) (BitVec.ofNat 10 (byteField w.data 4 2)) none
  endMetAbort w.func.toNat (enterAbort s false w.job) w.job

/-- A write of 0x6040:01: a loaded job or the one being loaded, the function's own where a function writes. -/
def jobAbortWrite (s : State) (p : Path) (j : Nat) : Nat × State :=
  match s.job? j with
  | none =>
    match s.load with
    | some w => if w.job == j && mayAbortJob p w.func.toNat then (stOk, abortLoading s w) else (stCmdInvalid, s)
    | none => (stCmdInvalid, s)
  | some x => if mayAbortJob p x.func.toNat then (stOk, abortJob s j) else (stCmdInvalid, s)

/-- A write of 0x6040:02. -/
def functionAbortWrite (s : State) (p : Path) (f : Nat) : Nat × State :=
  if functionExists s f && (match pathFunc p with | some g => mayAbort g f | none => true) then (stOk, abortFunction s f) else (stCmdInvalid, s)

end Sys2Proof.Machine
end

