-- ==== Sys2Proof/Machine/DictRead.lean ====
section
/-! DEFINITION. The values that dictionary entries read as (18 R479 to R507 and the entry tables of the other chapters). An entry with no field of its own reads as its stored value; an entry that a selector governs and whose selection names nothing that the path reaches reads as its default (log entry 34). A value shorter than its entry is followed by zeros. -/

namespace Sys2Proof.Machine

/-! ### Numbers of single bytes and fields -/

/-- A truth value as a bit. -/
def bit (b : Bool) : Nat := if b then 1 else 0

/-- Packs elements of n bytes. -/
def packed (n : Nat) (l : List Nat) : List Byte := l.flatMap (leBytes n)

/-- A pulse was seen within the last two epochs (R53): 131,072 beats. -/
def syncPresent (s : State) : Bool :=
  match s.time.pulseSeen with
  | some t => decide ((s.time.tick - t).toNat ≤ 2 * epochTicks)
  | none => false

/-- SYNC_STATUS (R53). -/
def syncStatus (s : State) : Nat :=
  let t := s.time
  t.missingRun.toNat * 256 + bit t.slip * 16 + bit t.inverted * 8 + bit t.holdSeen * 4 + bit t.refPresent * 2 + bit (syncPresent s)

/-- STATE of PORT_STATUS (R430). -/
def PortPhase.code : PortPhase → Nat
  | .disabled => 0 | .detect => 1 | .equalise => 2 | .map => 3 | .lock => 4
  | .identify => 5 | .active => 6 | .retrain => 7 | .held => 8 | .failed => 9

/-- PORT_STATUS (R430). -/
def portStatus (s : State) (p : Port) : Nat :=
  let x := s.port p
  x.reason.toNat * 2 ^ 24 + bit (scheduled s x) * 2 ^ 19 + bit x.txSpareUsed * 2 ^ 18 + bit x.rxSpareUsed * 2 ^ 17 +
    bit x.hollyhock * 2 ^ 16 + x.st.code

/-- LANE_MAP (R431). -/
def laneMap (s : State) (p : Port) : Nat :=
  let x := s.port p
  bit x.rxReversed * 2 ^ 29 + x.rxPolarity.toNat * 2 ^ 20 + x.rxSpare.toNat * 2 ^ 16 + x.txSpare.toNat * 2 ^ 12 +
    bit x.recalBusy * 256 + x.recalNext.toNat * 16

/-- LINK_STATUS of a host port (R477). -/
def linkStatus (s : State) (h : Nat) : Nat :=
  let x := s.hport (BitVec.ofNat 1 h)
  bit x.flit * 4096 + x.rate.toNat * 256 + x.width.toNat * 8 + if x.perst then 3 else x.state.toNat

/-- INPUT_PROTECT (R562). -/
def inputProtect (s : State) : Nat :=
  let x := s.power
  bit x.reversedLatch * 128 + bit x.overvolt * 64 + bit x.undervolt * 32 + bit x.enableMated * 2 + bit x.inRange

/-- FAULT# is driven low: in FAULTED and while the boot ROM is in recovery (R554). -/
def faultLine (s : State) : Bool := s.power.state == .faulted || s.trust.recovery

/-- SIDEBAND_STATUS (R562). A receiver sees no signal where the time unit has left UNLOCKED and sees no edges (log entry 35). -/
def sidebandStatus (s : State) : Nat :=
  let x := s.power
  x.gpioShort.toNat * 256 + bit (x.faultLineLow && !faultLine s) * 128 + bit x.faultLineHigh * 64 + bit x.pwrGoodMismatch * 32 +
    bit (s.ticking && !s.time.refPresent) * 2 + bit (s.ticking && !syncPresent s)

/-- TORUS_SUPPLY (R562). -/
def torusSupply (s : State) : Nat :=
  ((List.range 8).filter fun p => (s.port (BitVec.ofNat 3 p)).supplyCut).foldl (fun m p => m + 2 ^ p) 0

/-- FAULT_PENDING (R494). -/
def faultPending (s : State) : Nat :=
  ((s.dict.faults.head?.map (·.toNat)).getD 0) * 65536 + min 65535 s.dict.faults.length

/-- The claimant entries of R493. -/
def claimants : List (Nat × Nat) := [(0x2E00, 1), (0x3010, 1), (0x7E00, 2)]

/-- The claimant that holds a pin. -/
def pinHolder (s : State) (pin : Nat) : Option (Nat × Nat) := claimants.find? fun e => s.reg e.1 e.2 == pin

/-- GPIO_OWNER of a pin (R493). -/
def gpioOwner (s : State) (pin : Nat) : Nat :=
  match pinHolder s pin with
  | some (i, k) => i * 256 + k
  | none => 0

/-! ### Counters (R496 to R500) -/

/-- An engine index of class STALL (R499). -/
def engineIndexOk (i : Nat) : Bool := decide (i < 1024) || (decide (i < 1152) && decide ((i - 1024) % 32 < 26))

/-- A counter that exists (R499). -/
def counterExists (cls inst code : Nat) : Bool :=
  match cls with
  | 1 => engineIndexOk inst
  | 2 | 3 | 4 => decide (1 ≤ code) && decide (code ≤ 24)
  | 5 => inst == 0 && decide (1 ≤ code) && decide (code ≤ 17)
  | 6 => decide (inst < 4) && decide (1 ≤ code) && decide (code ≤ 5)
  | 7 => decide (inst < 5) && (code == 1 || code == 2)
  | 8 => decide (inst < 512) && (code == 1 || code == 2)
  | 9 => decide (inst < 8) && (code == 1 || code == 2)
  | 10 => decide (inst < 8) && decide (1 ≤ code) && decide (code ≤ 16)
  | 11 => decide (inst < 128) && decide (1 ≤ code) && decide (code ≤ 5)
  | _ => false

/-- A path's CNT_SELECT: class, instance, code (R498). -/
def cntSelect (s : State) (p : Path) : Nat × Nat × Nat :=
  let v := s.selector p 0x7000 1
  (bits v 56 8, bits v 0 32, bits v 32 16)

/-- An engine of a core by its index of class STALL: its slot's array, vector unit, mask unit or core DMA engine (R18, R499). -/
def stallExe (inst : Nat) : Exe := exeOf (BitVec.ofNat 15 (inst / 8 * 16 + inst % 8)) {}

/-- A stall count. Counts of cycles are open (log entry 8) but for THROTTLE, which comes first among the causes of R308: the idle cycles that the governor gave every engine of the arithmetic domain (R534). For an array that is so where no repair was ever asked of it, since REPAIR_DRAIN comes before (R110). -/
def stallValue (s : State) (inst k : Nat) : Nat :=
  let sure := decide (inst < 1024) && (stallExe inst).arith && match (stallExe inst).array? with
    | some a => (s.array a).spare == 0 && (s.array a).repair.isNone
    | none => true
  if k = 1 && sure then (s.power.throttled + min s.slot s.power.s * arithRatio s) % 2 ^ 64
  else (Config.stallCount inst k s.dict.stallReads).toNat

/-- CNT_VALUE: stall counters are open (log entry 8); a per-step counter of a job that is not loaded reads as zero (R499). -/
def cntValue (s : State) (p : Path) : Except Nat Nat :=
  let (cls, inst, code) := cntSelect s p
  if !counterExists cls inst code then .error stCmdInvalid
  else if cls = 1 then .ok (Config.stallCount inst 16 s.dict.stallReads).toNat
  else if 2 ≤ cls ∧ cls ≤ 4 ∧ inst ≠ 0 ∧ (s.job? inst).isNone then .ok 0
  else .ok (s.counter cls inst code)

/-- STALL_SNAPSHOT: sixteen causes of the selected engine (R500, log entry 8). -/
def stallSnapshot (s : State) (p : Path) : Except Nat (List Byte) :=
  let (cls, inst, _) := cntSelect s p
  if cls != 1 || !engineIndexOk inst then .error stCmdInvalid
  else .ok (packed 8 ((List.range 16).map (stallValue s inst)))

/-- SAT_STICKY of the job selected with a per-step class (R500). -/
def satSticky (s : State) (p : Path) : Nat :=
  let (cls, inst, _) := cntSelect s p
  if 2 ≤ cls ∧ cls ≤ 4 ∧ (inst = 0 ∨ (s.job? inst).isSome) then tget 0 s.dict.sticky inst else 0

/-! ### Black box and trace (R501, R504, R507) -/

/-- The 64 bytes of a black-box record (R504). -/
def bbBytes (r : BbRec) : List Byte := bbBody r ++ leBytes 4 r.crc.toNat

/-- The record of a path's BB_READ_SEQ is read from copy B: copy A fails its CRC (R507). -/
def bbServedFromB (s : State) (p : Path) : Bool :=
  let n := s.selector p 0x8000 2
  bbReadable s.dict.bbHead n && (bbFind s.dict.bb n).isNone && (bbFind s.dict.bbCopyB n).isSome

/-- BB_RECORD of a path's BB_READ_SEQ: from copy A, or from copy B where A fails its CRC (R507). -/
def bbRecord (s : State) (p : Path) : Except Nat (List Byte) :=
  let n := s.selector p 0x8000 2
  match (bbFind s.dict.bb n).or (bbFind s.dict.bbCopyB n) with
  | some r => if bbReadable s.dict.bbHead n then .ok (bbBytes r) else .error stDescOob
  | none => .error stDescOob

/-- A trace record (R501). -/
def traceBytes (r : TraceRec) : List Byte :=
  leBytes 2 r.queue.toNat ++ leBytes 1 r.op.toNat ++ leBytes 1 (bit r.complete) ++ leBytes 2 r.status.toNat ++ leBytes 2 r.seq.toNat ++
    leBytes 8 r.tick.toNat ++ List.replicate 16 0

/-! ### Queues, semaphores, jobs (R245, R334, R384, R458) -/

/-- State codes of QUEUE_QUERY (R384). -/
def QState.code : QState → Nat
  | .free => 0 | .active => 1 | .halted => 2 | .aborted => 3

/-- QUEUE_QUERY (R384); HEAD reads as TAIL once a queue is aborted or under DESTROY (R355, R380). -/
def queueQuery (s : State) (p : Path) : List Byte :=
  let n := s.selector p 0x6000 6
  let q : QNum := BitVec.ofNat 15 n
  let x := s.queue q
  if decide (32768 ≤ n) || x.st = .free || !pathReachesQueue s p q then []
  else
    let head := if x.st = .aborted || x.destroying then x.tail else x.head
    leBytes 2 n ++ leBytes 1 x.func.toNat ++ leBytes 1 x.log2N.toNat ++ leBytes 4 x.job.toNat ++ leBytes 2 x.engine.toNat ++
      leBytes 2 x.vector.toNat ++ leBytes 4 x.irqMode.toNat ++ leBytes 8 x.ring.toNat ++ leBytes 8 x.comp.toNat ++
      leBytes 8 x.createdBase.toNat ++ List.replicate 8 0 ++ leBytes 2 x.st.code ++ leBytes 2 head.toNat ++ leBytes 2 x.tail.toNat ++
      leBytes 2 x.lastErr.toNat

/-- SEM_QUERY (R384). -/
def semQuery (s : State) (p : Path) : List Byte :=
  let n := s.selector p 0x6010 4
  let x := s.sem n
  let ok := match pathFunc p with
    | some f => s.assignedTo 2 n f
    | none => true
  if !ok then []
  else leBytes 1 (match x.st with | .free => 0 | .live => 1 | .orphaned => 2) ++ leBytes 1 x.owner.toNat ++ List.replicate 6 0 ++
    leBytes 8 x.value.toNat

/-- The job that a selector entry of a path names, where the path reaches it. -/
def selectedJob (s : State) (p : Path) (index sub : Nat) : Option Job :=
  let j := s.selector p index sub
  if pathReaches s p j then s.job? j else none

/-- DESC_QUERY (R334). -/
def descQuery (s : State) (p : Path) : List Byte :=
  let v := s.selector p 0x4060 5
  let j := v / 2 ^ 32
  if !pathReaches s p j then []
  else match tfind (s.job j).descs (v % 2 ^ 32) with
    | some d => leBytes 128 d.raw.toNat
    | none => []

/-- The layer that LAYER_SELECT names, of the job that JOB_SELECT names. -/
def selectedLayer (s : State) (p : Path) : Option Layer := (selectedJob s p 0x5010 1).map fun j => j.layer (s.selector p 0x5020 1)

/-- RECIPE (R246). -/
def recipeWord (x : Layer) : Nat :=
  x.ceil.toNat * 2 ^ 21 + x.kv.toNat * 2 ^ 15 + x.g.toNat * 2 ^ 10 + x.a.toNat * 2 ^ 5 + x.w.toNat

/-- PROMO_STATE (R247). -/
def promoState (x : Layer) : Nat :=
  x.p99.toNat * 2 ^ 16 + x.promotions.toNat * 256 + bit x.blocked * 32 + bit x.flagged * 16 + bit x.pending.isSome * 8 + x.run

/-- EPOCH_QUERY (R215). -/
def epochQuery (s : State) (p : Path) : Nat :=
  match tfind s.masks (s.selector p 0x5820 4) with
  | some e => 2 ^ 31 + (match e.st with | .idle => 0 | .commitWait => 1 | .committing => 2) * 2 ^ 29 + min 8191 e.refs * 65536 + e.epoch.toNat
  | none => 0

/-- States of R454 as R458 codes them. -/
def RedJobState.code : RedJobState → Nat
  | .free => 0 | .loaded => 1 | .draining => 2 | .hold => 3

/-- RED_JOB_STATUS (R458). Through a function's path only its own job's identifier reads. -/
def redJobStatus (s : State) (p : Path) : Nat :=
  let r := s.selector p 0x3800 6
  let job := s.jobs.find? fun e => e.2.redJob.toNat == r
  let ok := match pathFunc p, job with
    | none, _ => true
    | some f, some (_, j) => j.func.toNat == f
    | some _, none => false
  match ok, tfind s.redJobs r with
  | true, some (st, e) =>
    st.code * 2 ^ 30 + ((job.map fun x => x.2.epoch).getD e).toNat * 2 ^ 24 + min 65535 ((job.map fun x => activeChains s x.1).getD 0)
  | _, _ => 0

/-- LAYOUT (R458). -/
def layoutWord (s : State) (p : Path) : Nat :=
  match selectedJob s p 0x3810 1 with
  | some j => j.epoch.toNat * 2 ^ 26 + bit j.reshard.isSome * 2 ^ 16 + j.roles.toNat
  | none => 0

/-! ### Trust (R515, R518, R528, R529) -/

/-- Minimum SVN of a kind, 1 to 3. -/
def svnMin (s : State) (kind : Nat) : Nat := max (Config.fusedSvn kind).toNat (s.trust.svnRaised.getD (kind - 1) 0).toNat

/-- The image of a flash slot. -/
def slotOf (s : State) (n : Nat) : Slot := s.trust.slots.getD n {}

/-- KIND of the images that a target takes. -/
def targetKind (target : Nat) : Nat := if target < 2 then 1 else if target < 4 then 2 else 3

/-- A slot's image still passes: it was verified, and its SVN is at least the minimum now fused (R515). -/
def slotBoots (s : State) (n : Nat) : Bool := (slotOf s n).valid && decide (svnMin s (targetKind n) ≤ (slotOf s n).svn.toNat)

/-- The five measurements (R518): the fuse state is hashed as revocations and the three minimums (log entry 11). -/
def measurement (s : State) (n : Nat) : List Byte :=
  let d : BitVec 256 := match n with
    | 1 => Config.romDigest
    | 2 => (slotOf s s.trust.rootRun.toNat).digest
    | 3 => (slotOf s (2 + s.trust.sfRun.toNat)).digest
    | 4 => Config.sha3 (Config.fusedRevoked :: [1, 2, 3].map fun k => BitVec.ofNat 8 (svnMin s k))
    | _ => if s.trust.unlocked then s.trust.unlockDigest else 0
  leBytes 32 d.toNat

/-- FW_STATUS (R529). -/
def fwStatus (s : State) : Nat :=
  let t := s.trust
  let (st, check) := if !t.chunks.isEmpty then (1, 0) else match t.verdict with
    | none => (0, 0)
    | some 0 => (2, 0)
    | some k => (3, k)
  st * 2 ^ 30 + check * 2 ^ 27 + t.chunks.length * 2 ^ 20 + min (2 ^ 20 - 1) (t.writtenBytes / 1024)

/-! ### Service (R545) -/

/-- Compute service is available: a working core, and an HBM3E device in service. -/
def computeOk (s : State) : Bool :=
  s.power.tested && ((List.range 128).any fun c => !s.vacantCore c) && s.msys.devices.toNat % 4096 != 0

/-- SERVICE_SETS: in FAULTED only the management island is said to keep running; in STANDBY the dies are gated (R531, R539). -/
def serviceSets (s : State) : Nat :=
  match s.power.state with
  | .off => 0
  | .managed | .faulted => 1
  | .standby => 3
  | _ => 3 + if computeOk s then 4 else 0

/-! ### Values by index -/

/-- ORDER_CODE (R489). -/
def orderCode : List Byte :=
  [0x47, 0x55, 0x31, 0x2D, 0x31, 0x35, 0x33, 0x36, 0x2D, 0x32, 0x30, 0x34, 0x38, 0x2D, 0x57]

/-- A dynamic value: a number, bytes, or a refused read. -/
inductive Val where
  | num (n : Nat)
  | raw (l : List Byte)
  | bad (st : Nat)
  deriving DecidableEq, Repr

def Val.of : Except Nat (List Byte) → Val
  | .ok l => .raw l
  | .error st => .bad st

/-- Entries 0x1000 to 0x2FFF whose values are not stored ones. -/
def lowValue (s : State) (p : Path) (index sub : Nat) : Option Val :=
  match 256 * index + sub with
  | 0x100003 => some (.num Config.stepping.toNat)
  | 0x100004 => some (.raw Config.serial)
  | 0x100005 => some (.raw orderCode)
  | 0x110002 => some (.raw (packed 4 [linkStatus s 0, linkStatus s 1]))
  | 0x110004 => some (.raw (packed 1 [(s.hport 0).numVfs.toNat, (s.hport 1).numVfs.toNat]))
  | 0x110007 => some (.raw (packed 8 ((List.range 128).map fun f =>
      if pathFunc p = none ∨ pathFunc p = some f then (s.func f).aperture.toNat else 0)))
  | 0x110008 =>
    let v := s.selector p 0x1100 6
    let k := bits v 32 8
    let i := bits v 0 32
    let ok := v / 2 ^ 40 == 0 && ((k == 1 && decide (4096 ≤ i) && decide (i < 32768)) || (k == 2 && decide (i < 65536)) || (k == 3 && decide (i < 3584)))
    some (if ok then .raw (leBytes 16 (s.assigned k i).toNat) else .bad stReserved)
  | 0x120003 => some (.num (min 65535 s.dict.journal * 65536 + bit s.dict.storeBad))
  | 0x200001 => some (.num s.power.mode.toNat)
  | 0x200002 => some (.num s.power.cap.toNat)
  | 0x200003 => some (.num s.power.s)
  | 0x200004 => some (.num s.power.mhz.toNat)
  | 0x201001 => some (.num s.power.state.code)
  | 0x201002 => some (.num (bit s.power.drain))
  | 0x201004 => some (.num (serviceSets s))
  | 0x201005 => some (.num s.power.faultCause.toNat)
  | 0x202001 => some (.num s.power.inputMv.toNat)
  | 0x202002 => some (.num s.power.meanW.toNat)
  | 0x202003 => some (.num s.power.peakW.toNat)
  | 0x202004 => some (.num s.power.pBase.toNat)
  | 0x202005 => some (.num (s.power.energy / 390625))
  | 0x203001 => some (.raw s.power.tj)
  | 0x203002 => some (.num s.power.coolant.toNat)
  | 0x204001 => some (.num (inputProtect s))
  | 0x204002 => some (.num (sidebandStatus s))
  | 0x204003 => some (.num (torusSupply s))
  | 0x2E0003 => some (.num (faultPending s))
  | 0x2F0001 => some (.raw (packed 4 ((List.range 4).map (gpioOwner s))))
  | _ => none

/-- Entries 0x3000 to 0x3FFF whose values are not stored ones. -/
def fabricValue (s : State) (p : Path) (index sub : Nat) : Option Val :=
  let port : Port := BitVec.ofNat 3 (sub - 1)
  match 256 * index + sub with
  | 0x300001 => some (.num s.time.st.code)
  | 0x300002 => some (.num s.time.tick.toNat)
  | 0x300003 => some (.num (match (s.path p).snap with | some (_, b, _) => b.toNat | none => 0))
  | 0x300004 => some (.num (match (s.path p).snap with | some (_, _, b) => b.toNat | none => 0))
  | 0x300005 => some (.num s.time.nextEpoch.toNat)
  | 0x300006 => some (.num s.time.stretchTotal.toNat)
  | 0x300007 => some (.num (syncStatus s))
  | 0x300008 => some (.raw (leBytes 20 s.time.lastStretch.toNat))
  | 0x340001 => some (.num Config.moduleId.toNat)
  | 0x380007 => some (.num (redJobStatus s p))
  | 0x381002 => some (.num (layoutWord s p))
  | _ =>
    if sub = 0 then none
    else match index with
      | 0x3410 => some (.num (portStatus s port))
      | 0x3418 => some (.raw (leBytes 20 (s.port port).neighbour.toNat))
      | 0x3420 => some (.num (s.port port).hopLatency.toNat)
      | 0x3428 => some (.num (laneMap s port))
      | _ => none

/-- Entries 0x4000 to 0x4FFF whose values are not stored ones. -/
def memoryValue (s : State) (p : Path) (index sub : Nat) : Option Val :=
  let hbm := (s.msys.freeFrames.filter fun f => decide (f * 2 ^ 21 < hbmEnd)).length
  match 256 * index + sub with
  | 0x400006 => some (.num s.msys.devices.toNat)
  | 0x402102 => some (.num (bit s.msys.inval.isSome * 2 ^ 31 + s.msys.invalDone.toNat))
  | 0x403002 => some (.num (genUsed s))
  | 0x404003 => some (.num hbm)
  | 0x404004 => some (.num (s.msys.freeFrames.filter fun f => decide (lpBase ≤ f * 2 ^ 21)).length)
  | 0x404006 => some (.raw (leBytes s.msys.poolLen (s.reg 0x4040 6)))
  | 0x405003 => some (.num s.msys.poisonFound.length)
  | 0x405004 => some (.raw s.msys.lastUe)
  | 0x406004 => some (.num (s.path p).descStatus.toNat)
  | 0x406006 => some (.raw (descQuery s p))
  | 0x481001 => some (.raw ((List.range 512).map fun a => (s.array a).latency))
  | 0x481002 => some (.num (s.arrays.foldl (fun m e => if e.2.spare = 3 then m else max m e.2.latency.toNat) 6))
  | 0x481003 => some (.raw ((List.range 512).map fun a => (s.array a).spare))
  | 0x481004 => some (.raw ((List.range 512).map fun a => (s.array a).sparedRow))
  | 0x482002 => some (.num (withPending s s.repairStatus))
  | _ => if index = 0x4020 ∧ sub ≠ 0 then some (.num (s.func (sub - 1)).root.toNat) else none

/-- Entries 0x5000 to 0x5FFF whose values are not stored ones. -/
def numericsValue (s : State) (p : Path) (index sub : Nat) : Option Val :=
  let j := selectedJob s p 0x5010 1
  let l := selectedLayer s p
  match 256 * index + sub with
  | 0x501002 => j.map fun x => .num x.step.toNat
  | 0x501003 => j.map fun x => .num (bit x.closed)
  | 0x501004 => j.map fun x => .num x.l
  | 0x501005 => j.map fun x => .num x.clean
  | 0x501007 => j.map fun x => .num (bit x.crimalMode)
  | 0x501008 => j.map fun x => .num x.lastVerdict.toNat
  | 0x502002 => l.map fun x => .num (recipeWord x)
  | 0x502003 => l.map fun x => .num (promoState x)
  | 0x502004 => l.map fun x => .num x.threshold.toNat
  | 0x502005 => l.map fun x => .raw (packed 4 x.histLast)
  | 0x502006 => l.map fun x => .raw (packed 8 x.histTotal)
  | 0x502007 => l.map fun x => .num x.crimal.toNat
  | 0x582002 => some (.num s.masks.length)
  | 0x582003 => some (.num s.commits.toNat)
  | 0x582005 => some (.num (epochQuery s p))
  | _ => none

/-- Entries 0x6000 to 0xFFFF whose values are not stored ones. -/
def highValue (s : State) (p : Path) (index sub : Nat) : Option Val :=
  match 256 * index + sub with
  | 0x600007 => some (.raw (queueQuery s p))
  | 0x601005 => some (.raw (semQuery s p))
  | 0x603003 => (selectedJob s p 0x6030 2).map fun x => .raw x.snapshot
  | 0x604003 => some (.num (bit (!s.aborts.isEmpty) * 2 ^ 31 + s.abortStatus.toNat % 2 ^ 31))
  | 0x605802 => some (.raw (s.path p).loadStatus)
  | 0x680001 => some (.raw (packed 1 [svnMin s 1, svnMin s 2, svnMin s 3]))
  | 0x680002 => some (.num Config.fusedRevoked.toNat)
  | 0x681001 => some (.num s.trust.rootSlot.toNat)
  | 0x681002 => some (.num s.trust.sfSlot.toNat)
  | 0x681003 => some (.raw (packed 4 ((List.range 4).map fun k => if slotBoots s k then (slotOf s k).version.toNat else 0)))
  | 0x681004 => some (.num (bit s.trust.rootFallback))
  | 0x682001 => some (.num s.trust.fwTarget.toNat)
  | 0x682004 => some (.num (fwStatus s))
  | 0x683001 => some (.raw Config.identityKey)
  | 0x683002 => some (.raw Config.certChain)
  | 0x683003 => some (.raw ([1, 2, 3, 4, 5].flatMap (measurement s)))
  | 0x684002 => some (.num s.trust.coreStatus.toNat)
  | 0x685001 => some (.raw (leBytes 16 (Config.nonce s.trust.nonces).toNat))
  | 0x700002 => some (match cntValue s p with | .ok v => .num v | .error st => .bad st)
  | 0x700003 => some (Val.of (stallSnapshot s p))
  | 0x700004 => some (.num (satSticky s p))
  | 0x7E0001 => some (.num (bit s.dict.traceOn))
  | 0x7E0005 => some (.num s.dict.traceWraps.toNat)
  | 0x7E0007 => some (.raw (s.dict.trace.flatMap traceBytes))
  | 0x800001 => some (.num s.dict.bbHead)
  | 0x800003 => some (Val.of (bbRecord s p))
  | 0x800004 => some (.num (s.dict.bbRepaired.toNat * 65536 + s.dict.bbFromB.toNat))
  | _ =>
    if index = 0x6020 ∧ sub ≠ 0 then
      let x := s.func (sub - 1)
      some (.raw (leBytes 8 x.ringBase.toNat ++ leBytes 8 x.ringN.toNat))
    else none

/-- The value of an entry that is not a stored one. -/
def dynValue (s : State) (p : Path) (index sub : Nat) : Option Val :=
  if index < 0x3000 then lowValue s p index sub else if index < 0x4000 then fabricValue s p index sub
  else if index < 0x5000 then memoryValue s p index sub else if index < 0x6000 then numericsValue s p index sub
  else highValue s p index sub

/-- What an entry reads as on a path: its leading bytes, all that follow being zero; or a refusal of its own. -/
def entryBytes (s : State) (p : Path) (e : Entry) (sub : Nat) : Except Nat (List Byte) :=
  if isSelector e.index sub then .ok (leBytes e.type.size (s.selector p e.index sub))
  else match dynValue s p e.index sub with
    | some (.num n) => .ok (leBytes e.type.size n)
    | some (.raw l) => .ok l
    | some (.bad st) => .error st
    | none =>
      let v := match tfind s.dict.regs (256 * e.index + sub) with
        | some v => v
        | none => e.dflt
      .ok (if e.index = 0x7E00 ∧ sub = 3 ∧ v = 0 then [] else leBytes e.type.size v)

/-- Bytes that an entry's value has: its type's size, or the length of a stored string or chain (R480, R486). -/
def entrySize (e : Entry) (sub : Nat) (v : List Byte) : Nat :=
  match e.type with
  | .str _ => v.length
  | t => if (e.index = 0x6830 ∧ sub = 2) ∨ (e.index = 0x4040 ∧ sub = 6) then v.length else t.size

/-- n bytes of a value from an offset, zeros past its listed bytes. -/
def sliceBytes (v : List Byte) (off n : Nat) : List Byte := let b := (v.drop off).take n; b ++ List.replicate (n - b.length) 0

end Sys2Proof.Machine
end

