-- ==== Sys2Proof/Machine/Loader.lean ====
section
/-! DEFINITION. The loader (14 R387 to R401): the ten stages of a load, run as one step unless a host page is awaited, and the undoing of a load that fails (log entry 36). -/

namespace Sys2Proof.Machine

/-! ### The load under way -/

/-- What ends the run of a load early: a failure, or a host page that a stage waits for. -/
inductive LoadStop where
  | fail (e : LoadFail)
  | page (key stage : Nat)
  deriving DecidableEq, Repr

/-- A section of the image's directory (R391). -/
structure Sect where
  type : Nat
  count : Nat
  off : Nat
  len : Nat
  deriving DecidableEq, Repr

/-- A symbol with its binding (R392, R396). -/
structure Sym where
  kind : Nat
  tier : Nat
  size : Nat
  value : Nat
  deriving DecidableEq, Repr

/-- A load: the state so far, the requesting function and path, the request's fields, the image as patched, its sections and symbols, LATENCY_ABOVE. -/
structure Load where
  s : State
  path : Path
  f : Nat
  job : Nat
  red : Nat
  image : Nat
  imageLen : Nat
  bind : Nat
  bindCount : Nat
  img : List Byte := []
  sects : List Sect := []
  syms : List Sym := []
  above : Bool := false

/-- Stages of a load: they stop at the first failure. -/
abbrev LM := ExceptT LoadStop (StateM Load)

def failL {α : Type} (e : LoadFail) : LM α := throw (.fail e)
/-- Stops unless the condition holds. -/
def needL (b : Bool) (e : LoadFail) : LM Unit := if b then pure () else failL e
def modL (g : State → State) : LM Unit := modify fun r => { r with s := g r.s }

/-- Runs a body for every element of a list, in order. -/
def eachL {α : Type} : List α → (α → LM Unit) → LM Unit
  | [], _ => pure ()
  | a :: r, g => do
    g a
    eachL r g

/-- The first of some faulty fields, as its offset. -/
def badField (l : List (Bool × Nat)) : Option Nat := (l.find? (·.1)).map (·.2)

/-- The directory index of a section type. -/
def sectIdx (l : List Sect) (type : Nat) : Option Nat := l.findIdx? fun x => x.type == type

/-- Items of a section type with items of a fixed size: directory index, item number, bytes. -/
def itemsOf (r : Load) (type size : Nat) : List (Nat × Nat × List Byte) :=
  match sectIdx r.sects type with
  | none => []
  | some i =>
    let x := r.sects.getD i ⟨0, 0, 0, 0⟩
    (List.range x.count).map fun k => (i, k, (r.img.drop (x.off + k * size)).take size)

/-- Item sizes of the sections whose items have one (R392). -/
def itemSize : Nat → Option Nat
  | 1 => some 16 | 2 => some 16 | 3 => some 136 | 5 => some 16 | 6 => some 8 | 7 => some 4
  | 8 => some 4 | 9 => some 16 | 10 => some 4 | 11 => some 8 | _ => none

/-- What an access of the loader comes to: its result; a wait for a host page (R283); or a failure with the status that R399 gives the stage (log entry 36). -/
def accL {α : Type} (x : Acc α) (e : LoadFail) : LM α := do
  match x with
  | .ok a => return a
  | .need k => throw (.page k e.stage)
  | .fault r _ =>
    let f := (← get).f
    modL fun s => forgetRefusals s f r
    failL e
  | _ => failL e

/-- Reads virtual memory for the loader, under the function's root. -/
def loadRead (a n : Nat) (e : LoadFail) : LM (List Byte) := do
  let r ← get
  let (b, t) ← accL (vRead r.s r.f 0 a n) e
  modL fun _ => t
  return b

/-- Writes memory for the loader: near memory untranslated, else under the function's root. -/
def loadWrite (tier : Option Nat) (a : Nat) (bs : List Byte) (e : LoadFail) : LM Unit := do
  let r ← get
  if tier = some 0 then modL fun s => physWrite s a bs
  else
    let t ← accL (vWrite r.s r.f 0 a bs tier) e
    modL fun _ => t

/-! ### Stage 1: header and directory (R391, R392, R393) -/

/-- One directory entry, given the spans and sections before it. -/
def dirEntry (k : Nat) : LM Unit := do
  let r ← get
  let d := (r.img.drop (64 + 32 * k)).take 32
  let x : Sect := ⟨byteField d 0 2, byteField d 4 4, byteField d 8 8, byteField d 0x10 8⟩
  let ns := byteField r.img 6 2
  let spans := (0, 64 + 32 * ns) :: r.sects.map fun y => (y.off, y.off + y.len)
  let bad := badField [(x.type == 0 || decide (12 < x.type) || (sectIdx r.sects x.type).isSome, 0),
    (byteField d 2 2 != 0 || byteField d 0x18 8 != 0, 2), (x.off % 256 != 0, 8), (decide (r.img.length < x.off + x.len), 0x10),
    (x.len != 0 && spans.any fun p => decide (p.1 < x.off + x.len) && decide (x.off < p.2), 8),
    ((match itemSize x.type with | some n => decide (x.len < n * x.count) | none => false), 4)]
  match bad with
  | some fd => failL { status := stDescInvalid, stage := 1, sect := k, field := fd }
  | none => modify fun r => { r with sects := r.sects ++ [x] }

/-- Positions of the items of a QUEUE or DATA section, which follow one another; or the item and field at fault. -/
def varItems (queue : Bool) (img : List Byte) (x : Sect) : Nat → Nat → Nat → Except (Nat × Nat) (List Nat)
  | 0, _, _ => .ok []
  | n + 1, k, pos =>
    let head := if queue then 64 else 32
    if x.len < pos + head then .error (k, 0)
    else
      let d := (img.drop (x.off + pos)).take head
      let log2 := byteField d 3 1
      let cnt := byteField d 0x30 8
      let bad := if queue then badField [(byteField d 0x38 8 != 0, 0x38), (decide (4 ≤ log2 ∧ log2 ≤ 16 ∧ 2 ^ log2 ≤ cnt), 0x30)]
        else badField [(byteField d 4 4 != 0 || byteField d 0x18 8 != 0, 4)]
      let size := if queue then 64 + 64 * cnt else 32 + (byteField d 0x10 8 + 15) / 16 * 16
      match bad with
      | some fd => .error (k, fd)
      | none =>
        if x.len < pos + size then .error (k, 0)
        else match varItems queue img x n (k + 1) (pos + size) with
          | .ok l => .ok ((x.off + pos) :: l)
          | e => e

/-- Items of a QUEUE or DATA section: directory index and positions in the image. -/
def varSect (r : Load) (type : Nat) : Option (Nat × Except (Nat × Nat) (List Nat)) :=
  (sectIdx r.sects type).map fun i =>
    let x := r.sects.getD i ⟨0, 0, 0, 0⟩
    (i, varItems (type == 4) r.img x x.count 0 0)

/-- The positions of items that stage 1 has checked. -/
def varPos (r : Load) (type : Nat) : Nat × List Nat :=
  match varSect r type with
  | some (i, .ok l) => (i, l)
  | _ => (0xFFFF, [])

/-- The QUEUE and DATA items fit their sections (R392, R393); a relocation may have changed what they hold, so the check is made again after stage 5. -/
def varOk (stage : Nat) : LM Unit := do
  let r ← get
  eachL [4, 12] fun t => match varSect r t with
    | some (i, .error (k, fd)) => failL { status := stDescInvalid, stage := stage, sect := i, item := k, field := fd }
    | _ => pure ()

def stage1 : LM Unit := do
  let q ← get
  let img ← loadRead q.image q.imageLen { status := stDescInvalid, stage := 1 }
  modify fun r => { r with img := img }
  needL (decide (64 ≤ img.length)) { status := stDescInvalid, stage := 1, field := 0 }
  let ns := byteField img 6 2
  let l := byteField img 0x20 1
  let sizes := (List.range 4).map fun a => byteField img (0x28 + a) 1
  match badField [(byteField img 0 4 != 0x49525653, 0), (byteField img 4 1 != 1, 4), (byteField img 5 1 / 4 != 0, 5),
      (decide (ns < 3) || decide (16 < ns) || decide (img.length < 64 + 32 * ns), 6), (decide (32 < l) && l != 0xFF, 0x20), (byteField img 0x21 3 != 0, 0x21),
      (sizes.any fun n => n == 0 || decide (16 < n), 0x28), (byteField img 0x2C 20 != 0, 0x2C)] with
  | some fd => failL { status := stDescInvalid, stage := 1, field := fd }
  | none => pure ()
  eachL (List.range ns) dirEntry
  let r ← get
  needL ([1, 3, 4].all fun t => (sectIdx r.sects t).isSome) { status := stDescInvalid, stage := 1, field := 6 }
  varOk 1

/-! ### Stage 2: coordinates (R398, R434) -/

/-- AXIS_SIZE and COORD of the image. -/
def imgSize (r : Load) (a : Nat) : Nat := byteField r.img (0x28 + a) 1
def imgCoord (r : Load) (a : Nat) : Nat := byteField r.img (0x24 + a) 1

def stage2 : LM Unit := do
  let r ← get
  needL ((List.range 4).all fun a => imgSize r a == 1 || imgSize r a == axisSize r.s a) { status := stDescInvalid, stage := 2, field := 0x28 }
  needL ((List.range 4).all fun a => imgCoord r a == if imgSize r a = 1 then 0 else coord r.s a) { status := stDescInvalid, stage := 2, field := 0x24 }

/-! ### Stage 3: assumptions (R389, R390) -/

/-- The number that an ASSUME item compares with: of an entry with a numeric type that can be read. -/
def assumeValue (s : State) (p : Path) (index sub : Nat) : Option Nat :=
  match findEntry index sub with
  | none => none
  | some e =>
    match e.acc, e.type with
    | .wo, _ | _, .str _ | _, .blob _ | _, .arr _ _ => none
    | _, _ => match entryBytes s p e sub with
      | .ok l => some (leNat l)
      | .error _ => none

def stage3 : LM Unit := do
  let r ← get
  eachL (itemsOf r 11 8) fun (i, k, d) => do
    let e (fd : Nat) : LoadFail := { status := stDescInvalid, stage := 3, sect := i, item := k, field := fd }
    match assumeValue r.s r.path (byteField d 0 2) (byteField d 2 1) with
    | none => failL (e 0)
    | some v =>
      needL (decide (byteField d 3 1 ≤ 1)) (e 3)
      needL (byteField d 3 1 == 1 || v == byteField d 4 4) (e 4)
      if byteField d 4 4 < v then modify fun r => { r with above := true } else pure ()

/-! ### Stage 4: bindings and identifiers (R396, R398, R454) -/

/-- The near-memory window holds a range in one core. -/
def oneCore (a n : Nat) : Bool := inNear a (max n 1) && nearCore a == nearCore (a + max n 1 - 1)

/-- A binding passes its check (R396). -/
def bindingOk (s : State) (f : Nat) (x : Sym) : Bool :=
  match x.kind with
  | 1 => x.value % 256 == 0 && (x.tier != 0 || oneCore x.value x.size)
  | 2 => decide (x.value < 65536) && s.assignedTo 2 x.value f && (s.sem x.value).st == .free
  | 3 => decide (4096 ≤ x.value) && decide (x.value < 32768) && s.assignedTo 1 x.value f && (s.queue (BitVec.ofNat 15 x.value)).st == .free
  | _ => decide (x.value < 2 ^ 48)

/-- The job as stage 4 records it (R217, R222, R225, R245, R388, R434, R435). -/
def newJob (r : Load) : Job :=
  let l0 := byteField r.img 0x20 1
  let l := if l0 = 0xFF then 16 else l0
  let flags := byteField r.img 5 1
  let roles := (List.range 4).map fun a => (if imgSize r a = 1 then 0 else [1, 2, 3, 5].getD a 0) * 16 ^ a
  { func := BitVec.ofNat 7 r.f, redJob := BitVec.ofNat 10 r.red, fingerprint := BitVec.ofNat 64 (byteField r.img 8 8),
    seed := BitVec.ofNat 64 (byteField r.img 0x10 8), stochRed := flags.testBit 1, crimalMode := flags.testBit 0,
    p := (List.range 4).map (imgSize r), q := (List.range 4).map (imgCoord r), roles := BitVec.ofNat 16 (roles.foldl (· + ·) 0),
    step := BitVec.ofNat 64 (byteField r.img 0x18 8), l := l, lStep := l, growth := r.s.reg 0x5010 6,
    sampleK := BitVec.ofNat 8 (r.s.reg 0x5030 1), minSamples := BitVec.ofNat 16 (r.s.reg 0x5030 2) }

/-- The job is recorded with its identifiers; per-step counters of an ended job of its number are gone (R496, R499). -/
def recordJob (r : Load) (s : State) : State :=
  let s := s.setJob r.job (newJob r)
  { s with
    redJobs := tput r.red (.loaded, 0) s.redJobs
    dict := { s.dict with
      ctr := s.dict.ctr.filter fun e => !(decide (2 ≤ e.1 / 2 ^ 48) && decide (e.1 / 2 ^ 48 ≤ 4) && e.1 / 2 ^ 16 % 2 ^ 32 == r.job)
      sticky := tdel r.job s.dict.sticky } }

def stage4 : LM Unit := do
  let r ← get
  let i := (sectIdx r.sects 1).getD 0xFFFF
  let items := itemsOf r 1 16
  needL (r.bindCount == items.length) { status := stDescInvalid, stage := 4, sect := i }
  let b ← loadRead r.bind (8 * items.length) { status := stDescInvalid, stage := 4 }
  eachL items fun (_, k, d) => do
    let x : Sym := ⟨byteField d 0 1, byteField d 1 1, byteField d 8 8, byteField b (8 * k) 8⟩
    let e (fd : Nat) : LoadFail := { status := stDescInvalid, stage := 4, sect := i, item := k, field := fd }
    match badField [(x.kind == 0 || decide (4 < x.kind), 0), (decide ((if x.kind = 1 then 4 else 0) < x.tier), 1), (byteField d 2 6 != 0, 2),
        (x.kind != 1 && x.size != 0, 8)] with
    | some fd => failL (e fd)
    | none => needL (bindingOk r.s r.f x) (e 0xFF)
    modify fun r => { r with syms := r.syms ++ [x] }
  needL ((r.s.job? r.job).isNone && (tfind r.s.redJobs r.red).isNone) { status := stHeld, stage := 4 }
  modify fun r => { r with s := recordJob r r.s }

/-! ### Stage 5: relocation (R394, R395) -/

/-- Replaces n bytes of a list. -/
def patch (l : List Byte) (off : Nat) (b : List Byte) : List Byte := l.take off ++ b ++ l.drop (off + b.length)

/-- Applies one record; `done` holds the word and bits of those before it. -/
def reloc (i k : Nat) (d : List Byte) (done : List (Nat × Nat)) : LM (List (Nat × Nat)) := do
  let r ← get
  let w := byteField d 2 1
  let low := byteField d 3 1
  let sym := byteField d 4 4
  let off := byteField d 8 4
  let x := r.syms.getD sym ⟨0, 0, 0, 0⟩
  let t := r.sects.getD (byteField d 1 1) ⟨0, 0, 0, 0⟩
  let v : Int := sext 64 ((((x.value : Int) + sext 32 (byteField d 0x0C 4)) % 2 ^ 64).toNat)
  let mask := (2 ^ w - 1) * 2 ^ low
  let a := t.off + off
  match badField [(byteField d 0 1 == 0 || decide (4 < byteField d 0 1), 0), (decide (r.syms.length ≤ sym), 4), (byteField d 0 1 != x.kind, 0),
      ([0, 1, 2, 11].contains t.type, 1), (w == 0 || decide (64 < low + w), 2), (off % 8 != 0 || decide (t.len < off + 8), 8),
      (decide (v < 0) || decide ((2 ^ w : Int) ≤ v), 0x0C), (done.any fun e => e.1 == a && e.2 &&& mask != 0, 8)] with
  | some fd => failL { status := stDescInvalid, stage := 5, sect := i, item := k, field := fd }
  | none =>
    let old := byteField r.img a 8
    modify fun r => { r with img := patch r.img a (leBytes 8 (old - bits old low w * 2 ^ low + v.toNat * 2 ^ low)) }
    return (a, mask) :: done

def relocs : List (Nat × Nat × List Byte) → List (Nat × Nat) → LM Unit
  | [], _ => pure ()
  | (i, k, d) :: rest, done => do
    let done ← reloc i k d done
    relocs rest done

def stage5 : LM Unit := do
  relocs (itemsOf (← get) 2 16) []
  varOk 5

/-! ### Stage 6: semaphores (R372, R398) -/

/-- Initial value of a semaphore symbol: of its last SEMINIT item, else 0. -/
def semInit (items : List (Nat × Nat × List Byte)) (sym : Nat) : Nat :=
  match (items.filter fun (_, _, d) => byteField d 0 4 == sym).getLast? with
  | some (_, _, d) => byteField d 8 8
  | none => 0

def stage6 : LM Unit := do
  let r ← get
  let items := itemsOf r 9 16
  eachL items fun (i, k, d) => do
    needL (byteField d 4 4 == 0) { status := stCmdInvalid, stage := 6, sect := i, item := k, field := 4 }
    needL ((r.syms.getD (byteField d 0 4) ⟨0, 0, 0, 0⟩).kind == 2) { status := stSemInvalid, stage := 6, sect := i, item := k, field := 0 }
  let i := (sectIdx r.sects 1).getD 0xFFFF
  eachL (r.syms.zipIdx.filter fun e => e.1.kind == 2) fun (x, k) => do
    let (st, t) := semCreateAs (← get).s r.f x.value (BitVec.ofNat 64 (semInit items k))
    needL (st == stOk) { status := st, stage := 6, sect := i, item := k }
    modL fun _ => t

/-! ### Stage 7: kinds, recipes, privileges, masks, Crimal scales (R73, R182, R225, R226, R243) -/

/-- The formats that a recipe may name: W, A, G, KV (R226). -/
def recipeAllowed : Nat → List Nat
  | 0 => [0x0E, 0x0D, 0x0C, 0x0B, 0x08, 0x02]
  | 1 => [0x0E, 0x0D, 0x0C, 0x0B, 0x08, 0x01, 0x02]
  | 2 => [0x0C, 0x0A, 0x09, 0x02]
  | _ => [0x0C, 0x0B, 0x08, 0x02]

/-- A format stands at or below a ceiling; one off the ladder is never above it in an image. -/
def atMost (ceil fmt : Nat) : Bool :=
  match rungOf fmt with
  | some r => decide (r ≤ ceil)
  | none => true

/-- Changes a layer of the job being loaded. -/
def modLayer (r : Load) (k : Nat) (g : Layer → Layer) (s : State) : State :=
  let j := s.job r.job
  s.setJob r.job { j with layers := tput k (g (j.layer k)) j.layers }

def loadKinds (r : Load) : LM Unit :=
  eachL (itemsOf r 5 16) fun (i, k, d) => do
    let kind := byteField d 4 1
    let e (fd : Nat) : LoadFail := { status := stDescInvalid, stage := 7, sect := i, item := k, field := fd }
    match badField [(decide (5 < kind), 4), (decide (1 < byteField d 5 1) || (byteField d 5 1 == 1 && kind != 0), 5), (decide (4095 < byteField d 6 2), 6),
        (byteField d 12 4 != 0, 12)] with
    | some fd => failL (e fd)
    | none => modL fun s =>
      let j := s.job r.job
      let x : KindEntry := ⟨BitVec.ofNat 32 (byteField d 0 4), BitVec.ofNat 8 kind, BitVec.ofNat 8 (byteField d 5 1), BitVec.ofNat 16 (byteField d 6 2), BitVec.ofNat 32 (byteField d 8 4)⟩
      s.setJob r.job { j with kinds := x :: j.kinds.filter (·.id != x.id) }

def loadRecipes (r : Load) : LM Unit :=
  eachL (itemsOf r 6 8) fun (i, k, d) => do
    let ceil := byteField d 2 1
    let fm (n : Nat) := byteField d (3 + n) 1
    let e (fd : Nat) : LoadFail := { status := stDescInvalid, stage := 7, sect := i, item := k, field := fd }
    match badField ([(decide (4095 < byteField d 0 2), 0), (decide (4 < ceil), 2)] ++
        ((List.range 4).map fun n => (!(recipeAllowed n).contains (fm n) || !atMost ceil (fm n), 3 + n)) ++ [(byteField d 7 1 != 0, 7)]) with
    | some fd => failL (e fd)
    | none => modL (modLayer r (byteField d 0 2) fun x =>
        { x with ceil := BitVec.ofNat 3 ceil, w := BitVec.ofNat 5 (fm 0), a := BitVec.ofNat 5 (fm 1), g := BitVec.ofNat 5 (fm 2), kv := BitVec.ofNat 5 (fm 3) })

def loadCrimal (r : Load) : LM Unit :=
  eachL (itemsOf r 10 4) fun (i, k, d) => do
    match badField [(decide (4095 < byteField d 0 2), 0), (decide (15 < byteField d 2 1), 2), (byteField d 3 1 != 0, 3)] with
    | some fd => failL { status := stDescInvalid, stage := 7, sect := i, item := k, field := fd }
    | none => modL (modLayer r (byteField d 0 2) fun x => { x with crimal := BitVec.ofNat 8 (byteField d 2 1) })

def loadMasks (r : Load) : LM Unit :=
  eachL (itemsOf r 7 4) fun (i, k, d) => do
    let id := byteField d 0 4
    let s := (← get).s
    match tfind s.masks id with
    | some m => needL (m.job.toNat == r.job) { status := stHeld, stage := 7, sect := i, item := k }
    | none =>
      needL (decide (s.masks.length < 16384)) { status := stDescInvalid, stage := 7, sect := i, item := k }
      modL fun s => { s with masks := tput id { job := BitVec.ofNat 32 r.job } s.masks }

/-- A section with at most n items. -/
def atMostItems (r : Load) (type n : Nat) : LM Unit :=
  match sectIdx r.sects type with
  | some i => needL (decide ((r.sects.getD i ⟨0, 0, 0, 0⟩).count ≤ n)) { status := stDescInvalid, stage := 7, sect := i, field := 4 }
  | none => pure ()

def stage7 : LM Unit := do
  let r ← get
  atMostItems r 5 65536
  loadKinds r
  loadRecipes r
  atMostItems r 8 256
  modL fun s => s.setJob r.job { s.job r.job with priv := (itemsOf r 8 4).map fun (_, _, d) => BitVec.ofNat 32 (byteField d 0 4) }
  loadCrimal r
  loadMasks r

/-! ### Stage 8: descriptors (R227, R243, R328) -/

/-- A descriptor of the image passes the rules that only a load checks: its format is the layer's initial one (R227), and no registered weight is transposable in Crimal mode (R243). -/
def loadDescOk (s : State) (j : Job) (d : Desc) : Option Nat :=
  let t := parseDesc j 0 d
  if rawField d.raw 0 1 ≠ t.fmt then some 0
  else if j.crimalMode && t.layout == 3 && !t.twKind && (tfind s.masks t.tid).isSome then some 3 else none

def stage8 : LM Unit := do
  let r ← get
  eachL (itemsOf r 3 136) fun (i, _, d) => do
    let h := byteField d 0 4
    let s := (← get).s
    let j := s.job r.job
    let e (st fd : Nat) : LoadFail := { status := st, stage := 8, sect := i, item := h, field := fd }
    needL (byteField d 4 4 == 0 && h != 0 && decide (h < 2 ^ 20) && (tfind j.descs h).isNone) (e stDescInvalid 0xFF)
    match validate s r.f r.job j (BitVec.ofNat 1024 (byteField d 8 128)) with
    | (.bad st fd, _) => failL (e st fd)
    | (.page p, _) => throw (.page p 8)
    | (.good x, t) =>
      match loadDescOk t j x with
      | some fd => failL (e stDescInvalid fd)
      | none => modL fun _ => installDesc t r.job h x

/-! ### Stage 9: data and commands (R358, R392) -/

/-- The reserved fields of a command, by its opcode. -/
def cmdReserved (c : Cmd) : Bool :=
  match (opByte c).toNat with
  | 0x00 => nopOk c | 0x01 => waitOk c | 0x02 => signalOk c | 0x03 => fenceOk c | 0x04 => beatAlignOk c
  | 0x10 | 0x11 => productOk c | 0x12 => loadStatOk c | 0x13 => preloadOk c | 0x14 => drainOk c
  | 0x30 => chainOk c | 0x31 => vecReduceOk c | 0x32 => softmaxOk c | 0x33 => normOk c | 0x34 => dropoutOk c
  | 0x35 => quantiseOk c | 0x36 => dequantiseOk c
  | 0x40 => maskOk true [3, 4, 5, 6] c | 0x41 | 0x42 => selectOk c | 0x43 => maskOk false [] c | 0x44 => predictReserved c
  | 0x45 => maskOk false [2, 3, 4, 5, 6] c
  | 0x50 | 0x51 | 0x52 | 0x53 => dmaReserved c | 0x60 | 0x61 => gatherReserved c
  | 0x70 => bucketReserved c | 0x71 => flushOk c | 0x72 => reshardOk c
  | 0x80 => optReserved c | 0x81 => lossReserved c
  | 0xF0 => semCreateOk c | 0xF1 => semDestroyOk c
  | _ => true

/-- The handles that a command names, by its opcode. -/
def cmdHandles (c : Cmd) : List Nat :=
  match (opByte c).toNat with
  | 0x10 | 0x11 => productHandles c | 0x12 => loadStatHandles c | 0x13 => preloadHandles c | 0x14 => drainHandles c
  | 0x30 => chainHandles c | 0x31 | 0x32 | 0x36 => vecHandles c | 0x33 | 0x34 => statHandles c | 0x35 => quantiseHandles c
  | 0x40 | 0x45 => scoreHandles c | 0x41 | 0x42 => selectHandles c | 0x43 => commitHandles c | 0x44 => predictHandles c
  | 0x50 | 0x51 | 0x52 | 0x53 => dmaHandles c | 0x60 | 0x61 => gatherHandles c
  | 0x70 => bucketHandles c
  | 0x80 => optHandles c | 0x81 => lossHandles c
  | _ => []

/-- Commands of the queue item at a position of the image. -/
def itemCmds (img : List Byte) (pos : Nat) : List Cmd :=
  (List.range (byteField img (pos + 0x30) 8)).map fun i => BitVec.ofNat 512 (byteField img (pos + 64 + 64 * i) 64)

/-- The executor that a queue item names. -/
def itemExe (img : List Byte) (pos : Nat) : Exe :=
  exeOf (BitVec.ofNat 15 (byteField img pos 2)) { engine := BitVec.ofNat 16 (byteField img (pos + 8) 2) }

def copyData (r : Load) : LM Unit :=
  let (i, ps) := varPos r 12
  eachL ps.zipIdx fun (a, k) => do
    let x := r.syms.getD (byteField r.img a 4) ⟨0, 0, 0, 0⟩
    let off := byteField r.img (a + 8) 8
    let n := byteField r.img (a + 16) 8
    let e : LoadFail := { status := stXlate, stage := 9, sect := i, item := k }
    needL (x.kind == 1 && decide (off + n ≤ x.size)) e
    loadWrite (some x.tier) (x.value + off) ((r.img.drop (a + 32)).take n) e

/-- The command with everything from byte k on zero. -/
def prefixCmd (c : Cmd) (k : Nat) : Cmd := BitVec.ofNat 512 (c.toNat % 2 ^ (8 * k))

/-- The byte of a command whose reserved bits break R358: the first whose value cannot stand, whatever follows it being zero. -/
def badByte (c : Cmd) : Nat :=
  if (cmdField c 1 1).testBit 0 then 1
  else if !headerOk c then 4
  else ((List.range 64).find? fun k => !cmdReserved (prefixCmd c (k + 1))).getD 0xFF

/-- Where a command names a handle: the offset of the first 4-byte field from 0x08 on that holds it. -/
def handleField (c : Cmd) (h : Nat) : Nat := (((List.range 14).map fun k => 8 + 4 * k).find? fun o => cmdField c o 4 == h).getD 0xFF

/-- The failing field of a command that a check of R358 stops, within the command (R400, log entry 36). -/
def cmdFault (c : Cmd) (st dt : Nat) : Nat :=
  if st = stLevel then 1
  else if st = stOpcode ∨ st = stCmdInvalid then 0
  else if st = stReserved then badByte c
  else handleField c dt

def stage9 : LM Unit := do
  let r ← get
  copyData r
  let (i, ps) := varPos r 4
  eachL ps.zipIdx fun (a, k) =>
    eachL (itemCmds r.img a).zipIdx fun (c, n) =>
      match earlyChecks (r.s.job r.job) (itemExe r.img a) c [] cmdReserved cmdHandles with
      | some (st, _, dt) => failL { status := st, stage := 9, sect := i, item := k, field := min (0x40 + 64 * n + cmdFault c st dt) 0xFF }
      | none => pure ()

/-! ### Stage 10: queues (R398) -/

/-- The QUEUE_CREATE record of an item, with FUNCTION and JOB of the request (R393). -/
def createRecord (r : Load) (a : Nat) : List Byte :=
  patch (patch ((r.img.drop a).take 48) 2 (leBytes 1 r.f)) 4 (leBytes 4 r.job)

/-- The failing field of a record whose creation is refused, within it (R350, R385, R400): the lowest of those that break a rule, and QUEUE where the queue itself cannot be created. -/
def createField (d : List Byte) (st : Nat) : Nat :=
  let q := byteField d 0 2
  let sub := decide (4096 ≤ q)
  let log2 := byteField d 3 1
  let vec := byteField d 0x0A 2
  if st = stHeld ∨ st = stReserved ∨ 32768 ≤ q then 0
  else (badField [(decide (log2 < 4) || decide (16 < log2), 3), (if sub then !engineOk (byteField d 8 2) else byteField d 8 2 != 0, 8),
    (vec == 0 || decide (2048 ≤ vec), 0x0A), (byteField d 0x0C 1 / 4 != 0, 0x0C), (byteField d 0x0D 3 != 0, 0x0D), (byteField d 0x10 8 % 256 != 0, 0x10),
    (byteField d 0x18 8 % 256 != 0, 0x18), (byteField d 0x26 2 != 0, 0x20), (byteField d 0x28 8 != 0, 0x28)]).getD 0

/-- Writes a queue's commands into its ring. -/
def fillRing (ring : Nat) (e : LoadFail) : List (Cmd × Nat) → LM Unit
  | [] => pure ()
  | (c, n) :: rest => do
    loadWrite none (ring + 64 * n) (bytes64 c) e
    fillRing ring e rest

def stage10 : LM Unit := do
  let r ← get
  let (i, ps) := varPos r 4
  eachL ps.zipIdx fun (a, k) => do
    let d := createRecord r a
    let (st, t) := queueCreateAs (← get).s r.f true d
    needL (st == stOk) { status := st, stage := 10, sect := i, item := k, field := createField d st }
    modL fun _ => t
    fillRing (byteField d 0x10 8) { status := stCmdInvalid, stage := 10, sect := i, item := k, field := 0x10 } (itemCmds r.img a).zipIdx
  eachL ps fun a => modL fun s => coverTo s (BitVec.ofNat 15 (byteField r.img a 2)) (BitVec.ofNat 16 (byteField r.img (a + 0x30) 8))

/-! ### The request (R397, R399, R400) -/

/-- The stages in order. -/
def allStages : LM Unit := do
  stage1
  stage2
  stage3
  stage4
  stage5
  stage6
  stage7
  stage8
  stage9
  stage10

/-- A load that failed is undone: what remains is memory as far as it was copied, and what the accesses themselves left behind. -/
def undoLoad (s0 s1 : State) : State :=
  { s0 with
    mem := s1.mem
    poison := s1.poison
    hostMem := s1.hostMem
    funcs := s1.funcs
    free := s1.free
    msys := { s1.msys with gens := s0.msys.gens } }

/-- Runs a load (R398, R399): its outcome is LOAD_STATUS of the path, and a module that is READY enters RUNNING (R539). A load that meets a host page to wait for has done nothing yet but ask for it: it is BUSY, and runs again when the host has answered (R283, R400, log entry 36). -/
def runLoad (s : State) (p : Path) (f : Nat) (d : List Byte) : State :=
  let job := byteField d 0 4
  let l : Load := { s := s, path := p, f := f, job := job, red := byteField d 4 2, image := byteField d 8 8, imageLen := byteField d 0x10 8,
                    bind := byteField d 0x18 8, bindCount := byteField d 0x20 4 }
  let status (t : State) (b : List Byte) := t.setPath p { t.path p with loadStatus := b }
  match (ExceptT.run allStages).run l with
  | (.ok _, r) =>
    let t := { (if r.s.power.state = .ready then enterState r.s .running else r.s) with load := none }
    status t (loadStatusBytes { status := stOk, stage := 0 } false r.above t.schedBeat.toNat job)
  | (.error (.fail e), r) => status { undoLoad s r.s with load := none } (loadStatusBytes e false r.above 0 job)
  | (.error (.page k g), r) =>
    status { requestPage s f k with load := some ⟨p, BitVec.ofNat 7 f, BitVec.ofNat 4 g, d⟩ } (loadStatusBytes { status := stOk, stage := 0 } true r.above 0 job)

/-- A write of 0x6058:01 (R397, R401, R539): refused while a load is in progress, in DRAINING, and in Snowdrop, where no job may be (R531). -/
def loadRequestWrite (s : State) (p : Path) (d : List Byte) : Nat × State :=
  let f := (pathFunc p).getD (byteField d 6 1)
  if byteField d 0 4 = 0 ∨ 1024 ≤ byteField d 4 2 ∨ 128 ≤ f ∨ byteField d 7 1 ≠ 0 ∨ byteField d 8 8 % 256 ≠ 0 ∨ byteField d 0x18 8 % 8 ≠ 0 ∨ byteField d 0x24 4 ≠ 0 then
    (stReserved, s)
  else if s.load.isSome ∨ s.power.state = .draining ∨ s.power.state = .standby then (stHeld, s)
  else (stOk, runLoad s p f d)

end Sys2Proof.Machine
end

