-- ==== Sys2Proof/Machine/Settings.lean ====
section
/-! DEFINITION. Dictionary writes with effects of their own that are not queues, loads, firmware or power: resource assignment (17 R473, R474), translation roots and invalidations (10 R310, R311), layer recipes (08 R237, R243), the torus settings (15 R405, R421, R424), GPIO claims and the trace (18 R493, R501, R502). Each answers the status of its write. -/

namespace Sys2Proof.Machine

/-! ### ASSIGN (R473, R474) -/

/-- Leaves of TARGET 0 of one table level: virtual address, size, frame. The level's lowest bit and index width are given. -/
def levelLeaves (s : State) (t va sh nb : Nat) : List (Nat × Nat × Nat) :=
  (liveEntries s t nb).filterMap fun e =>
    if e.2.testBit 0 && e.2.testBit 1 && bits e.2 6 2 == 0 then some (va + (e.1 - t) / 8 * 2 ^ sh, 2 ^ sh, e.2 / 256 * 256) else none

/-- Tables below one table: virtual address and table. -/
def levelTables (s : State) (t va sh nb : Nat) : List (Nat × Nat) :=
  (liveEntries s t nb).filterMap fun e =>
    if e.2.testBit 0 && !e.2.testBit 1 then some (va + (e.1 - t) / 8 * 2 ^ sh, e.2 / 256 * 256) else none

/-- The page tables of a root, with their sizes in bytes, and its leaves. -/
def walkAll (s : State) (root : Nat) : List (Nat × Nat) × List (Nat × Nat × Nat) :=
  if !root.testBit 0 then ([], [])
  else
    let l0 := bits root 16 28 * 65536
    let t1 := levelTables s l0 0 43 13
    let t2 := t1.flatMap fun e => levelTables s e.2 e.1 30 13
    let t3 := t2.flatMap fun e => levelTables s e.2 e.1 21 9
    ((l0, 65536) :: t1.map (fun e => (e.2, 65536)) ++ t2.map (fun e => (e.2, 4096)) ++ t3.map (fun e => (e.2, 256)),
      t1.flatMap (fun e => levelLeaves s e.2 e.1 30 13) ++ t2.flatMap (fun e => levelLeaves s e.2 e.1 21 9) ++
        t3.flatMap fun e => levelLeaves s e.2 e.1 16 5)

/-- Virtual ranges that a job needs: the rings of its queues and its descriptors' allocations. -/
def jobRanges (s : State) (j : Nat) (x : Job) : List (Nat × Nat) :=
  (queuesOf s j).flatMap (fun q => let y := s.queue q; [(y.ring.toNat, 64 * y.n), (y.comp.toNat, 16 * y.n)]) ++
    x.descs.filterMap fun e =>
      let t := parseDesc x e.1 e.2
      if t.tier = 0 then none else some (t.allocBase, t.allocLen)

/-- Memory units that hold a ring, page table or descriptor allocation of one of a function's jobs (R474). -/
def unitsHeld (s : State) (f : Nat) : List Nat :=
  (s.jobs.filter fun e => e.2.func.toNat == f).flatMap fun e =>
    let (tables, leaves) := walkAll s (rootOf s f e.1).toNat
    let need := jobRanges s e.1 e.2
    tables.flatMap (fun t => [unitOf t.1, unitOf (t.1 + t.2 - 1)]) ++
      (leaves.filter fun l => need.any fun r => decide (r.1 < l.1 + l.2.1) && decide (l.1 < r.1 + r.2)).map fun l => unitOf l.2.2

/-- Items of each kind (R473). -/
def itemsOk (kind first count : Nat) : Bool :=
  count != 0 && match kind with
    | 1 => decide (4096 ≤ first) && decide (first + count ≤ 32768)
    | 2 => decide (first + count ≤ 65536)
    | 3 => decide (first + count ≤ 3584)
    | _ => false

/-- Functions that an operation takes an item from. -/
def losers (s : State) (kind op f item : Nat) : List Nat :=
  (List.range 128).filter fun g => s.assignedTo kind item g && (if op = 0 then g != f else op == 2 && g == f)

/-- Taking an item from a function is refused (R474). -/
def itemHeld (s : State) (held : Nat → List Nat) (kind item g : Nat) : Bool :=
  match kind with
  | 1 => (s.queue (BitVec.ofNat 15 item)).st != .free
  | 2 => (s.sem item).st == .live && (s.sem item).owner.toNat == g
  | _ => (held g).contains item

/-- Who may write ASSIGN for an item and a function (R474). -/
def assigner (s : State) (p : Path) (kind f item : Nat) : Bool :=
  match pathFunc p with
  | none => true
  | some g =>
    if g % 64 ≠ 0 then false
    else if g / 64 = s.reg 0x1100 1 then true
    else s.assignedTo kind item g && f / 64 == g / 64 && f % 64 != 0

/-- The new assignment of one item. -/
def reassign (kind op f : Nat) (s : State) (item : Nat) : State :=
  let b := BitVec.ofNat 128 (2 ^ f)
  let v := match op with
    | 0 => b
    | 1 => s.assigned kind item ||| b
    | _ => s.assigned kind item &&& ~~~b
  { s with assign := tput (2 ^ 32 * kind + item) v s.assign }

/-- A write of 0x1100:05. -/
def assignWrite (s : State) (p : Path) (d : List Byte) : Nat × State :=
  let kind := byteField d 0 1
  let op := byteField d 1 1
  let f := byteField d 2 1
  let first := byteField d 4 4
  let items := rangeFrom first (byteField d 8 4)
  if byteField d 3 1 ≠ 0 ∨ byteField d 12 4 ≠ 0 ∨ 2 < op ∨ 127 < f ∨ !itemsOk kind first (byteField d 8 4) ∨ (kind = 1 ∧ op = 1) then (stReserved, s)
  else
    let tab := if kind = 3 then (List.range 128).map fun g => if ownsJob s g then unitsHeld s g else [] else []
    if items.any fun i => !assigner s p kind f i || (losers s kind op f i).any fun g => itemHeld s (fun g => tab.getD g []) kind i g then (stHeld, s)
    else (stOk, items.foldl (reassign kind op f) s)

/-! ### Translation (R310, R311) -/

/-- A write of 0x4020:(f + 1). -/
def rootWrite (s : State) (f v : Nat) : Nat × State :=
  if v / 2 ^ 44 ≠ 0 ∨ bits v 1 15 ≠ 0 then (stReserved, s)
  else (stOk, s.setFunc f { s.func f with root := BitVec.ofNat 64 v })

/-- A write of 0x4021:01; another function than the path's own is hidden from it. -/
def invalWrite (s : State) (p : Path) (d : List Byte) : Nat × State :=
  let f := byteField d 0 1
  let scope := byteField d 1 1
  let va := byteField d 8 8
  if (match pathFunc p with | some g => f != g | none => false) then (stCmdInvalid, s)
  else if 127 < f ∨ 3 < scope ∨ byteField d 2 6 ≠ 0 ∨ (scope ≠ 3 ∧ va % [2 ^ 16, 2 ^ 21, 2 ^ 30].getD scope 1 ≠ 0) then (stReserved, s)
  else (stOk, startInval s (BitVec.ofNat 7 f) scope va)

/-! ### Layers (R237, R243, R245) -/

/-- Changes the layer that a path's selectors name, of a job that it reaches; a selection that names none is refused (log entry 34). -/
def layerWrite (s : State) (p : Path) (g : Job → Layer → Layer) : Nat × State :=
  match selectedJob s p 0x5010 1 with
  | none => (stCmdInvalid, s)
  | some j =>
    let k := s.selector p 0x5020 1
    (stOk, s.setJob (s.selector p 0x5010 1) { j with layers := tput k (g j (j.layer k)) j.layers })

/-- A format that software may name: allowed for its kind, and on the ladder up to the ceiling, or the one in force (log entry 37). -/
def recipeFmtOk (x : Layer) (kind now fmt : Nat) : Bool :=
  (recipeAllowed kind).contains fmt && match rungOf fmt with
    | some r => decide (r ≤ x.ceil.toNat)
    | none => fmt == now

/-- A write of RECIPE: pending until the next CLEAN CLOSE. -/
def recipeEntryWrite (s : State) (p : Path) (v : Nat) : Nat × State :=
  match selectedLayer s p with
  | none => (stCmdInvalid, s)
  | some x =>
    if recipeFmtOk x 0 x.w.toNat (bits v 0 5) && recipeFmtOk x 1 x.a.toNat (bits v 5 5) && recipeFmtOk x 2 x.g.toNat (bits v 10 5) &&
        recipeFmtOk x 3 x.kv.toNat (bits v 15 5) then
      layerWrite s p fun _ x => { x with pending := some (BitVec.ofNat 32 (v % 2 ^ 20)) }
    else (stDescInvalid, s)

/-- A write of CRIMAL_SCALE: at once before the job's first CLOSE, else pending until L changes. -/
def crimalWrite (s : State) (p : Path) (v : Nat) : Nat × State :=
  if 15 < v then (stReserved, s)
  else layerWrite s p fun j x => if j.closedOnce then { x with crimalPending := some (BitVec.ofNat 8 v) } else { x with crimal := BitVec.ofNat 8 v }

/-- A write of THRESHOLD. -/
def thresholdWrite (s : State) (p : Path) (v : Nat) : Nat × State :=
  if 14 < v then (stReserved, s) else layerWrite s p fun _ x => { x with threshold := BitVec.ofNat 8 v }

/-! ### Torus settings (R405, R421, R424) -/

/-- The four bytes of a value satisfy a test. -/
def bytesOk (n v : Nat) (ok : Nat → Bool) : Bool := (List.range n).all fun a => ok (bits v (8 * a) 8)

/-- A write of COORD: HELD ports are checked again. -/
def coordEntryWrite (s : State) (v : Nat) : Nat × State :=
  if bytesOk 4 v fun b => decide (b ≤ 15) || b == 0xFF then (stOk, recheckPorts (s.setReg 0x3400 2 v)) else (stReserved, s)

/-- A write of AXIS_SIZE: ports of axes that gain or lose their ring change, and HELD ports are checked again. -/
def axisEntryWrite (s : State) (v : Nat) : Nat × State :=
  if bytesOk 4 v fun b => decide (1 ≤ b) && decide (b ≤ 16) then (stOk, recheckPorts (settlePorts (s.setReg 0x3400 3 v))) else (stReserved, s)

/-- A write of PORT_ENABLE. -/
def portEnableEntryWrite (s : State) (v : Nat) : Nat × State := (stOk, settlePorts (s.setReg 0x3400 4 v))

/-! ### GPIO claims (R493) -/

/-- A write of a claimant entry: a pin that another claimant holds is refused, and the holder is named in the response. -/
def claimWrite (s : State) (index sub v : Nat) : Nat × List Byte × State :=
  if v ≠ 0xFF ∧ 3 < v then (stReserved, [], s)
  else match (if v = 0xFF then none else pinHolder s v) with
    | some (i, k) => if i = index ∧ k = sub then (stOk, [], s) else (stHeld, leBytes 2 i ++ leBytes 1 k, s)
    | none => (stOk, [], s.setReg index sub v)

/-! ### Fault events (R494) -/

/-- A write of FAULT_ACK. -/
def faultAckWrite (s : State) (v : Nat) : Nat × State :=
  if v = 0xFFFF then (stOk, { s with dict := { s.dict with faults := [] } })
  else if faultCodes.contains v then (stOk, { s with dict := { s.dict with faults := s.dict.faults.filter (·.toNat != v) } })
  else (stReserved, s)

/-! ### Trace (R501, R502) -/

/-- A write of TRACE_EN: 1 records, anew after a trigger, with TRACE_WRAPS at zero; 0 stops. -/
def traceEnWrite (s : State) (v : Nat) : Nat × State :=
  (stOk, { s with dict := if v = 1 then { s.dict with traceOn := true, tracePost := none, traceWraps := 0 } else { s.dict with traceOn := false } })

/-- A trigger: recording stops after TRACE_POST further records. -/
def triggerTrace (s : State) : State :=
  if s.dict.traceOn && s.dict.tracePost.isNone then { s with dict := { s.dict with tracePost := some (s.reg 0x7E00 4) } } else s

/-- TRACE_GPIO_EDGE (R501): a rising edge on the pin that TRACE_GPIO claims. -/
def execTraceGpioEdge (pin : BitVec 2) (s : State) : Out :=
  .next (if s.reg 0x7E00 2 = pin.toNat then triggerTrace s else s)

/-- TRACE_POST_EXPIRY (R501): the records after the trigger are written; recording is off until TRACE_EN is written 1 (log entry 42). -/
def execTracePostExpiry (s : State) : Out :=
  .next (if s.dict.tracePost = some 0 then { s with dict := { s.dict with traceOn := false } } else s)

end Sys2Proof.Machine
end

