-- ==== Sys2Proof/Machine/Trust.lean ====
section
/-! DEFINITION. Trust, firmware and live servicing (19): the image checks, firmware update and activation, boot of the root monitor and the service firmware, fused security versions, and the replacement of cores and memory rows. -/

namespace Sys2Proof.Machine

/-! ### The persistent store (R491) -/

/-- Bytes of a bank (R491). -/
def bankSize : Nat := 524288

/-- A journal record's index, subindex, length and value. -/
def StoreRec.body (r : StoreRec) : List Byte := leBytes 2 (r.key / 256) ++ leBytes 1 r.key ++ leBytes 1 r.value.length ++ r.value

/-- The journal record of a value. -/
def storeRec (key : Nat) (v : List Byte) : StoreRec :=
  let r : StoreRec := ⟨key, v, 0⟩
  { r with crc := BitVec.ofNat 32 (crc32 r.body) }

/-- A journal record's CRC is right. -/
def StoreRec.good (r : StoreRec) : Bool := BitVec.ofNat 32 (crc32 r.body) == r.crc

/-- A bank with a generation and a journal. -/
def newBank (gen : BitVec 32) (l : List StoreRec) : Bank := ⟨some (gen, BitVec.ofNat 32 (crc32 (leBytes 4 gen.toNat))), l⟩

/-- The generation of a bank with a valid header. -/
def Bank.gen? (b : Bank) : Option (BitVec 32) :=
  match b.head with
  | some (g, c) => if BitVec.ofNat 32 (crc32 (leBytes 4 g.toNat)) = c then some g else none
  | none => none

/-- Bytes of a bank that are in use. -/
def Bank.used (b : Bank) : Nat := b.journal.foldl (fun n r => n + 8 + r.value.length) 8

/-- The values that a bank's journal leaves: the last record of each entry, up to the first record with a wrong CRC (R492). -/
def Bank.values (b : Bank) : Tab Nat := (b.journal.takeWhile StoreRec.good).foldl (fun t r => tput r.key (leNat r.value) t) []

/-- The active bank: the one with a valid header and the higher generation, and the other (R491, R492). -/
def activeBank (d : Dict) : Option (Bool × Bank × BitVec 32) :=
  match d.bank0.gen?, d.bank1.gen? with
  | some g, some h => if g < h then some (true, d.bank1, h) else some (false, d.bank0, g)
  | some g, none => some (false, d.bank0, g)
  | none, some h => some (true, d.bank1, h)
  | none, none => none

/-- The stored values: those of the active bank (R492). -/
def storeOf (d : Dict) : Tab Nat :=
  match activeBank d with
  | some (_, b, _) => b.values
  | none => []

/-- Replaces the bank of a number. -/
def setBank (d : Dict) (one : Bool) (b : Bank) : Dict := if one then { d with bank1 := b } else { d with bank0 := b }

/-- The store's journal begins anew with the given records: in the other bank, with the next generation, and then the old bank is erased (R491). With no valid bank it begins in bank 0 (log entry 109). -/
def renewStore (d : Dict) (l : List StoreRec) : Dict :=
  match activeBank d with
  | some (one, _, g) => setBank (setBank d (!one) (newBank (g + 1) l)) one {}
  | none => { d with bank0 := newBank 0 l, bank1 := {} }

/-- The latest value of every persistent entry, as the records of a compaction (R491); an entry with no record has its default (R492). -/
def latestRecs (d : Dict) : List StoreRec :=
  let t := storeOf d
  (allEntries.filter (·.pers)).map fun e => storeRec (256 * e.index + e.lo) (leBytes e.type.size (tget e.dflt t (256 * e.index + e.lo)))

/-- Appends a journal record to the active bank, after a compaction where it does not fit (R491). -/
def storeAppend (d : Dict) (r : StoreRec) : Dict :=
  let d := match activeBank d with
    | some (_, b, _) => if bankSize < b.used + 8 + r.value.length then renewStore d (latestRecs d) else d
    | none => renewStore d []
  match activeBank d with
  | some (one, b, _) => setBank d one { b with journal := b.journal ++ [r] }
  | none => d

/-- A persistent entry's value is written to the store: one journal record (R491). -/
def persist (s : State) (index sub v : Nat) : State :=
  let n := match findEntry index sub with
    | some e => e.type.size
    | none => 0
  let d := storeAppend s.dict (storeRec (256 * index + sub) (leBytes n v))
  { s with dict := { d with journal := d.journal + 1 } }

/-- RESTORE_DEFAULTS empties the store (R489). -/
def emptyStore (s : State) : State := { s with dict := renewStore s.dict [] }

/-! ### Images (R511 to R513) -/

/-- A byte of a flash target. -/
def flashGet (s : State) (target off : Nat) : Byte :=
  match tfind s.trust.flash (2 ^ 24 * target + off) with
  | some b => b
  | none => Config.flashByte (2 ^ 24 * target + off)

/-- Bytes of a flash target. -/
def flashRead (s : State) (target off n : Nat) : List Byte := (rangeFrom off n).map (flashGet s target)

/-- Programs consecutive bytes of a flash target. -/
def flashPut (target : Nat) : Nat → List Byte → Tab Byte → Tab Byte
  | _, [], f => f
  | off, b :: r, f => flashPut target (off + 1) r (tput (2 ^ 24 * target + off) b f)

/-- Bytes that a target holds: the slots of R511, and a whole UNLOCK image (R512). -/
def targetSize (target : Nat) : Nat := if target < 2 then 0x80000 else if target < 4 then 0x1000000 else 0x1030

/-- BODY_LEN is within its limit (R512). -/
def bodyLenOk (kind n : Nat) : Bool :=
  match kind with
  | 1 => decide (n ≤ 0x40000)
  | 2 => decide (n ≤ 0xC00000)
  | _ => n == 48

/-- Check 1 of R513 on a 4,096-byte header; an image of another kind than its target's fails it. -/
def headerFits (target : Nat) (h : List Byte) : Bool :=
  let zero := fun (a n : Nat) => ((h.drop a).take n).all (· == 0)
  byteField h 0 4 == 0x4D494E44 && byteField h 4 1 == targetKind target && decide (byteField h 5 1 < 4) && zero 6 2 && zero 0x0E 2 &&
    zero 0x18 0x28 && zero 0xED4 0x12C && bodyLenOk (targetKind target) (byteField h 0x10 8)

/-- SHA3-256 over the signed part of an image, which is also its measurement (R513, R518). -/
def imageDigest (s : State) (target : Nat) (h : List Byte) : BitVec 256 :=
  Config.sha3 (h.take 0x40 ++ flashRead s target 0x1000 (byteField h 0x10 8))

/-- The image in a target by R513: its slot entry, and the order of the first check that fails, or 0. -/
def verifyImage (s : State) (target : Nat) : Slot × Nat :=
  let h := flashRead s target 0 0x1000
  let kind := targetKind target
  if !headerFits target h then ({}, 1)
  else
    let key := byteField h 5 1
    let pub := (h.drop 0x40).take 1312
    let svn := byteField h 0x0C 2
    let d := imageDigest s target h
    if Config.sha3 pub != Config.keyHash key || Config.fusedRevoked.getLsbD key then ({}, 2)
    else if svn < svnMin s kind then ({}, 3)
    else if !(Config.mldsaVerify pub d ((h.drop 0x560).take 2420)) then ({}, 4)
    else (⟨true, BitVec.ofNat 8 kind, BitVec.ofNat 32 (byteField h 8 4), BitVec.ofNat 16 svn, d⟩, 0)

/-- Replaces a slot's entry. -/
def setSlot (s : State) (n : Nat) (x : Slot) : State := { s with trust := { s.trust with slots := s.trust.slots.set n x } }

/-! ### Boot (R514, R521) -/

/-- The image that a boot finds valid in a slot: one verified before whose SVN still suffices, or, in a slot whose entry was given up, what the flash holds now, verified by R513 (R514). -/
def bootImage (s : State) (n : Nat) : Option Slot :=
  if (slotOf s n).valid then (if slotBoots s n then some (slotOf s n) else none)
  else
    let (x, k) := verifyImage s n
    if k = 0 then some x else none

/-- The slot that boots, and its image: the one named, else the other (R514). -/
def bootSlot (s : State) (base : Nat) (named : BitVec 1) : Option (BitVec 1 × Slot) :=
  match bootImage s (base + named.toNat) with
  | some x => some (named, x)
  | none => (bootImage s (base + 1 - named.toNat)).map fun x => (1 - named, x)

/-- The root monitor boots after a reset of a kind: the image of ROOT_SLOT, or with fallback the other, and the boot's first black-box record; with neither the boot ROM stays in recovery. -/
def bootRoot (s : State) (kind : Nat) : State :=
  match bootSlot s 0 s.trust.rootSlot with
  | none => { s with trust := { s.trust with rootUp := false, recovery := true } }
  | some (n, x) =>
    let back := n != s.trust.rootSlot
    let s := setSlot s n.toNat x
    let s := { s with trust := { s.trust with rootUp := true, recovery := false, rootRun := n, rootFallback := back } }
    bbWrite s 0x0001 0 0 (leBytes 4 (slotOf s n.toNat).version.toNat ++ [Config.resetKindCode kind, BitVec.ofNat 8 (bit back)])

/-- Writes the black-box records that were held, and one summary of those that were dropped (R521). -/
def writeHeld (s : State) : State :=
  let n := s.dict.bbDropped
  let s := { s with dict := { s.dict.bbHeld.foldl bbAppend s.dict with bbHeld := [], bbDropped := 0 } }
  if n = 0 then s
  else
    let (b, s) := drawBytes s 9
    bbWrite s 0x0002 0 0 b n true

/-- A management-only reset begins: the root monitor stops (R521). -/
def mgmtReset (s : State) : State := { s with trust := { s.trust with rootUp := false, spdm := [] } }

/-- The module enters FAULTED for a cause (R539, R547). -/
def enterFaulted (s : State) (cause : Nat) : State :=
  if s.power.state = .faulted ∨ s.power.state = .off then s
  else enterState { s with power := { s.power with faultCause := BitVec.ofNat 8 cause } } .faulted

/-- ROOT_MONITOR_RETURN (R521, R527, R546): after a management-only reset the root monitor runs again, held records and events follow, and an input fault that waited takes effect. -/
def execRootMonitorReturn (s : State) : Out :=
  if s.trust.rootUp || s.trust.recovery || s.power.state == .off || s.power.resetHeld then .next s
  else
    let s := bootRoot s 2
    if !s.trust.rootUp then .next s
    else
      let s := writeHeld s
      let held := s.trust.heldPosts
      let s := { s with trust := { s.trust with heldPosts := [] } }
      let s := held.foldl (fun s e => postTo s e.1 e.2.1 e.2.2) s
      let s := if s.trust.rootNew then
          postAll { s with trust := { s.trust with rootNew := false } } 0x0200 (1 :: leBytes 4 (slotOf s s.trust.rootRun.toNat).version.toNat)
        else s
      .next (if s.power.faultHeld then enterFaulted { s with power := { s.power with faultHeld := false } } 2 else s)

/-- SERVICE_FIRMWARE_START (R20, R508, R514, R543): once the IOD, which carries the management processors, has left reset, the root monitor verifies the slot of SF_SLOT, or with fallback the other, and starts it. -/
def execServiceFirmwareStart (s : State) : Out :=
  if !s.trust.rootUp || s.trust.sfUp || s.trust.handover.isSome || s.power.state == .off || !s.ticking then .next s
  else match bootSlot s 2 s.trust.sfSlot with
    | some (n, x) =>
      let s := setSlot s (2 + n.toNat) x
      .next { s with trust := { s.trust with sfUp := true, sfRun := n } }
    | none => .next s

/-! ### Update (R519, R527) -/

/-- A target is refused because its slot is in use: the running root monitor, or the running service firmware or the one being handed over to; in recovery only the slot that ROOT_SLOT does not name is open (R514, R519). -/
def targetHeld (s : State) (t : Nat) : Bool :=
  if s.trust.recovery then t != 1 - s.trust.rootSlot.toNat
  else
    t == s.trust.rootRun.toNat ||
      ((s.trust.sfUp || s.trust.handover.isSome) && t == 2 + s.trust.sfRun.toNat) ||
      match s.trust.handover with
      | some (n, _) => t == 2 + n.toNat
      | none => false

/-- A write of FW_TARGET; 0xFF names none. -/
def fwTargetWrite (s : State) (v : Nat) : Nat × State :=
  if v ≠ 0xFF ∧ 4 < v then (stReserved, s)
  else if v ≠ 0xFF && targetHeld s v then (stHeld, s)
  else (stOk, { s with trust := { s.trust with fwTarget := BitVec.ofNat 8 v, verdict := none, writtenBytes := 0 } })

/-- A write of FW_CHUNK: the chunk waits for programming, and from then on the slot holds no valid image. -/
def fwChunkWrite (s : State) (d : List Byte) : Nat × State :=
  let t := s.trust.fwTarget.toNat
  let off := byteField d 0 4
  let n := byteField d 4 2
  if n = 0 ∨ 1016 < n ∨ byteField d 6 2 ≠ 0 then (stReserved, s)
  else if t = 0xFF then (stCmdInvalid, s)
  else if targetSize t < off + n then (stReserved, s)
  else if targetHeld s t || decide (64 ≤ s.trust.chunks.length) then (stHeld, s)
  else
    let s := setSlot s t {}
    (stOk, { s with trust := { s.trust with chunks := s.trust.chunks ++ [(t, off, (d.drop 8).take n)], verdict := none } })

/-- Verifies the image in the target (R513). -/
def doCommit (s : State) : State :=
  let t := s.trust.fwTarget.toNat
  let (x, k) := verifyImage s t
  let s := setSlot s t x
  { s with trust := { s.trust with verdict := some k, commitWait := false } }

/-- A write of COMMIT: it waits for queued chunks. -/
def fwCommitWrite (s : State) : Nat × State :=
  let t := s.trust.fwTarget.toNat
  if t = 0xFF then (stCmdInvalid, s)
  else if targetHeld s t then (stHeld, s)
  else if s.trust.chunks.isEmpty then (stOk, doCommit s)
  else (stOk, { s with trust := { s.trust with commitWait := true } })

/-- FW_CHUNK_PROGRAMMED (R519): the oldest chunk is in the flash; a COMMIT that waited runs after the last. -/
def execFwChunkProgrammed (s : State) : Out :=
  match s.trust.chunks with
  | [] => .next s
  | (t, off, bs) :: rest =>
    let n := if t = s.trust.fwTarget.toNat then bs.length else 0
    let s := { s with trust := { s.trust with
      chunks := rest, flash := flashPut t off bs s.trust.flash, writtenBytes := s.trust.writtenBytes + n } }
    .next (if rest.isEmpty && s.trust.commitWait then doCommit s else s)

/-! ### Activation (R520 to R522) -/

/-- The 48 bytes that an UNLOCK image's body must hold: the serial number, zero-padded, and the present nonce. -/
def unlockBody (s : State) : List Byte := (Config.serial ++ List.replicate 32 0).take 32 ++ leBytes 16 (Config.nonce s.trust.nonces).toNat

/-- An accepted UNLOCK image. -/
def acceptUnlock (s : State) : State :=
  let x := slotOf s 4
  let s := { s with trust := { s.trust with
    unlocked := true, unlockSvn := some x.svn, unlockDigest := Config.sha3 (unlockBody s), nonces := s.trust.nonces + 1 } }
  bbWrite s 0x1200 0 0 (3 :: leBytes 4 x.version.toNat)

/-- A write of ACTIVATE: a root monitor by management-only reset, service firmware by live handover, an UNLOCK image at once. -/
def fwActivateWrite (s : State) : Nat × State :=
  let t := s.trust.fwTarget.toNat
  if t = 0xFF then (stCmdInvalid, s)
  else if targetHeld s t then (stHeld, s)
  else if !slotBoots s t then (stCmdInvalid, s)
  else if t < 2 then
    let s := persist s 0x6810 1 t
    let s := { s with trust := { s.trust with rootSlot := BitVec.ofNat 1 t, rootNew := true } }
    (stOk, if s.trust.recovery then { s with trust := { s.trust with recovery := false } } else mgmtReset s)
  else if t < 4 then
    if s.trust.handover.isSome then (stHeld, s)
    else (stOk, { s with trust := { s.trust with handover := some (BitVec.ofNat 1 (t - 2), s.trust.sfUp), sfUp := false } })
  else if flashRead s 4 0x1000 48 = unlockBody s then (stOk, acceptUnlock s)
  else (stCmdInvalid, s)

/-- HANDOVER_READY (R20, R520): the new instance takes over, and SF_SLOT changes. -/
def execHandoverReady (s : State) : Out :=
  match s.trust.handover with
  | none => .next s
  | some (n, _) =>
    if !s.trust.rootUp || !s.ticking then .next s
    else
      let s := persist s 0x6810 2 n.toNat
      let s := { s with trust := { s.trust with handover := none, sfUp := true, sfSlot := n, sfRun := n } }
      .next (postAll s 0x0200 (2 :: leBytes 4 (slotOf s (2 + n.toNat)).version.toNat))

/-- HANDOVER_TIMEOUT (R520): the new instance is stopped and the old one serves on. -/
def execHandoverTimeout (s : State) : Out :=
  match s.trust.handover with
  | none => .next s
  | some (n, old) =>
    if !s.trust.rootUp then .next s
    else
      let v := (slotOf s (2 + n.toNat)).version.toNat
      .next (postAll { s with trust := { s.trust with handover := none, sfUp := old } } 0x0201 (leBytes 4 v))

/-! ### Security versions (R515) -/

/-- SVN of the image that stands for a kind: the running root monitor, the running service firmware, the UNLOCK image accepted since power-on. -/
def standingSvn (s : State) (kind : Nat) : Option Nat :=
  match kind with
  | 1 => some (slotOf s s.trust.rootRun.toNat).svn.toNat
  | 2 => if s.trust.sfUp || (match s.trust.handover with | some (_, old) => old | none => false)
      then some (slotOf s (2 + s.trust.sfRun.toNat)).svn.toNat else none
  | 3 => s.trust.unlockSvn.map (·.toNat)
  | _ => none

/-- A write of SVN_RAISE: the kind's fuses are blown up to that SVN, never down; 64 fuses count. -/
def svnRaiseWrite (s : State) (kind : Nat) : Nat × State :=
  match standingSvn s kind with
  | none => (stReserved, s)
  | some v =>
    if v ≤ svnMin s kind then (stOk, s)
    else (stOk, { s with trust := { s.trust with svnRaised := s.trust.svnRaised.set (kind - 1) (BitVec.ofNat 16 (min 64 v)) } })

/-! ### Core replacement (R524, R525) -/

/-- A write of CORE_REPLACE. -/
def coreReplaceWrite (s : State) (v : Nat) : Nat × State :=
  if v / 1024 ≠ 0 ∨ bits v 5 3 ≠ 0 then (stReserved, s)
  else
    let core := v / 256 * 32 + v % 32
    if s.trust.repl.any fun r => r.core.toNat == core then (stHeld, s) else (stOk, startRepl s core)

/-- Changes one replacement under way. -/
def setRepl (s : State) (r : CoreRepl) : State :=
  { s with trust := { s.trust with repl := s.trust.repl.map fun x => if x.core = r.core then r else x } }

/-- A physical spare is failed or used. -/
def spendSpare (s : State) (die spare : Nat) : State :=
  if spare < 32 ∨ 33 < spare then s
  else { s with trust := { s.trust with sparesGone := s.trust.sparesGone.set die ((s.trust.sparesGone.getD die 0) ||| BitVec.ofNat 2 (2 ^ (spare - 32))) } }

/-- A logical core becomes vacant: CORE_LOST is posted and written to the black box, with its die, its logical number and the physical core it had (R10, R17, R505, R525, R530). -/
def loseCore (s : State) (core : Nat) : State :=
  let d := [BitVec.ofNat 8 (core / 32), BitVec.ofNat 8 (core % 32), BitVec.ofNat 8 (s.physCore core).toNat]
  let s := if s.vacantCore core then s else { s with trust := { s.trust with vacant := s.trust.vacant ++ [BitVec.ofNat 7 core] } }
  postAll (bbWrite s 0x1203 0 0 d) 0x0203 d

/-- A replacement fails: the queues keep running on the old core, or, where it no longer works, the logical core is vacant and CORE_LOST is posted (R17, R525). -/
def failRepl (s : State) (r : CoreRepl) (oldWorks : Bool) : State :=
  let core := r.core.toNat
  let s := { s with trust := { s.trust with
    repl := s.trust.repl.filter (·.core != r.core), coreStatus := coreStatusOf s 3 (core / 32) (coreReq core) } }
  if oldWorks then s else loseCore s core

/-- CORE_SELF_TEST_DONE (R524, R525): the self-test of a spare on a die ends; after a failure the next spare is tested, and with none left the replacement fails. -/
def execCoreSelfTestDone (d : Die) (pass oldWorks : Bool) (s : State) : Out :=
  match s.trust.repl.find? fun r => r.core.toNat / 32 == d.toNat && !r.passed with
  | none => .next s
  | some r =>
    if pass && r.spare != 63 then .next (setRepl s { r with passed := true })
    else
      let s := spendSpare s d.toNat r.spare.toNat
      match freeSpare s d.toNat with
      | some p => .next (setRepl s { r with spare := BitVec.ofNat 6 p })
      | none => .next (failRepl s r oldWorks)

/-- An engine queue of a core stands at a quiet point (R108, R524). -/
def engineQuiet (s : State) (core slot : Nat) : Bool :=
  let x := s.queue (BitVec.ofNat 15 (core * 16 + slot))
  (x.st == .free || x.st == .aborted || x.started.all fun w => w.done && w.refs.isEmpty) &&
    (decide (4 ≤ slot) || (arrayQuiet s (4 * core + slot)).1)

/-- CORE_QUIET_POINT (R524): all eight engine queues of a core under replacement stand at their quiet points; they take no commands, and the copy of near memory begins once a spare has passed. -/
def execCoreQuietPoint (c : CoreNum) (s : State) : Out :=
  match s.trust.repl.find? fun r => r.core == c && !r.quiet with
  | none => .next s
  | some r => if (List.range 8).all (engineQuiet s c.toNat) then .next (setRepl s { r with quiet := true }) else .next s

/-- An array of a spare core: nothing loaded, and the latency that the core's own self-test left it with, which is open. A repair request for it, which names the logical array, stays (R107, log entry 94). -/
def freshArray (s : State) (a : Nat) : State :=
  let s := dropTileRef s a
  let (v, s) := drawWord s
  let x := s.array a
  let y : ArrayState := { repair := x.repair, recorded := x.recorded }
  s.setArray a (if v.getLsbD 0 then { y with latency := 7, spare := 1, sparedRow := BitVec.ofNat 8 (bits v.toNat 1 6) } else y)

/-- CORE_COPY_DONE (R524): near memory, with its poison, keeps its addresses; the map changes, the arrays are the spare's, the queues resume, and CORE_REPLACED goes to every function with a job on the core and to the black box. -/
def execCoreCopyDone (c : CoreNum) (s : State) : Out :=
  match s.trust.repl.find? fun r => r.core == c && r.quiet && r.passed with
  | none => .next s
  | some r =>
    let core := c.toNat
    let old := (s.physCore core).toNat
    let owners := ((s.queues.filter fun e => e.1 / 16 == core && e.2.st != .free).map fun e => e.2.func.toNat).dedup
    let s := (List.range 4).foldl (fun s k => freshArray s (4 * core + k)) s
    let s := spendSpare s (core / 32) r.spare.toNat
    let s := { s with trust := { s.trust with
      coreMap := tput core r.spare s.trust.coreMap, vacant := s.trust.vacant.filter (· != c), repl := s.trust.repl.filter (·.core != c),
      record := s.trust.record ++ [RepairRec.core (core / 32) (core % 32) (BitVec.ofNat 6 old) r.spare] } }
    let s := { s with trust := { s.trust with coreStatus := coreStatusOf s 2 (core / 32) (coreReq core) } }
    let d := [BitVec.ofNat 8 (core / 32), BitVec.ofNat 8 (core % 32), BitVec.ofNat 8 old, BitVec.ofNat 8 r.spare.toNat]
    let s := bbWrite s 0x1202 0 0 d
    .next (if s.trust.rootUp then postTo s owners 0x0202 d
      else { s with trust := { s.trust with heldPosts := s.trust.heldPosts ++ [(owners, 0x0202, d)] } })

/-! ### Memory rows (R526) -/

/-- A write of MEM_REPAIR. -/
def memRepairWrite (s : State) (a : Nat) : Nat × State := if inDev a 1 then (stOk, offerRow s a) else (stReserved, s)

end Sys2Proof.Machine
end

