-- ==== Sys2Proof/Machine/Spdm.lean ====
section
/-! DEFINITION. The SPDM responder (19 R517, R518). A response is kept as its code and the values that the manual fixes; the framing of SPDM messages, the order in which a requester may send them and the codes are those of the DMTF standard the manual names (log entry 40). -/

namespace Sys2Proof.Machine

/-- Number of a requester. -/
def spdmKey : SpdmPath → Nat
  | .mgmt => 0
  | .mctp h => 1 + h.toNat
  | .doe h => 3 + h.toNat

/-- The latest response. -/
def respond (s : State) (r : List Byte) : State := { s with trust := { s.trust with spdmResp := r } }

/-- An ERROR response: 0x01 InvalidRequest, 0x04 UnexpectedRequest. -/
def spdmError (s : State) (code : Nat) : State := respond s [0x7F, BitVec.ofNat 8 code]

/-- Progress of a requester's negotiation. -/
def spdmStage (s : State) (p : SpdmPath) : Nat := tget 0 s.trust.spdm (spdmKey p)

/-- A requester reaches a stage. -/
def setStage (s : State) (p : SpdmPath) (n : Nat) : State := { s with trust := { s.trust with spdm := tput (spdmKey p) n s.trust.spdm } }

/-- The responder answers: while the root monitor is not running, or over a host port before the IOD leaves reset, there is no response (R20, R521). -/
def answering (s : State) (p : SpdmPath) (act : State → State) : Out :=
  .next (if s.trust.rootUp && (p == .mgmt || s.ticking) then act s else respond s [])

/-- A request that needs a stage. -/
def needStage (p : SpdmPath) (n : Nat) (act : State → State) (s : State) : State :=
  if spdmStage s p < n then spdmError s 4 else act s

/-- The digest of the certificate chain of slot 0. -/
def chainDigest : List Byte := leBytes 32 (Config.sha3 Config.certChain).toNat

/-- GET_VERSION (R517): version 1.3. -/
def execGetVersion (p : SpdmPath) (s : State) : Out :=
  answering s p fun s => respond (setStage s p 1) [0x04, 0x00, 0x13]

/-- GET_CAPABILITIES (R517): certificates, challenge and signed measurements; no key exchange and no session. -/
def execGetCapabilities (p : SpdmPath) (s : State) : Out :=
  answering s p (needStage p 1 fun s => respond (setStage s p (max 2 (spdmStage s p))) [0x61, 0x16, 0x00, 0x00, 0x00])

/-- NEGOTIATE_ALGORITHMS (R517): SHA3-256 and ML-DSA-44, the only ones offered; a requester without them gets an error. -/
def execNegotiateAlgorithms (p : SpdmPath) (offersSha3 offersMldsa : Bool) (s : State) : Out :=
  answering s p (needStage p 2 fun s =>
    if offersSha3 && offersMldsa then respond (setStage s p 3) [0x63, 0x01, 0x01] else spdmError s 1)

/-- GET_DIGESTS (R517): one chain, in slot 0. -/
def execGetDigests (p : SpdmPath) (s : State) : Out :=
  answering s p (needStage p 3 fun s => respond s ([0x01, 0x01] ++ chainDigest))

/-- GET_CERTIFICATE (R516, R517): a part of the chain of slot 0, the bytes given and the bytes that remain. -/
def execGetCertificate (p : SpdmPath) (slot : BitVec 8) (off len : BitVec 16) (s : State) : Out :=
  answering s p (needStage p 3 fun s =>
    if slot != 0 || decide (Config.certChain.length ≤ off.toNat) then spdmError s 1
    else
      let part := (Config.certChain.drop off.toNat).take len.toNat
      respond s ([0x02, 0x00] ++ leBytes 2 part.length ++ leBytes 2 (Config.certChain.length - off.toNat - part.length) ++ part))

/-- A response is followed by the identity key's signature over it and the requester's nonce. -/
def signed (nonce : BitVec 256) (r : List Byte) : List Byte := r ++ Config.mldsaSign (leBytes 32 nonce.toNat ++ r)

/-- CHALLENGE (R517): the chain's digest and a nonce of the responder's, which is open, signed. -/
def execChallenge (p : SpdmPath) (slot : BitVec 8) (nonce : BitVec 256) (s : State) : Out :=
  answering s p (needStage p 3 fun s =>
    if slot != 0 then spdmError s 1
    else
      let (n, s) := drawBytes s 32
      respond s (signed nonce ([0x03, 0x00] ++ chainDigest ++ n)))

/-- The measurements that an index asks for: 0 their number, 0xFF all five, else one (R518). -/
def measured (s : State) (index : Nat) : Option (List Byte) :=
  if index = 0 then some [5]
  else if index = 0xFF then some (5 :: [1, 2, 3, 4, 5].flatMap fun k => BitVec.ofNat 8 k :: measurement s k)
  else if index ≤ 5 then some (1 :: BitVec.ofNat 8 index :: measurement s index)
  else none

/-- GET_MEASUREMENTS (R518): the digests asked for, signed where asked. -/
def execGetMeasurements (p : SpdmPath) (index : BitVec 8) (sign : Bool) (nonce : BitVec 256) (s : State) : Out :=
  answering s p (needStage p 3 fun s =>
    match measured s index.toNat with
    | none => spdmError s 1
    | some m =>
      if sign then
        let (n, s) := drawBytes s 32
        respond s (signed nonce ([0x60, 0x00] ++ m ++ n))
      else respond s ([0x60, 0x00] ++ m))

end Sys2Proof.Machine
end

