-- ==== Sys2Proof/Machine/Power.lean ====
section
/-! DEFINITION. Power, modes, module states, resets and start-up (20): power-on and its boot, LINKED and READY, the input, the governor and the thermal cap, the operating modes, and the resets. -/

namespace Sys2Proof.Machine

/-! ### What a reset keeps (R541) -/

/-- The entries that take their stored values, and the fields that hold such entries; with no readable bank the defaults apply (R482, R489, R492). -/
def applyStore (s : State) : State :=
  let st := storeOf s.dict
  { s with
    homePort := BitVec.ofNat 1 (tget 0 st 0x110001)
    dict := { s.dict with regs := st, storeBad := (activeBank s.dict).isNone }
    trust := { s.trust with rootSlot := BitVec.ofNat 1 (tget 0 st 0x681001), sfSlot := BitVec.ofNat 1 (tget 0 st 0x681002) }
    power := { s.power with mode := BitVec.ofNat 8 (tget 0 st 0x200001), cap := BitVec.ofNat 16 (tget 2800 st 0x200002) } }

/-- The module with everything restarted: fuses, flash, the store and the black box stay, as do the levels at its pins, the model's records of outputs and, in a module reset, what only a power-on clears (R496, R522, R541, R547; log entry 41). -/
def restarted (s : State) (on : Bool) : State :=
  let z := State.reset
  { z with
    pending := s.pending
    ports := s.ports.map fun e => (e.1, { plugged := e.2.plugged })
    hosts := s.hosts.map fun e => (e.1, { perst := e.2.perst })
    hostMem := s.hostMem
    free := s.free
    arrays := if on then [] else s.arrays.filterMap fun e =>
      if e.2.spare = 1 then some (e.1, { latency := e.2.latency, spare := 1, sparedRow := e.2.sparedRow }) else none
    time := { stretchTotal := if on then 0 else s.time.stretchTotal }
    paths := if on then [] else s.paths.map fun e => (e.1, { snap := e.2.snap })
    dict :=
      { bank0 := s.dict.bank0, bank1 := s.dict.bank1, stallReads := s.dict.stallReads, bbHead := s.dict.bbHead, bb := s.dict.bb,
        bbCopyB := s.dict.bbCopyB, powerCycle := s.dict.powerCycle, journal := if on then 0 else s.dict.journal, ctr := if on then [] else s.dict.ctr,
        sticky := if on then [] else s.dict.sticky }
    trust :=
      { rootUp := false, slots := s.trust.slots, record := s.trust.record, flash := s.trust.flash, svnRaised := s.trust.svnRaised, nonces := s.trust.nonces,
        unlocked := if on then false else s.trust.unlocked, unlockSvn := if on then none else s.trust.unlockSvn,
        unlockDigest := if on then 0 else s.trust.unlockDigest }
    power :=
      { inputMv := s.power.inputMv, enableMated := s.power.enableMated, inRange := s.power.inRange, reversedLatch := s.power.reversedLatch,
        tj := s.power.tj, coolant := s.power.coolant, energy := if on then 0 else s.power.energy, throttled := if on then 0 else s.power.throttled, faultLineLow := s.power.faultLineLow } }

/-! ### Boot (R492, R493, R543) -/

/-- Stored claims are made again in ascending order of entry; a second claim on a pin is reset to 0xFF and recorded (R493). -/
def remakeClaims (s : State) : State :=
  (claimants.foldl (fun (acc : State × List Nat) e =>
    let (s, taken) := acc
    let pin := s.reg e.1 e.2
    if pin = 0xFF then (s, taken)
    else if taken.contains pin then
      (bbWrite (persist (s.setReg e.1 e.2 0xFF) e.1 e.2 0xFF) 0x0007 0 0 (leBytes 2 e.1 ++ [BitVec.ofNat 8 e.2, BitVec.ofNat 8 pin]), taken)
    else (s, pin :: taken)) (s, [])).1

/-- The management island starts: the store is read, after a power-on the black box is repaired, the root monitor boots, claims are made again, and a reversed input is reported after a power-on (R492, R503, R514, R560). -/
def boot (s : State) (on : Bool) : State :=
  let s := applyStore (if on then { s with dict := bbRepair s.dict } else s)
  let s := remakeClaims (bootRoot s (if on then 0 else 1))
  let s := if on && s.power.reversedLatch then bbWrite s Config.reversedType.toNat 0 0 [] else s
  { s with power := { s.power with state := .managed } }

/-- POWER_ON (R541, R543, R550): the input rises above 40 V from OFF with ENABLE_RTN connected; its voltage within the working range is open. -/
def execPowerOn (s : State) : Out :=
  if s.power.state ≠ .off || !s.power.enableMated then .next s
  else
    let (v, s) := drawWord (restarted s true)
    let s := { s with
      dict := { s.dict with powerCycle := s.dict.powerCycle + 1 }
      trust := { s.trust with nonces := s.trust.nonces + 1 }
      power := { s.power with inRange := true, switchOpen := false, inputMv := BitVec.ofNat 16 (40001 + v.toNat % 20000) } }
    .next (boot s true)

/-! ### LINKED and READY (R539, R543, R544) -/

/-- Envelope of a mode (R531). -/
def envelopeOf (mode cap : Nat) : Nat :=
  match mode with
  | 0 => 2800
  | 1 => 2300
  | 2 => cap
  | _ => 180

/-- Ticks ratio of a mode's arithmetic clock (R21). -/
def ratioOf (mode : Nat) : Nat := if mode = 1 then 22 else 25

/-- A host port's link: with its PERST# deasserted it comes up, at a rate and width that are open, once the IOD runs; until then it trains (R460, R542). -/
def bringUp (s : State) (h : HPort) : State :=
  let x := s.hport h
  if x.perst then s
  else if s.power.pwrGood && s.ticking then
    let (v, s) := drawWord s
    let rate := 1 + v.toNat % max 1 (min 6 (bits (s.reg 0x1100 3) (8 * h.toNat) 8))
    s.setHport h { x with
      state := 2, rate := BitVec.ofNat 4 rate, width := BitVec.ofNat 5 (2 ^ (bits v.toNat 16 8 % 5)), flit := rate == 6 || v.getLsbD 32, ready := true }
  else s.setHport h { x with state := 1, ready := false }

/-- A physical core of a die that the repair record names as replaced (R16). -/
def replacedCore (s : State) (d p : Nat) : Bool :=
  s.trust.record.any fun r => match r with
    | .core die _ old _ => die == d && old.toNat == p
    | .row _ _ => false

/-- The physical core that the repair record last gave a logical core (R16). -/
def recordedCore (s : State) (d c : Nat) : Option (BitVec 6) :=
  s.trust.record.reverse.findSome? fun r => match r with
    | .core die l _ new => if die == d && l == c then some new else none
    | .row _ _ => none

/-- The map of one die at start-up, from its self-test and the repair record (R16, R17). The manual does not say which physical core a logical number gets: this model's choice (log entry 93) is physical = logical where that core passed and was never replaced, else the spare that the record gives it, else a working spare, 32 before 33, to logical numbers in ascending order; with none it is vacant. -/
def mapDie (failed : List (Die × BitVec 6)) (s : State) (d : Die) : State :=
  let bad := fun (p : Nat) => (failed.any fun e => e.1 == d && e.2.toNat == p) || replacedCore s d.toNat p
  let give := fun (s : State) (c : Nat) (p : BitVec 6) =>
    spendSpare { s with trust := { s.trust with coreMap := tput (32 * d.toNat + c) p s.trust.coreMap } } d.toNat p.toNat
  let s := { s with trust := { s.trust with sparesGone := s.trust.sparesGone.set d.toNat (BitVec.ofNat 2 (bit (bad 32) + 2 * bit (bad 33))) } }
  let kept := fun (c : Nat) => (recordedCore s d.toNat c).filter fun p => !bad p.toNat
  let (old, new) := ((List.range 32).filter bad).partition fun c => (kept c).isSome
  let s := old.foldl (fun s c => give s c ((kept c).getD 32)) s
  new.foldl (fun s c => match freeSpare s d.toNat with
    | some p => give s c (BitVec.ofNat 6 p)
    | none => loseCore s (32 * d.toNat + c)) s

/-- Start-up self-test of one array: a failed row is replaced by the spare row, or takes the array out of service; a failed spare row alone is recorded (R105, R111, R112). -/
def testedArray (s : State) (e : ArrayNum × Option (BitVec 6) × Bool) : State :=
  let a := e.1.toNat
  match e.2.1, e.2.2 with
  | none, true => s
  | none, false => s.setArray a { s.array a with spare := 2 }
  | some r, true => noteRepair (switchRow s a r.toNat) a r.toNat 3 2 true
  | some r, false => offerCore (noteRepair (arrayOut s a) a r.toNat 3 3 true) (a / 4)

/-- LINKED_REACHED (R539, R542, R543): the IOD is powered and the time unit LOCKED; memories and dies come up as their self-tests leave them, p_base is calibrated, host links and torus ports train, and compute service is announced unavailable where it is. -/
def execLinkedReached (pBase : BitVec 16) (devices : BitVec 32) (coresFailed : List (Die × BitVec 6)) (arrays : List (ArrayNum × Option (BitVec 6) × Bool))
    (s : State) : Out :=
  if s.power.state ≠ .managed || !s.trust.rootUp || !s.ticking || s.power.resetHeld then .next s
  else
    let mode := s.power.mode.toNat
    let env := envelopeOf mode s.power.cap.toNat
    let s := enterState { s with power := { s.power with pwrGood := true } } .linked
    let s := { s with
      msys := { s.msys with devices := devices &&& 0x0FFFFFFF }
      power := { s.power with
        tested := true, pBase := pBase, padPower := pBase.toNat, watts := [], envelope := env, envelopeNext := none, ratio := ratioOf mode } }
    let s := [0, 1, 2, 3].foldl (mapDie coresFailed) s
    let s := arrays.foldl testedArray { s with arrays := [] }
    let s := settlePorts (bringUp (bringUp s 0) 1)
    .next (if computeOk s then s else postAll s 0x0304 [BitVec.ofNat 8 (serviceSets s)])

/-- A port's training is over, or it seeks a far end (R544). -/
def settled (x : PortState) : Bool :=
  match x.st with
  | .equalise | .map | .lock | .identify | .retrain => false
  | _ => true

/-- The conditions of R544 that the state shows; that a port in DETECT has seen no signal for 1 s is the event's own. -/
def readyOk (s : State) : Bool :=
  computeOk s && (((List.range 8).map fun n => s.port (BitVec.ofNat 3 n)).all fun x => settled x && !x.mismatched) &&
    ((activePorts s).isEmpty || timeAligned s)

/-- Snowdrop (R532): the compute dies are gated; near memory and the gather caches lose their contents, and the torus ports are DISABLED. -/
def goStandby (s : State) : State :=
  let s := { s with
    mem := s.mem.filter fun c => !inNear c.1 1
    poison := s.poison.filter fun g => !inNear (32 * g) 1
    msys := { s.msys with cache := [] }
    samples := []
    arrays := s.arrays.map fun e => (e.1, { latency := e.2.latency, spare := e.2.spare, sparedRow := e.2.sparedRow, repair := e.2.repair, recorded := e.2.recorded }) }
  settlePorts (enterState s .standby)

/-- READY_CONDITIONS_MET (R539, R544): from LINKED to READY; a job that is loaded already makes it RUNNING, and a stored Snowdrop mode STANDBY. -/
def execReadyConditionsMet (s : State) : Out :=
  if s.power.state ≠ .linked || !readyOk s then .next s
  else
    let s := enterState s .ready
    .next (if !s.jobs.isEmpty then enterState s .running else if s.power.mode = 3 then goStandby s else s)

/-! ### The input (R538, R539, R560) -/

/-- INPUT_LOSS (R539): below 36 V the module is OFF. -/
def execInputLoss (mv : BitVec 16) (s : State) : Out :=
  if 36000 ≤ mv.toNat then .next s
  else
    let s := restarted s true
    .next { s with power := { s.power with state := .off, inputMv := mv, inRange := false } }

/-- INPUT_OUT_OF_RANGE (R538, R546, R560): outside 40 to 60 V for 100 us every job is aborted, INPUT_FAULT posted, and the module enters FAULTED, once the root monitor is back if it is being reset. -/
def execInputOutOfRange (mv : BitVec 16) (s : State) : Out :=
  let v := mv.toNat
  if (40000 ≤ v ∧ v ≤ 60000) ∨ s.power.state = .off then .next s
  else
    let s := { s with power := { s.power with
      inputMv := mv, inRange := false, overvolt := s.power.overvolt || decide (60000 < v), undervolt := s.power.undervolt || decide (v < 40000) } }
    let s := (s.jobs.map (·.1)).foldl (fun s j => abortJob s j) s
    let s := postAll s 0x0302 (leBytes 2 v)
    .next (if s.trust.rootUp then enterFaulted s 2 else { s with power := { s.power with faultHeld := true } })

/-- OVERVOLTAGE_CUT (R560): at 68 V the input switch opens. -/
def execOvervoltageCut (s : State) : Out :=
  if s.power.state = .off then .next s else .next { s with power := { s.power with switchOpen := true, overvolt := true } }

/-- POWER_STAGE_FAULT (R539, R547). -/
def execPowerStageFault (s : State) : Out := .next (enterFaulted s 3)

/-- INPUT_REVERSED (R560): blocked by the input switch; the protection controller's latch keeps it. -/
def execInputReversed (s : State) : Out := .next { s with power := { s.power with reversedLatch := true } }

/-! ### The governor (R533 to R536) -/

/-- The governor's scale: 20 (256 - s[b - 1]) to the watt, in which every quantity of R535 is exact. -/
def scaled (sp : Nat) : Nat := 20 * (256 - sp)

/-- est(x) on the scale, for a measured power, p_base and the s it was measured at (R535). -/
def estOf (pb meas sp x : Nat) : Int := ((20 * (pb * (256 - sp) + (meas - pb) * (256 - x)) : Nat) : Int)

/-- The smallest x from 0 to 240 with est(x) within a target, else 240. -/
def pickS (pb meas sp : Nat) (target : Int) : Nat := ((List.range 241).find? fun x => decide (estOf pb meas sp x ≤ target)).getD 240

/-- allow on the scale (R535): the window's budget less the beats counted and est(s[b]), which is the envelope itself while the window restarts. -/
def allowOf (s : State) (meas : Nat) (watts : List Nat) : Int :=
  let p := s.power
  let sum := watts.foldl (· + ·) 0 + p.padPower * (3904 - watts.length)
  let now : Int := if p.restart = 2 then ((p.envelope * scaled p.sPrev : Nat) : Int) else estOf p.pBase.toNat meas p.sPrev p.s
  ((p.envelope * 3906 : Nat) - (sum : Nat) : Int) * ((scaled p.sPrev : Nat) : Int) - now

/-- The thermal cap in force, in 1/20 W (R537). -/
def capNow (s : State) : Nat := s.power.thermalCap.getD (20 * s.power.envelope)

/-- GOVERNOR_UPDATE (R535, R536): at slot 240 the beat power measured last enters the window and its records, and s of the next beat is chosen; POWER_WINDOW once an epoch where the window alone forces 240. -/
def execGovernorUpdate (watts : BitVec 16) (s : State) : Out :=
  if !s.ticking || decide (240 < s.slot) || s.power.governed then .next s
  else
    let s := atSlot s 240
    let p := s.power
    let meas := watts.toNat
    let list := if p.restart = 0 then (meas :: p.watts).take 3904 else []
    let allow := allowOf s meas list
    let others : Int := ((min (20 * 3300) (capNow s) * (256 - p.sPrev) : Nat) : Int)
    let pick := pickS p.pBase.toNat meas p.sPrev
    let next := max (pick (min others allow)) (p.s - 16)
    let forced := pick allow == 240 && pick others != 240 && !p.windowPosted
    let s := { s with power := { p with
      sNext := next, governed := true, watts := list, restart := p.restart - 1, windowPosted := p.windowPosted || forced,
      epochW := p.epochW + meas, energy := p.energy + meas, peakW := if p.peakW.toNat < meas then watts else p.peakW } }
    .next (if forced then postAll s 0x0305 (leBytes 2 p.envelope) else s)

/-! ### Temperature (R537) -/

/-- The warning threshold, 0x2030:03. -/
def warnC (s : State) : Nat := s.reg 0x2030 3

/-- TEMPERATURE_REPORT (R537): the dies' and the coolant's temperatures; THERMAL_WARN once when a die reaches the threshold. -/
def execTemperatureReport (tj : List (BitVec 8)) (coolant : BitVec 8) (s : State) : Out :=
  let t := warnC s
  let cool := tj.all fun c => decide (c.toNat + 3 ≤ t)
  let s := { s with power := { s.power with
    tj := tj, coolant := coolant, coolSince := if cool then some (s.power.coolSince.getD s.time.tick) else none } }
  match (tj.zip (List.range 5)).find? fun e => decide (t ≤ e.1.toNat) with
  | some (c, d) =>
    if s.power.warm then .next s
    else .next (postAll { s with power := { s.power with warm := true } } 0x0300 [BitVec.ofNat 8 d, c])
  | none => .next s

/-- THERMAL_CAP_STEP (R537): each millisecond the cap falls by 5 % of the envelope while a die is warm, and rises back to the envelope once every die has been cool for 1 ms. -/
def execThermalCapStep (s : State) : Out :=
  let p := s.power
  if p.tj.any fun c => decide (warnC s ≤ c.toNat) then .next { s with power := { p with thermalCap := some (capNow s - p.envelope) } }
  else match p.coolSince with
    | some t =>
      if (s.time.tick - t).toNat < 100000 then .next s
      else
        let c := capNow s + p.envelope
        .next { s with power := { p with warm := false, thermalCap := if 20 * p.envelope ≤ c then none else some c } }
    | none => .next s

/-- THERMAL_COMPARATOR_TRIP (R537, R548): at 108 degrees the compute dies are gated and the module is FAULTED. -/
def execThermalComparatorTrip (d : Die) (celsius : BitVec 8) (s : State) : Out :=
  if s.power.state = .off then .next s
  else .next (enterFaulted (postAll s 0x0301 [BitVec.ofNat 8 d.toNat, celsius]) 1)

/-! ### Modes (R531, R532) -/

/-- The envelope of the mode set takes effect at the next beat boundary. -/
def newEnvelope (s : State) : State :=
  { s with power := { s.power with envelopeNext := some (envelopeOf s.power.mode.toNat s.power.cap.toNat) } }

/-- A write of MODE. -/
def modeWrite (s : State) (m : Nat) : Nat × State :=
  let cur := s.power.mode.toNat
  if 3 < m then (stReserved, s)
  else if m = cur then (stOk, s)
  else if ((m == 1 || cur == 1) && !s.jobs.isEmpty) || (m == 3 && s.power.state != .ready) then (stHeld, s)
  else
    let s := newEnvelope { s with power := { s.power with mode := BitVec.ofNat 8 m } }
    if m = 3 then (stOk, goStandby s)
    else if cur = 3 then
      let s := { s with power := { s.power with ratio := ratioOf m, relock := false } }
      (stOk, if s.power.state = .standby then settlePorts (enterState s .ready) else s)
    else if m = 1 ∨ cur = 1 then (stOk, { s with power := { s.power with relock := true } })
    else (stOk, s)

/-- ARITH_PLL_RELOCK (R532): the gated arithmetic clock runs again at the mode's rate. -/
def execArithPllRelock (s : State) : Out :=
  if s.power.relock then .next { s with power := { s.power with relock := false, ratio := ratioOf s.power.mode.toNat } } else .next s

/-- A write of LAVENDER_CAP. -/
def capWrite (s : State) (w : Nat) : Nat × State :=
  if w < 1200 ∨ 2800 < w then (stReserved, s)
  else
    let s := { s with power := { s.power with cap := BitVec.ofNat 16 w } }
    (stOk, if s.power.mode = 2 then newEnvelope s else s)

/-- A write of DRAIN_REQUEST: 1 in RUNNING drains; it stays set until the last job ends (R539). -/
def drainWrite (s : State) (v : Nat) : Nat × State :=
  (stOk, if v = 1 ∧ s.power.state = .running then enterState { s with power := { s.power with drain := true } } .draining else s)

/-! ### Resets (R541) -/

/-- Every function that exists is aborted at once. -/
def abortAll (s : State) : State := ((List.range 128).filter (functionExists s)).foldl abortFunctionNow s

/-- A module reset: after the abort of every function everything restarts; while RESET# is held low nothing runs and PWR_GOOD is low (R554). -/
def resetModule (s : State) (pin : Bool) : State :=
  let s := restarted (abortAll s) false
  if pin then { s with power := { s.power with state := .managed, resetHeld := true } } else boot s false

/-- A write of RESET_REQUEST. -/
def resetWrite (s : State) (v : Nat) : Nat × State :=
  if v = 0x0A5A then (stOk, resetModule s false)
  else if v = 0x0A5B then (stOk, mgmtReset s)
  else (stReserved, s)

/-- RESET_RELEASE (R543, R554): start-up runs from the release. -/
def execResetRelease (s : State) : Out :=
  if s.power.resetHeld then .next (boot { s with power := { s.power with resetHeld := false } } false) else .next s

/-- A function after FLR or its port's reset: LEVEL and EVENT_READ are 0, and its PCI Express controls have their own reset values (R467, log entry 14). -/
def resetFunction (s : State) (f : Nat) : State :=
  let x := s.func f
  s.setFunc f { x with
    levelHost := 0, agreed := 0, eventRead := 0, msixEnabled := false, msixMask := BitVec.allOnes 2048, msixPending := 0,
    atomicEnable := false, ats := [], atsInval := [], priAlloc := 0, evWait := [] }

/-- FUNCTION_LEVEL_RESET (R379, R541). -/
def execFunctionLevelReset (f : Func) (s : State) : Out :=
  .next (if functionExists s f.toNat then resetFunction (abortFunctionNow s f.toNat) f.toNat else s)

/-- Functions of a port that exist. -/
def portFunctions (s : State) (h : HPort) : List Nat := (rangeFrom (64 * h.toNat) 64).filter (functionExists s)

/-- PORT_RESET (R379, R476, R541): the port's functions are aborted and reset; PERST# holds the port in reset, a hot reset trains it again, a link-down leaves it down. -/
def execPortReset (h : HPort) (kind : PortResetKind) (s : State) : Out :=
  let fs := portFunctions s h
  let s := fs.foldl (fun s f => resizeBar2 38 (resetFunction (abortFunctionNow s f) f) f) s
  let x : HostPort := { perst := (s.hport h).perst }
  match kind with
  | .perst => .next (s.setHport h { x with perst := true })
  | .linkDown => .next (s.setHport h x)
  | .hotReset => .next (bringUp (s.setHport h x) h)

/-- PERST_DEASSERT (R542): the port trains, and answers configuration requests once it is ready. -/
def execPerstDeassert (h : HPort) (s : State) : Out :=
  .next (bringUp (s.setHport h { s.hport h with perst := false }) h)

end Sys2Proof.Machine
end

