-- ==== Sys2Proof/Machine/Pins.lean ====
section
/-! DEFINITION. The sideband pins and the torus supply (21 R554, R560 to R563). -/

namespace Sys2Proof.Machine

/-- The module drives a GPIO pin: an output claimant of R493 holds it, and it is not released. -/
def gpioDriven (s : State) (n : Nat) : Bool := (s.reg 0x3010 1 == n || s.reg 0x2E00 1 == n) && !s.power.gpioShort.getLsbD n

/-- The level that the module drives on a GPIO pin, none where it drives none (R493, R494): BEAT_SYNC high for the first 16 ticks of each beat, or of each epoch; FAULT_GPIO low while a fault event is unacknowledged. -/
def gpioLevel (s : State) (n : Nat) : Option Bool :=
  if !gpioDriven s n then none
  else if s.reg 0x3010 1 = n then
    some (decide (s.slot < 16) && (s.reg 0x3010 2 == 0 || s.beat.toNat % 65536 == 0))
  else some s.dict.faults.isEmpty

/-- SIDEBAND_MISMATCH_COUNT (R561, R562): a driven pin has mismatched for 64 ticks of a window; a GPIO pin is released, the others are marked, and SIDEBAND_SHORT is posted. -/
def execSidebandMismatchCount (pin : BitVec 5) (s : State) : Out :=
  let n := pin.toNat
  let post := fun (s : State) => postAll s 0x0306 [BitVec.ofNat 8 n]
  if s.power.state = .off then .next s
  else if 15 ≤ n ∧ n ≤ 18 then
    if gpioDriven s (n - 15) then
      .next (post { s with power := { s.power with gpioShort := s.power.gpioShort ||| BitVec.ofNat 4 (2 ^ (n - 15)) } })
    else .next s
  else if n = 13 then .next (post { s with power := { s.power with pwrGoodMismatch := true } })
  else if n = 14 ∧ faultLine s then .next (post { s with power := { s.power with faultLineHigh := true } })
  else .next s

/-- A write of INPUT_PROTECT: ones clear the sticky bits. -/
def protectWrite (s : State) (v : Nat) : Nat × State :=
  let p := s.power
  (stOk, { s with power := { p with
    reversedLatch := p.reversedLatch && !v.testBit 7, overvolt := p.overvolt && !v.testBit 6, undervolt := p.undervolt && !v.testBit 5 } })

/-- A write of SIDEBAND_STATUS: ones in GPIO_SHORT drive the pins again, ones in bits 6 and 5 clear them. -/
def sidebandWrite (s : State) (v : Nat) : Nat × State :=
  let p := s.power
  (stOk, { s with power := { p with
    gpioShort := p.gpioShort &&& ~~~(BitVec.ofNat 4 (bits v 8 4)), faultLineHigh := p.faultLineHigh && !v.testBit 6,
    pwrGoodMismatch := p.pwrGoodMismatch && !v.testBit 5 } })

/-- A write of TORUS_SUPPLY: ones restore cut supplies, and the ports may train again. -/
def supplyWrite (s : State) (v : Nat) : Nat × State :=
  let ps := (List.range 8).filter v.testBit
  (stOk, settlePorts (ps.foldl (fun s n =>
    let p : Port := BitVec.ofNat 3 n
    s.setPort p { s.port p with supplyCut := false }) s))

end Sys2Proof.Machine
end

