-- ==== Sys2Proof/Machine/DictServer.lean ====
section
/-! DEFINITION. The dictionary server (18 R485 to R490): the refusals of R488 in their order, READ with its snapshot, WRITE with each entry's action and the persistent store, INFO, and the registers of BAR0 and of PCI Express configuration. A response is kept in its path. -/

namespace Sys2Proof.Machine

/-! ### The checks of R488 -/

/-- What the root monitor serves by itself (R490). -/
def rootServes (write : Bool) (index : Nat) : Bool :=
  (decide (0x6800 ≤ index) && decide (index < 0x7000)) ||
    (!write && ((decide (0x1000 ≤ index) && decide (index < 0x1100)) || index == 0x1200 || index == 0x8000))

/-- The server serves a request of a path (R490, R514, R521). A path over a host port leads through the IOD, which is held in reset until TIME_REF has locked (R20, R542), and a window belongs to a function that exists (R462): else its requests are recorded as not served (log entry 92). -/
def served (s : State) (p : Path) (write : Bool) (index : Nat) : Bool :=
  if s.power.state = .off ∨ s.power.resetHeld then false
  else if (match p with
    | .mgmt => false
    | .mctp _ => !s.ticking
    | .window f => !hostOpen s f.toNat) then false
  else if s.trust.recovery then p == .mgmt && (if write then index == 0x6820 else index == 0x1000)
  else s.trust.rootUp && (s.trust.sfUp || rootServes write index)

/-- An entry that is there and not hidden from the path (R309, R384, R488). -/
def visible (p : Path) (index sub : Nat) : Option Entry :=
  let hid := (index == 0x4020 || index == 0x6020) && sub != 0 &&
    match pathFunc p with
    | some f => sub != f + 1
    | none => false
  if hid then none else findEntry index sub

/-- A job is loaded on the module, or is being loaded (R401, R454, R481). -/
def jobLoaded (s : State) : Bool := s.load.isSome || s.redJobs.any fun e => e.2.1 == .loaded || e.2.1 == .draining

/-- The paths on which the root monitor accepts a request (R510). -/
def rootPath (s : State) : Path → Bool
  | .mgmt => true
  | .mctp h => h.toNat == s.reg 0x1100 1
  | .window _ => false

/-- The refusal of a write by its access right, or OK (R481). -/
def writeRight (s : State) (p : Path) (a : Access) : Nat :=
  match a with
  | .ro => stCmdInvalid
  | .rwl => if jobLoaded s then stHeld else stOk
  | .rws => if rootPath s p then stOk else stCmdInvalid
  | .rw | .wo => stOk

/-- Length and offset of a write: the whole value at offset 0, a piece of TRACE_QUEUES (R488), or up to 64 pairs of POOL_RANGES (R309). -/
def writeShape (e : Entry) (sub off len : Nat) : Bool :=
  if e.index = 0x7E00 ∧ sub = 3 then off % 4 == 0 && decide (1 ≤ len) && decide (len ≤ 1024) && decide (off + len ≤ 4096)
  else if e.index = 0x4040 ∧ sub = 6 then off == 0 && len % 16 == 0 && decide (len ≤ 1024)
  else off == 0 && len == e.type.size

/-- The range of an entry that has no action of its own. -/
def rangeOk (index sub v : Nat) : Bool :=
  match 256 * index + sub with
  | 0x110001 => decide (v ≤ 1)
  | 0x110003 => bytesOk 2 v fun b => decide (1 ≤ b) && decide (b ≤ 6)
  | 0x120002 => decide (8 ≤ v) && decide (v ≤ 0x77)
  | 0x203003 => decide (85 ≤ v) && decide (v ≤ 104)
  | 0x301002 => decide (v ≤ 1)
  | 0x340005 => bytesOk 8 v fun b => decide (b ≤ 2)
  | 0x340007 => decide (16 ≤ v) && decide (v ≤ 4096)
  | 0x340008 => decide (1 ≤ v)
  | 0x403003 => decide (1 ≤ v)
  | 0x403005 => decide (1 ≤ v)
  | 0x404005 => decide (v ≤ 15)
  | 0x482003 => decide (v ≤ 1)
  | 0x501006 => decide (1 ≤ v)
  | 0x502001 => decide (v ≤ 4095)
  | 0x503001 => decide (v ≤ 16)
  | 0x504001 => decide (v ≤ 1)
  | 0x584002 => decide (v ≤ 2)
  | 0x584003 => decide (v ≤ 2)
  | 0x584004 => decide (v ≤ 16)
  | 0x603001 => decide (65536 ≤ v)
  | 0x684003 => decide (v ≤ 1)
  | 0x684005 => decide (v ≤ 1)
  | 0x700001 => bits v 48 8 == 0
  | _ => true

/-! ### Actions of writes -/

/-- A write of APERTURE_BASE: the elements that the path reaches must fit their functions' BAR2 (R469, R477). -/
def apertureWrite (s : State) (p : Path) (d : List Byte) : Nat × State :=
  let fs := match pathFunc p with
    | some f => [f]
    | none => List.range 128
  if fs.all fun f => baseOk (byteField d (8 * f) 8) (s.func f).bar2Log2.toNat then
    (stOk, fs.foldl (fun s f => s.setFunc f { s.func f with aperture := BitVec.ofNat 64 (byteField d (8 * f) 8) }) s)
  else (stReserved, s)

/-- A write of MANAGED_EN (R299). -/
def managedWrite (s : State) (v : Nat) : Nat × State :=
  if 1 < v then (stReserved, s)
  else
    (stOk, if v = s.reg 0x4040 1 then s else takePool (s.setReg 0x4040 1 v))

/-- A write of POOL_RANGES: up to 64 pairs of base and length, each 2 MiB aligned (R309). -/
def poolWrite (s : State) (v len : Nat) : Nat × State :=
  if !(List.range 128).all (fun k => bits v (64 * k) 21 == 0) then (stReserved, s)
  else
    let t := s.setReg 0x4040 6 v
    (stOk, takePool { t with msys := { t.msys with poolLen := len } })

/-- A write of SYNC_STATUS: ones clear SLIP and HOLDOVER_SEEN (R53). -/
def syncStatusWrite (s : State) (v : Nat) : Nat × State :=
  (stOk, { s with time := { s.time with slip := s.time.slip && !v.testBit 4, holdSeen := s.time.holdSeen && !v.testBit 2 } })

/-- A write of SAT_STICKY: ones clear flags of the job selected with a per-step class (R500). -/
def stickyWrite (s : State) (p : Path) (v : Nat) : Nat × State :=
  let (cls, inst, _) := cntSelect s p
  if 2 ≤ cls ∧ cls ≤ 4 ∧ (inst = 0 ∨ (s.job? inst).isSome) then
    let x : BitVec 32 := BitVec.ofNat 32 (tget 0 s.dict.sticky inst)
    (stOk, { s with dict := { s.dict with sticky := tput inst (x &&& ~~~(BitVec.ofNat 32 v)).toNat s.dict.sticky } })
  else (stCmdInvalid, s)

/-- A write of RESTORE_DEFAULTS (R489). -/
def restoreWrite (s : State) (v : Nat) : Nat × State :=
  if v ≠ 0x0D5F then (stReserved, s)
  else if jobLoaded s then (stHeld, s)
  else (stOk, emptyStore s)

/-- A write of TRACE_TRIGGER (R501). -/
def triggerWrite (s : State) (v : Nat) : Nat × State :=
  if 1 < v then (stReserved, s) else (stOk, if v = 1 then triggerTrace s else s)

/-- A write of a BOOL. -/
def boolWrite (v : Nat) (s : State) (act : Nat × State) : Nat × State := if 1 < v then (stReserved, s) else act

/-- A piece of TRACE_QUEUES takes effect when it is answered (R488). -/
def traceQueuesWrite (s : State) (off : Nat) (d : List Byte) : Nat × State :=
  let v := s.reg 0x7E00 3
  let keep := v - bits v (8 * off) (8 * d.length) * 2 ^ (8 * off)
  (stOk, s.setReg 0x7E00 3 (keep + leNat d * 2 ^ (8 * off)))

/-- A write of FW_COMMIT_ACTIVATE. -/
def commitActivateWrite (s : State) (v : Nat) : Nat × State :=
  if v = 1 then fwCommitWrite s else if v = 2 then fwActivateWrite s else (stReserved, s)

/-- Actions of entries below 0x4000. -/
def lowAction (s : State) (p : Path) (index sub v : Nat) (d : List Byte) : Option (Nat × State) :=
  match 256 * index + sub with
  | 0x110005 => some (assignWrite s p d)
  | 0x110007 => some (apertureWrite s p d)
  | 0x120004 => some (restoreWrite s v)
  | 0x200001 => some (modeWrite s v)
  | 0x200002 => some (capWrite s v)
  | 0x201002 => some (boolWrite v s (drainWrite s v))
  | 0x201003 => some (resetWrite s v)
  | 0x204001 => some (protectWrite s v)
  | 0x204002 => some (sidebandWrite s v)
  | 0x204003 => some (supplyWrite s v)
  | 0x2E0002 => some (faultAckWrite s v)
  | 0x300005 => some (stOk, { s with time := { s.time with nextEpoch := BitVec.ofNat 32 v, epochWritten := true } })
  | 0x300007 => some (syncStatusWrite s v)
  | 0x340002 => some (coordEntryWrite s v)
  | 0x340003 => some (axisEntryWrite s v)
  | 0x340004 => some (portEnableEntryWrite s v)
  | _ => none

/-- Actions of entries from 0x4000 on. -/
def highAction (s : State) (p : Path) (index sub off v : Nat) (d : List Byte) : Option (Nat × State) :=
  match 256 * index + sub with
  | 0x402101 => some (invalWrite s p d)
  | 0x404001 => some (managedWrite s v)
  | 0x404006 => some (poolWrite s v d.length)
  | 0x406002 => some (descCreate s p d)
  | 0x406003 => some (descDestroy s p d)
  | 0x482001 => some (repairWrite s v)
  | 0x502002 => some (recipeEntryWrite s p v)
  | 0x502004 => some (thresholdWrite s p v)
  | 0x502007 => some (crimalWrite s p v)
  | 0x600004 => some (queueCreateWrite s p d)
  | 0x600005 => some (queueControl s p v)
  | 0x601002 => some (semCreateWrite s p d)
  | 0x601003 => some (semDestroyWrite s p v)
  | 0x604001 => some (jobAbortWrite s p v)
  | 0x604002 => some (functionAbortWrite s p v)
  | 0x605801 => some (loadRequestWrite s p d)
  | 0x680003 => some (svnRaiseWrite s v)
  | 0x682001 => some (fwTargetWrite s v)
  | 0x682002 => some (fwChunkWrite s d)
  | 0x682003 => some (commitActivateWrite s v)
  | 0x684001 => some (coreReplaceWrite s v)
  | 0x684004 => some (memRepairWrite s v)
  | 0x700004 => some (stickyWrite s p v)
  | 0x7E0001 => some (boolWrite v s (traceEnWrite s v))
  | 0x7E0003 => some (traceQueuesWrite s off d)
  | 0x7E0006 => some (triggerWrite s v)
  | _ =>
    if index = 0x4020 then some (rootWrite s (sub - 1) v)
    else if index = 0x6020 then some (eventRingWrite s (sub - 1) d)
    else none

/-- A path's own copy of a selector (R483). -/
def selectWrite (s : State) (p : Path) (index sub v : Nat) : State :=
  let x := s.path p
  s.setPath p { x with sel := tput (256 * index + sub) v x.sel }

/-- The effect of a write that passed the checks 1 to 5: its status, the data of its response, and the new state. -/
def writeEffect (s : State) (p : Path) (index sub off : Nat) (d : List Byte) : Nat × List Byte × State :=
  let v := leNat d
  if claimants.contains (index, sub) then claimWrite s index sub v
  else match (if index < 0x4000 then lowAction s p index sub v d else highAction s p index sub off v d) with
    | some (st, t) => (st, [], t)
    | none =>
      if !rangeOk index sub v then (stReserved, [], s)
      else if isSelector index sub then (stOk, [], selectWrite s p index sub v)
      else (stOk, [], s.setReg index sub v)

/-- The status of checks 1 to 5 of a write, or OK. -/
def writeCheck (s : State) (p : Path) (index sub off len : Nat) : Nat :=
  if !served s p true index then stOffline
  else match visible p index sub with
    | none => stCmdInvalid
    | some e =>
      if (match pathFunc p with | some f => (s.func f).agreed == 0 | none => false) then stLevel
      else if writeRight s p e.acc != stOk then writeRight s p e.acc
      else if !writeShape e sub off len then stCmdInvalid
      else stOk

/-- The value is written to the persistent store (R491). -/
def keepWrite (s : State) (index sub v : Nat) : State :=
  match findEntry index sub with
  | some e => if e.pers then persist s index sub v else s
  | none => s

/-- A path's response. -/
def answer (s : State) (p : Path) (st : Nat) (d : List Byte) : State :=
  let x := s.path p
  s.setPath p { x with resp := BitVec.ofNat 16 st, respData := d }

/-- A WRITE request (R488): refused with nothing changed but the response; left in progress; or carried out, and stored where the entry is persistent. -/
def writeEntry (s : State) (p : Path) (index sub off : Nat) (d : List Byte) : State :=
  let c := writeCheck s p index sub off d.length
  if c != stOk then answer s p c []
  else
    let (st, r, t) := writeEffect s p index sub off d
    if st = stWait then t else answer (if st = stOk then keepWrite t index sub (leNat d) else t) p st r

/-! ### READ and INFO (R486 to R488) -/

/-- Whether a type is a single value. -/
def DType.scalar : DType → Bool
  | .str _ | .blob _ | .arr _ _ => false
  | _ => true

/-- Bytes that one READ of a path may ask for (R486, R487). -/
def readLimit : Path → Nat
  | .window _ => 61440
  | _ => 1024

/-- What taking a value does besides (R52, R497, R547; log entry 8). -/
def readEffect (s : State) (p : Path) (index sub : Nat) : State :=
  match 256 * index + sub with
  | 0x300002 => let x := s.path p; s.setPath p { x with snap := some (s.time.tick, s.beat, s.schedBeat) }
  | 0x202003 => { s with power := { s.power with peakW := 0 } }
  | 0x700002 | 0x700003 => { s with dict := { s.dict with stallReads := s.dict.stallReads + 1 } }
  | 0x800003 => if bbServedFromB s p && s.dict.bbFromB != 0xFFFF then { s with dict := { s.dict with bbFromB := s.dict.bbFromB + 1 } } else s
  | _ => s

/-- The value that a READ returns from: the path's snapshot of this entry, or a new one. -/
def readValue (s : State) (p : Path) (e : Entry) (sub off : Nat) : Except Nat (List Byte × State) :=
  let key := 256 * e.index + sub
  match (if off = 0 then none else (s.path p).readSnap.filter fun r => r.1 == key) with
  | some (_, v) => .ok (v, s)
  | none =>
    match entryBytes s p e sub with
    | .error st => .error st
    | .ok v =>
      let t := readEffect s p e.index sub
      let x := t.path p
      .ok (v, t.setPath p { x with readSnap := some (key, v) })

/-- Length and offset of a READ suit the entry's value. -/
def readShape (p : Path) (e : Entry) (sub off len : Nat) (v : List Byte) : Bool :=
  let n := entrySize e sub v
  if e.type.scalar then off == 0 && len == n else decide (off + len ≤ n) && decide (len ≤ readLimit p)

/-- A READ request (R488). -/
def readEntry (s : State) (p : Path) (index sub off len : Nat) : State :=
  if !served s p false index then answer s p stOffline []
  else match visible p index sub with
    | none => answer s p stCmdInvalid []
    | some e =>
      if e.acc = .wo then answer s p stCmdInvalid []
      else match readValue s p e sub off with
        | .error st => answer s p st []
        | .ok (v, t) => if readShape p e sub off len v then answer t p stOk (sliceBytes v off len) else answer s p stCmdInvalid []

/-- The 16 bytes of INFO (R486). -/
def infoBytes (s : State) (p : Path) (e : Entry) (sub : Nat) : List Byte :=
  let (elem, n) := match e.type with
    | .arr t k => (t.code, k)
    | _ => (0, 0)
  let size := match entryBytes s p e sub with
    | .ok v => entrySize e sub v
    | .error _ => e.type.size
  [BitVec.ofNat 8 e.type.code, BitVec.ofNat 8 elem, BitVec.ofNat 8 e.acc.code, BitVec.ofNat 8 (bit e.pers + 2 * bit e.live), 0, 0, 0, 0] ++
    leBytes 4 size ++ leBytes 4 n

/-- An INFO request. -/
def infoEntry (s : State) (p : Path) (index sub : Nat) : State :=
  if !served s p false index || !s.trust.sfUp then answer s p stOffline []
  else match visible p index sub with
    | none => answer s p stCmdInvalid []
    | some e => answer s p stOk (infoBytes s p e sub)

/-! ### The BAR0 window (R487) -/

/-- A write of CMD starts the request that OFFSET, LEN and DATA hold; what a READ returns is put into DATA. While BUSY it is dropped. -/
def windowCmd (s : State) (f : Func) (v : Nat) : State :=
  let p := Path.window f
  let x := s.path p
  let index := bits v 16 16
  let sub := bits v 8 8
  let len := x.winLen.toNat
  let padded := x.winData ++ List.replicate (61440 - x.winData.length) 0
  let fill (t : State) : State :=
    let y := t.path p
    t.setPath p { y with winData := y.respData ++ padded.drop y.respData.length }
  if x.descWait.isSome then s
  else if bits v 4 4 ≠ 0 then answer s p stReserved []
  else match bits v 0 4 with
    | 1 => fill (readEntry s p index sub x.winOff.toNat len)
    | 2 => if 1024 < len then answer s p stCmdInvalid [] else writeEntry s p index sub x.winOff.toNat (padded.take len)
    | 3 => fill (infoEntry s p index sub)
    | _ => answer s p stCmdInvalid []

/-- A 4-byte write at an offset of the window. -/
def windowWord (s : State) (f : Func) (off v : Nat) : State :=
  let p := Path.window f
  let x := s.path p
  match off with
  | 0 => windowCmd s f v
  | 8 => s.setPath p { x with winOff := BitVec.ofNat 32 v }
  | 0xC => s.setPath p { x with winLen := BitVec.ofNat 32 v }
  | _ =>
    if off < 0x1000 ∨ 0x10000 < off + 4 then s
    else
      let o := off - 0x1000
      let d := x.winData ++ List.replicate (o - x.winData.length) 0
      s.setPath p { x with winData := d.take o ++ leBytes 4 v ++ d.drop (o + 4) }

/-! ### BAR0 and configuration registers (R462, R464, R466, R467) -/

/-- A 4-byte write of the MSI-X table: an address or data word, or the mask bit of a vector. -/
def msixWord (s : State) (f off v : Nat) : State :=
  let k := off / 16
  if off % 16 = 12 then (if v.testBit 0 then maskVector s f k else unmaskVector s f k)
  else
    let x := s.func f
    s.setFunc f { x with msixTable := tput (4 * k + off % 16 / 4) (BitVec.ofNat 32 v) x.msixTable }

/-- A write of 4 or 8 bytes as words. -/
def words (size : Nat) (v : BitVec 64) (act : State → Nat → Nat → State) (s : State) (off : Nat) : State :=
  let s := if size = 4 ∨ size = 8 then act s off (bits v.toNat 0 32) else s
  if size = 8 then act s (off + 4) (bits v.toNat 32 32) else s

/-- A function register (R467). -/
def functionWord (f : Nat) (s : State) (off v : Nat) : State :=
  match off with
  | 0x08 => levelSet s f v
  | 0x18 => s.setFunc f { s.func f with eventRead := BitVec.ofNat 32 v }
  | _ => s

/-- A write of BAR0 at an offset (R20, R466). -/
def bar0Write (f : Func) (off size : Nat) (v : BitVec 64) (s : State) : Out :=
  let g := f.toNat
  if off % 4 ≠ 0 ∨ !hostOpen s g then .next s
  else if off < 0x10000 then .next (words size v (functionWord g) s off)
  else if off < 0x20000 then .next (words size v (fun s o w => windowWord s f o w) s (off - 0x10000))
  else if 0x100000 ≤ off ∧ off < 0x140000 then
    if off % 8 = 0 then execDoorbellWrite f (BitVec.ofNat 15 ((off - 0x100000) / 8)) size v s else .next (bump s 0x0B g 5 1)
  else if 0x200000 ≤ off ∧ off < 0x300000 then
    let n := BitVec.ofNat 16 ((off - 0x200000) / 16)
    match off % 16 with
    | 0 => execSemWindowSet f n size v s
    | 8 => execSemWindowAdd f n size v s
    | _ => execSemWindowSet f n 4 v s
  else if 0x300000 ≤ off ∧ off < 0x308000 then .next (words size v (fun s o w => msixWord s g o w) s (off - 0x300000))
  else .next s

/-- A word of 4 bytes of the dictionary window (R487): CMD is write-only; BUSY while the path's request has not been answered. -/
def windowRead (s : State) (f : Func) (off : Nat) : Nat :=
  let x := s.path (.window f)
  let busy := x.descWait.isSome
  match off with
  | 0x08 => x.winOff.toNat
  | 0x0C => x.winLen.toNat
  | 0x10 => (if busy then 2 ^ 31 else 0) + x.resp.toNat
  | _ => if 0x1000 ≤ off then leNat ((x.winData.drop (off - 0x1000)).take 4) else 0

/-- What a read of a word of 4 bytes of a function's BAR0 returns (R464, R466, R467, R487); the semaphore window's is semWindowRead. The table has no row for it (log entry 55). -/
def bar0Read (s : State) (f : Func) (off : Nat) : Nat :=
  let g := f.toNat
  let x := s.func g
  if off < 0x10000 then match off with
    | 0x00 => g
    | 0x08 => x.agreed.toNat * 256 + x.levelHost.toNat
    | 0x10 => s.counter 0x0B g 5 % 2 ^ 32
    | 0x14 => s.counter 0x0B g 4 % 2 ^ 32
    | 0x18 => x.eventRead.toNat
    | _ => 0
  else if off < 0x20000 then windowRead s f (off - 0x10000)
  else if 0x200000 ≤ off ∧ off < 0x300000 then
    let v := semWindowRead s g ((off - 0x200000) / 16)
    if off % 8 = 0 then bits v.toNat 0 32 else bits v.toNat 32 32
  else if 0x300000 ≤ off ∧ off < 0x308000 then
    let k := (off - 0x300000) / 16
    if off % 16 = 12 then (if x.msixMask.getLsbD k then 1 else 0) else (tget 0 x.msixTable (4 * k + off % 16 / 4)).toNat
  else if 0x308000 ≤ off ∧ off < 0x308100 then bits x.msixPending.toNat (8 * (off - 0x308000)) 32
  else 0

/-- The requests to the dictionary that a host page may have held are presented again: the load, and each path's DESC_CREATE; what still has to wait waits on (R283). -/
def retryRequests (s : State) : State :=
  let s := match s.load with
    | some w => runLoad s w.path w.func.toNat w.data
    | none => s
  s.paths.foldl (fun s e =>
    match e.2.descWait with
    | some d =>
      let p := pathAt e.1
      writeEntry (s.setPath p { s.path p with descWait := none }) p 0x4060 2 0 d
    | none => s) s

/-- HOST_PAGE_RESPONSE (R283): the waiting access may be presented again; a refusal will fault it with HOST_REFUSED. -/
def execHostPageResponse (f : Func) (va : BitVec 56) (granted : Bool) (hpa : BitVec 64) (s : State) : Out :=
  .next (retryRequests (answerPage s f.toNat va.toNat (if granted then .granted (BitVec.ofNat 64 (hpa.toNat / 65536 * 65536)) else .refused)))

/-- HOST_PAGE_TIMEOUT (R283): no answer within HOST_PAGE_TIMEOUT; the waiting access will fault with HOST_TIMEOUT. -/
def execHostPageTimeout (f : Func) (va : BitVec 56) (s : State) : Out :=
  .next (retryRequests (answerPage s f.toNat va.toNat .timedOut))

/-- A virtual function ceases to exist: like a reset of it. -/
def dropFunction (s : State) (f : Nat) : State := resetFunction (abortFunctionNow s f) f

/-- NumVFs of a port; functions beyond it end (R462, log entry 14). -/
def setNumVfs (s : State) (h : HPort) (n : BitVec 8) : State :=
  if 63 < n.toNat then s
  else
    let gone := (rangeFrom (64 * h.toNat + 1) 63).filter fun f => functionExists s f && decide (n.toNat < f % 64)
    let s := gone.foldl dropFunction s
    s.setHport h { s.hport h with numVfs := n }

/-- A configuration register of a function; before lock the port answers with retry status and nothing is written (R20, R542). -/
def pcieWrite (s : State) (f : Func) (r : PcieReg) : State :=
  if !hostOpen s f.toNat then s
  else match r with
  | .msixEnable b => s.setFunc f.toNat { s.func f.toNat with msixEnabled := b }
  | .atomicEnable b => s.setFunc f.toNat { s.func f.toNat with atomicEnable := b }
  | .pageRequests n => retryRequests (retryEvents (s.setFunc f.toNat { s.func f.toNat with priAlloc := n }) f.toNat)
  | .numVfs n => if f.toNat % 64 = 0 then setNumVfs s (BitVec.ofNat 1 (f.toNat / 64)) n else s

end Sys2Proof.Machine
end

