-- ==== Sys2Proof/Machine/DictRows.lean ====
section
/-! DEFINITION. The commands that are requests to the dictionary server or writes of registers: each names its entry and the bytes of its value. -/

namespace Sys2Proof.Machine

/-! ### Requests in general (18) -/

/-- DICT_READ (R488). -/
def execDictRead (p : Path) (index : BitVec 16) (sub : BitVec 8) (off len : BitVec 32) (s : State) : Out :=
  .next (readEntry s p index.toNat sub.toNat off.toNat len.toNat)

/-- DICT_WRITE (R488). -/
def execDictWrite (p : Path) (index : BitVec 16) (sub : BitVec 8) (off : BitVec 32) (data : List Byte) (s : State) : Out :=
  .next (writeEntry s p index.toNat sub.toNat off.toNat data)

/-- DICT_INFO (R486). -/
def execDictInfo (p : Path) (index : BitVec 16) (sub : BitVec 8) (s : State) : Out := .next (infoEntry s p index.toNat sub.toNat)

/-- REGISTER_WRITE: a dictionary entry, a register of BAR0, or a configuration register that the manual names (R466, R487, R488). -/
def execRegisterWrite (t : RegTarget) (s : State) : Out :=
  match t with
  | .dict p index sub data => .next (writeEntry s p index.toNat sub.toNat 0 data)
  | .bar0 f off size v => bar0Write f off.toNat size v s
  | .pcie f r => .next (pcieWrite s f r)

/-- COUNTER_READ (R497): CNT_VALUE, or STALL_SNAPSHOT. -/
def execCounterRead (p : Path) (snapshot : Bool) (s : State) : Out :=
  .next (if snapshot then readEntry s p 0x7000 3 0 128 else readEntry s p 0x7000 2 0 8)

/-- TICK_SNAPSHOT (R52): a read of 0x3000:02 takes the tick, beat and schedule-beat counters together for its path. -/
def execTickSnapshot (p : Path) (s : State) : Out := .next (readEntry s p 0x3000 2 0 8)

/-! ### Communication, faults, pins, trace (18, 21) -/

/-- RESTORE_DEFAULTS (R489): a write of 0x1200:04. -/
def execRestoreDefaults (p : Path) (v : BitVec 32) (s : State) : Out := .next (writeEntry s p 0x1200 4 0 (leBytes 4 v.toNat))

/-- FAULT_ACK (R494): a write of 0x2E00:02. -/
def execFaultAck (p : Path) (code : BitVec 16) (s : State) : Out := .next (writeEntry s p 0x2E00 2 0 (leBytes 2 code.toNat))

/-- GPIO_CLAIM (R493): a write of a claimant entry. -/
def execGpioClaim (p : Path) (index : BitVec 16) (sub : BitVec 8) (pin : BitVec 8) (s : State) : Out :=
  .next (writeEntry s p index.toNat sub.toNat 0 [pin])

/-- TRACE_EN (R502): a write of 0x7E00:01. -/
def execTraceEn (p : Path) (v : BitVec 8) (s : State) : Out := .next (writeEntry s p 0x7E00 1 0 [v])

/-- TRACE_TRIGGER (R501): a write of 0x7E00:06. -/
def execTraceTrigger (p : Path) (v : BitVec 8) (s : State) : Out := .next (writeEntry s p 0x7E00 6 0 [v])

/-- GPIO_SHORT_CLEAR (R562): a write of 0x2040:02 with bits [11:8]. -/
def execGpioShortClear (p : Path) (bits : BitVec 4) (s : State) : Out := .next (writeEntry s p 0x2040 2 0 (leBytes 4 (bits.toNat * 256)))

/-- TORUS_SUPPLY_RESTORE (R562): a write of 0x2040:03. -/
def execTorusSupplyRestore (p : Path) (bits : BitVec 8) (s : State) : Out := .next (writeEntry s p 0x2040 3 0 [bits])

/-! ### Host ports, torus, memory, arrays, layers (17, 15, 10, 04, 08) -/

/-- The 16 bytes of ASSIGN (R473). -/
def assignBytes (kind : BitVec 8) (op : Byte) (f : BitVec 8) (first count : BitVec 32) : List Byte :=
  [kind, op, f, 0] ++ leBytes 4 first.toNat ++ leBytes 4 count.toNat ++ [0, 0, 0, 0]

/-- ASSIGN_SET (R473). -/
def execAssignSet (p : Path) (kind f : BitVec 8) (first count : BitVec 32) (s : State) : Out :=
  .next (writeEntry s p 0x1100 5 0 (assignBytes kind 0 f first count))

/-- ASSIGN_SHARE (R473). -/
def execAssignShare (p : Path) (kind f : BitVec 8) (first count : BitVec 32) (s : State) : Out :=
  .next (writeEntry s p 0x1100 5 0 (assignBytes kind 1 f first count))

/-- ASSIGN_REMOVE (R473). -/
def execAssignRemove (p : Path) (kind f : BitVec 8) (first count : BitVec 32) (s : State) : Out :=
  .next (writeEntry s p 0x1100 5 0 (assignBytes kind 2 f first count))

/-- COORD_WRITE (R405, R424): a write of 0x3400:02. -/
def execCoordWrite (p : Path) (v : BitVec 32) (s : State) : Out := .next (writeEntry s p 0x3400 2 0 (leBytes 4 v.toNat))

/-- AXIS_SIZE_WRITE (R405, R424): a write of 0x3400:03. -/
def execAxisSizeWrite (p : Path) (v : BitVec 32) (s : State) : Out := .next (writeEntry s p 0x3400 3 0 (leBytes 4 v.toNat))

/-- PORT_ENABLE_WRITE (R421): a write of 0x3400:04. -/
def execPortEnableWrite (p : Path) (v : BitVec 8) (s : State) : Out := .next (writeEntry s p 0x3400 4 0 [v])

/-- INVAL_REQUEST (R311): a write of 0x4021:01. -/
def execInvalRequest (p : Path) (data : List Byte) (s : State) : Out := .next (writeEntry s p 0x4021 1 0 data)

/-- DESC_CREATE (R328): a write of 0x4060:02. -/
def execDescCreate (p : Path) (data : List Byte) (s : State) : Out := .next (writeEntry s p 0x4060 2 0 data)

/-- DESC_DESTROY (R315): a write of 0x4060:03. -/
def execDescDestroy (p : Path) (data : List Byte) (s : State) : Out := .next (writeEntry s p 0x4060 3 0 data)

/-- REPAIR_REQUEST (R107): a write of 0x4820:01. -/
def execRepairRequest (p : Path) (v : BitVec 32) (s : State) : Out := .next (writeEntry s p 0x4820 1 0 (leBytes 4 v.toNat))

/-- RECIPE_WRITE (R237): a write of 0x5020:02. -/
def execRecipeWrite (p : Path) (v : BitVec 32) (s : State) : Out := .next (writeEntry s p 0x5020 2 0 (leBytes 4 v.toNat))

/-- CRIMAL_SCALE_WRITE (R243): a write of 0x5020:07. -/
def execCrimalScaleWrite (p : Path) (v : BitVec 8) (s : State) : Out := .next (writeEntry s p 0x5020 7 0 [v])

/-! ### Queues, aborts, loading (13, 14) -/

/-- QUEUE_CREATE (R350): a write of 0x6000:04. -/
def execQueueCreate (p : Path) (data : List Byte) (s : State) : Out := .next (writeEntry s p 0x6000 4 0 data)

/-- QUEUE_RESUME (R355, R356): a write of 0x6000:05 with OP 1. -/
def execQueueResume (p : Path) (q : QNum) (s : State) : Out := .next (writeEntry s p 0x6000 5 0 (leBytes 4 (q.toNat + 2 ^ 16)))

/-- QUEUE_FLUSH (R356): a write of 0x6000:05 with OP 2. -/
def execQueueFlush (p : Path) (q : QNum) (s : State) : Out := .next (writeEntry s p 0x6000 5 0 (leBytes 4 (q.toNat + 2 * 2 ^ 16)))

/-- QUEUE_DESTROY (R355): a write of 0x6000:05 with OP 3. -/
def execQueueDestroy (p : Path) (q : QNum) (s : State) : Out := .next (writeEntry s p 0x6000 5 0 (leBytes 4 (q.toNat + 3 * 2 ^ 16)))

/-- EVENT_RING_SETUP (R374): a write of 0x6020:(f + 1). -/
def execEventRingSetup (p : Path) (f : Func) (data : List Byte) (s : State) : Out := .next (writeEntry s p 0x6020 (f.toNat + 1) 0 data)

/-- JOB_ABORT (R378): a write of 0x6040:01. -/
def execJobAbort (p : Path) (job : BitVec 32) (s : State) : Out := .next (writeEntry s p 0x6040 1 0 (leBytes 4 job.toNat))

/-- FUNCTION_ABORT (R379): a write of 0x6040:02. -/
def execFunctionAbort (p : Path) (f : BitVec 8) (s : State) : Out := .next (writeEntry s p 0x6040 2 0 [f])

/-- LOAD_REQUEST (R397, R398): a write of 0x6058:01. -/
def execLoadRequest (p : Path) (data : List Byte) (s : State) : Out := .next (writeEntry s p 0x6058 1 0 data)

/-! ### Firmware and servicing (19) -/

/-- SVN_RAISE (R515): a write of 0x6800:03. -/
def execSvnRaise (p : Path) (kind : BitVec 8) (s : State) : Out := .next (writeEntry s p 0x6800 3 0 [kind])

/-- FW_CHUNK (R519): a write of 0x6820:02. -/
def execFwChunk (p : Path) (data : List Byte) (s : State) : Out := .next (writeEntry s p 0x6820 2 0 data)

/-- FW_COMMIT (R513, R519): a write of 1 to 0x6820:03. -/
def execFwCommit (p : Path) (s : State) : Out := .next (writeEntry s p 0x6820 3 0 [1])

/-- FW_ACTIVATE (R520 to R522): a write of 2 to 0x6820:03. -/
def execFwActivate (p : Path) (s : State) : Out := .next (writeEntry s p 0x6820 3 0 [2])

/-- CORE_REPLACE (R524): a write of 0x6840:01. -/
def execCoreReplace (p : Path) (v : BitVec 16) (s : State) : Out := .next (writeEntry s p 0x6840 1 0 (leBytes 2 v.toNat))

/-- MEM_REPAIR (R526): a write of 0x6840:04. -/
def execMemRepair (p : Path) (addr : BitVec 64) (s : State) : Out := .next (writeEntry s p 0x6840 4 0 (leBytes 8 addr.toNat))

/-! ### Modes, drain, resets (20) -/

/-- SET_MODE_DAHLIA (R532): a write of 0 to 0x2000:01. -/
def execSetModeDahlia (p : Path) (s : State) : Out := .next (writeEntry s p 0x2000 1 0 [0])

/-- SET_MODE_ASTER (R532): a write of 1 to 0x2000:01. -/
def execSetModeAster (p : Path) (s : State) : Out := .next (writeEntry s p 0x2000 1 0 [1])

/-- SET_MODE_LAVENDER (R532): a write of 2 to 0x2000:01. -/
def execSetModeLavender (p : Path) (s : State) : Out := .next (writeEntry s p 0x2000 1 0 [2])

/-- SET_MODE_SNOWDROP (R532): a write of 3 to 0x2000:01. -/
def execSetModeSnowdrop (p : Path) (s : State) : Out := .next (writeEntry s p 0x2000 1 0 [3])

/-- LAVENDER_CAP_WRITE (R532, R535): a write of 0x2000:02. -/
def execLavenderCapWrite (p : Path) (w : BitVec 16) (s : State) : Out := .next (writeEntry s p 0x2000 2 0 (leBytes 2 w.toNat))

/-- DRAIN_REQUEST (R539): a write of 0x2010:02. -/
def execDrainRequest (p : Path) (v : BitVec 8) (s : State) : Out := .next (writeEntry s p 0x2010 2 0 [v])

/-- MODULE_RESET (R541, R554): RESET# low for at least 10 us, or a write of 0x0000_0A5A to 0x2010:03. -/
def execModuleReset (request : Option Path) (s : State) : Out :=
  match request with
  | some p => .next (writeEntry s p 0x2010 3 0 (leBytes 4 0x0A5A))
  | none => .next (if s.power.state = .off ∨ s.power.resetHeld then s else resetModule s true)

/-- MGMT_ONLY_RESET (R521, R541): a write of 0x0000_0A5B to 0x2010:03. -/
def execMgmtOnlyReset (p : Path) (s : State) : Out := .next (writeEntry s p 0x2010 3 0 (leBytes 4 0x0A5B))

end Sys2Proof.Machine
end

