-- ==== Sys2Proof/Machine/Dispatch.lean ====
section
/-! DEFINITION. The meaning of each command: one arm for each constructor, each a direct call of its meaning. -/

namespace Sys2Proof.Machine

/-- The effect of one command on everything but the queue of waiting commands. -/
def exec (i : Instr) (s : State) : Host.Outcome State Fault Refusal :=
  match i with
  | .beatBoundary => Sys2Proof.Machine.execBeatBoundary s
  | .epochBoundary => Sys2Proof.Machine.execEpochBoundary s
  | .timeSyncPulse rise high low => Sys2Proof.Machine.execTimeSyncPulse rise high low s
  | .syncPulseMissing => Sys2Proof.Machine.execSyncPulseMissing s
  | .refPllLock => Sys2Proof.Machine.execRefPllLock s
  | .timeRefLoss => Sys2Proof.Machine.execTimeRefLoss s
  | .timeRefReturn => Sys2Proof.Machine.execTimeRefReturn s
  | .holdoverExpiry => Sys2Proof.Machine.execHoldoverExpiry s
  | .timeFaultRecovery => Sys2Proof.Machine.execTimeFaultRecovery s
  | .deadlineCheck => Sys2Proof.Machine.execDeadlineCheck s
  | .stretchLatch => Sys2Proof.Machine.execStretchLatch s
  | .tickSnapshot p => Sys2Proof.Machine.execTickSnapshot p s
  | .slotSend p => Sys2Proof.Machine.execSlotSend p s
  | .slotReceived p slot => Sys2Proof.Machine.execSlotReceived p slot s
  | .retryTimeout p => Sys2Proof.Machine.execRetryTimeout p s
  | .chainSegmentReceived p m => Sys2Proof.Machine.execChainSegmentReceived p m s
  | .transferSegmentReceived p m => Sys2Proof.Machine.execTransferSegmentReceived p m s
  | .creditGrantReceived p m => Sys2Proof.Machine.execCreditGrantReceived p m s
  | .verdictMessageReceived p m => Sys2Proof.Machine.execVerdictMessageReceived p m s
  | .ident p m => Sys2Proof.Machine.execIdent p m s
  | .ping p m => Sys2Proof.Machine.execPing p m s
  | .pong p m => Sys2Proof.Machine.execPong p m s
  | .offset p m => Sys2Proof.Machine.execOffset p m s
  | .laneMove p m => Sys2Proof.Machine.execLaneMove p m s
  | .laneAck p m => Sys2Proof.Machine.execLaneAck p m s
  | .recheck p m => Sys2Proof.Machine.execRecheck p m s
  | .stretchRecord p m => Sys2Proof.Machine.execStretchRecord p m s
  | .signalDetect p => Sys2Proof.Machine.execSignalDetect p s
  | .equaliseConverged p lowError farSetting farHolly => Sys2Proof.Machine.execEqualiseConverged p lowError farSetting farHolly s
  | .equaliseTimeout p => Sys2Proof.Machine.execEqualiseTimeout p s
  | .mapDone p order usable inverted txFailed => Sys2Proof.Machine.execMapDone p order usable inverted txFailed s
  | .lockAchieved p => Sys2Proof.Machine.execLockAchieved p s
  | .lockTimeout p => Sys2Proof.Machine.execLockTimeout p s
  | .failedRetryTimer p => Sys2Proof.Machine.execFailedRetryTimer p s
  | .heldIdentTimer p => Sys2Proof.Machine.execHeldIdentTimer p s
  | .retrainDone p => Sys2Proof.Machine.execRetrainDone p s
  | .retrainTimeout p => Sys2Proof.Machine.execRetrainTimeout p s
  | .linkLoss p => Sys2Proof.Machine.execLinkLoss p s
  | .laneSignalLoss p lane => Sys2Proof.Machine.execLaneSignalLoss p lane s
  | .laneErrorWindow p lane corrections => Sys2Proof.Machine.execLaneErrorWindow p lane corrections s
  | .laneSwitch p agreed => Sys2Proof.Machine.execLaneSwitch p agreed s
  | .recalTimer p => Sys2Proof.Machine.execRecalTimer p s
  | .recalReadaptDone p => Sys2Proof.Machine.execRecalReadaptDone p s
  | .portDetectIdle p => Sys2Proof.Machine.execPortDetectIdle p s
  | .torusSupplyOvercurrent p tenthAmps => Sys2Proof.Machine.execTorusSupplyOvercurrent p tenthAmps s
  | .modPrsChange p present => Sys2Proof.Machine.execModPrsChange p present s
  | .nop q c => Sys2Proof.Machine.execNop q c s
  | .wait q c => Sys2Proof.Machine.execWait q c s
  | .waitSatisfied q => Sys2Proof.Machine.execWaitSatisfied q s
  | .prefetchReplayDone q => Sys2Proof.Machine.execPrefetchReplayDone q s
  | .signal q c => Sys2Proof.Machine.execSignal q c s
  | .fence q c => Sys2Proof.Machine.execFence q c s
  | .beatAlign q c => Sys2Proof.Machine.execBeatAlign q c s
  | .unassignedOpcode q c => Sys2Proof.Machine.execUnassignedOpcode q c s
  | .mmul q c chk => Sys2Proof.Machine.execMmul q c chk s
  | .mmulT q c chk => Sys2Proof.Machine.execMmulT q c chk s
  | .loadStat q c chk => Sys2Proof.Machine.execLoadStat q c chk s
  | .preloadAcc q c => Sys2Proof.Machine.execPreloadAcc q c s
  | .drain q c => Sys2Proof.Machine.execDrain q c s
  | .vecChain q c => Sys2Proof.Machine.execVecChain q c s
  | .vecReduce q c => Sys2Proof.Machine.execVecReduce q c s
  | .softmax q c => Sys2Proof.Machine.execSoftmax q c s
  | .norm q c => Sys2Proof.Machine.execNorm q c s
  | .dropout q c => Sys2Proof.Machine.execDropout q c s
  | .quantise q c => Sys2Proof.Machine.execQuantise q c s
  | .dequantise q c => Sys2Proof.Machine.execDequantise q c s
  | .maskScore q c => Sys2Proof.Machine.execMaskScore q c s
  | .prune q c => Sys2Proof.Machine.execPrune q c s
  | .regrow q c => Sys2Proof.Machine.execRegrow q c s
  | .maskCommit q c => Sys2Proof.Machine.execMaskCommit q c s
  | .maskRefsReleased id => Sys2Proof.Machine.execMaskRefsReleased id s
  | .predict q c => Sys2Proof.Machine.execPredict q c s
  | .maskGather q c => Sys2Proof.Machine.execMaskGather q c s
  | .copy q c => Sys2Proof.Machine.execCopy q c s
  | .fill q c => Sys2Proof.Machine.execFill q c s
  | .compare q c => Sys2Proof.Machine.execCompare q c s
  | .transposeCopy q c => Sys2Proof.Machine.execTransposeCopy q c s
  | .gather q c => Sys2Proof.Machine.execGather q c s
  | .scatter q c => Sys2Proof.Machine.execScatter q c s
  | .redBucket q c => Sys2Proof.Machine.execRedBucket q c s
  | .chainStart q => Sys2Proof.Machine.execChainStart q s
  | .redFlush q c => Sys2Proof.Machine.execRedFlush q c s
  | .reshard q c => Sys2Proof.Machine.execReshard q c s
  | .reshardInstall job => Sys2Proof.Machine.execReshardInstall job s
  | .optUpdate q c => Sys2Proof.Machine.execOptUpdate q c s
  | .lossScaleCheck q c => Sys2Proof.Machine.execLossScaleCheck q c s
  | .verdictRoundStart q => Sys2Proof.Machine.execVerdictRoundStart q s
  | .semCreate q c => Sys2Proof.Machine.execSemCreate q c s
  | .semDestroy q c => Sys2Proof.Machine.execSemDestroy q c s
  | .commandComplete q idx => Sys2Proof.Machine.execCommandComplete q idx s
  | .deadlockTimeout job => Sys2Proof.Machine.execDeadlockTimeout job s
  | .doorbellWrite f q size v => Sys2Proof.Machine.execDoorbellWrite f q size v s
  | .semWindowSet f n size v => Sys2Proof.Machine.execSemWindowSet f n size v s
  | .semWindowAdd f n size v => Sys2Proof.Machine.execSemWindowAdd f n size v s
  | .bar2Read f off len => Sys2Proof.Machine.execBar2Read f off len s
  | .bar2Write f off data => Sys2Proof.Machine.execBar2Write f off data s
  | .levelWrite f v => Sys2Proof.Machine.execLevelWrite f v s
  | .msixVectorUnmask f v => Sys2Proof.Machine.execMsixVectorUnmask f v s
  | .hostPageResponse f va granted hpa => Sys2Proof.Machine.execHostPageResponse f va granted hpa s
  | .hostPageTimeout f va => Sys2Proof.Machine.execHostPageTimeout f va s
  | .atsInvalidationRequest f va len => Sys2Proof.Machine.execAtsInvalidationRequest f va len s
  | .invalidationComplete => Sys2Proof.Machine.execInvalidationComplete s
  | .pageMove d written => Sys2Proof.Machine.execPageMove d written s
  | .scrubPatrol found => Sys2Proof.Machine.execScrubPatrol found s
  | .ceSummaryMinute => Sys2Proof.Machine.execCeSummaryMinute s
  | .shadowSampleDone c => Sys2Proof.Machine.execShadowSampleDone c s
  | .repairRequest p v => Sys2Proof.Machine.execRepairRequest p v s
  | .rowTestTimer a row => Sys2Proof.Machine.execRowTestTimer a row s
  | .repairQuietPoint a sparePass => Sys2Proof.Machine.execRepairQuietPoint a sparePass s
  | .queueCreate p data => Sys2Proof.Machine.execQueueCreate p data s
  | .queueResume p q => Sys2Proof.Machine.execQueueResume p q s
  | .queueFlush p q => Sys2Proof.Machine.execQueueFlush p q s
  | .queueDestroy p q => Sys2Proof.Machine.execQueueDestroy p q s
  | .queueDestroyDrained q => Sys2Proof.Machine.execQueueDestroyDrained q s
  | .descCreate p data => Sys2Proof.Machine.execDescCreate p data s
  | .descDestroy p data => Sys2Proof.Machine.execDescDestroy p data s
  | .eventRingSetup p f data => Sys2Proof.Machine.execEventRingSetup p f data s
  | .jobAbort p job => Sys2Proof.Machine.execJobAbort p job s
  | .functionAbort p f => Sys2Proof.Machine.execFunctionAbort p f s
  | .abortAbandonDeadline ofFunction target => Sys2Proof.Machine.execAbortAbandonDeadline ofFunction target s
  | .abortComplete ofFunction target elapsedUs => Sys2Proof.Machine.execAbortComplete ofFunction target elapsedUs s
  | .loadRequest p data => Sys2Proof.Machine.execLoadRequest p data s
  | .redJobDrained r => Sys2Proof.Machine.execRedJobDrained r s
  | .redJobHoldExpiry r => Sys2Proof.Machine.execRedJobHoldExpiry r s
  | .assignSet p kind f first count => Sys2Proof.Machine.execAssignSet p kind f first count s
  | .assignShare p kind f first count => Sys2Proof.Machine.execAssignShare p kind f first count s
  | .assignRemove p kind f first count => Sys2Proof.Machine.execAssignRemove p kind f first count s
  | .invalRequest p data => Sys2Proof.Machine.execInvalRequest p data s
  | .recipeWrite p v => Sys2Proof.Machine.execRecipeWrite p v s
  | .crimalScaleWrite p v => Sys2Proof.Machine.execCrimalScaleWrite p v s
  | .coordWrite p v => Sys2Proof.Machine.execCoordWrite p v s
  | .axisSizeWrite p v => Sys2Proof.Machine.execAxisSizeWrite p v s
  | .portEnableWrite p v => Sys2Proof.Machine.execPortEnableWrite p v s
  | .coreReplace p v => Sys2Proof.Machine.execCoreReplace p v s
  | .coreSelfTestDone d pass oldWorks => Sys2Proof.Machine.execCoreSelfTestDone d pass oldWorks s
  | .coreQuietPoint c => Sys2Proof.Machine.execCoreQuietPoint c s
  | .coreCopyDone c => Sys2Proof.Machine.execCoreCopyDone c s
  | .memRepair p addr => Sys2Proof.Machine.execMemRepair p addr s
  | .memRepairDone resource => Sys2Proof.Machine.execMemRepairDone resource s
  | .dictRead p index sub off len => Sys2Proof.Machine.execDictRead p index sub off len s
  | .dictWrite p index sub off data => Sys2Proof.Machine.execDictWrite p index sub off data s
  | .dictInfo p index sub => Sys2Proof.Machine.execDictInfo p index sub s
  | .registerWrite t => Sys2Proof.Machine.execRegisterWrite t s
  | .counterRead p snapshot => Sys2Proof.Machine.execCounterRead p snapshot s
  | .faultAck p code => Sys2Proof.Machine.execFaultAck p code s
  | .gpioClaim p index sub pin => Sys2Proof.Machine.execGpioClaim p index sub pin s
  | .restoreDefaults p v => Sys2Proof.Machine.execRestoreDefaults p v s
  | .traceEn p v => Sys2Proof.Machine.execTraceEn p v s
  | .traceTrigger p v => Sys2Proof.Machine.execTraceTrigger p v s
  | .traceGpioEdge pin => Sys2Proof.Machine.execTraceGpioEdge pin s
  | .tracePostExpiry => Sys2Proof.Machine.execTracePostExpiry s
  | .fwChunk p data => Sys2Proof.Machine.execFwChunk p data s
  | .fwChunkProgrammed => Sys2Proof.Machine.execFwChunkProgrammed s
  | .fwCommit p => Sys2Proof.Machine.execFwCommit p s
  | .fwActivate p => Sys2Proof.Machine.execFwActivate p s
  | .handoverReady => Sys2Proof.Machine.execHandoverReady s
  | .handoverTimeout => Sys2Proof.Machine.execHandoverTimeout s
  | .svnRaise p kind => Sys2Proof.Machine.execSvnRaise p kind s
  | .getVersion p => Sys2Proof.Machine.execGetVersion p s
  | .getCapabilities p => Sys2Proof.Machine.execGetCapabilities p s
  | .negotiateAlgorithms p offersSha3 offersMldsa => Sys2Proof.Machine.execNegotiateAlgorithms p offersSha3 offersMldsa s
  | .getDigests p => Sys2Proof.Machine.execGetDigests p s
  | .getCertificate p slot off len => Sys2Proof.Machine.execGetCertificate p slot off len s
  | .challenge p slot nonce => Sys2Proof.Machine.execChallenge p slot nonce s
  | .getMeasurements p index signed nonce => Sys2Proof.Machine.execGetMeasurements p index signed nonce s
  | .powerOn => Sys2Proof.Machine.execPowerOn s
  | .linkedReached pBase devices coresFailed arrays => Sys2Proof.Machine.execLinkedReached pBase devices coresFailed arrays s
  | .readyConditionsMet => Sys2Proof.Machine.execReadyConditionsMet s
  | .inputLoss mv => Sys2Proof.Machine.execInputLoss mv s
  | .inputOutOfRange mv => Sys2Proof.Machine.execInputOutOfRange mv s
  | .overvoltageCut => Sys2Proof.Machine.execOvervoltageCut s
  | .governorUpdate watts => Sys2Proof.Machine.execGovernorUpdate watts s
  | .temperatureReport tj coolant => Sys2Proof.Machine.execTemperatureReport tj coolant s
  | .thermalCapStep => Sys2Proof.Machine.execThermalCapStep s
  | .thermalComparatorTrip d celsius => Sys2Proof.Machine.execThermalComparatorTrip d celsius s
  | .setModeDahlia p => Sys2Proof.Machine.execSetModeDahlia p s
  | .setModeAster p => Sys2Proof.Machine.execSetModeAster p s
  | .setModeLavender p => Sys2Proof.Machine.execSetModeLavender p s
  | .setModeSnowdrop p => Sys2Proof.Machine.execSetModeSnowdrop p s
  | .lavenderCapWrite p w => Sys2Proof.Machine.execLavenderCapWrite p w s
  | .drainRequest p v => Sys2Proof.Machine.execDrainRequest p v s
  | .moduleReset request => Sys2Proof.Machine.execModuleReset request s
  | .mgmtOnlyReset p => Sys2Proof.Machine.execMgmtOnlyReset p s
  | .portReset h kind => Sys2Proof.Machine.execPortReset h kind s
  | .perstDeassert h => Sys2Proof.Machine.execPerstDeassert h s
  | .functionLevelReset f => Sys2Proof.Machine.execFunctionLevelReset f s
  | .sidebandMismatchCount pin => Sys2Proof.Machine.execSidebandMismatchCount pin s
  | .gpioShortClear p bits => Sys2Proof.Machine.execGpioShortClear p bits s
  | .torusSupplyRestore p bits => Sys2Proof.Machine.execTorusSupplyRestore p bits s
  | .resetRelease => Sys2Proof.Machine.execResetRelease s
  | .powerStageFault => Sys2Proof.Machine.execPowerStageFault s
  | .inputReversed => Sys2Proof.Machine.execInputReversed s
  | .bar2Resize f log2 => Sys2Proof.Machine.execBar2Resize f log2 s
  | .serviceFirmwareStart => Sys2Proof.Machine.execServiceFirmwareStart s
  | .rootMonitorReturn => Sys2Proof.Machine.execRootMonitorReturn s
  | .arithPllRelock => Sys2Proof.Machine.execArithPllRelock s

end Sys2Proof.Machine
end

