-- ==== Sys2Proof/Machine/Step.lean ====
section
/-! DEFINITION. One step of the block: the command at the front of the queue, or, with no command waiting, one tick of the fabric clock within its beat. -/

namespace Sys2Proof.Machine

/-- With no command waiting, the tick counter moves on within the beat; the boundary of a beat is a command (log entry 1). -/
def idle (s : State) : State :=
  if s.ticking && decide (s.slot < 255) then { s with time := { s.time with tick := s.time.tick + 1 } } else s

/-- Takes the command at the front, runs it with the rest of the queue, and answers its outcome. -/
def step (s : State) : Host.Outcome State Fault Refusal :=
  match s.pending with
  | [] => .next (idle s)
  | c :: r => exec c { s with pending := r }

/-- The state with the command that a word spells put at the front of its queue; no row of the table gives bits, so no word spells one. -/
def State.withFetchWord (s : State) (nbits w : Nat) : State :=
  match Sys2Proof.decodeTableWord nbits w with
  | some c => { s with pending := c :: s.pending }
  | none => s

end Sys2Proof.Machine
end

