-- ==== Sys2Proof/Safety.lean ====
section
/-! DEFINITION. What counts as a safe run, and the terms in which claims speak of a queue command that starts and of its body's end. -/

namespace Sys2Proof.Machine

/-- The step at a state neither faults nor refuses. -/
def Proceeds (s : State) : Prop := ∃ t, step s = .next t

/-- A run of k steps from a state that never stops. -/
def SafeRun : Nat → State → Prop
  | 0, _ => True
  | k + 1, s => ∃ t, step s = .next t ∧ SafeRun k t

/-- The command at the head of queue q starts its body (R354, R358): nothing holds the head, its ring entry is read, which leaves s1, its unit is in service, and the checks that precede the body pass. -/
def Starts (s : State) (q : QNum) (c : Cmd) (resv : Cmd → Bool) (handles : Cmd → List Nat) (s1 : State) : Prop :=
  headReady s q c = true ∧ (∃ b, fetchHead s q c = .ok (b, s1)) ∧ unitOk s1 (exeOf q (s.queue q)) = true ∧
    earlyChecks (s1.job (s.queue q).job.toNat) (exeOf q (s.queue q)) c ((s.queue q).hold.copies.map (·.1.toNat)) resv handles = none

/-- The body of the command that starts on queue q runs to its end, with no rejection, no fault and nothing to wait for, and leaves the machine and its record as r has them. -/
def Ends (body : M Unit) (s s1 : State) (q : QNum) (c : Cmd) (r : Run) : Prop :=
  (ExceptT.run body).run (headRun s1 q (s.queue q) c) = (.ok (), r)

/-- Of near memory, the work from state m to run r has changed only the bytes that the record notes as the command's own stores (log entry 12). -/
def StoresNoted (m : State) (r : Run) : Prop :=
  ∀ a, nearBase ≤ a → (∀ sp ∈ r.w.spans, sp.near = true → a < sp.start ∨ sp.start + sp.len ≤ a) → memGet r.s.mem a = memGet m.mem a

/-- The state after a command of queue q has started and its body has left r: the head moves past it, and its record is under construction (R354, R364). -/
def started (q : QNum) (r : Run) : State := pushStarted r.s q r.w

/-! ### Completion of a queue command -/

/-- The descriptor that a handle names, as a command of the job takes it: as its head copied it when it was presented first, else as the table has it (R314, R315). -/
def operandOf (cs : List (BitVec 32 × Desc × BitVec 8)) (j : Job) (h : Nat) : TDesc :=
  match cs.find? fun e => e.1.toNat == h with
  | some (_, d, f) => { parseDesc j h d with fmt := f.toNat }
  | none => parseDesc j h ((tfind j.descs h).getD ⟨0, false, []⟩)
/-- The same for a handle that may be 0 for none. -/
def optOperand (cs : List (BitVec 32 × Desc × BitVec 8)) (j : Job) (h : Nat) : Option TDesc := if h = 0 then none else some (operandOf cs j h)
/-- A handle that a command can name: of a created descriptor, or of one that its head has copied. -/
def namable (cs : List (BitVec 32 × Desc × BitVec 8)) (j : Job) (h : Nat) : Bool := validHandle j h || (cs.map (·.1.toNat)).contains h

/-- A tensor of near memory that is stored element by element: LINEAR or CV32. -/
def flat (t : TDesc) : Bool := t.tier == 0 && t.layout != 2 && t.layout != 3
/-- Nothing makes a read of near memory wait or stop: no granule is poisoned (R304), and no write to near memory of a command other than the head of q is pending (R276, R277). -/
def NearClear (s : State) (q : QNum) (idx : BitVec 16) : Prop := s.poison = [] ∧ ∀ g, pendingWrites s q idx g = 0

/-- At a run a computation answers x, and leaves the run as it is: what it reads can be read. -/
def Reads {α : Type} (m : M α) (r : Run) (x : α) : Prop := (ExceptT.run m).run r = (.ok x, r)

/-- A source that a command can read as values: element by element, in a format of numbers. -/
def readable (t : TDesc) : Bool := flat t && (fmtOf t.fmt).isSome
/-- A destination in near memory that a command can write as values. -/
def writable (e : Exe) (t : TDesc) : Bool := t.tier == 0 && (fmtOf t.fmt).isSome && dstOk e t

/-- The chain set of a RED_BUCKET under way, its bucket, or the tensor that it gathers, being as its record copied it (R436, R437). -/
def chainOf (cs : List (BitVec 32 × Desc × BitVec 8)) (j : Job) (c : Cmd) : Chain :=
  ⟨j.p.getD (bkAxis c) 1, j.q.getD (bkAxis c) 0, bkPlus c, bkGather c, (operandOf cs j (if bkGather c then cmdField c 0x0C 4 else cmdField c 8 4)).count⟩

/-- The operands of a RED_BUCKET under way can be read and written (R446): descriptors that can be named, of near memory, stored element by element, and, unless it gathers bytes, in formats of numbers; an accumulator where it adds several buckets. -/
def ChainReady (cs : List (BitVec 32 × Desc × BitVec 8)) (j : Job) (c : Cmd) : Prop :=
  (∀ k ∈ bucketHandles c, namable cs j k = true) ∧ (operandOf cs j (cmdField c 0x0C 4)).tier = 0 ∧
    (bkGather c = true → flat (operandOf cs j (cmdField c 8 4)) = true ∧ bkN c = 1) ∧
    (bkGather c = false → readable (operandOf cs j (cmdField c 8 4)) = true ∧ (fmtOf (operandOf cs j (cmdField c 0x0C 4)).fmt).isSome = true ∧
      (bkN c ≠ 1 → cmdField c 0x10 4 ≠ 0 ∧ readable (operandOf cs j (cmdField c 0x10 4)) = true))

/-- The command starts and its body runs to its end, with status OK: it answers the state with the command among those started, which its end leaves. -/
def Completes (i : Instr) (body : M Unit) (s s1 : State) (q : QNum) (c : Cmd) : Prop :=
  ∃ r, Ends body s s1 q c r ∧ exec i s = .next (started q r) ∧ r.w.status = 0

/-- The dictionary serves every entry that the path sees: the module is on and out of reset, root monitor and service firmware run and are not in recovery, and the way in is open: an MCTP path needs the IOD out of reset, a window a function that the host reaches (R20, R462, R490, R521, R542). -/
structure Serving (s : State) (p : Path) : Prop where
  on : s.power.state ≠ .off
  noReset : s.power.resetHeld = false
  noRecovery : s.trust.recovery = false
  root : s.trust.rootUp = true
  service : s.trust.sfUp = true
  mctp : ∀ h, p = .mctp h → s.ticking = true
  window : ∀ f, p = .window f → hostOpen s f.toNat = true

end Sys2Proof.Machine
end

