-- ==== Sys2Proof/Certificates/Slice0/Obligations.lean ====
section
/-! DEFINITION. The statements for the provers, from the numbered rules of spec/. -/

open Sys2Proof Sys2Proof.Machine

/-- The command at the front of the queue runs on the machine with the rest of the queue (the row's cut: a block takes its commands in order). With no command waiting the block idles: only the tick moves, within its beat, while the counters run (log entry 1, the model's choice). -/
def Obligations.StepRunsTheFrontCommand : Prop :=
  (∀ (c : Instr) (r : List Instr) (s : State), step { s with pending := c :: r } = exec c { s with pending := r }) ∧
  (∀ s : State, s.pending = [] →
      step s = .next (if s.ticking = true ∧ s.slot < 255 then { s with time := { s.time with tick := s.time.tick + 1 } } else s))

/-- No command stops the block: every command, in every state, answers a next state; a rejection is a status, an event or a response (R365, R375, R488). No command of the table touches the queue of waiting commands. -/
def Obligations.EveryCommandAnswers : Prop :=
  (∀ (c : Instr) (s : State), ∃ t, exec c s = .next t) ∧
  (∀ (c : Instr) (s t : State), exec c s = .next t → t.pending = s.pending)

/-- What reset leaves where the manual gives it: no job, no queue, every semaphore FREE, no descriptor, no poison, the time unit UNLOCKED with its counters at 0 (R32, R52, R304, R355, R366). The module is in MANAGED (log entry 10, the model's choice). Memory at reset is in its canonical form. -/
def Obligations.ResetState : Prop :=
  (State.reset.time.st = .unlocked ∧ State.reset.time.tick = 0 ∧ State.reset.time.offset = 0 ∧ State.reset.time.nextEpoch = 0 ∧
    State.reset.jobs = [] ∧ State.reset.power.state = .managed ∧ State.reset.poison = [] ∧ State.reset.pending = [] ∧
    (∀ q, (State.reset.queue q).st = .free) ∧ (∀ n, (State.reset.sem n).st = .free) ∧
    (∀ p, (State.reset.port p).st = .disabled) ∧ (∀ a, (State.reset.array a).resident = []) ∧
    (∀ f, (State.reset.func f).ringN = 0 ∧ (State.reset.func f).msixEnabled = false)) ∧
  (Memory.wf State.reset.mem = true)

/-- Every step keeps memory in its canonical form. -/
def Obligations.MemoryFormKept : Prop :=  ∀ s t : State, Memory.wf s.mem = true → step s = .next t → Memory.wf t.mem = true

/-- A byte written at a physical address is read back there, and every other byte is unchanged, over ranges of any length. A write to virtual memory within one page that ends stores its bytes at the device address to which it translates and changes no other byte; one that leads to a host page changes no byte of the module's memory (R278, R283). A write clears the poison of each granule that it replaces whole and of no other (R304). -/
def Obligations.PhysicalWriteThenRead : Prop :=
  (∀ (s : State) (a : Nat) (bs : List Byte) (x : Nat), Memory.wf s.mem = true →
      memGet (physWrite s a bs).mem x = if a ≤ x ∧ x < a + bs.length then bs.getD (x - a) 0 else memGet s.mem x) ∧
  (∀ (s t : State) (f job va : Nat) (bs : List Byte) (tier : Option Nat) (x : Nat), Memory.wf s.mem = true → bs ≠ [] →
      va % 65536 + bs.length ≤ 65536 → vWrite s f job va bs tier = .ok t →
      (∀ a leaf, xlate s f job va true tier = .dev a leaf →
        memGet t.mem x = if a ≤ x ∧ x < a + bs.length then bs.getD (x - a) 0 else memGet s.mem x) ∧
      (∀ h a, xlate s f job va true tier = .host h a → t.mem = s.mem)) ∧
  (∀ (s : State) (a : Nat) (bs : List Byte) (g : Nat),
      g ∈ (physWrite s a bs).poison ↔ g ∈ s.poison ∧ ¬(a ≤ 32 * g ∧ 32 * g + 32 ≤ a + bs.length))

/-- Time and its boundaries (R24, R35, R44, R49, R300, R301, R534, R547). The beat counter is bits 55 to 8 of the tick counter, the epoch number its bits 55 to 24, and the schedule beat counter lies behind the beat counter by the stretch offset (R24). BEAT_BOUNDARY completes in every state whose counters run: the tick counter reaches the first tick of the next beat, the beat counter rises by one, and the schedule beat counter rises with it unless the new beat was latched as a stretch beat, which the stretch offset takes up and which is counted (R24, R49); the idle ticks chosen for the beat apply (R534); markers, queues, semaphores, jobs and arrays stay, and memory stays but for the event of the eighth stretch beat in a row, which notes the fault 0x0014 (R50). EPOCH_BOUNDARY completes wherever the counters run and the beat is the first of an epoch: every port in service has its OFFSET message to send (R35), every hot count shifts right by HOT_DECAY, the migrations are those that R301 chooses, and the mean input power and the clock frequency of the epoch that ended are drawn up from its sums, which start again (R300, R301, R547); time, memory, queues, semaphores and jobs stay. Completes: BEAT_BOUNDARY, EPOCH_BOUNDARY. -/
def Obligations.BoundariesOfTime : Prop :=
  (∀ s : State, s.beat.toNat = s.time.tick.toNat / 256 % 2 ^ 48 ∧ s.slot = s.time.tick.toNat % 256 ∧
      s.schedBeat + s.time.offset = s.beat ∧ s.beat.toNat / 65536 = s.time.tick.toNat / 2 ^ 24 % 2 ^ 32) ∧
  (∀ s : State, s.ticking = true →
      ∃ t, exec .beatBoundary s = .next t ∧ t.beat = s.beat + 1 ∧ t.slot = 0 ∧
        t.schedBeat = (if (s.beat + 1) ∈ s.time.strLatched then s.schedBeat else s.schedBeat + 1) ∧
        t.time.inStretch = s.time.strLatched.contains (s.beat + 1) ∧
        t.counter 5 0 3 = (if (s.beat + 1) ∈ s.time.strLatched then (s.counter 5 0 3 + 1) % 2 ^ 64 else s.counter 5 0 3) ∧
        t.power.s = s.power.sNext ∧ t.power.sPrev = s.power.s ∧
        t.queues = s.queues ∧ t.sems = s.sems ∧ t.jobs = s.jobs ∧ t.arrays = s.arrays ∧
        ((s.beat + 1) ∈ s.time.strLatched ∧ s.time.strRun = 7 → 0x0014 ∈ t.dict.faults) ∧
        (¬((s.beat + 1) ∈ s.time.strLatched ∧ s.time.strRun = 7) → t.mem = s.mem ∧ t.dict.faults = s.dict.faults)) ∧
  (∀ s : State, s.ticking = true → s.beat.toNat % 65536 = 0 →
      ∃ t, exec .epochBoundary s = .next t ∧
        (∀ p, (s.port p).st = .active → (t.port p).mgmt = (s.port p).mgmt ++ toFlits (offsetMsg s) none) ∧
        (∀ leaf, hotOf t leaf = hotOf s leaf >>> s.reg 0x4040 5) ∧ t.msys.moves = decideMoves s ∧
        t.power.meanW = BitVec.ofNat 16 (s.power.epochW / 65536) ∧ t.power.epochW = 0 ∧
        t.power.mhz = BitVec.ofNat 16 (s.power.runTicks * 100 / 16777216) ∧ t.power.runTicks = 0 ∧
        t.time = s.time ∧ t.mem = s.mem ∧ t.queues = s.queues ∧ t.sems = s.sems ∧ t.jobs = s.jobs)

/-- TIME_REF and the states of the time unit (R32): lock takes UNLOCKED to LOCKED with every counter from 0; a loss takes LOCKED or ALIGNED to HOLDOVER; the return takes HOLDOVER to the state it came from and counts REF_GLITCH; the expiry takes HOLDOVER to FAULT; the recovery takes FAULT to LOCKED. The second of two well-formed pulses 16,777,216 ticks apart takes LOCKED to ALIGNED, and the epoch that it opens takes the number written before it (R31, R32). A missing pulse: in ALIGNED and HOLDOVER it is counted once for its epoch, and in LOCKED it ends the search for a pair; no counter of time moves (R28, R53). Completes: TIME_SYNC_PULSE, SYNC_PULSE_MISSING, REF_PLL_LOCK, TIME_REF_LOSS, TIME_REF_RETURN, HOLDOVER_EXPIRY, TIME_FAULT_RECOVERY. -/
def Obligations.TimeUnitAndPulses : Prop :=
  ((∀ s : State, s.time.st = .unlocked → s.power.state ≠ .off → s.power.resetHeld = false →
      ∃ t, exec .refPllLock s = .next t ∧ t.time.st = .locked ∧ t.time.tick = 0 ∧ t.time.offset = 0 ∧ t.mem = s.mem ∧ t.sems = s.sems) ∧
    (∀ s : State, s.time.st = .locked ∨ s.time.st = .aligned →
      exec .timeRefLoss s = .next { s with time := { s.time with st := .holdover, heldFrom := s.time.st, holdSeen := true, refPresent := false } }) ∧
    (∀ s : State, s.time.st = .holdover →
      ∃ t, exec .timeRefReturn s = .next t ∧ t.time = { s.time with st := s.time.heldFrom, refPresent := true } ∧
        t.counter 5 0 8 = (s.counter 5 0 8 + 1) % 2 ^ 64 ∧ t.mem = s.mem ∧ t.queues = s.queues) ∧
    (∀ s : State, s.time.st = .holdover →
      ∃ t, exec .holdoverExpiry s = .next t ∧ t.time = { s.time with st := .fault } ∧ t.queues = s.queues ∧ 0x0011 ∈ t.dict.faults) ∧
    (∀ s : State, s.time.st = .fault → s.time.refPresent = true → s.jobs = [] →
      ∃ t, exec .timeFaultRecovery s = .next t ∧ t.time.st = .locked ∧ t.time.tick = 0 ∧ t.mem = s.mem ∧ t.sems = s.sems)) ∧
  (∀ (s : State) (rise : BitVec 64) (high low : Nat), s.time.st = .locked → s.time.inverted = false → 2 ≤ high → high ≤ 16 →
      s.time.lastPulse = some (rise - 0x1000000) → s.time.epochWritten = true →
      ∃ t, exec (.timeSyncPulse rise high low) s = .next t ∧ t.time.st = .aligned ∧
        t.time.tick - (s.time.tick - rise) = epochStart s.time.nextEpoch ∧
        t.time.offset = s.time.offset ∧ t.time.missingRun = 0 ∧ t.time.epochWritten = false ∧
        t.mem = s.mem ∧ t.queues = s.queues ∧ t.dict = s.dict) ∧
  (∀ s : State, ((s.time.st = .aligned ∨ s.time.st = .holdover) ∧ s.time.missedAt ≠ some (nearestEpoch s.time.tick) ∨
        s.time.st = .locked ∧ s.time.lastPulse.isSome = true) →
      ∃ t, exec .syncPulseMissing s = .next t ∧ t.counter 5 0 5 = (s.counter 5 0 5 + 1) % 2 ^ 64 ∧
        t.time.missingRun = (if s.time.missingRun = 255 then 255 else s.time.missingRun + 1) ∧
        (s.time.st = .locked → t.time.lastPulse = none) ∧
        t.time.tick = s.time.tick ∧ t.time.offset = s.time.offset ∧ t.time.st = s.time.st ∧ t.mem = s.mem ∧ t.queues = s.queues)

/-- DEADLINE_CHECK: a marker of the present schedule beat that its queue has not reached requests a stretch of the wall beat after the next; STRETCH_REQUEST is counted, the marker's record becomes LAST_STRETCH, and the markers of the beat are checked once (R40, R45, R46). With no marker due, only time moves to slot 128. STRETCH_LATCH: at tick 240 the next beat becomes a stretch beat exactly if an indication for it was seen, or it was one already (R47). Completes: DEADLINE_CHECK, STRETCH_LATCH. -/
def Obligations.StretchBeats : Prop :=
  ((∀ (s : State) (m : Nat × Marker) (rest : List (Nat × Marker)), s.ticking = true → s.time.inStretch = false → s.slot ≤ 128 →
      dueMarkers s = m :: rest →
      ∃ t, exec .deadlineCheck s = .next t ∧ t.beat = s.beat ∧ t.slot = 128 ∧ (s.beat + 2) ∈ t.time.strSeen ∧
        t.time.lastStretch = BitVec.ofNat 160 (leNat (stretchRecord m)) ∧
        t.counter 5 0 2 = (s.counter 5 0 2 + 1) % 2 ^ 64 ∧ dueMarkers t = [] ∧ t.mem = s.mem ∧ t.sems = s.sems) ∧
    (∀ s : State, s.ticking = true → s.time.inStretch = false → s.slot ≤ 128 → dueMarkers s = [] →
      exec .deadlineCheck s = .next { s with time := { s.time with tick := beatStart s + 128 } })) ∧
  (∀ s : State, s.ticking = true → s.slot ≤ 240 →
      ∃ t, exec .stretchLatch s = .next t ∧ t.beat = s.beat ∧ t.slot = 240 ∧
        (∀ b, b ∈ t.time.strLatched ↔ b ∈ s.time.strLatched ∨ (b = s.beat + 1 ∧ b ∈ s.time.strSeen)) ∧
        t.time.offset = s.time.offset ∧ t.mem = s.mem ∧ t.queues = s.queues ∧ t.ports = s.ports ∧ t.dict = s.dict)

/-- SLOT_SEND: while time runs, a port in ACTIVE, IDENTIFY or HELD sends the slot of the present tick (R416); its header passes the receiver's own check, names the slot and acknowledges the next flit awaited (R414); the slot has its 30 positions, 8 group CRCs and parity, 2,000 bytes in all (R412, R413); the flits newly sent join the retry buffer with consecutive sequence numbers, and it never grows past 2,048 (R416, R417). Time, memory, queues, semaphores and the other ports stay. Completes: SLOT_SEND. -/
def Obligations.SlotSendBuildsAGoodSlot : Prop :=  ∀ (p : Port) (s : State), s.ticking = true → ((s.port p).st = .active ∨ (s.port p).st = .identify ∨ (s.port p).st = .held) →
    (s.port p).retry.length ≤ 2048 →
    ∃ t sl new, exec (.slotSend p) s = .next t ∧ (t.port p).lastSlot = some sl ∧
      headerGood sl.hdr.toNat = true ∧ bits sl.hdr.toNat 24 8 = s.slot ∧ bits sl.hdr.toNat 48 16 = (s.port p).rxNext.toNat ∧
      sl.flits.length = 30 ∧ sl.crcs.length = 8 ∧ sl.parity = lightParity (slotBody sl.hdr sl.flits sl.crcs) ∧
      (slotBody sl.hdr sl.flits sl.crcs ++ sl.parity).length = 2000 ∧
      (∀ g, g < 8 → (sl.crcs.getD g 0).toNat = groupCrc (bits sl.hdr.toNat 32 16) sl.flits g) ∧
      (t.port p).retry = (s.port p).retry ++ new ∧ (t.port p).retry.length ≤ 2048 ∧
      (∀ i f, new[i]? = some f → f.seq = (s.port p).txSeq + BitVec.ofNat 16 i) ∧
      (t.port p).txSeq = (s.port p).txSeq + BitVec.ofNat 16 new.length ∧ (t.port p).rxNext = (s.port p).rxNext ∧
      t.time = s.time ∧ t.mem = s.mem ∧ t.queues = s.queues ∧ t.sems = s.sems ∧ (∀ p', p' ≠ p → t.port p' = s.port p')

/-- SLOT_RECEIVED at a linked port, of a slot as the codes of the port's mode leave it (R409, R413): one whose header fails its check is lost and counted, and nothing of it is taken (R414); of one whose header and groups are good and whose first flit is the one awaited, every flit is accepted in order (R417). RETRY_TIMEOUT: the oldest unacknowledged flit starts a replay of every flit of the retry buffer that does not lie before it, counted; after RETRY_LIMIT replays in a row from the same flit a port in service goes to RETRAIN instead, with the same flits to replay (R418, R421). Completes: SLOT_RECEIVED, RETRY_TIMEOUT. -/
def Obligations.SlotsReceived : Prop :=
  ((∀ (p : Port) (slot d : RxSlot) (s : State), linked (s.port p) = true → d = (decodeSlot (s.port p).hollyhock slot).1 → headerGood d.hdr.toNat = false →
      ∃ t, exec (.slotReceived p slot) s = .next t ∧ t.ports = s.ports ∧ t.counter 0x0A p.toNat 4 = (s.counter 0x0A p.toNat 4 + 1) % 2 ^ 64 ∧
        t.mem = s.mem ∧ t.queues = s.queues ∧ t.time = s.time) ∧
    (∀ (p : Port) (slot d : RxSlot) (s : State), linked (s.port p) = true → d = (decodeSlot (s.port p).hollyhock slot).1 → d.flits.length = 30 →
      headerGood d.hdr.toNat = true → bits d.hdr.toNat 32 16 = (s.port p).rxNext.toNat →
      (∀ g, g < 8 → groupCrc (bits d.hdr.toNat 32 16) d.flits g = (d.crcs.getD g 0).toNat) →
      ∃ t, exec (.slotReceived p slot) s = .next t ∧
        (t.port p).rxNext = (s.port p).rxNext + BitVec.ofNat 16 (bits d.hdr.toNat 16 5))) ∧
  (∀ (p : Port) (s : State) (f : TxFlit) (l : List TxFlit) (n : Nat), (s.port p).retry = f :: l → linked (s.port p) = true →
      n = (if (s.port p).replays ≠ 0 ∧ (s.port p).replayFrom = f.seq then (s.port p).replays + 1 else 1) →
      ∃ t, exec (.retryTimeout p) s = .next t ∧ (t.port p).retry = (s.port p).retry ∧ (t.port p).replayFrom = f.seq ∧
        (t.port p).replay = (f :: l).filter (fun x => !seqBefore x.seq f.seq) ∧
        (n > s.reg 0x3400 8 ∧ (s.port p).st = .active → (t.port p).st = .retrain) ∧
        (¬(n > s.reg 0x3400 8 ∧ (s.port p).st = .active) →
          (t.port p).st = (s.port p).st ∧ (t.port p).replays = n ∧ t.mem = s.mem ∧
          t.counter 0x0A p.toNat 6 = (s.counter 0x0A p.toNat 6 + 1) % 2 ^ 64))

/-- Link-management messages that wait in the inbox of a linked port, which takes each out (R420). IDENT keeps the far end's fields; in HELD, or in IDENTIFY once the hop latency is measured, the port's checks run: passing them it goes into service, failing one for a reason other than 0 it is held with it (R423, R424); elsewhere nothing more happens. PING is answered with PONG. PONG in IDENTIFY sets the hop latency, half the round trip less the turnaround in units of 0.1 ns; beyond the limit of the mode the port fails with LATENCY (R409, R410). OFFSET that agrees ends a mismatch; one that differs is adopted and reported by a module without a job from an aligned far end, is answered once by a module with a job, and at its second time is the fault TIME_MISMATCH (R35). LANE_MOVE is echoed and the lane will move at its beat; LANE_ACK marks the move that it echoes; RECHECK is answered with IDENT, and a held port checks again; a stretch record becomes LAST_STRETCH (R46, R420, R424, R425). Log entries 79 and 88 name the choices in the order of OFFSET and of PONG and IDENT. Completes: IDENT, PING, PONG, OFFSET, LANE_MOVE, LANE_ACK, RECHECK, STRETCH_RECORD. -/
def Obligations.ManagementMessages : Prop :=
  ((∀ (p : Port) (m : Msg) (s : State), mgmtIs s p m 1 = true → linked (s.port p) = true → (s.port p).st ≠ .held →
      ¬((s.port p).st = .identify ∧ (s.port p).measured = true) →
      exec (.ident p m) s = .next (s.setPort p { s.port p with
        inbox := (s.port p).inbox.erase m, neighbour := BitVec.ofNat 160 (msgField m 8 18), identSeen := true })) ∧
    (∀ (p : Port) (m : Msg) (s : State) (r : Nat), mgmtIs s p m 1 = true → ((s.port p).st = .held ∨ (s.port p).st = .identify ∧ (s.port p).measured = true) →
      r = identReason (s.setPort p { s.port p with neighbour := BitVec.ofNat 160 (msgField m 8 18) }) p →
      ∃ t, exec (.ident p m) s = .next t ∧ (t.port p).neighbour = BitVec.ofNat 160 (msgField m 8 18) ∧ (t.port p).inbox = (s.port p).inbox.erase m ∧
        (r = 0 → (t.port p).st = .active ∧ (t.port p).reason = 0) ∧
        (r ≠ 0 → (t.port p).st = .held ∧ (t.port p).reason = BitVec.ofNat 4 r) ∧
        (∀ p', p' ≠ p → t.port p' = s.port p'))) ∧
  ((∀ (p : Port) (m : Msg) (s : State), mgmtIs s p m 2 = true → linked (s.port p) = true →
      exec (.ping p m) s = .next (s.setPort p { s.port p with
        inbox := (s.port p).inbox.erase m
        mgmt := (s.port p).mgmt ++ toFlits (mgmtMsg 3 (leBytes 8 (msgField m 8 8) ++ leBytes 4 s.time.tick.toNat)) none })) ∧
    (∀ (p : Port) (m : Msg) (s : State) (lat : Nat), mgmtIs s p m 3 = true → (s.port p).st = .identify →
      lat = ((s.time.tick - BitVec.ofNat 64 (msgField m 8 8)).toNat - msgField m 0x10 4) * 50 →
      (lat ≤ (if (s.port p).hollyhock then 950 else 400) → (s.port p).identSeen = false →
        exec (.pong p m) s = .next (s.setPort p { s.port p with
          inbox := (s.port p).inbox.erase m, hopLatency := BitVec.ofNat 16 lat, measured := true })) ∧
      (lat ≤ (if (s.port p).hollyhock then 950 else 400) → (s.port p).identSeen = true →
        ∃ t, exec (.pong p m) s = .next t ∧ (t.port p).hopLatency = BitVec.ofNat 16 lat ∧
          (identReason s p = 0 → (t.port p).st = .active) ∧
          (identReason s p ≠ 0 → (t.port p).st = .held ∧ (t.port p).reason = BitVec.ofNat 4 (identReason s p))) ∧
      (lat > (if (s.port p).hollyhock then 950 else 400) →
        ∃ t, exec (.pong p m) s = .next t ∧ (t.port p).st = .failed ∧ (t.port p).reason = 11)) ∧
    (∀ (p : Port) (m : Msg) (s : State), mgmtIs s p m 4 = true → linked (s.port p) = true →
      (BitVec.ofNat 48 (msgField m 8 8) = s.time.offset →
        exec (.offset p m) s = .next (s.setPort p { s.port p with
          inbox := (s.port p).inbox.erase m, offsetAgreed := true, offsetDiffers := false, mismatch := false })) ∧
      (BitVec.ofNat 48 (msgField m 8 8) ≠ s.time.offset → s.jobs = [] → (msgField m 0x10 1 = 2 ∨ msgField m 0x10 1 = 3) →
        ∃ t, exec (.offset p m) s = .next t ∧ t.time = { s.time with offset := BitVec.ofNat 48 (msgField m 8 8) } ∧
          (t.port p).mgmt = (s.port p).mgmt ++ toFlits (offsetMsg t) none ∧ t.mem = s.mem ∧ t.queues = s.queues) ∧
      (BitVec.ofNat 48 (msgField m 8 8) ≠ s.time.offset → s.jobs ≠ [] → (s.port p).mismatch = false → (s.port p).offsetDiffers = false →
        exec (.offset p m) s = .next (s.setPort p { s.port p with
          inbox := (s.port p).inbox.erase m, offsetDiffers := true, offsetAgreed := false, mgmt := (s.port p).mgmt ++ toFlits (offsetMsg s) none })) ∧
      (BitVec.ofNat 48 (msgField m 8 8) ≠ s.time.offset → s.jobs ≠ [] → (s.port p).mismatch = false → (s.port p).offsetDiffers = true →
        ∃ t, exec (.offset p m) s = .next t ∧ (t.port p).mismatch = true ∧ 0x0012 ∈ t.dict.faults ∧ t.time = s.time ∧ t.queues = s.queues))) ∧
  ((∀ (p : Port) (m : Msg) (s : State), mgmtIs s p m 5 = true → (s.port p).st = .active →
      ∃ t v, exec (.laneMove p m) s = .next t ∧ (t.port p).moveTx = some v ∧ v.rx = false ∧ v.acked = true ∧
        v.lane = BitVec.ofNat 4 (msgField m 9 1) ∧ v.target = BitVec.ofNat 4 (msgField m 10 1) ∧ v.beat = BitVec.ofNat 48 (msgField m 11 8) ∧
        (t.port p).mgmt = (s.port p).mgmt ++ toFlits (mgmtMsg 6 (leBytes 11 (msgField m 8 11))) none ∧ (t.port p).moveRx = (s.port p).moveRx ∧
        t.mem = s.mem ∧ t.queues = s.queues ∧ ∀ p', p' ≠ p → t.port p' = s.port p') ∧
    (∀ (p : Port) (m : Msg) (s : State) (v : LaneMoveSt), mgmtIs s p m 6 = true → (s.port p).moveRx = some v →
      v.lane.toNat = msgField m 9 1 → v.target.toNat = msgField m 10 1 → v.beat.toNat = msgField m 11 8 →
      exec (.laneAck p m) s = .next (s.setPort p { s.port p with inbox := (s.port p).inbox.erase m, moveRx := some { v with acked := true } })) ∧
    (∀ (p : Port) (m : Msg) (s : State), mgmtIs s p m 7 = true → linked (s.port p) = true →
      ∃ t, exec (.recheck p m) s = .next t ∧ (t.port p).mgmt = (s.port p).mgmt ++ toFlits (identMsg s p) none ∧
        (t.port p).inbox = (s.port p).inbox.erase m ∧
        ((s.port p).st ≠ .held → (t.port p).st = (s.port p).st ∧ t.mem = s.mem) ∧
        ((s.port p).st = .held → (identReason s p = 0 → (t.port p).st = .active) ∧
          (identReason s p ≠ 0 → (t.port p).st = .held ∧ (t.port p).reason = BitVec.ofNat 4 (identReason s p)))) ∧
    (∀ (p : Port) (m : Msg) (s : State), (s.port p).inbox.contains m = true → msgKind m = 4 →
      ∃ t, exec (.stretchRecord p m) s = .next t ∧ t.time = { s.time with lastStretch := BitVec.ofNat 160 (msgField m 6 20) } ∧
        (t.port p).inbox = (s.port p).inbox.erase m ∧ t.mem = s.mem ∧ t.queues = s.queues ∧ t.dict = s.dict))

/-- Training (R411, R421, R422): a signal takes DETECT to EQUALISE; two ends that come out in Poppy, or an end that comes out in Hollyhock and none fixed to Poppy, lead to MAP in that mode, and a fixed Poppy end against Hollyhock fails with MODE; a map with the straight or reversed order and at most one lane lost leads to LOCK; the lock leads to IDENTIFY with sequence numbers from 0 and IDENT, PING and OFFSET queued. On an axis of size 1 a signal at an enabled port is reported as AXIS_UNUSED (R423). Completes: SIGNAL_DETECT, EQUALISE_CONVERGED, MAP_DONE, LOCK_ACHIEVED. -/
def Obligations.TrainingAdvances : Prop :=  (∀ (p : Port) (s : State), (s.port p).st = .detect →
    exec (.signalDetect p) s = .next (s.setPort p { s.port p with st := .equalise, idle := false })) ∧
  (∀ (p : Port) (s : State), (s.port p).st = .disabled → axisSize s (portAxis p) = 1 → (s.reg 0x3400 4).testBit p.toNat = true →
    exec (.signalDetect p) s = .next (s.setPort p { s.port p with reason := 6 })) ∧
  (∀ (p : Port) (low farH : Bool) (far : BitVec 2) (s : State) (own : Nat) (holly : Prop), (s.port p).st = .equalise →
    own = bits (s.reg 0x3400 5) (8 * p.toNat) 8 → (holly ↔ own = 1 ∨ (own = 2 ∧ low = false) ∨ far = 1 ∨ (far = 2 ∧ farH = true)) →
    (¬holly → exec (.equaliseConverged p low far farH) s = .next (s.setPort p { s.port p with st := .map, hollyhock := false })) ∧
    (holly → own ≠ 0 → far ≠ 0 →
      exec (.equaliseConverged p low far farH) s = .next (s.setPort p { s.port p with st := .map, hollyhock := true })) ∧
    (holly → own = 0 ∨ far = 0 →
      ∃ t, exec (.equaliseConverged p low far farH) s = .next t ∧ (t.port p).st = .failed ∧ (t.port p).reason = 8)) ∧
  (∀ (p : Port) (o : LaneOrder) (usable inverted : BitVec 9) (tx : Option (BitVec 4)) (s : State), (s.port p).st = .map → o ≠ .other →
    8 ≤ ((List.range 9).filter fun n => usable.getLsbD n).length →
    ∃ t, exec (.mapDone p o usable inverted tx) s = .next t ∧ (t.port p).st = .lock ∧ (t.port p).rxReversed = (o == .reversed) ∧
      (t.port p).rxPolarity = inverted ∧ (t.port p).rxMap.length = 8 ∧ (∀ l ∈ (t.port p).rxMap, usable.getLsbD l.toNat = true) ∧
      (t.port p).txSpare = tx.getD 8 ∧ t.mem = s.mem ∧ t.queues = s.queues ∧ ∀ p', p' ≠ p → t.port p' = s.port p') ∧
  (∀ (p : Port) (s : State), (s.port p).st = .lock →
    ∃ t, exec (.lockAchieved p) s = .next t ∧ (t.port p).st = .identify ∧ (t.port p).txSeq = 0 ∧ (t.port p).rxNext = 0 ∧
      (t.port p).retry = [] ∧ (t.port p).mgmt = toFlits (identMsg s p) none ++ toFlits (pingMsg s) none ++ toFlits (offsetMsg s) none ∧
      t.mem = s.mem ∧ t.queues = s.queues ∧ ∀ p', p' ≠ p → t.port p' = s.port p')

/-- Timeouts, losses and timers of a port (R421, R427, R544): EQUALISE and LOCK time out into FAILED with TRAIN_FAIL, a second later FAILED seeks again, HELD repeats IDENT, RETRAIN comes back to ACTIVE or loses the link, a lost link goes to DETECT, and a quiet DETECT is marked. Completes: EQUALISE_TIMEOUT, LOCK_TIMEOUT, FAILED_RETRY_TIMER, HELD_IDENT_TIMER, RETRAIN_DONE, RETRAIN_TIMEOUT, LINK_LOSS, PORT_DETECT_IDLE. -/
def Obligations.PortTimersMove : Prop :=  (∀ (p : Port) (s : State), (s.port p).st = .equalise →
    ∃ t, exec (.equaliseTimeout p) s = .next t ∧ (t.port p).st = .failed ∧ (t.port p).reason = 10) ∧
  (∀ (p : Port) (s : State), (s.port p).st = .lock →
    ∃ t, exec (.lockTimeout p) s = .next t ∧ (t.port p).st = .failed ∧ (t.port p).reason = 10) ∧
  (∀ (p : Port) (s : State), (s.port p).st = .failed →
    ∃ t, exec (.failedRetryTimer p) s = .next t ∧ (t.port p).st = .detect ∧ t.mem = s.mem ∧ t.queues = s.queues ∧ ∀ p', p' ≠ p → t.port p' = s.port p') ∧
  (∀ (p : Port) (s : State), (s.port p).st = .held →
    exec (.heldIdentTimer p) s = .next (s.setPort p { s.port p with mgmt := (s.port p).mgmt ++ toFlits (identMsg s p) none })) ∧
  (∀ (p : Port) (s : State), (s.port p).st = .retrain →
    exec (.retrainDone p) s = .next (s.setPort p { s.port p with st := .active })) ∧
  (∀ (p : Port) (s : State), (s.port p).st = .retrain →
    ∃ t, exec (.retrainTimeout p) s = .next t ∧ (t.port p).st = .detect ∧ (t.port p).retry = [] ∧ (t.port p).txSeq = 0) ∧
  (∀ (p : Port) (s : State), (s.port p).st ≠ .disabled → (s.port p).st ≠ .detect → (s.port p).st ≠ .failed →
    ∃ t, exec (.linkLoss p) s = .next t ∧ (t.port p).st = .detect ∧ (t.port p).retry = [] ∧ (t.port p).neighbour = (s.port p).neighbour) ∧
  (∀ (p : Port) (s : State), (s.port p).st = .detect →
    exec (.portDetectIdle p) s = .next (s.setPort p { s.port p with idle := true }))

/-- Lanes (R425, R426): a receive lane that loses its signal, or whose corrections in a second exceed LANE_ERR_LIMIT, is asked to move onto the unused spare; where the failed lane is the spare, the spare is used up, and where no spare is left the link goes down; a recalibration asks for the next logical lane. At its beat an agreed and acknowledged move switches the map of its direction and is counted; one that is not keeps the old map, and that is counted. Plugs and their supply (R556, R560): an overcurrent cuts VCC_T and holds the port DISABLED; a plug's presence is kept. Completes: LANE_SIGNAL_LOSS, LANE_ERROR_WINDOW, LANE_SWITCH, RECAL_TIMER, RECAL_READAPT_DONE, TORUS_SUPPLY_OVERCURRENT, MOD_PRS_CHANGE. -/
def Obligations.LanesAndPlugs : Prop :=
  ((∀ (p : Port) (lane : BitVec 4) (k : Nat) (s : State), (s.port p).st = .active → (s.port p).rxSpareUsed = false → (s.port p).moveRx = none →
      lane ≠ (s.port p).rxSpare → (s.port p).rxMap.findIdx? (· == lane) = some k →
      (exec (.laneSignalLoss p lane) s = .next (askMove s p (BitVec.ofNat 4 k) (s.port p).rxSpare 2 .spare)) ∧
      (∀ n, n > s.reg 0x3400 9 → ∃ t, exec (.laneErrorWindow p lane n) s = .next t ∧
        (t.port p).moveRx = some ⟨true, BitVec.ofNat 4 k, (s.port p).rxSpare, s.beat + 4, false, .spare⟩ ∧ t.mem = s.mem ∧ t.queues = s.queues)) ∧
    (∀ (p : Port) (lane : BitVec 4) (k : Nat) (s : State), (s.port p).st = .active →
      (lane = (s.port p).rxSpare → exec (.laneSignalLoss p lane) s = .next (s.setPort p { s.port p with rxSpareUsed := true })) ∧
      (lane ≠ (s.port p).rxSpare → (s.port p).rxMap.findIdx? (· == lane) = some k → (s.port p).rxSpareUsed = true →
        ∃ t, exec (.laneSignalLoss p lane) s = .next t ∧ (t.port p).st = .detect)) ∧
    (∀ (p : Port) (lane : BitVec 4) (n : Nat) (s : State), n ≤ s.reg 0x3400 9 →
      ∃ t, exec (.laneErrorWindow p lane n) s = .next t ∧ t.ports = s.ports ∧ t.mem = s.mem ∧ t.queues = s.queues) ∧
    (∀ (p : Port) (s : State), (s.port p).st = .active → s.reg 0x3400 6 ≠ 0 → (s.port p).rxSpareUsed = false → (s.port p).recalBusy = false →
      (s.port p).moveRx = none →
      ∃ t, exec (.recalTimer p) s = .next t ∧ (t.port p).recalBusy = true ∧
        (t.port p).moveRx = some ⟨true, (s.port p).recalNext, (s.port p).rxSpare, s.beat + 4, false, .recalOut⟩ ∧ t.mem = s.mem ∧ t.queues = s.queues) ∧
    (∀ (p : Port) (s : State), (s.port p).st = .active → (s.port p).recalBusy = true → (s.port p).moveRx = none →
      ∃ t, exec (.recalReadaptDone p) s = .next t ∧
        (t.port p).moveRx = some ⟨true, (s.port p).recalNext, (s.port p).rxSpare, s.beat + 4, false, .recalBack⟩ ∧ t.mem = s.mem ∧ t.queues = s.queues)) ∧
  ((∀ (p : Port) (v : LaneMoveSt) (s : State), dueMove s (s.port p) = some v → v.acked = true →
      ∃ t, exec (.laneSwitch p true) s = .next t ∧ t.counter 0x0A p.toNat 13 = (s.counter 0x0A p.toNat 13 + 1) % 2 ^ 64 ∧
        (v.rx = true → (t.port p).moveRx = none ∧ (t.port p).rxMap = (s.port p).rxMap.set v.lane.toNat v.target ∧ (t.port p).txMap = (s.port p).txMap ∧
          (t.port p).rxSpare = (s.port p).rxMap.getD v.lane.toNat 0) ∧
        (v.rx = false → (t.port p).moveTx = none ∧ (t.port p).txMap = (s.port p).txMap.set v.lane.toNat v.target ∧ (t.port p).rxMap = (s.port p).rxMap)) ∧
    (∀ (p : Port) (v : LaneMoveSt) (agreed : Bool) (s : State), dueMove s (s.port p) = some v → (agreed = false ∨ v.acked = false) →
      ∃ t, exec (.laneSwitch p agreed) s = .next t ∧ (v.rx = true → (t.port p).moveRx = none) ∧ (v.rx = false → (t.port p).moveTx = none) ∧
        (t.port p).rxMap = (s.port p).rxMap ∧ (t.port p).txMap = (s.port p).txMap ∧
        t.counter 0x0A p.toNat 14 = (s.counter 0x0A p.toNat 14 + 1) % 2 ^ 64)) ∧
  ((∀ (p : Port) (i : BitVec 16) (s : State),
      ∃ t, exec (.torusSupplyOvercurrent p i) s = .next t ∧ (t.port p).st = .disabled ∧ (t.port p).supplyCut = true ∧ mayTrain t p = false) ∧
    (∀ (p : Port) (b : Bool) (s : State),
      exec (.modPrsChange p b) s = .next (s.setPort p { s.port p with plugged := b })))

/-- A segment in a port's inbox for the RED_BUCKET of a context (R438, R442, R443, R447): it waits while the chain is yet to start; at a running chain whose operands can be read and written, one of its shard that has not come yet and fits is handled, its space is granted again to the port behind (R440), and one that does not fit is discarded and counted. A data or credit message that names no context of its job, or a command that is no longer there, is discarded and counted in CHAIN_UNMATCHED; a credit grant that arrives on the port on which the command in its context, or its verdict round, sends, and matches its TAG and epoch, adds its flits to the credits, and any other grant is held, as is a second whole window, which is for a later command of the same TAG (R438, R440, R455; log entry 68). Completes: CHAIN_SEGMENT_RECEIVED, TRANSFER_SEGMENT_RECEIVED, CREDIT_GRANT_RECEIVED. -/
def Obligations.SegmentsAndCredits : Prop :=
  (∀ (p : Port) (m : Msg) (s : State) (q : QNum) (j : Nat) (idx : BitVec 16) (c : Cmd) (i : Instr),
      (i = .chainSegmentReceived p m ∧ msgKind m = 2 ∧ msgOr m = false ∧ bkGather c = false ∨
        i = .transferSegmentReceived p m ∧ msgKind m = 1 ∧ bkGather c = true) → msgCredit m = false → (s.port p).inbox.contains m = true →
      msgCtx s m = some (q, j) → (s.ctx q).cur = some (idx, c) → bkTag c = msgTag m → (s.ctx q).epoch = msgEpoch m →
      ((s.ctx q).running = false → exec i s = .next ((takeMsg s p m).setCtx q { s.ctx q with inq := (s.ctx q).inq ++ [m] })) ∧
      (∀ w : Started, (s.ctx q).running = true → (s.queue q).started.find? (fun w => w.idx == idx) = some w → w.cmd = c → w.status = 0 →
        NearClear s q idx → ChainReady w.copies (s.job j) c →
        (segFits (chainOf w.copies (s.job j) c) (bkWire c) (s.ctx q).segs m = true →
          ∃ t, exec i s = .next t ∧ (t.port p).inbox = (s.port p).inbox.erase m ∧ (t.ctx q).cur = some (idx, c) ∧
            tget 0 (t.ctx q).segs (msgShard m) = tget 0 (s.ctx q).segs (msgShard m) + 2 ^ msgField m 0x10 4 ∧
            ((s.port (bucketBack c)).up = true → (t.port (bucketBack c)).backlog = (s.port (bucketBack c)).backlog ++
              toFlits (creditMsg (s.job j) q (bkGather c) (s.ctx q).epoch.toNat (bkTag c).toNat (m.data.length + 1)) none)) ∧
        (segFits (chainOf w.copies (s.job j) c) (bkWire c) (s.ctx q).segs m = false →
          ∃ t, exec i s = .next t ∧ t.counter 5 0 17 = (s.counter 5 0 17 + 1) % 2 ^ 64 ∧ (t.port p).inbox = (s.port p).inbox.erase m ∧
            t.ctx q = s.ctx q ∧ t.mem = s.mem))) ∧
  (∀ (p : Port) (m : Msg) (s : State) (i : Instr), (s.port p).inbox.contains m = true → msgCtx s m = none →
      (i = .chainSegmentReceived p m ∧ msgKind m = 2 ∧ msgOr m = false ∧ msgCredit m = false ∨
        i = .transferSegmentReceived p m ∧ msgKind m = 1 ∧ msgCredit m = false ∨
        i = .creditGrantReceived p m ∧ msgKind m ≤ 2 ∧ msgCredit m = true) →
      exec i s = .next (unmatched (takeMsg s p m))) ∧
  ((∀ (p : Port) (m : Msg) (s : State) (q : QNum) (j : Nat) (idx : BitVec 16) (c : Cmd), (s.port p).inbox.contains m = true → msgKind m ≤ 2 →
      msgCredit m = true → msgCtx s m = some (q, j) → (s.ctx q).cur = some (idx, c) →
      ∃ t, exec (.creditGrantReceived p m) s = .next t ∧
        ((p = bucketPort c ∧ bkTag c = msgTag m ∧ (s.ctx q).epoch = msgEpoch m ∧ ¬((s.ctx q).opened = true ∧ msgField m 0x0E 2 = s.reg 0x3800 2)) →
          t.ctx q = { s.ctx q with
            credits := (s.ctx q).credits + msgField m 0x0E 2, opened := (s.ctx q).opened || msgField m 0x0E 2 == s.reg 0x3800 2 }) ∧
        (¬(p = bucketPort c ∧ bkTag c = msgTag m ∧ (s.ctx q).epoch = msgEpoch m ∧ ¬((s.ctx q).opened = true ∧ msgField m 0x0E 2 = s.reg 0x3800 2)) →
          t.ctx q = { s.ctx q with grants := (s.ctx q).grants ++ [⟨p, msgTag m, msgEpoch m, msgField m 0x0E 2⟩] }) ∧
        t.mem = s.mem ∧ t.queues = s.queues ∧ t.sems = s.sems ∧ t.jobs = s.jobs) ∧
    (∀ (p : Port) (m : Msg) (s : State) (q : QNum) (j : Nat), (s.port p).inbox.contains m = true → msgKind m ≤ 2 → msgCredit m = true →
      msgCtx s m = some (q, j) → (s.ctx q).cur = none →
      (((s.ctx q).round = none ∨ msgTag m ≠ roundTag ∨ (s.ctx q).epoch ≠ msgEpoch m ∨ ((s.ctx q).opened = true ∧ msgField m 0x0E 2 = s.reg 0x3800 2) ∨
          (∃ jid a n, (s.ctx q).round = some (jid, a, n) ∧ p ≠ axisPort a.toNat true)) →
        exec (.creditGrantReceived p m) s =
          .next ((takeMsg s p m).setCtx q { s.ctx q with grants := (s.ctx q).grants ++ [⟨p, msgTag m, msgEpoch m, msgField m 0x0E 2⟩] })) ∧
      (∀ (jid : BitVec 32) (a : BitVec 2) (n : Nat), (s.ctx q).round = some (jid, a, n) → p = axisPort a.toNat true → msgTag m = roundTag →
        (s.ctx q).epoch = msgEpoch m → ¬((s.ctx q).opened = true ∧ msgField m 0x0E 2 = s.reg 0x3800 2) →
        exec (.creditGrantReceived p m) s = .next (settleRound (flushRound ((takeMsg s p m).setCtx q
          { s.ctx q with
            credits := (s.ctx q).credits + msgField m 0x0E 2, opened := (s.ctx q).opened || msgField m 0x0E 2 == s.reg 0x3800 2 })
          q (axisPort a.toNat true) 2) q))))

/-- The verdict round (R222, R451): a round that was asked for enters its chain context on the lowest axis asked for; a word that arrives in the round is taken, replacing the module's own at coordinate 0 and in the second pass, and ORed into it in the first. CHAIN_START: the RED_BUCKET whose bucket is full releases the head of its queue, and, its operands being readable and writable and its port in service, its chain runs, or, in a step that does not send, its bucket is added and the context is free again; RESHARD_INSTALL, with every chain of the old epoch complete, installs the epoch and the roles at a beat boundary and ends the RESHARD (R447, R453). A reduction job identifier goes from DRAINING to HOLD once no chain of it is active, and from HOLD to FREE when its hold ends; nothing else changes (R454). Completes: VERDICT_MESSAGE_RECEIVED, CHAIN_START, RESHARD_INSTALL, VERDICT_ROUND_START, RED_JOB_DRAINED, RED_JOB_HOLD_EXPIRY. -/
def Obligations.ChainsAndRounds : Prop :=
  ((∀ (q : QNum) (s : State) (j : Job) (v : Verdict) (a : Nat), s.job? (s.queue q).job.toNat = some j → j.verdict = some v → v.chain = q →
      (s.ctx q).cur = none → (s.ctx q).round = none → j.reshard = none → (s.queue q).started.all (·.done) = true → firstAxis v.axes = some a →
      (s.port (axisPort a true)).up = true → (s.port (axisPort a false)).up = true →
      ∃ t, exec (.verdictRoundStart q) s = .next t ∧ (t.ctx q).round = some (BitVec.ofNat 32 (s.queue q).job.toNat, BitVec.ofNat 2 a, 0) ∧
        (t.ctx q).epoch = j.epoch ∧ t.jobs = s.jobs ∧ t.mem = s.mem ∧ t.queues = s.queues) ∧
    (∀ (p : Port) (m : Msg) (s : State) (q : QNum) (k n : Nat) (jid : BitVec 32) (a : BitVec 2) (j : Job) (v : Verdict), (s.port p).inbox.contains m = true →
      msgKind m = 2 → msgCredit m = false → msgOr m = true → msgCtx s m = some (q, k) → (s.ctx q).round = some (jid, a, n) →
      (s.ctx q).epoch = msgEpoch m → msgTag m = roundTag → m.data.length = 9 → n < roundIn ((s.job jid.toNat).q.getD a.toNat 0) →
      s.job? jid.toNat = some j → j.verdict = some v →
      exec (.verdictMessageReceived p m) s = .next (takeWord (takeMsg s p m) q (s.ctx q) jid a n m) ∧
      (j.q.getD a.toNat 0 ≠ 0 → n = 0 →
        ∃ t, exec (.verdictMessageReceived p m) s = .next t ∧ (t.ctx q).round = some (jid, a, 1) ∧
          t.job? jid.toNat = some { j with verdict := some { v with word := orWords ((msgData m).take 513) v.word } } ∧ t.mem = s.mem ∧ t.queues = s.queues))) ∧
  ((∀ (q : QNum) (s : State) (i idx : BitVec 16) (c : Cmd) (n : SemNum) (g : BitVec 64) (w : Started) (j : Job), (s.queue q).hold = .fill i n g true →
      (s.ctx q).cur = some (idx, c) → (s.queue q).started.find? (fun w => w.idx == idx) = some w → w.cmd = c → w.status = 0 →
      j = s.job (s.queue q).job.toNat → NearClear s q idx → ChainReady w.copies j c → (s.port (bucketPort c)).up = true →
      ∃ t, exec (.chainStart q) s = .next t ∧ (t.queue q).hold = .none ∧
        ((bkN c = 1 ∨ sends c j.step = true) → (t.ctx q).running = true ∧ (t.ctx q).cur = some (idx, c) ∧ (t.ctx q).step = j.step) ∧
        (¬(bkN c = 1 ∨ sends c j.step = true) → (t.ctx q).cur = none ∧ ∀ u ∈ (t.queue q).started, u.idx = idx → u.done = true)) ∧
    (∀ (job : BitVec 32) (s : State) (j : Job) (q : QNum) (idx : BitVec 16) (c : Cmd), s.job? job.toNat = some j →
      j.reshard = some (q, idx, c) → activeChains s job.toNat = 0 → s.slot = 0 → s.ticking = true →
      ∃ t, exec (.reshardInstall job) s = .next t ∧
        t.job? job.toNat = some { j with epoch := BitVec.ofNat 6 (cmdField c 8 1), roles := BitVec.ofNat 16 (cmdField c 0x0C 2), reshard := none } ∧
        (∀ w ∈ (t.queue q).started, w.idx = idx → w.done = true ∧ w.status = 0) ∧
        t.mem = s.mem ∧ t.sems = s.sems ∧ t.time = s.time)) ∧
  ((∀ (r : BitVec 10) (e : BitVec 6) (s : State), tfind s.redJobs r.toNat = some (.draining, e) → redBusy s r.toNat = false →
      exec (.redJobDrained r) s = .next { s with redJobs := tput r.toNat (.hold, e) s.redJobs }) ∧
    (∀ (r : BitVec 10) (e : BitVec 6) (s : State), tfind s.redJobs r.toNat = some (.hold, e) →
      exec (.redJobHoldExpiry r) s = .next { s with redJobs := tdel r.toNat s.redJobs }))

/-- A satisfied WAIT whose prefetches are all valid completes: its queue moves past it with status OK, and those tracker entries are freed (R295, R368). Other queues, memory and semaphores stay. The end of a replay whose status block, if it has one, lies in near memory (R295, R296): an error ends the wait with the replay's status; a valid entry lets the wait be settled; an invalid one ends the wait with REFETCH after REFETCH_LIMIT replays in a row, and replays again before. Completes: WAIT_SATISFIED, PREFETCH_REPLAY_DONE. -/
def Obligations.WaitsComplete : Prop :=
  (∀ (q : QNum) (s : State) (i : BitVec 16) (c : Cmd) (n : SemNum) (eq : Bool) (g : BitVec 64),
      ((s.queue q).st = .active ∨ (s.queue q).st = .halted) → (s.queue q).hold = .wait i c n eq g true →
      (∀ k ∈ checkedTracks s n eq g, k.run = none ∧ k.valid s = true) →
      ∃ t w, exec (.waitSatisfied q) s = .next t ∧ (t.queue q).next = (s.queue q).next + 1 ∧ (t.queue q).hold = .none ∧
        (t.queue q).started = (s.queue q).started ++ [w] ∧ w.idx = i ∧ w.cmd = c ∧ w.done = true ∧ w.status = 0 ∧
        checkedTracks t n eq g = [] ∧ t.mem = s.mem ∧ t.sems = s.sems ∧ ∀ q', q' ≠ q → t.queue q' = s.queue q') ∧
  (∀ (q : QNum) (s s1 s2 : State) (t : Track) (w : Started) (i : BitVec 16) (c : Cmd) (n : SemNum) (eq b : Bool) (g : BitVec 64),
      replayOf s q = some (t, w) → (∀ x ∈ w.stat, x.1 = 0) → w.ue = none → (s.queue q).hold = .wait i c n eq g b →
      s1 = (completeStat s (s.queue t.queue).func.toNat t.job.toNat w).1 → s2 = w.writes.foldl (fun s i => genEnd s i.toNat) s1 →
      (isError w.status.toNat = true → ∃ u x, exec (.prefetchReplayDone q) s = .next u ∧ (u.queue q).hold = .none ∧
        (u.queue q).started = (s.queue q).started ++ [x] ∧ x.idx = i ∧ x.status = w.status ∧ x.detail = w.detail ∧ (u.queue q).next = (s.queue q).next + 1) ∧
      (isError w.status.toNat = false → t.valid s2 = true → exec (.prefetchReplayDone q) s =
        .next (settleWait (putTrack s2 t (some { t with run := none, replays := 0 })) q)) ∧
      (isError w.status.toNat = false → t.valid s2 = false → t.replays ≥ s2.reg 0x4030 3 →
        ∃ u x, exec (.prefetchReplayDone q) s = .next u ∧ (u.queue q).hold = .none ∧
          (u.queue q).started = (s.queue q).started ++ [x] ∧ x.idx = i ∧ x.status.toNat = stRefetch ∧ (u.queue q).next = (s.queue q).next + 1) ∧
      (isError w.status.toNat = false → t.valid s2 = false → t.replays < s2.reg 0x4030 3 → exec (.prefetchReplayDone q) s =
        .next (startRefetch (putTrack s2 t (some { t with run := none })) q { t with run := none })))

/-- The completion record: status, SEQ, the opcode-specific word and the location, with PHASE in its top bit, in 16 little-endian bytes (R362). -/
def Obligations.CompletionRecordLayout : Prop :=  ∀ w : Started, (recordBytes w).length = 16 ∧ byteField (recordBytes w) 0 2 = w.status.toNat ∧
    byteField (recordBytes w) 2 2 = cmdField w.cmd 2 2 ∧ byteField (recordBytes w) 4 4 = w.opspec.toNat ∧
    byteField (recordBytes w) 8 7 = w.detail.toNat ∧
    byteField (recordBytes w) 15 1 = w.reason.toNat + 16 * w.dkind.toNat + if w.phase then 128 else 0

/-- COMMAND_COMPLETE of a command whose work is over, whose status block, if it has one, lies in near memory, and whose record's place in the completion ring leads to memory in service or to a host: the status block is written, then the semaphore advances, then the record is written there; the command leaves the queue; with OK nothing else of memory and no other semaphore changes, and an error without the flag that keeps the queue running halts it (R344, R355, R364). The semaphore of a command that completes with OK advances by its add, modulo 2^64, where it is LIVE and assigned; a command with another status leaves it (R344, R366, R367). Completes: COMMAND_COMPLETE. -/
def Obligations.CompletionWritesTheRecord : Prop :=
  (∀ (q : QNum) (idx : BitVec 16) (s s0 s1 : State) (w w1 : Started) (f va : Nat), (s.ctx q).cur = none →
      ((s.queue q).st = .active ∨ (s.queue q).st = .halted) → (s.queue q).flushing = false → findDone (s.queue q) idx = some w →
      (∀ x ∈ w.stat, x.1 = 0) → f = (s.queue q).func.toNat → s0 = (completeStat s f (s.queue q).job.toNat w).1 → completeSem s0 f w = (s1, w1) →
      va = (s.queue q).comp.toNat + 16 * (idx.toNat % (s.queue q).n) → va % 65536 + 16 ≤ 65536 →
      ((∃ a leaf, xlate s1 f (s.queue q).job.toNat va true = .dev a leaf ∧ devicesOk s1 a 16 = true) ∨
        ∃ p a, xlate s1 f (s.queue q).job.toNat va true = .host p a) →
      ∃ t, exec (.commandComplete q idx) s = .next t ∧ (∀ u ∈ (t.queue q).started, u.idx ≠ idx) ∧
        (isError w1.status.toNat = true → (cmdField w1.cmd 1 1).testBit 2 = false → (s.queue q).st = .active → (s.queue q).destroying = false →
          (t.queue q).st = .halted) ∧
        (w1.status = 0 → t.sems = s1.sems ∧ (∀ p a, xlate s1 f (s.queue q).job.toNat va true = .host p a → t.mem = s0.mem) ∧
          ∀ a leaf, xlate s1 f (s.queue q).job.toNat va true = .dev a leaf → t.mem = memPut a (recordBytes w1) s0.mem) ∧
        (w.stat = none → s0 = s) ∧ t.pending = s.pending ∧ t.time = s.time) ∧
  (∀ (s : State) (f : Nat) (w : Started) (n : BitVec 32) (v : BitVec 64), w.sem = some (n, v) →
      (w.status = 0 → semCheck s f n.toNat = stOk →
        ((completeSem s f w).1.sem n.toNat).value = (s.sem n.toNat).value + v ∧ (completeSem s f w).2 = w) ∧
      (w.status = 0 → semCheck s f n.toNat ≠ stOk →
        (completeSem s f w).1 = s ∧ (completeSem s f w).2.status = BitVec.ofNat 16 (semCheck s f n.toNat)) ∧
      (w.status ≠ 0 → completeSem s f w = (s, w)))

/-- A wait that a value has satisfied stays satisfied, whatever values follow (R368). An unsatisfied wait on a semaphore is satisfied by exactly the stores that meet it: the same value under EQ, a value of at least the target otherwise (R368). DEADLOCK_TIMEOUT: with every queue of a job blocked, one at least by a WAIT or a mask reference, the condition is raised once: the job's snapshot is taken, and DEADLOCK is posted to its owner (R376, R377). Completes: DEADLOCK_TIMEOUT. -/
def Obligations.WaitsAndDeadlock : Prop :=
  (∀ (s : State) (n : Nat) (v : BitVec 64) (q : QNum) (i : BitVec 16) (c : Cmd) (m : SemNum) (eq : Bool) (g : BitVec 64),
      (s.queue q).hold = .wait i c m eq g true → ((semStore s n v).queue q).hold = .wait i c m eq g true) ∧
  (∀ (s : State) (n : Nat) (v : BitVec 64) (q : QNum) (i : BitVec 16) (c : Cmd) (m : SemNum) (eq : Bool) (g : BitVec 64),
      (s.queue q).hold = .wait i c m eq g false →
      ((semStore s n v).queue q).hold =
        .wait i c m eq g (decide (m.toNat = n) && if eq then decide (v = g) else decide (g.toNat ≤ v.toNat))) ∧
  (∀ (job : BitVec 32) (s : State) (j : Job), s.job? job.toNat = some j → j.deadlocked = false → j.aborting = false →
      (∀ q ∈ queuesOf s job.toNat, (blockedAs (s.queue q)).isSome = true) →
      (∃ q ∈ queuesOf s job.toNat, ∃ k n g, blockedAs (s.queue q) = some (k, n, g) ∧ k ≠ 3) →
      ∃ t j', exec (.deadlockTimeout job) s = .next t ∧ t.job? job.toNat = some j' ∧ j'.deadlocked = true ∧
        j' = { j with deadlocked := true, snapshot := j'.snapshot } ∧
        byteField j'.snapshot 0 2 = min 256 (queuesOf s job.toNat).length ∧ byteField j'.snapshot 4 4 = job.toNat ∧
        byteField j'.snapshot 8 8 = s.time.tick.toNat ∧ t.queues = s.queues ∧ t.sems = s.sems ∧ t.time = s.time)

/-- While the IOD runs and the function exists (R20, R462): DOORBELL_WRITE of 4 or 8 bytes, by an agreed function that reaches the queue, whose value covers commands within the ring and does not move TAIL backward: TAIL takes the value and nothing else of the queue's place moves (R352, R468). Every byte of memory, every semaphore and every other queue stays. A doorbell of another size, of a value above 16 bits, by a function that has not agreed a level or does not reach the queue, is dropped and counted; nothing else changes (R467, R468). The semaphore window: an 8-byte write by an agreed function to a LIVE semaphore assigned to it stores the value, or adds it modulo 2^64; memory, other semaphores and time stay; one of another size, by a function without an agreed level, or to a semaphore not LIVE or not assigned to it, is dropped and counted (R367, R370). A write before TIME_REF has locked has no effect (R20, R542). Completes: DOORBELL_WRITE, SEM_WINDOW_SET, SEM_WINDOW_ADD. -/
def Obligations.DoorbellsAndSemaphoreWindow : Prop :=
  (∀ (f : Func) (q : QNum) (size : Nat) (v : BitVec 64) (s : State), hostOpen s f.toNat = true → (size = 4 ∨ size = 8) → sized size v < 65536 →
      (s.func f.toNat).agreed ≠ 0 → reachesQueue s f.toNat q = true → (s.queue q).st ≠ .free → (s.queue q).st ≠ .aborted →
      (s.queue q).destroying = false → (BitVec.ofNat 16 v.toNat - (s.queue q).head).toNat < (s.queue q).n →
      ((s.queue q).tail - (s.queue q).head).toNat ≤ (BitVec.ofNat 16 v.toNat - (s.queue q).head).toNat →
      ∃ t, exec (.doorbellWrite f q size v) s = .next t ∧ (t.queue q).tail = BitVec.ofNat 16 v.toNat ∧
        (t.queue q).head = (s.queue q).head ∧ (t.queue q).next = (s.queue q).next ∧ (t.queue q).started = (s.queue q).started ∧
        t.mem = s.mem ∧ t.sems = s.sems ∧ t.time = s.time ∧ ∀ q', q' ≠ q → t.queue q' = s.queue q') ∧
  (∀ (f : Func) (q : QNum) (size : Nat) (v : BitVec 64) (s : State), hostOpen s f.toNat = true →
      ((size ≠ 4 ∧ size ≠ 8) ∨ 65536 ≤ sized size v ∨ (s.func f.toNat).agreed = 0 ∨ reachesQueue s f.toNat q = false) →
      ∃ t, exec (.doorbellWrite f q size v) s = .next t ∧ t.counter 0x0B f.toNat 5 = (s.counter 0x0B f.toNat 5 + 1) % 2 ^ 64 ∧
        t = { s with dict := t.dict }) ∧
  (∀ (f : Func) (n : SemNum) (v : BitVec 64) (s : State), hostOpen s f.toNat = true → functionAborting s f.toNat = false → (s.func f.toNat).agreed ≠ 0 →
      s.assignedTo 2 n.toNat f.toNat = true → (s.sem n.toNat).st = .live →
      (∃ t, exec (.semWindowSet f n 8 v) s = .next t ∧ t.sem n.toNat = { s.sem n.toNat with value := v } ∧
        t.mem = s.mem ∧ t.time = s.time ∧ ∀ k, k ≠ n.toNat → t.sem k = s.sem k) ∧
      (∃ t, exec (.semWindowAdd f n 8 v) s = .next t ∧ t.sem n.toNat = { s.sem n.toNat with value := (s.sem n.toNat).value + v } ∧
        t.mem = s.mem ∧ t.time = s.time ∧ ∀ k, k ≠ n.toNat → t.sem k = s.sem k)) ∧
  (∀ (f : Func) (n : SemNum) (size : Nat) (v : BitVec 64) (s : State) (i : Instr), (i = .semWindowSet f n size v ∨ i = .semWindowAdd f n size v) →
      hostOpen s f.toNat = true → functionAborting s f.toNat = false →
      (size ≠ 8 ∨ (s.func f.toNat).agreed = 0 ∨ s.assignedTo 2 n.toNat f.toNat = false ∨ (s.sem n.toNat).st ≠ .live) →
      exec i s = .next (bump s 0x0B f.toNat 2 1)) ∧
  (∀ (f : Func) (q : QNum) (n : SemNum) (size : Nat) (v : BitVec 64) (s : State) (i : Instr),
      i ∈ [Instr.doorbellWrite f q size v, .semWindowSet f n size v, .semWindowAdd f n size v] → s.ticking = false → exec i s = .next s)

/-- While the IOD runs and the function exists (R20, R462): LEVEL: AGREED becomes 1 for a host level of 1 or more and 0 for 0, unless that would change it while the function owns a job or a LIVE semaphore, when the write is ignored (R467). Unmasking a vector clears its mask bit, and a pending message of it leaves where MSI-X is enabled (R464). BAR2_RESIZE of a physical function to a legal size: the size is taken, and an aperture base that no longer fits resets to 0; of a virtual function, every virtual function of its port takes the size (R463, R469). Completes: LEVEL_WRITE, MSIX_VECTOR_UNMASK, BAR2_RESIZE. -/
def Obligations.FunctionRegisters : Prop :=
  (∀ (f : Func) (v : BitVec 32) (s : State), hostOpen s f.toNat = true →
      (((if BitVec.ofNat 4 v.toNat = 0 then (0 : BitVec 4) else 1) = (s.func f.toNat).agreed ∨ ownsWork s f.toNat = false) →
        exec (.levelWrite f v) s = .next (s.setFunc f.toNat { s.func f.toNat with
          levelHost := BitVec.ofNat 4 v.toNat, agreed := if BitVec.ofNat 4 v.toNat = 0 then 0 else 1 })) ∧
      ((if BitVec.ofNat 4 v.toNat = 0 then (0 : BitVec 4) else 1) ≠ (s.func f.toNat).agreed → ownsWork s f.toNat = true →
        exec (.levelWrite f v) s = .next s)) ∧
  (∀ (f : Func) (v : BitVec 11) (s : State), hostOpen s f.toNat = true →
      ∃ t, exec (.msixVectorUnmask f v) s = .next t ∧ (t.func f.toNat).msixMask.getLsbD v.toNat = false ∧
        (t.func f.toNat).msixPending.getLsbD v.toNat = false ∧
        tget 0 (t.func f.toNat).msixSent v.toNat = tget 0 (s.func f.toNat).msixSent v.toNat +
          (if (s.func f.toNat).msixPending.getLsbD v.toNat = true ∧ (s.func f.toNat).msixEnabled = true then 1 else 0) ∧
        t.mem = s.mem ∧ t.queues = s.queues ∧ ∀ g, g ≠ f.toNat → t.func g = s.func g) ∧
  (∀ (f : Func) (l : BitVec 6) (s : State), hostOpen s f.toNat = true → 30 ≤ l.toNat → l.toNat ≤ 42 →
      ∃ t, exec (.bar2Resize f l) s = .next t ∧ (t.func f.toNat).bar2Log2 = l ∧
        (t.func f.toNat).aperture = (if baseOk (s.func f.toNat).aperture.toNat l.toNat then (s.func f.toNat).aperture else 0) ∧
        (f.toNat % 64 ≠ 0 → ∀ g, g / 64 = f.toNat / 64 → g % 64 ≠ 0 → (t.func g).bar2Log2 = l) ∧
        (∀ g, g / 64 ≠ f.toNat / 64 → t.func g = s.func g) ∧ t.mem = s.mem ∧ t.queues = s.queues)

/-- BAR2 (R469, R470), while the IOD runs and the function exists: a served read of devices in service returns the bytes of memory, or none of a poisoned range; a served write to devices in service stores its bytes at the aperture's base plus the offset and changes no other byte; an access that is not served reads as ones, or is dropped, and is counted. A device out of service returns open bytes, and a write to it stores nothing (R273). Completes: BAR2_READ, BAR2_WRITE. -/
def Obligations.ApertureReadsAndWrites : Prop :=  (∀ (f : Func) (off : BitVec 42) (len : Nat) (s : State), hostOpen s f.toNat = true → apertureOk s f.toNat off.toNat len = true →
    (devicesOk s ((s.func f.toNat).aperture.toNat + off.toNat) len = true →
      ∃ t, exec (.bar2Read f off len) s = .next t ∧ t.mem = s.mem ∧ t.queues = s.queues ∧
        (t.func f.toNat).bar2Data = (if (poisonIn s ((s.func f.toNat).aperture.toNat + off.toNat) len).isSome then none
          else some (physRead s ((s.func f.toNat).aperture.toNat + off.toNat) len))) ∧
    (devicesOk s ((s.func f.toNat).aperture.toNat + off.toNat) len = false →
      ∃ t bs, exec (.bar2Read f off len) s = .next t ∧ (t.func f.toNat).bar2Data = some bs ∧ bs.length = len ∧ t.mem = s.mem ∧ t.queues = s.queues)) ∧
  (∀ (f : Func) (off : BitVec 42) (data : List Byte) (s : State), hostOpen s f.toNat = true → Memory.wf s.mem = true →
    apertureOk s f.toNat off.toNat data.length = true →
    (devicesOk s ((s.func f.toNat).aperture.toNat + off.toNat) data.length = true →
      ∃ t, exec (.bar2Write f off data) s = .next t ∧ t.queues = s.queues ∧ t.sems = s.sems ∧
        ∀ x, memGet t.mem x = if (s.func f.toNat).aperture.toNat + off.toNat ≤ x ∧ x < (s.func f.toNat).aperture.toNat + off.toNat + data.length
          then data.getD (x - ((s.func f.toNat).aperture.toNat + off.toNat)) 0 else memGet s.mem x) ∧
    (devicesOk s ((s.func f.toNat).aperture.toNat + off.toNat) data.length = false → exec (.bar2Write f off data) s = .next s)) ∧
  (∀ (f : Func) (off : BitVec 42) (len : Nat) (s : State), hostOpen s f.toNat = true → apertureOk s f.toNat off.toNat len = false →
    ∃ t, exec (.bar2Read f off len) s = .next t ∧ (t.func f.toNat).bar2Data = some (List.replicate len 0xFF) ∧
      t.counter 0x0B f.toNat 4 = (s.counter 0x0B f.toNat 4 + 1) % 2 ^ 64 ∧ t.mem = s.mem) ∧
  (∀ (f : Func) (off : BitVec 42) (data : List Byte) (s : State), hostOpen s f.toNat = true → apertureOk s f.toNat off.toNat data.length = false →
    ∃ t, exec (.bar2Write f off data) s = .next t ∧ t.mem = s.mem ∧ t.counter 0x0B f.toNat 4 = (s.counter 0x0B f.toNat 4 + 1) % 2 ^ 64)

/-- Host pages (R283, R465): a response or a timeout is kept for the outstanding request that it answers, and the event records that waited for it are written; an invalidation request of a host range, of which at most 32 stand, forgets the function's answered pages that overlap it, and is completed at once unless a write of the function to the range has no response yet. INVALIDATION_COMPLETE, with no write of the function to the range outstanding: the invalidation in progress is counted, no cached translation of its range and no answered host page of its function stays, the one that waited first starts, and the function's running jobs read its root again (R282, R284, R309). PAGE_MOVE of a page into a free frame, not written meanwhile, with an idle die DMA engine: every byte of the new frame is the old frame's, the leaf entry points at the new frame with its low eight bits kept, and no other byte of memory changes; of a page written meanwhile the move stays for another attempt, and after the third it is given up and counted (R302). Completes: HOST_PAGE_RESPONSE, HOST_PAGE_TIMEOUT, ATS_INVALIDATION_REQUEST, INVALIDATION_COMPLETE, PAGE_MOVE. -/
def Obligations.HostPagesAndPageMoves : Prop :=
  ((∀ (f : Func) (va : BitVec 56) (g : Bool) (hpa : BitVec 64) (k : Nat) (s : State), outstanding s f.toNat va.toNat = some k →
      exec (.hostPageResponse f va g hpa) s = .next (retryEvents (s.setFunc f.toNat { s.func f.toNat with
        ats := tput k (if g then .granted (BitVec.ofNat 64 (hpa.toNat / 65536 * 65536)) else .refused) (s.func f.toNat).ats }) f.toNat)) ∧
    (∀ (f : Func) (va : BitVec 56) (k : Nat) (s : State), outstanding s f.toNat va.toNat = some k →
      exec (.hostPageTimeout f va) s = .next (retryEvents (s.setFunc f.toNat { s.func f.toNat with ats := tput k .timedOut (s.func f.toNat).ats }) f.toNat)) ∧
    (∀ (f : Func) (va len : BitVec 64) (s : State), (s.func f.toNat).atsInval.length < 32 →
      ∃ t, exec (.atsInvalidationRequest f va len) s = .next t ∧
        (t.func f.toNat).atsInval = ((s.func f.toNat).atsInval ++ [(va, len)]).filter (writesHost s f.toNat) ∧
        (t.func f.toNat).atsDone + (t.func f.toNat).atsInval.length = (s.func f.toNat).atsDone + (s.func f.toNat).atsInval.length + 1 ∧
        (∀ e, e ∈ (t.func f.toNat).ats ↔ e ∈ (s.func f.toNat).ats ∧ (e.2 = .requested ∨ e.1 / 2 ^ 64 ≠ f.toNat / 64 ∨
          (e.1 % 2 ^ 64 + 1) * 65536 ≤ va.toNat ∨ va.toNat + len.toNat ≤ e.1 % 2 ^ 64 * 65536)) ∧
        t.mem = s.mem ∧ t.queues = s.queues ∧ ∀ g, g ≠ f.toNat → t.func g = s.func g)) ∧
  (∀ (s : State) (f : Func) (sc : BitVec 8) (va : BitVec 64), s.msys.inval = some (f, sc, va) →
      (writesRange s f.toNat sc.toNat va.toNat = true → exec .invalidationComplete s = .next s) ∧
      (writesRange s f.toNat sc.toNat va.toNat = false →
        ∃ t, exec .invalidationComplete s = .next t ∧ t.msys.invalDone = s.msys.invalDone + 1 ∧ t.msys.inval = s.msys.invalQ.head? ∧
          t.msys.invalQ = s.msys.invalQ.tail ∧ (∀ e ∈ (t.func f.toNat).ats, e.2 = .requested) ∧
          (∀ e ∈ t.msys.xlates, e.within f.toNat sc.toNat va.toNat = false) ∧
          (∀ j x, s.job? j = some x → x.func = f → x.root ≠ none → ∃ y, t.job? j = some y ∧ y.root = some (s.func f.toNat).root) ∧
          t.mem = s.mem ∧ t.queues = s.queues ∧ t.sems = s.sems)) ∧
  (∀ (d : Die) (s : State) (m : PageMv), s.msys.moves.find? (fun m => besideDie d.toNat (m.new / 2 ^ 21)) = some m → idleDe s d.toNat = true →
      (Memory.wf s.mem = true → m.other = none → m.old % 2 ^ 21 = 0 → m.new % 2 ^ 21 = 0 → m.old ≠ m.new →
        (m.leaf + 8 ≤ m.new ∨ m.new + 2 ^ 21 ≤ m.leaf) → m.new < 2 ^ 56 →
        ∃ t, exec (.pageMove d false) s = .next t ∧
          (∀ k, k < 2 ^ 21 → memGet t.mem (m.new + k) = memGet s.mem (m.old + k)) ∧
          leNat (physRead t m.leaf 8) = m.new + leNat (physRead s m.leaf 8) % 256 ∧
          (∀ x, (x < m.new ∨ m.new + 2 ^ 21 ≤ x) → (x < m.leaf ∨ m.leaf + 8 ≤ x) → memGet t.mem x = memGet s.mem x) ∧
          t.counter 6 d.toNat 3 = (s.counter 6 d.toNat 3 + 1) % 2 ^ 64 ∧ t.queues = s.queues ∧ t.sems = s.sems) ∧
      (m.attempts < 2 → exec (.pageMove d true) s = .next { s with msys := { s.msys with moves := { m with attempts := m.attempts + 1 } :: s.msys.moves.erase m } }) ∧
      (2 ≤ m.attempts → exec (.pageMove d true) s = .next (bump { s with msys := { s.msys with moves := s.msys.moves.erase m } } 6 d.toNat 5 1)))

/-- SCRUB_PATROL, where scrubbing is on: every uncorrectable error found poisons its granule, no poison is lost, and no byte of memory changes (R306, R307). CE_SUMMARY_MINUTE: one record for each source that saw correctable events enters the black box, or is held while the root monitor does not run, and the counts start again (R506, R521). Completes: SCRUB_PATROL, CE_SUMMARY_MINUTE. -/
def Obligations.ScrubberPoisons : Prop :=
  (∀ (found : List MemError) (s : State), s.reg 0x4050 1 ≠ 0 →
      ∃ t, exec (.scrubPatrol found) s = .next t ∧
        (∀ g, g ∈ t.poison ↔ g ∈ s.poison ∨ ∃ e ∈ found, e.fixable = false ∧ inDev e.addr.toNat 1 = true ∧ g = e.addr.toNat / 32) ∧
        t.mem = s.mem ∧ t.queues = s.queues ∧ t.sems = s.sems ∧ t.time = s.time) ∧
  (∀ s : State,
      ∃ t, exec .ceSummaryMinute s = .next t ∧ t.dict.ce = [] ∧ (s.trust.rootUp = true → t.dict.bbHead = s.dict.bbHead + s.dict.ce.length) ∧
        (s.trust.rootUp = false → s.dict.bbHeld.length + s.dict.ce.length ≤ 256 → t.dict.bbHeld.length = s.dict.bbHeld.length + s.dict.ce.length) ∧
        t.mem = s.mem ∧ t.queues = s.queues ∧ t.time = s.time)

/-- SHADOW_SAMPLE_DONE: the oldest sample of a core's check buffer leaves it, SAMPLED is counted, and the bin of its relative error in the histogram of its layer rises by one (R232). ROW_TEST_TIMER with a failed row, while the service firmware runs: the array in service has a request of source 2 pending on that row, and REPAIR_STATUS names it (R107, R112). REPAIR_QUIET_POINT of an array with a pending request: where the spare row passes its test and is not in use, the row is moved onto it and the accumulate latency becomes 7; where it does not pass or is in use, the array goes offline. The loaded tile is gone either way (R103, R108, R109); during a live handover the request stays (R527). Completes: SHADOW_SAMPLE_DONE, ROW_TEST_TIMER, REPAIR_QUIET_POINT. -/
def Obligations.ArraysOutOfBand : Prop :=
  (∀ (c : CoreNum) (s : State) (x : Sample) (rest : List Sample) (j : Job), tget [] s.samples c.toNat = x :: rest →
      (s.queues.any fun e => (exeOf (BitVec.ofNat 15 e.1) e.2).core? == some c.toNat && e.2.started.any fun w => w.holdsBuffer) = false →
      s.job? x.job.toNat = some j →
      ∃ t y b, exec (.shadowSampleDone c) s = .next t ∧ tget [] t.samples c.toNat = rest ∧ t.job? x.job.toNat = some y ∧ b < 16 ∧
        b = errorBin (x.acc.map (·.toNat)) (x.ref.map (·.toNat)) ∧
        (y.layer x.layer.toNat).hist = (j.layer x.layer.toNat).hist.set b ((j.layer x.layer.toNat).hist.getD b 0 + 1) ∧
        t.mem = s.mem ∧ t.queues = s.queues ∧ t.arrays = s.arrays) ∧
  (∀ (a : ArrayNum) (r : BitVec 6) (s : State), s.trust.sfUp = true → (s.array a.toNat).spare ≠ 3 →
      ∃ t, exec (.rowTestTimer a (some r)) s = .next t ∧ (t.array a.toNat).repair = some (r, 2) ∧ (t.array a.toNat).recorded = false ∧
        bits t.repairStatus.toNat 0 16 = a.toNat * 64 + r.toNat ∧ bits t.repairStatus.toNat 24 2 = 2 ∧
        t.mem = s.mem ∧ t.queues = s.queues ∧ ∀ b, b ≠ a.toNat → t.array b = s.array b) ∧
  (∀ (a : ArrayNum) (pass : Bool) (s : State) (row : BitVec 6) (src : BitVec 2), (s.array a.toNat).repair = some (row, src) →
      (s.array a.toNat).recorded = false → s.trust.handover = none → (arrayQuiet s a.toNat).1 = true →
      ∃ t, exec (.repairQuietPoint a pass) s = .next t ∧ (t.array a.toNat).tile = none ∧ (t.array a.toNat).repair = none ∧
        ((pass = true ∧ (s.array a.toNat).spare ≠ 1 ∧ (s.array a.toNat).spare ≠ 2) →
          (t.array a.toNat).spare = 1 ∧ (t.array a.toNat).sparedRow = BitVec.ofNat 8 row.toNat ∧ (t.array a.toNat).latency = 7) ∧
        (¬(pass = true ∧ (s.array a.toNat).spare ≠ 1 ∧ (s.array a.toNat).spare ≠ 2) → (t.array a.toNat).spare = 3) ∧
        t.mem = s.mem ∧ t.queues = s.queues ∧ ∀ b, b ≠ a.toNat → t.array b = { s.array b with held := (t.array b).held })

/-- A WRITE that a check of R488 refuses changes nothing but the path's response, which carries the status of the first check that fails. A WRITE that passes the checks, to an entry in range and without an action of its own, sets that entry's value, or for a selector the path's own copy, and answers OK; every other entry, every other path, memory and queues stay (R483, R488). A READ at offset 0 of an entry that is served and readable returns the leading bytes of its value, and a READ at a later offset returns bytes of the value that the path's last READ of the entry took, whatever the entry holds by then (R488). An entry is served where R490 says so: the module is on and out of reset, what serves the entry runs, and the path's way in is open. Completes: DICT_READ, DICT_WRITE. -/
def Obligations.DictionaryWritesAndReads : Prop :=
  (∀ (p : Path) (i : BitVec 16) (k : BitVec 8) (off : BitVec 32) (d : List Byte) (s : State),
      writeCheck s p i.toNat k.toNat off.toNat d.length ≠ stOk →
      ∃ t, exec (.dictWrite p i k off d) s = .next t ∧ t = { s with paths := t.paths } ∧
        t.path p = { s.path p with resp := BitVec.ofNat 16 (writeCheck s p i.toNat k.toNat off.toNat d.length), respData := [] } ∧
        ∀ p', p' ≠ p → t.path p' = s.path p') ∧
  (∀ (p : Path) (i : BitVec 16) (k : BitVec 8) (off : BitVec 32) (d : List Byte) (s : State),
      writeCheck s p i.toNat k.toNat off.toNat d.length = stOk → claimants.contains (i.toNat, k.toNat) = false →
      (if i.toNat < 0x4000 then lowAction s p i.toNat k.toNat (leNat d) d else highAction s p i.toNat k.toNat off.toNat (leNat d) d) = none →
      rangeOk i.toNat k.toNat (leNat d) = true →
      ∃ t, exec (.dictWrite p i k off d) s = .next t ∧ (t.path p).resp = 0 ∧
        (isSelector i.toNat k.toNat = true → t.selector p i.toNat k.toNat = leNat d ∧ t.dict.regs = s.dict.regs) ∧
        (isSelector i.toNat k.toNat = false → t.reg i.toNat k.toNat = leNat d) ∧
        (∀ i' k', 256 * i' + k' ≠ 256 * i.toNat + k.toNat → t.reg i' k' = s.reg i' k' ∧ t.selector p i' k' = s.selector p i' k') ∧
        (∀ p', p' ≠ p → t.path p' = s.path p') ∧ t.mem = s.mem ∧ t.queues = s.queues ∧ t.jobs = s.jobs ∧ t.time = s.time) ∧
  ((∀ (p : Path) (i : BitVec 16) (k : BitVec 8) (len : BitVec 32) (s : State) (e : Entry) (v : List Byte),
      served s p false i.toNat = true → visible p i.toNat k.toNat = some e → e.acc ≠ .wo → entryBytes s p e k.toNat = .ok v →
      readShape p e k.toNat 0 len.toNat v = true →
      ∃ t, exec (.dictRead p i k 0 len) s = .next t ∧ (t.path p).resp = 0 ∧ (t.path p).respData = sliceBytes v 0 len.toNat ∧
        (t.path p).readSnap = some (256 * e.index + k.toNat, v) ∧ t.mem = s.mem ∧ t.queues = s.queues ∧ t.jobs = s.jobs ∧ t.time = s.time ∧
        ∀ p', p' ≠ p → t.path p' = s.path p') ∧
    (∀ (p : Path) (i : BitVec 16) (k : BitVec 8) (off len : BitVec 32) (s : State) (e : Entry) (v : List Byte),
      served s p false i.toNat = true → visible p i.toNat k.toNat = some e → e.acc ≠ .wo → off ≠ 0 →
      (s.path p).readSnap = some (256 * e.index + k.toNat, v) → readShape p e k.toNat off.toNat len.toNat v = true →
      ∃ t, exec (.dictRead p i k off len) s = .next t ∧ (t.path p).resp = 0 ∧ (t.path p).respData = sliceBytes v off.toNat len.toNat ∧
        t = { s with paths := t.paths }))

/-- INFO of a visible entry answers its 16 bytes (R486). COUNTER_READ answers the 8 bytes of the counter that the path's selector names, which it does not change; a per-step counter of a job that is not loaded reads zero, a stall count is open, a counter that does not exist is refused, and the stall snapshot of an engine answers 128 bytes (R497 to R500). TICK_SNAPSHOT answers the tick and keeps the tick, beat and schedule-beat counters of that moment on the path, where the tick and the two entries beside it read them (R52). An entry of these is served where R490 says so: the module is on and out of reset, root monitor and service firmware run, and the path's way in is open. Completes: DICT_INFO, COUNTER_READ, TICK_SNAPSHOT. -/
def Obligations.InfoCountersAndTicks : Prop :=
  (∀ (p : Path) (i : BitVec 16) (k : BitVec 8) (s : State) (e : Entry), Serving s p → visible p i.toNat k.toNat = some e →
    ∃ t, exec (.dictInfo p i k) s = .next t ∧ (t.path p).resp = 0 ∧ (t.path p).respData = infoBytes s p e k.toNat ∧
      (t.path p).respData.length = 16 ∧ t = { s with paths := t.paths } ∧ ∀ p', p' ≠ p → t.path p' = s.path p') ∧
  (∀ (p : Path) (s : State) (cls inst code : Nat), Serving s p → cntSelect s p = (cls, inst, code) →
    (counterExists cls inst code = true →
      ∃ t, exec (.counterRead p false) s = .next t ∧ (t.path p).resp = 0 ∧ (t.path p).respData.length = 8 ∧
        (cls ≠ 1 → (t.path p).respData =
          leBytes 8 (if 2 ≤ cls ∧ cls ≤ 4 ∧ inst ≠ 0 ∧ (s.job? inst).isNone then 0 else s.counter cls inst code)) ∧
        t.dict.ctr = s.dict.ctr ∧ t.mem = s.mem ∧ t.queues = s.queues ∧ t.jobs = s.jobs ∧ ∀ p', p' ≠ p → t.path p' = s.path p') ∧
    (counterExists cls inst code = false →
      ∃ t, exec (.counterRead p false) s = .next t ∧ (t.path p).resp = BitVec.ofNat 16 stCmdInvalid ∧ t = { s with paths := t.paths }) ∧
    (cls = 1 → engineIndexOk inst = true →
      ∃ t, exec (.counterRead p true) s = .next t ∧ (t.path p).resp = 0 ∧ (t.path p).respData.length = 128 ∧
        t.dict.ctr = s.dict.ctr ∧ t.mem = s.mem ∧ t.queues = s.queues ∧ t.jobs = s.jobs) ∧
    ((cls ≠ 1 ∨ engineIndexOk inst = false) →
      ∃ t, exec (.counterRead p true) s = .next t ∧ (t.path p).resp = BitVec.ofNat 16 stCmdInvalid ∧ t = { s with paths := t.paths })) ∧
  (∀ (p : Path) (s : State), Serving s p →
    ∃ t, exec (.tickSnapshot p) s = .next t ∧ (t.path p).resp = 0 ∧ (t.path p).respData = leBytes 8 s.time.tick.toNat ∧
      (t.path p).snap = some (s.time.tick, s.beat, s.schedBeat) ∧
      dynValue t p 0x3000 3 = some (.num s.beat.toNat) ∧ dynValue t p 0x3000 4 = some (.num s.schedBeat.toNat) ∧
      t = { s with paths := t.paths } ∧ ∀ p', p' ≠ p → t.path p' = s.path p')

/-- REGISTER_WRITE (R464, R466, R467, R487): of a dictionary entry it is that entry's WRITE. In BAR0 of a function that a host reaches, EVENT_READ takes its value, LEVEL is agreed, an aligned doorbell or semaphore word acts as such, an MSI-X table word is kept or its mask bit changes, OFFSET, LEN and DATA of the dictionary window are kept, and CMD starts the request that they hold; a write elsewhere, or an unaligned one, changes nothing. The named configuration registers take their values. Before TIME_REF has locked, or of a function that does not exist, nothing changes (R20, R462). Completes: REGISTER_WRITE. -/
def Obligations.RegisterWriteReachesItsRegister : Prop :=
  (∀ (p : Path) (i : BitVec 16) (k : BitVec 8) (d : List Byte) (s : State),
    exec (.registerWrite (.dict p i k d)) s = exec (.dictWrite p i k 0 d) s) ∧
  (∀ (f : Func) (s : State), hostOpen s f.toNat = false →
    (∀ (off : BitVec 26) (size : Nat) (v : BitVec 64), exec (.registerWrite (.bar0 f off size v)) s = .next s) ∧
    ∀ r : PcieReg, exec (.registerWrite (.pcie f r)) s = .next s) ∧
  (∀ (f : Func) (v : BitVec 64) (s : State), hostOpen s f.toNat = true →
    exec (.registerWrite (.bar0 f 0x18 4 v)) s = .next (s.setFunc f.toNat { s.func f.toNat with eventRead := BitVec.ofNat 32 v.toNat }) ∧
    exec (.registerWrite (.bar0 f 0x08 4 v)) s = exec (.levelWrite f (BitVec.ofNat 32 v.toNat)) s ∧
    (∀ q : QNum, exec (.registerWrite (.bar0 f (BitVec.ofNat 26 (0x100000 + 8 * q.toNat)) 4 v)) s = exec (.doorbellWrite f q 4 v) s) ∧
    (∀ n : SemNum, exec (.registerWrite (.bar0 f (BitVec.ofNat 26 (0x200000 + 16 * n.toNat)) 8 v)) s = exec (.semWindowSet f n 8 v) s ∧
      exec (.registerWrite (.bar0 f (BitVec.ofNat 26 (0x200008 + 16 * n.toNat)) 8 v)) s = exec (.semWindowAdd f n 8 v) s) ∧
    (∀ k : BitVec 11,
      (v.toNat.testBit 0 = false → exec (.registerWrite (.bar0 f (BitVec.ofNat 26 (0x30000C + 16 * k.toNat)) 4 v)) s = exec (.msixVectorUnmask f k) s) ∧
      (v.toNat.testBit 0 = true → exec (.registerWrite (.bar0 f (BitVec.ofNat 26 (0x30000C + 16 * k.toNat)) 4 v)) s =
        .next (s.setFunc f.toNat { s.func f.toNat with msixMask := (s.func f.toNat).msixMask ||| BitVec.ofNat 2048 (2 ^ k.toNat) })) ∧
      ∀ w, w < 3 → exec (.registerWrite (.bar0 f (BitVec.ofNat 26 (0x300000 + 16 * k.toNat + 4 * w)) 4 v)) s =
        .next (s.setFunc f.toNat { s.func f.toNat with msixTable := tput (4 * k.toNat + w) (BitVec.ofNat 32 v.toNat) (s.func f.toNat).msixTable })) ∧
    exec (.registerWrite (.bar0 f 0x10008 4 v)) s = .next (s.setPath (.window f) { s.path (.window f) with winOff := BitVec.ofNat 32 v.toNat }) ∧
    exec (.registerWrite (.bar0 f 0x1000C 4 v)) s = .next (s.setPath (.window f) { s.path (.window f) with winLen := BitVec.ofNat 32 v.toNat }) ∧
    (∀ k, k < 15360 → ∃ t, exec (.registerWrite (.bar0 f (BitVec.ofNat 26 (0x11000 + 4 * k)) 4 v)) s = .next t ∧
      ((t.path (.window f)).winData.drop (4 * k)).take 4 = leBytes 4 (v.toNat % 2 ^ 32) ∧ t = { s with paths := t.paths }) ∧
    (∀ off : BitVec 26, off.toNat % 4 ≠ 0 ∨ 0x308000 ≤ off.toNat ∨ (0x20000 ≤ off.toNat ∧ off.toNat < 0x100000) ∨ (0x140000 ≤ off.toNat ∧ off.toNat < 0x200000) →
      exec (.registerWrite (.bar0 f off 4 v)) s = .next s)) ∧
  (∀ (f : Func) (v : BitVec 64) (s : State), hostOpen s f.toNat = true → (s.path (.window f)).descWait = none → bits v.toNat 4 4 = 0 →
    (bits v.toNat 0 4 = 1 → ∃ t u, exec (.registerWrite (.bar0 f 0x10000 4 v)) s = .next t ∧
      exec (.dictRead (.window f) (BitVec.ofNat 16 (bits v.toNat 16 16)) (BitVec.ofNat 8 (bits v.toNat 8 8)) (s.path (.window f)).winOff (s.path (.window f)).winLen) s = .next u ∧
      (t.path (.window f)).resp = (u.path (.window f)).resp ∧
      (t.path (.window f)).winData.take (u.path (.window f)).respData.length = (u.path (.window f)).respData ∧ t = { u with paths := t.paths }) ∧
    (bits v.toNat 0 4 = 2 → (s.path (.window f)).winLen.toNat ≤ 1024 →
      exec (.registerWrite (.bar0 f 0x10000 4 v)) s =
        exec (.dictWrite (.window f) (BitVec.ofNat 16 (bits v.toNat 16 16)) (BitVec.ofNat 8 (bits v.toNat 8 8)) (s.path (.window f)).winOff
          (((s.path (.window f)).winData ++ List.replicate (61440 - (s.path (.window f)).winData.length) 0).take (s.path (.window f)).winLen.toNat)) s) ∧
    (bits v.toNat 0 4 = 3 → ∃ t u, exec (.registerWrite (.bar0 f 0x10000 4 v)) s = .next t ∧
      exec (.dictInfo (.window f) (BitVec.ofNat 16 (bits v.toNat 16 16)) (BitVec.ofNat 8 (bits v.toNat 8 8))) s = .next u ∧
      (t.path (.window f)).resp = (u.path (.window f)).resp ∧
      (t.path (.window f)).winData.take (u.path (.window f)).respData.length = (u.path (.window f)).respData ∧ t = { u with paths := t.paths })) ∧
  (∀ (f : Func) (s : State), hostOpen s f.toNat = true →
    (∀ b : Bool, exec (.registerWrite (.pcie f (.msixEnable b))) s = .next (s.setFunc f.toNat { s.func f.toNat with msixEnabled := b }) ∧
      exec (.registerWrite (.pcie f (.atomicEnable b))) s = .next (s.setFunc f.toNat { s.func f.toNat with atomicEnable := b })) ∧
    (∀ n, f.toNat % 64 = 0 → n.toNat ≤ 63 → ∃ t, exec (.registerWrite (.pcie f (.numVfs n))) s = .next t ∧ (t.hport (BitVec.ofNat 1 (f.toNat / 64))).numVfs = n) ∧
    (∀ n, s.load = none → (∀ e ∈ s.paths, e.2.descWait = none) → (s.func f.toNat).evWait = [] →
      exec (.registerWrite (.pcie f (.pageRequests n))) s = .next (s.setFunc f.toNat { s.func f.toNat with priAlloc := n })))

/-- RESTORE_DEFAULTS with its key and no job loaded empties the persistent store; FAULT_ACK of a fault code, or of all, takes it from the unacknowledged ones; GPIO_CLAIM of a pin that no other claimant holds is kept. Values in force, memory and queues stay (R489, R493, R494). The trace (R501, R502): TRACE_EN 1 records anew and 0 stops; a trigger, or a rising edge on the pin that TRACE_GPIO claims, lets TRACE_POST more records follow; with the last of them recording is off. Completes: RESTORE_DEFAULTS, FAULT_ACK, GPIO_CLAIM, TRACE_EN, TRACE_TRIGGER, TRACE_GPIO_EDGE, TRACE_POST_EXPIRY. -/
def Obligations.DictionaryActionsAndTrace : Prop :=
  ((∀ (p : Path) (s : State), writeCheck s p 0x1200 4 0 4 = stOk → jobLoaded s = false →
      ∃ t, exec (.restoreDefaults p 0x0D5F) s = .next t ∧ (t.path p).resp = 0 ∧ storeOf t.dict = [] ∧ t.dict.regs = s.dict.regs ∧
        t.mem = s.mem ∧ t.queues = s.queues) ∧
    (∀ (p : Path) (code : BitVec 16) (s : State), writeCheck s p 0x2E00 2 0 2 = stOk → (code = 0xFFFF ∨ code.toNat ∈ faultCodes) →
      ∃ t, exec (.faultAck p code) s = .next t ∧ (t.path p).resp = 0 ∧
        (∀ c, c ∈ t.dict.faults ↔ c ∈ s.dict.faults ∧ code ≠ 0xFFFF ∧ c ≠ code) ∧ t.mem = s.mem ∧ t.queues = s.queues) ∧
    (∀ (p : Path) (i : BitVec 16) (k pin : BitVec 8) (s : State), writeCheck s p i.toNat k.toNat 0 1 = stOk →
      claimants.contains (i.toNat, k.toNat) = true → (pin = 0xFF ∨ pin.toNat ≤ 3 ∧ pinHolder s pin.toNat = none) →
      ∃ t, exec (.gpioClaim p i k pin) s = .next t ∧ (t.path p).resp = 0 ∧ t.reg i.toNat k.toNat = pin.toNat ∧
        (∀ i' k', 256 * i' + k' ≠ 256 * i.toNat + k.toNat → t.reg i' k' = s.reg i' k') ∧ t.mem = s.mem ∧ t.queues = s.queues)) ∧
  ((∀ (p : Path) (s : State), writeCheck s p 0x7E00 1 0 1 = stOk →
      (∃ t, exec (.traceEn p 1) s = .next t ∧ t.dict.traceOn = true ∧ t.dict.tracePost = none ∧ t.dict.traceWraps = 0 ∧ t.dict.trace = s.dict.trace ∧
        t.mem = s.mem ∧ t.queues = s.queues) ∧
      (∃ t, exec (.traceEn p 0) s = .next t ∧ t.dict.traceOn = false ∧ t.dict.trace = s.dict.trace ∧ t.mem = s.mem ∧ t.queues = s.queues)) ∧
    (∀ (p : Path) (s : State), writeCheck s p 0x7E00 6 0 1 = stOk → s.dict.traceOn = true → s.dict.tracePost = none →
      ∃ t, exec (.traceTrigger p 1) s = .next t ∧ t.dict.tracePost = some (s.reg 0x7E00 4) ∧ t.dict.traceOn = true ∧ t.mem = s.mem ∧ t.queues = s.queues) ∧
    (∀ (pin : BitVec 2) (s : State), s.reg 0x7E00 2 = pin.toNat → s.dict.traceOn = true → s.dict.tracePost = none →
      exec (.traceGpioEdge pin) s = .next { s with dict := { s.dict with tracePost := some (s.reg 0x7E00 4) } }) ∧
    (∀ s : State, s.dict.tracePost = some 0 → exec .tracePostExpiry s = .next { s with dict := { s.dict with traceOn := false } }))

/-- ASSIGN (R473, R474): items of a kind that exist, of a function below 128, a queue never shared, where the path's function may assign each, and none that a function would lose is held by a job of it or LIVE with it as owner. Then SET gives each item to the one function, SHARE adds the function to the item's own, REMOVE takes it away; no other item changes hands. Where a function's item is held, or the path's function may not assign, the write is refused and nothing changes but the response. Completes: ASSIGN_SET, ASSIGN_SHARE, ASSIGN_REMOVE. -/
def Obligations.AssignmentsChange : Prop :=
  ∀ (p : Path) (kind f : BitVec 8) (first count : BitVec 32) (s : State) (op : Byte) (i : Instr),
    (op = 0 ∧ i = .assignSet p kind f first count ∨ op = 1 ∧ i = .assignShare p kind f first count ∨ op = 2 ∧ i = .assignRemove p kind f first count) →
    writeCheck s p 0x1100 5 0 16 = stOk → f.toNat < 128 → itemsOk kind.toNat first.toNat count.toNat = true → (kind = 1 → op ≠ 1) →
    ((∀ n, first.toNat ≤ n → n < first.toNat + count.toNat → assigner s p kind.toNat f.toNat n = true ∧
        ∀ g ∈ losers s kind.toNat op.toNat f.toNat n, itemHeld s (fun g => if ownsJob s g then unitsHeld s g else []) kind.toNat n g = false) →
      ∃ t, exec i s = .next t ∧ (t.path p).resp = 0 ∧
        (∀ k n, n < 2 ^ 32 → t.assigned k n = if k = kind.toNat ∧ first.toNat ≤ n ∧ n < first.toNat + count.toNat then
            (if op = 0 then BitVec.ofNat 128 (2 ^ f.toNat) else if op = 1 then s.assigned k n ||| BitVec.ofNat 128 (2 ^ f.toNat)
              else s.assigned k n &&& ~~~(BitVec.ofNat 128 (2 ^ f.toNat)))
          else s.assigned k n) ∧
        t.mem = s.mem ∧ t.queues = s.queues ∧ t.sems = s.sems ∧ t.jobs = s.jobs) ∧
    ((∃ n, first.toNat ≤ n ∧ n < first.toNat + count.toNat ∧ (assigner s p kind.toNat f.toNat n = false ∨
        ∃ g ∈ losers s kind.toNat op.toNat f.toNat n, itemHeld s (fun g => if ownsJob s g then unitsHeld s g else []) kind.toNat n g = true)) →
      ∃ t, exec i s = .next t ∧ (t.path p).resp = BitVec.ofNat 16 stHeld ∧ t = { s with paths := t.paths })

/-- COORD, AXIS_SIZE and PORT_ENABLE within their ranges are kept, and a port that is not enabled is DISABLED (R405, R421). Layers and invalidations: RECIPE with formats that the layer may take waits for the next CLEAN CLOSE; CRIMAL_SCALE up to 15 is taken at once before the job's first CLOSE and waits after it; an invalidation request of the path's own function (or of any, without a function), its scope known and its address aligned to it, starts, or waits for the one in progress (R237, R243, R311). Completes: COORD_WRITE, AXIS_SIZE_WRITE, PORT_ENABLE_WRITE, RECIPE_WRITE, CRIMAL_SCALE_WRITE, INVAL_REQUEST. -/
def Obligations.TorusAndLayerSettings : Prop :=
  ((∀ (p : Path) (v : BitVec 32) (s : State), writeCheck s p 0x3400 2 0 4 = stOk → bytesOk 4 v.toNat (fun b => decide (b ≤ 15) || b == 0xFF) = true →
      ∃ t, exec (.coordWrite p v) s = .next t ∧ (t.path p).resp = 0 ∧ t.reg 0x3400 2 = v.toNat ∧ t.queues = s.queues ∧ t.time = s.time) ∧
    (∀ (p : Path) (v : BitVec 32) (s : State), writeCheck s p 0x3400 3 0 4 = stOk →
      bytesOk 4 v.toNat (fun b => decide (1 ≤ b) && decide (b ≤ 16)) = true →
      ∃ t, exec (.axisSizeWrite p v) s = .next t ∧ (t.path p).resp = 0 ∧ t.reg 0x3400 3 = v.toNat ∧ t.time = s.time) ∧
    (∀ (p : Path) (v : BitVec 8) (s : State), writeCheck s p 0x3400 4 0 1 = stOk →
      ∃ t, exec (.portEnableWrite p v) s = .next t ∧ (t.path p).resp = 0 ∧ t.reg 0x3400 4 = v.toNat ∧
        (∀ n : Port, v.getLsbD n.toNat = false → (t.port n).st = .disabled) ∧ t.mem = s.mem ∧ t.time = s.time)) ∧
  ((∀ (p : Path) (v : BitVec 32) (s : State) (x : Layer), writeCheck s p 0x5020 2 0 4 = stOk → selectedLayer s p = some x →
      recipeFmtOk x 0 x.w.toNat (v.toNat % 32) = true → recipeFmtOk x 1 x.a.toNat (v.toNat / 2 ^ 5 % 32) = true →
      recipeFmtOk x 2 x.g.toNat (v.toNat / 2 ^ 10 % 32) = true → recipeFmtOk x 3 x.kv.toNat (v.toNat / 2 ^ 15 % 32) = true →
      ∃ t j, exec (.recipeWrite p v) s = .next t ∧ (t.path p).resp = 0 ∧ t.job? (s.selector p 0x5010 1) = some j ∧
        (j.layer (s.selector p 0x5020 1)).pending = some (BitVec.ofNat 32 (v.toNat % 2 ^ 20)) ∧ t.mem = s.mem ∧ t.queues = s.queues) ∧
    (∀ (p : Path) (v : BitVec 8) (s : State) (j : Job), writeCheck s p 0x5020 7 0 1 = stOk → v.toNat ≤ 15 → selectedJob s p 0x5010 1 = some j →
      ∃ t y, exec (.crimalScaleWrite p v) s = .next t ∧ (t.path p).resp = 0 ∧ t.job? (s.selector p 0x5010 1) = some y ∧
        y.layer (s.selector p 0x5020 1) = (if j.closedOnce then { j.layer (s.selector p 0x5020 1) with crimalPending := some v }
          else { j.layer (s.selector p 0x5020 1) with crimal := v }) ∧ t.mem = s.mem ∧ t.queues = s.queues) ∧
    (∀ (p : Path) (d : List Byte) (s : State), writeCheck s p 0x4021 1 0 16 = stOk → d.length = 16 → byteField d 0 1 < 128 → (∀ g, pathFunc p = some g → byteField d 0 1 = g) →
      byteField d 1 1 ≤ 3 → byteField d 2 6 = 0 →
      (byteField d 1 1 = 3 ∨ byteField d 8 8 % (if byteField d 1 1 = 0 then 2 ^ 16 else if byteField d 1 1 = 1 then 2 ^ 21 else 2 ^ 30) = 0) →
      ∃ t, exec (.invalRequest p d) s = .next t ∧ (t.path p).resp = 0 ∧
        (s.msys.inval = none → t.msys.inval = some (BitVec.ofNat 7 (byteField d 0 1), BitVec.ofNat 8 (byteField d 1 1), BitVec.ofNat 64 (byteField d 8 8))) ∧
        (s.msys.inval ≠ none → t.msys.inval = s.msys.inval ∧
          t.msys.invalQ = s.msys.invalQ ++ [(BitVec.ofNat 7 (byteField d 0 1), BitVec.ofNat 8 (byteField d 1 1), BitVec.ofNat 64 (byteField d 8 8))]) ∧
        t.mem = s.mem ∧ t.queues = s.queues))

/-- Servicing writes: REPAIR_REQUEST of a row of an array in service is pending; CORE_REPLACE of a core that is not being replaced starts with the self-test of a spare; MEM_REPAIR of an address of device memory is in progress or waits (R107, R112, R524, R526). Core replacement (R524, R525): a spare that passes its self-test stands ready, after a failure the next one is tested, and with none left the replacement is over; a core under replacement whose eight engine queues stand at quiet points takes no more commands; the copy done, the logical core runs on the spare, and the replacement is over. MEM_REPAIR_DONE: the next address that waits is taken; during a live handover all stays (R526, R527). Completes: REPAIR_REQUEST, CORE_REPLACE, MEM_REPAIR, CORE_SELF_TEST_DONE, CORE_QUIET_POINT, CORE_COPY_DONE, MEM_REPAIR_DONE. -/
def Obligations.ServicingAndReplacement : Prop :=
  ((∀ (p : Path) (v : BitVec 32) (s : State), writeCheck s p 0x4820 1 0 4 = stOk → v.toNat / 64 < 512 → (s.array (v.toNat / 64)).spare ≠ 3 →
      ∃ t, exec (.repairRequest p v) s = .next t ∧ (t.path p).resp = 0 ∧
        (t.array (v.toNat / 64)).repair = some (BitVec.ofNat 6 (v.toNat % 64), 1) ∧ (t.array (v.toNat / 64)).recorded = false ∧
        t.mem = s.mem ∧ t.queues = s.queues) ∧
    (∀ (p : Path) (v : BitVec 16) (s : State), writeCheck s p 0x6840 1 0 2 = stOk → v.toNat < 1024 → bits v.toNat 5 3 = 0 →
      (s.trust.repl.any fun r => r.core.toNat == v.toNat / 256 * 32 + v.toNat % 32) = false →
      ∃ t r, exec (.coreReplace p v) s = .next t ∧ (t.path p).resp = 0 ∧ t.trust.repl = s.trust.repl ++ [r] ∧
        r.core = BitVec.ofNat 7 (v.toNat / 256 * 32 + v.toNat % 32) ∧ r.passed = false ∧ r.quiet = false ∧
        (∀ k, freeSpare s (v.toNat / 256) = some k → r.spare.toNat = k) ∧ t.mem = s.mem ∧ t.queues = s.queues) ∧
    (∀ (p : Path) (a : BitVec 64) (s : State), writeCheck s p 0x6840 4 0 8 = stOk → inDev a.toNat 1 = true →
      ∃ t, exec (.memRepair p a) s = .next t ∧ (t.path p).resp = 0 ∧
        (t.msys.rowRepair = some (BitVec.ofNat 44 a.toNat) ∨ BitVec.ofNat 44 a.toNat ∈ t.msys.rowQueue) ∧ t.mem = s.mem ∧ t.queues = s.queues)) ∧
  ((∀ (d : Die) (old : Bool) (s : State) (r : CoreRepl),
      (s.trust.repl.find? fun r => r.core.toNat / 32 == d.toNat && !r.passed) = some r →
      (r.spare ≠ 63 → exec (.coreSelfTestDone d true old) s = .next (setRepl s { r with passed := true })) ∧
      (∀ k, freeSpare (spendSpare s d.toNat r.spare.toNat) d.toNat = some k →
        exec (.coreSelfTestDone d false old) s = .next (setRepl (spendSpare s d.toNat r.spare.toNat) { r with spare := BitVec.ofNat 6 k })) ∧
      (freeSpare (spendSpare s d.toNat r.spare.toNat) d.toNat = none →
        ∃ t, exec (.coreSelfTestDone d false old) s = .next t ∧ (∀ x ∈ t.trust.repl, x.core ≠ r.core) ∧
          (old = false → t.vacantCore r.core.toNat = true) ∧ t.queues = s.queues ∧ t.sems = s.sems)) ∧
    (∀ (c : CoreNum) (s : State) (r : CoreRepl), (s.trust.repl.find? fun r => r.core == c && !r.quiet) = some r →
      (List.range 8).all (engineQuiet s c.toNat) = true →
      exec (.coreQuietPoint c) s = .next (setRepl s { r with quiet := true })) ∧
    (∀ (c : CoreNum) (s : State) (r : CoreRepl), (s.trust.repl.find? fun r => r.core == c && r.quiet && r.passed) = some r →
      ∃ t, exec (.coreCopyDone c) s = .next t ∧ t.physCore c.toNat = r.spare ∧ t.vacantCore c.toNat = false ∧ (∀ x ∈ t.trust.repl, x.core ≠ c) ∧
        t.queues = s.queues ∧ t.sems = s.sems ∧ t.time = s.time) ∧
    (∀ (ok : Bool) (s : State) (a : BitVec 44), s.msys.rowRepair = some a →
      (s.trust.handover = none →
        ∃ t, exec (.memRepairDone ok) s = .next t ∧ t.msys.rowRepair = s.msys.rowQueue.head? ∧ t.msys.rowQueue = s.msys.rowQueue.tail ∧
          t.queues = s.queues ∧ t.jobs = s.jobs) ∧
      (s.trust.handover ≠ none → exec (.memRepairDone ok) s = .next s)))

/-- QUEUE_CREATE (R349, R350, R384, R385): a record whose queue is FREE, of the kind that its number tells (an engine queue of a loaded job of its function, no slot of whose core another job holds; or a submission queue assigned to the function, its engine one that a submission queue may drive), with every field in its range and reserved bytes zero, from a path that may name the function. The queue is ACTIVE and empty, with the fields of its record. Completes: QUEUE_CREATE. -/
def Obligations.QueueIsCreated : Prop :=
  ∀ (p : Path) (d : List Byte) (s : State) (q : QNum) (f job : Nat), writeCheck s p 0x6000 4 0 48 = stOk → d.length = 48 →
    byteField d 0 2 = q.toNat → byteField d 2 1 = f → f < 128 → (∀ g, pathFunc p = some g → g = f) → byteField d 4 4 = job →
    (s.queue q).st = .free →
    (if 4096 ≤ q.toNat then s.assignedTo 1 q.toNat f = true ∧ engineOk (byteField d 8 2) = true ∧ (job = 0 ∨ jobOf s f job = true)
      else jobOf s f job = true ∧ job ≠ 0 ∧ byteField d 8 2 = 0 ∧ (q.toNat < 2048 → q.toNat % 16 < 8 ∧ coreSplit s q.toNat job = false)) →
    createReserved d = true → 4 ≤ byteField d 3 1 → byteField d 3 1 ≤ 16 → 1 ≤ byteField d 0x0A 2 → byteField d 0x0A 2 < 2048 →
    byteField d 0x10 8 % 256 = 0 → byteField d 0x18 8 % 256 = 0 →
    ∃ t x, exec (.queueCreate p d) s = .next t ∧ (t.path p).resp = 0 ∧ t.queue q = x ∧
      x.st = .active ∧ x.head = 0 ∧ x.tail = 0 ∧ x.started = [] ∧ x.func.toNat = f ∧ x.log2N.toNat = byteField d 3 1 ∧
      x.job.toNat = job ∧ x.engine.toNat = byteField d 8 2 ∧ x.vector.toNat = byteField d 0x0A 2 ∧ x.irqMode.toNat = byteField d 0x0C 1 ∧
      x.ring.toNat = byteField d 0x10 8 ∧ x.comp.toNat = byteField d 0x18 8 ∧ x.base = BitVec.ofNat 48 (byteField d 0x20 8) ∧
      t.mem = s.mem ∧ t.sems = s.sems ∧ t.jobs = s.jobs ∧ ∀ q', q' ≠ q → t.queue q' = s.queue q'

/-- RESUME of a HALTED queue that the path reaches, whose job poison has not stopped, makes it ACTIVE; DESTROY makes a queue FREE, or, while its started commands are unfinished, keeps it until they are, with nothing more to start; and when the last has completed it is FREE (R305, R355). FLUSH of a HALTED queue writes a record for its unstarted commands in order: where all are written the queue is ACTIVE with HEAD equal TAIL, at once or, while commands that had started have no record yet, when they have; a record that is lost leaves it HALTED, and one that waits for a host page leaves the flush under way; the commands that had started stay (R356). Completes: QUEUE_RESUME, QUEUE_FLUSH, QUEUE_DESTROY, QUEUE_DESTROY_DRAINED. -/
def Obligations.QueuesResumeFlushAndEnd : Prop :=
  ((∀ (p : Path) (q : QNum) (s : State), writeCheck s p 0x6000 5 0 4 = stOk → (s.queue q).st = .halted → (s.queue q).destroying = false →
      (s.queue q).flushing = false → pathReachesQueue s p q = true → stoppedQueue s q = false →
      ∃ t, exec (.queueResume p q) s = .next t ∧ (t.path p).resp = 0 ∧ t.queue q = { s.queue q with st := .active } ∧
        t.mem = s.mem ∧ t.sems = s.sems ∧ ∀ q', q' ≠ q → t.queue q' = s.queue q') ∧
    (∀ (p : Path) (q : QNum) (s : State), writeCheck s p 0x6000 5 0 4 = stOk → (s.queue q).st ≠ .free → pathReachesQueue s p q = true →
      ∃ t, exec (.queueDestroy p q) s = .next t ∧ (t.path p).resp = 0 ∧
        ((s.queue q).started ≠ [] → (t.queue q).destroying = true ∧ (t.queue q).started = (s.queue q).started ∧
          (t.queue q).next = (s.queue q).tail ∧ (t.queue q).head = (s.queue q).tail) ∧
        ((s.queue q).started = [] → t.queue q = {}) ∧
        t.mem = s.mem ∧ t.sems = s.sems ∧ ∀ q', q' ≠ q → t.queue q' = s.queue q') ∧
    (∀ (q : QNum) (s : State), (s.queue q).destroying = true →
      ((s.queue q).started = [] → exec (.queueDestroyDrained q) s = .next (s.setQueue q {})) ∧
      ((s.queue q).started ≠ [] → exec (.queueDestroyDrained q) s = .next s))) ∧
  (∀ (p : Path) (q : QNum) (s u : State) (x : Queue) (stop : Option FlushStop), writeCheck s p 0x6000 5 0 4 = stOk → s.queue q = x → x.st = .halted →
      x.destroying = false → x.flushing = false → pathReachesQueue s p q = true →
      flushFrom { s.setQueue q { x with markers := [], unarmed := [], flushing := true, hold := (match x.hold with
          | .fill i n t b => Hold.fill i n t b
          | _ => Hold.none) } with
        masks := s.masks.map fun e => match e.2.commit with
          | some (k, _) => if k = q then (e.1, { e.2 with st := .idle, commit := none }) else e
          | none => e } q x.waiting = (u, stop) →
      ∃ t, exec (.queueFlush p q) s = .next t ∧ (t.path p).resp = 0 ∧ (t.queue q).started = x.started ∧
        (stop = none → (t.queue q).next = x.tail ∧ t.mem = u.mem ∧
          (x.started = [] → (t.queue q).st = .active ∧ (t.queue q).head = x.tail ∧ (t.queue q).flushing = false) ∧
          (x.started ≠ [] → (t.queue q).st = .halted ∧ (t.queue q).flushing = true)) ∧
        (∀ st k, stop = some (.lost st k) → (t.queue q).st = .halted ∧ (t.queue q).flushing = false) ∧
        (stop = some .page → (t.queue q).st = .halted ∧ (t.queue q).flushing = true))

/-- DESC_CREATE of a handle that is free, for a loaded job that the path reaches (R313, R328, R335, R564): a descriptor that passes the checks of R328 enters the job's table under its handle with the overlap class they give it; one that fails is refused with the status and FIELD of the first check that does; one whose ragged table lies in a host page not yet answered stays in progress. DESC_DESTROY takes a descriptor out of the table. DESC_STATUS of the path reports each, and no byte of memory changes. EVENT_RING_SETUP with a legal ring sets its base and size and both indices to 0 (R374, R384). Completes: DESC_CREATE, DESC_DESTROY, EVENT_RING_SETUP. -/
def Obligations.DescriptorsAndEventRing : Prop :=
  ((∀ (p : Path) (d : List Byte) (s : State) (job h : Nat), writeCheck s p 0x4060 2 0 d.length = stOk → byteField d 0 4 = job → byteField d 4 4 = h →
      pathReaches s p job = true → h ≠ 0 → h ≤ 1048575 → tfind (s.job job).descs h = none →
      (∀ x, (validate s (s.job job).func.toNat job (s.job job) (BitVec.ofNat 1024 (byteField d 8 128))).1 = .good x →
        ∃ t j, exec (.descCreate p d) s = .next t ∧ (t.path p).resp = 0 ∧ t.job? job = some j ∧ tfind j.descs h = some x ∧
          (∀ k, k ≠ h → tfind j.descs k = tfind (s.job job).descs k) ∧
          bits (t.path p).descStatus.toNat 16 16 = 0 ∧ bits (t.path p).descStatus.toNat 0 8 = 0xFF ∧
          t.mem = s.mem ∧ t.queues = s.queues ∧ t.sems = s.sems) ∧
      (∀ st k, (validate s (s.job job).func.toNat job (s.job job) (BitVec.ofNat 1024 (byteField d 8 128))).1 = .bad st k →
        ∃ t, exec (.descCreate p d) s = .next t ∧ (t.path p).resp = BitVec.ofNat 16 st ∧
          (t.path p).descStatus = BitVec.ofNat 32 (st * 2 ^ 16 + k) ∧ t.jobs = s.jobs ∧ t.mem = s.mem ∧ t.queues = s.queues ∧ t.sems = s.sems) ∧
      (∀ k, (validate s (s.job job).func.toNat job (s.job job) (BitVec.ofNat 1024 (byteField d 8 128))).1 = .page k →
        ∃ t, exec (.descCreate p d) s = .next t ∧ (t.path p).descWait = some d ∧ t.jobs = s.jobs ∧ t.mem = s.mem ∧ t.queues = s.queues)) ∧
    (∀ (p : Path) (d : List Byte) (s : State), writeCheck s p 0x4060 3 0 d.length = stOk → pathReaches s p (byteField d 0 4) = true →
      byteField d 4 4 ≠ 0 → byteField d 4 4 ≤ 1048575 → (tfind (s.job (byteField d 0 4)).descs (byteField d 4 4)).isSome = true →
      ∃ t, exec (.descDestroy p d) s = .next t ∧ (t.path p).resp = 0 ∧
        t.job? (byteField d 0 4) = some { s.job (byteField d 0 4) with descs := tdel (byteField d 4 4) (s.job (byteField d 0 4)).descs } ∧
        t.mem = s.mem ∧ t.queues = s.queues ∧ t.sems = s.sems)) ∧
  (∀ (p : Path) (f : Func) (d : List Byte) (s : State), writeCheck s p 0x6020 (f.toNat + 1) 0 16 = stOk → d.length = 16 → byteField d 9 7 = 0 →
      byteField d 0 8 % 256 = 0 → (byteField d 8 1 = 0 ∨ 4 ≤ byteField d 8 1 ∧ byteField d 8 1 ≤ 16) →
      ∃ t, exec (.eventRingSetup p f d) s = .next t ∧ (t.path p).resp = 0 ∧
        t.func f.toNat = { s.func f.toNat with ringBase := BitVec.ofNat 64 (byteField d 0 8), ringN := BitVec.ofNat 8 (byteField d 8 1), ringW := 0, eventRead := 0 } ∧
        t.mem = s.mem ∧ t.queues = s.queues ∧ ∀ g, g ≠ f.toNat → t.func g = s.func g)

/-- Aborts begin (R378, R379, R380, R401): a JOB_ABORT of a loaded job that the path may abort takes every queue of the job to ABORTED, with each started command due a record of ABORTED, and is under way; of the job being loaded, the load stops with ABORTED and the abort is over; a FUNCTION_ABORT takes the function's submission queues to ABORTED, and every LIVE semaphore of the function becomes ORPHANED with its value. Aborts end (R380): at the abandon limit the requests of the function to host memory are given up; the completion of a job's abort frees the job and its queues, that of a function's abort frees its jobs, and either reports its duration beside the kind of the latest abort begun. Completes: JOB_ABORT, FUNCTION_ABORT, ABORT_ABANDON_DEADLINE, ABORT_COMPLETE. -/
def Obligations.AbortsRun : Prop :=
  ((∀ (p : Path) (job : BitVec 32) (s : State) (j : Job), writeCheck s p 0x6040 1 0 4 = stOk → s.job? job.toNat = some j →
      (pathFunc p = none ∨ pathFunc p = some j.func.toNat) → job ≠ 0 → j.aborting = false →
      ∃ t, exec (.jobAbort p job) s = .next t ∧ (t.path p).resp = 0 ∧
        (∀ q, (s.queue q).st ≠ .free → (s.queue q).job = job → (t.queue q).st = .aborted ∧ ∀ w ∈ (t.queue q).started, w.done = true ∧ w.status = 1) ∧
        (∃ a ∈ t.aborts, a.ofFunction = false ∧ a.target = job) ∧ t.mem = s.mem ∧ t.sems = s.sems) ∧
    (∀ (p : Path) (job : BitVec 32) (s : State) (w : LoadWait), writeCheck s p 0x6040 1 0 4 = stOk → s.job? job.toNat = none → s.load = some w →
      w.job = job.toNat → (pathFunc p = none ∨ pathFunc p = some w.func.toNat) →
      ∃ t, exec (.jobAbort p job) s = .next t ∧ (t.path p).resp = 0 ∧ t.load = none ∧ (t.path w.path).loadStatus.take 2 = leBytes 2 stAborted ∧
        (∀ a ∈ t.aborts, ¬(a.ofFunction = false ∧ a.target = job)) ∧ t.queues = s.queues ∧ t.jobs = s.jobs ∧ t.sems = s.sems) ∧
    (∀ (p : Path) (f : BitVec 8) (s : State), writeCheck s p 0x6040 2 0 1 = stOk → functionExists s f.toNat = true →
      (∀ g, pathFunc p = some g → mayAbort g f.toNat = true) →
      ∃ t, exec (.functionAbort p f) s = .next t ∧ (t.path p).resp = 0 ∧
        (∀ q : QNum, 4096 ≤ q.toNat → (s.queue q).st ≠ .free → (s.queue q).func.toNat = f.toNat → (t.queue q).st = .aborted) ∧
        (∀ n, (s.sem n).st = .live → (s.sem n).owner.toNat = f.toNat → t.sem n = { s.sem n with st := .orphaned }) ∧
        (∃ a ∈ t.aborts, a.ofFunction = true ∧ a.target.toNat = f.toNat) ∧ t.mem = s.mem)) ∧
  ((∀ (ofF : Bool) (n : BitVec 32) (s : State), (s.aborts.any fun a => a.ofFunction == ofF && a.target == n) = true →
      ∃ t, exec (.abortAbandonDeadline ofF n) s = .next t ∧ (∀ a ∈ t.aborts, a.ofFunction = ofF → a.target = n → a.abandoned = true) ∧
        (ofF = true → (∀ e ∈ (t.func n.toNat).ats, e.2 ≠ .requested) ∧ (t.func n.toNat).evWait = []) ∧
        (∀ j, ofF = false → s.job? n.toNat = some j → ∀ e ∈ (t.func j.func.toNat).ats, e.2 ≠ .requested) ∧ t.mem = s.mem ∧ t.queues = s.queues) ∧
    (∀ (job : BitVec 32) (us : BitVec 24) (s : State), (s.aborts.any fun a => a.ofFunction == false && a.target == job) = true → job ≠ 0 →
      ∃ t, exec (.abortComplete false job us) s = .next t ∧ t.abortStatus.toNat = bits s.abortStatus.toNat 30 1 * 2 ^ 30 + us.toNat ∧
        (∀ a ∈ t.aborts, ¬(a.ofFunction = false ∧ a.target = job)) ∧ t.job? job.toNat = none ∧ (∀ q, (t.queue q).st ≠ .free → (t.queue q).job ≠ job)) ∧
    (∀ (f : BitVec 32) (us : BitVec 24) (s : State), (s.aborts.any fun a => a.ofFunction == true && a.target == f) = true →
      ∃ t, exec (.abortComplete true f us) s = .next t ∧ t.abortStatus.toNat = bits s.abortStatus.toNat 30 1 * 2 ^ 30 + us.toNat ∧
        (∀ a ∈ t.aborts, ¬(a.ofFunction = true ∧ a.target = f)) ∧ (∀ j x, s.job? j = some x → x.func.toNat = f.toNat → t.job? j = none)))

/-- LOAD_REQUEST with its fields in range, while no load is in progress and the module is neither DRAINING nor in STANDBY: the ten stages of R398 run on the image and LOAD_STATUS of the path has its 32 bytes. Where all succeed the job is loaded, its status is OK with the beat on which it was done, and a READY module is RUNNING. Where one fails, jobs, queues, semaphores, masks, arrays and the module's state are as they were, and the status names the failure. Where one meets a host page not yet answered, the load is in progress, and BUSY. While a load is in progress, or in those states, the request is refused with HELD and changes nothing else (R397 to R401, R539). Completes: LOAD_REQUEST. -/
def Obligations.LoadRunsOrIsUndone : Prop :=
  ∀ (p : Path) (d : List Byte) (s : State) (f : Nat) (l : Load), writeCheck s p 0x6058 1 0 d.length = stOk → f = (pathFunc p).getD (byteField d 6 1) → f < 128 →
    byteField d 0 4 ≠ 0 → byteField d 4 2 < 1024 → byteField d 7 1 = 0 → byteField d 8 8 % 256 = 0 → byteField d 0x18 8 % 8 = 0 → byteField d 0x24 4 = 0 →
    l = { s := s, path := p, f := f, job := byteField d 0 4, red := byteField d 4 2, image := byteField d 8 8, imageLen := byteField d 0x10 8, bind := byteField d 0x18 8, bindCount := byteField d 0x20 4 } →
    (s.load = none → s.power.state ≠ .draining → s.power.state ≠ .standby →
      (∀ r, (ExceptT.run allStages).run l = (.ok (), r) →
        ∃ t, exec (.loadRequest p d) s = .next t ∧ (t.path p).resp = 0 ∧ (t.path p).loadStatus.length = 32 ∧ byteField (t.path p).loadStatus 0 2 = 0 ∧
          t.load = none ∧ t.jobs = r.s.jobs ∧ t.queues = r.s.queues ∧ t.sems = r.s.sems ∧ t.mem = r.s.mem ∧
          t.power.state = (if r.s.power.state = .ready then .running else r.s.power.state)) ∧
      (∀ e r, (ExceptT.run allStages).run l = (.error (.fail e), r) →
        ∃ t, exec (.loadRequest p d) s = .next t ∧ (t.path p).resp = 0 ∧ (t.path p).loadStatus.length = 32 ∧
          (t.path p).loadStatus = loadStatusBytes e false r.above 0 (byteField d 0 4) ∧ t.load = none ∧
          t.jobs = s.jobs ∧ t.queues = s.queues ∧ t.sems = s.sems ∧ t.masks = s.masks ∧ t.arrays = s.arrays ∧ t.power = s.power) ∧
      (∀ k g r, (ExceptT.run allStages).run l = (.error (.page k g), r) →
        ∃ t, exec (.loadRequest p d) s = .next t ∧ (t.path p).resp = 0 ∧ (t.path p).loadStatus.length = 32 ∧ bits (byteField (t.path p).loadStatus 3 1) 0 1 = 1 ∧
          t.load = some ⟨p, BitVec.ofNat 7 f, BitVec.ofNat 4 g, d⟩ ∧ t.jobs = s.jobs ∧ t.queues = s.queues ∧ t.sems = s.sems ∧ t.mem = s.mem ∧ t.power = s.power)) ∧
    (s.load ≠ none ∨ s.power.state = .draining ∨ s.power.state = .standby →
      ∃ t, exec (.loadRequest p d) s = .next t ∧ (t.path p).resp = BitVec.ofNat 16 stHeld ∧ t = { s with paths := t.paths })

/-- Firmware update (R513, R519): a chunk within the target waits for programming and its slot holds no valid image from then on; programming puts its bytes into the flash; a COMMIT with no chunk waiting verifies the image by R513, and its verdict is kept; one with chunks waiting runs after the last. Activation (R520, R521, R522): a root monitor image that boots is named by ROOT_SLOT and a management-only reset follows, or in recovery the boot; a service firmware image starts a live handover; an UNLOCK image whose body holds this module's serial number and nonce unlocks it; READY ends a handover with the new instance once the time unit is LOCKED, a timeout with the old one. Completes: FW_CHUNK, FW_CHUNK_PROGRAMMED, FW_COMMIT, FW_ACTIVATE, HANDOVER_READY, HANDOVER_TIMEOUT. -/
def Obligations.FirmwareIsUpdated : Prop :=
  ((∀ (p : Path) (d : List Byte) (s : State), writeCheck s p 0x6820 2 0 d.length = stOk → 1 ≤ byteField d 4 2 → byteField d 4 2 ≤ 1016 → byteField d 6 2 = 0 →
      s.trust.fwTarget ≠ 0xFF → byteField d 0 4 + byteField d 4 2 ≤ targetSize s.trust.fwTarget.toNat → targetHeld s s.trust.fwTarget.toNat = false →
      s.trust.chunks.length < 64 →
      ∃ t, exec (.fwChunk p d) s = .next t ∧ (t.path p).resp = 0 ∧
        t.trust.chunks = s.trust.chunks ++ [(s.trust.fwTarget.toNat, byteField d 0 4, (d.drop 8).take (byteField d 4 2))] ∧
        (slotOf t s.trust.fwTarget.toNat).valid = false ∧ t.mem = s.mem ∧ t.queues = s.queues) ∧
    (∀ (s : State) (n off : Nat) (bs : List Byte) (rest : List (Nat × Nat × List Byte)), s.trust.chunks = (n, off, bs) :: rest →
      ∃ t, exec .fwChunkProgrammed s = .next t ∧ t.trust.chunks = rest ∧
        (∀ k, k < bs.length → flashGet t n (off + k) = bs.getD k 0) ∧
        (∀ m k, 2 ^ 24 * m + k < 2 ^ 24 * n + off ∨ 2 ^ 24 * n + off + bs.length ≤ 2 ^ 24 * m + k → flashGet t m k = flashGet s m k) ∧
        (s.trust.commitWait = true → (rest = [] → t.trust.verdict ≠ none ∧ t.trust.commitWait = false) ∧ (rest ≠ [] → t.trust.commitWait = true)) ∧
        t.mem = s.mem ∧ t.queues = s.queues) ∧
    (∀ (p : Path) (s : State), writeCheck s p 0x6820 3 0 1 = stOk → s.trust.fwTarget ≠ 0xFF → targetHeld s s.trust.fwTarget.toNat = false →
      ∃ t, exec (.fwCommit p) s = .next t ∧ (t.path p).resp = 0 ∧
        (s.trust.chunks = [] → t.trust.verdict = some (verifyImage s s.trust.fwTarget.toNat).2) ∧
        (s.trust.chunks ≠ [] → t.trust.commitWait = true) ∧ t.mem = s.mem ∧ t.queues = s.queues)) ∧
  ((∀ (p : Path) (s : State), writeCheck s p 0x6820 3 0 1 = stOk → targetHeld s s.trust.fwTarget.toNat = false →
      slotBoots s s.trust.fwTarget.toNat = true →
      (s.trust.fwTarget.toNat < 2 →
        ∃ t, exec (.fwActivate p) s = .next t ∧ (t.path p).resp = 0 ∧ t.trust.rootSlot = BitVec.ofNat 1 s.trust.fwTarget.toNat ∧
          (s.trust.recovery = false → t.trust.rootUp = false) ∧ t.trust.recovery = false ∧ t.mem = s.mem ∧ t.queues = s.queues ∧ t.jobs = s.jobs) ∧
      (2 ≤ s.trust.fwTarget.toNat → s.trust.fwTarget.toNat < 4 → s.trust.handover = none →
        ∃ t, exec (.fwActivate p) s = .next t ∧ (t.path p).resp = 0 ∧
          t.trust.handover = some (BitVec.ofNat 1 (s.trust.fwTarget.toNat - 2), s.trust.sfUp) ∧
          t.trust.sfUp = false ∧ t.mem = s.mem ∧ t.queues = s.queues) ∧
      (s.trust.fwTarget.toNat = 4 → flashRead s 4 0x1000 48 = unlockBody s →
        ∃ t, exec (.fwActivate p) s = .next t ∧ (t.path p).resp = 0 ∧ t.trust.unlocked = true ∧ t.trust.unlockSvn = some (slotOf s 4).svn ∧
          t.trust.nonces = s.trust.nonces + 1 ∧ t.mem = s.mem ∧ t.queues = s.queues)) ∧
    (∀ (s : State) (n : BitVec 1) (old : Bool), s.trust.handover = some (n, old) → s.trust.rootUp = true →
      (s.ticking = true → ∃ t, exec .handoverReady s = .next t ∧ t.trust.handover = none ∧ t.trust.sfUp = true ∧ t.trust.sfRun = n ∧ t.trust.sfSlot = n ∧
        t.queues = s.queues ∧ t.jobs = s.jobs) ∧
      (∃ t, exec .handoverTimeout s = .next t ∧ t.trust.handover = none ∧ t.trust.sfUp = old ∧ t.trust.sfRun = s.trust.sfRun ∧
        t.queues = s.queues ∧ t.jobs = s.jobs)))

/-- The fused security versions only rise: SVN_RAISE of a kind with a standing image lifts that kind's minimum to the image's version, at most 64, where it is above, and leaves the others (R515). A boot takes the named slot where its image still passes, else the other, else none: SERVICE_FIRMWARE_START starts service firmware from it once the time unit is LOCKED, and ROOT_MONITOR_RETURN the root monitor, after which held black-box records are written (R20, R514, R521). Completes: SVN_RAISE, SERVICE_FIRMWARE_START, ROOT_MONITOR_RETURN. -/
def Obligations.VersionsAndBoots : Prop :=
  (∀ (p : Path) (kind : BitVec 8) (s : State) (v : Nat), writeCheck s p 0x6800 3 0 1 = stOk → standingSvn s kind.toNat = some v →
      s.trust.svnRaised.length = 3 →
      ∃ t, exec (.svnRaise p kind) s = .next t ∧ (t.path p).resp = 0 ∧
        (v ≤ svnMin s kind.toNat → t.trust.svnRaised = s.trust.svnRaised) ∧
        (svnMin s kind.toNat < v → t.trust.svnRaised = s.trust.svnRaised.set (kind.toNat - 1) (BitVec.ofNat 16 (min 64 v))) ∧
        t.mem = s.mem ∧ t.queues = s.queues) ∧
  ((∀ (s : State) (n : BitVec 1) (x : Slot), s.trust.rootUp = true → s.trust.sfUp = false → s.trust.handover = none → s.power.state ≠ .off → s.ticking = true →
      bootSlot s 2 s.trust.sfSlot = some (n, x) →
      exec .serviceFirmwareStart s = .next { s with trust := { s.trust with slots := s.trust.slots.set (2 + n.toNat) x, sfUp := true, sfRun := n } }) ∧
    (∀ (s : State) (n : BitVec 1) (x : Slot), s.trust.rootUp = false → s.trust.recovery = false → s.power.state ≠ .off → s.power.resetHeld = false →
      bootSlot s 0 s.trust.rootSlot = some (n, x) →
      ∃ t, exec .rootMonitorReturn s = .next t ∧ t.trust.rootUp = true ∧ t.trust.rootRun = n ∧ t.dict.bbHeld = [] ∧ t.trust.heldPosts = [] ∧
        t.queues = s.queues ∧ t.jobs = s.jobs ∧ t.sems = s.sems))

/-- SPDM (R517, R518): a running root monitor answers VERSION 1.3, on a host port once the time unit is LOCKED; once negotiated, one certificate chain in slot 0 with its digest and parts, a signed challenge, and the measurements asked for, signed where asked; the framing and the codes are the model's (log entry 40). No request changes memory, queues or jobs. Completes: GET_VERSION, GET_CAPABILITIES, NEGOTIATE_ALGORITHMS, GET_DIGESTS, GET_CERTIFICATE, CHALLENGE, GET_MEASUREMENTS. -/
def Obligations.SpdmAnswers : Prop :=
  ∀ (p : SpdmPath) (s : State), s.trust.rootUp = true → (p = .mgmt ∨ s.ticking = true) →
    exec (.getVersion p) s = .next (respond (setStage s p 1) [0x04, 0x00, 0x13]) ∧
    (1 ≤ spdmStage s p → exec (.getCapabilities p) s = .next (respond (setStage s p (max 2 (spdmStage s p))) [0x61, 0x16, 0x00, 0x00, 0x00])) ∧
    (2 ≤ spdmStage s p → exec (.negotiateAlgorithms p true true) s = .next (respond (setStage s p 3) [0x63, 0x01, 0x01]) ∧
      ∀ a b, (a && b) = false → exec (.negotiateAlgorithms p a b) s = .next (respond s [0x7F, 0x01])) ∧
    (3 ≤ spdmStage s p →
      exec (.getDigests p) s = .next (respond s ([0x01, 0x01] ++ leBytes 32 (Config.sha3 Config.certChain).toNat)) ∧
      (∀ off len : BitVec 16, off.toNat < Config.certChain.length →
        ∃ t, exec (.getCertificate p 0 off len) s = .next t ∧
          t.trust.spdmResp.drop 6 = (Config.certChain.drop off.toNat).take len.toNat ∧ t = { s with trust := { s.trust with spdmResp := t.trust.spdmResp } }) ∧
      (∀ nonce : BitVec 256, ∃ t m, exec (.challenge p 0 nonce) s = .next t ∧
        t.trust.spdmResp = m ++ Config.mldsaSign (leBytes 32 nonce.toNat ++ m) ∧ (m.drop 2).take 32 = chainDigest ∧
        t.mem = s.mem ∧ t.queues = s.queues ∧ t.jobs = s.jobs) ∧
      (∀ (i : BitVec 8) (sg : Bool) (nonce : BitVec 256) (m : List Byte), measured s i.toNat = some m →
        ∃ t, exec (.getMeasurements p i sg nonce) s = .next t ∧ (t.trust.spdmResp.drop 2).take m.length = m ∧
          (sg = true → ∃ r, t.trust.spdmResp = r ++ Config.mldsaSign (leBytes 32 nonce.toNat ++ r)) ∧
          t.mem = s.mem ∧ t.queues = s.queues ∧ t.jobs = s.jobs))

/-- POWER_ON from OFF with ENABLE_RTN connected: POWER_CYCLE counts it, the state is MANAGED with time UNLOCKED, and no job, queue or poison is left (R304, R541, R543). Start-up (R539, R543, R544): from MANAGED, with the root monitor and time running, LINKED with PWR_GOOD and the calibrated p_base; from LINKED, with its conditions met, no job and no stored Snowdrop, READY; with a job already, RUNNING; with a stored Snowdrop, STANDBY. Completes: POWER_ON, LINKED_REACHED, READY_CONDITIONS_MET. -/
def Obligations.PowerOnAndStartUp : Prop :=
  (∀ s : State, s.power.state = .off → s.power.enableMated = true →
      ∃ t, exec .powerOn s = .next t ∧ t.power.state = .managed ∧ t.dict.powerCycle = s.dict.powerCycle + 1 ∧ t.time.st = .unlocked ∧
        t.jobs = [] ∧ t.queues = [] ∧ t.sems = [] ∧ t.poison = [] ∧ t.power.inRange = true ∧
        40000 < t.power.inputMv.toNat ∧ t.power.inputMv.toNat ≤ 60000 ∧ t.pending = s.pending) ∧
  ((∀ (pb : BitVec 16) (dev : BitVec 32) (cf : List (Die × BitVec 6)) (ar : List (ArrayNum × Option (BitVec 6) × Bool)) (s : State),
      s.power.state = .managed → s.trust.rootUp = true → s.ticking = true → s.power.resetHeld = false →
      ∃ t, exec (.linkedReached pb dev cf ar) s = .next t ∧ t.power.state = .linked ∧ t.power.pwrGood = true ∧ t.power.pBase = pb ∧
        t.msys.devices = dev &&& 0x0FFFFFFF ∧ t.power.envelope = envelopeOf s.power.mode.toNat s.power.cap.toNat ∧ t.time = s.time) ∧
    (∀ s : State, s.power.state = .linked → readyOk s = true → s.jobs = [] → s.power.mode ≠ 3 →
      ∃ t, exec .readyConditionsMet s = .next t ∧ t.power.state = .ready ∧ t.queues = s.queues ∧ t.jobs = [] ∧ t.time = s.time) ∧
    (∀ s : State, s.power.state = .linked → readyOk s = true → s.jobs ≠ [] →
      ∃ t, exec .readyConditionsMet s = .next t ∧ t.power.state = .running ∧ t.queues = s.queues ∧ t.jobs = s.jobs ∧ t.time = s.time) ∧
    (∀ s : State, s.power.state = .linked → readyOk s = true → s.jobs = [] → s.power.mode = 3 →
      ∃ t, exec .readyConditionsMet s = .next t ∧ t.power.state = .standby ∧ (∀ n : Port, (t.port n).st = .disabled) ∧ t.queues = s.queues ∧ t.jobs = []))

/-- The input (R538, R539, R560): below 36 V the module is OFF; outside 40 to 60 V it is FAULTED with cause 2, its jobs aborting, at once or, during a management-only reset, once the root monitor is back; at 68 V the input switch opens; a reversed input is latched; a failed power stage is FAULTED with cause 3. Completes: INPUT_LOSS, INPUT_OUT_OF_RANGE, OVERVOLTAGE_CUT, INPUT_REVERSED, POWER_STAGE_FAULT. -/
def Obligations.InputFaults : Prop :=  (∀ (mv : BitVec 16) (s : State), mv.toNat < 36000 →
    ∃ t, exec (.inputLoss mv) s = .next t ∧ t.power.state = .off ∧ t.power.inputMv = mv ∧ t.jobs = [] ∧ t.queues = [] ∧ t.trust.rootUp = false) ∧
  (∀ (mv : BitVec 16) (s : State), (mv.toNat < 40000 ∨ 60000 < mv.toNat) → s.power.state ≠ .off →
    ∃ t, exec (.inputOutOfRange mv) s = .next t ∧ t.power.inputMv = mv ∧
      (s.trust.rootUp = true → s.power.state ≠ .faulted → t.power.state = .faulted ∧ t.power.faultCause = 2) ∧
      (s.trust.rootUp = true → s.power.state = .faulted → t.power.state = .faulted ∧ t.power.faultCause = s.power.faultCause) ∧
      (s.trust.rootUp = false → t.power.faultHeld = true ∧ t.power.state = s.power.state) ∧
      (∀ j x, t.job? j = some x → (s.job? j).isSome = true → x.aborting = true)) ∧
  (∀ s : State, s.power.state ≠ .off →
    exec .overvoltageCut s = .next { s with power := { s.power with switchOpen := true, overvolt := true } }) ∧
  (∀ s : State, exec .inputReversed s = .next { s with power := { s.power with reversedLatch := true } }) ∧
  (∀ s : State, s.power.state ≠ .off → s.power.state ≠ .faulted →
    ∃ t, exec .powerStageFault s = .next t ∧ t.power.state = .faulted ∧ t.power.faultCause = 3 ∧ t.queues = s.queues ∧ t.jobs = s.jobs)

/-- The governor (R535): at slot 240, once a beat, the measured power joins the energy and the window, and the next beat's s is at most 240 and at least the present one less 16, or of the beat that R535's target asks for. Completes: GOVERNOR_UPDATE. -/
def Obligations.GovernorChoosesS : Prop :=  ∀ (w : BitVec 16) (s : State), s.ticking = true → s.slot ≤ 240 → s.power.governed = false → s.power.s ≤ 240 →
    ∃ t, exec (.governorUpdate w) s = .next t ∧ t.power.governed = true ∧ t.power.energy = s.power.energy + w.toNat ∧
      t.power.epochW = s.power.epochW + w.toNat ∧ t.power.sNext ≤ 240 ∧ s.power.s - 16 ≤ t.power.sNext ∧
      (s.power.s - 16 < t.power.sNext → t.power.sNext < 240 →
        estOf s.power.pBase.toNat w.toNat s.power.sPrev t.power.sNext ≤ ((min (20 * 3300) (capNow s) * (256 - s.power.sPrev) : Nat) : Int)) ∧
      w.toNat ≤ t.power.peakW.toNat ∧ t.slot = 240 ∧ t.beat = s.beat ∧ t.queues = s.queues ∧ t.jobs = s.jobs

/-- Temperatures (R537): a report is kept, and a die at the threshold warns once; the cap falls by a twentieth of the envelope each millisecond while a die is warm, and rises back once all have been cool for a millisecond; a comparator's trip is FAULTED with cause 1. Modes (R531, R532): a change among Dahlia, Aster and Lavender, to or from Aster with no job loaded, is kept and its envelope waits for the next beat, the arithmetic clock relocking where Aster is entered or left; Snowdrop from READY is STANDBY with every torus port DISABLED, and another mode then is READY again; the cap of Lavender within 1,200 to 2,800 W is kept. DRAIN_REQUEST of 1 in RUNNING takes the module to DRAINING (R539). Completes: TEMPERATURE_REPORT, THERMAL_CAP_STEP, THERMAL_COMPARATOR_TRIP, SET_MODE_DAHLIA, SET_MODE_ASTER, SET_MODE_LAVENDER, SET_MODE_SNOWDROP, LAVENDER_CAP_WRITE, ARITH_PLL_RELOCK, DRAIN_REQUEST. -/
def Obligations.TemperaturesAndModes : Prop :=
  ((∀ (tj : List (BitVec 8)) (c : BitVec 8) (s : State), tj.length = 5 →
      ∃ t, exec (.temperatureReport tj c) s = .next t ∧ t.power.tj = tj ∧ t.power.coolant = c ∧
        ((∃ x ∈ tj, warnC s ≤ x.toNat) → t.power.warm = true) ∧ t.queues = s.queues ∧ t.jobs = s.jobs ∧ t.time = s.time) ∧
    (∀ s : State, (∃ x ∈ s.power.tj, warnC s ≤ x.toNat) →
      exec .thermalCapStep s = .next { s with power := { s.power with thermalCap := some (capNow s - s.power.envelope) } }) ∧
    (∀ (s : State) (k : BitVec 64), (∀ x ∈ s.power.tj, x.toNat < warnC s) → s.power.coolSince = some k → 100000 ≤ (s.time.tick - k).toNat →
      exec .thermalCapStep s = .next { s with power := { s.power with
        warm := false, thermalCap := if 20 * s.power.envelope ≤ capNow s + s.power.envelope then none else some (capNow s + s.power.envelope) } }) ∧
    (∀ (d : Die) (c : BitVec 8) (s : State), s.power.state ≠ .off → s.power.state ≠ .faulted →
      ∃ t, exec (.thermalComparatorTrip d c) s = .next t ∧ t.power.state = .faulted ∧ t.power.faultCause = 1 ∧ t.queues = s.queues ∧ t.jobs = s.jobs)) ∧
  ((∀ (p : Path) (s : State) (i : Instr) (m : BitVec 8), (i = .setModeDahlia p ∧ m = 0 ∨ i = .setModeAster p ∧ m = 1 ∨ i = .setModeLavender p ∧ m = 2) →
      writeCheck s p 0x2000 1 0 1 = stOk → (s.jobs = [] ∨ m ≠ 1 ∧ s.power.mode ≠ 1) → s.power.mode ≠ m → s.power.mode.toNat < 3 →
      ∃ t, exec i s = .next t ∧ (t.path p).resp = 0 ∧ t.power.mode = m ∧ t.power.envelopeNext = some (envelopeOf m.toNat s.power.cap.toNat) ∧
        t.power.relock = (s.power.relock || m == 1 || s.power.mode == 1) ∧ t.power.state = s.power.state ∧ t.mem = s.mem ∧ t.queues = s.queues) ∧
    (∀ (p : Path) (s : State) (i : Instr) (m : BitVec 8), (i = .setModeDahlia p ∧ m = 0 ∨ i = .setModeAster p ∧ m = 1 ∨ i = .setModeLavender p ∧ m = 2) →
      writeCheck s p 0x2000 1 0 1 = stOk → s.jobs = [] → s.power.mode = 3 → s.power.state = .standby →
      ∃ t, exec i s = .next t ∧ (t.path p).resp = 0 ∧ t.power.mode = m ∧ t.power.state = .ready ∧ t.power.ratio = ratioOf m.toNat ∧
        t.power.envelopeNext = some (envelopeOf m.toNat s.power.cap.toNat) ∧ t.mem = s.mem ∧ t.queues = s.queues) ∧
    (∀ (p : Path) (s : State), writeCheck s p 0x2000 1 0 1 = stOk → (s.jobs = [] ∨ s.power.mode ≠ 1) → s.power.state = .ready → s.power.mode.toNat < 3 →
      ∃ t, exec (.setModeSnowdrop p) s = .next t ∧ (t.path p).resp = 0 ∧ t.power.mode = 3 ∧ t.power.state = .standby ∧
        (∀ n : Port, (t.port n).st = .disabled)) ∧
    (∀ (p : Path) (w : BitVec 16) (s : State), writeCheck s p 0x2000 2 0 2 = stOk → 1200 ≤ w.toNat → w.toNat ≤ 2800 →
      ∃ t, exec (.lavenderCapWrite p w) s = .next t ∧ (t.path p).resp = 0 ∧ t.power.cap = w ∧
        (s.power.mode = 2 → t.power.envelopeNext = some w.toNat) ∧ t.mem = s.mem ∧ t.queues = s.queues) ∧
    (∀ s : State, s.power.relock = true →
      exec .arithPllRelock s = .next { s with power := { s.power with relock := false, ratio := ratioOf s.power.mode.toNat } })) ∧
  (∀ (p : Path) (s : State), writeCheck s p 0x2010 2 0 1 = stOk → s.power.state = .running →
      ∃ t, exec (.drainRequest p 1) s = .next t ∧ (t.path p).resp = 0 ∧ t.power.state = .draining ∧ t.power.drain = true ∧
        t.queues = s.queues ∧ t.jobs = s.jobs)

/-- Resets (R521, R541, R554): a module reset from the pin holds the module, with no job, queue or semaphore left, until its release, one that a write asks for starts up again at once; a management-only reset stops the root monitor and nothing else of jobs, queues or memory. Completes: MODULE_RESET, RESET_RELEASE, MGMT_ONLY_RESET. -/
def Obligations.ResetsRestart : Prop :=  (∀ s : State, s.power.state ≠ .off → s.power.resetHeld = false →
    ∃ t, exec (.moduleReset none) s = .next t ∧ t.power.resetHeld = true ∧ t.jobs = [] ∧ t.queues = [] ∧ t.sems = [] ∧ t.time.st = .unlocked ∧
      t.trust.rootUp = false ∧ t.pending = s.pending) ∧
  (∀ (p : Path) (s : State), writeCheck s p 0x2010 3 0 4 = stOk →
    ∃ t, exec (.moduleReset (some p)) s = .next t ∧ t.jobs = [] ∧ t.queues = [] ∧ t.sems = [] ∧ t.time.st = .unlocked ∧ t.power.state = .managed ∧
      t.pending = s.pending) ∧
  (∀ s : State, s.power.resetHeld = true →
    ∃ t, exec .resetRelease s = .next t ∧ t.power.resetHeld = false ∧ t.power.state = .managed ∧ t.mem = s.mem ∧ t.jobs = s.jobs) ∧
  (∀ (p : Path) (s : State), writeCheck s p 0x2010 3 0 4 = stOk →
    ∃ t, exec (.mgmtOnlyReset p) s = .next t ∧ (t.path p).resp = 0 ∧ t.trust.rootUp = false ∧ t.mem = s.mem ∧ t.queues = s.queues ∧
      t.jobs = s.jobs ∧ t.sems = s.sems ∧ t.time = s.time ∧ t.arrays = s.arrays)

/-- Host resets (R379, R467, R541, R542): a function-level reset of a function that exists leaves it with level, EVENT_READ and MSI-X reset and no job; a port reset does so to each of its functions; PERST# released, the port trains, or is up once the module has PWR_GOOD and time. Sideband pins (R561, R562): a driven GPIO pin that mismatches is released, and a write of its bit drives it again; PWR_GOOD and FAULT# that mismatch are marked; cut torus supplies are restored. Completes: FUNCTION_LEVEL_RESET, PORT_RESET, PERST_DEASSERT, SIDEBAND_MISMATCH_COUNT, GPIO_SHORT_CLEAR, TORUS_SUPPLY_RESTORE. -/
def Obligations.HostResetsAndPins : Prop :=
  ((∀ (f : Func) (s : State), functionExists s f.toNat = true →
      ∃ t, exec (.functionLevelReset f) s = .next t ∧ (t.func f.toNat).agreed = 0 ∧ (t.func f.toNat).eventRead = 0 ∧
        (t.func f.toNat).msixEnabled = false ∧ (t.func f.toNat).ats = [] ∧
        (∀ j x, s.job? j = some x → x.func = f → t.job? j = none) ∧ t.pending = s.pending) ∧
    (∀ (h : HPort) (k : PortResetKind) (s : State),
      ∃ t, exec (.portReset h k) s = .next t ∧ (∀ f ∈ portFunctions s h, (t.func f).agreed = 0 ∧ (t.func f).bar2Log2 = 38) ∧
        (t.hport h).numVfs = 0 ∧ (k = .perst → (t.hport h).perst = true) ∧ t.pending = s.pending) ∧
    (∀ (h : HPort) (s : State), ∃ t, exec (.perstDeassert h) s = .next t ∧ (t.hport h).perst = false ∧
      (t.hport h).ready = (s.power.pwrGood && s.ticking) ∧ (t.hport h).state = (if s.power.pwrGood = true ∧ s.ticking = true then 2 else 1) ∧
      t.mem = s.mem ∧ t.queues = s.queues ∧ ∀ g, g ≠ h → t.hport g = s.hport g)) ∧
  ((∀ (pin : BitVec 5) (s : State), 15 ≤ pin.toNat → pin.toNat ≤ 18 → s.power.state ≠ .off → gpioDriven s (pin.toNat - 15) = true →
      ∃ t, exec (.sidebandMismatchCount pin) s = .next t ∧ t.power.gpioShort.getLsbD (pin.toNat - 15) = true ∧
        gpioDriven t (pin.toNat - 15) = false ∧ t.queues = s.queues ∧ t.jobs = s.jobs) ∧
    (∀ s : State, s.power.state ≠ .off →
      (∃ t, exec (.sidebandMismatchCount 13) s = .next t ∧ t.power.pwrGoodMismatch = true ∧ t.queues = s.queues ∧ t.jobs = s.jobs) ∧
      (faultLine s = true → ∃ t, exec (.sidebandMismatchCount 14) s = .next t ∧ t.power.faultLineHigh = true ∧ t.queues = s.queues ∧ t.jobs = s.jobs)) ∧
    (∀ (p : Path) (b : BitVec 4) (s : State), writeCheck s p 0x2040 2 0 4 = stOk →
      ∃ t, exec (.gpioShortClear p b) s = .next t ∧ (t.path p).resp = 0 ∧ t.power.gpioShort = s.power.gpioShort &&& ~~~b ∧
        t.mem = s.mem ∧ t.queues = s.queues) ∧
    (∀ (p : Path) (b : BitVec 8) (s : State), writeCheck s p 0x2040 3 0 1 = stOk →
      ∃ t, exec (.torusSupplyRestore p b) s = .next t ∧ (t.path p).resp = 0 ∧
        (∀ n : Port, (t.port n).supplyCut = ((s.port n).supplyCut && !b.getLsbD n.toNat)) ∧ t.mem = s.mem))

/-- The order of the checks before a body (R358, R363): a command of another level, of an opcode that the level does not assign, of an opcode that its executor does not run, with a nonzero reserved field, or naming a handle that is not created completes at once with the status of the first of these, its queue moving on, and no byte of memory changed. A head that is not open takes nothing: while the queue is not ACTIVE, is empty, is held by a WAIT, or time does not issue, no queue command changes anything (R34, R354, R355). Completes: UNASSIGNED_OPCODE. -/
def Obligations.HeadsAndEarlyChecks : Prop :=
  (∀ (q : QNum) (c : Cmd) (s s1 : State) (b : List Byte), headReady s q c = true → fetchHead s q c = .ok (b, s1) →
      unitOk s1 (exeOf q (s.queue q)) = true →
      (∀ st dk dt, earlyChecks (s1.job (s.queue q).job.toNat) (exeOf q (s.queue q)) c ((s.queue q).hold.copies.map (·.1.toNat)) productOk productHandles = some (st, dk, dt) →
        ∃ t w, exec (.mmul q c none) s = .next t ∧ (t.queue q).started = (s1.queue q).started ++ [w] ∧ w.status = BitVec.ofNat 16 st ∧
          w.idx = (s.queue q).next ∧ (t.queue q).next = (s1.queue q).next + 1 ∧ t.mem = s1.mem ∧ t.sems = s1.sems ∧
          (bits (cmdField c 1 1) 4 4 ≠ 1 → st = stLevel) ∧
          (bits (cmdField c 1 1) 4 4 = 1 → opByte c ∉ assignedOpcodes → st = stOpcode)) ∧
      (opByte c ∉ assignedOpcodes →
        ∃ t w, exec (.unassignedOpcode q c) s = .next t ∧ (t.queue q).started = (s1.queue q).started ++ [w] ∧
          w.status = (if bits (cmdField c 1 1) 4 4 = 1 then 6 else 5) ∧ (t.queue q).next = (s1.queue q).next + 1 ∧
          t.mem = s1.mem ∧ t.sems = s1.sems ∧ t.jobs = s1.jobs)) ∧
  (∀ (q : QNum) (c : Cmd) (s : State), headOpen s (s.queue q) (exeOf q (s.queue q)) = false →
      ∀ i ∈ [Instr.nop q c, .wait q c, .signal q c, .fence q c, .mmul q c none, .mmulT q c none, .loadStat q c none, .preloadAcc q c, .drain q c,
        .vecChain q c, .vecReduce q c, .softmax q c, .norm q c, .dropout q c, .quantise q c, .dequantise q c, .maskScore q c, .prune q c, .regrow q c,
        .predict q c, .maskGather q c, .copy q c, .fill q c, .compare q c, .transposeCopy q c, .gather q c, .scatter q c, .redFlush q c, .reshard q c,
        .optUpdate q c, .lossScaleCheck q c, .semCreate q c, .semDestroy q c], exec i s = .next s)

/-- NOP, FENCE whose scope has nothing outstanding, and BEAT_ALIGN start and are done, with status OK and nothing else changed but the queue's own place: SET_BASE sets the queue's beat base from the schedule beat, DEADLINE ends its marker, and WAIT mode, once its slot has come, lets the queue go on, counted late where it came to the head after it (R39, R360, R361). A command starts where R354 and R358 let it: its queue's head is open and has the turn, its ring entry reads, its unit is in service, and the checks of R358 pass. Completes: NOP, FENCE, BEAT_ALIGN. -/
def Obligations.PlainCommandsComplete : Prop :=
  (∀ (q : QNum) (c : Cmd) (s s1 : State), Starts s q c nopOk (fun _ => []) s1 →
    exec (.nop q c) s = .next (started q (headRun s1 q (s.queue q) c)) ∧ (headRun s1 q (s.queue q) c).w.status = 0) ∧
  (∀ (q : QNum) (c : Cmd) (s s1 : State), Starts s q c fenceOk (fun _ => []) s1 → (s1.queue q).started = [] →
    (cmdField c 8 1 = 1 → jobStarted s1 (s.queue q).job.toNat q = []) →
    exec (.fence q c) s = .next (started q (headRun s1 q (s.queue q) c))) ∧
  (∀ (q : QNum) (c : Cmd) (s s1 : State), Starts s q c beatAlignOk (fun _ => []) s1 → cmdField c 8 1 % 4 = 2 →
    exec (.beatAlign q c) s =
      .next (started q (headRun (s1.setQueue q { s1.queue q with base := s1.schedBeat + BitVec.ofNat 48 (alignBeat c) }) q (s.queue q) c))) ∧
  (∀ (q : QNum) (c : Cmd) (s u s1 : State), headOpen s (s.queue q) (exeOf q (s.queue q)) = true → u = reachMarker s q (s.queue q).next →
    Starts u q c beatAlignOk (fun _ => []) s1 → cmdField c 8 1 % 4 = 1 →
    exec (.beatAlign q c) s = .next (started q (headRun s1 q (u.queue q) c)) ∧ ∀ m ∈ (u.queue q).markers, m.idx ≠ (s.queue q).next) ∧
  (∀ (q : QNum) (c : Cmd) (s s1 : State), Starts s q c beatAlignOk (fun _ => []) s1 → cmdField c 8 1 % 4 = 0 →
    whenIs s1 false ((s1.queue q).target (alignBeat c)) (cmdField c 0x0C 1) ≠ .early →
    exec (.beatAlign q c) s = .next (started q (headRun
      (if (s1.queue q).headLate ((s1.queue q).target (alignBeat c)) (cmdField c 0x0C 1) then bump s1 5 0 1 1 else s1) q (s.queue q) c)))

/-- WAIT on a semaphore assigned to its function and not FREE holds the head of its queue, satisfied at once where the semaphore's present value meets it (R366, R368); the command's words and target are kept, and no semaphore and no byte of memory changes: to hold is its effect, and WAIT_SATISFIED ends it. SIGNAL, with every earlier command of its queue complete: SET stores the value and ADD adds it, modulo 2^64, in a semaphore of the module that is LIVE and assigned, or writes the value to an aligned word of host memory, for ADD with what the atomic operation found there, which is open (R361, R367, R371); SEM_CREATE makes a FREE semaphore LIVE with its value, and SEM_DESTROY of an ORPHANED one, or by its owner, makes it FREE (R372). Memory and the other semaphores stay. Completes: WAIT, SIGNAL, SEM_CREATE, SEM_DESTROY. -/
def Obligations.WaitAndSemaphoreCommands : Prop :=
  (∀ (q : QNum) (c : Cmd) (s s1 : State), Starts s q c waitOk (fun _ => []) s1 →
      semCheck s1 (s.queue q).func.toNat (cmdField c 8 4) = stOk →
      ∃ t, exec (.wait q c) s = .next t ∧
        (t.queue q).hold = .wait (s.queue q).next c (BitVec.ofNat 16 (cmdField c 8 4)) (cmdField c 0x0C 1 == 1) (BitVec.ofNat 64 (cmdField c 0x10 8))
          (if cmdField c 0x0C 1 = 1 then (s1.sem (cmdField c 8 4)).value == BitVec.ofNat 64 (cmdField c 0x10 8)
            else decide (cmdField c 0x10 8 ≤ (s1.sem (cmdField c 8 4)).value.toNat)) ∧
        (t.queue q).next = (s1.queue q).next ∧ t.mem = s1.mem ∧ t.sems = s1.sems ∧ ∀ q', q' ≠ q → t.queue q' = s1.queue q') ∧
  ((∀ (q : QNum) (c : Cmd) (s s1 : State) (n : Nat), Starts s q c signalOk (fun _ => []) s1 → (cmdField c 8 1).testBit 1 = false →
      (s1.queue q).started = [] → n = cmdField c 0x0C 4 → semCheck s1 (s.queue q).func.toNat n = stOk →
      ∃ t, exec (.signal q c) s = .next t ∧
        t.sem n = { s1.sem n with value := (if (cmdField c 8 1).testBit 0 then (s1.sem n).value else 0) + BitVec.ofNat 64 (cmdField c 0x10 8) } ∧
        (t.queue q).next = (s1.queue q).next + 1 ∧ t.mem = s1.mem ∧ ∀ k, k ≠ n → t.sem k = s1.sem k) ∧
    (∀ (q : QNum) (c : Cmd) (s s1 u : State) (r : Run) (old : BitVec 64), Starts s q c signalOk (fun _ => []) s1 → (cmdField c 8 1).testBit 1 = true →
      (s1.queue q).started = [] → cmdField c 0x18 8 % 8 = 0 →
      (if (cmdField c 8 1).testBit 0 then atomicOn s1 (s.queue q).func.toNat = true ∧ (old, u) = drawWord s1 else old = 0 ∧ u = s1) →
      Ends (writeM 4 (cmdField c 0x18 8) (leBytes 8 (old.toNat + cmdField c 0x10 8))) s u q c r →
      exec (.signal q c) s = .next (started q r) ∧ r.w.status = 0 ∧ r.s.sems = s1.sems) ∧
    (∀ (q : QNum) (c : Cmd) (s s1 : State) (n : Nat), Starts s q c semCreateOk (fun _ => []) s1 → n = cmdField c 8 4 → n < 65536 →
      s1.assignedTo 2 n (s.queue q).func.toNat = true → (s1.sem n).st ≠ .live →
      ∃ t, exec (.semCreate q c) s = .next t ∧ t.sem n = ⟨BitVec.ofNat 64 (cmdField c 0x10 8), .live, BitVec.ofNat 7 (s.queue q).func.toNat⟩ ∧
        (t.queue q).next = (s1.queue q).next + 1 ∧ t.mem = s1.mem ∧ ∀ k, k ≠ n → t.sem k = s1.sem k) ∧
    (∀ (q : QNum) (c : Cmd) (s s1 : State) (n : Nat), Starts s q c semDestroyOk (fun _ => []) s1 → n = cmdField c 8 4 → n < 65536 →
      s1.assignedTo 2 n (s.queue q).func.toNat = true →
      ((s1.sem n).st = .orphaned ∨ (s1.sem n).st = .live ∧ (s1.sem n).owner = (s.queue q).func) →
      ∃ t, exec (.semDestroy q c) s = .next t ∧ t.sem n = {} ∧ t.mem = s1.mem ∧ ∀ k, k ≠ n → t.sem k = s1.sem k))

/-- The array commands, whose bodies run to their ends: each starts, with status OK and no semaphore changed, and near memory changes only in the spans noted as its own stores. LOAD_STAT makes its tile the loaded one; MMUL and MMUL_T without LAST leave their rows resident and change no byte of memory, and with LAST leave none of them resident; PRELOAD_ACC makes its rows resident and DRAIN takes its rows out (R82, R83, R93, R126, R129). -/
def Obligations.ArrayCommandsRun : Prop :=  (∀ (q : QNum) (c : Cmd) (chk : Option CheckFault) (s s1 : State) (r : Run), Starts s q c loadStatOk loadStatHandles s1 →
    Ends (loadStatBody chk) s s1 q c r →
    exec (.loadStat q c chk) s = .next (started q r) ∧ r.w.status = 0 ∧ r.s.mem = s1.mem ∧ r.s.sems = s1.sems ∧
      ∃ a t, (exeOf q (s.queue q)).array? = some a ∧ (r.s.array a).tile = some t ∧ t.kExt = cmdField c 0x14 1 ∧ t.nExt = cmdField c 0x15 1 ∧
        t.form = BitVec.ofNat 2 (cmdField c 0x16 1) ∧ t.released = false ∧ t.kOff = cmdField c 0x0C 4 ∧ t.nOff = cmdField c 0x10 4) ∧
  (∀ (q : QNum) (c : Cmd) (chk : Option CheckFault) (tr : Bool) (i : Instr) (s s1 : State) (r : Run),
    (i = .mmul q c chk ∧ tr = false ∨ i = .mmulT q c chk ∧ tr = true) → Starts s q c productOk productHandles s1 →
    Ends (productBody tr chk) s s1 q c r →
    exec i s = .next (started q r) ∧ r.w.status = 0 ∧ r.s.sems = s1.sems ∧ r.s.queues = s1.queues ∧ StoresNoted s1 r ∧
      ((cmdField c 0x2C 1).testBit 3 = false → r.s.mem = s1.mem) ∧
      ∃ a t, (exeOf q (s.queue q)).array? = some a ∧ (s1.array a).tile = some t ∧
        ∀ k, k < cmdField c 0x1C 4 →
          isRes (r.s.array a) ((cmdField c 0x2D 1 + k) % racc (tr, tr && t.form == 2)) = !(cmdField c 0x2C 1).testBit 3) ∧
  (∀ (q : QNum) (c : Cmd) (s s1 : State) (r : Run), Starts s q c preloadOk preloadHandles s1 → Ends preloadBody s s1 q c r →
    exec (.preloadAcc q c) s = .next (started q r) ∧ r.w.status = 0 ∧ r.s.mem = s1.mem ∧ r.s.sems = s1.sems ∧ r.s.queues = s1.queues ∧
      ∃ a, (exeOf q (s.queue q)).array? = some a ∧ ∀ k, k < cmdField c 0x1A 2 →
        isRes (r.s.array a) ((cmdField c 0x18 1 + k) % racc ((cmdField c 0x19 1).testBit 5, (cmdField c 0x19 1).testBit 4)) = true) ∧
  (∀ (q : QNum) (c : Cmd) (s s1 : State) (r : Run), Starts s q c drainOk drainHandles s1 → Ends drainBody s s1 q c r →
    exec (.drain q c) s = .next (started q r) ∧ r.w.status = 0 ∧ r.s.sems = s1.sems ∧ r.s.queues = s1.queues ∧ StoresNoted s1 r ∧
      ∃ a m, (exeOf q (s.queue q)).array? = some a ∧ (s1.array a).set = some m ∧ ∀ k, k < cmdField c 0x1A 2 →
        isRes (s1.array a) ((cmdField c 0x18 1 + k) % racc m) = true ∧ isRes (r.s.array a) ((cmdField c 0x18 1 + k) % racc m) = false)

/-- The array commands complete: with no poison and operands of near memory in CV32 that R93 to R97 and R125 to R129 accept, and no fault found by the array's checks, LOAD_STAT of a dense tile, a product that starts its rows from zero, PRELOAD_ACC, and a raw DRAIN start with status OK. Completes: LOAD_STAT, MMUL, MMUL_T, PRELOAD_ACC, DRAIN. -/
def Obligations.ArrayCommandsComplete : Prop :=  ∀ (q : QNum) (c : Cmd) (s s1 : State) (cs : List (BitVec 32 × Desc × BitVec 8)) (j : Job) (e : Exe) (x : TDesc) (a : Nat), NearClear s1 q (s.queue q).next → cs = (s.queue q).hold.copies → j = s1.job (s.queue q).job.toNat →
    e = exeOf q (s.queue q) → e.array? = some a → x = operandOf cs j (cmdField c 8 4) →
    (Starts s q c loadStatOk loadStatHandles s1 → readable x = true → srcOk e x = true → x.layout = 1 → arrayFmt x.fmt = true → cmdField c 0x16 1 = 0 →
      cmdField c 0x0C 4 % 32 = 0 → cmdField c 0x10 4 % 4 = 0 → 1 ≤ cmdField c 0x14 1 → cmdField c 0x14 1 ≤ 64 → 1 ≤ cmdField c 0x15 1 →
      cmdField c 0x15 1 ≤ 64 → cmdField c 0x0C 4 + cmdField c 0x14 1 ≤ x.chan → cmdField c 0x10 4 + cmdField c 0x15 1 ≤ x.rows →
      Completes (.loadStat q c none) (loadStatBody none) s s1 q c) ∧
    (∀ (tr : Bool) (i : Instr) (t : Tile), (i = .mmul q c none ∧ tr = false ∨ i = .mmulT q c none ∧ tr = true) → Starts s q c productOk productHandles s1 →
      (s1.array a).tile = some t → t.kExt ≤ 128 → t.nExt ≤ 128 → readable x = true → bits (cmdField c 0x2C 1) 4 4 = 1 → (cmdField c 0x2C 1).testBit 3 = false →
      productRejected (headRun s1 q (s.queue q) c) tr (s1.array a) t x none none = false →
      cmdField c 0x18 4 + cmdField c 0x1C 4 ≤ x.rows → Completes i (productBody tr none) s s1 q c) ∧
    (∀ set : AccSet, Starts s q c preloadOk preloadHandles s1 → set = ((cmdField c 0x19 1).testBit 5, (cmdField c 0x19 1).testBit 4) →
      otherSet (s1.array a) set = false → (set.2 = true → set.1 = true) → 1 ≤ cmdField c 0x1A 2 → cmdField c 0x1A 2 ≤ racc set → cmdField c 0x18 1 < racc set →
      (bits (cmdField c 0x19 1) 6 2 ≠ 0 → readable x = true ∧ srcOk e x = true ∧ x.layout = 1 ∧ cmdField c 0x10 4 + setWidth set ≤ x.chan ∧
        (bits (cmdField c 0x19 1) 6 2 = 1 → x.fmt = 0) ∧ (bits (cmdField c 0x19 1) 6 2 ≠ 1 → cmdField c 0x0C 4 + cmdField c 0x1A 2 ≤ x.rows)) →
      Completes (.preloadAcc q c) preloadBody s s1 q c) ∧
    (∀ set : AccSet, Starts s q c drainOk drainHandles s1 → cmdField c 0x1C 1 = 1 → (s1.array a).set = some set → 1 ≤ cmdField c 0x1A 2 →
      cmdField c 0x1A 2 ≤ racc set → cmdField c 0x18 1 < racc set →
      (∀ k, k < cmdField c 0x1A 2 → isRes (s1.array a) ((cmdField c 0x18 1 + k) % racc set) = true) → outDescOk e x = true → x.tier = 0 → x.fmt = 0 →
      (x.oobFault = false ∨ setWidth set ≤ outCols x (cmdField c 0x14 4) (setWidth set) ∧ cmdField c 0x10 4 + cmdField c 0x1A 2 ≤ x.rows) → Completes (.drain q c) drainBody s s1 q c)

/-- The vector commands, whose bodies run to their ends: each starts with status OK; near memory changes only in the spans noted as its own stores; no array, no mask registry entry, no queue and no semaphore changes (R131 to R152). -/
def Obligations.VectorCommandsRun : Prop :=  ∀ (q : QNum) (c : Cmd) (i : Instr) (resv : Cmd → Bool) (handles : Cmd → List Nat) (body : M Unit) (s s1 : State) (r : Run),
    (i = .vecChain q c ∧ resv = chainOk ∧ handles = chainHandles ∧ body = vecChainBody ∨
      i = .vecReduce q c ∧ resv = vecReduceOk ∧ handles = vecHandles ∧ body = vecReduceBody ∨
      i = .softmax q c ∧ resv = softmaxOk ∧ handles = vecHandles ∧ body = softmaxBody ∨
      i = .norm q c ∧ resv = normOk ∧ handles = statHandles ∧ body = normBody ∨
      i = .dropout q c ∧ resv = dropoutOk ∧ handles = statHandles ∧ body = dropoutBody ∨
      i = .quantise q c ∧ resv = quantiseOk ∧ handles = quantiseHandles ∧ body = quantiseBody ∨
      i = .dequantise q c ∧ resv = dequantiseOk ∧ handles = vecHandles ∧ body = dequantiseBody) →
    Starts s q c resv handles s1 → Ends body s s1 q c r →
    exec i s = .next (started q r) ∧ r.w.status = 0 ∧ r.w.idx = (s.queue q).next ∧ r.w.done = true ∧
      StoresNoted s1 r ∧ r.s.arrays = s1.arrays ∧ r.s.masks = s1.masks ∧ r.s.sems = s1.sems ∧ r.s.queues = s1.queues ∧ r.s.time = s1.time

/-- The vector commands complete: with no poison, sources of near memory element by element and a destination in near memory, every further source named of the destination's shape or broadcast to it, and within what R143 to R150 ask of shapes and fields, each starts with status OK. Completes: VEC_CHAIN, VEC_REDUCE, SOFTMAX, NORM, DROPOUT, QUANTISE, DEQUANTISE. -/
def Obligations.VectorCommandsComplete : Prop :=  ∀ (q : QNum) (c : Cmd) (s s1 : State) (cs : List (BitVec 32 × Desc × BitVec 8)) (j : Job) (e : Exe) (x out : TDesc), NearClear s1 q (s.queue q).next → cs = (s.queue q).hold.copies → j = s1.job (s.queue q).job.toNat → e = exeOf q (s.queue q) →
    x = operandOf cs j (cmdField c 8 4) → out = operandOf cs j (cmdField c 0x14 4) → readable x = true → writable e out = true →
    (∀ h ∈ optH (cmdField c 0x0C 4) ++ optH (cmdField c 0x10 4), vecSrc e out.ext (operandOf cs j h) = true) →
    (∀ y z, y = operandOf cs j (cmdField c 0x0C 4) → z = operandOf cs j (cmdField c 0x10 4) → Starts s q c chainOk chainHandles s1 → vecSrc e out.ext x = true →
      1 ≤ cmdField c 0x38 1 % 16 → cmdField c 0x38 1 % 16 ≤ 8 → (chainUses c 1 = true → readable y = true ∧ vecSrc e out.ext y = true) →
      (chainUses c 2 = true → readable z = true ∧ vecSrc e out.ext z = true) → Completes (.vecChain q c) vecChainBody s s1 q c) ∧
    (Starts s q c vecReduceOk vecHandles s1 → srcOk e x = true → out.ext = 1 :: x.ext.drop 1 → x.chan ≤ 2 ^ 20 →
      Completes (.vecReduce q c) vecReduceBody s s1 q c) ∧
    (Starts s q c softmaxOk vecHandles s1 → vecSrc e out.ext x = true → out.chan ≤ 65536 →
      (∀ y ∈ optOperand cs j (cmdField c 0x0C 4), readable y = true ∧ vecSrc e out.ext y = true) → Completes (.softmax q c) softmaxBody s s1 q c) ∧
    (Starts s q c normOk statHandles s1 → vecSrc e out.ext x = true → out.chan ≤ 65536 → f32IsFinite (cmdField c 0x1C 4) = true → fltb (cmdField c 0x1C 4) 0 = false →
      (∀ y ∈ optOperand cs j (cmdField c 0x0C 4), readable y = true ∧ vecSrc e out.ext y = true) →
      (cmdField c 0x18 1 ≠ 1 → ∀ y ∈ optOperand cs j (cmdField c 0x10 4), readable y = true ∧ vecSrc e out.ext y = true) →
      (∀ y ∈ optOperand cs j (cmdField c 0x20 4), writable e y = true ∧ y.fmt = 0 ∧ y.ext = 2 :: out.ext.drop 1) → Completes (.norm q c) normBody s s1 q c) ∧
    (Starts s q c dropoutOk statHandles s1 → vecSrc e out.ext x = true →
      (∀ y ∈ optOperand cs j (cmdField c 0x20 4), y.tier = 0 ∧ dstOk e y = true ∧ y.fmt = 0x1B ∧ y.rows = out.rows ∧ y.chan = (out.chan + 7) / 8) →
      Completes (.dropout q c) dropoutBody s s1 q c) ∧
    (Starts s q c quantiseOk quantiseHandles s1 → vecSrc e out.ext x = true →
      (cmdField c 0x18 1 = 1 → sext 8 (cmdField c 0x19 1) ≠ -128 ∧ (isGm16 out.fmt = true → -124 ≤ sext 8 (cmdField c 0x19 1))) →
      (∀ y ∈ optOperand cs j (cmdField c 0x1C 4), writable e y = true ∧ scalarOk e y = true) → Completes (.quantise q c) quantiseBody s s1 q c) ∧
    (Starts s q c dequantiseOk vecHandles s1 → vecSrc e out.ext x = true → out.fmt ≤ 2 → Completes (.dequantise q c) dequantiseBody s s1 q c)

/-- The mask commands, whose bodies run to their ends: each starts with status OK; near memory changes only in the spans noted as its own stores; no array, no semaphore and no queue changes. A MASK_COMMIT that has started holds its weight COMMITTING until it completes, and no weight waits for it any longer; once the last reference is gone, MASK_REFS_RELEASED runs the commit that waits (R190 to R208). -/
def Obligations.MaskCommandsRun : Prop :=  (∀ (q : QNum) (c : Cmd) (i : Instr) (resv : Cmd → Bool) (handles : Cmd → List Nat) (body : M Unit) (s s1 : State) (r : Run),
    (i = .maskScore q c ∧ resv = maskOk true [3, 4, 5, 6] ∧ handles = scoreHandles ∧ body = maskScoreBody ∨
      i = .prune q c ∧ resv = selectOk ∧ handles = selectHandles ∧ body = pruneBody ∨
      i = .regrow q c ∧ resv = selectOk ∧ handles = selectHandles ∧ body = regrowBody ∨
      i = .predict q c ∧ resv = predictReserved ∧ handles = predictHandles ∧ body = predictBody ∨
      i = .maskGather q c ∧ resv = maskOk false [2, 3, 4, 5, 6] ∧ handles = scoreHandles ∧ body = maskGatherBody ∨
      i = .maskCommit q c ∧ resv = maskOk false [] ∧ handles = commitHandles ∧ body = maskCommitBody) →
    Starts s q c resv handles s1 → Ends body s s1 q c r →
    exec i s = .next (if i = .maskCommit q c then leaveWait q c (started q r) else started q r) ∧ r.w.status = 0 ∧ r.w.idx = (s.queue q).next ∧ r.w.done = true ∧
      StoresNoted s1 r ∧ r.s.arrays = s1.arrays ∧ r.s.sems = s1.sems ∧ r.s.queues = s1.queues ∧ r.s.time = s1.time) ∧
  (∀ (q : QNum) (c : Cmd) (s s1 : State) (r : Run), Starts s q c (maskOk false []) commitHandles s1 → Ends maskCommitBody s s1 q c r →
    ∃ e, tfind r.s.masks (operandOf (s.queue q).hold.copies (s1.job (s.queue q).job.toNat) (cmdField c 8 4)).tid = some e ∧ e.st = .committing ∧ e.commit = none) ∧
  (∀ (id : BitVec 32) (q : QNum) (c : Cmd) (e : MaskEntry) (s : State), tfind s.masks id.toNat = some e → e.commit = some (q, c) →
    e.st = .commitWait → e.refs = 0 → exec (.maskRefsReleased id) s = exec (.maskCommit q c) s)

/-- The mask commands complete: with no poison and an idle weight of near memory whose tiles read well, operands that R188 to R190 accept, and proposals without faults, each starts with status OK; so does PREDICT on operands of near memory that R256 accepts. Completes: MASK_SCORE, PRUNE, REGROW, MASK_GATHER, MASK_COMMIT, MASK_REFS_RELEASED, PREDICT. -/
def Obligations.MaskCommandsComplete : Prop :=  (∀ (q : QNum) (c : Cmd) (s s1 : State) (cs : List (BitVec 32 × Desc × BitVec 8)) (j : Job) (e : Exe) (w x y : TDesc) (m : MaskEntry) (a n : Nat), NearClear s1 q (s.queue q).next → cs = (s.queue q).hold.copies → j = s1.job (s.queue q).job.toNat →
    e = exeOf q (s.queue q) → w = operandOf cs j (cmdField c 8 4) → w.tier = 0 → srcOk e w = true → w.layout = 3 → tfind s1.masks w.tid = some m →
    x = operandOf cs j (maskArg c 0) → y = operandOf cs j (maskArg c 1) → a = cmdField c 0x0C 4 → n = cmdField c 0x10 4 →
    (m.st = .idle → n ≠ 0 → a + n ≤ w.wTiles → (∀ i, a ≤ i → i < a + n → ∃ t, Reads (readWTile w m.epoch.toNat i) (headRun s1 q (s.queue q) c) t) →
      (Starts s q c (maskOk true [3, 4, 5, 6]) scoreHandles s1 → readable x = true → srcOk e x = true → writable e y = true → flat y = true → scoreOk w y = true →
        (if (cmdField c 0x30 1).testBit 6 then denseOk w x = true ∧ f32IsFinite (maskArg c 2) = true ∧ f32IsZero (maskArg c 2) = false ∧ f32Neg (maskArg c 2) = false
         else companionOk w x = true ∧ (cmdField c 0x30 1).testBit 5 = false ∧ maskArg c 2 = 0) → Completes (.maskScore q c) maskScoreBody s s1 q c) ∧
      (∀ (i : Instr) (body : M Unit), (i = .prune q c ∧ body = pruneBody ∨ i = .regrow q c ∧ body = regrowBody) → Starts s q c selectOk selectHandles s1 →
        readable x = true → srcOk e x = true → scoreOk w x = true → flat y = true → dstOk e y = true → proposalOk w y = true →
        (∀ z ∈ optOperand cs j (maskArg c 2), z.tier = 0 ∧ dstOk e z = true ∧ reportOk z = true) → Completes i body s s1 q c) ∧
      (Starts s q c (maskOk false [2, 3, 4, 5, 6]) scoreHandles s1 → readable x = true → srcOk e x = true → denseOk w x = true → writable e y = true →
        companionOk w y = true → y.fmt ≠ 5 → Completes (.maskGather q c) maskGatherBody s s1 q c)) ∧
    (∀ i : Instr, (i = .maskCommit q c ∧ m.st = .idle ∨ (i = .maskCommit q c ∨ i = .maskRefsReleased (BitVec.ofNat 32 w.tid)) ∧ tfind s.masks w.tid = some m ∧
        m.st = .commitWait ∧ m.commit = some (q, c)) → m.refs = 0 → Starts s q c (maskOk false []) commitHandles s1 → cmdField c 0x0C 8 = 0 → w.access = 1 →
      maskArg c 0 ≠ 0 → maskArg c 1 ≠ 0 → flat x = true → dstOk e x = true → proposalOk w x = true →
      (∀ k ∈ [1, 2, 3, 4], ∀ z ∈ optOperand cs j (maskArg c k), z.tier = 0 ∧ dstOk e z = true ∧ companionOk w z = true) →
      (∀ z ∈ optOperand cs j (maskArg c 5), z.tier = 0 ∧ dstOk e z = true ∧ scoreDstOk w z = true) →
      (∀ z ∈ optOperand cs j (maskArg c 6), z.tier = 0 ∧ dstOk e z = true ∧ reportOk z = true) →
      (∀ k, k < w.wTiles → ∃ t ps, Reads (readWTile w m.epoch.toNat k) (headRun s1 q (s.queue q) c) t ∧ Reads (proposalsM w x t.num) (headRun s1 q (s.queue q) c) ps ∧
        ((unitsOf w t).zip ps).all (fun u => !entryBad w.twKind u.2 u.1.pat) = true) →
      ∃ r, Ends maskCommitBody s s1 q c r ∧ exec i s = .next (leaveWait q c (started q r)) ∧ r.w.status = 0)) ∧
  (∀ (q : QNum) (c : Cmd) (s s1 : State) (cs : List (BitVec 32 × Desc × BitVec 8)) (j : Job) (e : Exe) (o : PredOps), NearClear s1 q (s.queue q).next → cs = (s.queue q).hold.copies → j = s1.job (s.queue q).job.toNat → e = exeOf q (s.queue q) →
    Starts s q c predictReserved predictHandles s1 →
    o = ⟨operandOf cs j (cmdField c 8 4), operandOf cs j (cmdField c 0x0C 4), operandOf cs j (cmdField c 0x10 4), optOperand cs j (cmdField c 0x14 4),
      optOperand cs j (cmdField c 0x18 4), optOperand cs j (cmdField c 0x1C 4), operandOf cs j (cmdField c 0x20 4), optOperand cs j (cmdField c 0x24 4),
      optOperand cs j (cmdField c 0x28 4)⟩ →
    predictOk j c e o = true → (∀ t ∈ [o.x, o.p, o.q] ++ o.w1.toList ++ o.sbias.toList ++ o.b1.toList, readable t = true) →
    cmdField c 0x34 4 + cmdField c 0x38 4 ≤ o.x.rows →
    Completes (.predict q c) predictBody s s1 q c)

/-- The DMA and gather commands, whose bodies run to their ends: each starts with status OK; near memory changes only in the spans that the command has noted as its own stores; COMPARE changes no byte of memory; no array, queue or semaphore changes (R337 to R347, R285 to R291). -/
def Obligations.MoveCommandsRun : Prop :=  ∀ (q : QNum) (c : Cmd) (i : Instr) (resv : Cmd → Bool) (handles : Cmd → List Nat) (body : M Unit) (s s1 : State) (r : Run),
    (i = .copy q c ∧ resv = dmaReserved ∧ handles = dmaHandles ∧ body = dmaBody false ∨
      i = .fill q c ∧ resv = dmaReserved ∧ handles = dmaHandles ∧ body = dmaBody false ∨
      i = .compare q c ∧ resv = dmaReserved ∧ handles = dmaHandles ∧ body = dmaBody false ∨
      i = .transposeCopy q c ∧ resv = dmaReserved ∧ handles = dmaHandles ∧ body = dmaBody false ∨
      i = .gather q c ∧ resv = gatherReserved ∧ handles = gatherHandles ∧ body = gatherBody false false ∨
      i = .scatter q c ∧ resv = gatherReserved ∧ handles = gatherHandles ∧ body = gatherBody true false) →
    Starts s q c resv handles s1 → Ends body s s1 q c r →
    exec i s = .next (started q r) ∧ r.w.status = 0 ∧ r.w.idx = (s.queue q).next ∧ r.w.done = true ∧
      StoresNoted s1 r ∧
      (opByte c = 0x52 → r.s.mem = s1.mem) ∧
      r.s.arrays = s1.arrays ∧ r.s.sems = s1.sems ∧ r.s.queues = s1.queues ∧ r.s.time = s1.time

/-- The moves complete: with no poison, operands of near memory stored element by element in formats of integers or of numbers, checks that R342, R345 and R289 accept, a selection inside the tensors, a semaphore that is live or absent, no prefetch, and for COMPARE a free check buffer, COPY, FILL, COMPARE and TRANSPOSE_COPY start with status OK; so do GATHER and SCATTER, indices out of range being clamped or skipped. Completes: COPY, FILL, COMPARE, TRANSPOSE_COPY, GATHER, SCATTER. -/
def Obligations.MoveCommandsComplete : Prop :=  (∀ (q : QNum) (c : Cmd) (s s1 : State) (cs : List (BitVec 32 × Desc × BitVec 8)) (j : Job) (e : Exe) (o : DmaOps) (i : Instr), NearClear s1 q (s.queue q).next → cs = (s.queue q).hold.copies → j = s1.job (s.queue q).job.toNat → e = exeOf q (s.queue q) →
    (i, opByte c) ∈ [(.copy q c, 0x50#8), (.fill q c, 0x51#8), (.compare q c, 0x52#8), (.transposeCopy q c, 0x53#8)] → Starts s q c dmaReserved dmaHandles s1 →
    o = ⟨optOperand cs j (cmdField c 8 4), optOperand cs j (cmdField c 0x0C 4), optOperand cs j (cmdField c 0x20 4)⟩ → dmaOk c e o = true →
    (cmdField c 0x2C 4 = 0 ∨ selInside o.src (cmdField c 0x24 4) (cmdField c 0x2C 4) = true ∧ selInside o.dst (cmdField c 0x28 4) (cmdField c 0x2C 4) = true) →
    (∀ t ∈ o.src.toList ++ o.dst.toList, flat t = true ∧ (isIntFmt t.fmt = true ∨ (fmtOf t.fmt).isSome = true)) →
    (cmdField c 0x18 4 = 0xFFFFFFFF ∨ semCheck s1 (s.queue q).func.toNat (cmdField c 0x18 4) = stOk) → (cmdField c 0x30 1).testBit 7 = false →
    (∀ core, e.core? = some core → opByte c = 0x52 → bufferHeld s1 core = false) → Completes i (dmaBody false) s s1 q c) ∧
  (∀ (q : QNum) (c : Cmd) (s s1 : State) (cs : List (BitVec 32 × Desc × BitVec 8)) (j : Job) (e : Exe) (o : GOps) (sc : Bool) (i : Instr), NearClear s1 q (s.queue q).next → cs = (s.queue q).hold.copies → j = s1.job (s.queue q).job.toNat →
    e = exeOf q (s.queue q) → (i = .gather q c ∧ sc = false ∨ i = .scatter q c ∧ sc = true) → Starts s q c gatherReserved gatherHandles s1 →
    o.src = operandOf cs j (cmdField c 8 4) → o.dst = operandOf cs j (cmdField c 0x0C 4) → (o.side sc).idxEn = true → namable cs j (o.side sc).indexH = true →
    o.idx = operandOf cs j (o.side sc).indexH → gatherOk c e sc o = true → pairOk o.src o.dst = true → cmdField c 0x10 4 + cmdField c 0x14 4 ≤ o.idx.count →
    (∀ n ∈ (o.side sc).ext, 0 < n) → (∀ t ∈ [o.src, o.dst, o.idx], flat t = true) →
    (∀ t ∈ [o.src, o.dst], isIntFmt t.fmt = true ∨ (fmtOf t.fmt).isSome = true) → (sc = true → o.dst.oobFault = false) →
    (cmdField c 0x18 4 = 0xFFFFFFFF ∨ semCheck s1 (s.queue q).func.toNat (cmdField c 0x18 4) = stOk) → (cmdField c 0x20 1).testBit 6 = false →
    Completes i (gatherBody sc false) s s1 q c)

/-- The reduction and numerics commands, whose bodies run to their ends: RED_BUCKET starts, done at once in a step that does not send, else launched in its context; RED_FLUSH, RESHARD, OPT_UPDATE and LOSS_SCALE_CHECK start with status OK, near memory changing only in the spans noted as their own stores, a RESHARD pending on its job until it is installed, and the OPEN of a step adding one to the job's step number (R217, R238, R445, R447, R450, R453). Completes: RESHARD, LOSS_SCALE_CHECK. -/
def Obligations.ReductionCommandsRun : Prop :=  (∀ (q : QNum) (c : Cmd) (s s1 : State) (r : Run), Starts s q c bucketReserved bucketHandles s1 → Ends bucketBody s s1 q c r →
    (∀ w ∈ (s1.queue q).started, w.idx ≠ (s.queue q).next) →
    exec (.redBucket q c) s = .next (if r.w.done then started q r else launchBucket (started q r) q (s.queue q).next c)) ∧
  (∀ (q : QNum) (c : Cmd) (s s1 : State) (r : Run), Starts s q c flushOk (fun _ => []) s1 → Ends flushBody s s1 q c r →
    exec (.redFlush q c) s = .next (started q r) ∧ r.w.status = 0) ∧
  (∀ (q : QNum) (c : Cmd) (s s1 : State) (j : Job), Starts s q c reshardOk (fun _ => []) s1 → s1.job? (s.queue q).job.toNat = some j →
    j.reshard = none → cmdField c 8 1 = (j.epoch + 1).toNat →
    ∃ t w, exec (.reshard q c) s = .next t ∧ t.job? (s.queue q).job.toNat = some { j with reshard := some (q, (s.queue q).next, c) } ∧
      (t.queue q).started = (s1.queue q).started ++ [w] ∧ w.done = false ∧ w.idx = (s.queue q).next ∧ t.mem = s1.mem ∧ t.sems = s1.sems) ∧
  (∀ (q : QNum) (c : Cmd) (s s1 : State) (r : Run), Starts s q c optReserved optHandles s1 → Ends optBody s s1 q c r →
    exec (.optUpdate q c) s = .next (started q r) ∧ r.w.status = 0 ∧ StoresNoted s1 r ∧ r.s.arrays = s1.arrays ∧ r.s.sems = s1.sems ∧ r.s.queues = s1.queues) ∧
  (∀ (q : QNum) (c : Cmd) (s s1 : State) (j : Job), Starts s q c lossReserved lossHandles s1 → (cmdField c 8 1).testBit 0 = true →
    s1.job? (s.queue q).job.toNat = some j → j.closed = true →
    ∃ t, exec (.lossScaleCheck q c) s = .next t ∧ t.job? (s.queue q).job.toNat = some { j with step := j.step + 1, closed := false } ∧
      t.mem = s1.mem ∧ t.sems = s1.sems ∧ (t.queue q).next = (s1.queue q).next + 1) ∧
  (∀ (q : QNum) (c : Cmd) (s s1 : State) (r : Run), Starts s q c lossReserved lossHandles s1 → (cmdField c 8 1).testBit 0 = false →
    Ends closeBody s s1 q c r → exec (.lossScaleCheck q c) s = .next (started q r) ∧ StoresNoted s1 r ∧ r.s.sems = s1.sems ∧ r.s.queues = s1.queues)

/-- The reduction and training commands complete: a RED_BUCKET that R446 accepts, in a free context, adds to its accumulator or is launched; RED_FLUSH reaches a context of its job; an OPT_UPDATE that R240 accepts, on a readable working copy, and a CLOSE of an open step start with status OK. Completes: RED_BUCKET, RED_FLUSH, OPT_UPDATE, LOSS_SCALE_CHECK. -/
def Obligations.ReductionCommandsComplete : Prop :=  (∀ (q : QNum) (c : Cmd) (s s1 : State) (cs : List (BitVec 32 × Desc × BitVec 8)) (j : Job) (e : Exe) (o : BucketOps), NearClear s1 q (s.queue q).next → cs = (s.queue q).hold.copies → j = s1.job (s.queue q).job.toNat → e = exeOf q (s.queue q) →
    Starts s q c bucketReserved bucketHandles s1 →
    o = ⟨operandOf cs j (cmdField c 8 4), operandOf cs j (cmdField c 0x0C 4), optOperand cs j (cmdField c 0x10 4), optOperand cs j (cmdField c 0x14 4)⟩ →
    bucketOk c e j o = true → (∀ k ∈ [cmdField c 0x18 4, cmdField c 0x20 4], k = 0xFFFFFFFF ∨ semCheck s1 (s.queue q).func.toNat k = stOk) →
    (s1.ctx q).cur = none → (s1.ctx q).round = none → j.reshard = none → (∀ v ∈ j.verdict, v.chain ≠ q) →
    (∀ w ∈ (s1.queue q).started, w.idx ≠ (s.queue q).next) → (sends c j.step = true ∨ readable o.src = true ∧ ∀ t ∈ o.acc, readable t = true) →
    ∃ r, Ends bucketBody s s1 q c r ∧ r.w.status = 0 ∧
      exec (.redBucket q c) s = .next (if sends c j.step then launchBucket (started q r) q (s.queue q).next c else started q r)) ∧
  (∀ (q : QNum) (c : Cmd) (s s1 : State) (x : Queue) (d n k : Nat), Starts s q c flushOk (fun _ => []) s1 → exeOf q (s.queue q) = .re d n k →
    x = s1.queue (ctxQueue d n (cmdField c 8 1 % 64)) → x.st ≠ .free → x.job.toNat = (s.queue q).job.toNat → Completes (.redFlush q c) flushBody s s1 q c) ∧
  (∀ (q : QNum) (c : Cmd) (s s1 : State) (cs : List (BitVec 32 × Desc × BitVec 8)) (j : Job) (o : OptOps) (h : Hyper), NearClear s1 q (s.queue q).next → cs = (s.queue q).hold.copies → j = s1.job (s.queue q).job.toNat →
    Starts s q c optReserved optHandles s1 →
    o = ⟨operandOf cs j (cmdField c 8 4), operandOf cs j (cmdField c 0x0C 4), optOperand cs j (cmdField c 0x10 4), operandOf cs j (cmdField c 0x14 4),
      optOperand cs j (cmdField c 0x18 4), operandOf cs j (cmdField c 0x1C 4)⟩ → optOps s1 c (exeOf q (s.queue q)) j o = true →
    Reads (hyperM o.hyper) (headRun s1 q (s.queue q) c) (h, true) → h.ok (bits (cmdField c 0x24 1) 6 2) = true → (∀ t ∈ o.work, (fmtOf t.fmt).isSome = true) →
    (∀ t ∈ o.work, t.layout = 3 → (∃ x, Reads (readWork j t) (headRun s1 q (s.queue q) c) x) ∧ ∀ m ∈ tfind s1.masks t.tid, m.st = .idle ∧
      ((cmdField c 0x24 1).testBit 5 = true → m.epoch.toNat = cmdField c 0x22 2)) → Completes (.optUpdate q c) optBody s s1 q c) ∧
  (∀ (q : QNum) (c : Cmd) (s s1 : State) (cs : List (BitVec 32 × Desc × BitVec 8)) (j : Job) (e : Exe) (axes : Nat), NearClear s1 q (s.queue q).next → cs = (s.queue q).hold.copies → j = s1.job (s.queue q).job.toNat → e = exeOf q (s.queue q) →
    Starts s q c lossReserved lossHandles s1 → (cmdField c 8 1).testBit 0 = false → axes = cmdField c 9 1 % 16 → j.verdict = none → j.closed = false →
    (∀ a ∈ axesOf axes, 2 ≤ j.p.getD a 1) → (axes = 0 ∨ chainQueueOk s1 (cmdField c 0x0C 4) (s.queue q).job.toNat = true) →
    (∀ t ∈ optOperand cs j (cmdField c 0x10 4), nearDst e t = true ∧ t.fmt = 0 ∧ t.count = 2) →
    (∀ t ∈ optOperand cs j (cmdField c 0x14 4), nearDst e t = true ∧ reportOk t = true) → Completes (.lossScaleCheck q c) closeBody s s1 q c)
end

