-- ==== Sys2Proof/Laws/State.lean ====
section
/-! SUPPORT. What each setter of the state leaves alone: one equation for each setter and each field that it does not write. -/

namespace Sys2Proof.Machine

/-! ### setQueue -/

@[simp] theorem State.setQueue_pending (s : State) (q : QNum) (x : Queue) : (s.setQueue q x).pending = s.pending := rfl
@[simp] theorem State.setQueue_time (s : State) (q : QNum) (x : Queue) : (s.setQueue q x).time = s.time := rfl
@[simp] theorem State.setQueue_paths (s : State) (q : QNum) (x : Queue) : (s.setQueue q x).paths = s.paths := rfl
@[simp] theorem State.setQueue_ports (s : State) (q : QNum) (x : Queue) : (s.setQueue q x).ports = s.ports := rfl
@[simp] theorem State.setQueue_hosts (s : State) (q : QNum) (x : Queue) : (s.setQueue q x).hosts = s.hosts := rfl
@[simp] theorem State.setQueue_funcs (s : State) (q : QNum) (x : Queue) : (s.setQueue q x).funcs = s.funcs := rfl
@[simp] theorem State.setQueue_homePort (s : State) (q : QNum) (x : Queue) : (s.setQueue q x).homePort = s.homePort := rfl
@[simp] theorem State.setQueue_assign (s : State) (q : QNum) (x : Queue) : (s.setQueue q x).assign = s.assign := rfl
@[simp] theorem State.setQueue_sems (s : State) (q : QNum) (x : Queue) : (s.setQueue q x).sems = s.sems := rfl
@[simp] theorem State.setQueue_jobs (s : State) (q : QNum) (x : Queue) : (s.setQueue q x).jobs = s.jobs := rfl
@[simp] theorem State.setQueue_redJobs (s : State) (q : QNum) (x : Queue) : (s.setQueue q x).redJobs = s.redJobs := rfl
@[simp] theorem State.setQueue_ctxs (s : State) (q : QNum) (x : Queue) : (s.setQueue q x).ctxs = s.ctxs := rfl
@[simp] theorem State.setQueue_aborts (s : State) (q : QNum) (x : Queue) : (s.setQueue q x).aborts = s.aborts := rfl
@[simp] theorem State.setQueue_abortStatus (s : State) (q : QNum) (x : Queue) : (s.setQueue q x).abortStatus = s.abortStatus := rfl
@[simp] theorem State.setQueue_abtSeen (s : State) (q : QNum) (x : Queue) : (s.setQueue q x).abtSeen = s.abtSeen := rfl
@[simp] theorem State.setQueue_arrays (s : State) (q : QNum) (x : Queue) : (s.setQueue q x).arrays = s.arrays := rfl
@[simp] theorem State.setQueue_repairStatus (s : State) (q : QNum) (x : Queue) : (s.setQueue q x).repairStatus = s.repairStatus := rfl
@[simp] theorem State.setQueue_samples (s : State) (q : QNum) (x : Queue) : (s.setQueue q x).samples = s.samples := rfl
@[simp] theorem State.setQueue_load (s : State) (q : QNum) (x : Queue) : (s.setQueue q x).load = s.load := rfl
@[simp] theorem State.setQueue_turns (s : State) (q : QNum) (x : Queue) : (s.setQueue q x).turns = s.turns := rfl
@[simp] theorem State.setQueue_masks (s : State) (q : QNum) (x : Queue) : (s.setQueue q x).masks = s.masks := rfl
@[simp] theorem State.setQueue_commits (s : State) (q : QNum) (x : Queue) : (s.setQueue q x).commits = s.commits := rfl
@[simp] theorem State.setQueue_mem (s : State) (q : QNum) (x : Queue) : (s.setQueue q x).mem = s.mem := rfl
@[simp] theorem State.setQueue_poison (s : State) (q : QNum) (x : Queue) : (s.setQueue q x).poison = s.poison := rfl
@[simp] theorem State.setQueue_hostMem (s : State) (q : QNum) (x : Queue) : (s.setQueue q x).hostMem = s.hostMem := rfl
@[simp] theorem State.setQueue_msys (s : State) (q : QNum) (x : Queue) : (s.setQueue q x).msys = s.msys := rfl
@[simp] theorem State.setQueue_dict (s : State) (q : QNum) (x : Queue) : (s.setQueue q x).dict = s.dict := rfl
@[simp] theorem State.setQueue_trust (s : State) (q : QNum) (x : Queue) : (s.setQueue q x).trust = s.trust := rfl
@[simp] theorem State.setQueue_power (s : State) (q : QNum) (x : Queue) : (s.setQueue q x).power = s.power := rfl
@[simp] theorem State.setQueue_free (s : State) (q : QNum) (x : Queue) : (s.setQueue q x).free = s.free := rfl

/-! ### setSem -/

@[simp] theorem State.setSem_pending (s : State) (n : Nat) (x : Sem) : (s.setSem n x).pending = s.pending := rfl
@[simp] theorem State.setSem_time (s : State) (n : Nat) (x : Sem) : (s.setSem n x).time = s.time := rfl
@[simp] theorem State.setSem_paths (s : State) (n : Nat) (x : Sem) : (s.setSem n x).paths = s.paths := rfl
@[simp] theorem State.setSem_ports (s : State) (n : Nat) (x : Sem) : (s.setSem n x).ports = s.ports := rfl
@[simp] theorem State.setSem_hosts (s : State) (n : Nat) (x : Sem) : (s.setSem n x).hosts = s.hosts := rfl
@[simp] theorem State.setSem_funcs (s : State) (n : Nat) (x : Sem) : (s.setSem n x).funcs = s.funcs := rfl
@[simp] theorem State.setSem_homePort (s : State) (n : Nat) (x : Sem) : (s.setSem n x).homePort = s.homePort := rfl
@[simp] theorem State.setSem_assign (s : State) (n : Nat) (x : Sem) : (s.setSem n x).assign = s.assign := rfl
@[simp] theorem State.setSem_queues (s : State) (n : Nat) (x : Sem) : (s.setSem n x).queues = s.queues := rfl
@[simp] theorem State.setSem_jobs (s : State) (n : Nat) (x : Sem) : (s.setSem n x).jobs = s.jobs := rfl
@[simp] theorem State.setSem_redJobs (s : State) (n : Nat) (x : Sem) : (s.setSem n x).redJobs = s.redJobs := rfl
@[simp] theorem State.setSem_ctxs (s : State) (n : Nat) (x : Sem) : (s.setSem n x).ctxs = s.ctxs := rfl
@[simp] theorem State.setSem_aborts (s : State) (n : Nat) (x : Sem) : (s.setSem n x).aborts = s.aborts := rfl
@[simp] theorem State.setSem_abortStatus (s : State) (n : Nat) (x : Sem) : (s.setSem n x).abortStatus = s.abortStatus := rfl
@[simp] theorem State.setSem_abtSeen (s : State) (n : Nat) (x : Sem) : (s.setSem n x).abtSeen = s.abtSeen := rfl
@[simp] theorem State.setSem_arrays (s : State) (n : Nat) (x : Sem) : (s.setSem n x).arrays = s.arrays := rfl
@[simp] theorem State.setSem_repairStatus (s : State) (n : Nat) (x : Sem) : (s.setSem n x).repairStatus = s.repairStatus := rfl
@[simp] theorem State.setSem_samples (s : State) (n : Nat) (x : Sem) : (s.setSem n x).samples = s.samples := rfl
@[simp] theorem State.setSem_load (s : State) (n : Nat) (x : Sem) : (s.setSem n x).load = s.load := rfl
@[simp] theorem State.setSem_turns (s : State) (n : Nat) (x : Sem) : (s.setSem n x).turns = s.turns := rfl
@[simp] theorem State.setSem_masks (s : State) (n : Nat) (x : Sem) : (s.setSem n x).masks = s.masks := rfl
@[simp] theorem State.setSem_commits (s : State) (n : Nat) (x : Sem) : (s.setSem n x).commits = s.commits := rfl
@[simp] theorem State.setSem_mem (s : State) (n : Nat) (x : Sem) : (s.setSem n x).mem = s.mem := rfl
@[simp] theorem State.setSem_poison (s : State) (n : Nat) (x : Sem) : (s.setSem n x).poison = s.poison := rfl
@[simp] theorem State.setSem_hostMem (s : State) (n : Nat) (x : Sem) : (s.setSem n x).hostMem = s.hostMem := rfl
@[simp] theorem State.setSem_msys (s : State) (n : Nat) (x : Sem) : (s.setSem n x).msys = s.msys := rfl
@[simp] theorem State.setSem_dict (s : State) (n : Nat) (x : Sem) : (s.setSem n x).dict = s.dict := rfl
@[simp] theorem State.setSem_trust (s : State) (n : Nat) (x : Sem) : (s.setSem n x).trust = s.trust := rfl
@[simp] theorem State.setSem_power (s : State) (n : Nat) (x : Sem) : (s.setSem n x).power = s.power := rfl
@[simp] theorem State.setSem_free (s : State) (n : Nat) (x : Sem) : (s.setSem n x).free = s.free := rfl

/-! ### setPort -/

@[simp] theorem State.setPort_pending (s : State) (p : Port) (x : PortState) : (s.setPort p x).pending = s.pending := rfl
@[simp] theorem State.setPort_time (s : State) (p : Port) (x : PortState) : (s.setPort p x).time = s.time := rfl
@[simp] theorem State.setPort_paths (s : State) (p : Port) (x : PortState) : (s.setPort p x).paths = s.paths := rfl
@[simp] theorem State.setPort_hosts (s : State) (p : Port) (x : PortState) : (s.setPort p x).hosts = s.hosts := rfl
@[simp] theorem State.setPort_funcs (s : State) (p : Port) (x : PortState) : (s.setPort p x).funcs = s.funcs := rfl
@[simp] theorem State.setPort_homePort (s : State) (p : Port) (x : PortState) : (s.setPort p x).homePort = s.homePort := rfl
@[simp] theorem State.setPort_assign (s : State) (p : Port) (x : PortState) : (s.setPort p x).assign = s.assign := rfl
@[simp] theorem State.setPort_queues (s : State) (p : Port) (x : PortState) : (s.setPort p x).queues = s.queues := rfl
@[simp] theorem State.setPort_sems (s : State) (p : Port) (x : PortState) : (s.setPort p x).sems = s.sems := rfl
@[simp] theorem State.setPort_jobs (s : State) (p : Port) (x : PortState) : (s.setPort p x).jobs = s.jobs := rfl
@[simp] theorem State.setPort_redJobs (s : State) (p : Port) (x : PortState) : (s.setPort p x).redJobs = s.redJobs := rfl
@[simp] theorem State.setPort_ctxs (s : State) (p : Port) (x : PortState) : (s.setPort p x).ctxs = s.ctxs := rfl
@[simp] theorem State.setPort_aborts (s : State) (p : Port) (x : PortState) : (s.setPort p x).aborts = s.aborts := rfl
@[simp] theorem State.setPort_abortStatus (s : State) (p : Port) (x : PortState) : (s.setPort p x).abortStatus = s.abortStatus := rfl
@[simp] theorem State.setPort_abtSeen (s : State) (p : Port) (x : PortState) : (s.setPort p x).abtSeen = s.abtSeen := rfl
@[simp] theorem State.setPort_arrays (s : State) (p : Port) (x : PortState) : (s.setPort p x).arrays = s.arrays := rfl
@[simp] theorem State.setPort_repairStatus (s : State) (p : Port) (x : PortState) : (s.setPort p x).repairStatus = s.repairStatus := rfl
@[simp] theorem State.setPort_samples (s : State) (p : Port) (x : PortState) : (s.setPort p x).samples = s.samples := rfl
@[simp] theorem State.setPort_load (s : State) (p : Port) (x : PortState) : (s.setPort p x).load = s.load := rfl
@[simp] theorem State.setPort_turns (s : State) (p : Port) (x : PortState) : (s.setPort p x).turns = s.turns := rfl
@[simp] theorem State.setPort_masks (s : State) (p : Port) (x : PortState) : (s.setPort p x).masks = s.masks := rfl
@[simp] theorem State.setPort_commits (s : State) (p : Port) (x : PortState) : (s.setPort p x).commits = s.commits := rfl
@[simp] theorem State.setPort_mem (s : State) (p : Port) (x : PortState) : (s.setPort p x).mem = s.mem := rfl
@[simp] theorem State.setPort_poison (s : State) (p : Port) (x : PortState) : (s.setPort p x).poison = s.poison := rfl
@[simp] theorem State.setPort_hostMem (s : State) (p : Port) (x : PortState) : (s.setPort p x).hostMem = s.hostMem := rfl
@[simp] theorem State.setPort_msys (s : State) (p : Port) (x : PortState) : (s.setPort p x).msys = s.msys := rfl
@[simp] theorem State.setPort_dict (s : State) (p : Port) (x : PortState) : (s.setPort p x).dict = s.dict := rfl
@[simp] theorem State.setPort_trust (s : State) (p : Port) (x : PortState) : (s.setPort p x).trust = s.trust := rfl
@[simp] theorem State.setPort_power (s : State) (p : Port) (x : PortState) : (s.setPort p x).power = s.power := rfl
@[simp] theorem State.setPort_free (s : State) (p : Port) (x : PortState) : (s.setPort p x).free = s.free := rfl

/-! ### setHport -/

@[simp] theorem State.setHport_pending (s : State) (h : HPort) (x : HostPort) : (s.setHport h x).pending = s.pending := rfl
@[simp] theorem State.setHport_time (s : State) (h : HPort) (x : HostPort) : (s.setHport h x).time = s.time := rfl
@[simp] theorem State.setHport_paths (s : State) (h : HPort) (x : HostPort) : (s.setHport h x).paths = s.paths := rfl
@[simp] theorem State.setHport_ports (s : State) (h : HPort) (x : HostPort) : (s.setHport h x).ports = s.ports := rfl
@[simp] theorem State.setHport_funcs (s : State) (h : HPort) (x : HostPort) : (s.setHport h x).funcs = s.funcs := rfl
@[simp] theorem State.setHport_homePort (s : State) (h : HPort) (x : HostPort) : (s.setHport h x).homePort = s.homePort := rfl
@[simp] theorem State.setHport_assign (s : State) (h : HPort) (x : HostPort) : (s.setHport h x).assign = s.assign := rfl
@[simp] theorem State.setHport_queues (s : State) (h : HPort) (x : HostPort) : (s.setHport h x).queues = s.queues := rfl
@[simp] theorem State.setHport_sems (s : State) (h : HPort) (x : HostPort) : (s.setHport h x).sems = s.sems := rfl
@[simp] theorem State.setHport_jobs (s : State) (h : HPort) (x : HostPort) : (s.setHport h x).jobs = s.jobs := rfl
@[simp] theorem State.setHport_redJobs (s : State) (h : HPort) (x : HostPort) : (s.setHport h x).redJobs = s.redJobs := rfl
@[simp] theorem State.setHport_ctxs (s : State) (h : HPort) (x : HostPort) : (s.setHport h x).ctxs = s.ctxs := rfl
@[simp] theorem State.setHport_aborts (s : State) (h : HPort) (x : HostPort) : (s.setHport h x).aborts = s.aborts := rfl
@[simp] theorem State.setHport_abortStatus (s : State) (h : HPort) (x : HostPort) : (s.setHport h x).abortStatus = s.abortStatus := rfl
@[simp] theorem State.setHport_abtSeen (s : State) (h : HPort) (x : HostPort) : (s.setHport h x).abtSeen = s.abtSeen := rfl
@[simp] theorem State.setHport_arrays (s : State) (h : HPort) (x : HostPort) : (s.setHport h x).arrays = s.arrays := rfl
@[simp] theorem State.setHport_repairStatus (s : State) (h : HPort) (x : HostPort) : (s.setHport h x).repairStatus = s.repairStatus := rfl
@[simp] theorem State.setHport_samples (s : State) (h : HPort) (x : HostPort) : (s.setHport h x).samples = s.samples := rfl
@[simp] theorem State.setHport_load (s : State) (h : HPort) (x : HostPort) : (s.setHport h x).load = s.load := rfl
@[simp] theorem State.setHport_turns (s : State) (h : HPort) (x : HostPort) : (s.setHport h x).turns = s.turns := rfl
@[simp] theorem State.setHport_masks (s : State) (h : HPort) (x : HostPort) : (s.setHport h x).masks = s.masks := rfl
@[simp] theorem State.setHport_commits (s : State) (h : HPort) (x : HostPort) : (s.setHport h x).commits = s.commits := rfl
@[simp] theorem State.setHport_mem (s : State) (h : HPort) (x : HostPort) : (s.setHport h x).mem = s.mem := rfl
@[simp] theorem State.setHport_poison (s : State) (h : HPort) (x : HostPort) : (s.setHport h x).poison = s.poison := rfl
@[simp] theorem State.setHport_hostMem (s : State) (h : HPort) (x : HostPort) : (s.setHport h x).hostMem = s.hostMem := rfl
@[simp] theorem State.setHport_msys (s : State) (h : HPort) (x : HostPort) : (s.setHport h x).msys = s.msys := rfl
@[simp] theorem State.setHport_dict (s : State) (h : HPort) (x : HostPort) : (s.setHport h x).dict = s.dict := rfl
@[simp] theorem State.setHport_trust (s : State) (h : HPort) (x : HostPort) : (s.setHport h x).trust = s.trust := rfl
@[simp] theorem State.setHport_power (s : State) (h : HPort) (x : HostPort) : (s.setHport h x).power = s.power := rfl
@[simp] theorem State.setHport_free (s : State) (h : HPort) (x : HostPort) : (s.setHport h x).free = s.free := rfl

/-! ### setFunc -/

@[simp] theorem State.setFunc_pending (s : State) (f : Nat) (x : FuncState) : (s.setFunc f x).pending = s.pending := rfl
@[simp] theorem State.setFunc_time (s : State) (f : Nat) (x : FuncState) : (s.setFunc f x).time = s.time := rfl
@[simp] theorem State.setFunc_paths (s : State) (f : Nat) (x : FuncState) : (s.setFunc f x).paths = s.paths := rfl
@[simp] theorem State.setFunc_ports (s : State) (f : Nat) (x : FuncState) : (s.setFunc f x).ports = s.ports := rfl
@[simp] theorem State.setFunc_hosts (s : State) (f : Nat) (x : FuncState) : (s.setFunc f x).hosts = s.hosts := rfl
@[simp] theorem State.setFunc_homePort (s : State) (f : Nat) (x : FuncState) : (s.setFunc f x).homePort = s.homePort := rfl
@[simp] theorem State.setFunc_assign (s : State) (f : Nat) (x : FuncState) : (s.setFunc f x).assign = s.assign := rfl
@[simp] theorem State.setFunc_queues (s : State) (f : Nat) (x : FuncState) : (s.setFunc f x).queues = s.queues := rfl
@[simp] theorem State.setFunc_sems (s : State) (f : Nat) (x : FuncState) : (s.setFunc f x).sems = s.sems := rfl
@[simp] theorem State.setFunc_jobs (s : State) (f : Nat) (x : FuncState) : (s.setFunc f x).jobs = s.jobs := rfl
@[simp] theorem State.setFunc_redJobs (s : State) (f : Nat) (x : FuncState) : (s.setFunc f x).redJobs = s.redJobs := rfl
@[simp] theorem State.setFunc_ctxs (s : State) (f : Nat) (x : FuncState) : (s.setFunc f x).ctxs = s.ctxs := rfl
@[simp] theorem State.setFunc_aborts (s : State) (f : Nat) (x : FuncState) : (s.setFunc f x).aborts = s.aborts := rfl
@[simp] theorem State.setFunc_abortStatus (s : State) (f : Nat) (x : FuncState) : (s.setFunc f x).abortStatus = s.abortStatus := rfl
@[simp] theorem State.setFunc_abtSeen (s : State) (f : Nat) (x : FuncState) : (s.setFunc f x).abtSeen = s.abtSeen := rfl
@[simp] theorem State.setFunc_arrays (s : State) (f : Nat) (x : FuncState) : (s.setFunc f x).arrays = s.arrays := rfl
@[simp] theorem State.setFunc_repairStatus (s : State) (f : Nat) (x : FuncState) : (s.setFunc f x).repairStatus = s.repairStatus := rfl
@[simp] theorem State.setFunc_samples (s : State) (f : Nat) (x : FuncState) : (s.setFunc f x).samples = s.samples := rfl
@[simp] theorem State.setFunc_load (s : State) (f : Nat) (x : FuncState) : (s.setFunc f x).load = s.load := rfl
@[simp] theorem State.setFunc_turns (s : State) (f : Nat) (x : FuncState) : (s.setFunc f x).turns = s.turns := rfl
@[simp] theorem State.setFunc_masks (s : State) (f : Nat) (x : FuncState) : (s.setFunc f x).masks = s.masks := rfl
@[simp] theorem State.setFunc_commits (s : State) (f : Nat) (x : FuncState) : (s.setFunc f x).commits = s.commits := rfl
@[simp] theorem State.setFunc_mem (s : State) (f : Nat) (x : FuncState) : (s.setFunc f x).mem = s.mem := rfl
@[simp] theorem State.setFunc_poison (s : State) (f : Nat) (x : FuncState) : (s.setFunc f x).poison = s.poison := rfl
@[simp] theorem State.setFunc_hostMem (s : State) (f : Nat) (x : FuncState) : (s.setFunc f x).hostMem = s.hostMem := rfl
@[simp] theorem State.setFunc_msys (s : State) (f : Nat) (x : FuncState) : (s.setFunc f x).msys = s.msys := rfl
@[simp] theorem State.setFunc_dict (s : State) (f : Nat) (x : FuncState) : (s.setFunc f x).dict = s.dict := rfl
@[simp] theorem State.setFunc_trust (s : State) (f : Nat) (x : FuncState) : (s.setFunc f x).trust = s.trust := rfl
@[simp] theorem State.setFunc_power (s : State) (f : Nat) (x : FuncState) : (s.setFunc f x).power = s.power := rfl
@[simp] theorem State.setFunc_free (s : State) (f : Nat) (x : FuncState) : (s.setFunc f x).free = s.free := rfl

/-! ### setArray -/

@[simp] theorem State.setArray_pending (s : State) (a : Nat) (x : ArrayState) : (s.setArray a x).pending = s.pending := rfl
@[simp] theorem State.setArray_time (s : State) (a : Nat) (x : ArrayState) : (s.setArray a x).time = s.time := rfl
@[simp] theorem State.setArray_paths (s : State) (a : Nat) (x : ArrayState) : (s.setArray a x).paths = s.paths := rfl
@[simp] theorem State.setArray_ports (s : State) (a : Nat) (x : ArrayState) : (s.setArray a x).ports = s.ports := rfl
@[simp] theorem State.setArray_hosts (s : State) (a : Nat) (x : ArrayState) : (s.setArray a x).hosts = s.hosts := rfl
@[simp] theorem State.setArray_funcs (s : State) (a : Nat) (x : ArrayState) : (s.setArray a x).funcs = s.funcs := rfl
@[simp] theorem State.setArray_homePort (s : State) (a : Nat) (x : ArrayState) : (s.setArray a x).homePort = s.homePort := rfl
@[simp] theorem State.setArray_assign (s : State) (a : Nat) (x : ArrayState) : (s.setArray a x).assign = s.assign := rfl
@[simp] theorem State.setArray_queues (s : State) (a : Nat) (x : ArrayState) : (s.setArray a x).queues = s.queues := rfl
@[simp] theorem State.setArray_sems (s : State) (a : Nat) (x : ArrayState) : (s.setArray a x).sems = s.sems := rfl
@[simp] theorem State.setArray_jobs (s : State) (a : Nat) (x : ArrayState) : (s.setArray a x).jobs = s.jobs := rfl
@[simp] theorem State.setArray_redJobs (s : State) (a : Nat) (x : ArrayState) : (s.setArray a x).redJobs = s.redJobs := rfl
@[simp] theorem State.setArray_ctxs (s : State) (a : Nat) (x : ArrayState) : (s.setArray a x).ctxs = s.ctxs := rfl
@[simp] theorem State.setArray_aborts (s : State) (a : Nat) (x : ArrayState) : (s.setArray a x).aborts = s.aborts := rfl
@[simp] theorem State.setArray_abortStatus (s : State) (a : Nat) (x : ArrayState) : (s.setArray a x).abortStatus = s.abortStatus := rfl
@[simp] theorem State.setArray_abtSeen (s : State) (a : Nat) (x : ArrayState) : (s.setArray a x).abtSeen = s.abtSeen := rfl
@[simp] theorem State.setArray_repairStatus (s : State) (a : Nat) (x : ArrayState) : (s.setArray a x).repairStatus = s.repairStatus := rfl
@[simp] theorem State.setArray_samples (s : State) (a : Nat) (x : ArrayState) : (s.setArray a x).samples = s.samples := rfl
@[simp] theorem State.setArray_load (s : State) (a : Nat) (x : ArrayState) : (s.setArray a x).load = s.load := rfl
@[simp] theorem State.setArray_turns (s : State) (a : Nat) (x : ArrayState) : (s.setArray a x).turns = s.turns := rfl
@[simp] theorem State.setArray_masks (s : State) (a : Nat) (x : ArrayState) : (s.setArray a x).masks = s.masks := rfl
@[simp] theorem State.setArray_commits (s : State) (a : Nat) (x : ArrayState) : (s.setArray a x).commits = s.commits := rfl
@[simp] theorem State.setArray_mem (s : State) (a : Nat) (x : ArrayState) : (s.setArray a x).mem = s.mem := rfl
@[simp] theorem State.setArray_poison (s : State) (a : Nat) (x : ArrayState) : (s.setArray a x).poison = s.poison := rfl
@[simp] theorem State.setArray_hostMem (s : State) (a : Nat) (x : ArrayState) : (s.setArray a x).hostMem = s.hostMem := rfl
@[simp] theorem State.setArray_msys (s : State) (a : Nat) (x : ArrayState) : (s.setArray a x).msys = s.msys := rfl
@[simp] theorem State.setArray_dict (s : State) (a : Nat) (x : ArrayState) : (s.setArray a x).dict = s.dict := rfl
@[simp] theorem State.setArray_trust (s : State) (a : Nat) (x : ArrayState) : (s.setArray a x).trust = s.trust := rfl
@[simp] theorem State.setArray_power (s : State) (a : Nat) (x : ArrayState) : (s.setArray a x).power = s.power := rfl
@[simp] theorem State.setArray_free (s : State) (a : Nat) (x : ArrayState) : (s.setArray a x).free = s.free := rfl

/-! ### setCtx -/

@[simp] theorem State.setCtx_pending (s : State) (q : QNum) (x : Ctx) : (s.setCtx q x).pending = s.pending := rfl
@[simp] theorem State.setCtx_time (s : State) (q : QNum) (x : Ctx) : (s.setCtx q x).time = s.time := rfl
@[simp] theorem State.setCtx_paths (s : State) (q : QNum) (x : Ctx) : (s.setCtx q x).paths = s.paths := rfl
@[simp] theorem State.setCtx_ports (s : State) (q : QNum) (x : Ctx) : (s.setCtx q x).ports = s.ports := rfl
@[simp] theorem State.setCtx_hosts (s : State) (q : QNum) (x : Ctx) : (s.setCtx q x).hosts = s.hosts := rfl
@[simp] theorem State.setCtx_funcs (s : State) (q : QNum) (x : Ctx) : (s.setCtx q x).funcs = s.funcs := rfl
@[simp] theorem State.setCtx_homePort (s : State) (q : QNum) (x : Ctx) : (s.setCtx q x).homePort = s.homePort := rfl
@[simp] theorem State.setCtx_assign (s : State) (q : QNum) (x : Ctx) : (s.setCtx q x).assign = s.assign := rfl
@[simp] theorem State.setCtx_queues (s : State) (q : QNum) (x : Ctx) : (s.setCtx q x).queues = s.queues := rfl
@[simp] theorem State.setCtx_sems (s : State) (q : QNum) (x : Ctx) : (s.setCtx q x).sems = s.sems := rfl
@[simp] theorem State.setCtx_jobs (s : State) (q : QNum) (x : Ctx) : (s.setCtx q x).jobs = s.jobs := rfl
@[simp] theorem State.setCtx_redJobs (s : State) (q : QNum) (x : Ctx) : (s.setCtx q x).redJobs = s.redJobs := rfl
@[simp] theorem State.setCtx_aborts (s : State) (q : QNum) (x : Ctx) : (s.setCtx q x).aborts = s.aborts := rfl
@[simp] theorem State.setCtx_abortStatus (s : State) (q : QNum) (x : Ctx) : (s.setCtx q x).abortStatus = s.abortStatus := rfl
@[simp] theorem State.setCtx_abtSeen (s : State) (q : QNum) (x : Ctx) : (s.setCtx q x).abtSeen = s.abtSeen := rfl
@[simp] theorem State.setCtx_arrays (s : State) (q : QNum) (x : Ctx) : (s.setCtx q x).arrays = s.arrays := rfl
@[simp] theorem State.setCtx_repairStatus (s : State) (q : QNum) (x : Ctx) : (s.setCtx q x).repairStatus = s.repairStatus := rfl
@[simp] theorem State.setCtx_samples (s : State) (q : QNum) (x : Ctx) : (s.setCtx q x).samples = s.samples := rfl
@[simp] theorem State.setCtx_load (s : State) (q : QNum) (x : Ctx) : (s.setCtx q x).load = s.load := rfl
@[simp] theorem State.setCtx_turns (s : State) (q : QNum) (x : Ctx) : (s.setCtx q x).turns = s.turns := rfl
@[simp] theorem State.setCtx_masks (s : State) (q : QNum) (x : Ctx) : (s.setCtx q x).masks = s.masks := rfl
@[simp] theorem State.setCtx_commits (s : State) (q : QNum) (x : Ctx) : (s.setCtx q x).commits = s.commits := rfl
@[simp] theorem State.setCtx_mem (s : State) (q : QNum) (x : Ctx) : (s.setCtx q x).mem = s.mem := rfl
@[simp] theorem State.setCtx_poison (s : State) (q : QNum) (x : Ctx) : (s.setCtx q x).poison = s.poison := rfl
@[simp] theorem State.setCtx_hostMem (s : State) (q : QNum) (x : Ctx) : (s.setCtx q x).hostMem = s.hostMem := rfl
@[simp] theorem State.setCtx_msys (s : State) (q : QNum) (x : Ctx) : (s.setCtx q x).msys = s.msys := rfl
@[simp] theorem State.setCtx_dict (s : State) (q : QNum) (x : Ctx) : (s.setCtx q x).dict = s.dict := rfl
@[simp] theorem State.setCtx_trust (s : State) (q : QNum) (x : Ctx) : (s.setCtx q x).trust = s.trust := rfl
@[simp] theorem State.setCtx_power (s : State) (q : QNum) (x : Ctx) : (s.setCtx q x).power = s.power := rfl
@[simp] theorem State.setCtx_free (s : State) (q : QNum) (x : Ctx) : (s.setCtx q x).free = s.free := rfl

/-! ### setJob -/

@[simp] theorem State.setJob_pending (s : State) (j : Nat) (x : Job) : (s.setJob j x).pending = s.pending := rfl
@[simp] theorem State.setJob_time (s : State) (j : Nat) (x : Job) : (s.setJob j x).time = s.time := rfl
@[simp] theorem State.setJob_paths (s : State) (j : Nat) (x : Job) : (s.setJob j x).paths = s.paths := rfl
@[simp] theorem State.setJob_ports (s : State) (j : Nat) (x : Job) : (s.setJob j x).ports = s.ports := rfl
@[simp] theorem State.setJob_hosts (s : State) (j : Nat) (x : Job) : (s.setJob j x).hosts = s.hosts := rfl
@[simp] theorem State.setJob_funcs (s : State) (j : Nat) (x : Job) : (s.setJob j x).funcs = s.funcs := rfl
@[simp] theorem State.setJob_homePort (s : State) (j : Nat) (x : Job) : (s.setJob j x).homePort = s.homePort := rfl
@[simp] theorem State.setJob_assign (s : State) (j : Nat) (x : Job) : (s.setJob j x).assign = s.assign := rfl
@[simp] theorem State.setJob_queues (s : State) (j : Nat) (x : Job) : (s.setJob j x).queues = s.queues := rfl
@[simp] theorem State.setJob_sems (s : State) (j : Nat) (x : Job) : (s.setJob j x).sems = s.sems := rfl
@[simp] theorem State.setJob_redJobs (s : State) (j : Nat) (x : Job) : (s.setJob j x).redJobs = s.redJobs := rfl
@[simp] theorem State.setJob_ctxs (s : State) (j : Nat) (x : Job) : (s.setJob j x).ctxs = s.ctxs := rfl
@[simp] theorem State.setJob_aborts (s : State) (j : Nat) (x : Job) : (s.setJob j x).aborts = s.aborts := rfl
@[simp] theorem State.setJob_abortStatus (s : State) (j : Nat) (x : Job) : (s.setJob j x).abortStatus = s.abortStatus := rfl
@[simp] theorem State.setJob_abtSeen (s : State) (j : Nat) (x : Job) : (s.setJob j x).abtSeen = s.abtSeen := rfl
@[simp] theorem State.setJob_arrays (s : State) (j : Nat) (x : Job) : (s.setJob j x).arrays = s.arrays := rfl
@[simp] theorem State.setJob_repairStatus (s : State) (j : Nat) (x : Job) : (s.setJob j x).repairStatus = s.repairStatus := rfl
@[simp] theorem State.setJob_samples (s : State) (j : Nat) (x : Job) : (s.setJob j x).samples = s.samples := rfl
@[simp] theorem State.setJob_load (s : State) (j : Nat) (x : Job) : (s.setJob j x).load = s.load := rfl
@[simp] theorem State.setJob_turns (s : State) (j : Nat) (x : Job) : (s.setJob j x).turns = s.turns := rfl
@[simp] theorem State.setJob_masks (s : State) (j : Nat) (x : Job) : (s.setJob j x).masks = s.masks := rfl
@[simp] theorem State.setJob_commits (s : State) (j : Nat) (x : Job) : (s.setJob j x).commits = s.commits := rfl
@[simp] theorem State.setJob_mem (s : State) (j : Nat) (x : Job) : (s.setJob j x).mem = s.mem := rfl
@[simp] theorem State.setJob_poison (s : State) (j : Nat) (x : Job) : (s.setJob j x).poison = s.poison := rfl
@[simp] theorem State.setJob_hostMem (s : State) (j : Nat) (x : Job) : (s.setJob j x).hostMem = s.hostMem := rfl
@[simp] theorem State.setJob_msys (s : State) (j : Nat) (x : Job) : (s.setJob j x).msys = s.msys := rfl
@[simp] theorem State.setJob_dict (s : State) (j : Nat) (x : Job) : (s.setJob j x).dict = s.dict := rfl
@[simp] theorem State.setJob_trust (s : State) (j : Nat) (x : Job) : (s.setJob j x).trust = s.trust := rfl
@[simp] theorem State.setJob_power (s : State) (j : Nat) (x : Job) : (s.setJob j x).power = s.power := rfl
@[simp] theorem State.setJob_free (s : State) (j : Nat) (x : Job) : (s.setJob j x).free = s.free := rfl

/-! ### setPath -/

@[simp] theorem State.setPath_pending (s : State) (p : Path) (x : PathState) : (s.setPath p x).pending = s.pending := rfl
@[simp] theorem State.setPath_time (s : State) (p : Path) (x : PathState) : (s.setPath p x).time = s.time := rfl
@[simp] theorem State.setPath_ports (s : State) (p : Path) (x : PathState) : (s.setPath p x).ports = s.ports := rfl
@[simp] theorem State.setPath_hosts (s : State) (p : Path) (x : PathState) : (s.setPath p x).hosts = s.hosts := rfl
@[simp] theorem State.setPath_funcs (s : State) (p : Path) (x : PathState) : (s.setPath p x).funcs = s.funcs := rfl
@[simp] theorem State.setPath_homePort (s : State) (p : Path) (x : PathState) : (s.setPath p x).homePort = s.homePort := rfl
@[simp] theorem State.setPath_assign (s : State) (p : Path) (x : PathState) : (s.setPath p x).assign = s.assign := rfl
@[simp] theorem State.setPath_queues (s : State) (p : Path) (x : PathState) : (s.setPath p x).queues = s.queues := rfl
@[simp] theorem State.setPath_sems (s : State) (p : Path) (x : PathState) : (s.setPath p x).sems = s.sems := rfl
@[simp] theorem State.setPath_jobs (s : State) (p : Path) (x : PathState) : (s.setPath p x).jobs = s.jobs := rfl
@[simp] theorem State.setPath_redJobs (s : State) (p : Path) (x : PathState) : (s.setPath p x).redJobs = s.redJobs := rfl
@[simp] theorem State.setPath_ctxs (s : State) (p : Path) (x : PathState) : (s.setPath p x).ctxs = s.ctxs := rfl
@[simp] theorem State.setPath_aborts (s : State) (p : Path) (x : PathState) : (s.setPath p x).aborts = s.aborts := rfl
@[simp] theorem State.setPath_abortStatus (s : State) (p : Path) (x : PathState) : (s.setPath p x).abortStatus = s.abortStatus := rfl
@[simp] theorem State.setPath_abtSeen (s : State) (p : Path) (x : PathState) : (s.setPath p x).abtSeen = s.abtSeen := rfl
@[simp] theorem State.setPath_arrays (s : State) (p : Path) (x : PathState) : (s.setPath p x).arrays = s.arrays := rfl
@[simp] theorem State.setPath_repairStatus (s : State) (p : Path) (x : PathState) : (s.setPath p x).repairStatus = s.repairStatus := rfl
@[simp] theorem State.setPath_samples (s : State) (p : Path) (x : PathState) : (s.setPath p x).samples = s.samples := rfl
@[simp] theorem State.setPath_load (s : State) (p : Path) (x : PathState) : (s.setPath p x).load = s.load := rfl
@[simp] theorem State.setPath_turns (s : State) (p : Path) (x : PathState) : (s.setPath p x).turns = s.turns := rfl
@[simp] theorem State.setPath_masks (s : State) (p : Path) (x : PathState) : (s.setPath p x).masks = s.masks := rfl
@[simp] theorem State.setPath_commits (s : State) (p : Path) (x : PathState) : (s.setPath p x).commits = s.commits := rfl
@[simp] theorem State.setPath_mem (s : State) (p : Path) (x : PathState) : (s.setPath p x).mem = s.mem := rfl
@[simp] theorem State.setPath_poison (s : State) (p : Path) (x : PathState) : (s.setPath p x).poison = s.poison := rfl
@[simp] theorem State.setPath_hostMem (s : State) (p : Path) (x : PathState) : (s.setPath p x).hostMem = s.hostMem := rfl
@[simp] theorem State.setPath_msys (s : State) (p : Path) (x : PathState) : (s.setPath p x).msys = s.msys := rfl
@[simp] theorem State.setPath_dict (s : State) (p : Path) (x : PathState) : (s.setPath p x).dict = s.dict := rfl
@[simp] theorem State.setPath_trust (s : State) (p : Path) (x : PathState) : (s.setPath p x).trust = s.trust := rfl
@[simp] theorem State.setPath_power (s : State) (p : Path) (x : PathState) : (s.setPath p x).power = s.power := rfl
@[simp] theorem State.setPath_free (s : State) (p : Path) (x : PathState) : (s.setPath p x).free = s.free := rfl

/-! ### setReg -/

@[simp] theorem State.setReg_pending (s : State) (i k v : Nat) : (s.setReg i k v).pending = s.pending := rfl
@[simp] theorem State.setReg_time (s : State) (i k v : Nat) : (s.setReg i k v).time = s.time := rfl
@[simp] theorem State.setReg_paths (s : State) (i k v : Nat) : (s.setReg i k v).paths = s.paths := rfl
@[simp] theorem State.setReg_ports (s : State) (i k v : Nat) : (s.setReg i k v).ports = s.ports := rfl
@[simp] theorem State.setReg_hosts (s : State) (i k v : Nat) : (s.setReg i k v).hosts = s.hosts := rfl
@[simp] theorem State.setReg_funcs (s : State) (i k v : Nat) : (s.setReg i k v).funcs = s.funcs := rfl
@[simp] theorem State.setReg_homePort (s : State) (i k v : Nat) : (s.setReg i k v).homePort = s.homePort := rfl
@[simp] theorem State.setReg_assign (s : State) (i k v : Nat) : (s.setReg i k v).assign = s.assign := rfl
@[simp] theorem State.setReg_queues (s : State) (i k v : Nat) : (s.setReg i k v).queues = s.queues := rfl
@[simp] theorem State.setReg_sems (s : State) (i k v : Nat) : (s.setReg i k v).sems = s.sems := rfl
@[simp] theorem State.setReg_jobs (s : State) (i k v : Nat) : (s.setReg i k v).jobs = s.jobs := rfl
@[simp] theorem State.setReg_redJobs (s : State) (i k v : Nat) : (s.setReg i k v).redJobs = s.redJobs := rfl
@[simp] theorem State.setReg_ctxs (s : State) (i k v : Nat) : (s.setReg i k v).ctxs = s.ctxs := rfl
@[simp] theorem State.setReg_aborts (s : State) (i k v : Nat) : (s.setReg i k v).aborts = s.aborts := rfl
@[simp] theorem State.setReg_abortStatus (s : State) (i k v : Nat) : (s.setReg i k v).abortStatus = s.abortStatus := rfl
@[simp] theorem State.setReg_abtSeen (s : State) (i k v : Nat) : (s.setReg i k v).abtSeen = s.abtSeen := rfl
@[simp] theorem State.setReg_arrays (s : State) (i k v : Nat) : (s.setReg i k v).arrays = s.arrays := rfl
@[simp] theorem State.setReg_repairStatus (s : State) (i k v : Nat) : (s.setReg i k v).repairStatus = s.repairStatus := rfl
@[simp] theorem State.setReg_samples (s : State) (i k v : Nat) : (s.setReg i k v).samples = s.samples := rfl
@[simp] theorem State.setReg_load (s : State) (i k v : Nat) : (s.setReg i k v).load = s.load := rfl
@[simp] theorem State.setReg_turns (s : State) (i k v : Nat) : (s.setReg i k v).turns = s.turns := rfl
@[simp] theorem State.setReg_masks (s : State) (i k v : Nat) : (s.setReg i k v).masks = s.masks := rfl
@[simp] theorem State.setReg_commits (s : State) (i k v : Nat) : (s.setReg i k v).commits = s.commits := rfl
@[simp] theorem State.setReg_mem (s : State) (i k v : Nat) : (s.setReg i k v).mem = s.mem := rfl
@[simp] theorem State.setReg_poison (s : State) (i k v : Nat) : (s.setReg i k v).poison = s.poison := rfl
@[simp] theorem State.setReg_hostMem (s : State) (i k v : Nat) : (s.setReg i k v).hostMem = s.hostMem := rfl
@[simp] theorem State.setReg_msys (s : State) (i k v : Nat) : (s.setReg i k v).msys = s.msys := rfl
@[simp] theorem State.setReg_trust (s : State) (i k v : Nat) : (s.setReg i k v).trust = s.trust := rfl
@[simp] theorem State.setReg_power (s : State) (i k v : Nat) : (s.setReg i k v).power = s.power := rfl
@[simp] theorem State.setReg_free (s : State) (i k v : Nat) : (s.setReg i k v).free = s.free := rfl

end Sys2Proof.Machine
end

