-- ==== Sys2Proof/Laws/Tables.lean ====
section
/-! SUPPORT. Sparse tables read back what was put, and the accessors of the state over them. -/

namespace Sys2Proof.Machine

@[simp] theorem tget_tput_same {α : Type} (d : α) (k : Nat) (v : α) (t : Tab α) : tget d (tput k v t) k = v := by
  induction t with
  | nil => simp [tput, tget]
  | cons e r ih =>
    obtain ⟨k', v'⟩ := e
    simp only [tput]
    split
    · simp [tget]
    · split
      · simp [tget]
      · next h => simp [tget, h, ih]

theorem tget_tput_ne {α : Type} (d : α) {j k : Nat} (v : α) (t : Tab α) (h : j ≠ k) : tget d (tput k v t) j = tget d t j := by
  induction t with
  | nil => simp [tput, tget, h]
  | cons e r ih =>
    obtain ⟨k', v'⟩ := e
    simp only [tput]
    split
    · simp [tget, h]
    · split
      · next hk => subst hk; simp [tget, h]
      · simp [tget, ih]

theorem tget_tput {α : Type} (d : α) (j k : Nat) (v : α) (t : Tab α) : tget d (tput k v t) j = if j = k then v else tget d t j := by
  split
  · next h => subst h; simp
  · next h => exact tget_tput_ne d v t h

/-- The second of two values put under one key stands. -/
@[simp] theorem tput_tput {α : Type} (k : Nat) (v w : α) (t : Tab α) : tput k w (tput k v t) = tput k w t := by
  induction t with
  | nil => simp [tput]
  | cons e r ih =>
    obtain ⟨k', v'⟩ := e
    simp only [tput]
    split
    · simp [tput]
    · split
      · simp [tput]
      · next h1 h2 => simp [tput, h1, h2, ih]

theorem tfind_tput {α : Type} (j k : Nat) (v : α) (t : Tab α) : tfind (tput k v t) j = if j = k then some v else tfind t j := by
  induction t with
  | nil => simp [tput, tfind]
  | cons e r ih =>
    obtain ⟨k', v'⟩ := e
    simp only [tput]
    split
    · simp [tfind]
    · split
      · next hk => subst hk; by_cases h : j = k <;> simp [tfind, h]
      · next hk =>
        simp only [tfind, ih]
        by_cases h : j = k'
        · subst h
          have : ¬ j = k := fun e => hk e.symm
          simp [this]
        · simp [h]

@[simp] theorem tfind_tput_same {α : Type} (k : Nat) (v : α) (t : Tab α) : tfind (tput k v t) k = some v := by simp [tfind_tput]

theorem tfind_tput_ne {α : Type} {j k : Nat} (v : α) (t : Tab α) (h : j ≠ k) : tfind (tput k v t) j = tfind t j := by
  simp [tfind_tput, h]

theorem tget_eq_tfind {α : Type} (d : α) (t : Tab α) (k : Nat) : tget d t k = (tfind t k).getD d := by
  induction t with
  | nil => simp [tget, tfind]
  | cons e r ih =>
    obtain ⟨k', v'⟩ := e
    simp only [tget, tfind]
    split <;> simp [ih]

theorem tfind_filter {α : Type} (p : Nat → Bool) (t : Tab α) (j : Nat) :
    tfind (t.filter fun e => p e.1) j = if p j then tfind t j else none := by
  induction t with
  | nil => simp [tfind]
  | cons e r ih =>
    obtain ⟨k, v⟩ := e
    simp only [List.filter_cons]
    by_cases hj : j = k
    · subst hj
      cases h : p j <;> simp [tfind, ih, h]
    · cases h : p k <;> simp [tfind, ih, hj]

theorem tfind_tdel {α : Type} (j k : Nat) (t : Tab α) : tfind (tdel k t) j = if j = k then none else tfind t j := by
  unfold tdel
  rw [tfind_filter (fun x => x != k)]
  by_cases h : j = k <;> simp [h]

@[simp] theorem tfind_tdel_same {α : Type} (k : Nat) (t : Tab α) : tfind (tdel k t) k = none := by simp [tfind_tdel]

theorem tfind_tdel_ne {α : Type} {j k : Nat} (t : Tab α) (h : j ≠ k) : tfind (tdel k t) j = tfind t j := by simp [tfind_tdel, h]

/-- Mapping the values of a table maps what it holds for each key. -/
theorem tfind_map {α : Type} (g : Nat → α → α) (t : Tab α) (k : Nat) :
    tfind (t.map fun e => (e.1, g e.1 e.2)) k = (tfind t k).map (g k) := by
  induction t with
  | nil => rfl
  | cons e r ih =>
    obtain ⟨k', v'⟩ := e
    simp only [List.map_cons, tfind]
    split
    · next h => subst h; simp
    · exact ih

/-! ### Accessors -/

@[simp] theorem queue_setQueue_same (s : State) (q : QNum) (x : Queue) : (s.setQueue q x).queue q = x := by
  simp [State.queue, State.setQueue]
theorem queue_setQueue_ne (s : State) {p q : QNum} (x : Queue) (h : p ≠ q) : (s.setQueue q x).queue p = s.queue p := by
  have : p.toNat ≠ q.toNat := fun e => h (BitVec.eq_of_toNat_eq e)
  simp [State.queue, State.setQueue, tget_tput_ne _ _ _ this]
@[simp] theorem sem_setSem_same (s : State) (n : Nat) (x : Sem) : (s.setSem n x).sem n = x := by simp [State.sem, State.setSem]
theorem sem_setSem_ne (s : State) {m n : Nat} (x : Sem) (h : m ≠ n) : (s.setSem n x).sem m = s.sem m := by
  simp [State.sem, State.setSem, tget_tput_ne _ _ _ h]
@[simp] theorem port_setPort_same (s : State) (p : Port) (x : PortState) : (s.setPort p x).port p = x := by
  simp [State.port, State.setPort]
theorem port_setPort_ne (s : State) {p q : Port} (x : PortState) (h : p ≠ q) : (s.setPort q x).port p = s.port p := by
  have : p.toNat ≠ q.toNat := fun e => h (BitVec.eq_of_toNat_eq e)
  simp [State.port, State.setPort, tget_tput_ne _ _ _ this]
@[simp] theorem hport_setHport_same (s : State) (h : HPort) (x : HostPort) : (s.setHport h x).hport h = x := by
  simp [State.hport, State.setHport]
theorem hport_setHport_ne (s : State) {g h : HPort} (x : HostPort) (e : g ≠ h) : (s.setHport h x).hport g = s.hport g := by
  have : g.toNat ≠ h.toNat := fun i => e (BitVec.eq_of_toNat_eq i)
  simp [State.hport, State.setHport, tget_tput_ne _ _ _ this]
@[simp] theorem func_setFunc_same (s : State) (f : Nat) (x : FuncState) : (s.setFunc f x).func f = x := by
  simp [State.func, State.setFunc]
theorem func_setFunc_ne (s : State) {f g : Nat} (x : FuncState) (h : g ≠ f) : (s.setFunc f x).func g = s.func g := by
  simp [State.func, State.setFunc, tget_tput_ne _ _ _ h]
@[simp] theorem array_setArray_same (s : State) (a : Nat) (x : ArrayState) : (s.setArray a x).array a = x := by
  simp [State.array, State.setArray]
theorem array_setArray_ne (s : State) {a b : Nat} (x : ArrayState) (h : b ≠ a) : (s.setArray a x).array b = s.array b := by
  simp [State.array, State.setArray, tget_tput_ne _ _ _ h]
@[simp] theorem ctx_setCtx_same (s : State) (q : QNum) (x : Ctx) : (s.setCtx q x).ctx q = x := by simp [State.ctx, State.setCtx]
theorem ctx_setCtx_ne (s : State) {p q : QNum} (x : Ctx) (h : p ≠ q) : (s.setCtx q x).ctx p = s.ctx p := by
  have : p.toNat ≠ q.toNat := fun e => h (BitVec.eq_of_toNat_eq e)
  simp [State.ctx, State.setCtx, tget_tput_ne _ _ _ this]
@[simp] theorem job?_setJob_same (s : State) (j : Nat) (x : Job) : (s.setJob j x).job? j = some x := by simp [State.job?, State.setJob]
theorem job?_setJob_ne (s : State) {i j : Nat} (x : Job) (h : i ≠ j) : (s.setJob j x).job? i = s.job? i := by
  simp [State.job?, State.setJob, tfind_tput_ne _ _ h]
@[simp] theorem job_setJob_same (s : State) (j : Nat) (x : Job) : (s.setJob j x).job j = x := by simp [State.job, State.setJob]
theorem job_of_job? {s : State} {j : Nat} {x : Job} (h : s.job? j = some x) : s.job j = x := by
  simp only [State.job?] at h
  simp [State.job, tget_eq_tfind, h]

theorem pathKey_inj {p q : Path} (h : pathKey p = pathKey q) : p = q := by
  cases p <;> cases q <;> simp only [pathKey] at h
  · rfl
  · omega
  · omega
  · omega
  · next a b => exact congrArg Path.mctp (BitVec.eq_of_toNat_eq (by omega))
  · next a b => have := a.isLt; omega
  · omega
  · next a b => have := b.isLt; omega
  · next a b => exact congrArg Path.window (BitVec.eq_of_toNat_eq (by omega))

@[simp] theorem path_setPath_same (s : State) (p : Path) (x : PathState) : (s.setPath p x).path p = x := by
  simp [State.path, State.setPath]
theorem path_setPath_ne (s : State) {p q : Path} (x : PathState) (h : p ≠ q) : (s.setPath q x).path p = s.path p := by
  have : pathKey p ≠ pathKey q := fun e => h (pathKey_inj e)
  simp [State.path, State.setPath, tget_tput_ne _ _ _ this]

end Sys2Proof.Machine
end

