-- ==== Sys2Proof/Laws/Memory.lean ====
section
/-! SUPPORT. Memory keeps its canonical form under every operation that writes it, and reads back what was written. -/

namespace Sys2Proof.Machine

/-- Every listed address is at least lo: what the tail of a list in canonical form satisfies. -/
theorem wf_tail {c : Host.Cell} {r : List Host.Cell} (h : Memory.wf (c :: r) = true) : Memory.wf r = true := by
  cases r with
  | nil => rfl
  | cons d r => simp only [Memory.wf, Bool.and_eq_true] at h; exact h.2

theorem wf_head {c : Host.Cell} {r : List Host.Cell} (h : Memory.wf (c :: r) = true) : c.2 ≠ 0 := by
  cases r with
  | nil => simpa [Memory.wf] using h
  | cons d r => simp only [Memory.wf, Bool.and_eq_true] at h; simpa using h.1.1

theorem wf_lt {c : Host.Cell} {r : List Host.Cell} (h : Memory.wf (c :: r) = true) : ∀ d ∈ r, c.1 < d.1 := by
  induction r generalizing c with
  | nil => simp
  | cons e r ih =>
    simp only [Memory.wf, Bool.and_eq_true, decide_eq_true_eq] at h
    intro d hd
    rcases List.mem_cons.1 hd with rfl | hd
    · exact h.1.2
    · exact Nat.lt_trans h.1.2 (ih h.2 d hd)

/-- The canonical form, from its three parts. -/
theorem wf_cons {c : Host.Cell} {r : List Host.Cell} (h0 : c.2 ≠ 0) (hlt : ∀ d ∈ r, c.1 < d.1) (h : Memory.wf r = true) :
    Memory.wf (c :: r) = true := by
  cases r with
  | nil => simpa [Memory.wf] using h0
  | cons d r => simpa [Memory.wf, h, hlt d (by simp)] using h0

theorem mem_memSet {a : Nat} {b : Byte} {m : List Host.Cell} {c : Host.Cell} (h : c ∈ memSet a b m) : c = (a, b) ∨ c ∈ m := by
  induction m with
  | nil => simp only [memSet] at h; split at h <;> simp_all
  | cons e r ih =>
    obtain ⟨k, v⟩ := e
    simp only [memSet] at h
    split at h
    · split at h
      · exact .inr h
      · rcases List.mem_cons.1 h with h | h
        · exact .inl h
        · exact .inr h
    · split at h
      · split at h
        · exact .inr (List.mem_cons_of_mem _ h)
        · rcases List.mem_cons.1 h with h | h
          · exact .inl h
          · exact .inr (List.mem_cons_of_mem _ h)
      · rcases List.mem_cons.1 h with h | h
        · exact .inr (h ▸ List.mem_cons_self)
        · rcases ih h with h | h
          · exact .inl h
          · exact .inr (List.mem_cons_of_mem _ h)

/-- Writing a byte keeps the canonical form. -/
theorem wf_memSet (a : Nat) (b : Byte) {m : List Host.Cell} (h : Memory.wf m = true) : Memory.wf (memSet a b m) = true := by
  induction m with
  | nil => simp only [memSet]; split <;> simp_all [Memory.wf]
  | cons e r ih =>
    obtain ⟨k, v⟩ := e
    have hr := wf_tail h
    have hk := wf_lt h
    simp only [memSet]
    split
    · next hak =>
      split
      · exact h
      · next hb =>
        refine wf_cons hb (fun d hd => ?_) h
        rcases List.mem_cons.1 hd with rfl | hd
        · exact hak
        · exact Nat.lt_trans hak (hk d hd)
    · split
      · next he =>
        subst he
        split
        · exact hr
        · next hb => exact wf_cons hb hk hr
      · next h1 h2 =>
        refine wf_cons (wf_head h) (fun d hd => ?_) (ih hr)
        rcases mem_memSet hd with rfl | hd
        · show k < a
          omega
        · exact hk d hd

/-- Writing consecutive bytes keeps the canonical form. -/
theorem wf_memPut (a : Nat) (bs : List Byte) {m : List Host.Cell} (h : Memory.wf m = true) : Memory.wf (memPut a bs m) = true := by
  induction bs generalizing a m with
  | nil => exact h
  | cons b r ih => exact ih _ (wf_memSet a b h)

/-- Removing listed bytes keeps the canonical form. -/
theorem wf_filter (p : Host.Cell → Bool) {m : List Host.Cell} (h : Memory.wf m = true) : Memory.wf (m.filter p) = true := by
  induction m with
  | nil => rfl
  | cons e r ih =>
    simp only [List.filter_cons]
    split
    · exact wf_cons (wf_head h) (fun d hd => wf_lt h d (List.mem_of_mem_filter hd)) (ih (wf_tail h))
    · exact ih (wf_tail h)

/-- Any sequence of byte writes keeps the canonical form. -/
theorem wf_foldl_memSet {α : Type} (f : α → Nat) (g : α → Byte) (l : List α) {m : List Host.Cell} (h : Memory.wf m = true) :
    Memory.wf (l.foldl (fun m c => memSet (f c) (g c) m) m) = true := by
  induction l generalizing m with
  | nil => exact h
  | cons c r ih => exact ih (wf_memSet _ _ h)

theorem memGet_of_lt {a : Nat} {m : List Host.Cell} (h : ∀ d ∈ m, a < d.1) : memGet m a = 0 := by
  induction m with
  | nil => rfl
  | cons e r ih =>
    obtain ⟨k, v⟩ := e
    have h1 : a < k := h (k, v) (by simp)
    simp only [memGet]
    rw [if_neg (by omega)]
    exact ih fun d hd => h d (List.mem_cons_of_mem _ hd)

/-- A byte written is read back, and every other byte reads as before. -/
theorem memGet_memSet (a x : Nat) (b : Byte) {m : List Host.Cell} (h : Memory.wf m = true) :
    memGet (memSet a b m) x = if x = a then b else memGet m x := by
  induction m with
  | nil => simp only [memSet]; split <;> simp_all [memGet]
  | cons e r ih =>
    obtain ⟨k, v⟩ := e
    have hr := wf_tail h
    have hk := wf_lt h
    simp only [memSet]
    split
    · next hak =>
      split
      · next hb =>
        split
        · next hx =>
          subst hx; subst hb
          simp only [memGet]
          rw [if_neg (by omega)]
          exact memGet_of_lt fun d hd => Nat.lt_trans hak (hk d hd)
        · rfl
      · simp only [memGet]
    · split
      · next he =>
        subst he
        split
        · next hb =>
          subst hb
          simp only [memGet]
          split
          · next hx => subst hx; exact memGet_of_lt hk
          · rfl
        · simp only [memGet]; split <;> rfl
      · next h1 h2 =>
        simp only [memGet, ih hr]
        split
        · next hx => subst hx; rw [if_neg (by omega)]
        · rfl

/-- Bytes written at consecutive addresses are read back, and every other byte reads as before. -/
theorem memGet_memPut (a x : Nat) (bs : List Byte) {m : List Host.Cell} (h : Memory.wf m = true) :
    memGet (memPut a bs m) x = if a ≤ x ∧ x < a + bs.length then bs.getD (x - a) 0 else memGet m x := by
  induction bs generalizing a m with
  | nil => simp only [memPut, List.length_nil]; rw [if_neg (by omega)]
  | cons b r ih =>
    simp only [memPut, List.length_cons]
    rw [ih _ (wf_memSet a b h), memGet_memSet a x b h]
    by_cases h1 : a + 1 ≤ x ∧ x < a + 1 + r.length
    · rw [if_pos h1, if_pos (by omega)]
      obtain ⟨n, rfl⟩ : ∃ n, x = a + 1 + n := ⟨x - (a + 1), by omega⟩
      have e1 : a + 1 + n - (a + 1) = n := by omega
      have e2 : a + 1 + n - a = n + 1 := by omega
      rw [e1, e2]; simp
    · rw [if_neg h1]
      by_cases h2 : x = a
      · subst h2; rw [if_pos rfl, if_pos (by omega)]; simp
      · rw [if_neg h2, if_neg (by omega)]

theorem wf_physWrite {s : State} (a : Nat) (bs : List Byte) (h : Memory.wf s.mem = true) : Memory.wf (physWrite s a bs).mem = true :=
  wf_memPut a bs h

theorem wf_copyFrame (o n : Nat) {m : List Host.Cell} (h : Memory.wf m = true) : Memory.wf (copyFrame o n m) = true :=
  wf_foldl_memSet _ _ _ (wf_filter _ h)

end Sys2Proof.Machine
end

