-- ==== Sys2Proof/Laws/Access.lean ====
section
/-! SUPPORT. What an access to virtual memory can do to the state: a read draws free bytes of a host or counts a page's transactions; a write stores bytes and counts them. One principle for each, and what each leaves alone. -/

namespace Sys2Proof.Machine

/-- What holds before a write of virtual memory that succeeds, and is kept by stores and transaction counts, holds after it. -/
theorem vWrite_ok_keeps (P : State → Prop) (hp : ∀ s a bs, P s → P (physWrite s a bs)) (hh : ∀ s p a bs, P s → P (hostWrite s p a bs))
    (ht : ∀ s a n l, P s → P (touchPage s a n l)) (hc : ∀ s f j v, P s → P (cacheXl s f j v)) {s t : State} {f job va : Nat} {bs : List Byte} {tier : Option Nat}
    (h : vWrite s f job va bs tier = .ok t) (h0 : P s) : P t := by
  unfold vWrite at h
  generalize piecesOf va bs.length = l at h
  induction l generalizing s bs with
  | nil => simp only [writePieces, Acc.ok.injEq] at h; exact h ▸ h0
  | cons e r ih =>
    obtain ⟨v, n⟩ := e
    simp only [writePieces] at h
    cases hw : writePiece s f job v (bs.take n) tier with
    | ok s1 =>
      rw [hw] at h
      refine ih ?_ h
      unfold writePiece at hw
      split at hw
      · simp at hw
      · simp at hw
      · simp at hw
      · simp only [Acc.ok.injEq] at hw; exact hw ▸ hh _ _ _ _ (hc _ _ _ _ h0)
      · split at hw
        · simp at hw
        · simp only [Acc.ok.injEq] at hw; exact hw ▸ ht _ _ _ _ (hp _ _ _ (hc _ _ _ _ h0))
    | _ => rw [hw] at h; simp at h

/-- What holds before a read of virtual memory that succeeds, and is kept by drawn free values and transaction counts, holds after it. -/
theorem vRead_ok_keeps (P : State → Prop) (hd : ∀ (s : State) n, P s → P (drawBytes s n).2)
    (ht : ∀ s a n l, P s → P (touchPage s a n l)) (hc : ∀ s f j v, P s → P (cacheXl s f j v)) {s t : State} {f job va n : Nat} {b : List Byte} {tier : Option Nat}
    (h : vRead s f job va n tier = .ok (b, t)) (h0 : P s) : P t := by
  unfold vRead at h
  generalize piecesOf va n = l at h
  induction l generalizing s b with
  | nil => simp only [readPieces, Acc.ok.injEq, Prod.mk.injEq] at h; exact h.2 ▸ h0
  | cons e r ih =>
    obtain ⟨v, m⟩ := e
    simp only [readPieces] at h
    cases hw : readPiece s f job v m tier with
    | ok x =>
      obtain ⟨b1, s1⟩ := x
      rw [hw] at h
      have h1 : P s1 := by
        unfold readPiece at hw
        split at hw
        · simp at hw
        · simp at hw
        · simp at hw
        · simp only [Acc.ok.injEq] at hw
          have := hd _ m (hc s f job v h0)
          rw [hw] at this
          exact this
        · split at hw
          · simp at hw
          · split at hw
            · simp at hw
            · simp only [Acc.ok.injEq, Prod.mk.injEq] at hw; exact hw.2 ▸ ht _ _ _ _ (hc _ _ _ _ h0)
      cases h2 : readPieces s1 f job tier r with
      | ok y =>
        obtain ⟨b2, s2⟩ := y
        simp only [h2, Acc.ok.injEq, Prod.mk.injEq] at h
        exact ih h1 (h.2 ▸ h2)
      | _ => simp [h2] at h
    | _ => rw [hw] at h; simp at h

@[simp] theorem hostWrite_pending (s : State) (p a : Nat) (bs : List Byte) : (hostWrite s p a bs).pending = s.pending := by
  induction bs generalizing s a with
  | nil => rfl
  | cons b r ih => simp [hostWrite, ih]
@[simp] theorem hostWrite_time (s : State) (p a : Nat) (bs : List Byte) : (hostWrite s p a bs).time = s.time := by
  induction bs generalizing s a with
  | nil => rfl
  | cons b r ih => simp [hostWrite, ih]
@[simp] theorem hostWrite_paths (s : State) (p a : Nat) (bs : List Byte) : (hostWrite s p a bs).paths = s.paths := by
  induction bs generalizing s a with
  | nil => rfl
  | cons b r ih => simp [hostWrite, ih]
@[simp] theorem hostWrite_ports (s : State) (p a : Nat) (bs : List Byte) : (hostWrite s p a bs).ports = s.ports := by
  induction bs generalizing s a with
  | nil => rfl
  | cons b r ih => simp [hostWrite, ih]
@[simp] theorem hostWrite_hosts (s : State) (p a : Nat) (bs : List Byte) : (hostWrite s p a bs).hosts = s.hosts := by
  induction bs generalizing s a with
  | nil => rfl
  | cons b r ih => simp [hostWrite, ih]
@[simp] theorem hostWrite_funcs (s : State) (p a : Nat) (bs : List Byte) : (hostWrite s p a bs).funcs = s.funcs := by
  induction bs generalizing s a with
  | nil => rfl
  | cons b r ih => simp [hostWrite, ih]
@[simp] theorem hostWrite_homePort (s : State) (p a : Nat) (bs : List Byte) : (hostWrite s p a bs).homePort = s.homePort := by
  induction bs generalizing s a with
  | nil => rfl
  | cons b r ih => simp [hostWrite, ih]
@[simp] theorem hostWrite_assign (s : State) (p a : Nat) (bs : List Byte) : (hostWrite s p a bs).assign = s.assign := by
  induction bs generalizing s a with
  | nil => rfl
  | cons b r ih => simp [hostWrite, ih]
@[simp] theorem hostWrite_queues (s : State) (p a : Nat) (bs : List Byte) : (hostWrite s p a bs).queues = s.queues := by
  induction bs generalizing s a with
  | nil => rfl
  | cons b r ih => simp [hostWrite, ih]
@[simp] theorem hostWrite_sems (s : State) (p a : Nat) (bs : List Byte) : (hostWrite s p a bs).sems = s.sems := by
  induction bs generalizing s a with
  | nil => rfl
  | cons b r ih => simp [hostWrite, ih]
@[simp] theorem hostWrite_jobs (s : State) (p a : Nat) (bs : List Byte) : (hostWrite s p a bs).jobs = s.jobs := by
  induction bs generalizing s a with
  | nil => rfl
  | cons b r ih => simp [hostWrite, ih]
@[simp] theorem hostWrite_redJobs (s : State) (p a : Nat) (bs : List Byte) : (hostWrite s p a bs).redJobs = s.redJobs := by
  induction bs generalizing s a with
  | nil => rfl
  | cons b r ih => simp [hostWrite, ih]
@[simp] theorem hostWrite_ctxs (s : State) (p a : Nat) (bs : List Byte) : (hostWrite s p a bs).ctxs = s.ctxs := by
  induction bs generalizing s a with
  | nil => rfl
  | cons b r ih => simp [hostWrite, ih]
@[simp] theorem hostWrite_aborts (s : State) (p a : Nat) (bs : List Byte) : (hostWrite s p a bs).aborts = s.aborts := by
  induction bs generalizing s a with
  | nil => rfl
  | cons b r ih => simp [hostWrite, ih]
@[simp] theorem hostWrite_abortStatus (s : State) (p a : Nat) (bs : List Byte) : (hostWrite s p a bs).abortStatus = s.abortStatus := by
  induction bs generalizing s a with
  | nil => rfl
  | cons b r ih => simp [hostWrite, ih]
@[simp] theorem hostWrite_abtSeen (s : State) (p a : Nat) (bs : List Byte) : (hostWrite s p a bs).abtSeen = s.abtSeen := by
  induction bs generalizing s a with
  | nil => rfl
  | cons b r ih => simp [hostWrite, ih]
@[simp] theorem hostWrite_arrays (s : State) (p a : Nat) (bs : List Byte) : (hostWrite s p a bs).arrays = s.arrays := by
  induction bs generalizing s a with
  | nil => rfl
  | cons b r ih => simp [hostWrite, ih]
@[simp] theorem hostWrite_repairStatus (s : State) (p a : Nat) (bs : List Byte) : (hostWrite s p a bs).repairStatus = s.repairStatus := by
  induction bs generalizing s a with
  | nil => rfl
  | cons b r ih => simp [hostWrite, ih]
@[simp] theorem hostWrite_samples (s : State) (p a : Nat) (bs : List Byte) : (hostWrite s p a bs).samples = s.samples := by
  induction bs generalizing s a with
  | nil => rfl
  | cons b r ih => simp [hostWrite, ih]
@[simp] theorem hostWrite_load (s : State) (p a : Nat) (bs : List Byte) : (hostWrite s p a bs).load = s.load := by
  induction bs generalizing s a with
  | nil => rfl
  | cons b r ih => simp [hostWrite, ih]
@[simp] theorem hostWrite_turns (s : State) (p a : Nat) (bs : List Byte) : (hostWrite s p a bs).turns = s.turns := by
  induction bs generalizing s a with
  | nil => rfl
  | cons b r ih => simp [hostWrite, ih]
@[simp] theorem hostWrite_masks (s : State) (p a : Nat) (bs : List Byte) : (hostWrite s p a bs).masks = s.masks := by
  induction bs generalizing s a with
  | nil => rfl
  | cons b r ih => simp [hostWrite, ih]
@[simp] theorem hostWrite_commits (s : State) (p a : Nat) (bs : List Byte) : (hostWrite s p a bs).commits = s.commits := by
  induction bs generalizing s a with
  | nil => rfl
  | cons b r ih => simp [hostWrite, ih]
@[simp] theorem hostWrite_dict (s : State) (p a : Nat) (bs : List Byte) : (hostWrite s p a bs).dict = s.dict := by
  induction bs generalizing s a with
  | nil => rfl
  | cons b r ih => simp [hostWrite, ih]
@[simp] theorem hostWrite_trust (s : State) (p a : Nat) (bs : List Byte) : (hostWrite s p a bs).trust = s.trust := by
  induction bs generalizing s a with
  | nil => rfl
  | cons b r ih => simp [hostWrite, ih]
@[simp] theorem hostWrite_power (s : State) (p a : Nat) (bs : List Byte) : (hostWrite s p a bs).power = s.power := by
  induction bs generalizing s a with
  | nil => rfl
  | cons b r ih => simp [hostWrite, ih]
@[simp] theorem hostWrite_mem (s : State) (p a : Nat) (bs : List Byte) : (hostWrite s p a bs).mem = s.mem := by
  induction bs generalizing s a with
  | nil => rfl
  | cons b r ih => simp [hostWrite, ih]
@[simp] theorem hostWrite_poison (s : State) (p a : Nat) (bs : List Byte) : (hostWrite s p a bs).poison = s.poison := by
  induction bs generalizing s a with
  | nil => rfl
  | cons b r ih => simp [hostWrite, ih]
@[simp] theorem hostWrite_free (s : State) (p a : Nat) (bs : List Byte) : (hostWrite s p a bs).free = s.free := by
  induction bs generalizing s a with
  | nil => rfl
  | cons b r ih => simp [hostWrite, ih]
@[simp] theorem cacheXl_pending (s : State) (f j v : Nat) : (cacheXl s f j v).pending = s.pending := by unfold cacheXl; generalize cacheAfter s f j v = x; rfl
@[simp] theorem cacheXl_time (s : State) (f j v : Nat) : (cacheXl s f j v).time = s.time := by unfold cacheXl; generalize cacheAfter s f j v = x; rfl
@[simp] theorem cacheXl_paths (s : State) (f j v : Nat) : (cacheXl s f j v).paths = s.paths := by unfold cacheXl; generalize cacheAfter s f j v = x; rfl
@[simp] theorem cacheXl_ports (s : State) (f j v : Nat) : (cacheXl s f j v).ports = s.ports := by unfold cacheXl; generalize cacheAfter s f j v = x; rfl
@[simp] theorem cacheXl_hosts (s : State) (f j v : Nat) : (cacheXl s f j v).hosts = s.hosts := by unfold cacheXl; generalize cacheAfter s f j v = x; rfl
@[simp] theorem cacheXl_funcs (s : State) (f j v : Nat) : (cacheXl s f j v).funcs = s.funcs := by unfold cacheXl; generalize cacheAfter s f j v = x; rfl
@[simp] theorem cacheXl_homePort (s : State) (f j v : Nat) : (cacheXl s f j v).homePort = s.homePort := by unfold cacheXl; generalize cacheAfter s f j v = x; rfl
@[simp] theorem cacheXl_assign (s : State) (f j v : Nat) : (cacheXl s f j v).assign = s.assign := by unfold cacheXl; generalize cacheAfter s f j v = x; rfl
@[simp] theorem cacheXl_queues (s : State) (f j v : Nat) : (cacheXl s f j v).queues = s.queues := by unfold cacheXl; generalize cacheAfter s f j v = x; rfl
@[simp] theorem cacheXl_sems (s : State) (f j v : Nat) : (cacheXl s f j v).sems = s.sems := by unfold cacheXl; generalize cacheAfter s f j v = x; rfl
@[simp] theorem cacheXl_jobs (s : State) (f j v : Nat) : (cacheXl s f j v).jobs = s.jobs := by unfold cacheXl; generalize cacheAfter s f j v = x; rfl
@[simp] theorem cacheXl_redJobs (s : State) (f j v : Nat) : (cacheXl s f j v).redJobs = s.redJobs := by unfold cacheXl; generalize cacheAfter s f j v = x; rfl
@[simp] theorem cacheXl_ctxs (s : State) (f j v : Nat) : (cacheXl s f j v).ctxs = s.ctxs := by unfold cacheXl; generalize cacheAfter s f j v = x; rfl
@[simp] theorem cacheXl_aborts (s : State) (f j v : Nat) : (cacheXl s f j v).aborts = s.aborts := by unfold cacheXl; generalize cacheAfter s f j v = x; rfl
@[simp] theorem cacheXl_abortStatus (s : State) (f j v : Nat) : (cacheXl s f j v).abortStatus = s.abortStatus := by unfold cacheXl; generalize cacheAfter s f j v = x; rfl
@[simp] theorem cacheXl_abtSeen (s : State) (f j v : Nat) : (cacheXl s f j v).abtSeen = s.abtSeen := by unfold cacheXl; generalize cacheAfter s f j v = x; rfl
@[simp] theorem cacheXl_arrays (s : State) (f j v : Nat) : (cacheXl s f j v).arrays = s.arrays := by unfold cacheXl; generalize cacheAfter s f j v = x; rfl
@[simp] theorem cacheXl_repairStatus (s : State) (f j v : Nat) : (cacheXl s f j v).repairStatus = s.repairStatus := by unfold cacheXl; generalize cacheAfter s f j v = x; rfl
@[simp] theorem cacheXl_samples (s : State) (f j v : Nat) : (cacheXl s f j v).samples = s.samples := by unfold cacheXl; generalize cacheAfter s f j v = x; rfl
@[simp] theorem cacheXl_load (s : State) (f j v : Nat) : (cacheXl s f j v).load = s.load := by unfold cacheXl; generalize cacheAfter s f j v = x; rfl
@[simp] theorem cacheXl_turns (s : State) (f j v : Nat) : (cacheXl s f j v).turns = s.turns := by unfold cacheXl; generalize cacheAfter s f j v = x; rfl
@[simp] theorem cacheXl_masks (s : State) (f j v : Nat) : (cacheXl s f j v).masks = s.masks := by unfold cacheXl; generalize cacheAfter s f j v = x; rfl
@[simp] theorem cacheXl_commits (s : State) (f j v : Nat) : (cacheXl s f j v).commits = s.commits := by unfold cacheXl; generalize cacheAfter s f j v = x; rfl
@[simp] theorem cacheXl_dict (s : State) (f j v : Nat) : (cacheXl s f j v).dict = s.dict := by unfold cacheXl; generalize cacheAfter s f j v = x; rfl
@[simp] theorem cacheXl_trust (s : State) (f j v : Nat) : (cacheXl s f j v).trust = s.trust := by unfold cacheXl; generalize cacheAfter s f j v = x; rfl
@[simp] theorem cacheXl_power (s : State) (f j v : Nat) : (cacheXl s f j v).power = s.power := by unfold cacheXl; generalize cacheAfter s f j v = x; rfl
@[simp] theorem cacheXl_mem (s : State) (f j v : Nat) : (cacheXl s f j v).mem = s.mem := by unfold cacheXl; generalize cacheAfter s f j v = x; rfl
@[simp] theorem cacheXl_poison (s : State) (f j v : Nat) : (cacheXl s f j v).poison = s.poison := by unfold cacheXl; generalize cacheAfter s f j v = x; rfl
@[simp] theorem cacheXl_hostMem (s : State) (f j v : Nat) : (cacheXl s f j v).hostMem = s.hostMem := by unfold cacheXl; generalize cacheAfter s f j v = x; rfl
@[simp] theorem cacheXl_free (s : State) (f j v : Nat) : (cacheXl s f j v).free = s.free := by unfold cacheXl; generalize cacheAfter s f j v = x; rfl
@[simp] theorem touchPage_pending (s : State) (a n : Nat) (l : Option Nat) : (touchPage s a n l).pending = s.pending := by cases l <;> rfl
@[simp] theorem touchPage_time (s : State) (a n : Nat) (l : Option Nat) : (touchPage s a n l).time = s.time := by cases l <;> rfl
@[simp] theorem touchPage_paths (s : State) (a n : Nat) (l : Option Nat) : (touchPage s a n l).paths = s.paths := by cases l <;> rfl
@[simp] theorem touchPage_ports (s : State) (a n : Nat) (l : Option Nat) : (touchPage s a n l).ports = s.ports := by cases l <;> rfl
@[simp] theorem touchPage_hosts (s : State) (a n : Nat) (l : Option Nat) : (touchPage s a n l).hosts = s.hosts := by cases l <;> rfl
@[simp] theorem touchPage_funcs (s : State) (a n : Nat) (l : Option Nat) : (touchPage s a n l).funcs = s.funcs := by cases l <;> rfl
@[simp] theorem touchPage_homePort (s : State) (a n : Nat) (l : Option Nat) : (touchPage s a n l).homePort = s.homePort := by cases l <;> rfl
@[simp] theorem touchPage_assign (s : State) (a n : Nat) (l : Option Nat) : (touchPage s a n l).assign = s.assign := by cases l <;> rfl
@[simp] theorem touchPage_queues (s : State) (a n : Nat) (l : Option Nat) : (touchPage s a n l).queues = s.queues := by cases l <;> rfl
@[simp] theorem touchPage_sems (s : State) (a n : Nat) (l : Option Nat) : (touchPage s a n l).sems = s.sems := by cases l <;> rfl
@[simp] theorem touchPage_jobs (s : State) (a n : Nat) (l : Option Nat) : (touchPage s a n l).jobs = s.jobs := by cases l <;> rfl
@[simp] theorem touchPage_redJobs (s : State) (a n : Nat) (l : Option Nat) : (touchPage s a n l).redJobs = s.redJobs := by cases l <;> rfl
@[simp] theorem touchPage_ctxs (s : State) (a n : Nat) (l : Option Nat) : (touchPage s a n l).ctxs = s.ctxs := by cases l <;> rfl
@[simp] theorem touchPage_aborts (s : State) (a n : Nat) (l : Option Nat) : (touchPage s a n l).aborts = s.aborts := by cases l <;> rfl
@[simp] theorem touchPage_abortStatus (s : State) (a n : Nat) (l : Option Nat) : (touchPage s a n l).abortStatus = s.abortStatus := by cases l <;> rfl
@[simp] theorem touchPage_abtSeen (s : State) (a n : Nat) (l : Option Nat) : (touchPage s a n l).abtSeen = s.abtSeen := by cases l <;> rfl
@[simp] theorem touchPage_arrays (s : State) (a n : Nat) (l : Option Nat) : (touchPage s a n l).arrays = s.arrays := by cases l <;> rfl
@[simp] theorem touchPage_repairStatus (s : State) (a n : Nat) (l : Option Nat) : (touchPage s a n l).repairStatus = s.repairStatus := by cases l <;> rfl
@[simp] theorem touchPage_samples (s : State) (a n : Nat) (l : Option Nat) : (touchPage s a n l).samples = s.samples := by cases l <;> rfl
@[simp] theorem touchPage_load (s : State) (a n : Nat) (l : Option Nat) : (touchPage s a n l).load = s.load := by cases l <;> rfl
@[simp] theorem touchPage_turns (s : State) (a n : Nat) (l : Option Nat) : (touchPage s a n l).turns = s.turns := by cases l <;> rfl
@[simp] theorem touchPage_masks (s : State) (a n : Nat) (l : Option Nat) : (touchPage s a n l).masks = s.masks := by cases l <;> rfl
@[simp] theorem touchPage_commits (s : State) (a n : Nat) (l : Option Nat) : (touchPage s a n l).commits = s.commits := by cases l <;> rfl
@[simp] theorem touchPage_dict (s : State) (a n : Nat) (l : Option Nat) : (touchPage s a n l).dict = s.dict := by cases l <;> rfl
@[simp] theorem touchPage_trust (s : State) (a n : Nat) (l : Option Nat) : (touchPage s a n l).trust = s.trust := by cases l <;> rfl
@[simp] theorem touchPage_power (s : State) (a n : Nat) (l : Option Nat) : (touchPage s a n l).power = s.power := by cases l <;> rfl
@[simp] theorem touchPage_mem (s : State) (a n : Nat) (l : Option Nat) : (touchPage s a n l).mem = s.mem := by cases l <;> rfl
@[simp] theorem touchPage_poison (s : State) (a n : Nat) (l : Option Nat) : (touchPage s a n l).poison = s.poison := by cases l <;> rfl
@[simp] theorem touchPage_hostMem (s : State) (a n : Nat) (l : Option Nat) : (touchPage s a n l).hostMem = s.hostMem := by cases l <;> rfl
@[simp] theorem touchPage_free (s : State) (a n : Nat) (l : Option Nat) : (touchPage s a n l).free = s.free := by cases l <;> rfl
@[simp] theorem physWrite_pending (s : State) (a : Nat) (bs : List Byte) : (physWrite s a bs).pending = s.pending := rfl
@[simp] theorem physWrite_time (s : State) (a : Nat) (bs : List Byte) : (physWrite s a bs).time = s.time := rfl
@[simp] theorem physWrite_paths (s : State) (a : Nat) (bs : List Byte) : (physWrite s a bs).paths = s.paths := rfl
@[simp] theorem physWrite_ports (s : State) (a : Nat) (bs : List Byte) : (physWrite s a bs).ports = s.ports := rfl
@[simp] theorem physWrite_hosts (s : State) (a : Nat) (bs : List Byte) : (physWrite s a bs).hosts = s.hosts := rfl
@[simp] theorem physWrite_funcs (s : State) (a : Nat) (bs : List Byte) : (physWrite s a bs).funcs = s.funcs := rfl
@[simp] theorem physWrite_homePort (s : State) (a : Nat) (bs : List Byte) : (physWrite s a bs).homePort = s.homePort := rfl
@[simp] theorem physWrite_assign (s : State) (a : Nat) (bs : List Byte) : (physWrite s a bs).assign = s.assign := rfl
@[simp] theorem physWrite_queues (s : State) (a : Nat) (bs : List Byte) : (physWrite s a bs).queues = s.queues := rfl
@[simp] theorem physWrite_sems (s : State) (a : Nat) (bs : List Byte) : (physWrite s a bs).sems = s.sems := rfl
@[simp] theorem physWrite_jobs (s : State) (a : Nat) (bs : List Byte) : (physWrite s a bs).jobs = s.jobs := rfl
@[simp] theorem physWrite_redJobs (s : State) (a : Nat) (bs : List Byte) : (physWrite s a bs).redJobs = s.redJobs := rfl
@[simp] theorem physWrite_ctxs (s : State) (a : Nat) (bs : List Byte) : (physWrite s a bs).ctxs = s.ctxs := rfl
@[simp] theorem physWrite_aborts (s : State) (a : Nat) (bs : List Byte) : (physWrite s a bs).aborts = s.aborts := rfl
@[simp] theorem physWrite_abortStatus (s : State) (a : Nat) (bs : List Byte) : (physWrite s a bs).abortStatus = s.abortStatus := rfl
@[simp] theorem physWrite_abtSeen (s : State) (a : Nat) (bs : List Byte) : (physWrite s a bs).abtSeen = s.abtSeen := rfl
@[simp] theorem physWrite_arrays (s : State) (a : Nat) (bs : List Byte) : (physWrite s a bs).arrays = s.arrays := rfl
@[simp] theorem physWrite_repairStatus (s : State) (a : Nat) (bs : List Byte) : (physWrite s a bs).repairStatus = s.repairStatus := rfl
@[simp] theorem physWrite_samples (s : State) (a : Nat) (bs : List Byte) : (physWrite s a bs).samples = s.samples := rfl
@[simp] theorem physWrite_masks (s : State) (a : Nat) (bs : List Byte) : (physWrite s a bs).masks = s.masks := rfl
@[simp] theorem physWrite_commits (s : State) (a : Nat) (bs : List Byte) : (physWrite s a bs).commits = s.commits := rfl
@[simp] theorem physWrite_dict (s : State) (a : Nat) (bs : List Byte) : (physWrite s a bs).dict = s.dict := rfl
@[simp] theorem physWrite_trust (s : State) (a : Nat) (bs : List Byte) : (physWrite s a bs).trust = s.trust := rfl
@[simp] theorem physWrite_power (s : State) (a : Nat) (bs : List Byte) : (physWrite s a bs).power = s.power := rfl
@[simp] theorem physWrite_hostMem (s : State) (a : Nat) (bs : List Byte) : (physWrite s a bs).hostMem = s.hostMem := rfl
@[simp] theorem physWrite_free (s : State) (a : Nat) (bs : List Byte) : (physWrite s a bs).free = s.free := rfl
theorem vWrite_ok_pending {s t : State} {f job va : Nat} {bs : List Byte} {tier : Option Nat} (h : vWrite s f job va bs tier = .ok t) : t.pending = s.pending :=
  vWrite_ok_keeps (fun u => u.pending = s.pending) (fun _ _ _ e => (physWrite_pending ..).trans e) (fun _ _ _ _ e => (hostWrite_pending ..).trans e) (fun _ _ _ _ e => (touchPage_pending ..).trans e) (fun _ _ _ _ e => (cacheXl_pending ..).trans e) h rfl
theorem vWrite_ok_time {s t : State} {f job va : Nat} {bs : List Byte} {tier : Option Nat} (h : vWrite s f job va bs tier = .ok t) : t.time = s.time :=
  vWrite_ok_keeps (fun u => u.time = s.time) (fun _ _ _ e => (physWrite_time ..).trans e) (fun _ _ _ _ e => (hostWrite_time ..).trans e) (fun _ _ _ _ e => (touchPage_time ..).trans e) (fun _ _ _ _ e => (cacheXl_time ..).trans e) h rfl
theorem vWrite_ok_paths {s t : State} {f job va : Nat} {bs : List Byte} {tier : Option Nat} (h : vWrite s f job va bs tier = .ok t) : t.paths = s.paths :=
  vWrite_ok_keeps (fun u => u.paths = s.paths) (fun _ _ _ e => (physWrite_paths ..).trans e) (fun _ _ _ _ e => (hostWrite_paths ..).trans e) (fun _ _ _ _ e => (touchPage_paths ..).trans e) (fun _ _ _ _ e => (cacheXl_paths ..).trans e) h rfl
theorem vWrite_ok_ports {s t : State} {f job va : Nat} {bs : List Byte} {tier : Option Nat} (h : vWrite s f job va bs tier = .ok t) : t.ports = s.ports :=
  vWrite_ok_keeps (fun u => u.ports = s.ports) (fun _ _ _ e => (physWrite_ports ..).trans e) (fun _ _ _ _ e => (hostWrite_ports ..).trans e) (fun _ _ _ _ e => (touchPage_ports ..).trans e) (fun _ _ _ _ e => (cacheXl_ports ..).trans e) h rfl
theorem vWrite_ok_hosts {s t : State} {f job va : Nat} {bs : List Byte} {tier : Option Nat} (h : vWrite s f job va bs tier = .ok t) : t.hosts = s.hosts :=
  vWrite_ok_keeps (fun u => u.hosts = s.hosts) (fun _ _ _ e => (physWrite_hosts ..).trans e) (fun _ _ _ _ e => (hostWrite_hosts ..).trans e) (fun _ _ _ _ e => (touchPage_hosts ..).trans e) (fun _ _ _ _ e => (cacheXl_hosts ..).trans e) h rfl
theorem vWrite_ok_funcs {s t : State} {f job va : Nat} {bs : List Byte} {tier : Option Nat} (h : vWrite s f job va bs tier = .ok t) : t.funcs = s.funcs :=
  vWrite_ok_keeps (fun u => u.funcs = s.funcs) (fun _ _ _ e => (physWrite_funcs ..).trans e) (fun _ _ _ _ e => (hostWrite_funcs ..).trans e) (fun _ _ _ _ e => (touchPage_funcs ..).trans e) (fun _ _ _ _ e => (cacheXl_funcs ..).trans e) h rfl
theorem vWrite_ok_homePort {s t : State} {f job va : Nat} {bs : List Byte} {tier : Option Nat} (h : vWrite s f job va bs tier = .ok t) : t.homePort = s.homePort :=
  vWrite_ok_keeps (fun u => u.homePort = s.homePort) (fun _ _ _ e => (physWrite_homePort ..).trans e) (fun _ _ _ _ e => (hostWrite_homePort ..).trans e) (fun _ _ _ _ e => (touchPage_homePort ..).trans e) (fun _ _ _ _ e => (cacheXl_homePort ..).trans e) h rfl
theorem vWrite_ok_assign {s t : State} {f job va : Nat} {bs : List Byte} {tier : Option Nat} (h : vWrite s f job va bs tier = .ok t) : t.assign = s.assign :=
  vWrite_ok_keeps (fun u => u.assign = s.assign) (fun _ _ _ e => (physWrite_assign ..).trans e) (fun _ _ _ _ e => (hostWrite_assign ..).trans e) (fun _ _ _ _ e => (touchPage_assign ..).trans e) (fun _ _ _ _ e => (cacheXl_assign ..).trans e) h rfl
theorem vWrite_ok_queues {s t : State} {f job va : Nat} {bs : List Byte} {tier : Option Nat} (h : vWrite s f job va bs tier = .ok t) : t.queues = s.queues :=
  vWrite_ok_keeps (fun u => u.queues = s.queues) (fun _ _ _ e => (physWrite_queues ..).trans e) (fun _ _ _ _ e => (hostWrite_queues ..).trans e) (fun _ _ _ _ e => (touchPage_queues ..).trans e) (fun _ _ _ _ e => (cacheXl_queues ..).trans e) h rfl
theorem vWrite_ok_sems {s t : State} {f job va : Nat} {bs : List Byte} {tier : Option Nat} (h : vWrite s f job va bs tier = .ok t) : t.sems = s.sems :=
  vWrite_ok_keeps (fun u => u.sems = s.sems) (fun _ _ _ e => (physWrite_sems ..).trans e) (fun _ _ _ _ e => (hostWrite_sems ..).trans e) (fun _ _ _ _ e => (touchPage_sems ..).trans e) (fun _ _ _ _ e => (cacheXl_sems ..).trans e) h rfl
theorem vWrite_ok_jobs {s t : State} {f job va : Nat} {bs : List Byte} {tier : Option Nat} (h : vWrite s f job va bs tier = .ok t) : t.jobs = s.jobs :=
  vWrite_ok_keeps (fun u => u.jobs = s.jobs) (fun _ _ _ e => (physWrite_jobs ..).trans e) (fun _ _ _ _ e => (hostWrite_jobs ..).trans e) (fun _ _ _ _ e => (touchPage_jobs ..).trans e) (fun _ _ _ _ e => (cacheXl_jobs ..).trans e) h rfl
theorem vWrite_ok_redJobs {s t : State} {f job va : Nat} {bs : List Byte} {tier : Option Nat} (h : vWrite s f job va bs tier = .ok t) : t.redJobs = s.redJobs :=
  vWrite_ok_keeps (fun u => u.redJobs = s.redJobs) (fun _ _ _ e => (physWrite_redJobs ..).trans e) (fun _ _ _ _ e => (hostWrite_redJobs ..).trans e) (fun _ _ _ _ e => (touchPage_redJobs ..).trans e) (fun _ _ _ _ e => (cacheXl_redJobs ..).trans e) h rfl
theorem vWrite_ok_ctxs {s t : State} {f job va : Nat} {bs : List Byte} {tier : Option Nat} (h : vWrite s f job va bs tier = .ok t) : t.ctxs = s.ctxs :=
  vWrite_ok_keeps (fun u => u.ctxs = s.ctxs) (fun _ _ _ e => (physWrite_ctxs ..).trans e) (fun _ _ _ _ e => (hostWrite_ctxs ..).trans e) (fun _ _ _ _ e => (touchPage_ctxs ..).trans e) (fun _ _ _ _ e => (cacheXl_ctxs ..).trans e) h rfl
theorem vWrite_ok_aborts {s t : State} {f job va : Nat} {bs : List Byte} {tier : Option Nat} (h : vWrite s f job va bs tier = .ok t) : t.aborts = s.aborts :=
  vWrite_ok_keeps (fun u => u.aborts = s.aborts) (fun _ _ _ e => (physWrite_aborts ..).trans e) (fun _ _ _ _ e => (hostWrite_aborts ..).trans e) (fun _ _ _ _ e => (touchPage_aborts ..).trans e) (fun _ _ _ _ e => (cacheXl_aborts ..).trans e) h rfl
theorem vWrite_ok_abortStatus {s t : State} {f job va : Nat} {bs : List Byte} {tier : Option Nat} (h : vWrite s f job va bs tier = .ok t) : t.abortStatus = s.abortStatus :=
  vWrite_ok_keeps (fun u => u.abortStatus = s.abortStatus) (fun _ _ _ e => (physWrite_abortStatus ..).trans e) (fun _ _ _ _ e => (hostWrite_abortStatus ..).trans e) (fun _ _ _ _ e => (touchPage_abortStatus ..).trans e) (fun _ _ _ _ e => (cacheXl_abortStatus ..).trans e) h rfl
theorem vWrite_ok_abtSeen {s t : State} {f job va : Nat} {bs : List Byte} {tier : Option Nat} (h : vWrite s f job va bs tier = .ok t) : t.abtSeen = s.abtSeen :=
  vWrite_ok_keeps (fun u => u.abtSeen = s.abtSeen) (fun _ _ _ e => (physWrite_abtSeen ..).trans e) (fun _ _ _ _ e => (hostWrite_abtSeen ..).trans e) (fun _ _ _ _ e => (touchPage_abtSeen ..).trans e) (fun _ _ _ _ e => (cacheXl_abtSeen ..).trans e) h rfl
theorem vWrite_ok_arrays {s t : State} {f job va : Nat} {bs : List Byte} {tier : Option Nat} (h : vWrite s f job va bs tier = .ok t) : t.arrays = s.arrays :=
  vWrite_ok_keeps (fun u => u.arrays = s.arrays) (fun _ _ _ e => (physWrite_arrays ..).trans e) (fun _ _ _ _ e => (hostWrite_arrays ..).trans e) (fun _ _ _ _ e => (touchPage_arrays ..).trans e) (fun _ _ _ _ e => (cacheXl_arrays ..).trans e) h rfl
theorem vWrite_ok_repairStatus {s t : State} {f job va : Nat} {bs : List Byte} {tier : Option Nat} (h : vWrite s f job va bs tier = .ok t) : t.repairStatus = s.repairStatus :=
  vWrite_ok_keeps (fun u => u.repairStatus = s.repairStatus) (fun _ _ _ e => (physWrite_repairStatus ..).trans e) (fun _ _ _ _ e => (hostWrite_repairStatus ..).trans e) (fun _ _ _ _ e => (touchPage_repairStatus ..).trans e) (fun _ _ _ _ e => (cacheXl_repairStatus ..).trans e) h rfl
theorem vWrite_ok_samples {s t : State} {f job va : Nat} {bs : List Byte} {tier : Option Nat} (h : vWrite s f job va bs tier = .ok t) : t.samples = s.samples :=
  vWrite_ok_keeps (fun u => u.samples = s.samples) (fun _ _ _ e => (physWrite_samples ..).trans e) (fun _ _ _ _ e => (hostWrite_samples ..).trans e) (fun _ _ _ _ e => (touchPage_samples ..).trans e) (fun _ _ _ _ e => (cacheXl_samples ..).trans e) h rfl
theorem vWrite_ok_masks {s t : State} {f job va : Nat} {bs : List Byte} {tier : Option Nat} (h : vWrite s f job va bs tier = .ok t) : t.masks = s.masks :=
  vWrite_ok_keeps (fun u => u.masks = s.masks) (fun _ _ _ e => (physWrite_masks ..).trans e) (fun _ _ _ _ e => (hostWrite_masks ..).trans e) (fun _ _ _ _ e => (touchPage_masks ..).trans e) (fun _ _ _ _ e => (cacheXl_masks ..).trans e) h rfl
theorem vWrite_ok_commits {s t : State} {f job va : Nat} {bs : List Byte} {tier : Option Nat} (h : vWrite s f job va bs tier = .ok t) : t.commits = s.commits :=
  vWrite_ok_keeps (fun u => u.commits = s.commits) (fun _ _ _ e => (physWrite_commits ..).trans e) (fun _ _ _ _ e => (hostWrite_commits ..).trans e) (fun _ _ _ _ e => (touchPage_commits ..).trans e) (fun _ _ _ _ e => (cacheXl_commits ..).trans e) h rfl
theorem vWrite_ok_dict {s t : State} {f job va : Nat} {bs : List Byte} {tier : Option Nat} (h : vWrite s f job va bs tier = .ok t) : t.dict = s.dict :=
  vWrite_ok_keeps (fun u => u.dict = s.dict) (fun _ _ _ e => (physWrite_dict ..).trans e) (fun _ _ _ _ e => (hostWrite_dict ..).trans e) (fun _ _ _ _ e => (touchPage_dict ..).trans e) (fun _ _ _ _ e => (cacheXl_dict ..).trans e) h rfl
theorem vWrite_ok_trust {s t : State} {f job va : Nat} {bs : List Byte} {tier : Option Nat} (h : vWrite s f job va bs tier = .ok t) : t.trust = s.trust :=
  vWrite_ok_keeps (fun u => u.trust = s.trust) (fun _ _ _ e => (physWrite_trust ..).trans e) (fun _ _ _ _ e => (hostWrite_trust ..).trans e) (fun _ _ _ _ e => (touchPage_trust ..).trans e) (fun _ _ _ _ e => (cacheXl_trust ..).trans e) h rfl
theorem vWrite_ok_power {s t : State} {f job va : Nat} {bs : List Byte} {tier : Option Nat} (h : vWrite s f job va bs tier = .ok t) : t.power = s.power :=
  vWrite_ok_keeps (fun u => u.power = s.power) (fun _ _ _ e => (physWrite_power ..).trans e) (fun _ _ _ _ e => (hostWrite_power ..).trans e) (fun _ _ _ _ e => (touchPage_power ..).trans e) (fun _ _ _ _ e => (cacheXl_power ..).trans e) h rfl
theorem vWrite_ok_free {s t : State} {f job va : Nat} {bs : List Byte} {tier : Option Nat} (h : vWrite s f job va bs tier = .ok t) : t.free = s.free :=
  vWrite_ok_keeps (fun u => u.free = s.free) (fun _ _ _ e => (physWrite_free ..).trans e) (fun _ _ _ _ e => (hostWrite_free ..).trans e) (fun _ _ _ _ e => (touchPage_free ..).trans e) (fun _ _ _ _ e => (cacheXl_free ..).trans e) h rfl
theorem vRead_ok_pending {s t : State} {f job va n : Nat} {b : List Byte} {tier : Option Nat} (h : vRead s f job va n tier = .ok (b, t)) : t.pending = s.pending :=
  vRead_ok_keeps (fun u => u.pending = s.pending) (fun _ _ e => e) (fun _ _ _ _ e => (touchPage_pending ..).trans e) (fun _ _ _ _ e => (cacheXl_pending ..).trans e) h rfl
theorem vRead_ok_time {s t : State} {f job va n : Nat} {b : List Byte} {tier : Option Nat} (h : vRead s f job va n tier = .ok (b, t)) : t.time = s.time :=
  vRead_ok_keeps (fun u => u.time = s.time) (fun _ _ e => e) (fun _ _ _ _ e => (touchPage_time ..).trans e) (fun _ _ _ _ e => (cacheXl_time ..).trans e) h rfl
theorem vRead_ok_paths {s t : State} {f job va n : Nat} {b : List Byte} {tier : Option Nat} (h : vRead s f job va n tier = .ok (b, t)) : t.paths = s.paths :=
  vRead_ok_keeps (fun u => u.paths = s.paths) (fun _ _ e => e) (fun _ _ _ _ e => (touchPage_paths ..).trans e) (fun _ _ _ _ e => (cacheXl_paths ..).trans e) h rfl
theorem vRead_ok_ports {s t : State} {f job va n : Nat} {b : List Byte} {tier : Option Nat} (h : vRead s f job va n tier = .ok (b, t)) : t.ports = s.ports :=
  vRead_ok_keeps (fun u => u.ports = s.ports) (fun _ _ e => e) (fun _ _ _ _ e => (touchPage_ports ..).trans e) (fun _ _ _ _ e => (cacheXl_ports ..).trans e) h rfl
theorem vRead_ok_hosts {s t : State} {f job va n : Nat} {b : List Byte} {tier : Option Nat} (h : vRead s f job va n tier = .ok (b, t)) : t.hosts = s.hosts :=
  vRead_ok_keeps (fun u => u.hosts = s.hosts) (fun _ _ e => e) (fun _ _ _ _ e => (touchPage_hosts ..).trans e) (fun _ _ _ _ e => (cacheXl_hosts ..).trans e) h rfl
theorem vRead_ok_funcs {s t : State} {f job va n : Nat} {b : List Byte} {tier : Option Nat} (h : vRead s f job va n tier = .ok (b, t)) : t.funcs = s.funcs :=
  vRead_ok_keeps (fun u => u.funcs = s.funcs) (fun _ _ e => e) (fun _ _ _ _ e => (touchPage_funcs ..).trans e) (fun _ _ _ _ e => (cacheXl_funcs ..).trans e) h rfl
theorem vRead_ok_homePort {s t : State} {f job va n : Nat} {b : List Byte} {tier : Option Nat} (h : vRead s f job va n tier = .ok (b, t)) : t.homePort = s.homePort :=
  vRead_ok_keeps (fun u => u.homePort = s.homePort) (fun _ _ e => e) (fun _ _ _ _ e => (touchPage_homePort ..).trans e) (fun _ _ _ _ e => (cacheXl_homePort ..).trans e) h rfl
theorem vRead_ok_assign {s t : State} {f job va n : Nat} {b : List Byte} {tier : Option Nat} (h : vRead s f job va n tier = .ok (b, t)) : t.assign = s.assign :=
  vRead_ok_keeps (fun u => u.assign = s.assign) (fun _ _ e => e) (fun _ _ _ _ e => (touchPage_assign ..).trans e) (fun _ _ _ _ e => (cacheXl_assign ..).trans e) h rfl
theorem vRead_ok_queues {s t : State} {f job va n : Nat} {b : List Byte} {tier : Option Nat} (h : vRead s f job va n tier = .ok (b, t)) : t.queues = s.queues :=
  vRead_ok_keeps (fun u => u.queues = s.queues) (fun _ _ e => e) (fun _ _ _ _ e => (touchPage_queues ..).trans e) (fun _ _ _ _ e => (cacheXl_queues ..).trans e) h rfl
theorem vRead_ok_sems {s t : State} {f job va n : Nat} {b : List Byte} {tier : Option Nat} (h : vRead s f job va n tier = .ok (b, t)) : t.sems = s.sems :=
  vRead_ok_keeps (fun u => u.sems = s.sems) (fun _ _ e => e) (fun _ _ _ _ e => (touchPage_sems ..).trans e) (fun _ _ _ _ e => (cacheXl_sems ..).trans e) h rfl
theorem vRead_ok_jobs {s t : State} {f job va n : Nat} {b : List Byte} {tier : Option Nat} (h : vRead s f job va n tier = .ok (b, t)) : t.jobs = s.jobs :=
  vRead_ok_keeps (fun u => u.jobs = s.jobs) (fun _ _ e => e) (fun _ _ _ _ e => (touchPage_jobs ..).trans e) (fun _ _ _ _ e => (cacheXl_jobs ..).trans e) h rfl
theorem vRead_ok_redJobs {s t : State} {f job va n : Nat} {b : List Byte} {tier : Option Nat} (h : vRead s f job va n tier = .ok (b, t)) : t.redJobs = s.redJobs :=
  vRead_ok_keeps (fun u => u.redJobs = s.redJobs) (fun _ _ e => e) (fun _ _ _ _ e => (touchPage_redJobs ..).trans e) (fun _ _ _ _ e => (cacheXl_redJobs ..).trans e) h rfl
theorem vRead_ok_ctxs {s t : State} {f job va n : Nat} {b : List Byte} {tier : Option Nat} (h : vRead s f job va n tier = .ok (b, t)) : t.ctxs = s.ctxs :=
  vRead_ok_keeps (fun u => u.ctxs = s.ctxs) (fun _ _ e => e) (fun _ _ _ _ e => (touchPage_ctxs ..).trans e) (fun _ _ _ _ e => (cacheXl_ctxs ..).trans e) h rfl
theorem vRead_ok_aborts {s t : State} {f job va n : Nat} {b : List Byte} {tier : Option Nat} (h : vRead s f job va n tier = .ok (b, t)) : t.aborts = s.aborts :=
  vRead_ok_keeps (fun u => u.aborts = s.aborts) (fun _ _ e => e) (fun _ _ _ _ e => (touchPage_aborts ..).trans e) (fun _ _ _ _ e => (cacheXl_aborts ..).trans e) h rfl
theorem vRead_ok_abortStatus {s t : State} {f job va n : Nat} {b : List Byte} {tier : Option Nat} (h : vRead s f job va n tier = .ok (b, t)) : t.abortStatus = s.abortStatus :=
  vRead_ok_keeps (fun u => u.abortStatus = s.abortStatus) (fun _ _ e => e) (fun _ _ _ _ e => (touchPage_abortStatus ..).trans e) (fun _ _ _ _ e => (cacheXl_abortStatus ..).trans e) h rfl
theorem vRead_ok_abtSeen {s t : State} {f job va n : Nat} {b : List Byte} {tier : Option Nat} (h : vRead s f job va n tier = .ok (b, t)) : t.abtSeen = s.abtSeen :=
  vRead_ok_keeps (fun u => u.abtSeen = s.abtSeen) (fun _ _ e => e) (fun _ _ _ _ e => (touchPage_abtSeen ..).trans e) (fun _ _ _ _ e => (cacheXl_abtSeen ..).trans e) h rfl
theorem vRead_ok_arrays {s t : State} {f job va n : Nat} {b : List Byte} {tier : Option Nat} (h : vRead s f job va n tier = .ok (b, t)) : t.arrays = s.arrays :=
  vRead_ok_keeps (fun u => u.arrays = s.arrays) (fun _ _ e => e) (fun _ _ _ _ e => (touchPage_arrays ..).trans e) (fun _ _ _ _ e => (cacheXl_arrays ..).trans e) h rfl
theorem vRead_ok_repairStatus {s t : State} {f job va n : Nat} {b : List Byte} {tier : Option Nat} (h : vRead s f job va n tier = .ok (b, t)) : t.repairStatus = s.repairStatus :=
  vRead_ok_keeps (fun u => u.repairStatus = s.repairStatus) (fun _ _ e => e) (fun _ _ _ _ e => (touchPage_repairStatus ..).trans e) (fun _ _ _ _ e => (cacheXl_repairStatus ..).trans e) h rfl
theorem vRead_ok_samples {s t : State} {f job va n : Nat} {b : List Byte} {tier : Option Nat} (h : vRead s f job va n tier = .ok (b, t)) : t.samples = s.samples :=
  vRead_ok_keeps (fun u => u.samples = s.samples) (fun _ _ e => e) (fun _ _ _ _ e => (touchPage_samples ..).trans e) (fun _ _ _ _ e => (cacheXl_samples ..).trans e) h rfl
theorem vRead_ok_masks {s t : State} {f job va n : Nat} {b : List Byte} {tier : Option Nat} (h : vRead s f job va n tier = .ok (b, t)) : t.masks = s.masks :=
  vRead_ok_keeps (fun u => u.masks = s.masks) (fun _ _ e => e) (fun _ _ _ _ e => (touchPage_masks ..).trans e) (fun _ _ _ _ e => (cacheXl_masks ..).trans e) h rfl
theorem vRead_ok_commits {s t : State} {f job va n : Nat} {b : List Byte} {tier : Option Nat} (h : vRead s f job va n tier = .ok (b, t)) : t.commits = s.commits :=
  vRead_ok_keeps (fun u => u.commits = s.commits) (fun _ _ e => e) (fun _ _ _ _ e => (touchPage_commits ..).trans e) (fun _ _ _ _ e => (cacheXl_commits ..).trans e) h rfl
theorem vRead_ok_dict {s t : State} {f job va n : Nat} {b : List Byte} {tier : Option Nat} (h : vRead s f job va n tier = .ok (b, t)) : t.dict = s.dict :=
  vRead_ok_keeps (fun u => u.dict = s.dict) (fun _ _ e => e) (fun _ _ _ _ e => (touchPage_dict ..).trans e) (fun _ _ _ _ e => (cacheXl_dict ..).trans e) h rfl
theorem vRead_ok_trust {s t : State} {f job va n : Nat} {b : List Byte} {tier : Option Nat} (h : vRead s f job va n tier = .ok (b, t)) : t.trust = s.trust :=
  vRead_ok_keeps (fun u => u.trust = s.trust) (fun _ _ e => e) (fun _ _ _ _ e => (touchPage_trust ..).trans e) (fun _ _ _ _ e => (cacheXl_trust ..).trans e) h rfl
theorem vRead_ok_power {s t : State} {f job va n : Nat} {b : List Byte} {tier : Option Nat} (h : vRead s f job va n tier = .ok (b, t)) : t.power = s.power :=
  vRead_ok_keeps (fun u => u.power = s.power) (fun _ _ e => e) (fun _ _ _ _ e => (touchPage_power ..).trans e) (fun _ _ _ _ e => (cacheXl_power ..).trans e) h rfl
theorem vRead_ok_mem {s t : State} {f job va n : Nat} {b : List Byte} {tier : Option Nat} (h : vRead s f job va n tier = .ok (b, t)) : t.mem = s.mem :=
  vRead_ok_keeps (fun u => u.mem = s.mem) (fun _ _ e => e) (fun _ _ _ _ e => (touchPage_mem ..).trans e) (fun _ _ _ _ e => (cacheXl_mem ..).trans e) h rfl
theorem vRead_ok_poison {s t : State} {f job va n : Nat} {b : List Byte} {tier : Option Nat} (h : vRead s f job va n tier = .ok (b, t)) : t.poison = s.poison :=
  vRead_ok_keeps (fun u => u.poison = s.poison) (fun _ _ e => e) (fun _ _ _ _ e => (touchPage_poison ..).trans e) (fun _ _ _ _ e => (cacheXl_poison ..).trans e) h rfl
theorem vRead_ok_hostMem {s t : State} {f job va n : Nat} {b : List Byte} {tier : Option Nat} (h : vRead s f job va n tier = .ok (b, t)) : t.hostMem = s.hostMem :=
  vRead_ok_keeps (fun u => u.hostMem = s.hostMem) (fun _ _ e => e) (fun _ _ _ _ e => (touchPage_hostMem ..).trans e) (fun _ _ _ _ e => (cacheXl_hostMem ..).trans e) h rfl

/-- A write of virtual memory keeps the canonical form of memory. -/
theorem wf_vWrite {s t : State} {f job va : Nat} {bs : List Byte} {tier : Option Nat} (h : vWrite s f job va bs tier = .ok t)
    (h0 : Memory.wf s.mem = true) : Memory.wf t.mem = true :=
  vWrite_ok_keeps (fun u => Memory.wf u.mem = true) (fun _ a bs e => wf_physWrite a bs e) (fun _ _ _ _ e => by simpa using e)
    (fun _ _ _ _ e => by simpa using e) (fun _ _ _ _ e => e) h h0

end Sys2Proof.Machine
end

