-- ==== Sys2Proof/Laws/Frames1.lean ====
section
/-! SUPPORT. What the shared operations leave alone, one equation for each operation and field (first part). -/

set_option linter.unusedTactic false
set_option linter.unreachableTactic false
set_option linter.unusedSimpArgs false

namespace Sys2Proof.Machine

@[simp] theorem state_ite_pending (c : Prop) [Decidable c] (a b : State) : (if c then a else b).pending = if c then a.pending else b.pending := by split <;> rfl
@[simp] theorem foldl_pending {α : Type} (g : State → α → State) (h : ∀ s a, (g s a).pending = s.pending) (l : List α) (s : State) : (l.foldl g s).pending = s.pending := by induction l generalizing s <;> simp_all
@[simp] theorem state_ite_mem (c : Prop) [Decidable c] (a b : State) : (if c then a else b).mem = if c then a.mem else b.mem := by split <;> rfl
@[simp] theorem foldl_mem {α : Type} (g : State → α → State) (h : ∀ s a, (g s a).mem = s.mem) (l : List α) (s : State) : (l.foldl g s).mem = s.mem := by induction l generalizing s <;> simp_all
@[simp] theorem state_ite_poison (c : Prop) [Decidable c] (a b : State) : (if c then a else b).poison = if c then a.poison else b.poison := by split <;> rfl
@[simp] theorem foldl_poison {α : Type} (g : State → α → State) (h : ∀ s a, (g s a).poison = s.poison) (l : List α) (s : State) : (l.foldl g s).poison = s.poison := by induction l generalizing s <;> simp_all
@[simp] theorem state_ite_queues (c : Prop) [Decidable c] (a b : State) : (if c then a else b).queues = if c then a.queues else b.queues := by split <;> rfl
@[simp] theorem foldl_queues {α : Type} (g : State → α → State) (h : ∀ s a, (g s a).queues = s.queues) (l : List α) (s : State) : (l.foldl g s).queues = s.queues := by induction l generalizing s <;> simp_all
@[simp] theorem state_ite_sems (c : Prop) [Decidable c] (a b : State) : (if c then a else b).sems = if c then a.sems else b.sems := by split <;> rfl
@[simp] theorem foldl_sems {α : Type} (g : State → α → State) (h : ∀ s a, (g s a).sems = s.sems) (l : List α) (s : State) : (l.foldl g s).sems = s.sems := by induction l generalizing s <;> simp_all
@[simp] theorem state_ite_jobs (c : Prop) [Decidable c] (a b : State) : (if c then a else b).jobs = if c then a.jobs else b.jobs := by split <;> rfl
@[simp] theorem foldl_jobs {α : Type} (g : State → α → State) (h : ∀ s a, (g s a).jobs = s.jobs) (l : List α) (s : State) : (l.foldl g s).jobs = s.jobs := by induction l generalizing s <;> simp_all
@[simp] theorem state_ite_time (c : Prop) [Decidable c] (a b : State) : (if c then a else b).time = if c then a.time else b.time := by split <;> rfl
@[simp] theorem foldl_time {α : Type} (g : State → α → State) (h : ∀ s a, (g s a).time = s.time) (l : List α) (s : State) : (l.foldl g s).time = s.time := by induction l generalizing s <;> simp_all
@[simp] theorem state_ite_arrays (c : Prop) [Decidable c] (a b : State) : (if c then a else b).arrays = if c then a.arrays else b.arrays := by split <;> rfl
@[simp] theorem foldl_arrays {α : Type} (g : State → α → State) (h : ∀ s a, (g s a).arrays = s.arrays) (l : List α) (s : State) : (l.foldl g s).arrays = s.arrays := by induction l generalizing s <;> simp_all
@[simp] theorem state_ite_ports (c : Prop) [Decidable c] (a b : State) : (if c then a else b).ports = if c then a.ports else b.ports := by split <;> rfl
@[simp] theorem foldl_ports {α : Type} (g : State → α → State) (h : ∀ s a, (g s a).ports = s.ports) (l : List α) (s : State) : (l.foldl g s).ports = s.ports := by induction l generalizing s <;> simp_all
@[simp] theorem state_ite_masks (c : Prop) [Decidable c] (a b : State) : (if c then a else b).masks = if c then a.masks else b.masks := by split <;> rfl
@[simp] theorem foldl_masks {α : Type} (g : State → α → State) (h : ∀ s a, (g s a).masks = s.masks) (l : List α) (s : State) : (l.foldl g s).masks = s.masks := by induction l generalizing s <;> simp_all
@[simp] theorem state_ite_trust (c : Prop) [Decidable c] (a b : State) : (if c then a else b).trust = if c then a.trust else b.trust := by split <;> rfl
@[simp] theorem foldl_trust {α : Type} (g : State → α → State) (h : ∀ s a, (g s a).trust = s.trust) (l : List α) (s : State) : (l.foldl g s).trust = s.trust := by induction l generalizing s <;> simp_all
@[simp] theorem state_ite_power (c : Prop) [Decidable c] (a b : State) : (if c then a else b).power = if c then a.power else b.power := by split <;> rfl
@[simp] theorem foldl_power {α : Type} (g : State → α → State) (h : ∀ s a, (g s a).power = s.power) (l : List α) (s : State) : (l.foldl g s).power = s.power := by induction l generalizing s <;> simp_all
@[simp] theorem state_ite_ctxs (c : Prop) [Decidable c] (a b : State) : (if c then a else b).ctxs = if c then a.ctxs else b.ctxs := by split <;> rfl
@[simp] theorem foldl_ctxs {α : Type} (g : State → α → State) (h : ∀ s a, (g s a).ctxs = s.ctxs) (l : List α) (s : State) : (l.foldl g s).ctxs = s.ctxs := by induction l generalizing s <;> simp_all
@[simp] theorem state_ite_funcs (c : Prop) [Decidable c] (a b : State) : (if c then a else b).funcs = if c then a.funcs else b.funcs := by split <;> rfl
@[simp] theorem foldl_funcs {α : Type} (g : State → α → State) (h : ∀ s a, (g s a).funcs = s.funcs) (l : List α) (s : State) : (l.foldl g s).funcs = s.funcs := by induction l generalizing s <;> simp_all
@[simp] theorem state_ite_assign (c : Prop) [Decidable c] (a b : State) : (if c then a else b).assign = if c then a.assign else b.assign := by split <;> rfl
@[simp] theorem foldl_assign {α : Type} (g : State → α → State) (h : ∀ s a, (g s a).assign = s.assign) (l : List α) (s : State) : (l.foldl g s).assign = s.assign := by induction l generalizing s <;> simp_all
@[simp] theorem state_ite_paths (c : Prop) [Decidable c] (a b : State) : (if c then a else b).paths = if c then a.paths else b.paths := by split <;> rfl
@[simp] theorem foldl_paths {α : Type} (g : State → α → State) (h : ∀ s a, (g s a).paths = s.paths) (l : List α) (s : State) : (l.foldl g s).paths = s.paths := by induction l generalizing s <;> simp_all
@[simp] theorem bump_pending (s : State) (cls : Nat) (inst : Nat) (code : Nat) (n : Nat) : (bump s cls inst code n).pending = s.pending := by unfold bump; simp -implicitDefEqProofs
@[simp] theorem bump_mem (s : State) (cls : Nat) (inst : Nat) (code : Nat) (n : Nat) : (bump s cls inst code n).mem = s.mem := by unfold bump; simp -implicitDefEqProofs
@[simp] theorem bump_poison (s : State) (cls : Nat) (inst : Nat) (code : Nat) (n : Nat) : (bump s cls inst code n).poison = s.poison := by unfold bump; simp -implicitDefEqProofs
@[simp] theorem bump_queues (s : State) (cls : Nat) (inst : Nat) (code : Nat) (n : Nat) : (bump s cls inst code n).queues = s.queues := by unfold bump; simp -implicitDefEqProofs
@[simp] theorem bump_sems (s : State) (cls : Nat) (inst : Nat) (code : Nat) (n : Nat) : (bump s cls inst code n).sems = s.sems := by unfold bump; simp -implicitDefEqProofs
@[simp] theorem bump_jobs (s : State) (cls : Nat) (inst : Nat) (code : Nat) (n : Nat) : (bump s cls inst code n).jobs = s.jobs := by unfold bump; simp -implicitDefEqProofs
@[simp] theorem bump_time (s : State) (cls : Nat) (inst : Nat) (code : Nat) (n : Nat) : (bump s cls inst code n).time = s.time := by unfold bump; simp -implicitDefEqProofs
@[simp] theorem bump_arrays (s : State) (cls : Nat) (inst : Nat) (code : Nat) (n : Nat) : (bump s cls inst code n).arrays = s.arrays := by unfold bump; simp -implicitDefEqProofs
@[simp] theorem bump_ports (s : State) (cls : Nat) (inst : Nat) (code : Nat) (n : Nat) : (bump s cls inst code n).ports = s.ports := by unfold bump; simp -implicitDefEqProofs
@[simp] theorem bump_masks (s : State) (cls : Nat) (inst : Nat) (code : Nat) (n : Nat) : (bump s cls inst code n).masks = s.masks := by unfold bump; simp -implicitDefEqProofs
@[simp] theorem bump_trust (s : State) (cls : Nat) (inst : Nat) (code : Nat) (n : Nat) : (bump s cls inst code n).trust = s.trust := by unfold bump; simp -implicitDefEqProofs
@[simp] theorem bump_power (s : State) (cls : Nat) (inst : Nat) (code : Nat) (n : Nat) : (bump s cls inst code n).power = s.power := by unfold bump; simp -implicitDefEqProofs
@[simp] theorem bump_ctxs (s : State) (cls : Nat) (inst : Nat) (code : Nat) (n : Nat) : (bump s cls inst code n).ctxs = s.ctxs := by unfold bump; simp -implicitDefEqProofs
@[simp] theorem bump_funcs (s : State) (cls : Nat) (inst : Nat) (code : Nat) (n : Nat) : (bump s cls inst code n).funcs = s.funcs := by unfold bump; simp -implicitDefEqProofs
@[simp] theorem bump_assign (s : State) (cls : Nat) (inst : Nat) (code : Nat) (n : Nat) : (bump s cls inst code n).assign = s.assign := by unfold bump; simp -implicitDefEqProofs
@[simp] theorem bump_paths (s : State) (cls : Nat) (inst : Nat) (code : Nat) (n : Nat) : (bump s cls inst code n).paths = s.paths := by unfold bump; simp -implicitDefEqProofs
@[simp] theorem bumpStep_pending (s : State) (job : Nat) (code : Nat) (n : Nat) : (bumpStep s job code n).pending = s.pending := by unfold bumpStep; simp -implicitDefEqProofs
@[simp] theorem bumpStep_mem (s : State) (job : Nat) (code : Nat) (n : Nat) : (bumpStep s job code n).mem = s.mem := by unfold bumpStep; simp -implicitDefEqProofs
@[simp] theorem bumpStep_poison (s : State) (job : Nat) (code : Nat) (n : Nat) : (bumpStep s job code n).poison = s.poison := by unfold bumpStep; simp -implicitDefEqProofs
@[simp] theorem bumpStep_queues (s : State) (job : Nat) (code : Nat) (n : Nat) : (bumpStep s job code n).queues = s.queues := by unfold bumpStep; simp -implicitDefEqProofs
@[simp] theorem bumpStep_sems (s : State) (job : Nat) (code : Nat) (n : Nat) : (bumpStep s job code n).sems = s.sems := by unfold bumpStep; simp -implicitDefEqProofs
@[simp] theorem bumpStep_jobs (s : State) (job : Nat) (code : Nat) (n : Nat) : (bumpStep s job code n).jobs = s.jobs := by unfold bumpStep; simp -implicitDefEqProofs
@[simp] theorem bumpStep_time (s : State) (job : Nat) (code : Nat) (n : Nat) : (bumpStep s job code n).time = s.time := by unfold bumpStep; simp -implicitDefEqProofs
@[simp] theorem bumpStep_arrays (s : State) (job : Nat) (code : Nat) (n : Nat) : (bumpStep s job code n).arrays = s.arrays := by unfold bumpStep; simp -implicitDefEqProofs
@[simp] theorem bumpStep_ports (s : State) (job : Nat) (code : Nat) (n : Nat) : (bumpStep s job code n).ports = s.ports := by unfold bumpStep; simp -implicitDefEqProofs
@[simp] theorem bumpStep_masks (s : State) (job : Nat) (code : Nat) (n : Nat) : (bumpStep s job code n).masks = s.masks := by unfold bumpStep; simp -implicitDefEqProofs
@[simp] theorem bumpStep_trust (s : State) (job : Nat) (code : Nat) (n : Nat) : (bumpStep s job code n).trust = s.trust := by unfold bumpStep; simp -implicitDefEqProofs
@[simp] theorem bumpStep_power (s : State) (job : Nat) (code : Nat) (n : Nat) : (bumpStep s job code n).power = s.power := by unfold bumpStep; simp -implicitDefEqProofs
@[simp] theorem bumpStep_ctxs (s : State) (job : Nat) (code : Nat) (n : Nat) : (bumpStep s job code n).ctxs = s.ctxs := by unfold bumpStep; simp -implicitDefEqProofs
@[simp] theorem bumpStep_funcs (s : State) (job : Nat) (code : Nat) (n : Nat) : (bumpStep s job code n).funcs = s.funcs := by unfold bumpStep; simp -implicitDefEqProofs
@[simp] theorem bumpStep_assign (s : State) (job : Nat) (code : Nat) (n : Nat) : (bumpStep s job code n).assign = s.assign := by unfold bumpStep; simp -implicitDefEqProofs
@[simp] theorem bumpStep_paths (s : State) (job : Nat) (code : Nat) (n : Nat) : (bumpStep s job code n).paths = s.paths := by unfold bumpStep; simp -implicitDefEqProofs
@[simp] theorem drawWord_pending (s : State) : (drawWord s).2.pending = s.pending := (rfl)
@[simp] theorem drawWord_mem (s : State) : (drawWord s).2.mem = s.mem := (rfl)
@[simp] theorem drawWord_poison (s : State) : (drawWord s).2.poison = s.poison := (rfl)
@[simp] theorem drawWord_queues (s : State) : (drawWord s).2.queues = s.queues := (rfl)
@[simp] theorem drawWord_sems (s : State) : (drawWord s).2.sems = s.sems := (rfl)
@[simp] theorem drawWord_jobs (s : State) : (drawWord s).2.jobs = s.jobs := (rfl)
@[simp] theorem drawWord_time (s : State) : (drawWord s).2.time = s.time := (rfl)
@[simp] theorem drawWord_arrays (s : State) : (drawWord s).2.arrays = s.arrays := (rfl)
@[simp] theorem drawWord_ports (s : State) : (drawWord s).2.ports = s.ports := (rfl)
@[simp] theorem drawWord_masks (s : State) : (drawWord s).2.masks = s.masks := (rfl)
@[simp] theorem drawWord_trust (s : State) : (drawWord s).2.trust = s.trust := (rfl)
@[simp] theorem drawWord_power (s : State) : (drawWord s).2.power = s.power := (rfl)
@[simp] theorem drawWord_ctxs (s : State) : (drawWord s).2.ctxs = s.ctxs := (rfl)
@[simp] theorem drawWord_funcs (s : State) : (drawWord s).2.funcs = s.funcs := (rfl)
@[simp] theorem drawWord_assign (s : State) : (drawWord s).2.assign = s.assign := (rfl)
@[simp] theorem drawWord_paths (s : State) : (drawWord s).2.paths = s.paths := (rfl)
@[simp] theorem drawBytes_pending (s : State) (n : Nat) : (drawBytes s n).2.pending = s.pending := (rfl)
@[simp] theorem drawBytes_mem (s : State) (n : Nat) : (drawBytes s n).2.mem = s.mem := (rfl)
@[simp] theorem drawBytes_poison (s : State) (n : Nat) : (drawBytes s n).2.poison = s.poison := (rfl)
@[simp] theorem drawBytes_queues (s : State) (n : Nat) : (drawBytes s n).2.queues = s.queues := (rfl)
@[simp] theorem drawBytes_sems (s : State) (n : Nat) : (drawBytes s n).2.sems = s.sems := (rfl)
@[simp] theorem drawBytes_jobs (s : State) (n : Nat) : (drawBytes s n).2.jobs = s.jobs := (rfl)
@[simp] theorem drawBytes_time (s : State) (n : Nat) : (drawBytes s n).2.time = s.time := (rfl)
@[simp] theorem drawBytes_arrays (s : State) (n : Nat) : (drawBytes s n).2.arrays = s.arrays := (rfl)
@[simp] theorem drawBytes_ports (s : State) (n : Nat) : (drawBytes s n).2.ports = s.ports := (rfl)
@[simp] theorem drawBytes_masks (s : State) (n : Nat) : (drawBytes s n).2.masks = s.masks := (rfl)
@[simp] theorem drawBytes_trust (s : State) (n : Nat) : (drawBytes s n).2.trust = s.trust := (rfl)
@[simp] theorem drawBytes_power (s : State) (n : Nat) : (drawBytes s n).2.power = s.power := (rfl)
@[simp] theorem drawBytes_ctxs (s : State) (n : Nat) : (drawBytes s n).2.ctxs = s.ctxs := (rfl)
@[simp] theorem drawBytes_funcs (s : State) (n : Nat) : (drawBytes s n).2.funcs = s.funcs := (rfl)
@[simp] theorem drawBytes_assign (s : State) (n : Nat) : (drawBytes s n).2.assign = s.assign := (rfl)
@[simp] theorem drawBytes_paths (s : State) (n : Nat) : (drawBytes s n).2.paths = s.paths := (rfl)
@[simp] theorem bbWrite_pending (s : State) (type : Nat) (src : Nat) (inst : Nat) (detail : List Byte) (count : optParam Nat 1) (summary : optParam Bool false) : (bbWrite s type src inst detail count summary).pending = s.pending := by unfold bbWrite; simp -implicitDefEqProofs
@[simp] theorem bbWrite_mem (s : State) (type : Nat) (src : Nat) (inst : Nat) (detail : List Byte) (count : optParam Nat 1) (summary : optParam Bool false) : (bbWrite s type src inst detail count summary).mem = s.mem := by unfold bbWrite; simp -implicitDefEqProofs
@[simp] theorem bbWrite_poison (s : State) (type : Nat) (src : Nat) (inst : Nat) (detail : List Byte) (count : optParam Nat 1) (summary : optParam Bool false) : (bbWrite s type src inst detail count summary).poison = s.poison := by unfold bbWrite; simp -implicitDefEqProofs
@[simp] theorem bbWrite_queues (s : State) (type : Nat) (src : Nat) (inst : Nat) (detail : List Byte) (count : optParam Nat 1) (summary : optParam Bool false) : (bbWrite s type src inst detail count summary).queues = s.queues := by unfold bbWrite; simp -implicitDefEqProofs
@[simp] theorem bbWrite_sems (s : State) (type : Nat) (src : Nat) (inst : Nat) (detail : List Byte) (count : optParam Nat 1) (summary : optParam Bool false) : (bbWrite s type src inst detail count summary).sems = s.sems := by unfold bbWrite; simp -implicitDefEqProofs
@[simp] theorem bbWrite_jobs (s : State) (type : Nat) (src : Nat) (inst : Nat) (detail : List Byte) (count : optParam Nat 1) (summary : optParam Bool false) : (bbWrite s type src inst detail count summary).jobs = s.jobs := by unfold bbWrite; simp -implicitDefEqProofs
@[simp] theorem bbWrite_time (s : State) (type : Nat) (src : Nat) (inst : Nat) (detail : List Byte) (count : optParam Nat 1) (summary : optParam Bool false) : (bbWrite s type src inst detail count summary).time = s.time := by unfold bbWrite; simp -implicitDefEqProofs
@[simp] theorem bbWrite_arrays (s : State) (type : Nat) (src : Nat) (inst : Nat) (detail : List Byte) (count : optParam Nat 1) (summary : optParam Bool false) : (bbWrite s type src inst detail count summary).arrays = s.arrays := by unfold bbWrite; simp -implicitDefEqProofs
@[simp] theorem bbWrite_ports (s : State) (type : Nat) (src : Nat) (inst : Nat) (detail : List Byte) (count : optParam Nat 1) (summary : optParam Bool false) : (bbWrite s type src inst detail count summary).ports = s.ports := by unfold bbWrite; simp -implicitDefEqProofs
@[simp] theorem bbWrite_masks (s : State) (type : Nat) (src : Nat) (inst : Nat) (detail : List Byte) (count : optParam Nat 1) (summary : optParam Bool false) : (bbWrite s type src inst detail count summary).masks = s.masks := by unfold bbWrite; simp -implicitDefEqProofs
@[simp] theorem bbWrite_trust (s : State) (type : Nat) (src : Nat) (inst : Nat) (detail : List Byte) (count : optParam Nat 1) (summary : optParam Bool false) : (bbWrite s type src inst detail count summary).trust = s.trust := by unfold bbWrite; simp -implicitDefEqProofs
@[simp] theorem bbWrite_power (s : State) (type : Nat) (src : Nat) (inst : Nat) (detail : List Byte) (count : optParam Nat 1) (summary : optParam Bool false) : (bbWrite s type src inst detail count summary).power = s.power := by unfold bbWrite; simp -implicitDefEqProofs
@[simp] theorem bbWrite_ctxs (s : State) (type : Nat) (src : Nat) (inst : Nat) (detail : List Byte) (count : optParam Nat 1) (summary : optParam Bool false) : (bbWrite s type src inst detail count summary).ctxs = s.ctxs := by unfold bbWrite; simp -implicitDefEqProofs
@[simp] theorem bbWrite_funcs (s : State) (type : Nat) (src : Nat) (inst : Nat) (detail : List Byte) (count : optParam Nat 1) (summary : optParam Bool false) : (bbWrite s type src inst detail count summary).funcs = s.funcs := by unfold bbWrite; simp -implicitDefEqProofs
@[simp] theorem bbWrite_assign (s : State) (type : Nat) (src : Nat) (inst : Nat) (detail : List Byte) (count : optParam Nat 1) (summary : optParam Bool false) : (bbWrite s type src inst detail count summary).assign = s.assign := by unfold bbWrite; simp -implicitDefEqProofs
@[simp] theorem bbWrite_paths (s : State) (type : Nat) (src : Nat) (inst : Nat) (detail : List Byte) (count : optParam Nat 1) (summary : optParam Bool false) : (bbWrite s type src inst detail count summary).paths = s.paths := by unfold bbWrite; simp -implicitDefEqProofs
@[simp] theorem poisonGranule_pending (s : State) (g : Nat) : (poisonGranule s g).pending = s.pending := by unfold poisonGranule; simp -implicitDefEqProofs
@[simp] theorem poisonGranule_mem (s : State) (g : Nat) : (poisonGranule s g).mem = s.mem := by unfold poisonGranule; simp -implicitDefEqProofs
@[simp] theorem poisonGranule_queues (s : State) (g : Nat) : (poisonGranule s g).queues = s.queues := by unfold poisonGranule; simp -implicitDefEqProofs
@[simp] theorem poisonGranule_sems (s : State) (g : Nat) : (poisonGranule s g).sems = s.sems := by unfold poisonGranule; simp -implicitDefEqProofs
@[simp] theorem poisonGranule_jobs (s : State) (g : Nat) : (poisonGranule s g).jobs = s.jobs := by unfold poisonGranule; simp -implicitDefEqProofs
@[simp] theorem poisonGranule_time (s : State) (g : Nat) : (poisonGranule s g).time = s.time := by unfold poisonGranule; simp -implicitDefEqProofs
@[simp] theorem poisonGranule_arrays (s : State) (g : Nat) : (poisonGranule s g).arrays = s.arrays := by unfold poisonGranule; simp -implicitDefEqProofs
@[simp] theorem poisonGranule_ports (s : State) (g : Nat) : (poisonGranule s g).ports = s.ports := by unfold poisonGranule; simp -implicitDefEqProofs
@[simp] theorem poisonGranule_masks (s : State) (g : Nat) : (poisonGranule s g).masks = s.masks := by unfold poisonGranule; simp -implicitDefEqProofs
@[simp] theorem poisonGranule_trust (s : State) (g : Nat) : (poisonGranule s g).trust = s.trust := by unfold poisonGranule; simp -implicitDefEqProofs
@[simp] theorem poisonGranule_power (s : State) (g : Nat) : (poisonGranule s g).power = s.power := by unfold poisonGranule; simp -implicitDefEqProofs
@[simp] theorem poisonGranule_ctxs (s : State) (g : Nat) : (poisonGranule s g).ctxs = s.ctxs := by unfold poisonGranule; simp -implicitDefEqProofs
@[simp] theorem poisonGranule_funcs (s : State) (g : Nat) : (poisonGranule s g).funcs = s.funcs := by unfold poisonGranule; simp -implicitDefEqProofs
@[simp] theorem poisonGranule_assign (s : State) (g : Nat) : (poisonGranule s g).assign = s.assign := by unfold poisonGranule; simp -implicitDefEqProofs
@[simp] theorem poisonGranule_paths (s : State) (g : Nat) : (poisonGranule s g).paths = s.paths := by unfold poisonGranule; simp -implicitDefEqProofs
@[simp] theorem requestPage_pending (s : State) (f : Nat) (key : Nat) : (requestPage s f key).pending = s.pending := (rfl)
@[simp] theorem requestPage_mem (s : State) (f : Nat) (key : Nat) : (requestPage s f key).mem = s.mem := (rfl)
@[simp] theorem requestPage_poison (s : State) (f : Nat) (key : Nat) : (requestPage s f key).poison = s.poison := (rfl)
@[simp] theorem requestPage_queues (s : State) (f : Nat) (key : Nat) : (requestPage s f key).queues = s.queues := (rfl)
@[simp] theorem requestPage_sems (s : State) (f : Nat) (key : Nat) : (requestPage s f key).sems = s.sems := (rfl)
@[simp] theorem requestPage_jobs (s : State) (f : Nat) (key : Nat) : (requestPage s f key).jobs = s.jobs := (rfl)
@[simp] theorem requestPage_time (s : State) (f : Nat) (key : Nat) : (requestPage s f key).time = s.time := (rfl)
@[simp] theorem requestPage_arrays (s : State) (f : Nat) (key : Nat) : (requestPage s f key).arrays = s.arrays := (rfl)
@[simp] theorem requestPage_ports (s : State) (f : Nat) (key : Nat) : (requestPage s f key).ports = s.ports := (rfl)
@[simp] theorem requestPage_masks (s : State) (f : Nat) (key : Nat) : (requestPage s f key).masks = s.masks := (rfl)
@[simp] theorem requestPage_trust (s : State) (f : Nat) (key : Nat) : (requestPage s f key).trust = s.trust := (rfl)
@[simp] theorem requestPage_power (s : State) (f : Nat) (key : Nat) : (requestPage s f key).power = s.power := (rfl)
@[simp] theorem requestPage_ctxs (s : State) (f : Nat) (key : Nat) : (requestPage s f key).ctxs = s.ctxs := (rfl)
@[simp] theorem requestPage_assign (s : State) (f : Nat) (key : Nat) : (requestPage s f key).assign = s.assign := (rfl)
@[simp] theorem requestPage_paths (s : State) (f : Nat) (key : Nat) : (requestPage s f key).paths = s.paths := (rfl)
@[simp] theorem raiseMsix_pending (s : State) (f : Nat) (v : Nat) : (raiseMsix s f v).pending = s.pending := by unfold raiseMsix; simp -implicitDefEqProofs
@[simp] theorem raiseMsix_mem (s : State) (f : Nat) (v : Nat) : (raiseMsix s f v).mem = s.mem := by unfold raiseMsix; simp -implicitDefEqProofs
@[simp] theorem raiseMsix_poison (s : State) (f : Nat) (v : Nat) : (raiseMsix s f v).poison = s.poison := by unfold raiseMsix; simp -implicitDefEqProofs
@[simp] theorem raiseMsix_queues (s : State) (f : Nat) (v : Nat) : (raiseMsix s f v).queues = s.queues := by unfold raiseMsix; simp -implicitDefEqProofs
@[simp] theorem raiseMsix_sems (s : State) (f : Nat) (v : Nat) : (raiseMsix s f v).sems = s.sems := by unfold raiseMsix; simp -implicitDefEqProofs
@[simp] theorem raiseMsix_jobs (s : State) (f : Nat) (v : Nat) : (raiseMsix s f v).jobs = s.jobs := by unfold raiseMsix; simp -implicitDefEqProofs
@[simp] theorem raiseMsix_time (s : State) (f : Nat) (v : Nat) : (raiseMsix s f v).time = s.time := by unfold raiseMsix; simp -implicitDefEqProofs
@[simp] theorem raiseMsix_arrays (s : State) (f : Nat) (v : Nat) : (raiseMsix s f v).arrays = s.arrays := by unfold raiseMsix; simp -implicitDefEqProofs
@[simp] theorem raiseMsix_ports (s : State) (f : Nat) (v : Nat) : (raiseMsix s f v).ports = s.ports := by unfold raiseMsix; simp -implicitDefEqProofs
@[simp] theorem raiseMsix_masks (s : State) (f : Nat) (v : Nat) : (raiseMsix s f v).masks = s.masks := by unfold raiseMsix; simp -implicitDefEqProofs
@[simp] theorem raiseMsix_trust (s : State) (f : Nat) (v : Nat) : (raiseMsix s f v).trust = s.trust := by unfold raiseMsix; simp -implicitDefEqProofs
@[simp] theorem raiseMsix_power (s : State) (f : Nat) (v : Nat) : (raiseMsix s f v).power = s.power := by unfold raiseMsix; simp -implicitDefEqProofs
@[simp] theorem raiseMsix_ctxs (s : State) (f : Nat) (v : Nat) : (raiseMsix s f v).ctxs = s.ctxs := by unfold raiseMsix; simp -implicitDefEqProofs
@[simp] theorem raiseMsix_assign (s : State) (f : Nat) (v : Nat) : (raiseMsix s f v).assign = s.assign := by unfold raiseMsix; simp -implicitDefEqProofs
@[simp] theorem raiseMsix_paths (s : State) (f : Nat) (v : Nat) : (raiseMsix s f v).paths = s.paths := by unfold raiseMsix; simp -implicitDefEqProofs
@[simp] theorem noteFault_pending (s : State) (code : Nat) : (noteFault s code).pending = s.pending := by unfold noteFault; simp -implicitDefEqProofs
@[simp] theorem noteFault_mem (s : State) (code : Nat) : (noteFault s code).mem = s.mem := by unfold noteFault; simp -implicitDefEqProofs
@[simp] theorem noteFault_poison (s : State) (code : Nat) : (noteFault s code).poison = s.poison := by unfold noteFault; simp -implicitDefEqProofs
@[simp] theorem noteFault_queues (s : State) (code : Nat) : (noteFault s code).queues = s.queues := by unfold noteFault; simp -implicitDefEqProofs
@[simp] theorem noteFault_sems (s : State) (code : Nat) : (noteFault s code).sems = s.sems := by unfold noteFault; simp -implicitDefEqProofs
@[simp] theorem noteFault_jobs (s : State) (code : Nat) : (noteFault s code).jobs = s.jobs := by unfold noteFault; simp -implicitDefEqProofs
@[simp] theorem noteFault_time (s : State) (code : Nat) : (noteFault s code).time = s.time := by unfold noteFault; simp -implicitDefEqProofs
@[simp] theorem noteFault_arrays (s : State) (code : Nat) : (noteFault s code).arrays = s.arrays := by unfold noteFault; simp -implicitDefEqProofs
@[simp] theorem noteFault_ports (s : State) (code : Nat) : (noteFault s code).ports = s.ports := by unfold noteFault; simp -implicitDefEqProofs
@[simp] theorem noteFault_masks (s : State) (code : Nat) : (noteFault s code).masks = s.masks := by unfold noteFault; simp -implicitDefEqProofs
@[simp] theorem noteFault_trust (s : State) (code : Nat) : (noteFault s code).trust = s.trust := by unfold noteFault; simp -implicitDefEqProofs
@[simp] theorem noteFault_power (s : State) (code : Nat) : (noteFault s code).power = s.power := by unfold noteFault; simp -implicitDefEqProofs
@[simp] theorem noteFault_ctxs (s : State) (code : Nat) : (noteFault s code).ctxs = s.ctxs := by unfold noteFault; simp -implicitDefEqProofs
@[simp] theorem noteFault_funcs (s : State) (code : Nat) : (noteFault s code).funcs = s.funcs := by unfold noteFault; simp -implicitDefEqProofs
@[simp] theorem noteFault_assign (s : State) (code : Nat) : (noteFault s code).assign = s.assign := by unfold noteFault; simp -implicitDefEqProofs
@[simp] theorem noteFault_paths (s : State) (code : Nat) : (noteFault s code).paths = s.paths := by unfold noteFault; simp -implicitDefEqProofs
@[simp] theorem postEvent_pending (s : State) (f : Nat) (code : Nat) (job : Nat) (detail : List Byte) : (postEvent s f code job detail).pending = s.pending := by unfold postEvent; (try simp only []); (repeat' split) <;> (try rename_i h) <;> (first | (simp; done) | (simp [vWrite_ok_pending h]; done) | (simp [vWrite_ok_pending h]; split <;> simp) | (simp [vRead_ok_pending h]; done) | (simp; split <;> simp) | simp_all)
@[simp] theorem postEvent_queues (s : State) (f : Nat) (code : Nat) (job : Nat) (detail : List Byte) : (postEvent s f code job detail).queues = s.queues := by unfold postEvent; (try simp only []); (repeat' split) <;> (try rename_i h) <;> (first | (simp; done) | (simp [vWrite_ok_queues h]; done) | (simp [vWrite_ok_queues h]; split <;> simp) | (simp [vRead_ok_queues h]; done) | (simp; split <;> simp) | simp_all)
@[simp] theorem postEvent_sems (s : State) (f : Nat) (code : Nat) (job : Nat) (detail : List Byte) : (postEvent s f code job detail).sems = s.sems := by unfold postEvent; (try simp only []); (repeat' split) <;> (try rename_i h) <;> (first | (simp; done) | (simp [vWrite_ok_sems h]; done) | (simp [vWrite_ok_sems h]; split <;> simp) | (simp [vRead_ok_sems h]; done) | (simp; split <;> simp) | simp_all)
@[simp] theorem postEvent_jobs (s : State) (f : Nat) (code : Nat) (job : Nat) (detail : List Byte) : (postEvent s f code job detail).jobs = s.jobs := by unfold postEvent; (try simp only []); (repeat' split) <;> (try rename_i h) <;> (first | (simp; done) | (simp [vWrite_ok_jobs h]; done) | (simp [vWrite_ok_jobs h]; split <;> simp) | (simp [vRead_ok_jobs h]; done) | (simp; split <;> simp) | simp_all)
@[simp] theorem postEvent_time (s : State) (f : Nat) (code : Nat) (job : Nat) (detail : List Byte) : (postEvent s f code job detail).time = s.time := by unfold postEvent; (try simp only []); (repeat' split) <;> (try rename_i h) <;> (first | (simp; done) | (simp [vWrite_ok_time h]; done) | (simp [vWrite_ok_time h]; split <;> simp) | (simp [vRead_ok_time h]; done) | (simp; split <;> simp) | simp_all)
@[simp] theorem postEvent_arrays (s : State) (f : Nat) (code : Nat) (job : Nat) (detail : List Byte) : (postEvent s f code job detail).arrays = s.arrays := by unfold postEvent; (try simp only []); (repeat' split) <;> (try rename_i h) <;> (first | (simp; done) | (simp [vWrite_ok_arrays h]; done) | (simp [vWrite_ok_arrays h]; split <;> simp) | (simp [vRead_ok_arrays h]; done) | (simp; split <;> simp) | simp_all)
@[simp] theorem postEvent_ports (s : State) (f : Nat) (code : Nat) (job : Nat) (detail : List Byte) : (postEvent s f code job detail).ports = s.ports := by unfold postEvent; (try simp only []); (repeat' split) <;> (try rename_i h) <;> (first | (simp; done) | (simp [vWrite_ok_ports h]; done) | (simp [vWrite_ok_ports h]; split <;> simp) | (simp [vRead_ok_ports h]; done) | (simp; split <;> simp) | simp_all)
@[simp] theorem postEvent_masks (s : State) (f : Nat) (code : Nat) (job : Nat) (detail : List Byte) : (postEvent s f code job detail).masks = s.masks := by unfold postEvent; (try simp only []); (repeat' split) <;> (try rename_i h) <;> (first | (simp; done) | (simp [vWrite_ok_masks h]; done) | (simp [vWrite_ok_masks h]; split <;> simp) | (simp [vRead_ok_masks h]; done) | (simp; split <;> simp) | simp_all)
@[simp] theorem postEvent_trust (s : State) (f : Nat) (code : Nat) (job : Nat) (detail : List Byte) : (postEvent s f code job detail).trust = s.trust := by unfold postEvent; (try simp only []); (repeat' split) <;> (try rename_i h) <;> (first | (simp; done) | (simp [vWrite_ok_trust h]; done) | (simp [vWrite_ok_trust h]; split <;> simp) | (simp [vRead_ok_trust h]; done) | (simp; split <;> simp) | simp_all)
@[simp] theorem postEvent_power (s : State) (f : Nat) (code : Nat) (job : Nat) (detail : List Byte) : (postEvent s f code job detail).power = s.power := by unfold postEvent; (try simp only []); (repeat' split) <;> (try rename_i h) <;> (first | (simp; done) | (simp [vWrite_ok_power h]; done) | (simp [vWrite_ok_power h]; split <;> simp) | (simp [vRead_ok_power h]; done) | (simp; split <;> simp) | simp_all)
@[simp] theorem postEvent_ctxs (s : State) (f : Nat) (code : Nat) (job : Nat) (detail : List Byte) : (postEvent s f code job detail).ctxs = s.ctxs := by unfold postEvent; (try simp only []); (repeat' split) <;> (try rename_i h) <;> (first | (simp; done) | (simp [vWrite_ok_ctxs h]; done) | (simp [vWrite_ok_ctxs h]; split <;> simp) | (simp [vRead_ok_ctxs h]; done) | (simp; split <;> simp) | simp_all)
@[simp] theorem postEvent_assign (s : State) (f : Nat) (code : Nat) (job : Nat) (detail : List Byte) : (postEvent s f code job detail).assign = s.assign := by unfold postEvent; (try simp only []); (repeat' split) <;> (try rename_i h) <;> (first | (simp; done) | (simp [vWrite_ok_assign h]; done) | (simp [vWrite_ok_assign h]; split <;> simp) | (simp [vRead_ok_assign h]; done) | (simp; split <;> simp) | simp_all)
@[simp] theorem postEvent_paths (s : State) (f : Nat) (code : Nat) (job : Nat) (detail : List Byte) : (postEvent s f code job detail).paths = s.paths := by unfold postEvent; (try simp only []); (repeat' split) <;> (try rename_i h) <;> (first | (simp; done) | (simp [vWrite_ok_paths h]; done) | (simp [vWrite_ok_paths h]; split <;> simp) | (simp [vRead_ok_paths h]; done) | (simp; split <;> simp) | simp_all)
@[simp] theorem postTo_pending (s : State) (fs : List Nat) (code : Nat) (detail : List Byte) : (postTo s fs code detail).pending = s.pending := by unfold postTo; simp -implicitDefEqProofs
@[simp] theorem postTo_queues (s : State) (fs : List Nat) (code : Nat) (detail : List Byte) : (postTo s fs code detail).queues = s.queues := by unfold postTo; simp -implicitDefEqProofs
@[simp] theorem postTo_sems (s : State) (fs : List Nat) (code : Nat) (detail : List Byte) : (postTo s fs code detail).sems = s.sems := by unfold postTo; simp -implicitDefEqProofs
@[simp] theorem postTo_jobs (s : State) (fs : List Nat) (code : Nat) (detail : List Byte) : (postTo s fs code detail).jobs = s.jobs := by unfold postTo; simp -implicitDefEqProofs
@[simp] theorem postTo_time (s : State) (fs : List Nat) (code : Nat) (detail : List Byte) : (postTo s fs code detail).time = s.time := by unfold postTo; simp -implicitDefEqProofs
@[simp] theorem postTo_arrays (s : State) (fs : List Nat) (code : Nat) (detail : List Byte) : (postTo s fs code detail).arrays = s.arrays := by unfold postTo; simp -implicitDefEqProofs
@[simp] theorem postTo_ports (s : State) (fs : List Nat) (code : Nat) (detail : List Byte) : (postTo s fs code detail).ports = s.ports := by unfold postTo; simp -implicitDefEqProofs
@[simp] theorem postTo_masks (s : State) (fs : List Nat) (code : Nat) (detail : List Byte) : (postTo s fs code detail).masks = s.masks := by unfold postTo; simp -implicitDefEqProofs
@[simp] theorem postTo_trust (s : State) (fs : List Nat) (code : Nat) (detail : List Byte) : (postTo s fs code detail).trust = s.trust := by unfold postTo; simp -implicitDefEqProofs
@[simp] theorem postTo_power (s : State) (fs : List Nat) (code : Nat) (detail : List Byte) : (postTo s fs code detail).power = s.power := by unfold postTo; simp -implicitDefEqProofs
@[simp] theorem postTo_ctxs (s : State) (fs : List Nat) (code : Nat) (detail : List Byte) : (postTo s fs code detail).ctxs = s.ctxs := by unfold postTo; simp -implicitDefEqProofs
@[simp] theorem postTo_assign (s : State) (fs : List Nat) (code : Nat) (detail : List Byte) : (postTo s fs code detail).assign = s.assign := by unfold postTo; simp -implicitDefEqProofs
@[simp] theorem postTo_paths (s : State) (fs : List Nat) (code : Nat) (detail : List Byte) : (postTo s fs code detail).paths = s.paths := by unfold postTo; simp -implicitDefEqProofs
@[simp] theorem postAll_pending (s : State) (code : Nat) (detail : List Byte) : (postAll s code detail).pending = s.pending := by unfold postAll; simp -implicitDefEqProofs
@[simp] theorem postAll_queues (s : State) (code : Nat) (detail : List Byte) : (postAll s code detail).queues = s.queues := by unfold postAll; simp -implicitDefEqProofs
@[simp] theorem postAll_sems (s : State) (code : Nat) (detail : List Byte) : (postAll s code detail).sems = s.sems := by unfold postAll; simp -implicitDefEqProofs
@[simp] theorem postAll_jobs (s : State) (code : Nat) (detail : List Byte) : (postAll s code detail).jobs = s.jobs := by unfold postAll; simp -implicitDefEqProofs
@[simp] theorem postAll_time (s : State) (code : Nat) (detail : List Byte) : (postAll s code detail).time = s.time := by unfold postAll; simp -implicitDefEqProofs
@[simp] theorem postAll_arrays (s : State) (code : Nat) (detail : List Byte) : (postAll s code detail).arrays = s.arrays := by unfold postAll; simp -implicitDefEqProofs
@[simp] theorem postAll_ports (s : State) (code : Nat) (detail : List Byte) : (postAll s code detail).ports = s.ports := by unfold postAll; simp -implicitDefEqProofs
@[simp] theorem postAll_masks (s : State) (code : Nat) (detail : List Byte) : (postAll s code detail).masks = s.masks := by unfold postAll; simp -implicitDefEqProofs
@[simp] theorem postAll_trust (s : State) (code : Nat) (detail : List Byte) : (postAll s code detail).trust = s.trust := by unfold postAll; simp -implicitDefEqProofs
@[simp] theorem postAll_power (s : State) (code : Nat) (detail : List Byte) : (postAll s code detail).power = s.power := by unfold postAll; simp -implicitDefEqProofs
@[simp] theorem postAll_ctxs (s : State) (code : Nat) (detail : List Byte) : (postAll s code detail).ctxs = s.ctxs := by unfold postAll; simp -implicitDefEqProofs
@[simp] theorem postAll_assign (s : State) (code : Nat) (detail : List Byte) : (postAll s code detail).assign = s.assign := by unfold postAll; simp -implicitDefEqProofs
@[simp] theorem postAll_paths (s : State) (code : Nat) (detail : List Byte) : (postAll s code detail).paths = s.paths := by unfold postAll; simp -implicitDefEqProofs
@[simp] theorem fabricFault_pending (s : State) (code : Nat) (detail : List Byte) : (fabricFault s code detail).pending = s.pending := by unfold fabricFault; simp -implicitDefEqProofs
@[simp] theorem fabricFault_queues (s : State) (code : Nat) (detail : List Byte) : (fabricFault s code detail).queues = s.queues := by unfold fabricFault; simp -implicitDefEqProofs
@[simp] theorem fabricFault_sems (s : State) (code : Nat) (detail : List Byte) : (fabricFault s code detail).sems = s.sems := by unfold fabricFault; simp -implicitDefEqProofs
@[simp] theorem fabricFault_jobs (s : State) (code : Nat) (detail : List Byte) : (fabricFault s code detail).jobs = s.jobs := by unfold fabricFault; simp -implicitDefEqProofs
@[simp] theorem fabricFault_time (s : State) (code : Nat) (detail : List Byte) : (fabricFault s code detail).time = s.time := by unfold fabricFault; simp -implicitDefEqProofs
@[simp] theorem fabricFault_arrays (s : State) (code : Nat) (detail : List Byte) : (fabricFault s code detail).arrays = s.arrays := by unfold fabricFault; simp -implicitDefEqProofs
@[simp] theorem fabricFault_ports (s : State) (code : Nat) (detail : List Byte) : (fabricFault s code detail).ports = s.ports := by unfold fabricFault; simp -implicitDefEqProofs
@[simp] theorem fabricFault_masks (s : State) (code : Nat) (detail : List Byte) : (fabricFault s code detail).masks = s.masks := by unfold fabricFault; simp -implicitDefEqProofs
@[simp] theorem fabricFault_trust (s : State) (code : Nat) (detail : List Byte) : (fabricFault s code detail).trust = s.trust := by unfold fabricFault; simp -implicitDefEqProofs
@[simp] theorem fabricFault_power (s : State) (code : Nat) (detail : List Byte) : (fabricFault s code detail).power = s.power := by unfold fabricFault; simp -implicitDefEqProofs
@[simp] theorem fabricFault_ctxs (s : State) (code : Nat) (detail : List Byte) : (fabricFault s code detail).ctxs = s.ctxs := by unfold fabricFault; simp -implicitDefEqProofs
@[simp] theorem fabricFault_assign (s : State) (code : Nat) (detail : List Byte) : (fabricFault s code detail).assign = s.assign := by unfold fabricFault; simp -implicitDefEqProofs
@[simp] theorem fabricFault_paths (s : State) (code : Nat) (detail : List Byte) : (fabricFault s code detail).paths = s.paths := by unfold fabricFault; simp -implicitDefEqProofs
@[simp] theorem genStart_pending (s : State) (tid : Nat) : (genStart s tid).pending = s.pending := by unfold genStart; simp -implicitDefEqProofs
@[simp] theorem genStart_mem (s : State) (tid : Nat) : (genStart s tid).mem = s.mem := by unfold genStart; simp -implicitDefEqProofs
@[simp] theorem genStart_poison (s : State) (tid : Nat) : (genStart s tid).poison = s.poison := by unfold genStart; simp -implicitDefEqProofs
@[simp] theorem genStart_queues (s : State) (tid : Nat) : (genStart s tid).queues = s.queues := by unfold genStart; simp -implicitDefEqProofs
@[simp] theorem genStart_sems (s : State) (tid : Nat) : (genStart s tid).sems = s.sems := by unfold genStart; simp -implicitDefEqProofs
@[simp] theorem genStart_jobs (s : State) (tid : Nat) : (genStart s tid).jobs = s.jobs := by unfold genStart; simp -implicitDefEqProofs
@[simp] theorem genStart_time (s : State) (tid : Nat) : (genStart s tid).time = s.time := by unfold genStart; simp -implicitDefEqProofs
@[simp] theorem genStart_arrays (s : State) (tid : Nat) : (genStart s tid).arrays = s.arrays := by unfold genStart; simp -implicitDefEqProofs
@[simp] theorem genStart_ports (s : State) (tid : Nat) : (genStart s tid).ports = s.ports := by unfold genStart; simp -implicitDefEqProofs
@[simp] theorem genStart_masks (s : State) (tid : Nat) : (genStart s tid).masks = s.masks := by unfold genStart; simp -implicitDefEqProofs
@[simp] theorem genStart_trust (s : State) (tid : Nat) : (genStart s tid).trust = s.trust := by unfold genStart; simp -implicitDefEqProofs
@[simp] theorem genStart_power (s : State) (tid : Nat) : (genStart s tid).power = s.power := by unfold genStart; simp -implicitDefEqProofs
@[simp] theorem genStart_ctxs (s : State) (tid : Nat) : (genStart s tid).ctxs = s.ctxs := by unfold genStart; simp -implicitDefEqProofs
@[simp] theorem genStart_funcs (s : State) (tid : Nat) : (genStart s tid).funcs = s.funcs := by unfold genStart; simp -implicitDefEqProofs
@[simp] theorem genStart_assign (s : State) (tid : Nat) : (genStart s tid).assign = s.assign := by unfold genStart; simp -implicitDefEqProofs
@[simp] theorem genStart_paths (s : State) (tid : Nat) : (genStart s tid).paths = s.paths := by unfold genStart; simp -implicitDefEqProofs
@[simp] theorem genEnd_pending (s : State) (tid : Nat) : (genEnd s tid).pending = s.pending := by unfold genEnd; simp -implicitDefEqProofs
@[simp] theorem genEnd_mem (s : State) (tid : Nat) : (genEnd s tid).mem = s.mem := by unfold genEnd; simp -implicitDefEqProofs
@[simp] theorem genEnd_poison (s : State) (tid : Nat) : (genEnd s tid).poison = s.poison := by unfold genEnd; simp -implicitDefEqProofs
@[simp] theorem genEnd_queues (s : State) (tid : Nat) : (genEnd s tid).queues = s.queues := by unfold genEnd; simp -implicitDefEqProofs
@[simp] theorem genEnd_sems (s : State) (tid : Nat) : (genEnd s tid).sems = s.sems := by unfold genEnd; simp -implicitDefEqProofs
@[simp] theorem genEnd_jobs (s : State) (tid : Nat) : (genEnd s tid).jobs = s.jobs := by unfold genEnd; simp -implicitDefEqProofs
@[simp] theorem genEnd_time (s : State) (tid : Nat) : (genEnd s tid).time = s.time := by unfold genEnd; simp -implicitDefEqProofs
@[simp] theorem genEnd_arrays (s : State) (tid : Nat) : (genEnd s tid).arrays = s.arrays := by unfold genEnd; simp -implicitDefEqProofs
@[simp] theorem genEnd_ports (s : State) (tid : Nat) : (genEnd s tid).ports = s.ports := by unfold genEnd; simp -implicitDefEqProofs
@[simp] theorem genEnd_masks (s : State) (tid : Nat) : (genEnd s tid).masks = s.masks := by unfold genEnd; simp -implicitDefEqProofs
@[simp] theorem genEnd_trust (s : State) (tid : Nat) : (genEnd s tid).trust = s.trust := by unfold genEnd; simp -implicitDefEqProofs
@[simp] theorem genEnd_power (s : State) (tid : Nat) : (genEnd s tid).power = s.power := by unfold genEnd; simp -implicitDefEqProofs
@[simp] theorem genEnd_ctxs (s : State) (tid : Nat) : (genEnd s tid).ctxs = s.ctxs := by unfold genEnd; simp -implicitDefEqProofs
@[simp] theorem genEnd_funcs (s : State) (tid : Nat) : (genEnd s tid).funcs = s.funcs := by unfold genEnd; simp -implicitDefEqProofs
@[simp] theorem genEnd_assign (s : State) (tid : Nat) : (genEnd s tid).assign = s.assign := by unfold genEnd; simp -implicitDefEqProofs
@[simp] theorem genEnd_paths (s : State) (tid : Nat) : (genEnd s tid).paths = s.paths := by unfold genEnd; simp -implicitDefEqProofs
@[simp] theorem genEnter_pending (s : State) (tid : Nat) (job : Nat) : (genEnter s tid job).pending = s.pending := by unfold genEnter; simp -implicitDefEqProofs
@[simp] theorem genEnter_mem (s : State) (tid : Nat) (job : Nat) : (genEnter s tid job).mem = s.mem := by unfold genEnter; simp -implicitDefEqProofs
@[simp] theorem genEnter_poison (s : State) (tid : Nat) (job : Nat) : (genEnter s tid job).poison = s.poison := by unfold genEnter; simp -implicitDefEqProofs
@[simp] theorem genEnter_queues (s : State) (tid : Nat) (job : Nat) : (genEnter s tid job).queues = s.queues := by unfold genEnter; simp -implicitDefEqProofs
@[simp] theorem genEnter_sems (s : State) (tid : Nat) (job : Nat) : (genEnter s tid job).sems = s.sems := by unfold genEnter; simp -implicitDefEqProofs
@[simp] theorem genEnter_jobs (s : State) (tid : Nat) (job : Nat) : (genEnter s tid job).jobs = s.jobs := by unfold genEnter; simp -implicitDefEqProofs
@[simp] theorem genEnter_time (s : State) (tid : Nat) (job : Nat) : (genEnter s tid job).time = s.time := by unfold genEnter; simp -implicitDefEqProofs
@[simp] theorem genEnter_arrays (s : State) (tid : Nat) (job : Nat) : (genEnter s tid job).arrays = s.arrays := by unfold genEnter; simp -implicitDefEqProofs
@[simp] theorem genEnter_ports (s : State) (tid : Nat) (job : Nat) : (genEnter s tid job).ports = s.ports := by unfold genEnter; simp -implicitDefEqProofs
@[simp] theorem genEnter_masks (s : State) (tid : Nat) (job : Nat) : (genEnter s tid job).masks = s.masks := by unfold genEnter; simp -implicitDefEqProofs
@[simp] theorem genEnter_trust (s : State) (tid : Nat) (job : Nat) : (genEnter s tid job).trust = s.trust := by unfold genEnter; simp -implicitDefEqProofs
@[simp] theorem genEnter_power (s : State) (tid : Nat) (job : Nat) : (genEnter s tid job).power = s.power := by unfold genEnter; simp -implicitDefEqProofs
@[simp] theorem genEnter_ctxs (s : State) (tid : Nat) (job : Nat) : (genEnter s tid job).ctxs = s.ctxs := by unfold genEnter; simp -implicitDefEqProofs
@[simp] theorem genEnter_funcs (s : State) (tid : Nat) (job : Nat) : (genEnter s tid job).funcs = s.funcs := by unfold genEnter; simp -implicitDefEqProofs
@[simp] theorem genEnter_assign (s : State) (tid : Nat) (job : Nat) : (genEnter s tid job).assign = s.assign := by unfold genEnter; simp -implicitDefEqProofs
@[simp] theorem genEnter_paths (s : State) (tid : Nat) (job : Nat) : (genEnter s tid job).paths = s.paths := by unfold genEnter; simp -implicitDefEqProofs
@[simp] theorem traceRec_pending (s : State) (q : QNum) (op : BitVec 8) (complete : Bool) (status : Nat) (seq : Nat) : (traceRec s q op complete status seq).pending = s.pending := by unfold traceRec; simp -implicitDefEqProofs
@[simp] theorem traceRec_mem (s : State) (q : QNum) (op : BitVec 8) (complete : Bool) (status : Nat) (seq : Nat) : (traceRec s q op complete status seq).mem = s.mem := by unfold traceRec; simp -implicitDefEqProofs
@[simp] theorem traceRec_poison (s : State) (q : QNum) (op : BitVec 8) (complete : Bool) (status : Nat) (seq : Nat) : (traceRec s q op complete status seq).poison = s.poison := by unfold traceRec; simp -implicitDefEqProofs
@[simp] theorem traceRec_queues (s : State) (q : QNum) (op : BitVec 8) (complete : Bool) (status : Nat) (seq : Nat) : (traceRec s q op complete status seq).queues = s.queues := by unfold traceRec; simp -implicitDefEqProofs
@[simp] theorem traceRec_sems (s : State) (q : QNum) (op : BitVec 8) (complete : Bool) (status : Nat) (seq : Nat) : (traceRec s q op complete status seq).sems = s.sems := by unfold traceRec; simp -implicitDefEqProofs
@[simp] theorem traceRec_jobs (s : State) (q : QNum) (op : BitVec 8) (complete : Bool) (status : Nat) (seq : Nat) : (traceRec s q op complete status seq).jobs = s.jobs := by unfold traceRec; simp -implicitDefEqProofs
@[simp] theorem traceRec_time (s : State) (q : QNum) (op : BitVec 8) (complete : Bool) (status : Nat) (seq : Nat) : (traceRec s q op complete status seq).time = s.time := by unfold traceRec; simp -implicitDefEqProofs
@[simp] theorem traceRec_arrays (s : State) (q : QNum) (op : BitVec 8) (complete : Bool) (status : Nat) (seq : Nat) : (traceRec s q op complete status seq).arrays = s.arrays := by unfold traceRec; simp -implicitDefEqProofs
@[simp] theorem traceRec_ports (s : State) (q : QNum) (op : BitVec 8) (complete : Bool) (status : Nat) (seq : Nat) : (traceRec s q op complete status seq).ports = s.ports := by unfold traceRec; simp -implicitDefEqProofs
@[simp] theorem traceRec_masks (s : State) (q : QNum) (op : BitVec 8) (complete : Bool) (status : Nat) (seq : Nat) : (traceRec s q op complete status seq).masks = s.masks := by unfold traceRec; simp -implicitDefEqProofs
@[simp] theorem traceRec_trust (s : State) (q : QNum) (op : BitVec 8) (complete : Bool) (status : Nat) (seq : Nat) : (traceRec s q op complete status seq).trust = s.trust := by unfold traceRec; simp -implicitDefEqProofs
@[simp] theorem traceRec_power (s : State) (q : QNum) (op : BitVec 8) (complete : Bool) (status : Nat) (seq : Nat) : (traceRec s q op complete status seq).power = s.power := by unfold traceRec; simp -implicitDefEqProofs
@[simp] theorem traceRec_ctxs (s : State) (q : QNum) (op : BitVec 8) (complete : Bool) (status : Nat) (seq : Nat) : (traceRec s q op complete status seq).ctxs = s.ctxs := by unfold traceRec; simp -implicitDefEqProofs
@[simp] theorem traceRec_funcs (s : State) (q : QNum) (op : BitVec 8) (complete : Bool) (status : Nat) (seq : Nat) : (traceRec s q op complete status seq).funcs = s.funcs := by unfold traceRec; simp -implicitDefEqProofs
@[simp] theorem traceRec_assign (s : State) (q : QNum) (op : BitVec 8) (complete : Bool) (status : Nat) (seq : Nat) : (traceRec s q op complete status seq).assign = s.assign := by unfold traceRec; simp -implicitDefEqProofs
@[simp] theorem traceRec_paths (s : State) (q : QNum) (op : BitVec 8) (complete : Bool) (status : Nat) (seq : Nat) : (traceRec s q op complete status seq).paths = s.paths := by unfold traceRec; simp -implicitDefEqProofs
@[simp] theorem undeadlock_pending (p : Hold → Bool) (s : State) : (undeadlock p s).pending = s.pending := (rfl)
@[simp] theorem undeadlock_mem (p : Hold → Bool) (s : State) : (undeadlock p s).mem = s.mem := (rfl)
@[simp] theorem undeadlock_poison (p : Hold → Bool) (s : State) : (undeadlock p s).poison = s.poison := (rfl)
@[simp] theorem undeadlock_queues (p : Hold → Bool) (s : State) : (undeadlock p s).queues = s.queues := (rfl)
@[simp] theorem undeadlock_sems (p : Hold → Bool) (s : State) : (undeadlock p s).sems = s.sems := (rfl)
@[simp] theorem undeadlock_time (p : Hold → Bool) (s : State) : (undeadlock p s).time = s.time := (rfl)
@[simp] theorem undeadlock_arrays (p : Hold → Bool) (s : State) : (undeadlock p s).arrays = s.arrays := (rfl)
@[simp] theorem undeadlock_ports (p : Hold → Bool) (s : State) : (undeadlock p s).ports = s.ports := (rfl)
@[simp] theorem undeadlock_masks (p : Hold → Bool) (s : State) : (undeadlock p s).masks = s.masks := (rfl)
@[simp] theorem undeadlock_trust (p : Hold → Bool) (s : State) : (undeadlock p s).trust = s.trust := (rfl)
@[simp] theorem undeadlock_power (p : Hold → Bool) (s : State) : (undeadlock p s).power = s.power := (rfl)
@[simp] theorem undeadlock_ctxs (p : Hold → Bool) (s : State) : (undeadlock p s).ctxs = s.ctxs := (rfl)
@[simp] theorem undeadlock_funcs (p : Hold → Bool) (s : State) : (undeadlock p s).funcs = s.funcs := (rfl)
@[simp] theorem undeadlock_assign (p : Hold → Bool) (s : State) : (undeadlock p s).assign = s.assign := (rfl)
@[simp] theorem undeadlock_paths (p : Hold → Bool) (s : State) : (undeadlock p s).paths = s.paths := (rfl)
@[simp] theorem semStore_pending (s : State) (n : Nat) (v : BitVec 64) : (semStore s n v).pending = s.pending := by unfold semStore; simp -implicitDefEqProofs
@[simp] theorem semStore_mem (s : State) (n : Nat) (v : BitVec 64) : (semStore s n v).mem = s.mem := by unfold semStore; simp -implicitDefEqProofs
@[simp] theorem semStore_poison (s : State) (n : Nat) (v : BitVec 64) : (semStore s n v).poison = s.poison := by unfold semStore; simp -implicitDefEqProofs
@[simp] theorem semStore_time (s : State) (n : Nat) (v : BitVec 64) : (semStore s n v).time = s.time := by unfold semStore; simp -implicitDefEqProofs
@[simp] theorem semStore_arrays (s : State) (n : Nat) (v : BitVec 64) : (semStore s n v).arrays = s.arrays := by unfold semStore; simp -implicitDefEqProofs
@[simp] theorem semStore_ports (s : State) (n : Nat) (v : BitVec 64) : (semStore s n v).ports = s.ports := by unfold semStore; simp -implicitDefEqProofs
@[simp] theorem semStore_masks (s : State) (n : Nat) (v : BitVec 64) : (semStore s n v).masks = s.masks := by unfold semStore; simp -implicitDefEqProofs
@[simp] theorem semStore_trust (s : State) (n : Nat) (v : BitVec 64) : (semStore s n v).trust = s.trust := by unfold semStore; simp -implicitDefEqProofs
@[simp] theorem semStore_power (s : State) (n : Nat) (v : BitVec 64) : (semStore s n v).power = s.power := by unfold semStore; simp -implicitDefEqProofs
@[simp] theorem semStore_ctxs (s : State) (n : Nat) (v : BitVec 64) : (semStore s n v).ctxs = s.ctxs := by unfold semStore; simp -implicitDefEqProofs
@[simp] theorem semStore_funcs (s : State) (n : Nat) (v : BitVec 64) : (semStore s n v).funcs = s.funcs := by unfold semStore; simp -implicitDefEqProofs
@[simp] theorem semStore_assign (s : State) (n : Nat) (v : BitVec 64) : (semStore s n v).assign = s.assign := by unfold semStore; simp -implicitDefEqProofs
@[simp] theorem semStore_paths (s : State) (n : Nat) (v : BitVec 64) : (semStore s n v).paths = s.paths := by unfold semStore; simp -implicitDefEqProofs
@[simp] theorem semAdd_pending (s : State) (n : Nat) (v : BitVec 64) : (semAdd s n v).pending = s.pending := by unfold semAdd; simp -implicitDefEqProofs
@[simp] theorem semAdd_mem (s : State) (n : Nat) (v : BitVec 64) : (semAdd s n v).mem = s.mem := by unfold semAdd; simp -implicitDefEqProofs
@[simp] theorem semAdd_poison (s : State) (n : Nat) (v : BitVec 64) : (semAdd s n v).poison = s.poison := by unfold semAdd; simp -implicitDefEqProofs
@[simp] theorem semAdd_time (s : State) (n : Nat) (v : BitVec 64) : (semAdd s n v).time = s.time := by unfold semAdd; simp -implicitDefEqProofs
@[simp] theorem semAdd_arrays (s : State) (n : Nat) (v : BitVec 64) : (semAdd s n v).arrays = s.arrays := by unfold semAdd; simp -implicitDefEqProofs
@[simp] theorem semAdd_ports (s : State) (n : Nat) (v : BitVec 64) : (semAdd s n v).ports = s.ports := by unfold semAdd; simp -implicitDefEqProofs
@[simp] theorem semAdd_masks (s : State) (n : Nat) (v : BitVec 64) : (semAdd s n v).masks = s.masks := by unfold semAdd; simp -implicitDefEqProofs
@[simp] theorem semAdd_trust (s : State) (n : Nat) (v : BitVec 64) : (semAdd s n v).trust = s.trust := by unfold semAdd; simp -implicitDefEqProofs
@[simp] theorem semAdd_power (s : State) (n : Nat) (v : BitVec 64) : (semAdd s n v).power = s.power := by unfold semAdd; simp -implicitDefEqProofs
@[simp] theorem semAdd_ctxs (s : State) (n : Nat) (v : BitVec 64) : (semAdd s n v).ctxs = s.ctxs := by unfold semAdd; simp -implicitDefEqProofs
@[simp] theorem semAdd_funcs (s : State) (n : Nat) (v : BitVec 64) : (semAdd s n v).funcs = s.funcs := by unfold semAdd; simp -implicitDefEqProofs
@[simp] theorem semAdd_assign (s : State) (n : Nat) (v : BitVec 64) : (semAdd s n v).assign = s.assign := by unfold semAdd; simp -implicitDefEqProofs
@[simp] theorem semAdd_paths (s : State) (n : Nat) (v : BitVec 64) : (semAdd s n v).paths = s.paths := by unfold semAdd; simp -implicitDefEqProofs
@[simp] theorem failWaits_pending (s : State) (n : Nat) (status : Nat) : (failWaits s n status).pending = s.pending := (rfl)
@[simp] theorem failWaits_mem (s : State) (n : Nat) (status : Nat) : (failWaits s n status).mem = s.mem := (rfl)
@[simp] theorem failWaits_poison (s : State) (n : Nat) (status : Nat) : (failWaits s n status).poison = s.poison := (rfl)
@[simp] theorem failWaits_sems (s : State) (n : Nat) (status : Nat) : (failWaits s n status).sems = s.sems := (rfl)
@[simp] theorem failWaits_jobs (s : State) (n : Nat) (status : Nat) : (failWaits s n status).jobs = s.jobs := (rfl)
@[simp] theorem failWaits_time (s : State) (n : Nat) (status : Nat) : (failWaits s n status).time = s.time := (rfl)
@[simp] theorem failWaits_arrays (s : State) (n : Nat) (status : Nat) : (failWaits s n status).arrays = s.arrays := (rfl)
@[simp] theorem failWaits_ports (s : State) (n : Nat) (status : Nat) : (failWaits s n status).ports = s.ports := (rfl)
@[simp] theorem failWaits_masks (s : State) (n : Nat) (status : Nat) : (failWaits s n status).masks = s.masks := (rfl)
@[simp] theorem failWaits_trust (s : State) (n : Nat) (status : Nat) : (failWaits s n status).trust = s.trust := (rfl)
@[simp] theorem failWaits_power (s : State) (n : Nat) (status : Nat) : (failWaits s n status).power = s.power := (rfl)
@[simp] theorem failWaits_funcs (s : State) (n : Nat) (status : Nat) : (failWaits s n status).funcs = s.funcs := (rfl)
@[simp] theorem failWaits_assign (s : State) (n : Nat) (status : Nat) : (failWaits s n status).assign = s.assign := (rfl)
@[simp] theorem failWaits_paths (s : State) (n : Nat) (status : Nat) : (failWaits s n status).paths = s.paths := (rfl)
@[simp] theorem orphanSems_pending (s : State) (f : Nat) : (orphanSems s f).pending = s.pending := by unfold orphanSems; simp -implicitDefEqProofs
@[simp] theorem orphanSems_mem (s : State) (f : Nat) : (orphanSems s f).mem = s.mem := by unfold orphanSems; simp -implicitDefEqProofs
@[simp] theorem orphanSems_poison (s : State) (f : Nat) : (orphanSems s f).poison = s.poison := by unfold orphanSems; simp -implicitDefEqProofs
@[simp] theorem orphanSems_jobs (s : State) (f : Nat) : (orphanSems s f).jobs = s.jobs := by unfold orphanSems; simp -implicitDefEqProofs
@[simp] theorem orphanSems_time (s : State) (f : Nat) : (orphanSems s f).time = s.time := by unfold orphanSems; simp -implicitDefEqProofs
@[simp] theorem orphanSems_arrays (s : State) (f : Nat) : (orphanSems s f).arrays = s.arrays := by unfold orphanSems; simp -implicitDefEqProofs
@[simp] theorem orphanSems_ports (s : State) (f : Nat) : (orphanSems s f).ports = s.ports := by unfold orphanSems; simp -implicitDefEqProofs
@[simp] theorem orphanSems_masks (s : State) (f : Nat) : (orphanSems s f).masks = s.masks := by unfold orphanSems; simp -implicitDefEqProofs
@[simp] theorem orphanSems_trust (s : State) (f : Nat) : (orphanSems s f).trust = s.trust := by unfold orphanSems; simp -implicitDefEqProofs
@[simp] theorem orphanSems_power (s : State) (f : Nat) : (orphanSems s f).power = s.power := by unfold orphanSems; simp -implicitDefEqProofs
@[simp] theorem orphanSems_funcs (s : State) (f : Nat) : (orphanSems s f).funcs = s.funcs := by unfold orphanSems; simp -implicitDefEqProofs
@[simp] theorem orphanSems_assign (s : State) (f : Nat) : (orphanSems s f).assign = s.assign := by unfold orphanSems; simp -implicitDefEqProofs
@[simp] theorem orphanSems_paths (s : State) (f : Nat) : (orphanSems s f).paths = s.paths := by unfold orphanSems; simp -implicitDefEqProofs
@[simp] theorem block_pending (s : State) (q : QNum) (h : Hold) : (block s q h).pending = s.pending := (rfl)
@[simp] theorem block_mem (s : State) (q : QNum) (h : Hold) : (block s q h).mem = s.mem := (rfl)
@[simp] theorem block_poison (s : State) (q : QNum) (h : Hold) : (block s q h).poison = s.poison := (rfl)
@[simp] theorem block_sems (s : State) (q : QNum) (h : Hold) : (block s q h).sems = s.sems := (rfl)
@[simp] theorem block_jobs (s : State) (q : QNum) (h : Hold) : (block s q h).jobs = s.jobs := (rfl)
@[simp] theorem block_time (s : State) (q : QNum) (h : Hold) : (block s q h).time = s.time := (rfl)
@[simp] theorem block_arrays (s : State) (q : QNum) (h : Hold) : (block s q h).arrays = s.arrays := (rfl)
@[simp] theorem block_ports (s : State) (q : QNum) (h : Hold) : (block s q h).ports = s.ports := (rfl)
@[simp] theorem block_masks (s : State) (q : QNum) (h : Hold) : (block s q h).masks = s.masks := (rfl)
@[simp] theorem block_trust (s : State) (q : QNum) (h : Hold) : (block s q h).trust = s.trust := (rfl)
@[simp] theorem block_power (s : State) (q : QNum) (h : Hold) : (block s q h).power = s.power := (rfl)
@[simp] theorem block_ctxs (s : State) (q : QNum) (h : Hold) : (block s q h).ctxs = s.ctxs := (rfl)
@[simp] theorem block_funcs (s : State) (q : QNum) (h : Hold) : (block s q h).funcs = s.funcs := (rfl)
@[simp] theorem block_assign (s : State) (q : QNum) (h : Hold) : (block s q h).assign = s.assign := (rfl)
@[simp] theorem block_paths (s : State) (q : QNum) (h : Hold) : (block s q h).paths = s.paths := (rfl)
@[simp] theorem pushStarted_pending (s : State) (q : QNum) (w : Started) : (pushStarted s q w).pending = s.pending := by unfold pushStarted; simp -implicitDefEqProofs
@[simp] theorem pushStarted_mem (s : State) (q : QNum) (w : Started) : (pushStarted s q w).mem = s.mem := by unfold pushStarted; simp -implicitDefEqProofs
@[simp] theorem pushStarted_poison (s : State) (q : QNum) (w : Started) : (pushStarted s q w).poison = s.poison := by unfold pushStarted; simp -implicitDefEqProofs
@[simp] theorem pushStarted_sems (s : State) (q : QNum) (w : Started) : (pushStarted s q w).sems = s.sems := by unfold pushStarted; simp -implicitDefEqProofs
@[simp] theorem pushStarted_jobs (s : State) (q : QNum) (w : Started) : (pushStarted s q w).jobs = s.jobs := by unfold pushStarted; simp -implicitDefEqProofs
@[simp] theorem pushStarted_time (s : State) (q : QNum) (w : Started) : (pushStarted s q w).time = s.time := by unfold pushStarted; simp -implicitDefEqProofs
@[simp] theorem pushStarted_arrays (s : State) (q : QNum) (w : Started) : (pushStarted s q w).arrays = s.arrays := by unfold pushStarted; simp -implicitDefEqProofs
@[simp] theorem pushStarted_ports (s : State) (q : QNum) (w : Started) : (pushStarted s q w).ports = s.ports := by unfold pushStarted; simp -implicitDefEqProofs
@[simp] theorem pushStarted_masks (s : State) (q : QNum) (w : Started) : (pushStarted s q w).masks = s.masks := by unfold pushStarted; simp -implicitDefEqProofs
@[simp] theorem pushStarted_trust (s : State) (q : QNum) (w : Started) : (pushStarted s q w).trust = s.trust := by unfold pushStarted; simp -implicitDefEqProofs
@[simp] theorem pushStarted_power (s : State) (q : QNum) (w : Started) : (pushStarted s q w).power = s.power := by unfold pushStarted; simp -implicitDefEqProofs
@[simp] theorem pushStarted_ctxs (s : State) (q : QNum) (w : Started) : (pushStarted s q w).ctxs = s.ctxs := by unfold pushStarted; simp -implicitDefEqProofs
@[simp] theorem pushStarted_funcs (s : State) (q : QNum) (w : Started) : (pushStarted s q w).funcs = s.funcs := by unfold pushStarted; simp -implicitDefEqProofs
@[simp] theorem pushStarted_assign (s : State) (q : QNum) (w : Started) : (pushStarted s q w).assign = s.assign := by unfold pushStarted; simp -implicitDefEqProofs
@[simp] theorem pushStarted_paths (s : State) (q : QNum) (w : Started) : (pushStarted s q w).paths = s.paths := by unfold pushStarted; simp -implicitDefEqProofs
@[simp] theorem readRoot_pending (s : State) (x : Queue) : (readRoot s x).pending = s.pending := by unfold readRoot; (repeat' split) <;> simp
@[simp] theorem readRoot_mem (s : State) (x : Queue) : (readRoot s x).mem = s.mem := by unfold readRoot; (repeat' split) <;> simp
@[simp] theorem readRoot_poison (s : State) (x : Queue) : (readRoot s x).poison = s.poison := by unfold readRoot; (repeat' split) <;> simp
@[simp] theorem readRoot_queues (s : State) (x : Queue) : (readRoot s x).queues = s.queues := by unfold readRoot; (repeat' split) <;> simp
@[simp] theorem readRoot_sems (s : State) (x : Queue) : (readRoot s x).sems = s.sems := by unfold readRoot; (repeat' split) <;> simp
@[simp] theorem readRoot_time (s : State) (x : Queue) : (readRoot s x).time = s.time := by unfold readRoot; (repeat' split) <;> simp
@[simp] theorem readRoot_arrays (s : State) (x : Queue) : (readRoot s x).arrays = s.arrays := by unfold readRoot; (repeat' split) <;> simp
@[simp] theorem readRoot_ports (s : State) (x : Queue) : (readRoot s x).ports = s.ports := by unfold readRoot; (repeat' split) <;> simp
@[simp] theorem readRoot_masks (s : State) (x : Queue) : (readRoot s x).masks = s.masks := by unfold readRoot; (repeat' split) <;> simp
@[simp] theorem readRoot_trust (s : State) (x : Queue) : (readRoot s x).trust = s.trust := by unfold readRoot; (repeat' split) <;> simp
@[simp] theorem readRoot_power (s : State) (x : Queue) : (readRoot s x).power = s.power := by unfold readRoot; (repeat' split) <;> simp
@[simp] theorem readRoot_ctxs (s : State) (x : Queue) : (readRoot s x).ctxs = s.ctxs := by unfold readRoot; (repeat' split) <;> simp
@[simp] theorem readRoot_funcs (s : State) (x : Queue) : (readRoot s x).funcs = s.funcs := by unfold readRoot; (repeat' split) <;> simp
@[simp] theorem readRoot_assign (s : State) (x : Queue) : (readRoot s x).assign = s.assign := by unfold readRoot; (repeat' split) <;> simp
@[simp] theorem readRoot_paths (s : State) (x : Queue) : (readRoot s x).paths = s.paths := by unfold readRoot; (repeat' split) <;> simp
@[simp] theorem forgetRefusals_pending (s : State) (f : Nat) (reason : Nat) : (forgetRefusals s f reason).pending = s.pending := by unfold forgetRefusals; simp -implicitDefEqProofs
@[simp] theorem forgetRefusals_mem (s : State) (f : Nat) (reason : Nat) : (forgetRefusals s f reason).mem = s.mem := by unfold forgetRefusals; simp -implicitDefEqProofs
@[simp] theorem forgetRefusals_poison (s : State) (f : Nat) (reason : Nat) : (forgetRefusals s f reason).poison = s.poison := by unfold forgetRefusals; simp -implicitDefEqProofs
@[simp] theorem forgetRefusals_queues (s : State) (f : Nat) (reason : Nat) : (forgetRefusals s f reason).queues = s.queues := by unfold forgetRefusals; simp -implicitDefEqProofs
@[simp] theorem forgetRefusals_sems (s : State) (f : Nat) (reason : Nat) : (forgetRefusals s f reason).sems = s.sems := by unfold forgetRefusals; simp -implicitDefEqProofs
@[simp] theorem forgetRefusals_jobs (s : State) (f : Nat) (reason : Nat) : (forgetRefusals s f reason).jobs = s.jobs := by unfold forgetRefusals; simp -implicitDefEqProofs
@[simp] theorem forgetRefusals_time (s : State) (f : Nat) (reason : Nat) : (forgetRefusals s f reason).time = s.time := by unfold forgetRefusals; simp -implicitDefEqProofs
@[simp] theorem forgetRefusals_arrays (s : State) (f : Nat) (reason : Nat) : (forgetRefusals s f reason).arrays = s.arrays := by unfold forgetRefusals; simp -implicitDefEqProofs
@[simp] theorem forgetRefusals_ports (s : State) (f : Nat) (reason : Nat) : (forgetRefusals s f reason).ports = s.ports := by unfold forgetRefusals; simp -implicitDefEqProofs
@[simp] theorem forgetRefusals_masks (s : State) (f : Nat) (reason : Nat) : (forgetRefusals s f reason).masks = s.masks := by unfold forgetRefusals; simp -implicitDefEqProofs
@[simp] theorem forgetRefusals_trust (s : State) (f : Nat) (reason : Nat) : (forgetRefusals s f reason).trust = s.trust := by unfold forgetRefusals; simp -implicitDefEqProofs
@[simp] theorem forgetRefusals_power (s : State) (f : Nat) (reason : Nat) : (forgetRefusals s f reason).power = s.power := by unfold forgetRefusals; simp -implicitDefEqProofs
@[simp] theorem forgetRefusals_ctxs (s : State) (f : Nat) (reason : Nat) : (forgetRefusals s f reason).ctxs = s.ctxs := by unfold forgetRefusals; simp -implicitDefEqProofs
@[simp] theorem forgetRefusals_assign (s : State) (f : Nat) (reason : Nat) : (forgetRefusals s f reason).assign = s.assign := by unfold forgetRefusals; simp -implicitDefEqProofs
@[simp] theorem forgetRefusals_paths (s : State) (f : Nat) (reason : Nat) : (forgetRefusals s f reason).paths = s.paths := by unfold forgetRefusals; simp -implicitDefEqProofs
@[simp] theorem dropRef_pending (s : State) (id : Nat) : (dropRef s id).pending = s.pending := by unfold dropRef; (repeat' split) <;> simp
@[simp] theorem dropRef_mem (s : State) (id : Nat) : (dropRef s id).mem = s.mem := by unfold dropRef; (repeat' split) <;> simp
@[simp] theorem dropRef_poison (s : State) (id : Nat) : (dropRef s id).poison = s.poison := by unfold dropRef; (repeat' split) <;> simp
@[simp] theorem dropRef_queues (s : State) (id : Nat) : (dropRef s id).queues = s.queues := by unfold dropRef; (repeat' split) <;> simp
@[simp] theorem dropRef_sems (s : State) (id : Nat) : (dropRef s id).sems = s.sems := by unfold dropRef; (repeat' split) <;> simp
@[simp] theorem dropRef_time (s : State) (id : Nat) : (dropRef s id).time = s.time := by unfold dropRef; (repeat' split) <;> simp
@[simp] theorem dropRef_arrays (s : State) (id : Nat) : (dropRef s id).arrays = s.arrays := by unfold dropRef; (repeat' split) <;> simp
@[simp] theorem dropRef_ports (s : State) (id : Nat) : (dropRef s id).ports = s.ports := by unfold dropRef; (repeat' split) <;> simp
@[simp] theorem dropRef_trust (s : State) (id : Nat) : (dropRef s id).trust = s.trust := by unfold dropRef; (repeat' split) <;> simp
@[simp] theorem dropRef_power (s : State) (id : Nat) : (dropRef s id).power = s.power := by unfold dropRef; (repeat' split) <;> simp
@[simp] theorem dropRef_ctxs (s : State) (id : Nat) : (dropRef s id).ctxs = s.ctxs := by unfold dropRef; (repeat' split) <;> simp
@[simp] theorem dropRef_funcs (s : State) (id : Nat) : (dropRef s id).funcs = s.funcs := by unfold dropRef; (repeat' split) <;> simp
@[simp] theorem dropRef_assign (s : State) (id : Nat) : (dropRef s id).assign = s.assign := by unfold dropRef; (repeat' split) <;> simp
@[simp] theorem dropRef_paths (s : State) (id : Nat) : (dropRef s id).paths = s.paths := by unfold dropRef; (repeat' split) <;> simp
@[simp] theorem dropTileRef_pending (s : State) (a : Nat) : (dropTileRef s a).pending = s.pending := by unfold dropTileRef; (try simp only []); (repeat' split) <;> (try rename_i h) <;> (first | (simp; done) | (simp [vWrite_ok_pending h]; done) | (simp [vWrite_ok_pending h]; split <;> simp) | (simp [vRead_ok_pending h]; done) | (simp; split <;> simp) | simp_all)
@[simp] theorem dropTileRef_mem (s : State) (a : Nat) : (dropTileRef s a).mem = s.mem := by unfold dropTileRef; (try simp only []); (repeat' split) <;> (try rename_i h) <;> (first | (simp; done) | (simp [vWrite_ok_mem h]; done) | (simp [vWrite_ok_mem h]; split <;> simp) | (simp [vRead_ok_mem h]; done) | (simp; split <;> simp) | simp_all)
@[simp] theorem dropTileRef_poison (s : State) (a : Nat) : (dropTileRef s a).poison = s.poison := by unfold dropTileRef; (try simp only []); (repeat' split) <;> (try rename_i h) <;> (first | (simp; done) | (simp [vWrite_ok_poison h]; done) | (simp [vWrite_ok_poison h]; split <;> simp) | (simp [vRead_ok_poison h]; done) | (simp; split <;> simp) | simp_all)
@[simp] theorem dropTileRef_queues (s : State) (a : Nat) : (dropTileRef s a).queues = s.queues := by unfold dropTileRef; (try simp only []); (repeat' split) <;> (try rename_i h) <;> (first | (simp; done) | (simp [vWrite_ok_queues h]; done) | (simp [vWrite_ok_queues h]; split <;> simp) | (simp [vRead_ok_queues h]; done) | (simp; split <;> simp) | simp_all)
@[simp] theorem dropTileRef_sems (s : State) (a : Nat) : (dropTileRef s a).sems = s.sems := by unfold dropTileRef; (try simp only []); (repeat' split) <;> (try rename_i h) <;> (first | (simp; done) | (simp [vWrite_ok_sems h]; done) | (simp [vWrite_ok_sems h]; split <;> simp) | (simp [vRead_ok_sems h]; done) | (simp; split <;> simp) | simp_all)
@[simp] theorem dropTileRef_time (s : State) (a : Nat) : (dropTileRef s a).time = s.time := by unfold dropTileRef; (try simp only []); (repeat' split) <;> (try rename_i h) <;> (first | (simp; done) | (simp [vWrite_ok_time h]; done) | (simp [vWrite_ok_time h]; split <;> simp) | (simp [vRead_ok_time h]; done) | (simp; split <;> simp) | simp_all)
@[simp] theorem dropTileRef_ports (s : State) (a : Nat) : (dropTileRef s a).ports = s.ports := by unfold dropTileRef; (try simp only []); (repeat' split) <;> (try rename_i h) <;> (first | (simp; done) | (simp [vWrite_ok_ports h]; done) | (simp [vWrite_ok_ports h]; split <;> simp) | (simp [vRead_ok_ports h]; done) | (simp; split <;> simp) | simp_all)
@[simp] theorem dropTileRef_trust (s : State) (a : Nat) : (dropTileRef s a).trust = s.trust := by unfold dropTileRef; (try simp only []); (repeat' split) <;> (try rename_i h) <;> (first | (simp; done) | (simp [vWrite_ok_trust h]; done) | (simp [vWrite_ok_trust h]; split <;> simp) | (simp [vRead_ok_trust h]; done) | (simp; split <;> simp) | simp_all)
@[simp] theorem dropTileRef_power (s : State) (a : Nat) : (dropTileRef s a).power = s.power := by unfold dropTileRef; (try simp only []); (repeat' split) <;> (try rename_i h) <;> (first | (simp; done) | (simp [vWrite_ok_power h]; done) | (simp [vWrite_ok_power h]; split <;> simp) | (simp [vRead_ok_power h]; done) | (simp; split <;> simp) | simp_all)
@[simp] theorem dropTileRef_ctxs (s : State) (a : Nat) : (dropTileRef s a).ctxs = s.ctxs := by unfold dropTileRef; (try simp only []); (repeat' split) <;> (try rename_i h) <;> (first | (simp; done) | (simp [vWrite_ok_ctxs h]; done) | (simp [vWrite_ok_ctxs h]; split <;> simp) | (simp [vRead_ok_ctxs h]; done) | (simp; split <;> simp) | simp_all)
@[simp] theorem dropTileRef_funcs (s : State) (a : Nat) : (dropTileRef s a).funcs = s.funcs := by unfold dropTileRef; (try simp only []); (repeat' split) <;> (try rename_i h) <;> (first | (simp; done) | (simp [vWrite_ok_funcs h]; done) | (simp [vWrite_ok_funcs h]; split <;> simp) | (simp [vRead_ok_funcs h]; done) | (simp; split <;> simp) | simp_all)
@[simp] theorem dropTileRef_assign (s : State) (a : Nat) : (dropTileRef s a).assign = s.assign := by unfold dropTileRef; (try simp only []); (repeat' split) <;> (try rename_i h) <;> (first | (simp; done) | (simp [vWrite_ok_assign h]; done) | (simp [vWrite_ok_assign h]; split <;> simp) | (simp [vRead_ok_assign h]; done) | (simp; split <;> simp) | simp_all)
@[simp] theorem dropTileRef_paths (s : State) (a : Nat) : (dropTileRef s a).paths = s.paths := by unfold dropTileRef; (try simp only []); (repeat' split) <;> (try rename_i h) <;> (first | (simp; done) | (simp [vWrite_ok_paths h]; done) | (simp [vWrite_ok_paths h]; split <;> simp) | (simp [vRead_ok_paths h]; done) | (simp; split <;> simp) | simp_all)
@[simp] theorem noteLate_pending (s : State) (q : QNum) (c : Cmd) : (noteLate s q c).pending = s.pending := by unfold noteLate; simp -implicitDefEqProofs
@[simp] theorem noteLate_mem (s : State) (q : QNum) (c : Cmd) : (noteLate s q c).mem = s.mem := by unfold noteLate; simp -implicitDefEqProofs
@[simp] theorem noteLate_poison (s : State) (q : QNum) (c : Cmd) : (noteLate s q c).poison = s.poison := by unfold noteLate; simp -implicitDefEqProofs
@[simp] theorem noteLate_queues (s : State) (q : QNum) (c : Cmd) : (noteLate s q c).queues = s.queues := by unfold noteLate; simp -implicitDefEqProofs
@[simp] theorem noteLate_sems (s : State) (q : QNum) (c : Cmd) : (noteLate s q c).sems = s.sems := by unfold noteLate; simp -implicitDefEqProofs
@[simp] theorem noteLate_jobs (s : State) (q : QNum) (c : Cmd) : (noteLate s q c).jobs = s.jobs := by unfold noteLate; simp -implicitDefEqProofs
@[simp] theorem noteLate_time (s : State) (q : QNum) (c : Cmd) : (noteLate s q c).time = s.time := by unfold noteLate; simp -implicitDefEqProofs
@[simp] theorem noteLate_arrays (s : State) (q : QNum) (c : Cmd) : (noteLate s q c).arrays = s.arrays := by unfold noteLate; simp -implicitDefEqProofs
@[simp] theorem noteLate_ports (s : State) (q : QNum) (c : Cmd) : (noteLate s q c).ports = s.ports := by unfold noteLate; simp -implicitDefEqProofs
@[simp] theorem noteLate_masks (s : State) (q : QNum) (c : Cmd) : (noteLate s q c).masks = s.masks := by unfold noteLate; simp -implicitDefEqProofs
@[simp] theorem noteLate_trust (s : State) (q : QNum) (c : Cmd) : (noteLate s q c).trust = s.trust := by unfold noteLate; simp -implicitDefEqProofs
@[simp] theorem noteLate_power (s : State) (q : QNum) (c : Cmd) : (noteLate s q c).power = s.power := by unfold noteLate; simp -implicitDefEqProofs
@[simp] theorem noteLate_ctxs (s : State) (q : QNum) (c : Cmd) : (noteLate s q c).ctxs = s.ctxs := by unfold noteLate; simp -implicitDefEqProofs
@[simp] theorem noteLate_funcs (s : State) (q : QNum) (c : Cmd) : (noteLate s q c).funcs = s.funcs := by unfold noteLate; simp -implicitDefEqProofs
@[simp] theorem noteLate_assign (s : State) (q : QNum) (c : Cmd) : (noteLate s q c).assign = s.assign := by unfold noteLate; simp -implicitDefEqProofs
@[simp] theorem noteLate_paths (s : State) (q : QNum) (c : Cmd) : (noteLate s q c).paths = s.paths := by unfold noteLate; simp -implicitDefEqProofs
@[simp] theorem endAtHead_pending (s : State) (q : QNum) (w : Started) (st : Nat) (dk : Nat) (dt : Nat) : (endAtHead s q w st dk dt).pending = s.pending := by unfold endAtHead; simp -implicitDefEqProofs
@[simp] theorem endAtHead_mem (s : State) (q : QNum) (w : Started) (st : Nat) (dk : Nat) (dt : Nat) : (endAtHead s q w st dk dt).mem = s.mem := by unfold endAtHead; simp -implicitDefEqProofs
@[simp] theorem endAtHead_poison (s : State) (q : QNum) (w : Started) (st : Nat) (dk : Nat) (dt : Nat) : (endAtHead s q w st dk dt).poison = s.poison := by unfold endAtHead; simp -implicitDefEqProofs
@[simp] theorem endAtHead_sems (s : State) (q : QNum) (w : Started) (st : Nat) (dk : Nat) (dt : Nat) : (endAtHead s q w st dk dt).sems = s.sems := by unfold endAtHead; simp -implicitDefEqProofs
@[simp] theorem endAtHead_jobs (s : State) (q : QNum) (w : Started) (st : Nat) (dk : Nat) (dt : Nat) : (endAtHead s q w st dk dt).jobs = s.jobs := by unfold endAtHead; simp -implicitDefEqProofs
@[simp] theorem endAtHead_time (s : State) (q : QNum) (w : Started) (st : Nat) (dk : Nat) (dt : Nat) : (endAtHead s q w st dk dt).time = s.time := by unfold endAtHead; simp -implicitDefEqProofs
@[simp] theorem endAtHead_arrays (s : State) (q : QNum) (w : Started) (st : Nat) (dk : Nat) (dt : Nat) : (endAtHead s q w st dk dt).arrays = s.arrays := by unfold endAtHead; simp -implicitDefEqProofs
@[simp] theorem endAtHead_ports (s : State) (q : QNum) (w : Started) (st : Nat) (dk : Nat) (dt : Nat) : (endAtHead s q w st dk dt).ports = s.ports := by unfold endAtHead; simp -implicitDefEqProofs
@[simp] theorem endAtHead_masks (s : State) (q : QNum) (w : Started) (st : Nat) (dk : Nat) (dt : Nat) : (endAtHead s q w st dk dt).masks = s.masks := by unfold endAtHead; simp -implicitDefEqProofs
@[simp] theorem endAtHead_trust (s : State) (q : QNum) (w : Started) (st : Nat) (dk : Nat) (dt : Nat) : (endAtHead s q w st dk dt).trust = s.trust := by unfold endAtHead; simp -implicitDefEqProofs
@[simp] theorem endAtHead_power (s : State) (q : QNum) (w : Started) (st : Nat) (dk : Nat) (dt : Nat) : (endAtHead s q w st dk dt).power = s.power := by unfold endAtHead; simp -implicitDefEqProofs
@[simp] theorem endAtHead_ctxs (s : State) (q : QNum) (w : Started) (st : Nat) (dk : Nat) (dt : Nat) : (endAtHead s q w st dk dt).ctxs = s.ctxs := by unfold endAtHead; simp -implicitDefEqProofs
@[simp] theorem endAtHead_funcs (s : State) (q : QNum) (w : Started) (st : Nat) (dk : Nat) (dt : Nat) : (endAtHead s q w st dk dt).funcs = s.funcs := by unfold endAtHead; simp -implicitDefEqProofs
@[simp] theorem endAtHead_assign (s : State) (q : QNum) (w : Started) (st : Nat) (dk : Nat) (dt : Nat) : (endAtHead s q w st dk dt).assign = s.assign := by unfold endAtHead; simp -implicitDefEqProofs
@[simp] theorem endAtHead_paths (s : State) (q : QNum) (w : Started) (st : Nat) (dk : Nat) (dt : Nat) : (endAtHead s q w st dk dt).paths = s.paths := by unfold endAtHead; simp -implicitDefEqProofs
@[simp] theorem haltQueue_pending (s : State) (q : QNum) (status : Nat) (seq : Nat) : (haltQueue s q status seq).pending = s.pending := by unfold haltQueue; simp -implicitDefEqProofs
@[simp] theorem haltQueue_sems (s : State) (q : QNum) (status : Nat) (seq : Nat) : (haltQueue s q status seq).sems = s.sems := by unfold haltQueue; simp -implicitDefEqProofs
@[simp] theorem haltQueue_jobs (s : State) (q : QNum) (status : Nat) (seq : Nat) : (haltQueue s q status seq).jobs = s.jobs := by unfold haltQueue; simp -implicitDefEqProofs
@[simp] theorem haltQueue_time (s : State) (q : QNum) (status : Nat) (seq : Nat) : (haltQueue s q status seq).time = s.time := by unfold haltQueue; simp -implicitDefEqProofs
@[simp] theorem haltQueue_arrays (s : State) (q : QNum) (status : Nat) (seq : Nat) : (haltQueue s q status seq).arrays = s.arrays := by unfold haltQueue; simp -implicitDefEqProofs
@[simp] theorem haltQueue_ports (s : State) (q : QNum) (status : Nat) (seq : Nat) : (haltQueue s q status seq).ports = s.ports := by unfold haltQueue; simp -implicitDefEqProofs
@[simp] theorem haltQueue_masks (s : State) (q : QNum) (status : Nat) (seq : Nat) : (haltQueue s q status seq).masks = s.masks := by unfold haltQueue; simp -implicitDefEqProofs
@[simp] theorem haltQueue_trust (s : State) (q : QNum) (status : Nat) (seq : Nat) : (haltQueue s q status seq).trust = s.trust := by unfold haltQueue; simp -implicitDefEqProofs
@[simp] theorem haltQueue_power (s : State) (q : QNum) (status : Nat) (seq : Nat) : (haltQueue s q status seq).power = s.power := by unfold haltQueue; simp -implicitDefEqProofs
@[simp] theorem haltQueue_ctxs (s : State) (q : QNum) (status : Nat) (seq : Nat) : (haltQueue s q status seq).ctxs = s.ctxs := by unfold haltQueue; simp -implicitDefEqProofs
@[simp] theorem haltQueue_assign (s : State) (q : QNum) (status : Nat) (seq : Nat) : (haltQueue s q status seq).assign = s.assign := by unfold haltQueue; simp -implicitDefEqProofs
@[simp] theorem haltQueue_paths (s : State) (q : QNum) (status : Nat) (seq : Nat) : (haltQueue s q status seq).paths = s.paths := by unfold haltQueue; simp -implicitDefEqProofs
@[simp] theorem stopJob_pending (s : State) (f : Nat) (job : Nat) (a : Nat) (level : Nat) : (stopJob s f job a level).pending = s.pending := by unfold stopJob; (try simp only []); (repeat' split) <;> (try rename_i h) <;> (first | (simp; done) | (simp [vWrite_ok_pending h]; done) | (simp [vWrite_ok_pending h]; split <;> simp) | (simp [vRead_ok_pending h]; done) | (simp; split <;> simp) | simp_all)
@[simp] theorem stopJob_sems (s : State) (f : Nat) (job : Nat) (a : Nat) (level : Nat) : (stopJob s f job a level).sems = s.sems := by unfold stopJob; (try simp only []); (repeat' split) <;> (try rename_i h) <;> (first | (simp; done) | (simp [vWrite_ok_sems h]; done) | (simp [vWrite_ok_sems h]; split <;> simp) | (simp [vRead_ok_sems h]; done) | (simp; split <;> simp) | simp_all)
@[simp] theorem stopJob_time (s : State) (f : Nat) (job : Nat) (a : Nat) (level : Nat) : (stopJob s f job a level).time = s.time := by unfold stopJob; (try simp only []); (repeat' split) <;> (try rename_i h) <;> (first | (simp; done) | (simp [vWrite_ok_time h]; done) | (simp [vWrite_ok_time h]; split <;> simp) | (simp [vRead_ok_time h]; done) | (simp; split <;> simp) | simp_all)
@[simp] theorem stopJob_arrays (s : State) (f : Nat) (job : Nat) (a : Nat) (level : Nat) : (stopJob s f job a level).arrays = s.arrays := by unfold stopJob; (try simp only []); (repeat' split) <;> (try rename_i h) <;> (first | (simp; done) | (simp [vWrite_ok_arrays h]; done) | (simp [vWrite_ok_arrays h]; split <;> simp) | (simp [vRead_ok_arrays h]; done) | (simp; split <;> simp) | simp_all)
@[simp] theorem stopJob_ports (s : State) (f : Nat) (job : Nat) (a : Nat) (level : Nat) : (stopJob s f job a level).ports = s.ports := by unfold stopJob; (try simp only []); (repeat' split) <;> (try rename_i h) <;> (first | (simp; done) | (simp [vWrite_ok_ports h]; done) | (simp [vWrite_ok_ports h]; split <;> simp) | (simp [vRead_ok_ports h]; done) | (simp; split <;> simp) | simp_all)
@[simp] theorem stopJob_masks (s : State) (f : Nat) (job : Nat) (a : Nat) (level : Nat) : (stopJob s f job a level).masks = s.masks := by unfold stopJob; (try simp only []); (repeat' split) <;> (try rename_i h) <;> (first | (simp; done) | (simp [vWrite_ok_masks h]; done) | (simp [vWrite_ok_masks h]; split <;> simp) | (simp [vRead_ok_masks h]; done) | (simp; split <;> simp) | simp_all)
@[simp] theorem stopJob_trust (s : State) (f : Nat) (job : Nat) (a : Nat) (level : Nat) : (stopJob s f job a level).trust = s.trust := by unfold stopJob; (try simp only []); (repeat' split) <;> (try rename_i h) <;> (first | (simp; done) | (simp [vWrite_ok_trust h]; done) | (simp [vWrite_ok_trust h]; split <;> simp) | (simp [vRead_ok_trust h]; done) | (simp; split <;> simp) | simp_all)
@[simp] theorem stopJob_power (s : State) (f : Nat) (job : Nat) (a : Nat) (level : Nat) : (stopJob s f job a level).power = s.power := by unfold stopJob; (try simp only []); (repeat' split) <;> (try rename_i h) <;> (first | (simp; done) | (simp [vWrite_ok_power h]; done) | (simp [vWrite_ok_power h]; split <;> simp) | (simp [vRead_ok_power h]; done) | (simp; split <;> simp) | simp_all)
@[simp] theorem stopJob_ctxs (s : State) (f : Nat) (job : Nat) (a : Nat) (level : Nat) : (stopJob s f job a level).ctxs = s.ctxs := by unfold stopJob; (try simp only []); (repeat' split) <;> (try rename_i h) <;> (first | (simp; done) | (simp [vWrite_ok_ctxs h]; done) | (simp [vWrite_ok_ctxs h]; split <;> simp) | (simp [vRead_ok_ctxs h]; done) | (simp; split <;> simp) | simp_all)
@[simp] theorem stopJob_assign (s : State) (f : Nat) (job : Nat) (a : Nat) (level : Nat) : (stopJob s f job a level).assign = s.assign := by unfold stopJob; (try simp only []); (repeat' split) <;> (try rename_i h) <;> (first | (simp; done) | (simp [vWrite_ok_assign h]; done) | (simp [vWrite_ok_assign h]; split <;> simp) | (simp [vRead_ok_assign h]; done) | (simp; split <;> simp) | simp_all)
@[simp] theorem stopJob_paths (s : State) (f : Nat) (job : Nat) (a : Nat) (level : Nat) : (stopJob s f job a level).paths = s.paths := by unfold stopJob; (try simp only []); (repeat' split) <;> (try rename_i h) <;> (first | (simp; done) | (simp [vWrite_ok_paths h]; done) | (simp [vWrite_ok_paths h]; split <;> simp) | (simp [vRead_ok_paths h]; done) | (simp; split <;> simp) | simp_all)
@[simp] theorem endCommit_pending (s : State) (w : Started) : (endCommit s w).pending = s.pending := by unfold endCommit; (repeat' split) <;> simp
@[simp] theorem endCommit_mem (s : State) (w : Started) : (endCommit s w).mem = s.mem := by unfold endCommit; (repeat' split) <;> simp
@[simp] theorem endCommit_poison (s : State) (w : Started) : (endCommit s w).poison = s.poison := by unfold endCommit; (repeat' split) <;> simp
@[simp] theorem endCommit_queues (s : State) (w : Started) : (endCommit s w).queues = s.queues := by unfold endCommit; (repeat' split) <;> simp
@[simp] theorem endCommit_sems (s : State) (w : Started) : (endCommit s w).sems = s.sems := by unfold endCommit; (repeat' split) <;> simp
@[simp] theorem endCommit_jobs (s : State) (w : Started) : (endCommit s w).jobs = s.jobs := by unfold endCommit; (repeat' split) <;> simp
@[simp] theorem endCommit_time (s : State) (w : Started) : (endCommit s w).time = s.time := by unfold endCommit; (repeat' split) <;> simp
@[simp] theorem endCommit_arrays (s : State) (w : Started) : (endCommit s w).arrays = s.arrays := by unfold endCommit; (repeat' split) <;> simp
@[simp] theorem endCommit_ports (s : State) (w : Started) : (endCommit s w).ports = s.ports := by unfold endCommit; (repeat' split) <;> simp
@[simp] theorem endCommit_trust (s : State) (w : Started) : (endCommit s w).trust = s.trust := by unfold endCommit; (repeat' split) <;> simp
@[simp] theorem endCommit_power (s : State) (w : Started) : (endCommit s w).power = s.power := by unfold endCommit; (repeat' split) <;> simp
@[simp] theorem endCommit_ctxs (s : State) (w : Started) : (endCommit s w).ctxs = s.ctxs := by unfold endCommit; (repeat' split) <;> simp
@[simp] theorem endCommit_funcs (s : State) (w : Started) : (endCommit s w).funcs = s.funcs := by unfold endCommit; (repeat' split) <;> simp
@[simp] theorem endCommit_assign (s : State) (w : Started) : (endCommit s w).assign = s.assign := by unfold endCommit; (repeat' split) <;> simp
@[simp] theorem endCommit_paths (s : State) (w : Started) : (endCommit s w).paths = s.paths := by unfold endCommit; (repeat' split) <;> simp
@[simp] theorem dropHeld_pending (s : State) (e : Exe) (w : Started) : (dropHeld s e w).pending = s.pending := by unfold dropHeld; (try simp only []); (repeat' split) <;> (try rename_i h) <;> (first | (simp; done) | (simp [vWrite_ok_pending h]; done) | (simp [vWrite_ok_pending h]; split <;> simp) | (simp [vRead_ok_pending h]; done) | (simp; split <;> simp) | simp_all)
@[simp] theorem dropHeld_mem (s : State) (e : Exe) (w : Started) : (dropHeld s e w).mem = s.mem := by unfold dropHeld; (try simp only []); (repeat' split) <;> (try rename_i h) <;> (first | (simp; done) | (simp [vWrite_ok_mem h]; done) | (simp [vWrite_ok_mem h]; split <;> simp) | (simp [vRead_ok_mem h]; done) | (simp; split <;> simp) | simp_all)
@[simp] theorem dropHeld_poison (s : State) (e : Exe) (w : Started) : (dropHeld s e w).poison = s.poison := by unfold dropHeld; (try simp only []); (repeat' split) <;> (try rename_i h) <;> (first | (simp; done) | (simp [vWrite_ok_poison h]; done) | (simp [vWrite_ok_poison h]; split <;> simp) | (simp [vRead_ok_poison h]; done) | (simp; split <;> simp) | simp_all)
@[simp] theorem dropHeld_queues (s : State) (e : Exe) (w : Started) : (dropHeld s e w).queues = s.queues := by unfold dropHeld; (try simp only []); (repeat' split) <;> (try rename_i h) <;> (first | (simp; done) | (simp [vWrite_ok_queues h]; done) | (simp [vWrite_ok_queues h]; split <;> simp) | (simp [vRead_ok_queues h]; done) | (simp; split <;> simp) | simp_all)
@[simp] theorem dropHeld_sems (s : State) (e : Exe) (w : Started) : (dropHeld s e w).sems = s.sems := by unfold dropHeld; (try simp only []); (repeat' split) <;> (try rename_i h) <;> (first | (simp; done) | (simp [vWrite_ok_sems h]; done) | (simp [vWrite_ok_sems h]; split <;> simp) | (simp [vRead_ok_sems h]; done) | (simp; split <;> simp) | simp_all)
@[simp] theorem dropHeld_time (s : State) (e : Exe) (w : Started) : (dropHeld s e w).time = s.time := by unfold dropHeld; (try simp only []); (repeat' split) <;> (try rename_i h) <;> (first | (simp; done) | (simp [vWrite_ok_time h]; done) | (simp [vWrite_ok_time h]; split <;> simp) | (simp [vRead_ok_time h]; done) | (simp; split <;> simp) | simp_all)
@[simp] theorem dropHeld_ports (s : State) (e : Exe) (w : Started) : (dropHeld s e w).ports = s.ports := by unfold dropHeld; (try simp only []); (repeat' split) <;> (try rename_i h) <;> (first | (simp; done) | (simp [vWrite_ok_ports h]; done) | (simp [vWrite_ok_ports h]; split <;> simp) | (simp [vRead_ok_ports h]; done) | (simp; split <;> simp) | simp_all)
@[simp] theorem dropHeld_trust (s : State) (e : Exe) (w : Started) : (dropHeld s e w).trust = s.trust := by unfold dropHeld; (try simp only []); (repeat' split) <;> (try rename_i h) <;> (first | (simp; done) | (simp [vWrite_ok_trust h]; done) | (simp [vWrite_ok_trust h]; split <;> simp) | (simp [vRead_ok_trust h]; done) | (simp; split <;> simp) | simp_all)
@[simp] theorem dropHeld_power (s : State) (e : Exe) (w : Started) : (dropHeld s e w).power = s.power := by unfold dropHeld; (try simp only []); (repeat' split) <;> (try rename_i h) <;> (first | (simp; done) | (simp [vWrite_ok_power h]; done) | (simp [vWrite_ok_power h]; split <;> simp) | (simp [vRead_ok_power h]; done) | (simp; split <;> simp) | simp_all)
@[simp] theorem dropHeld_ctxs (s : State) (e : Exe) (w : Started) : (dropHeld s e w).ctxs = s.ctxs := by unfold dropHeld; (try simp only []); (repeat' split) <;> (try rename_i h) <;> (first | (simp; done) | (simp [vWrite_ok_ctxs h]; done) | (simp [vWrite_ok_ctxs h]; split <;> simp) | (simp [vRead_ok_ctxs h]; done) | (simp; split <;> simp) | simp_all)
@[simp] theorem dropHeld_funcs (s : State) (e : Exe) (w : Started) : (dropHeld s e w).funcs = s.funcs := by unfold dropHeld; (try simp only []); (repeat' split) <;> (try rename_i h) <;> (first | (simp; done) | (simp [vWrite_ok_funcs h]; done) | (simp [vWrite_ok_funcs h]; split <;> simp) | (simp [vRead_ok_funcs h]; done) | (simp; split <;> simp) | simp_all)
@[simp] theorem dropHeld_assign (s : State) (e : Exe) (w : Started) : (dropHeld s e w).assign = s.assign := by unfold dropHeld; (try simp only []); (repeat' split) <;> (try rename_i h) <;> (first | (simp; done) | (simp [vWrite_ok_assign h]; done) | (simp [vWrite_ok_assign h]; split <;> simp) | (simp [vRead_ok_assign h]; done) | (simp; split <;> simp) | simp_all)
@[simp] theorem dropHeld_paths (s : State) (e : Exe) (w : Started) : (dropHeld s e w).paths = s.paths := by unfold dropHeld; (try simp only []); (repeat' split) <;> (try rename_i h) <;> (first | (simp; done) | (simp [vWrite_ok_paths h]; done) | (simp [vWrite_ok_paths h]; split <;> simp) | (simp [vRead_ok_paths h]; done) | (simp; split <;> simp) | simp_all)
@[simp] theorem trackDone_pending (s : State) (q : QNum) (w : Started) : (trackDone s q w).pending = s.pending := by unfold trackDone; (repeat' split) <;> simp
@[simp] theorem trackDone_mem (s : State) (q : QNum) (w : Started) : (trackDone s q w).mem = s.mem := by unfold trackDone; (repeat' split) <;> simp
@[simp] theorem trackDone_poison (s : State) (q : QNum) (w : Started) : (trackDone s q w).poison = s.poison := by unfold trackDone; (repeat' split) <;> simp
@[simp] theorem trackDone_queues (s : State) (q : QNum) (w : Started) : (trackDone s q w).queues = s.queues := by unfold trackDone; (repeat' split) <;> simp
@[simp] theorem trackDone_sems (s : State) (q : QNum) (w : Started) : (trackDone s q w).sems = s.sems := by unfold trackDone; (repeat' split) <;> simp
@[simp] theorem trackDone_jobs (s : State) (q : QNum) (w : Started) : (trackDone s q w).jobs = s.jobs := by unfold trackDone; (repeat' split) <;> simp
@[simp] theorem trackDone_time (s : State) (q : QNum) (w : Started) : (trackDone s q w).time = s.time := by unfold trackDone; (repeat' split) <;> simp
@[simp] theorem trackDone_arrays (s : State) (q : QNum) (w : Started) : (trackDone s q w).arrays = s.arrays := by unfold trackDone; (repeat' split) <;> simp
@[simp] theorem trackDone_ports (s : State) (q : QNum) (w : Started) : (trackDone s q w).ports = s.ports := by unfold trackDone; (repeat' split) <;> simp
@[simp] theorem trackDone_masks (s : State) (q : QNum) (w : Started) : (trackDone s q w).masks = s.masks := by unfold trackDone; (repeat' split) <;> simp
@[simp] theorem trackDone_trust (s : State) (q : QNum) (w : Started) : (trackDone s q w).trust = s.trust := by unfold trackDone; (repeat' split) <;> simp
@[simp] theorem trackDone_power (s : State) (q : QNum) (w : Started) : (trackDone s q w).power = s.power := by unfold trackDone; (repeat' split) <;> simp
@[simp] theorem trackDone_ctxs (s : State) (q : QNum) (w : Started) : (trackDone s q w).ctxs = s.ctxs := by unfold trackDone; (repeat' split) <;> simp
@[simp] theorem trackDone_funcs (s : State) (q : QNum) (w : Started) : (trackDone s q w).funcs = s.funcs := by unfold trackDone; (repeat' split) <;> simp
@[simp] theorem trackDone_assign (s : State) (q : QNum) (w : Started) : (trackDone s q w).assign = s.assign := by unfold trackDone; (repeat' split) <;> simp
@[simp] theorem trackDone_paths (s : State) (q : QNum) (w : Started) : (trackDone s q w).paths = s.paths := by unfold trackDone; (repeat' split) <;> simp
@[simp] theorem settleDestroy_pending (s : State) (q : QNum) : (settleDestroy s q).pending = s.pending := by unfold settleDestroy; simp -implicitDefEqProofs
@[simp] theorem settleDestroy_mem (s : State) (q : QNum) : (settleDestroy s q).mem = s.mem := by unfold settleDestroy; simp -implicitDefEqProofs
@[simp] theorem settleDestroy_poison (s : State) (q : QNum) : (settleDestroy s q).poison = s.poison := by unfold settleDestroy; simp -implicitDefEqProofs
@[simp] theorem settleDestroy_sems (s : State) (q : QNum) : (settleDestroy s q).sems = s.sems := by unfold settleDestroy; simp -implicitDefEqProofs
@[simp] theorem settleDestroy_jobs (s : State) (q : QNum) : (settleDestroy s q).jobs = s.jobs := by unfold settleDestroy; simp -implicitDefEqProofs
@[simp] theorem settleDestroy_time (s : State) (q : QNum) : (settleDestroy s q).time = s.time := by unfold settleDestroy; simp -implicitDefEqProofs
@[simp] theorem settleDestroy_arrays (s : State) (q : QNum) : (settleDestroy s q).arrays = s.arrays := by unfold settleDestroy; simp -implicitDefEqProofs
@[simp] theorem settleDestroy_ports (s : State) (q : QNum) : (settleDestroy s q).ports = s.ports := by unfold settleDestroy; simp -implicitDefEqProofs
@[simp] theorem settleDestroy_masks (s : State) (q : QNum) : (settleDestroy s q).masks = s.masks := by unfold settleDestroy; simp -implicitDefEqProofs
@[simp] theorem settleDestroy_trust (s : State) (q : QNum) : (settleDestroy s q).trust = s.trust := by unfold settleDestroy; simp -implicitDefEqProofs
@[simp] theorem settleDestroy_power (s : State) (q : QNum) : (settleDestroy s q).power = s.power := by unfold settleDestroy; simp -implicitDefEqProofs
@[simp] theorem settleDestroy_ctxs (s : State) (q : QNum) : (settleDestroy s q).ctxs = s.ctxs := by unfold settleDestroy; simp -implicitDefEqProofs
@[simp] theorem settleDestroy_funcs (s : State) (q : QNum) : (settleDestroy s q).funcs = s.funcs := by unfold settleDestroy; simp -implicitDefEqProofs
@[simp] theorem settleDestroy_assign (s : State) (q : QNum) : (settleDestroy s q).assign = s.assign := by unfold settleDestroy; simp -implicitDefEqProofs
@[simp] theorem settleDestroy_paths (s : State) (q : QNum) : (settleDestroy s q).paths = s.paths := by unfold settleDestroy; simp -implicitDefEqProofs
@[simp] theorem settleFlush_pending (s : State) (q : QNum) : (settleFlush s q).pending = s.pending := by unfold settleFlush; simp -implicitDefEqProofs
@[simp] theorem settleFlush_mem (s : State) (q : QNum) : (settleFlush s q).mem = s.mem := by unfold settleFlush; simp -implicitDefEqProofs
@[simp] theorem settleFlush_poison (s : State) (q : QNum) : (settleFlush s q).poison = s.poison := by unfold settleFlush; simp -implicitDefEqProofs
@[simp] theorem settleFlush_sems (s : State) (q : QNum) : (settleFlush s q).sems = s.sems := by unfold settleFlush; simp -implicitDefEqProofs
@[simp] theorem settleFlush_jobs (s : State) (q : QNum) : (settleFlush s q).jobs = s.jobs := by unfold settleFlush; simp -implicitDefEqProofs
@[simp] theorem settleFlush_time (s : State) (q : QNum) : (settleFlush s q).time = s.time := by unfold settleFlush; simp -implicitDefEqProofs
@[simp] theorem settleFlush_arrays (s : State) (q : QNum) : (settleFlush s q).arrays = s.arrays := by unfold settleFlush; simp -implicitDefEqProofs
@[simp] theorem settleFlush_ports (s : State) (q : QNum) : (settleFlush s q).ports = s.ports := by unfold settleFlush; simp -implicitDefEqProofs
@[simp] theorem settleFlush_masks (s : State) (q : QNum) : (settleFlush s q).masks = s.masks := by unfold settleFlush; simp -implicitDefEqProofs
@[simp] theorem settleFlush_trust (s : State) (q : QNum) : (settleFlush s q).trust = s.trust := by unfold settleFlush; simp -implicitDefEqProofs
@[simp] theorem settleFlush_power (s : State) (q : QNum) : (settleFlush s q).power = s.power := by unfold settleFlush; simp -implicitDefEqProofs
@[simp] theorem settleFlush_ctxs (s : State) (q : QNum) : (settleFlush s q).ctxs = s.ctxs := by unfold settleFlush; simp -implicitDefEqProofs
@[simp] theorem settleFlush_funcs (s : State) (q : QNum) : (settleFlush s q).funcs = s.funcs := by unfold settleFlush; simp -implicitDefEqProofs
@[simp] theorem settleFlush_assign (s : State) (q : QNum) : (settleFlush s q).assign = s.assign := by unfold settleFlush; simp -implicitDefEqProofs
@[simp] theorem settleFlush_paths (s : State) (q : QNum) : (settleFlush s q).paths = s.paths := by unfold settleFlush; simp -implicitDefEqProofs
@[simp] theorem settleAts_pending (s : State) (f : Nat) : (settleAts s f).pending = s.pending := rfl
@[simp] theorem settleAts_mem (s : State) (f : Nat) : (settleAts s f).mem = s.mem := rfl
@[simp] theorem settleAts_poison (s : State) (f : Nat) : (settleAts s f).poison = s.poison := rfl
@[simp] theorem settleAts_sems (s : State) (f : Nat) : (settleAts s f).sems = s.sems := rfl
@[simp] theorem settleAts_jobs (s : State) (f : Nat) : (settleAts s f).jobs = s.jobs := rfl
@[simp] theorem settleAts_time (s : State) (f : Nat) : (settleAts s f).time = s.time := rfl
@[simp] theorem settleAts_arrays (s : State) (f : Nat) : (settleAts s f).arrays = s.arrays := rfl
@[simp] theorem settleAts_ports (s : State) (f : Nat) : (settleAts s f).ports = s.ports := rfl
@[simp] theorem settleAts_masks (s : State) (f : Nat) : (settleAts s f).masks = s.masks := rfl
@[simp] theorem settleAts_trust (s : State) (f : Nat) : (settleAts s f).trust = s.trust := rfl
@[simp] theorem settleAts_power (s : State) (f : Nat) : (settleAts s f).power = s.power := rfl
@[simp] theorem settleAts_ctxs (s : State) (f : Nat) : (settleAts s f).ctxs = s.ctxs := rfl
@[simp] theorem settleAts_assign (s : State) (f : Nat) : (settleAts s f).assign = s.assign := rfl
@[simp] theorem settleAts_paths (s : State) (f : Nat) : (settleAts s f).paths = s.paths := rfl
@[simp] theorem settleAts_queues (s : State) (f : Nat) : (settleAts s f).queues = s.queues := rfl
@[simp] theorem finishCmd_pending (s : State) (q : QNum) (w : Started) (lost : Option Nat) : (finishCmd s q w lost).pending = s.pending := by unfold finishCmd; (repeat' split) <;> simp
@[simp] theorem finishCmd_sems (s : State) (q : QNum) (w : Started) (lost : Option Nat) : (finishCmd s q w lost).sems = s.sems := by unfold finishCmd; (repeat' split) <;> simp
@[simp] theorem finishCmd_time (s : State) (q : QNum) (w : Started) (lost : Option Nat) : (finishCmd s q w lost).time = s.time := by unfold finishCmd; (repeat' split) <;> simp
@[simp] theorem finishCmd_ports (s : State) (q : QNum) (w : Started) (lost : Option Nat) : (finishCmd s q w lost).ports = s.ports := by unfold finishCmd; (repeat' split) <;> simp
@[simp] theorem finishCmd_trust (s : State) (q : QNum) (w : Started) (lost : Option Nat) : (finishCmd s q w lost).trust = s.trust := by unfold finishCmd; (repeat' split) <;> simp
@[simp] theorem finishCmd_power (s : State) (q : QNum) (w : Started) (lost : Option Nat) : (finishCmd s q w lost).power = s.power := by unfold finishCmd; (repeat' split) <;> simp
@[simp] theorem finishCmd_ctxs (s : State) (q : QNum) (w : Started) (lost : Option Nat) : (finishCmd s q w lost).ctxs = s.ctxs := by unfold finishCmd; (repeat' split) <;> simp
@[simp] theorem finishCmd_assign (s : State) (q : QNum) (w : Started) (lost : Option Nat) : (finishCmd s q w lost).assign = s.assign := by unfold finishCmd; (repeat' split) <;> simp
@[simp] theorem finishCmd_paths (s : State) (q : QNum) (w : Started) (lost : Option Nat) : (finishCmd s q w lost).paths = s.paths := by unfold finishCmd; (repeat' split) <;> simp
@[simp] theorem completeSem_pending (s : State) (f : Nat) (w : Started) : (completeSem s f w).1.pending = s.pending := by unfold completeSem; (try simp only []); (repeat' split) <;> (try rename_i h) <;> (first | (simp; done) | (simp [vWrite_ok_pending h]; done) | (simp [vWrite_ok_pending h]; split <;> simp) | (simp [vRead_ok_pending h]; done) | (simp; split <;> simp) | simp_all)
@[simp] theorem completeSem_mem (s : State) (f : Nat) (w : Started) : (completeSem s f w).1.mem = s.mem := by unfold completeSem; (try simp only []); (repeat' split) <;> (try rename_i h) <;> (first | (simp; done) | (simp [vWrite_ok_mem h]; done) | (simp [vWrite_ok_mem h]; split <;> simp) | (simp [vRead_ok_mem h]; done) | (simp; split <;> simp) | simp_all)
@[simp] theorem completeSem_poison (s : State) (f : Nat) (w : Started) : (completeSem s f w).1.poison = s.poison := by unfold completeSem; (try simp only []); (repeat' split) <;> (try rename_i h) <;> (first | (simp; done) | (simp [vWrite_ok_poison h]; done) | (simp [vWrite_ok_poison h]; split <;> simp) | (simp [vRead_ok_poison h]; done) | (simp; split <;> simp) | simp_all)
@[simp] theorem completeSem_time (s : State) (f : Nat) (w : Started) : (completeSem s f w).1.time = s.time := by unfold completeSem; (try simp only []); (repeat' split) <;> (try rename_i h) <;> (first | (simp; done) | (simp [vWrite_ok_time h]; done) | (simp [vWrite_ok_time h]; split <;> simp) | (simp [vRead_ok_time h]; done) | (simp; split <;> simp) | simp_all)
@[simp] theorem completeSem_arrays (s : State) (f : Nat) (w : Started) : (completeSem s f w).1.arrays = s.arrays := by unfold completeSem; (try simp only []); (repeat' split) <;> (try rename_i h) <;> (first | (simp; done) | (simp [vWrite_ok_arrays h]; done) | (simp [vWrite_ok_arrays h]; split <;> simp) | (simp [vRead_ok_arrays h]; done) | (simp; split <;> simp) | simp_all)
@[simp] theorem completeSem_ports (s : State) (f : Nat) (w : Started) : (completeSem s f w).1.ports = s.ports := by unfold completeSem; (try simp only []); (repeat' split) <;> (try rename_i h) <;> (first | (simp; done) | (simp [vWrite_ok_ports h]; done) | (simp [vWrite_ok_ports h]; split <;> simp) | (simp [vRead_ok_ports h]; done) | (simp; split <;> simp) | simp_all)
@[simp] theorem completeSem_masks (s : State) (f : Nat) (w : Started) : (completeSem s f w).1.masks = s.masks := by unfold completeSem; (try simp only []); (repeat' split) <;> (try rename_i h) <;> (first | (simp; done) | (simp [vWrite_ok_masks h]; done) | (simp [vWrite_ok_masks h]; split <;> simp) | (simp [vRead_ok_masks h]; done) | (simp; split <;> simp) | simp_all)
@[simp] theorem completeSem_trust (s : State) (f : Nat) (w : Started) : (completeSem s f w).1.trust = s.trust := by unfold completeSem; (try simp only []); (repeat' split) <;> (try rename_i h) <;> (first | (simp; done) | (simp [vWrite_ok_trust h]; done) | (simp [vWrite_ok_trust h]; split <;> simp) | (simp [vRead_ok_trust h]; done) | (simp; split <;> simp) | simp_all)
@[simp] theorem completeSem_power (s : State) (f : Nat) (w : Started) : (completeSem s f w).1.power = s.power := by unfold completeSem; (try simp only []); (repeat' split) <;> (try rename_i h) <;> (first | (simp; done) | (simp [vWrite_ok_power h]; done) | (simp [vWrite_ok_power h]; split <;> simp) | (simp [vRead_ok_power h]; done) | (simp; split <;> simp) | simp_all)
@[simp] theorem completeSem_ctxs (s : State) (f : Nat) (w : Started) : (completeSem s f w).1.ctxs = s.ctxs := by unfold completeSem; (try simp only []); (repeat' split) <;> (try rename_i h) <;> (first | (simp; done) | (simp [vWrite_ok_ctxs h]; done) | (simp [vWrite_ok_ctxs h]; split <;> simp) | (simp [vRead_ok_ctxs h]; done) | (simp; split <;> simp) | simp_all)
@[simp] theorem completeSem_funcs (s : State) (f : Nat) (w : Started) : (completeSem s f w).1.funcs = s.funcs := by unfold completeSem; (try simp only []); (repeat' split) <;> (try rename_i h) <;> (first | (simp; done) | (simp [vWrite_ok_funcs h]; done) | (simp [vWrite_ok_funcs h]; split <;> simp) | (simp [vRead_ok_funcs h]; done) | (simp; split <;> simp) | simp_all)
@[simp] theorem completeSem_assign (s : State) (f : Nat) (w : Started) : (completeSem s f w).1.assign = s.assign := by unfold completeSem; (try simp only []); (repeat' split) <;> (try rename_i h) <;> (first | (simp; done) | (simp [vWrite_ok_assign h]; done) | (simp [vWrite_ok_assign h]; split <;> simp) | (simp [vRead_ok_assign h]; done) | (simp; split <;> simp) | simp_all)
@[simp] theorem completeSem_paths (s : State) (f : Nat) (w : Started) : (completeSem s f w).1.paths = s.paths := by unfold completeSem; (try simp only []); (repeat' split) <;> (try rename_i h) <;> (first | (simp; done) | (simp [vWrite_ok_paths h]; done) | (simp [vWrite_ok_paths h]; split <;> simp) | (simp [vRead_ok_paths h]; done) | (simp; split <;> simp) | simp_all)
@[simp] theorem sendMgmt_pending (s : State) (p : Port) (m : Msg) : (sendMgmt s p m).pending = s.pending := (rfl)
@[simp] theorem sendMgmt_mem (s : State) (p : Port) (m : Msg) : (sendMgmt s p m).mem = s.mem := (rfl)
@[simp] theorem sendMgmt_poison (s : State) (p : Port) (m : Msg) : (sendMgmt s p m).poison = s.poison := (rfl)
@[simp] theorem sendMgmt_queues (s : State) (p : Port) (m : Msg) : (sendMgmt s p m).queues = s.queues := (rfl)
@[simp] theorem sendMgmt_sems (s : State) (p : Port) (m : Msg) : (sendMgmt s p m).sems = s.sems := (rfl)
@[simp] theorem sendMgmt_jobs (s : State) (p : Port) (m : Msg) : (sendMgmt s p m).jobs = s.jobs := (rfl)
@[simp] theorem sendMgmt_time (s : State) (p : Port) (m : Msg) : (sendMgmt s p m).time = s.time := (rfl)
@[simp] theorem sendMgmt_arrays (s : State) (p : Port) (m : Msg) : (sendMgmt s p m).arrays = s.arrays := (rfl)
@[simp] theorem sendMgmt_masks (s : State) (p : Port) (m : Msg) : (sendMgmt s p m).masks = s.masks := (rfl)
@[simp] theorem sendMgmt_trust (s : State) (p : Port) (m : Msg) : (sendMgmt s p m).trust = s.trust := (rfl)
@[simp] theorem sendMgmt_power (s : State) (p : Port) (m : Msg) : (sendMgmt s p m).power = s.power := (rfl)
@[simp] theorem sendMgmt_ctxs (s : State) (p : Port) (m : Msg) : (sendMgmt s p m).ctxs = s.ctxs := (rfl)
@[simp] theorem sendMgmt_funcs (s : State) (p : Port) (m : Msg) : (sendMgmt s p m).funcs = s.funcs := (rfl)
@[simp] theorem sendMgmt_assign (s : State) (p : Port) (m : Msg) : (sendMgmt s p m).assign = s.assign := (rfl)
@[simp] theorem sendMgmt_paths (s : State) (p : Port) (m : Msg) : (sendMgmt s p m).paths = s.paths := (rfl)
@[simp] theorem sendBacklog_pending (s : State) (p : Port) (m : Msg) (src : Option QNum) : (sendBacklog s p m src).pending = s.pending := by unfold sendBacklog; simp -implicitDefEqProofs
@[simp] theorem sendBacklog_mem (s : State) (p : Port) (m : Msg) (src : Option QNum) : (sendBacklog s p m src).mem = s.mem := by unfold sendBacklog; simp -implicitDefEqProofs
@[simp] theorem sendBacklog_poison (s : State) (p : Port) (m : Msg) (src : Option QNum) : (sendBacklog s p m src).poison = s.poison := by unfold sendBacklog; simp -implicitDefEqProofs
@[simp] theorem sendBacklog_queues (s : State) (p : Port) (m : Msg) (src : Option QNum) : (sendBacklog s p m src).queues = s.queues := by unfold sendBacklog; simp -implicitDefEqProofs
@[simp] theorem sendBacklog_sems (s : State) (p : Port) (m : Msg) (src : Option QNum) : (sendBacklog s p m src).sems = s.sems := by unfold sendBacklog; simp -implicitDefEqProofs
@[simp] theorem sendBacklog_jobs (s : State) (p : Port) (m : Msg) (src : Option QNum) : (sendBacklog s p m src).jobs = s.jobs := by unfold sendBacklog; simp -implicitDefEqProofs
@[simp] theorem sendBacklog_time (s : State) (p : Port) (m : Msg) (src : Option QNum) : (sendBacklog s p m src).time = s.time := by unfold sendBacklog; simp -implicitDefEqProofs
@[simp] theorem sendBacklog_arrays (s : State) (p : Port) (m : Msg) (src : Option QNum) : (sendBacklog s p m src).arrays = s.arrays := by unfold sendBacklog; simp -implicitDefEqProofs
@[simp] theorem sendBacklog_masks (s : State) (p : Port) (m : Msg) (src : Option QNum) : (sendBacklog s p m src).masks = s.masks := by unfold sendBacklog; simp -implicitDefEqProofs
@[simp] theorem sendBacklog_trust (s : State) (p : Port) (m : Msg) (src : Option QNum) : (sendBacklog s p m src).trust = s.trust := by unfold sendBacklog; simp -implicitDefEqProofs
@[simp] theorem sendBacklog_power (s : State) (p : Port) (m : Msg) (src : Option QNum) : (sendBacklog s p m src).power = s.power := by unfold sendBacklog; simp -implicitDefEqProofs
@[simp] theorem sendBacklog_ctxs (s : State) (p : Port) (m : Msg) (src : Option QNum) : (sendBacklog s p m src).ctxs = s.ctxs := by unfold sendBacklog; simp -implicitDefEqProofs
@[simp] theorem sendBacklog_funcs (s : State) (p : Port) (m : Msg) (src : Option QNum) : (sendBacklog s p m src).funcs = s.funcs := by unfold sendBacklog; simp -implicitDefEqProofs
@[simp] theorem sendBacklog_assign (s : State) (p : Port) (m : Msg) (src : Option QNum) : (sendBacklog s p m src).assign = s.assign := by unfold sendBacklog; simp -implicitDefEqProofs
@[simp] theorem sendBacklog_paths (s : State) (p : Port) (m : Msg) (src : Option QNum) : (sendBacklog s p m src).paths = s.paths := by unfold sendBacklog; simp -implicitDefEqProofs
@[simp] theorem sendTrio_pending (s : State) (p : Port) : (sendTrio s p).pending = s.pending := (rfl)
@[simp] theorem sendTrio_mem (s : State) (p : Port) : (sendTrio s p).mem = s.mem := (rfl)
@[simp] theorem sendTrio_poison (s : State) (p : Port) : (sendTrio s p).poison = s.poison := (rfl)
@[simp] theorem sendTrio_queues (s : State) (p : Port) : (sendTrio s p).queues = s.queues := (rfl)
@[simp] theorem sendTrio_sems (s : State) (p : Port) : (sendTrio s p).sems = s.sems := (rfl)
@[simp] theorem sendTrio_jobs (s : State) (p : Port) : (sendTrio s p).jobs = s.jobs := (rfl)
@[simp] theorem sendTrio_time (s : State) (p : Port) : (sendTrio s p).time = s.time := (rfl)
@[simp] theorem sendTrio_arrays (s : State) (p : Port) : (sendTrio s p).arrays = s.arrays := (rfl)
@[simp] theorem sendTrio_masks (s : State) (p : Port) : (sendTrio s p).masks = s.masks := (rfl)
@[simp] theorem sendTrio_trust (s : State) (p : Port) : (sendTrio s p).trust = s.trust := (rfl)
@[simp] theorem sendTrio_power (s : State) (p : Port) : (sendTrio s p).power = s.power := (rfl)
@[simp] theorem sendTrio_ctxs (s : State) (p : Port) : (sendTrio s p).ctxs = s.ctxs := (rfl)
@[simp] theorem sendTrio_funcs (s : State) (p : Port) : (sendTrio s p).funcs = s.funcs := (rfl)
@[simp] theorem sendTrio_assign (s : State) (p : Port) : (sendTrio s p).assign = s.assign := (rfl)
@[simp] theorem sendTrio_paths (s : State) (p : Port) : (sendTrio s p).paths = s.paths := (rfl)
@[simp] theorem sendStr_pending (s : State) (tgt : BitVec 4) (except : Option Port) : (sendStr s tgt except).pending = s.pending := by unfold sendStr; simp -implicitDefEqProofs
@[simp] theorem sendStr_mem (s : State) (tgt : BitVec 4) (except : Option Port) : (sendStr s tgt except).mem = s.mem := by unfold sendStr; simp -implicitDefEqProofs
@[simp] theorem sendStr_poison (s : State) (tgt : BitVec 4) (except : Option Port) : (sendStr s tgt except).poison = s.poison := by unfold sendStr; simp -implicitDefEqProofs
@[simp] theorem sendStr_queues (s : State) (tgt : BitVec 4) (except : Option Port) : (sendStr s tgt except).queues = s.queues := by unfold sendStr; simp -implicitDefEqProofs
@[simp] theorem sendStr_sems (s : State) (tgt : BitVec 4) (except : Option Port) : (sendStr s tgt except).sems = s.sems := by unfold sendStr; simp -implicitDefEqProofs
@[simp] theorem sendStr_jobs (s : State) (tgt : BitVec 4) (except : Option Port) : (sendStr s tgt except).jobs = s.jobs := by unfold sendStr; simp -implicitDefEqProofs
@[simp] theorem sendStr_time (s : State) (tgt : BitVec 4) (except : Option Port) : (sendStr s tgt except).time = s.time := by unfold sendStr; simp -implicitDefEqProofs
@[simp] theorem sendStr_arrays (s : State) (tgt : BitVec 4) (except : Option Port) : (sendStr s tgt except).arrays = s.arrays := by unfold sendStr; simp -implicitDefEqProofs
@[simp] theorem sendStr_masks (s : State) (tgt : BitVec 4) (except : Option Port) : (sendStr s tgt except).masks = s.masks := by unfold sendStr; simp -implicitDefEqProofs
@[simp] theorem sendStr_trust (s : State) (tgt : BitVec 4) (except : Option Port) : (sendStr s tgt except).trust = s.trust := by unfold sendStr; simp -implicitDefEqProofs
@[simp] theorem sendStr_power (s : State) (tgt : BitVec 4) (except : Option Port) : (sendStr s tgt except).power = s.power := by unfold sendStr; simp -implicitDefEqProofs
@[simp] theorem sendStr_ctxs (s : State) (tgt : BitVec 4) (except : Option Port) : (sendStr s tgt except).ctxs = s.ctxs := by unfold sendStr; simp -implicitDefEqProofs
@[simp] theorem sendStr_funcs (s : State) (tgt : BitVec 4) (except : Option Port) : (sendStr s tgt except).funcs = s.funcs := by unfold sendStr; simp -implicitDefEqProofs
@[simp] theorem sendStr_assign (s : State) (tgt : BitVec 4) (except : Option Port) : (sendStr s tgt except).assign = s.assign := by unfold sendStr; simp -implicitDefEqProofs
@[simp] theorem sendStr_paths (s : State) (tgt : BitVec 4) (except : Option Port) : (sendStr s tgt except).paths = s.paths := by unfold sendStr; simp -implicitDefEqProofs
@[simp] theorem sendAbt_pending (s : State) (job : BitVec 10) (except : Option Port) : (sendAbt s job except).pending = s.pending := by unfold sendAbt; simp -implicitDefEqProofs
@[simp] theorem sendAbt_mem (s : State) (job : BitVec 10) (except : Option Port) : (sendAbt s job except).mem = s.mem := by unfold sendAbt; simp -implicitDefEqProofs
@[simp] theorem sendAbt_poison (s : State) (job : BitVec 10) (except : Option Port) : (sendAbt s job except).poison = s.poison := by unfold sendAbt; simp -implicitDefEqProofs
@[simp] theorem sendAbt_queues (s : State) (job : BitVec 10) (except : Option Port) : (sendAbt s job except).queues = s.queues := by unfold sendAbt; simp -implicitDefEqProofs
@[simp] theorem sendAbt_sems (s : State) (job : BitVec 10) (except : Option Port) : (sendAbt s job except).sems = s.sems := by unfold sendAbt; simp -implicitDefEqProofs
@[simp] theorem sendAbt_jobs (s : State) (job : BitVec 10) (except : Option Port) : (sendAbt s job except).jobs = s.jobs := by unfold sendAbt; simp -implicitDefEqProofs
@[simp] theorem sendAbt_time (s : State) (job : BitVec 10) (except : Option Port) : (sendAbt s job except).time = s.time := by unfold sendAbt; simp -implicitDefEqProofs
@[simp] theorem sendAbt_arrays (s : State) (job : BitVec 10) (except : Option Port) : (sendAbt s job except).arrays = s.arrays := by unfold sendAbt; simp -implicitDefEqProofs
@[simp] theorem sendAbt_masks (s : State) (job : BitVec 10) (except : Option Port) : (sendAbt s job except).masks = s.masks := by unfold sendAbt; simp -implicitDefEqProofs
@[simp] theorem sendAbt_trust (s : State) (job : BitVec 10) (except : Option Port) : (sendAbt s job except).trust = s.trust := by unfold sendAbt; simp -implicitDefEqProofs
@[simp] theorem sendAbt_power (s : State) (job : BitVec 10) (except : Option Port) : (sendAbt s job except).power = s.power := by unfold sendAbt; simp -implicitDefEqProofs
@[simp] theorem sendAbt_ctxs (s : State) (job : BitVec 10) (except : Option Port) : (sendAbt s job except).ctxs = s.ctxs := by unfold sendAbt; simp -implicitDefEqProofs
@[simp] theorem sendAbt_funcs (s : State) (job : BitVec 10) (except : Option Port) : (sendAbt s job except).funcs = s.funcs := by unfold sendAbt; simp -implicitDefEqProofs
@[simp] theorem sendAbt_assign (s : State) (job : BitVec 10) (except : Option Port) : (sendAbt s job except).assign = s.assign := by unfold sendAbt; simp -implicitDefEqProofs
@[simp] theorem sendAbt_paths (s : State) (job : BitVec 10) (except : Option Port) : (sendAbt s job except).paths = s.paths := by unfold sendAbt; simp -implicitDefEqProofs
@[simp] theorem markDone_pending (s : State) (q : QNum) (idx : BitVec 16) (st : Nat) : (markDone s q idx st).pending = s.pending := (rfl)
@[simp] theorem markDone_mem (s : State) (q : QNum) (idx : BitVec 16) (st : Nat) : (markDone s q idx st).mem = s.mem := (rfl)
@[simp] theorem markDone_poison (s : State) (q : QNum) (idx : BitVec 16) (st : Nat) : (markDone s q idx st).poison = s.poison := (rfl)
@[simp] theorem markDone_sems (s : State) (q : QNum) (idx : BitVec 16) (st : Nat) : (markDone s q idx st).sems = s.sems := (rfl)
@[simp] theorem markDone_jobs (s : State) (q : QNum) (idx : BitVec 16) (st : Nat) : (markDone s q idx st).jobs = s.jobs := (rfl)
@[simp] theorem markDone_time (s : State) (q : QNum) (idx : BitVec 16) (st : Nat) : (markDone s q idx st).time = s.time := (rfl)
@[simp] theorem markDone_arrays (s : State) (q : QNum) (idx : BitVec 16) (st : Nat) : (markDone s q idx st).arrays = s.arrays := (rfl)
@[simp] theorem markDone_ports (s : State) (q : QNum) (idx : BitVec 16) (st : Nat) : (markDone s q idx st).ports = s.ports := (rfl)
@[simp] theorem markDone_masks (s : State) (q : QNum) (idx : BitVec 16) (st : Nat) : (markDone s q idx st).masks = s.masks := (rfl)
@[simp] theorem markDone_trust (s : State) (q : QNum) (idx : BitVec 16) (st : Nat) : (markDone s q idx st).trust = s.trust := (rfl)
@[simp] theorem markDone_power (s : State) (q : QNum) (idx : BitVec 16) (st : Nat) : (markDone s q idx st).power = s.power := (rfl)
@[simp] theorem markDone_ctxs (s : State) (q : QNum) (idx : BitVec 16) (st : Nat) : (markDone s q idx st).ctxs = s.ctxs := (rfl)
@[simp] theorem markDone_funcs (s : State) (q : QNum) (idx : BitVec 16) (st : Nat) : (markDone s q idx st).funcs = s.funcs := (rfl)
@[simp] theorem markDone_assign (s : State) (q : QNum) (idx : BitVec 16) (st : Nat) : (markDone s q idx st).assign = s.assign := (rfl)
@[simp] theorem markDone_paths (s : State) (q : QNum) (idx : BitVec 16) (st : Nat) : (markDone s q idx st).paths = s.paths := (rfl)
@[simp] theorem stopChain_pending (s : State) (q : QNum) (st : Nat) : (stopChain s q st).pending = s.pending := by unfold stopChain; (try simp only []); (repeat' split) <;> (try rename_i h) <;> (first | (simp; done) | (simp [vWrite_ok_pending h]; done) | (simp [vWrite_ok_pending h]; split <;> simp) | (simp [vRead_ok_pending h]; done) | (simp; split <;> simp) | simp_all)
@[simp] theorem stopChain_mem (s : State) (q : QNum) (st : Nat) : (stopChain s q st).mem = s.mem := by unfold stopChain; (try simp only []); (repeat' split) <;> (try rename_i h) <;> (first | (simp; done) | (simp [vWrite_ok_mem h]; done) | (simp [vWrite_ok_mem h]; split <;> simp) | (simp [vRead_ok_mem h]; done) | (simp; split <;> simp) | simp_all)
@[simp] theorem stopChain_poison (s : State) (q : QNum) (st : Nat) : (stopChain s q st).poison = s.poison := by unfold stopChain; (try simp only []); (repeat' split) <;> (try rename_i h) <;> (first | (simp; done) | (simp [vWrite_ok_poison h]; done) | (simp [vWrite_ok_poison h]; split <;> simp) | (simp [vRead_ok_poison h]; done) | (simp; split <;> simp) | simp_all)
@[simp] theorem stopChain_sems (s : State) (q : QNum) (st : Nat) : (stopChain s q st).sems = s.sems := by unfold stopChain; (try simp only []); (repeat' split) <;> (try rename_i h) <;> (first | (simp; done) | (simp [vWrite_ok_sems h]; done) | (simp [vWrite_ok_sems h]; split <;> simp) | (simp [vRead_ok_sems h]; done) | (simp; split <;> simp) | simp_all)
@[simp] theorem stopChain_time (s : State) (q : QNum) (st : Nat) : (stopChain s q st).time = s.time := by unfold stopChain; (try simp only []); (repeat' split) <;> (try rename_i h) <;> (first | (simp; done) | (simp [vWrite_ok_time h]; done) | (simp [vWrite_ok_time h]; split <;> simp) | (simp [vRead_ok_time h]; done) | (simp; split <;> simp) | simp_all)
@[simp] theorem stopChain_arrays (s : State) (q : QNum) (st : Nat) : (stopChain s q st).arrays = s.arrays := by unfold stopChain; (try simp only []); (repeat' split) <;> (try rename_i h) <;> (first | (simp; done) | (simp [vWrite_ok_arrays h]; done) | (simp [vWrite_ok_arrays h]; split <;> simp) | (simp [vRead_ok_arrays h]; done) | (simp; split <;> simp) | simp_all)
@[simp] theorem stopChain_ports (s : State) (q : QNum) (st : Nat) : (stopChain s q st).ports = s.ports := by unfold stopChain; (try simp only []); (repeat' split) <;> (try rename_i h) <;> (first | (simp; done) | (simp [vWrite_ok_ports h]; done) | (simp [vWrite_ok_ports h]; split <;> simp) | (simp [vRead_ok_ports h]; done) | (simp; split <;> simp) | simp_all)
@[simp] theorem stopChain_masks (s : State) (q : QNum) (st : Nat) : (stopChain s q st).masks = s.masks := by unfold stopChain; (try simp only []); (repeat' split) <;> (try rename_i h) <;> (first | (simp; done) | (simp [vWrite_ok_masks h]; done) | (simp [vWrite_ok_masks h]; split <;> simp) | (simp [vRead_ok_masks h]; done) | (simp; split <;> simp) | simp_all)
@[simp] theorem stopChain_trust (s : State) (q : QNum) (st : Nat) : (stopChain s q st).trust = s.trust := by unfold stopChain; (try simp only []); (repeat' split) <;> (try rename_i h) <;> (first | (simp; done) | (simp [vWrite_ok_trust h]; done) | (simp [vWrite_ok_trust h]; split <;> simp) | (simp [vRead_ok_trust h]; done) | (simp; split <;> simp) | simp_all)
@[simp] theorem stopChain_power (s : State) (q : QNum) (st : Nat) : (stopChain s q st).power = s.power := by unfold stopChain; (try simp only []); (repeat' split) <;> (try rename_i h) <;> (first | (simp; done) | (simp [vWrite_ok_power h]; done) | (simp [vWrite_ok_power h]; split <;> simp) | (simp [vRead_ok_power h]; done) | (simp; split <;> simp) | simp_all)
@[simp] theorem stopChain_funcs (s : State) (q : QNum) (st : Nat) : (stopChain s q st).funcs = s.funcs := by unfold stopChain; (try simp only []); (repeat' split) <;> (try rename_i h) <;> (first | (simp; done) | (simp [vWrite_ok_funcs h]; done) | (simp [vWrite_ok_funcs h]; split <;> simp) | (simp [vRead_ok_funcs h]; done) | (simp; split <;> simp) | simp_all)
@[simp] theorem stopChain_assign (s : State) (q : QNum) (st : Nat) : (stopChain s q st).assign = s.assign := by unfold stopChain; (try simp only []); (repeat' split) <;> (try rename_i h) <;> (first | (simp; done) | (simp [vWrite_ok_assign h]; done) | (simp [vWrite_ok_assign h]; split <;> simp) | (simp [vRead_ok_assign h]; done) | (simp; split <;> simp) | simp_all)
@[simp] theorem stopChain_paths (s : State) (q : QNum) (st : Nat) : (stopChain s q st).paths = s.paths := by unfold stopChain; (try simp only []); (repeat' split) <;> (try rename_i h) <;> (first | (simp; done) | (simp [vWrite_ok_paths h]; done) | (simp [vWrite_ok_paths h]; split <;> simp) | (simp [vRead_ok_paths h]; done) | (simp; split <;> simp) | simp_all)
@[simp] theorem stopChainsOn_pending (s : State) (p : Port) : (stopChainsOn s p).pending = s.pending := by unfold stopChainsOn; simp -implicitDefEqProofs
@[simp] theorem stopChainsOn_mem (s : State) (p : Port) : (stopChainsOn s p).mem = s.mem := by unfold stopChainsOn; simp -implicitDefEqProofs
@[simp] theorem stopChainsOn_poison (s : State) (p : Port) : (stopChainsOn s p).poison = s.poison := by unfold stopChainsOn; simp -implicitDefEqProofs
@[simp] theorem stopChainsOn_sems (s : State) (p : Port) : (stopChainsOn s p).sems = s.sems := by unfold stopChainsOn; simp -implicitDefEqProofs
@[simp] theorem stopChainsOn_time (s : State) (p : Port) : (stopChainsOn s p).time = s.time := by unfold stopChainsOn; simp -implicitDefEqProofs
@[simp] theorem stopChainsOn_arrays (s : State) (p : Port) : (stopChainsOn s p).arrays = s.arrays := by unfold stopChainsOn; simp -implicitDefEqProofs
@[simp] theorem stopChainsOn_ports (s : State) (p : Port) : (stopChainsOn s p).ports = s.ports := by unfold stopChainsOn; simp -implicitDefEqProofs
@[simp] theorem stopChainsOn_masks (s : State) (p : Port) : (stopChainsOn s p).masks = s.masks := by unfold stopChainsOn; simp -implicitDefEqProofs
@[simp] theorem stopChainsOn_trust (s : State) (p : Port) : (stopChainsOn s p).trust = s.trust := by unfold stopChainsOn; simp -implicitDefEqProofs
@[simp] theorem stopChainsOn_power (s : State) (p : Port) : (stopChainsOn s p).power = s.power := by unfold stopChainsOn; simp -implicitDefEqProofs
@[simp] theorem stopChainsOn_funcs (s : State) (p : Port) : (stopChainsOn s p).funcs = s.funcs := by unfold stopChainsOn; simp -implicitDefEqProofs
@[simp] theorem stopChainsOn_assign (s : State) (p : Port) : (stopChainsOn s p).assign = s.assign := by unfold stopChainsOn; simp -implicitDefEqProofs
@[simp] theorem stopChainsOn_paths (s : State) (p : Port) : (stopChainsOn s p).paths = s.paths := by unfold stopChainsOn; simp -implicitDefEqProofs
@[simp] theorem linkDown_pending (s : State) (p : Port) : (linkDown s p).pending = s.pending := by unfold linkDown; simp -implicitDefEqProofs
@[simp] theorem linkDown_sems (s : State) (p : Port) : (linkDown s p).sems = s.sems := by unfold linkDown; simp -implicitDefEqProofs
@[simp] theorem linkDown_time (s : State) (p : Port) : (linkDown s p).time = s.time := by unfold linkDown; simp -implicitDefEqProofs
@[simp] theorem linkDown_arrays (s : State) (p : Port) : (linkDown s p).arrays = s.arrays := by unfold linkDown; simp -implicitDefEqProofs
@[simp] theorem linkDown_masks (s : State) (p : Port) : (linkDown s p).masks = s.masks := by unfold linkDown; simp -implicitDefEqProofs
@[simp] theorem linkDown_trust (s : State) (p : Port) : (linkDown s p).trust = s.trust := by unfold linkDown; simp -implicitDefEqProofs
@[simp] theorem linkDown_power (s : State) (p : Port) : (linkDown s p).power = s.power := by unfold linkDown; simp -implicitDefEqProofs
@[simp] theorem linkDown_assign (s : State) (p : Port) : (linkDown s p).assign = s.assign := by unfold linkDown; simp -implicitDefEqProofs
@[simp] theorem linkDown_paths (s : State) (p : Port) : (linkDown s p).paths = s.paths := by unfold linkDown; simp -implicitDefEqProofs
@[simp] theorem failPort_pending (s : State) (p : Port) (reason : Nat) : (failPort s p reason).pending = s.pending := by unfold failPort; simp -implicitDefEqProofs
@[simp] theorem failPort_sems (s : State) (p : Port) (reason : Nat) : (failPort s p reason).sems = s.sems := by unfold failPort; simp -implicitDefEqProofs
@[simp] theorem failPort_time (s : State) (p : Port) (reason : Nat) : (failPort s p reason).time = s.time := by unfold failPort; simp -implicitDefEqProofs
@[simp] theorem failPort_arrays (s : State) (p : Port) (reason : Nat) : (failPort s p reason).arrays = s.arrays := by unfold failPort; simp -implicitDefEqProofs
@[simp] theorem failPort_masks (s : State) (p : Port) (reason : Nat) : (failPort s p reason).masks = s.masks := by unfold failPort; simp -implicitDefEqProofs
@[simp] theorem failPort_trust (s : State) (p : Port) (reason : Nat) : (failPort s p reason).trust = s.trust := by unfold failPort; simp -implicitDefEqProofs
@[simp] theorem failPort_power (s : State) (p : Port) (reason : Nat) : (failPort s p reason).power = s.power := by unfold failPort; simp -implicitDefEqProofs
@[simp] theorem failPort_assign (s : State) (p : Port) (reason : Nat) : (failPort s p reason).assign = s.assign := by unfold failPort; simp -implicitDefEqProofs
@[simp] theorem failPort_paths (s : State) (p : Port) (reason : Nat) : (failPort s p reason).paths = s.paths := by unfold failPort; simp -implicitDefEqProofs
@[simp] theorem disablePort_pending (s : State) (p : Port) : (disablePort s p).pending = s.pending := by unfold disablePort; simp -implicitDefEqProofs
@[simp] theorem disablePort_mem (s : State) (p : Port) : (disablePort s p).mem = s.mem := by unfold disablePort; simp -implicitDefEqProofs
@[simp] theorem disablePort_poison (s : State) (p : Port) : (disablePort s p).poison = s.poison := by unfold disablePort; simp -implicitDefEqProofs
@[simp] theorem disablePort_sems (s : State) (p : Port) : (disablePort s p).sems = s.sems := by unfold disablePort; simp -implicitDefEqProofs
@[simp] theorem disablePort_time (s : State) (p : Port) : (disablePort s p).time = s.time := by unfold disablePort; simp -implicitDefEqProofs
@[simp] theorem disablePort_arrays (s : State) (p : Port) : (disablePort s p).arrays = s.arrays := by unfold disablePort; simp -implicitDefEqProofs
@[simp] theorem disablePort_masks (s : State) (p : Port) : (disablePort s p).masks = s.masks := by unfold disablePort; simp -implicitDefEqProofs
@[simp] theorem disablePort_trust (s : State) (p : Port) : (disablePort s p).trust = s.trust := by unfold disablePort; simp -implicitDefEqProofs
@[simp] theorem disablePort_power (s : State) (p : Port) : (disablePort s p).power = s.power := by unfold disablePort; simp -implicitDefEqProofs
@[simp] theorem disablePort_funcs (s : State) (p : Port) : (disablePort s p).funcs = s.funcs := by unfold disablePort; simp -implicitDefEqProofs
@[simp] theorem disablePort_assign (s : State) (p : Port) : (disablePort s p).assign = s.assign := by unfold disablePort; simp -implicitDefEqProofs
@[simp] theorem disablePort_paths (s : State) (p : Port) : (disablePort s p).paths = s.paths := by unfold disablePort; simp -implicitDefEqProofs
@[simp] theorem settlePorts_pending (s : State) : (settlePorts s).pending = s.pending := by unfold settlePorts; simp -implicitDefEqProofs
@[simp] theorem settlePorts_mem (s : State) : (settlePorts s).mem = s.mem := by unfold settlePorts; simp -implicitDefEqProofs
@[simp] theorem settlePorts_poison (s : State) : (settlePorts s).poison = s.poison := by unfold settlePorts; simp -implicitDefEqProofs
@[simp] theorem settlePorts_sems (s : State) : (settlePorts s).sems = s.sems := by unfold settlePorts; simp -implicitDefEqProofs
@[simp] theorem settlePorts_time (s : State) : (settlePorts s).time = s.time := by unfold settlePorts; simp -implicitDefEqProofs
@[simp] theorem settlePorts_arrays (s : State) : (settlePorts s).arrays = s.arrays := by unfold settlePorts; simp -implicitDefEqProofs
@[simp] theorem settlePorts_masks (s : State) : (settlePorts s).masks = s.masks := by unfold settlePorts; simp -implicitDefEqProofs
@[simp] theorem settlePorts_trust (s : State) : (settlePorts s).trust = s.trust := by unfold settlePorts; simp -implicitDefEqProofs
@[simp] theorem settlePorts_power (s : State) : (settlePorts s).power = s.power := by unfold settlePorts; simp -implicitDefEqProofs
@[simp] theorem settlePorts_funcs (s : State) : (settlePorts s).funcs = s.funcs := by unfold settlePorts; simp -implicitDefEqProofs
@[simp] theorem settlePorts_assign (s : State) : (settlePorts s).assign = s.assign := by unfold settlePorts; simp -implicitDefEqProofs
@[simp] theorem settlePorts_paths (s : State) : (settlePorts s).paths = s.paths := by unfold settlePorts; simp -implicitDefEqProofs
@[simp] theorem runChecks_pending (s : State) (p : Port) : (runChecks s p).pending = s.pending := by unfold runChecks; simp -implicitDefEqProofs
@[simp] theorem runChecks_queues (s : State) (p : Port) : (runChecks s p).queues = s.queues := by unfold runChecks; simp -implicitDefEqProofs
@[simp] theorem runChecks_sems (s : State) (p : Port) : (runChecks s p).sems = s.sems := by unfold runChecks; simp -implicitDefEqProofs
@[simp] theorem runChecks_jobs (s : State) (p : Port) : (runChecks s p).jobs = s.jobs := by unfold runChecks; simp -implicitDefEqProofs
@[simp] theorem runChecks_time (s : State) (p : Port) : (runChecks s p).time = s.time := by unfold runChecks; simp -implicitDefEqProofs
@[simp] theorem runChecks_arrays (s : State) (p : Port) : (runChecks s p).arrays = s.arrays := by unfold runChecks; simp -implicitDefEqProofs
@[simp] theorem runChecks_masks (s : State) (p : Port) : (runChecks s p).masks = s.masks := by unfold runChecks; simp -implicitDefEqProofs
@[simp] theorem runChecks_trust (s : State) (p : Port) : (runChecks s p).trust = s.trust := by unfold runChecks; simp -implicitDefEqProofs
@[simp] theorem runChecks_power (s : State) (p : Port) : (runChecks s p).power = s.power := by unfold runChecks; simp -implicitDefEqProofs
@[simp] theorem runChecks_ctxs (s : State) (p : Port) : (runChecks s p).ctxs = s.ctxs := by unfold runChecks; simp -implicitDefEqProofs
@[simp] theorem runChecks_assign (s : State) (p : Port) : (runChecks s p).assign = s.assign := by unfold runChecks; simp -implicitDefEqProofs
@[simp] theorem runChecks_paths (s : State) (p : Port) : (runChecks s p).paths = s.paths := by unfold runChecks; simp -implicitDefEqProofs

end Sys2Proof.Machine
end

