-- ==== Sys2Proof/Laws/Frames2.lean ====
section
/-! SUPPORT. What the end of a command leaves alone: its status block, and what holds before it and is kept by stores holds after it. -/

namespace Sys2Proof.Machine

/-- What holds before the bytes of a status block are written, and is kept by stores and transaction counts, holds after. -/
theorem putEach_ok_keeps (P : State → Prop) (hp : ∀ s a bs, P s → P (physWrite s a bs)) (hh : ∀ s p a bs, P s → P (hostWrite s p a bs))
    (ht : ∀ s a n l, P s → P (touchPage s a n l)) (hc : ∀ s f j v, P s → P (cacheXl s f j v)) {f job tier : Nat} {l : List (Nat × Byte)} {s t : State}
    (h : putEach s f job tier l = .ok t) (h0 : P s) : P t := by
  induction l generalizing s with
  | nil => simp only [putEach, Acc.ok.injEq] at h; exact h ▸ h0
  | cons e r ih =>
    obtain ⟨a, b⟩ := e
    simp only [putEach] at h
    by_cases ht0 : tier = 0
    · simp only [ht0, if_true] at h
      exact ih (by rw [ht0]; exact h) (hp _ _ _ h0)
    · simp only [ht0, if_false] at h
      cases hw : vWrite s f job a [b] (some tier) with
      | ok s1 => rw [hw] at h; exact ih h (vWrite_ok_keeps P hp hh ht hc hw h0)
      | _ => rw [hw] at h; simp at h

/-- What holds before a command's status block is written, and is kept by stores and transaction counts, holds after. -/
theorem completeStat_keeps (P : State → Prop) (hp : ∀ s a bs, P s → P (physWrite s a bs)) (hh : ∀ s p a bs, P s → P (hostWrite s p a bs))
    (ht : ∀ s a n l, P s → P (touchPage s a n l)) (hc : ∀ s f j v, P s → P (cacheXl s f j v)) (s : State) (f job : Nat) (w : Started) (h0 : P s) : P (completeStat s f job w).1 := by
  unfold completeStat
  split
  · exact h0
  · split
    · next h => exact putEach_ok_keeps P hp hh ht hc h h0
    · exact h0
    · exact h0
    · exact h0
    · exact h0

@[simp] theorem completeStat_pending (s : State) (f job : Nat) (w : Started) : (completeStat s f job w).1.pending = s.pending :=
  completeStat_keeps (fun u => u.pending = s.pending) (fun _ _ _ e => (physWrite_pending ..).trans e) (fun _ _ _ _ e => (hostWrite_pending ..).trans e) (fun _ _ _ _ e => (touchPage_pending ..).trans e) (fun _ _ _ _ e => (cacheXl_pending ..).trans e) s f job w rfl
@[simp] theorem completeStat_time (s : State) (f job : Nat) (w : Started) : (completeStat s f job w).1.time = s.time :=
  completeStat_keeps (fun u => u.time = s.time) (fun _ _ _ e => (physWrite_time ..).trans e) (fun _ _ _ _ e => (hostWrite_time ..).trans e) (fun _ _ _ _ e => (touchPage_time ..).trans e) (fun _ _ _ _ e => (cacheXl_time ..).trans e) s f job w rfl
@[simp] theorem completeStat_paths (s : State) (f job : Nat) (w : Started) : (completeStat s f job w).1.paths = s.paths :=
  completeStat_keeps (fun u => u.paths = s.paths) (fun _ _ _ e => (physWrite_paths ..).trans e) (fun _ _ _ _ e => (hostWrite_paths ..).trans e) (fun _ _ _ _ e => (touchPage_paths ..).trans e) (fun _ _ _ _ e => (cacheXl_paths ..).trans e) s f job w rfl
@[simp] theorem completeStat_ports (s : State) (f job : Nat) (w : Started) : (completeStat s f job w).1.ports = s.ports :=
  completeStat_keeps (fun u => u.ports = s.ports) (fun _ _ _ e => (physWrite_ports ..).trans e) (fun _ _ _ _ e => (hostWrite_ports ..).trans e) (fun _ _ _ _ e => (touchPage_ports ..).trans e) (fun _ _ _ _ e => (cacheXl_ports ..).trans e) s f job w rfl
@[simp] theorem completeStat_hosts (s : State) (f job : Nat) (w : Started) : (completeStat s f job w).1.hosts = s.hosts :=
  completeStat_keeps (fun u => u.hosts = s.hosts) (fun _ _ _ e => (physWrite_hosts ..).trans e) (fun _ _ _ _ e => (hostWrite_hosts ..).trans e) (fun _ _ _ _ e => (touchPage_hosts ..).trans e) (fun _ _ _ _ e => (cacheXl_hosts ..).trans e) s f job w rfl
@[simp] theorem completeStat_funcs (s : State) (f job : Nat) (w : Started) : (completeStat s f job w).1.funcs = s.funcs :=
  completeStat_keeps (fun u => u.funcs = s.funcs) (fun _ _ _ e => (physWrite_funcs ..).trans e) (fun _ _ _ _ e => (hostWrite_funcs ..).trans e) (fun _ _ _ _ e => (touchPage_funcs ..).trans e) (fun _ _ _ _ e => (cacheXl_funcs ..).trans e) s f job w rfl
@[simp] theorem completeStat_homePort (s : State) (f job : Nat) (w : Started) : (completeStat s f job w).1.homePort = s.homePort :=
  completeStat_keeps (fun u => u.homePort = s.homePort) (fun _ _ _ e => (physWrite_homePort ..).trans e) (fun _ _ _ _ e => (hostWrite_homePort ..).trans e) (fun _ _ _ _ e => (touchPage_homePort ..).trans e) (fun _ _ _ _ e => (cacheXl_homePort ..).trans e) s f job w rfl
@[simp] theorem completeStat_assign (s : State) (f job : Nat) (w : Started) : (completeStat s f job w).1.assign = s.assign :=
  completeStat_keeps (fun u => u.assign = s.assign) (fun _ _ _ e => (physWrite_assign ..).trans e) (fun _ _ _ _ e => (hostWrite_assign ..).trans e) (fun _ _ _ _ e => (touchPage_assign ..).trans e) (fun _ _ _ _ e => (cacheXl_assign ..).trans e) s f job w rfl
@[simp] theorem completeStat_queues (s : State) (f job : Nat) (w : Started) : (completeStat s f job w).1.queues = s.queues :=
  completeStat_keeps (fun u => u.queues = s.queues) (fun _ _ _ e => (physWrite_queues ..).trans e) (fun _ _ _ _ e => (hostWrite_queues ..).trans e) (fun _ _ _ _ e => (touchPage_queues ..).trans e) (fun _ _ _ _ e => (cacheXl_queues ..).trans e) s f job w rfl
@[simp] theorem completeStat_sems (s : State) (f job : Nat) (w : Started) : (completeStat s f job w).1.sems = s.sems :=
  completeStat_keeps (fun u => u.sems = s.sems) (fun _ _ _ e => (physWrite_sems ..).trans e) (fun _ _ _ _ e => (hostWrite_sems ..).trans e) (fun _ _ _ _ e => (touchPage_sems ..).trans e) (fun _ _ _ _ e => (cacheXl_sems ..).trans e) s f job w rfl
@[simp] theorem completeStat_jobs (s : State) (f job : Nat) (w : Started) : (completeStat s f job w).1.jobs = s.jobs :=
  completeStat_keeps (fun u => u.jobs = s.jobs) (fun _ _ _ e => (physWrite_jobs ..).trans e) (fun _ _ _ _ e => (hostWrite_jobs ..).trans e) (fun _ _ _ _ e => (touchPage_jobs ..).trans e) (fun _ _ _ _ e => (cacheXl_jobs ..).trans e) s f job w rfl
@[simp] theorem completeStat_redJobs (s : State) (f job : Nat) (w : Started) : (completeStat s f job w).1.redJobs = s.redJobs :=
  completeStat_keeps (fun u => u.redJobs = s.redJobs) (fun _ _ _ e => (physWrite_redJobs ..).trans e) (fun _ _ _ _ e => (hostWrite_redJobs ..).trans e) (fun _ _ _ _ e => (touchPage_redJobs ..).trans e) (fun _ _ _ _ e => (cacheXl_redJobs ..).trans e) s f job w rfl
@[simp] theorem completeStat_ctxs (s : State) (f job : Nat) (w : Started) : (completeStat s f job w).1.ctxs = s.ctxs :=
  completeStat_keeps (fun u => u.ctxs = s.ctxs) (fun _ _ _ e => (physWrite_ctxs ..).trans e) (fun _ _ _ _ e => (hostWrite_ctxs ..).trans e) (fun _ _ _ _ e => (touchPage_ctxs ..).trans e) (fun _ _ _ _ e => (cacheXl_ctxs ..).trans e) s f job w rfl
@[simp] theorem completeStat_aborts (s : State) (f job : Nat) (w : Started) : (completeStat s f job w).1.aborts = s.aborts :=
  completeStat_keeps (fun u => u.aborts = s.aborts) (fun _ _ _ e => (physWrite_aborts ..).trans e) (fun _ _ _ _ e => (hostWrite_aborts ..).trans e) (fun _ _ _ _ e => (touchPage_aborts ..).trans e) (fun _ _ _ _ e => (cacheXl_aborts ..).trans e) s f job w rfl
@[simp] theorem completeStat_arrays (s : State) (f job : Nat) (w : Started) : (completeStat s f job w).1.arrays = s.arrays :=
  completeStat_keeps (fun u => u.arrays = s.arrays) (fun _ _ _ e => (physWrite_arrays ..).trans e) (fun _ _ _ _ e => (hostWrite_arrays ..).trans e) (fun _ _ _ _ e => (touchPage_arrays ..).trans e) (fun _ _ _ _ e => (cacheXl_arrays ..).trans e) s f job w rfl
@[simp] theorem completeStat_samples (s : State) (f job : Nat) (w : Started) : (completeStat s f job w).1.samples = s.samples :=
  completeStat_keeps (fun u => u.samples = s.samples) (fun _ _ _ e => (physWrite_samples ..).trans e) (fun _ _ _ _ e => (hostWrite_samples ..).trans e) (fun _ _ _ _ e => (touchPage_samples ..).trans e) (fun _ _ _ _ e => (cacheXl_samples ..).trans e) s f job w rfl
@[simp] theorem completeStat_masks (s : State) (f job : Nat) (w : Started) : (completeStat s f job w).1.masks = s.masks :=
  completeStat_keeps (fun u => u.masks = s.masks) (fun _ _ _ e => (physWrite_masks ..).trans e) (fun _ _ _ _ e => (hostWrite_masks ..).trans e) (fun _ _ _ _ e => (touchPage_masks ..).trans e) (fun _ _ _ _ e => (cacheXl_masks ..).trans e) s f job w rfl
@[simp] theorem completeStat_dict (s : State) (f job : Nat) (w : Started) : (completeStat s f job w).1.dict = s.dict :=
  completeStat_keeps (fun u => u.dict = s.dict) (fun _ _ _ e => (physWrite_dict ..).trans e) (fun _ _ _ _ e => (hostWrite_dict ..).trans e) (fun _ _ _ _ e => (touchPage_dict ..).trans e) (fun _ _ _ _ e => (cacheXl_dict ..).trans e) s f job w rfl
@[simp] theorem completeStat_trust (s : State) (f job : Nat) (w : Started) : (completeStat s f job w).1.trust = s.trust :=
  completeStat_keeps (fun u => u.trust = s.trust) (fun _ _ _ e => (physWrite_trust ..).trans e) (fun _ _ _ _ e => (hostWrite_trust ..).trans e) (fun _ _ _ _ e => (touchPage_trust ..).trans e) (fun _ _ _ _ e => (cacheXl_trust ..).trans e) s f job w rfl
@[simp] theorem completeStat_power (s : State) (f job : Nat) (w : Started) : (completeStat s f job w).1.power = s.power :=
  completeStat_keeps (fun u => u.power = s.power) (fun _ _ _ e => (physWrite_power ..).trans e) (fun _ _ _ _ e => (hostWrite_power ..).trans e) (fun _ _ _ _ e => (touchPage_power ..).trans e) (fun _ _ _ _ e => (cacheXl_power ..).trans e) s f job w rfl
@[simp] theorem completeStat_free (s : State) (f job : Nat) (w : Started) : (completeStat s f job w).1.free = s.free :=
  completeStat_keeps (fun u => u.free = s.free) (fun _ _ _ e => (physWrite_free ..).trans e) (fun _ _ _ _ e => (hostWrite_free ..).trans e) (fun _ _ _ _ e => (touchPage_free ..).trans e) (fun _ _ _ _ e => (cacheXl_free ..).trans e) s f job w rfl

end Sys2Proof.Machine
end

