-- ==== Sys2Proof/Laws/Frames3.lean ====
section
/-! SUPPORT. What the larger operations and the meanings leave unchanged, field by field. -/

set_option linter.unusedTactic false
set_option linter.unreachableTactic false
set_option linter.unusedSimpArgs false

namespace Sys2Proof.Machine

@[simp] theorem completeOne_pending (s : State) (q : QNum) (w : Started) : (completeOne s q w).pending = s.pending := by unfold completeOne; (try simp only []); (repeat' split) <;> (try rename_i h) <;> (first | (simp; done) | (simp [vWrite_ok_pending h]; done) | (simp [vWrite_ok_pending h]; split <;> simp) | (simp [vRead_ok_pending h]; done) | (simp; split <;> simp) | simp_all)
@[simp] theorem completeOne_time (s : State) (q : QNum) (w : Started) : (completeOne s q w).time = s.time := by unfold completeOne; (try simp only []); (repeat' split) <;> (try rename_i h) <;> (first | (simp; done) | (simp [vWrite_ok_time h]; done) | (simp [vWrite_ok_time h]; split <;> simp) | (simp [vRead_ok_time h]; done) | (simp; split <;> simp) | simp_all)
@[simp] theorem completeOne_ports (s : State) (q : QNum) (w : Started) : (completeOne s q w).ports = s.ports := by unfold completeOne; (try simp only []); (repeat' split) <;> (try rename_i h) <;> (first | (simp; done) | (simp [vWrite_ok_ports h]; done) | (simp [vWrite_ok_ports h]; split <;> simp) | (simp [vRead_ok_ports h]; done) | (simp; split <;> simp) | simp_all)
@[simp] theorem completeOne_trust (s : State) (q : QNum) (w : Started) : (completeOne s q w).trust = s.trust := by unfold completeOne; (try simp only []); (repeat' split) <;> (try rename_i h) <;> (first | (simp; done) | (simp [vWrite_ok_trust h]; done) | (simp [vWrite_ok_trust h]; split <;> simp) | (simp [vRead_ok_trust h]; done) | (simp; split <;> simp) | simp_all)
@[simp] theorem completeOne_power (s : State) (q : QNum) (w : Started) : (completeOne s q w).power = s.power := by unfold completeOne; (try simp only []); (repeat' split) <;> (try rename_i h) <;> (first | (simp; done) | (simp [vWrite_ok_power h]; done) | (simp [vWrite_ok_power h]; split <;> simp) | (simp [vRead_ok_power h]; done) | (simp; split <;> simp) | simp_all)
@[simp] theorem recheckPorts_pending (s : State) : (recheckPorts s).pending = s.pending := by unfold recheckPorts; simp -implicitDefEqProofs
@[simp] theorem recheckPorts_queues (s : State) : (recheckPorts s).queues = s.queues := by unfold recheckPorts; simp -implicitDefEqProofs
@[simp] theorem recheckPorts_sems (s : State) : (recheckPorts s).sems = s.sems := by unfold recheckPorts; simp -implicitDefEqProofs
@[simp] theorem recheckPorts_jobs (s : State) : (recheckPorts s).jobs = s.jobs := by unfold recheckPorts; simp -implicitDefEqProofs
@[simp] theorem recheckPorts_time (s : State) : (recheckPorts s).time = s.time := by unfold recheckPorts; simp -implicitDefEqProofs
@[simp] theorem recheckPorts_arrays (s : State) : (recheckPorts s).arrays = s.arrays := by unfold recheckPorts; simp -implicitDefEqProofs
@[simp] theorem recheckPorts_trust (s : State) : (recheckPorts s).trust = s.trust := by unfold recheckPorts; simp -implicitDefEqProofs
@[simp] theorem recheckPorts_power (s : State) : (recheckPorts s).power = s.power := by unfold recheckPorts; simp -implicitDefEqProofs
@[simp] theorem noteCe_pending (s : State) (cls : Nat) (inst : Nat) (n : Nat) (loc : Nat) : (noteCe s cls inst n loc).pending = s.pending := by unfold noteCe; simp -implicitDefEqProofs
@[simp] theorem noteCe_mem (s : State) (cls : Nat) (inst : Nat) (n : Nat) (loc : Nat) : (noteCe s cls inst n loc).mem = s.mem := by unfold noteCe; simp -implicitDefEqProofs
@[simp] theorem noteCe_queues (s : State) (cls : Nat) (inst : Nat) (n : Nat) (loc : Nat) : (noteCe s cls inst n loc).queues = s.queues := by unfold noteCe; simp -implicitDefEqProofs
@[simp] theorem noteCe_sems (s : State) (cls : Nat) (inst : Nat) (n : Nat) (loc : Nat) : (noteCe s cls inst n loc).sems = s.sems := by unfold noteCe; simp -implicitDefEqProofs
@[simp] theorem noteCe_jobs (s : State) (cls : Nat) (inst : Nat) (n : Nat) (loc : Nat) : (noteCe s cls inst n loc).jobs = s.jobs := by unfold noteCe; simp -implicitDefEqProofs
@[simp] theorem noteCe_time (s : State) (cls : Nat) (inst : Nat) (n : Nat) (loc : Nat) : (noteCe s cls inst n loc).time = s.time := by unfold noteCe; simp -implicitDefEqProofs
@[simp] theorem noteCe_arrays (s : State) (cls : Nat) (inst : Nat) (n : Nat) (loc : Nat) : (noteCe s cls inst n loc).arrays = s.arrays := by unfold noteCe; simp -implicitDefEqProofs
@[simp] theorem noteCe_ports (s : State) (cls : Nat) (inst : Nat) (n : Nat) (loc : Nat) : (noteCe s cls inst n loc).ports = s.ports := by unfold noteCe; simp -implicitDefEqProofs
@[simp] theorem noteCe_trust (s : State) (cls : Nat) (inst : Nat) (n : Nat) (loc : Nat) : (noteCe s cls inst n loc).trust = s.trust := by unfold noteCe; simp -implicitDefEqProofs
@[simp] theorem noteCe_power (s : State) (cls : Nat) (inst : Nat) (n : Nat) (loc : Nat) : (noteCe s cls inst n loc).power = s.power := by unfold noteCe; simp -implicitDefEqProofs
@[simp] theorem startInval_pending (s : State) (f : Func) (scope : Nat) (va : Nat) : (startInval s f scope va).pending = s.pending := by unfold startInval; simp -implicitDefEqProofs
@[simp] theorem startInval_mem (s : State) (f : Func) (scope : Nat) (va : Nat) : (startInval s f scope va).mem = s.mem := by unfold startInval; simp -implicitDefEqProofs
@[simp] theorem startInval_queues (s : State) (f : Func) (scope : Nat) (va : Nat) : (startInval s f scope va).queues = s.queues := by unfold startInval; simp -implicitDefEqProofs
@[simp] theorem startInval_sems (s : State) (f : Func) (scope : Nat) (va : Nat) : (startInval s f scope va).sems = s.sems := by unfold startInval; simp -implicitDefEqProofs
@[simp] theorem startInval_jobs (s : State) (f : Func) (scope : Nat) (va : Nat) : (startInval s f scope va).jobs = s.jobs := by unfold startInval; simp -implicitDefEqProofs
@[simp] theorem startInval_time (s : State) (f : Func) (scope : Nat) (va : Nat) : (startInval s f scope va).time = s.time := by unfold startInval; simp -implicitDefEqProofs
@[simp] theorem startInval_arrays (s : State) (f : Func) (scope : Nat) (va : Nat) : (startInval s f scope va).arrays = s.arrays := by unfold startInval; simp -implicitDefEqProofs
@[simp] theorem startInval_ports (s : State) (f : Func) (scope : Nat) (va : Nat) : (startInval s f scope va).ports = s.ports := by unfold startInval; simp -implicitDefEqProofs
@[simp] theorem startInval_trust (s : State) (f : Func) (scope : Nat) (va : Nat) : (startInval s f scope va).trust = s.trust := by unfold startInval; simp -implicitDefEqProofs
@[simp] theorem startInval_power (s : State) (f : Func) (scope : Nat) (va : Nat) : (startInval s f scope va).power = s.power := by unfold startInval; simp -implicitDefEqProofs
@[simp] theorem rereadRoots_pending (s : State) (f : Nat) : (rereadRoots s f).pending = s.pending := (rfl)
@[simp] theorem rereadRoots_mem (s : State) (f : Nat) : (rereadRoots s f).mem = s.mem := (rfl)
@[simp] theorem rereadRoots_queues (s : State) (f : Nat) : (rereadRoots s f).queues = s.queues := (rfl)
@[simp] theorem rereadRoots_sems (s : State) (f : Nat) : (rereadRoots s f).sems = s.sems := (rfl)
@[simp] theorem rereadRoots_time (s : State) (f : Nat) : (rereadRoots s f).time = s.time := (rfl)
@[simp] theorem rereadRoots_arrays (s : State) (f : Nat) : (rereadRoots s f).arrays = s.arrays := (rfl)
@[simp] theorem rereadRoots_ports (s : State) (f : Nat) : (rereadRoots s f).ports = s.ports := (rfl)
@[simp] theorem rereadRoots_trust (s : State) (f : Nat) : (rereadRoots s f).trust = s.trust := (rfl)
@[simp] theorem rereadRoots_power (s : State) (f : Nat) : (rereadRoots s f).power = s.power := (rfl)
@[simp] theorem unpoison_pending (s : State) (gs : List Nat) : (unpoison s gs).pending = s.pending := by unfold unpoison; simp -implicitDefEqProofs
@[simp] theorem unpoison_mem (s : State) (gs : List Nat) : (unpoison s gs).mem = s.mem := by unfold unpoison; simp -implicitDefEqProofs
@[simp] theorem unpoison_queues (s : State) (gs : List Nat) : (unpoison s gs).queues = s.queues := by unfold unpoison; simp -implicitDefEqProofs
@[simp] theorem unpoison_sems (s : State) (gs : List Nat) : (unpoison s gs).sems = s.sems := by unfold unpoison; simp -implicitDefEqProofs
@[simp] theorem unpoison_jobs (s : State) (gs : List Nat) : (unpoison s gs).jobs = s.jobs := by unfold unpoison; simp -implicitDefEqProofs
@[simp] theorem unpoison_time (s : State) (gs : List Nat) : (unpoison s gs).time = s.time := by unfold unpoison; simp -implicitDefEqProofs
@[simp] theorem unpoison_arrays (s : State) (gs : List Nat) : (unpoison s gs).arrays = s.arrays := by unfold unpoison; simp -implicitDefEqProofs
@[simp] theorem unpoison_ports (s : State) (gs : List Nat) : (unpoison s gs).ports = s.ports := by unfold unpoison; simp -implicitDefEqProofs
@[simp] theorem unpoison_masks (s : State) (gs : List Nat) : (unpoison s gs).masks = s.masks := by unfold unpoison; simp -implicitDefEqProofs
@[simp] theorem unpoison_trust (s : State) (gs : List Nat) : (unpoison s gs).trust = s.trust := by unfold unpoison; simp -implicitDefEqProofs
@[simp] theorem unpoison_power (s : State) (gs : List Nat) : (unpoison s gs).power = s.power := by unfold unpoison; simp -implicitDefEqProofs
@[simp] theorem unpoison_ctxs (s : State) (gs : List Nat) : (unpoison s gs).ctxs = s.ctxs := by unfold unpoison; simp -implicitDefEqProofs
@[simp] theorem unpoison_funcs (s : State) (gs : List Nat) : (unpoison s gs).funcs = s.funcs := by unfold unpoison; simp -implicitDefEqProofs
@[simp] theorem unpoison_assign (s : State) (gs : List Nat) : (unpoison s gs).assign = s.assign := by unfold unpoison; simp -implicitDefEqProofs
@[simp] theorem unpoison_paths (s : State) (gs : List Nat) : (unpoison s gs).paths = s.paths := by unfold unpoison; simp -implicitDefEqProofs
@[simp] theorem takePool_pending (s : State) : (takePool s).pending = s.pending := by unfold takePool; simp -implicitDefEqProofs
@[simp] theorem takePool_mem (s : State) : (takePool s).mem = s.mem := by unfold takePool; simp -implicitDefEqProofs
@[simp] theorem takePool_queues (s : State) : (takePool s).queues = s.queues := by unfold takePool; simp -implicitDefEqProofs
@[simp] theorem takePool_sems (s : State) : (takePool s).sems = s.sems := by unfold takePool; simp -implicitDefEqProofs
@[simp] theorem takePool_jobs (s : State) : (takePool s).jobs = s.jobs := by unfold takePool; simp -implicitDefEqProofs
@[simp] theorem takePool_time (s : State) : (takePool s).time = s.time := by unfold takePool; simp -implicitDefEqProofs
@[simp] theorem takePool_arrays (s : State) : (takePool s).arrays = s.arrays := by unfold takePool; simp -implicitDefEqProofs
@[simp] theorem takePool_ports (s : State) : (takePool s).ports = s.ports := by unfold takePool; simp -implicitDefEqProofs
@[simp] theorem takePool_trust (s : State) : (takePool s).trust = s.trust := by unfold takePool; simp -implicitDefEqProofs
@[simp] theorem takePool_power (s : State) : (takePool s).power = s.power := by unfold takePool; simp -implicitDefEqProofs
@[simp] theorem pointLeaf_pending (s : State) (leaf : Nat) (fr : Nat) : (pointLeaf s leaf fr).pending = s.pending := (rfl)
@[simp] theorem pointLeaf_queues (s : State) (leaf : Nat) (fr : Nat) : (pointLeaf s leaf fr).queues = s.queues := (rfl)
@[simp] theorem pointLeaf_sems (s : State) (leaf : Nat) (fr : Nat) : (pointLeaf s leaf fr).sems = s.sems := (rfl)
@[simp] theorem pointLeaf_jobs (s : State) (leaf : Nat) (fr : Nat) : (pointLeaf s leaf fr).jobs = s.jobs := (rfl)
@[simp] theorem pointLeaf_time (s : State) (leaf : Nat) (fr : Nat) : (pointLeaf s leaf fr).time = s.time := (rfl)
@[simp] theorem pointLeaf_arrays (s : State) (leaf : Nat) (fr : Nat) : (pointLeaf s leaf fr).arrays = s.arrays := (rfl)
@[simp] theorem pointLeaf_ports (s : State) (leaf : Nat) (fr : Nat) : (pointLeaf s leaf fr).ports = s.ports := (rfl)
@[simp] theorem pointLeaf_trust (s : State) (leaf : Nat) (fr : Nat) : (pointLeaf s leaf fr).trust = s.trust := (rfl)
@[simp] theorem pointLeaf_power (s : State) (leaf : Nat) (fr : Nat) : (pointLeaf s leaf fr).power = s.power := (rfl)
@[simp] theorem doMove_pending (s : State) (m : PageMv) : (doMove s m).pending = s.pending := by unfold doMove; (repeat' split) <;> simp
@[simp] theorem doMove_queues (s : State) (m : PageMv) : (doMove s m).queues = s.queues := by unfold doMove; (repeat' split) <;> simp
@[simp] theorem doMove_sems (s : State) (m : PageMv) : (doMove s m).sems = s.sems := by unfold doMove; (repeat' split) <;> simp
@[simp] theorem doMove_jobs (s : State) (m : PageMv) : (doMove s m).jobs = s.jobs := by unfold doMove; (repeat' split) <;> simp
@[simp] theorem doMove_time (s : State) (m : PageMv) : (doMove s m).time = s.time := by unfold doMove; (repeat' split) <;> simp
@[simp] theorem doMove_arrays (s : State) (m : PageMv) : (doMove s m).arrays = s.arrays := by unfold doMove; (repeat' split) <;> simp
@[simp] theorem doMove_ports (s : State) (m : PageMv) : (doMove s m).ports = s.ports := by unfold doMove; (repeat' split) <;> simp
@[simp] theorem doMove_trust (s : State) (m : PageMv) : (doMove s m).trust = s.trust := by unfold doMove; (repeat' split) <;> simp
@[simp] theorem doMove_power (s : State) (m : PageMv) : (doMove s m).power = s.power := by unfold doMove; (repeat' split) <;> simp
@[simp] theorem offerRow_pending (s : State) (a : Nat) : (offerRow s a).pending = s.pending := by unfold offerRow; simp -implicitDefEqProofs
@[simp] theorem offerRow_mem (s : State) (a : Nat) : (offerRow s a).mem = s.mem := by unfold offerRow; simp -implicitDefEqProofs
@[simp] theorem offerRow_queues (s : State) (a : Nat) : (offerRow s a).queues = s.queues := by unfold offerRow; simp -implicitDefEqProofs
@[simp] theorem offerRow_sems (s : State) (a : Nat) : (offerRow s a).sems = s.sems := by unfold offerRow; simp -implicitDefEqProofs
@[simp] theorem offerRow_jobs (s : State) (a : Nat) : (offerRow s a).jobs = s.jobs := by unfold offerRow; simp -implicitDefEqProofs
@[simp] theorem offerRow_time (s : State) (a : Nat) : (offerRow s a).time = s.time := by unfold offerRow; simp -implicitDefEqProofs
@[simp] theorem offerRow_arrays (s : State) (a : Nat) : (offerRow s a).arrays = s.arrays := by unfold offerRow; simp -implicitDefEqProofs
@[simp] theorem offerRow_ports (s : State) (a : Nat) : (offerRow s a).ports = s.ports := by unfold offerRow; simp -implicitDefEqProofs
@[simp] theorem offerRow_trust (s : State) (a : Nat) : (offerRow s a).trust = s.trust := by unfold offerRow; simp -implicitDefEqProofs
@[simp] theorem offerRow_power (s : State) (a : Nat) : (offerRow s a).power = s.power := by unfold offerRow; simp -implicitDefEqProofs
@[simp] theorem scrubOne_pending (s : State) (e : MemError) : (scrubOne s e).pending = s.pending := by unfold scrubOne; simp -implicitDefEqProofs
@[simp] theorem scrubOne_mem (s : State) (e : MemError) : (scrubOne s e).mem = s.mem := by unfold scrubOne; simp -implicitDefEqProofs
@[simp] theorem scrubOne_queues (s : State) (e : MemError) : (scrubOne s e).queues = s.queues := by unfold scrubOne; simp -implicitDefEqProofs
@[simp] theorem scrubOne_sems (s : State) (e : MemError) : (scrubOne s e).sems = s.sems := by unfold scrubOne; simp -implicitDefEqProofs
@[simp] theorem scrubOne_jobs (s : State) (e : MemError) : (scrubOne s e).jobs = s.jobs := by unfold scrubOne; simp -implicitDefEqProofs
@[simp] theorem scrubOne_time (s : State) (e : MemError) : (scrubOne s e).time = s.time := by unfold scrubOne; simp -implicitDefEqProofs
@[simp] theorem scrubOne_arrays (s : State) (e : MemError) : (scrubOne s e).arrays = s.arrays := by unfold scrubOne; simp -implicitDefEqProofs
@[simp] theorem scrubOne_ports (s : State) (e : MemError) : (scrubOne s e).ports = s.ports := by unfold scrubOne; simp -implicitDefEqProofs
@[simp] theorem scrubOne_trust (s : State) (e : MemError) : (scrubOne s e).trust = s.trust := by unfold scrubOne; simp -implicitDefEqProofs
@[simp] theorem scrubOne_power (s : State) (e : MemError) : (scrubOne s e).power = s.power := by unfold scrubOne; simp -implicitDefEqProofs
@[simp] theorem lockTime_pending (s : State) : (lockTime s).pending = s.pending := (rfl)
@[simp] theorem lockTime_mem (s : State) : (lockTime s).mem = s.mem := (rfl)
@[simp] theorem lockTime_queues (s : State) : (lockTime s).queues = s.queues := (rfl)
@[simp] theorem lockTime_sems (s : State) : (lockTime s).sems = s.sems := (rfl)
@[simp] theorem lockTime_jobs (s : State) : (lockTime s).jobs = s.jobs := (rfl)
@[simp] theorem lockTime_arrays (s : State) : (lockTime s).arrays = s.arrays := (rfl)
@[simp] theorem lockTime_ports (s : State) : (lockTime s).ports = s.ports := (rfl)
@[simp] theorem lockTime_trust (s : State) : (lockTime s).trust = s.trust := (rfl)
@[simp] theorem lockTime_power (s : State) : (lockTime s).power = s.power := (rfl)
@[simp] theorem moveTime_pending (s : State) (rise : BitVec 64) (n : BitVec 32) : (moveTime s rise n).pending = s.pending := by unfold moveTime; simp -implicitDefEqProofs
@[simp] theorem moveTime_mem (s : State) (rise : BitVec 64) (n : BitVec 32) : (moveTime s rise n).mem = s.mem := by unfold moveTime; simp -implicitDefEqProofs
@[simp] theorem moveTime_queues (s : State) (rise : BitVec 64) (n : BitVec 32) : (moveTime s rise n).queues = s.queues := by unfold moveTime; simp -implicitDefEqProofs
@[simp] theorem moveTime_sems (s : State) (rise : BitVec 64) (n : BitVec 32) : (moveTime s rise n).sems = s.sems := by unfold moveTime; simp -implicitDefEqProofs
@[simp] theorem moveTime_jobs (s : State) (rise : BitVec 64) (n : BitVec 32) : (moveTime s rise n).jobs = s.jobs := by unfold moveTime; simp -implicitDefEqProofs
@[simp] theorem moveTime_arrays (s : State) (rise : BitVec 64) (n : BitVec 32) : (moveTime s rise n).arrays = s.arrays := by unfold moveTime; simp -implicitDefEqProofs
@[simp] theorem moveTime_ports (s : State) (rise : BitVec 64) (n : BitVec 32) : (moveTime s rise n).ports = s.ports := by unfold moveTime; simp -implicitDefEqProofs
@[simp] theorem moveTime_trust (s : State) (rise : BitVec 64) (n : BitVec 32) : (moveTime s rise n).trust = s.trust := by unfold moveTime; simp -implicitDefEqProofs
@[simp] theorem moveTime_power (s : State) (rise : BitVec 64) (n : BitVec 32) : (moveTime s rise n).power = s.power := by unfold moveTime; simp -implicitDefEqProofs
@[simp] theorem countMissing_pending (s : State) : (countMissing s).pending = s.pending := (rfl)
@[simp] theorem countMissing_mem (s : State) : (countMissing s).mem = s.mem := (rfl)
@[simp] theorem countMissing_queues (s : State) : (countMissing s).queues = s.queues := (rfl)
@[simp] theorem countMissing_sems (s : State) : (countMissing s).sems = s.sems := (rfl)
@[simp] theorem countMissing_jobs (s : State) : (countMissing s).jobs = s.jobs := (rfl)
@[simp] theorem countMissing_arrays (s : State) : (countMissing s).arrays = s.arrays := (rfl)
@[simp] theorem countMissing_ports (s : State) : (countMissing s).ports = s.ports := (rfl)
@[simp] theorem countMissing_trust (s : State) : (countMissing s).trust = s.trust := (rfl)
@[simp] theorem countMissing_power (s : State) : (countMissing s).power = s.power := (rfl)
@[simp] theorem syncSlip_pending (s : State) : (syncSlip s).pending = s.pending := by unfold syncSlip; simp -implicitDefEqProofs
@[simp] theorem syncSlip_queues (s : State) : (syncSlip s).queues = s.queues := by unfold syncSlip; simp -implicitDefEqProofs
@[simp] theorem syncSlip_sems (s : State) : (syncSlip s).sems = s.sems := by unfold syncSlip; simp -implicitDefEqProofs
@[simp] theorem syncSlip_jobs (s : State) : (syncSlip s).jobs = s.jobs := by unfold syncSlip; simp -implicitDefEqProofs
@[simp] theorem syncSlip_arrays (s : State) : (syncSlip s).arrays = s.arrays := by unfold syncSlip; simp -implicitDefEqProofs
@[simp] theorem syncSlip_ports (s : State) : (syncSlip s).ports = s.ports := by unfold syncSlip; simp -implicitDefEqProofs
@[simp] theorem syncSlip_trust (s : State) : (syncSlip s).trust = s.trust := by unfold syncSlip; simp -implicitDefEqProofs
@[simp] theorem syncSlip_power (s : State) : (syncSlip s).power = s.power := by unfold syncSlip; simp -implicitDefEqProofs
@[simp] theorem goodPulse_pending (s : State) (rise : BitVec 64) : (goodPulse s rise).pending = s.pending := by unfold goodPulse; (try simp only []); (repeat' split) <;> (try rename_i h) <;> (first | (simp; done) | (simp_all; done))
@[simp] theorem goodPulse_queues (s : State) (rise : BitVec 64) : (goodPulse s rise).queues = s.queues := by unfold goodPulse; (try simp only []); (repeat' split) <;> (try rename_i h) <;> (first | (simp; done) | (simp_all; done))
@[simp] theorem goodPulse_sems (s : State) (rise : BitVec 64) : (goodPulse s rise).sems = s.sems := by unfold goodPulse; (try simp only []); (repeat' split) <;> (try rename_i h) <;> (first | (simp; done) | (simp_all; done))
@[simp] theorem goodPulse_jobs (s : State) (rise : BitVec 64) : (goodPulse s rise).jobs = s.jobs := by unfold goodPulse; (try simp only []); (repeat' split) <;> (try rename_i h) <;> (first | (simp; done) | (simp_all; done))
@[simp] theorem goodPulse_arrays (s : State) (rise : BitVec 64) : (goodPulse s rise).arrays = s.arrays := by unfold goodPulse; (try simp only []); (repeat' split) <;> (try rename_i h) <;> (first | (simp; done) | (simp_all; done))
@[simp] theorem goodPulse_ports (s : State) (rise : BitVec 64) : (goodPulse s rise).ports = s.ports := by unfold goodPulse; (try simp only []); (repeat' split) <;> (try rename_i h) <;> (first | (simp; done) | (simp_all; done))
@[simp] theorem goodPulse_trust (s : State) (rise : BitVec 64) : (goodPulse s rise).trust = s.trust := by unfold goodPulse; (try simp only []); (repeat' split) <;> (try rename_i h) <;> (first | (simp; done) | (simp_all; done))
@[simp] theorem goodPulse_power (s : State) (rise : BitVec 64) : (goodPulse s rise).power = s.power := by unfold goodPulse; (try simp only []); (repeat' split) <;> (try rename_i h) <;> (first | (simp; done) | (simp_all; done))
@[simp] theorem badPulse_pending (s : State) (rise : BitVec 64) : (badPulse s rise).pending = s.pending := by unfold badPulse; (repeat' split) <;> simp
@[simp] theorem badPulse_mem (s : State) (rise : BitVec 64) : (badPulse s rise).mem = s.mem := by unfold badPulse; (repeat' split) <;> simp
@[simp] theorem badPulse_queues (s : State) (rise : BitVec 64) : (badPulse s rise).queues = s.queues := by unfold badPulse; (repeat' split) <;> simp
@[simp] theorem badPulse_sems (s : State) (rise : BitVec 64) : (badPulse s rise).sems = s.sems := by unfold badPulse; (repeat' split) <;> simp
@[simp] theorem badPulse_jobs (s : State) (rise : BitVec 64) : (badPulse s rise).jobs = s.jobs := by unfold badPulse; (repeat' split) <;> simp
@[simp] theorem badPulse_arrays (s : State) (rise : BitVec 64) : (badPulse s rise).arrays = s.arrays := by unfold badPulse; (repeat' split) <;> simp
@[simp] theorem badPulse_ports (s : State) (rise : BitVec 64) : (badPulse s rise).ports = s.ports := by unfold badPulse; (repeat' split) <;> simp
@[simp] theorem badPulse_trust (s : State) (rise : BitVec 64) : (badPulse s rise).trust = s.trust := by unfold badPulse; (repeat' split) <;> simp
@[simp] theorem badPulse_power (s : State) (rise : BitVec 64) : (badPulse s rise).power = s.power := by unfold badPulse; (repeat' split) <;> simp
@[simp] theorem atSlot_pending (s : State) (k : Nat) : (atSlot s k).pending = s.pending := by unfold atSlot; simp -implicitDefEqProofs
@[simp] theorem atSlot_mem (s : State) (k : Nat) : (atSlot s k).mem = s.mem := by unfold atSlot; simp -implicitDefEqProofs
@[simp] theorem atSlot_queues (s : State) (k : Nat) : (atSlot s k).queues = s.queues := by unfold atSlot; simp -implicitDefEqProofs
@[simp] theorem atSlot_sems (s : State) (k : Nat) : (atSlot s k).sems = s.sems := by unfold atSlot; simp -implicitDefEqProofs
@[simp] theorem atSlot_jobs (s : State) (k : Nat) : (atSlot s k).jobs = s.jobs := by unfold atSlot; simp -implicitDefEqProofs
@[simp] theorem atSlot_arrays (s : State) (k : Nat) : (atSlot s k).arrays = s.arrays := by unfold atSlot; simp -implicitDefEqProofs
@[simp] theorem atSlot_ports (s : State) (k : Nat) : (atSlot s k).ports = s.ports := by unfold atSlot; simp -implicitDefEqProofs
@[simp] theorem atSlot_trust (s : State) (k : Nat) : (atSlot s k).trust = s.trust := by unfold atSlot; simp -implicitDefEqProofs
@[simp] theorem atSlot_power (s : State) (k : Nat) : (atSlot s k).power = s.power := by unfold atSlot; simp -implicitDefEqProofs
@[simp] theorem strIndication_pending (s : State) (p : Port) (tgt : BitVec 4) : (strIndication s p tgt).pending = s.pending := by unfold strIndication; simp -implicitDefEqProofs
@[simp] theorem strIndication_queues (s : State) (p : Port) (tgt : BitVec 4) : (strIndication s p tgt).queues = s.queues := by unfold strIndication; simp -implicitDefEqProofs
@[simp] theorem strIndication_sems (s : State) (p : Port) (tgt : BitVec 4) : (strIndication s p tgt).sems = s.sems := by unfold strIndication; simp -implicitDefEqProofs
@[simp] theorem strIndication_jobs (s : State) (p : Port) (tgt : BitVec 4) : (strIndication s p tgt).jobs = s.jobs := by unfold strIndication; simp -implicitDefEqProofs
@[simp] theorem strIndication_arrays (s : State) (p : Port) (tgt : BitVec 4) : (strIndication s p tgt).arrays = s.arrays := by unfold strIndication; simp -implicitDefEqProofs
@[simp] theorem strIndication_trust (s : State) (p : Port) (tgt : BitVec 4) : (strIndication s p tgt).trust = s.trust := by unfold strIndication; simp -implicitDefEqProofs
@[simp] theorem strIndication_power (s : State) (p : Port) (tgt : BitVec 4) : (strIndication s p tgt).power = s.power := by unfold strIndication; simp -implicitDefEqProofs
@[simp] theorem enterState_pending (s : State) (n : ModState) : (enterState s n).pending = s.pending := by unfold enterState; simp -implicitDefEqProofs
@[simp] theorem enterState_queues (s : State) (n : ModState) : (enterState s n).queues = s.queues := by unfold enterState; simp -implicitDefEqProofs
@[simp] theorem enterState_sems (s : State) (n : ModState) : (enterState s n).sems = s.sems := by unfold enterState; simp -implicitDefEqProofs
@[simp] theorem enterState_jobs (s : State) (n : ModState) : (enterState s n).jobs = s.jobs := by unfold enterState; simp -implicitDefEqProofs
@[simp] theorem enterState_time (s : State) (n : ModState) : (enterState s n).time = s.time := by unfold enterState; simp -implicitDefEqProofs
@[simp] theorem enterState_arrays (s : State) (n : ModState) : (enterState s n).arrays = s.arrays := by unfold enterState; simp -implicitDefEqProofs
@[simp] theorem enterState_ports (s : State) (n : ModState) : (enterState s n).ports = s.ports := by unfold enterState; simp -implicitDefEqProofs
@[simp] theorem enterState_trust (s : State) (n : ModState) : (enterState s n).trust = s.trust := by unfold enterState; simp -implicitDefEqProofs
@[simp] theorem jobsEnded_pending (s : State) : (jobsEnded s).pending = s.pending := by unfold jobsEnded; simp -implicitDefEqProofs
@[simp] theorem jobsEnded_queues (s : State) : (jobsEnded s).queues = s.queues := by unfold jobsEnded; simp -implicitDefEqProofs
@[simp] theorem jobsEnded_sems (s : State) : (jobsEnded s).sems = s.sems := by unfold jobsEnded; simp -implicitDefEqProofs
@[simp] theorem jobsEnded_jobs (s : State) : (jobsEnded s).jobs = s.jobs := by unfold jobsEnded; simp -implicitDefEqProofs
@[simp] theorem jobsEnded_time (s : State) : (jobsEnded s).time = s.time := by unfold jobsEnded; simp -implicitDefEqProofs
@[simp] theorem jobsEnded_arrays (s : State) : (jobsEnded s).arrays = s.arrays := by unfold jobsEnded; simp -implicitDefEqProofs
@[simp] theorem jobsEnded_ports (s : State) : (jobsEnded s).ports = s.ports := by unfold jobsEnded; simp -implicitDefEqProofs
@[simp] theorem jobsEnded_trust (s : State) : (jobsEnded s).trust = s.trust := by unfold jobsEnded; simp -implicitDefEqProofs
@[simp] theorem abortQueues_pending (s : State) (p : Nat → Queue → Bool) : (abortQueues s p).pending = s.pending := (rfl)
@[simp] theorem abortQueues_mem (s : State) (p : Nat → Queue → Bool) : (abortQueues s p).mem = s.mem := (rfl)
@[simp] theorem abortQueues_sems (s : State) (p : Nat → Queue → Bool) : (abortQueues s p).sems = s.sems := (rfl)
@[simp] theorem abortQueues_jobs (s : State) (p : Nat → Queue → Bool) : (abortQueues s p).jobs = s.jobs := (rfl)
@[simp] theorem abortQueues_time (s : State) (p : Nat → Queue → Bool) : (abortQueues s p).time = s.time := (rfl)
@[simp] theorem abortQueues_arrays (s : State) (p : Nat → Queue → Bool) : (abortQueues s p).arrays = s.arrays := (rfl)
@[simp] theorem abortQueues_ports (s : State) (p : Nat → Queue → Bool) : (abortQueues s p).ports = s.ports := (rfl)
@[simp] theorem abortQueues_trust (s : State) (p : Nat → Queue → Bool) : (abortQueues s p).trust = s.trust := (rfl)
@[simp] theorem abortQueues_power (s : State) (p : Nat → Queue → Bool) : (abortQueues s p).power = s.power := (rfl)
@[simp] theorem drainRed_pending (s : State) (r : Nat) : (drainRed s r).pending = s.pending := by unfold drainRed; (repeat' split) <;> simp
@[simp] theorem drainRed_mem (s : State) (r : Nat) : (drainRed s r).mem = s.mem := by unfold drainRed; (repeat' split) <;> simp
@[simp] theorem drainRed_queues (s : State) (r : Nat) : (drainRed s r).queues = s.queues := by unfold drainRed; (repeat' split) <;> simp
@[simp] theorem drainRed_sems (s : State) (r : Nat) : (drainRed s r).sems = s.sems := by unfold drainRed; (repeat' split) <;> simp
@[simp] theorem drainRed_jobs (s : State) (r : Nat) : (drainRed s r).jobs = s.jobs := by unfold drainRed; (repeat' split) <;> simp
@[simp] theorem drainRed_time (s : State) (r : Nat) : (drainRed s r).time = s.time := by unfold drainRed; (repeat' split) <;> simp
@[simp] theorem drainRed_arrays (s : State) (r : Nat) : (drainRed s r).arrays = s.arrays := by unfold drainRed; (repeat' split) <;> simp
@[simp] theorem drainRed_ports (s : State) (r : Nat) : (drainRed s r).ports = s.ports := by unfold drainRed; (repeat' split) <;> simp
@[simp] theorem drainRed_trust (s : State) (r : Nat) : (drainRed s r).trust = s.trust := by unfold drainRed; (repeat' split) <;> simp
@[simp] theorem drainRed_power (s : State) (r : Nat) : (drainRed s r).power = s.power := by unfold drainRed; (repeat' split) <;> simp
@[simp] theorem beginJobAbort_pending (s : State) (j : Nat) (except : Option Port) : (beginJobAbort s j except).pending = s.pending := by unfold beginJobAbort; (repeat' split) <;> simp
@[simp] theorem beginJobAbort_mem (s : State) (j : Nat) (except : Option Port) : (beginJobAbort s j except).mem = s.mem := by unfold beginJobAbort; (repeat' split) <;> simp
@[simp] theorem beginJobAbort_sems (s : State) (j : Nat) (except : Option Port) : (beginJobAbort s j except).sems = s.sems := by unfold beginJobAbort; (repeat' split) <;> simp
@[simp] theorem beginJobAbort_time (s : State) (j : Nat) (except : Option Port) : (beginJobAbort s j except).time = s.time := by unfold beginJobAbort; (repeat' split) <;> simp
@[simp] theorem beginJobAbort_arrays (s : State) (j : Nat) (except : Option Port) : (beginJobAbort s j except).arrays = s.arrays := by unfold beginJobAbort; (repeat' split) <;> simp
@[simp] theorem beginJobAbort_trust (s : State) (j : Nat) (except : Option Port) : (beginJobAbort s j except).trust = s.trust := by unfold beginJobAbort; (repeat' split) <;> simp
@[simp] theorem beginJobAbort_power (s : State) (j : Nat) (except : Option Port) : (beginJobAbort s j except).power = s.power := by unfold beginJobAbort; (repeat' split) <;> simp
@[simp] theorem enterAbort_pending (s : State) (ofF : Bool) (t : Nat) : (enterAbort s ofF t).pending = s.pending := by unfold enterAbort; simp -implicitDefEqProofs
@[simp] theorem enterAbort_mem (s : State) (ofF : Bool) (t : Nat) : (enterAbort s ofF t).mem = s.mem := by unfold enterAbort; simp -implicitDefEqProofs
@[simp] theorem enterAbort_queues (s : State) (ofF : Bool) (t : Nat) : (enterAbort s ofF t).queues = s.queues := by unfold enterAbort; simp -implicitDefEqProofs
@[simp] theorem enterAbort_sems (s : State) (ofF : Bool) (t : Nat) : (enterAbort s ofF t).sems = s.sems := by unfold enterAbort; simp -implicitDefEqProofs
@[simp] theorem enterAbort_jobs (s : State) (ofF : Bool) (t : Nat) : (enterAbort s ofF t).jobs = s.jobs := by unfold enterAbort; simp -implicitDefEqProofs
@[simp] theorem enterAbort_time (s : State) (ofF : Bool) (t : Nat) : (enterAbort s ofF t).time = s.time := by unfold enterAbort; simp -implicitDefEqProofs
@[simp] theorem enterAbort_arrays (s : State) (ofF : Bool) (t : Nat) : (enterAbort s ofF t).arrays = s.arrays := by unfold enterAbort; simp -implicitDefEqProofs
@[simp] theorem enterAbort_ports (s : State) (ofF : Bool) (t : Nat) : (enterAbort s ofF t).ports = s.ports := by unfold enterAbort; simp -implicitDefEqProofs
@[simp] theorem enterAbort_trust (s : State) (ofF : Bool) (t : Nat) : (enterAbort s ofF t).trust = s.trust := by unfold enterAbort; simp -implicitDefEqProofs
@[simp] theorem enterAbort_power (s : State) (ofF : Bool) (t : Nat) : (enterAbort s ofF t).power = s.power := by unfold enterAbort; simp -implicitDefEqProofs
@[simp] theorem abortJob_pending (s : State) (j : Nat) (except : optParam (Option Port) none) : (abortJob s j except).pending = s.pending := by unfold abortJob; simp -implicitDefEqProofs
@[simp] theorem abortJob_mem (s : State) (j : Nat) (except : optParam (Option Port) none) : (abortJob s j except).mem = s.mem := by unfold abortJob; simp -implicitDefEqProofs
@[simp] theorem abortJob_sems (s : State) (j : Nat) (except : optParam (Option Port) none) : (abortJob s j except).sems = s.sems := by unfold abortJob; simp -implicitDefEqProofs
@[simp] theorem abortJob_time (s : State) (j : Nat) (except : optParam (Option Port) none) : (abortJob s j except).time = s.time := by unfold abortJob; simp -implicitDefEqProofs
@[simp] theorem abortJob_arrays (s : State) (j : Nat) (except : optParam (Option Port) none) : (abortJob s j except).arrays = s.arrays := by unfold abortJob; simp -implicitDefEqProofs
@[simp] theorem abortJob_trust (s : State) (j : Nat) (except : optParam (Option Port) none) : (abortJob s j except).trust = s.trust := by unfold abortJob; simp -implicitDefEqProofs
@[simp] theorem abortJob_power (s : State) (j : Nat) (except : optParam (Option Port) none) : (abortJob s j except).power = s.power := by unfold abortJob; simp -implicitDefEqProofs
@[simp] theorem stopLoad_pending (s : State) (p : LoadWait → Bool) : (stopLoad s p).pending = s.pending := by unfold stopLoad; (repeat' split) <;> simp
@[simp] theorem stopLoad_mem (s : State) (p : LoadWait → Bool) : (stopLoad s p).mem = s.mem := by unfold stopLoad; (repeat' split) <;> simp
@[simp] theorem stopLoad_poison (s : State) (p : LoadWait → Bool) : (stopLoad s p).poison = s.poison := by unfold stopLoad; (repeat' split) <;> simp
@[simp] theorem stopLoad_queues (s : State) (p : LoadWait → Bool) : (stopLoad s p).queues = s.queues := by unfold stopLoad; (repeat' split) <;> simp
@[simp] theorem stopLoad_sems (s : State) (p : LoadWait → Bool) : (stopLoad s p).sems = s.sems := by unfold stopLoad; (repeat' split) <;> simp
@[simp] theorem stopLoad_jobs (s : State) (p : LoadWait → Bool) : (stopLoad s p).jobs = s.jobs := by unfold stopLoad; (repeat' split) <;> simp
@[simp] theorem stopLoad_time (s : State) (p : LoadWait → Bool) : (stopLoad s p).time = s.time := by unfold stopLoad; (repeat' split) <;> simp
@[simp] theorem stopLoad_arrays (s : State) (p : LoadWait → Bool) : (stopLoad s p).arrays = s.arrays := by unfold stopLoad; (repeat' split) <;> simp
@[simp] theorem stopLoad_ports (s : State) (p : LoadWait → Bool) : (stopLoad s p).ports = s.ports := by unfold stopLoad; (repeat' split) <;> simp
@[simp] theorem stopLoad_masks (s : State) (p : LoadWait → Bool) : (stopLoad s p).masks = s.masks := by unfold stopLoad; (repeat' split) <;> simp
@[simp] theorem stopLoad_trust (s : State) (p : LoadWait → Bool) : (stopLoad s p).trust = s.trust := by unfold stopLoad; (repeat' split) <;> simp
@[simp] theorem stopLoad_power (s : State) (p : LoadWait → Bool) : (stopLoad s p).power = s.power := by unfold stopLoad; (repeat' split) <;> simp
@[simp] theorem stopLoad_ctxs (s : State) (p : LoadWait → Bool) : (stopLoad s p).ctxs = s.ctxs := by unfold stopLoad; (repeat' split) <;> simp
@[simp] theorem stopLoad_funcs (s : State) (p : LoadWait → Bool) : (stopLoad s p).funcs = s.funcs := by unfold stopLoad; (repeat' split) <;> simp
@[simp] theorem stopLoad_assign (s : State) (p : LoadWait → Bool) : (stopLoad s p).assign = s.assign := by unfold stopLoad; (repeat' split) <;> simp
@[simp] theorem noteRequests_pending (s : State) (p : Port) (k : Nat) : (noteRequests s p k).pending = s.pending := by unfold noteRequests; simp -implicitDefEqProofs
@[simp] theorem noteRequests_mem (s : State) (p : Port) (k : Nat) : (noteRequests s p k).mem = s.mem := by unfold noteRequests; simp -implicitDefEqProofs
@[simp] theorem noteRequests_poison (s : State) (p : Port) (k : Nat) : (noteRequests s p k).poison = s.poison := by unfold noteRequests; simp -implicitDefEqProofs
@[simp] theorem noteRequests_queues (s : State) (p : Port) (k : Nat) : (noteRequests s p k).queues = s.queues := by unfold noteRequests; simp -implicitDefEqProofs
@[simp] theorem noteRequests_sems (s : State) (p : Port) (k : Nat) : (noteRequests s p k).sems = s.sems := by unfold noteRequests; simp -implicitDefEqProofs
@[simp] theorem noteRequests_jobs (s : State) (p : Port) (k : Nat) : (noteRequests s p k).jobs = s.jobs := by unfold noteRequests; simp -implicitDefEqProofs
@[simp] theorem noteRequests_time (s : State) (p : Port) (k : Nat) : (noteRequests s p k).time = s.time := by unfold noteRequests; simp -implicitDefEqProofs
@[simp] theorem noteRequests_arrays (s : State) (p : Port) (k : Nat) : (noteRequests s p k).arrays = s.arrays := by unfold noteRequests; simp -implicitDefEqProofs
@[simp] theorem noteRequests_ports (s : State) (p : Port) (k : Nat) : (noteRequests s p k).ports = s.ports := by unfold noteRequests; simp -implicitDefEqProofs
@[simp] theorem noteRequests_masks (s : State) (p : Port) (k : Nat) : (noteRequests s p k).masks = s.masks := by unfold noteRequests; simp -implicitDefEqProofs
@[simp] theorem noteRequests_trust (s : State) (p : Port) (k : Nat) : (noteRequests s p k).trust = s.trust := by unfold noteRequests; simp -implicitDefEqProofs
@[simp] theorem noteRequests_power (s : State) (p : Port) (k : Nat) : (noteRequests s p k).power = s.power := by unfold noteRequests; simp -implicitDefEqProofs
@[simp] theorem noteRequests_funcs (s : State) (p : Port) (k : Nat) : (noteRequests s p k).funcs = s.funcs := by unfold noteRequests; simp -implicitDefEqProofs
@[simp] theorem noteRequests_assign (s : State) (p : Port) (k : Nat) : (noteRequests s p k).assign = s.assign := by unfold noteRequests; simp -implicitDefEqProofs
@[simp] theorem noteRequests_paths (s : State) (p : Port) (k : Nat) : (noteRequests s p k).paths = s.paths := by unfold noteRequests; simp -implicitDefEqProofs
@[simp] theorem abortFunction_pending (s : State) (f : Nat) : (abortFunction s f).pending = s.pending := by unfold abortFunction; simp -implicitDefEqProofs
@[simp] theorem abortFunction_mem (s : State) (f : Nat) : (abortFunction s f).mem = s.mem := by unfold abortFunction; simp -implicitDefEqProofs
@[simp] theorem abortFunction_time (s : State) (f : Nat) : (abortFunction s f).time = s.time := by unfold abortFunction; simp -implicitDefEqProofs
@[simp] theorem abortFunction_arrays (s : State) (f : Nat) : (abortFunction s f).arrays = s.arrays := by unfold abortFunction; simp -implicitDefEqProofs
@[simp] theorem abortFunction_trust (s : State) (f : Nat) : (abortFunction s f).trust = s.trust := by unfold abortFunction; simp -implicitDefEqProofs
@[simp] theorem abortFunction_power (s : State) (f : Nat) : (abortFunction s f).power = s.power := by unfold abortFunction; simp -implicitDefEqProofs
@[simp] theorem abandonHost_pending (s : State) (f : Nat) (events : Bool) : (abandonHost s f events).pending = s.pending := by unfold abandonHost; simp -implicitDefEqProofs
@[simp] theorem abandonHost_mem (s : State) (f : Nat) (events : Bool) : (abandonHost s f events).mem = s.mem := by unfold abandonHost; simp -implicitDefEqProofs
@[simp] theorem abandonHost_queues (s : State) (f : Nat) (events : Bool) : (abandonHost s f events).queues = s.queues := by unfold abandonHost; simp -implicitDefEqProofs
@[simp] theorem abandonHost_sems (s : State) (f : Nat) (events : Bool) : (abandonHost s f events).sems = s.sems := by unfold abandonHost; simp -implicitDefEqProofs
@[simp] theorem abandonHost_jobs (s : State) (f : Nat) (events : Bool) : (abandonHost s f events).jobs = s.jobs := by unfold abandonHost; simp -implicitDefEqProofs
@[simp] theorem abandonHost_time (s : State) (f : Nat) (events : Bool) : (abandonHost s f events).time = s.time := by unfold abandonHost; simp -implicitDefEqProofs
@[simp] theorem abandonHost_arrays (s : State) (f : Nat) (events : Bool) : (abandonHost s f events).arrays = s.arrays := by unfold abandonHost; simp -implicitDefEqProofs
@[simp] theorem abandonHost_ports (s : State) (f : Nat) (events : Bool) : (abandonHost s f events).ports = s.ports := by unfold abandonHost; simp -implicitDefEqProofs
@[simp] theorem abandonHost_trust (s : State) (f : Nat) (events : Bool) : (abandonHost s f events).trust = s.trust := by unfold abandonHost; simp -implicitDefEqProofs
@[simp] theorem abandonHost_power (s : State) (f : Nat) (events : Bool) : (abandonHost s f events).power = s.power := by unfold abandonHost; simp -implicitDefEqProofs
@[simp] theorem blurSpan_pending (f : Nat) (job : Nat) (s : State) (sp : Span) : (blurSpan f job s sp).pending = s.pending := by unfold blurSpan; (try simp only []); (repeat' split) <;> (try rename_i h) <;> (first | (simp; done) | (simp [vWrite_ok_pending h]; done) | (simp [vWrite_ok_pending h]; split <;> simp) | (simp [vRead_ok_pending h]; done) | (simp; split <;> simp) | simp_all)
@[simp] theorem blurSpan_queues (f : Nat) (job : Nat) (s : State) (sp : Span) : (blurSpan f job s sp).queues = s.queues := by unfold blurSpan; (try simp only []); (repeat' split) <;> (try rename_i h) <;> (first | (simp; done) | (simp [vWrite_ok_queues h]; done) | (simp [vWrite_ok_queues h]; split <;> simp) | (simp [vRead_ok_queues h]; done) | (simp; split <;> simp) | simp_all)
@[simp] theorem blurSpan_sems (f : Nat) (job : Nat) (s : State) (sp : Span) : (blurSpan f job s sp).sems = s.sems := by unfold blurSpan; (try simp only []); (repeat' split) <;> (try rename_i h) <;> (first | (simp; done) | (simp [vWrite_ok_sems h]; done) | (simp [vWrite_ok_sems h]; split <;> simp) | (simp [vRead_ok_sems h]; done) | (simp; split <;> simp) | simp_all)
@[simp] theorem blurSpan_jobs (f : Nat) (job : Nat) (s : State) (sp : Span) : (blurSpan f job s sp).jobs = s.jobs := by unfold blurSpan; (try simp only []); (repeat' split) <;> (try rename_i h) <;> (first | (simp; done) | (simp [vWrite_ok_jobs h]; done) | (simp [vWrite_ok_jobs h]; split <;> simp) | (simp [vRead_ok_jobs h]; done) | (simp; split <;> simp) | simp_all)
@[simp] theorem blurSpan_time (f : Nat) (job : Nat) (s : State) (sp : Span) : (blurSpan f job s sp).time = s.time := by unfold blurSpan; (try simp only []); (repeat' split) <;> (try rename_i h) <;> (first | (simp; done) | (simp [vWrite_ok_time h]; done) | (simp [vWrite_ok_time h]; split <;> simp) | (simp [vRead_ok_time h]; done) | (simp; split <;> simp) | simp_all)
@[simp] theorem blurSpan_arrays (f : Nat) (job : Nat) (s : State) (sp : Span) : (blurSpan f job s sp).arrays = s.arrays := by unfold blurSpan; (try simp only []); (repeat' split) <;> (try rename_i h) <;> (first | (simp; done) | (simp [vWrite_ok_arrays h]; done) | (simp [vWrite_ok_arrays h]; split <;> simp) | (simp [vRead_ok_arrays h]; done) | (simp; split <;> simp) | simp_all)
@[simp] theorem blurSpan_ports (f : Nat) (job : Nat) (s : State) (sp : Span) : (blurSpan f job s sp).ports = s.ports := by unfold blurSpan; (try simp only []); (repeat' split) <;> (try rename_i h) <;> (first | (simp; done) | (simp [vWrite_ok_ports h]; done) | (simp [vWrite_ok_ports h]; split <;> simp) | (simp [vRead_ok_ports h]; done) | (simp; split <;> simp) | simp_all)
@[simp] theorem blurSpan_trust (f : Nat) (job : Nat) (s : State) (sp : Span) : (blurSpan f job s sp).trust = s.trust := by unfold blurSpan; (try simp only []); (repeat' split) <;> (try rename_i h) <;> (first | (simp; done) | (simp [vWrite_ok_trust h]; done) | (simp [vWrite_ok_trust h]; split <;> simp) | (simp [vRead_ok_trust h]; done) | (simp; split <;> simp) | simp_all)
@[simp] theorem blurSpan_power (f : Nat) (job : Nat) (s : State) (sp : Span) : (blurSpan f job s sp).power = s.power := by unfold blurSpan; (try simp only []); (repeat' split) <;> (try rename_i h) <;> (first | (simp; done) | (simp [vWrite_ok_power h]; done) | (simp [vWrite_ok_power h]; split <;> simp) | (simp [vRead_ok_power h]; done) | (simp; split <;> simp) | simp_all)
@[simp] theorem abortedDma_pending (s : State) (w : Started) : (abortedDma s w).1.pending = s.pending := by unfold abortedDma; (try simp only []); (repeat' split) <;> (try rename_i h) <;> (first | (simp; done) | (simp [vWrite_ok_pending h]; done) | (simp [vWrite_ok_pending h]; split <;> simp) | (simp [vRead_ok_pending h]; done) | (simp; split <;> simp) | simp_all)
@[simp] theorem abortedDma_mem (s : State) (w : Started) : (abortedDma s w).1.mem = s.mem := by unfold abortedDma; (try simp only []); (repeat' split) <;> (try rename_i h) <;> (first | (simp; done) | (simp [vWrite_ok_mem h]; done) | (simp [vWrite_ok_mem h]; split <;> simp) | (simp [vRead_ok_mem h]; done) | (simp; split <;> simp) | simp_all)
@[simp] theorem abortedDma_queues (s : State) (w : Started) : (abortedDma s w).1.queues = s.queues := by unfold abortedDma; (try simp only []); (repeat' split) <;> (try rename_i h) <;> (first | (simp; done) | (simp [vWrite_ok_queues h]; done) | (simp [vWrite_ok_queues h]; split <;> simp) | (simp [vRead_ok_queues h]; done) | (simp; split <;> simp) | simp_all)
@[simp] theorem abortedDma_sems (s : State) (w : Started) : (abortedDma s w).1.sems = s.sems := by unfold abortedDma; (try simp only []); (repeat' split) <;> (try rename_i h) <;> (first | (simp; done) | (simp [vWrite_ok_sems h]; done) | (simp [vWrite_ok_sems h]; split <;> simp) | (simp [vRead_ok_sems h]; done) | (simp; split <;> simp) | simp_all)
@[simp] theorem abortedDma_jobs (s : State) (w : Started) : (abortedDma s w).1.jobs = s.jobs := by unfold abortedDma; (try simp only []); (repeat' split) <;> (try rename_i h) <;> (first | (simp; done) | (simp [vWrite_ok_jobs h]; done) | (simp [vWrite_ok_jobs h]; split <;> simp) | (simp [vRead_ok_jobs h]; done) | (simp; split <;> simp) | simp_all)
@[simp] theorem abortedDma_time (s : State) (w : Started) : (abortedDma s w).1.time = s.time := by unfold abortedDma; (try simp only []); (repeat' split) <;> (try rename_i h) <;> (first | (simp; done) | (simp [vWrite_ok_time h]; done) | (simp [vWrite_ok_time h]; split <;> simp) | (simp [vRead_ok_time h]; done) | (simp; split <;> simp) | simp_all)
@[simp] theorem abortedDma_arrays (s : State) (w : Started) : (abortedDma s w).1.arrays = s.arrays := by unfold abortedDma; (try simp only []); (repeat' split) <;> (try rename_i h) <;> (first | (simp; done) | (simp [vWrite_ok_arrays h]; done) | (simp [vWrite_ok_arrays h]; split <;> simp) | (simp [vRead_ok_arrays h]; done) | (simp; split <;> simp) | simp_all)
@[simp] theorem abortedDma_ports (s : State) (w : Started) : (abortedDma s w).1.ports = s.ports := by unfold abortedDma; (try simp only []); (repeat' split) <;> (try rename_i h) <;> (first | (simp; done) | (simp [vWrite_ok_ports h]; done) | (simp [vWrite_ok_ports h]; split <;> simp) | (simp [vRead_ok_ports h]; done) | (simp; split <;> simp) | simp_all)
@[simp] theorem abortedDma_trust (s : State) (w : Started) : (abortedDma s w).1.trust = s.trust := by unfold abortedDma; (try simp only []); (repeat' split) <;> (try rename_i h) <;> (first | (simp; done) | (simp [vWrite_ok_trust h]; done) | (simp [vWrite_ok_trust h]; split <;> simp) | (simp [vRead_ok_trust h]; done) | (simp; split <;> simp) | simp_all)
@[simp] theorem abortedDma_power (s : State) (w : Started) : (abortedDma s w).1.power = s.power := by unfold abortedDma; (try simp only []); (repeat' split) <;> (try rename_i h) <;> (first | (simp; done) | (simp [vWrite_ok_power h]; done) | (simp [vWrite_ok_power h]; split <;> simp) | (simp [vRead_ok_power h]; done) | (simp; split <;> simp) | simp_all)
@[simp] theorem recordAborted_pending (s : State) (q : QNum) (w : Started) : (recordAborted s q w).pending = s.pending := by unfold recordAborted; (try simp only []); (repeat' split) <;> (try rename_i h) <;> (first | (simp; done) | (simp [vWrite_ok_pending h]; done) | (simp [vWrite_ok_pending h]; split <;> simp) | (simp [vRead_ok_pending h]; done) | (simp; split <;> simp) | simp_all)
@[simp] theorem recordAborted_sems (s : State) (q : QNum) (w : Started) : (recordAborted s q w).sems = s.sems := by unfold recordAborted; (try simp only []); (repeat' split) <;> (try rename_i h) <;> (first | (simp; done) | (simp [vWrite_ok_sems h]; done) | (simp [vWrite_ok_sems h]; split <;> simp) | (simp [vRead_ok_sems h]; done) | (simp; split <;> simp) | simp_all)
@[simp] theorem recordAborted_time (s : State) (q : QNum) (w : Started) : (recordAborted s q w).time = s.time := by unfold recordAborted; (try simp only []); (repeat' split) <;> (try rename_i h) <;> (first | (simp; done) | (simp [vWrite_ok_time h]; done) | (simp [vWrite_ok_time h]; split <;> simp) | (simp [vRead_ok_time h]; done) | (simp; split <;> simp) | simp_all)
@[simp] theorem recordAborted_ports (s : State) (q : QNum) (w : Started) : (recordAborted s q w).ports = s.ports := by unfold recordAborted; (try simp only []); (repeat' split) <;> (try rename_i h) <;> (first | (simp; done) | (simp [vWrite_ok_ports h]; done) | (simp [vWrite_ok_ports h]; split <;> simp) | (simp [vRead_ok_ports h]; done) | (simp; split <;> simp) | simp_all)
@[simp] theorem recordAborted_trust (s : State) (q : QNum) (w : Started) : (recordAborted s q w).trust = s.trust := by unfold recordAborted; (try simp only []); (repeat' split) <;> (try rename_i h) <;> (first | (simp; done) | (simp [vWrite_ok_trust h]; done) | (simp [vWrite_ok_trust h]; split <;> simp) | (simp [vRead_ok_trust h]; done) | (simp; split <;> simp) | simp_all)
@[simp] theorem recordAborted_power (s : State) (q : QNum) (w : Started) : (recordAborted s q w).power = s.power := by unfold recordAborted; (try simp only []); (repeat' split) <;> (try rename_i h) <;> (first | (simp; done) | (simp [vWrite_ok_power h]; done) | (simp [vWrite_ok_power h]; split <;> simp) | (simp [vRead_ok_power h]; done) | (simp; split <;> simp) | simp_all)
@[simp] theorem endAborted_pending (s : State) (q : QNum) : (endAborted s q).pending = s.pending := by unfold endAborted; simp -implicitDefEqProofs
@[simp] theorem endAborted_sems (s : State) (q : QNum) : (endAborted s q).sems = s.sems := by unfold endAborted; simp -implicitDefEqProofs
@[simp] theorem endAborted_time (s : State) (q : QNum) : (endAborted s q).time = s.time := by unfold endAborted; simp -implicitDefEqProofs
@[simp] theorem endAborted_ports (s : State) (q : QNum) : (endAborted s q).ports = s.ports := by unfold endAborted; simp -implicitDefEqProofs
@[simp] theorem endAborted_trust (s : State) (q : QNum) : (endAborted s q).trust = s.trust := by unfold endAborted; simp -implicitDefEqProofs
@[simp] theorem endAborted_power (s : State) (q : QNum) : (endAborted s q).power = s.power := by unfold endAborted; simp -implicitDefEqProofs
@[simp] theorem freeTile_pending (s : State) (a : Nat) : (freeTile s a).pending = s.pending := by unfold freeTile; simp -implicitDefEqProofs
@[simp] theorem freeTile_mem (s : State) (a : Nat) : (freeTile s a).mem = s.mem := by unfold freeTile; simp -implicitDefEqProofs
@[simp] theorem freeTile_queues (s : State) (a : Nat) : (freeTile s a).queues = s.queues := by unfold freeTile; simp -implicitDefEqProofs
@[simp] theorem freeTile_sems (s : State) (a : Nat) : (freeTile s a).sems = s.sems := by unfold freeTile; simp -implicitDefEqProofs
@[simp] theorem freeTile_time (s : State) (a : Nat) : (freeTile s a).time = s.time := by unfold freeTile; simp -implicitDefEqProofs
@[simp] theorem freeTile_ports (s : State) (a : Nat) : (freeTile s a).ports = s.ports := by unfold freeTile; simp -implicitDefEqProofs
@[simp] theorem freeTile_trust (s : State) (a : Nat) : (freeTile s a).trust = s.trust := by unfold freeTile; simp -implicitDefEqProofs
@[simp] theorem freeTile_power (s : State) (a : Nat) : (freeTile s a).power = s.power := by unfold freeTile; simp -implicitDefEqProofs
@[simp] theorem abortDone_pending (s : State) (ofF : Bool) (t : Nat) (f : Nat) (us : Nat) : (abortDone s ofF t f us).pending = s.pending := by unfold abortDone; simp -implicitDefEqProofs
@[simp] theorem abortDone_queues (s : State) (ofF : Bool) (t : Nat) (f : Nat) (us : Nat) : (abortDone s ofF t f us).queues = s.queues := by unfold abortDone; simp -implicitDefEqProofs
@[simp] theorem abortDone_sems (s : State) (ofF : Bool) (t : Nat) (f : Nat) (us : Nat) : (abortDone s ofF t f us).sems = s.sems := by unfold abortDone; simp -implicitDefEqProofs
@[simp] theorem abortDone_jobs (s : State) (ofF : Bool) (t : Nat) (f : Nat) (us : Nat) : (abortDone s ofF t f us).jobs = s.jobs := by unfold abortDone; simp -implicitDefEqProofs
@[simp] theorem abortDone_time (s : State) (ofF : Bool) (t : Nat) (f : Nat) (us : Nat) : (abortDone s ofF t f us).time = s.time := by unfold abortDone; simp -implicitDefEqProofs
@[simp] theorem abortDone_arrays (s : State) (ofF : Bool) (t : Nat) (f : Nat) (us : Nat) : (abortDone s ofF t f us).arrays = s.arrays := by unfold abortDone; simp -implicitDefEqProofs
@[simp] theorem abortDone_ports (s : State) (ofF : Bool) (t : Nat) (f : Nat) (us : Nat) : (abortDone s ofF t f us).ports = s.ports := by unfold abortDone; simp -implicitDefEqProofs
@[simp] theorem abortDone_trust (s : State) (ofF : Bool) (t : Nat) (f : Nat) (us : Nat) : (abortDone s ofF t f us).trust = s.trust := by unfold abortDone; simp -implicitDefEqProofs
@[simp] theorem abortDone_power (s : State) (ofF : Bool) (t : Nat) (f : Nat) (us : Nat) : (abortDone s ofF t f us).power = s.power := by unfold abortDone; simp -implicitDefEqProofs
@[simp] theorem abtIndication_pending (s : State) (p : Port) (r : BitVec 10) : (abtIndication s p r).pending = s.pending := by unfold abtIndication; (try simp only []); (repeat' split) <;> (try rename_i h) <;> (first | (simp; done) | (simp [vWrite_ok_pending h]; done) | (simp [vWrite_ok_pending h]; split <;> simp) | (simp [vRead_ok_pending h]; done) | (simp; split <;> simp) | simp_all)
@[simp] theorem abtIndication_sems (s : State) (p : Port) (r : BitVec 10) : (abtIndication s p r).sems = s.sems := by unfold abtIndication; (try simp only []); (repeat' split) <;> (try rename_i h) <;> (first | (simp; done) | (simp [vWrite_ok_sems h]; done) | (simp [vWrite_ok_sems h]; split <;> simp) | (simp [vRead_ok_sems h]; done) | (simp; split <;> simp) | simp_all)
@[simp] theorem abtIndication_time (s : State) (p : Port) (r : BitVec 10) : (abtIndication s p r).time = s.time := by unfold abtIndication; (try simp only []); (repeat' split) <;> (try rename_i h) <;> (first | (simp; done) | (simp [vWrite_ok_time h]; done) | (simp [vWrite_ok_time h]; split <;> simp) | (simp [vRead_ok_time h]; done) | (simp; split <;> simp) | simp_all)
@[simp] theorem abtIndication_arrays (s : State) (p : Port) (r : BitVec 10) : (abtIndication s p r).arrays = s.arrays := by unfold abtIndication; (try simp only []); (repeat' split) <;> (try rename_i h) <;> (first | (simp; done) | (simp [vWrite_ok_arrays h]; done) | (simp [vWrite_ok_arrays h]; split <;> simp) | (simp [vRead_ok_arrays h]; done) | (simp; split <;> simp) | simp_all)
@[simp] theorem abtIndication_trust (s : State) (p : Port) (r : BitVec 10) : (abtIndication s p r).trust = s.trust := by unfold abtIndication; (try simp only []); (repeat' split) <;> (try rename_i h) <;> (first | (simp; done) | (simp [vWrite_ok_trust h]; done) | (simp [vWrite_ok_trust h]; split <;> simp) | (simp [vRead_ok_trust h]; done) | (simp; split <;> simp) | simp_all)
@[simp] theorem abtIndication_power (s : State) (p : Port) (r : BitVec 10) : (abtIndication s p r).power = s.power := by unfold abtIndication; (try simp only []); (repeat' split) <;> (try rename_i h) <;> (first | (simp; done) | (simp [vWrite_ok_power h]; done) | (simp [vWrite_ok_power h]; split <;> simp) | (simp [vRead_ok_power h]; done) | (simp; split <;> simp) | simp_all)
@[simp] theorem startReplay_pending (s : State) (p : Port) (from_ : BitVec 16) : (startReplay s p from_).pending = s.pending := by unfold startReplay; simp -implicitDefEqProofs
@[simp] theorem startReplay_queues (s : State) (p : Port) (from_ : BitVec 16) : (startReplay s p from_).queues = s.queues := by unfold startReplay; simp -implicitDefEqProofs
@[simp] theorem startReplay_sems (s : State) (p : Port) (from_ : BitVec 16) : (startReplay s p from_).sems = s.sems := by unfold startReplay; simp -implicitDefEqProofs
@[simp] theorem startReplay_jobs (s : State) (p : Port) (from_ : BitVec 16) : (startReplay s p from_).jobs = s.jobs := by unfold startReplay; simp -implicitDefEqProofs
@[simp] theorem startReplay_time (s : State) (p : Port) (from_ : BitVec 16) : (startReplay s p from_).time = s.time := by unfold startReplay; simp -implicitDefEqProofs
@[simp] theorem startReplay_arrays (s : State) (p : Port) (from_ : BitVec 16) : (startReplay s p from_).arrays = s.arrays := by unfold startReplay; simp -implicitDefEqProofs
@[simp] theorem startReplay_trust (s : State) (p : Port) (from_ : BitVec 16) : (startReplay s p from_).trust = s.trust := by unfold startReplay; simp -implicitDefEqProofs
@[simp] theorem startReplay_power (s : State) (p : Port) (from_ : BitVec 16) : (startReplay s p from_).power = s.power := by unfold startReplay; simp -implicitDefEqProofs
@[simp] theorem takeAck_pending (s : State) (p : Port) (ack : BitVec 16) (nak : Bool) : (takeAck s p ack nak).pending = s.pending := by unfold takeAck; simp -implicitDefEqProofs
@[simp] theorem takeAck_queues (s : State) (p : Port) (ack : BitVec 16) (nak : Bool) : (takeAck s p ack nak).queues = s.queues := by unfold takeAck; simp -implicitDefEqProofs
@[simp] theorem takeAck_sems (s : State) (p : Port) (ack : BitVec 16) (nak : Bool) : (takeAck s p ack nak).sems = s.sems := by unfold takeAck; simp -implicitDefEqProofs
@[simp] theorem takeAck_jobs (s : State) (p : Port) (ack : BitVec 16) (nak : Bool) : (takeAck s p ack nak).jobs = s.jobs := by unfold takeAck; simp -implicitDefEqProofs
@[simp] theorem takeAck_time (s : State) (p : Port) (ack : BitVec 16) (nak : Bool) : (takeAck s p ack nak).time = s.time := by unfold takeAck; simp -implicitDefEqProofs
@[simp] theorem takeAck_arrays (s : State) (p : Port) (ack : BitVec 16) (nak : Bool) : (takeAck s p ack nak).arrays = s.arrays := by unfold takeAck; simp -implicitDefEqProofs
@[simp] theorem takeAck_trust (s : State) (p : Port) (ack : BitVec 16) (nak : Bool) : (takeAck s p ack nak).trust = s.trust := by unfold takeAck; simp -implicitDefEqProofs
@[simp] theorem takeAck_power (s : State) (p : Port) (ack : BitVec 16) (nak : Bool) : (takeAck s p ack nak).power = s.power := by unfold takeAck; simp -implicitDefEqProofs
@[simp] theorem takeFrom_pending (s : State) (q : Nat) (n : Nat) : (takeFrom s q n).1.pending = s.pending := (rfl)
@[simp] theorem takeFrom_mem (s : State) (q : Nat) (n : Nat) : (takeFrom s q n).1.mem = s.mem := (rfl)
@[simp] theorem takeFrom_queues (s : State) (q : Nat) (n : Nat) : (takeFrom s q n).1.queues = s.queues := (rfl)
@[simp] theorem takeFrom_sems (s : State) (q : Nat) (n : Nat) : (takeFrom s q n).1.sems = s.sems := (rfl)
@[simp] theorem takeFrom_jobs (s : State) (q : Nat) (n : Nat) : (takeFrom s q n).1.jobs = s.jobs := (rfl)
@[simp] theorem takeFrom_time (s : State) (q : Nat) (n : Nat) : (takeFrom s q n).1.time = s.time := (rfl)
@[simp] theorem takeFrom_arrays (s : State) (q : Nat) (n : Nat) : (takeFrom s q n).1.arrays = s.arrays := (rfl)
@[simp] theorem takeFrom_ports (s : State) (q : Nat) (n : Nat) : (takeFrom s q n).1.ports = s.ports := (rfl)
@[simp] theorem takeFrom_trust (s : State) (q : Nat) (n : Nat) : (takeFrom s q n).1.trust = s.trust := (rfl)
@[simp] theorem takeFrom_power (s : State) (q : Nat) (n : Nat) : (takeFrom s q n).1.power = s.power := (rfl)
@[simp] theorem deliver_pending (s : State) (p : Port) (m : Msg) : (deliver s p m).pending = s.pending := by unfold deliver; (repeat' split) <;> simp
@[simp] theorem deliver_mem (s : State) (p : Port) (m : Msg) : (deliver s p m).mem = s.mem := by unfold deliver; (repeat' split) <;> simp
@[simp] theorem deliver_queues (s : State) (p : Port) (m : Msg) : (deliver s p m).queues = s.queues := by unfold deliver; (repeat' split) <;> simp
@[simp] theorem deliver_sems (s : State) (p : Port) (m : Msg) : (deliver s p m).sems = s.sems := by unfold deliver; (repeat' split) <;> simp
@[simp] theorem deliver_jobs (s : State) (p : Port) (m : Msg) : (deliver s p m).jobs = s.jobs := by unfold deliver; (repeat' split) <;> simp
@[simp] theorem deliver_time (s : State) (p : Port) (m : Msg) : (deliver s p m).time = s.time := by unfold deliver; (repeat' split) <;> simp
@[simp] theorem deliver_arrays (s : State) (p : Port) (m : Msg) : (deliver s p m).arrays = s.arrays := by unfold deliver; (repeat' split) <;> simp
@[simp] theorem deliver_trust (s : State) (p : Port) (m : Msg) : (deliver s p m).trust = s.trust := by unfold deliver; (repeat' split) <;> simp
@[simp] theorem deliver_power (s : State) (p : Port) (m : Msg) : (deliver s p m).power = s.power := by unfold deliver; (repeat' split) <;> simp
@[simp] theorem acceptFlit_pending (s : State) (p : Port) (f : Flit) (isHead : Bool) : (acceptFlit s p f isHead).pending = s.pending := by unfold acceptFlit; (try simp only []); (repeat' split) <;> (try rename_i h) <;> (first | (simp; done) | (simp [vWrite_ok_pending h]; done) | (simp [vWrite_ok_pending h]; split <;> simp) | (simp [vRead_ok_pending h]; done) | (simp; split <;> simp) | simp_all)
@[simp] theorem acceptFlit_mem (s : State) (p : Port) (f : Flit) (isHead : Bool) : (acceptFlit s p f isHead).mem = s.mem := by unfold acceptFlit; (try simp only []); (repeat' split) <;> (try rename_i h) <;> (first | (simp; done) | (simp [vWrite_ok_mem h]; done) | (simp [vWrite_ok_mem h]; split <;> simp) | (simp [vRead_ok_mem h]; done) | (simp; split <;> simp) | simp_all)
@[simp] theorem acceptFlit_queues (s : State) (p : Port) (f : Flit) (isHead : Bool) : (acceptFlit s p f isHead).queues = s.queues := by unfold acceptFlit; (try simp only []); (repeat' split) <;> (try rename_i h) <;> (first | (simp; done) | (simp [vWrite_ok_queues h]; done) | (simp [vWrite_ok_queues h]; split <;> simp) | (simp [vRead_ok_queues h]; done) | (simp; split <;> simp) | simp_all)
@[simp] theorem acceptFlit_sems (s : State) (p : Port) (f : Flit) (isHead : Bool) : (acceptFlit s p f isHead).sems = s.sems := by unfold acceptFlit; (try simp only []); (repeat' split) <;> (try rename_i h) <;> (first | (simp; done) | (simp [vWrite_ok_sems h]; done) | (simp [vWrite_ok_sems h]; split <;> simp) | (simp [vRead_ok_sems h]; done) | (simp; split <;> simp) | simp_all)
@[simp] theorem acceptFlit_jobs (s : State) (p : Port) (f : Flit) (isHead : Bool) : (acceptFlit s p f isHead).jobs = s.jobs := by unfold acceptFlit; (try simp only []); (repeat' split) <;> (try rename_i h) <;> (first | (simp; done) | (simp [vWrite_ok_jobs h]; done) | (simp [vWrite_ok_jobs h]; split <;> simp) | (simp [vRead_ok_jobs h]; done) | (simp; split <;> simp) | simp_all)
@[simp] theorem acceptFlit_time (s : State) (p : Port) (f : Flit) (isHead : Bool) : (acceptFlit s p f isHead).time = s.time := by unfold acceptFlit; (try simp only []); (repeat' split) <;> (try rename_i h) <;> (first | (simp; done) | (simp [vWrite_ok_time h]; done) | (simp [vWrite_ok_time h]; split <;> simp) | (simp [vRead_ok_time h]; done) | (simp; split <;> simp) | simp_all)
@[simp] theorem acceptFlit_arrays (s : State) (p : Port) (f : Flit) (isHead : Bool) : (acceptFlit s p f isHead).arrays = s.arrays := by unfold acceptFlit; (try simp only []); (repeat' split) <;> (try rename_i h) <;> (first | (simp; done) | (simp [vWrite_ok_arrays h]; done) | (simp [vWrite_ok_arrays h]; split <;> simp) | (simp [vRead_ok_arrays h]; done) | (simp; split <;> simp) | simp_all)
@[simp] theorem acceptFlit_trust (s : State) (p : Port) (f : Flit) (isHead : Bool) : (acceptFlit s p f isHead).trust = s.trust := by unfold acceptFlit; (try simp only []); (repeat' split) <;> (try rename_i h) <;> (first | (simp; done) | (simp [vWrite_ok_trust h]; done) | (simp [vWrite_ok_trust h]; split <;> simp) | (simp [vRead_ok_trust h]; done) | (simp; split <;> simp) | simp_all)
@[simp] theorem acceptFlit_power (s : State) (p : Port) (f : Flit) (isHead : Bool) : (acceptFlit s p f isHead).power = s.power := by unfold acceptFlit; (try simp only []); (repeat' split) <;> (try rename_i h) <;> (first | (simp; done) | (simp [vWrite_ok_power h]; done) | (simp [vWrite_ok_power h]; split <;> simp) | (simp [vRead_ok_power h]; done) | (simp; split <;> simp) | simp_all)
@[simp] theorem takeFlits_pending (p : Port) (seq : BitVec 16) (heads : Nat) (x3 : List (Nat × Flit × Bool)) (x4 : State) : (takeFlits p seq heads x3 x4).pending = x4.pending := by fun_induction takeFlits <;> simp_all
@[simp] theorem takeFlits_mem (p : Port) (seq : BitVec 16) (heads : Nat) (x3 : List (Nat × Flit × Bool)) (x4 : State) : (takeFlits p seq heads x3 x4).mem = x4.mem := by fun_induction takeFlits <;> simp_all
@[simp] theorem takeFlits_queues (p : Port) (seq : BitVec 16) (heads : Nat) (x3 : List (Nat × Flit × Bool)) (x4 : State) : (takeFlits p seq heads x3 x4).queues = x4.queues := by fun_induction takeFlits <;> simp_all
@[simp] theorem takeFlits_sems (p : Port) (seq : BitVec 16) (heads : Nat) (x3 : List (Nat × Flit × Bool)) (x4 : State) : (takeFlits p seq heads x3 x4).sems = x4.sems := by fun_induction takeFlits <;> simp_all
@[simp] theorem takeFlits_jobs (p : Port) (seq : BitVec 16) (heads : Nat) (x3 : List (Nat × Flit × Bool)) (x4 : State) : (takeFlits p seq heads x3 x4).jobs = x4.jobs := by fun_induction takeFlits <;> simp_all
@[simp] theorem takeFlits_time (p : Port) (seq : BitVec 16) (heads : Nat) (x3 : List (Nat × Flit × Bool)) (x4 : State) : (takeFlits p seq heads x3 x4).time = x4.time := by fun_induction takeFlits <;> simp_all
@[simp] theorem takeFlits_arrays (p : Port) (seq : BitVec 16) (heads : Nat) (x3 : List (Nat × Flit × Bool)) (x4 : State) : (takeFlits p seq heads x3 x4).arrays = x4.arrays := by fun_induction takeFlits <;> simp_all
@[simp] theorem takeFlits_trust (p : Port) (seq : BitVec 16) (heads : Nat) (x3 : List (Nat × Flit × Bool)) (x4 : State) : (takeFlits p seq heads x3 x4).trust = x4.trust := by fun_induction takeFlits <;> simp_all
@[simp] theorem takeFlits_power (p : Port) (seq : BitVec 16) (heads : Nat) (x3 : List (Nat × Flit × Bool)) (x4 : State) : (takeFlits p seq heads x3 x4).power = x4.power := by fun_induction takeFlits <;> simp_all
@[simp] theorem checkSkew_pending (s : State) (p : Port) (beat : Nat) (slot : Nat) : (checkSkew s p beat slot).pending = s.pending := by unfold checkSkew; simp -implicitDefEqProofs
@[simp] theorem checkSkew_queues (s : State) (p : Port) (beat : Nat) (slot : Nat) : (checkSkew s p beat slot).queues = s.queues := by unfold checkSkew; simp -implicitDefEqProofs
@[simp] theorem checkSkew_sems (s : State) (p : Port) (beat : Nat) (slot : Nat) : (checkSkew s p beat slot).sems = s.sems := by unfold checkSkew; simp -implicitDefEqProofs
@[simp] theorem checkSkew_jobs (s : State) (p : Port) (beat : Nat) (slot : Nat) : (checkSkew s p beat slot).jobs = s.jobs := by unfold checkSkew; simp -implicitDefEqProofs
@[simp] theorem checkSkew_time (s : State) (p : Port) (beat : Nat) (slot : Nat) : (checkSkew s p beat slot).time = s.time := by unfold checkSkew; simp -implicitDefEqProofs
@[simp] theorem checkSkew_arrays (s : State) (p : Port) (beat : Nat) (slot : Nat) : (checkSkew s p beat slot).arrays = s.arrays := by unfold checkSkew; simp -implicitDefEqProofs
@[simp] theorem checkSkew_trust (s : State) (p : Port) (beat : Nat) (slot : Nat) : (checkSkew s p beat slot).trust = s.trust := by unfold checkSkew; simp -implicitDefEqProofs
@[simp] theorem checkSkew_power (s : State) (p : Port) (beat : Nat) (slot : Nat) : (checkSkew s p beat slot).power = s.power := by unfold checkSkew; simp -implicitDefEqProofs
@[simp] theorem takeMsg_pending (s : State) (p : Port) (m : Msg) : (takeMsg s p m).pending = s.pending := (rfl)
@[simp] theorem takeMsg_mem (s : State) (p : Port) (m : Msg) : (takeMsg s p m).mem = s.mem := (rfl)
@[simp] theorem takeMsg_queues (s : State) (p : Port) (m : Msg) : (takeMsg s p m).queues = s.queues := (rfl)
@[simp] theorem takeMsg_sems (s : State) (p : Port) (m : Msg) : (takeMsg s p m).sems = s.sems := (rfl)
@[simp] theorem takeMsg_jobs (s : State) (p : Port) (m : Msg) : (takeMsg s p m).jobs = s.jobs := (rfl)
@[simp] theorem takeMsg_time (s : State) (p : Port) (m : Msg) : (takeMsg s p m).time = s.time := (rfl)
@[simp] theorem takeMsg_arrays (s : State) (p : Port) (m : Msg) : (takeMsg s p m).arrays = s.arrays := (rfl)
@[simp] theorem takeMsg_trust (s : State) (p : Port) (m : Msg) : (takeMsg s p m).trust = s.trust := (rfl)
@[simp] theorem takeMsg_power (s : State) (p : Port) (m : Msg) : (takeMsg s p m).power = s.power := (rfl)
@[simp] theorem askMove_pending (s : State) (p : Port) (lane : BitVec 4) (target : BitVec 4) (ahead : Nat) (k : MoveKind) : (askMove s p lane target ahead k).pending = s.pending := (rfl)
@[simp] theorem askMove_mem (s : State) (p : Port) (lane : BitVec 4) (target : BitVec 4) (ahead : Nat) (k : MoveKind) : (askMove s p lane target ahead k).mem = s.mem := (rfl)
@[simp] theorem askMove_queues (s : State) (p : Port) (lane : BitVec 4) (target : BitVec 4) (ahead : Nat) (k : MoveKind) : (askMove s p lane target ahead k).queues = s.queues := (rfl)
@[simp] theorem askMove_sems (s : State) (p : Port) (lane : BitVec 4) (target : BitVec 4) (ahead : Nat) (k : MoveKind) : (askMove s p lane target ahead k).sems = s.sems := (rfl)
@[simp] theorem askMove_jobs (s : State) (p : Port) (lane : BitVec 4) (target : BitVec 4) (ahead : Nat) (k : MoveKind) : (askMove s p lane target ahead k).jobs = s.jobs := (rfl)
@[simp] theorem askMove_time (s : State) (p : Port) (lane : BitVec 4) (target : BitVec 4) (ahead : Nat) (k : MoveKind) : (askMove s p lane target ahead k).time = s.time := (rfl)
@[simp] theorem askMove_arrays (s : State) (p : Port) (lane : BitVec 4) (target : BitVec 4) (ahead : Nat) (k : MoveKind) : (askMove s p lane target ahead k).arrays = s.arrays := (rfl)
@[simp] theorem askMove_trust (s : State) (p : Port) (lane : BitVec 4) (target : BitVec 4) (ahead : Nat) (k : MoveKind) : (askMove s p lane target ahead k).trust = s.trust := (rfl)
@[simp] theorem askMove_power (s : State) (p : Port) (lane : BitVec 4) (target : BitVec 4) (ahead : Nat) (k : MoveKind) : (askMove s p lane target ahead k).power = s.power := (rfl)
@[simp] theorem laneFailed_pending (s : State) (p : Port) (lane : BitVec 4) (ahead : Nat) : (laneFailed s p lane ahead).pending = s.pending := by unfold laneFailed; (try simp only []); (repeat' split) <;> (try rename_i h) <;> (first | (simp; done) | (simp [vWrite_ok_pending h]; done) | (simp [vWrite_ok_pending h]; split <;> simp) | (simp [vRead_ok_pending h]; done) | (simp; split <;> simp) | simp_all)
@[simp] theorem laneFailed_sems (s : State) (p : Port) (lane : BitVec 4) (ahead : Nat) : (laneFailed s p lane ahead).sems = s.sems := by unfold laneFailed; (try simp only []); (repeat' split) <;> (try rename_i h) <;> (first | (simp; done) | (simp [vWrite_ok_sems h]; done) | (simp [vWrite_ok_sems h]; split <;> simp) | (simp [vRead_ok_sems h]; done) | (simp; split <;> simp) | simp_all)
@[simp] theorem laneFailed_time (s : State) (p : Port) (lane : BitVec 4) (ahead : Nat) : (laneFailed s p lane ahead).time = s.time := by unfold laneFailed; (try simp only []); (repeat' split) <;> (try rename_i h) <;> (first | (simp; done) | (simp [vWrite_ok_time h]; done) | (simp [vWrite_ok_time h]; split <;> simp) | (simp [vRead_ok_time h]; done) | (simp; split <;> simp) | simp_all)
@[simp] theorem laneFailed_arrays (s : State) (p : Port) (lane : BitVec 4) (ahead : Nat) : (laneFailed s p lane ahead).arrays = s.arrays := by unfold laneFailed; (try simp only []); (repeat' split) <;> (try rename_i h) <;> (first | (simp; done) | (simp [vWrite_ok_arrays h]; done) | (simp [vWrite_ok_arrays h]; split <;> simp) | (simp [vRead_ok_arrays h]; done) | (simp; split <;> simp) | simp_all)
@[simp] theorem laneFailed_trust (s : State) (p : Port) (lane : BitVec 4) (ahead : Nat) : (laneFailed s p lane ahead).trust = s.trust := by unfold laneFailed; (try simp only []); (repeat' split) <;> (try rename_i h) <;> (first | (simp; done) | (simp [vWrite_ok_trust h]; done) | (simp [vWrite_ok_trust h]; split <;> simp) | (simp [vRead_ok_trust h]; done) | (simp; split <;> simp) | simp_all)
@[simp] theorem laneFailed_power (s : State) (p : Port) (lane : BitVec 4) (ahead : Nat) : (laneFailed s p lane ahead).power = s.power := by unfold laneFailed; (try simp only []); (repeat' split) <;> (try rename_i h) <;> (first | (simp; done) | (simp [vWrite_ok_power h]; done) | (simp [vWrite_ok_power h]; split <;> simp) | (simp [vRead_ok_power h]; done) | (simp; split <;> simp) | simp_all)
@[simp] theorem armMarker_pending (s : State) (q : QNum) (idx : BitVec 16) (c : Cmd) : (armMarker s q idx c).pending = s.pending := by unfold armMarker; simp -implicitDefEqProofs
@[simp] theorem armMarker_mem (s : State) (q : QNum) (idx : BitVec 16) (c : Cmd) : (armMarker s q idx c).mem = s.mem := by unfold armMarker; simp -implicitDefEqProofs
@[simp] theorem armMarker_sems (s : State) (q : QNum) (idx : BitVec 16) (c : Cmd) : (armMarker s q idx c).sems = s.sems := by unfold armMarker; simp -implicitDefEqProofs
@[simp] theorem armMarker_jobs (s : State) (q : QNum) (idx : BitVec 16) (c : Cmd) : (armMarker s q idx c).jobs = s.jobs := by unfold armMarker; simp -implicitDefEqProofs
@[simp] theorem armMarker_time (s : State) (q : QNum) (idx : BitVec 16) (c : Cmd) : (armMarker s q idx c).time = s.time := by unfold armMarker; simp -implicitDefEqProofs
@[simp] theorem armMarker_arrays (s : State) (q : QNum) (idx : BitVec 16) (c : Cmd) : (armMarker s q idx c).arrays = s.arrays := by unfold armMarker; simp -implicitDefEqProofs
@[simp] theorem armMarker_ports (s : State) (q : QNum) (idx : BitVec 16) (c : Cmd) : (armMarker s q idx c).ports = s.ports := by unfold armMarker; simp -implicitDefEqProofs
@[simp] theorem armMarker_trust (s : State) (q : QNum) (idx : BitVec 16) (c : Cmd) : (armMarker s q idx c).trust = s.trust := by unfold armMarker; simp -implicitDefEqProofs
@[simp] theorem armMarker_power (s : State) (q : QNum) (idx : BitVec 16) (c : Cmd) : (armMarker s q idx c).power = s.power := by unfold armMarker; simp -implicitDefEqProofs
@[simp] theorem armList_pending (s : State) (q : QNum) (x2 : List (BitVec 16 × Cmd)) : (armList s q x2).pending = s.pending := by fun_induction armList <;> simp_all
@[simp] theorem armList_mem (s : State) (q : QNum) (x2 : List (BitVec 16 × Cmd)) : (armList s q x2).mem = s.mem := by fun_induction armList <;> simp_all
@[simp] theorem armList_sems (s : State) (q : QNum) (x2 : List (BitVec 16 × Cmd)) : (armList s q x2).sems = s.sems := by fun_induction armList <;> simp_all
@[simp] theorem armList_jobs (s : State) (q : QNum) (x2 : List (BitVec 16 × Cmd)) : (armList s q x2).jobs = s.jobs := by fun_induction armList <;> simp_all
@[simp] theorem armList_time (s : State) (q : QNum) (x2 : List (BitVec 16 × Cmd)) : (armList s q x2).time = s.time := by fun_induction armList <;> simp_all
@[simp] theorem armList_arrays (s : State) (q : QNum) (x2 : List (BitVec 16 × Cmd)) : (armList s q x2).arrays = s.arrays := by fun_induction armList <;> simp_all
@[simp] theorem armList_ports (s : State) (q : QNum) (x2 : List (BitVec 16 × Cmd)) : (armList s q x2).ports = s.ports := by fun_induction armList <;> simp_all
@[simp] theorem armList_trust (s : State) (q : QNum) (x2 : List (BitVec 16 × Cmd)) : (armList s q x2).trust = s.trust := by fun_induction armList <;> simp_all
@[simp] theorem armList_power (s : State) (q : QNum) (x2 : List (BitVec 16 × Cmd)) : (armList s q x2).power = s.power := by fun_induction armList <;> simp_all
@[simp] theorem armReady_pending (s : State) (q : QNum) : (armReady s q).pending = s.pending := by unfold armReady; simp -implicitDefEqProofs
@[simp] theorem armReady_mem (s : State) (q : QNum) : (armReady s q).mem = s.mem := by unfold armReady; simp -implicitDefEqProofs
@[simp] theorem armReady_sems (s : State) (q : QNum) : (armReady s q).sems = s.sems := by unfold armReady; simp -implicitDefEqProofs
@[simp] theorem armReady_jobs (s : State) (q : QNum) : (armReady s q).jobs = s.jobs := by unfold armReady; simp -implicitDefEqProofs
@[simp] theorem armReady_time (s : State) (q : QNum) : (armReady s q).time = s.time := by unfold armReady; simp -implicitDefEqProofs
@[simp] theorem armReady_arrays (s : State) (q : QNum) : (armReady s q).arrays = s.arrays := by unfold armReady; simp -implicitDefEqProofs
@[simp] theorem armReady_ports (s : State) (q : QNum) : (armReady s q).ports = s.ports := by unfold armReady; simp -implicitDefEqProofs
@[simp] theorem armReady_trust (s : State) (q : QNum) : (armReady s q).trust = s.trust := by unfold armReady; simp -implicitDefEqProofs
@[simp] theorem armReady_power (s : State) (q : QNum) : (armReady s q).power = s.power := by unfold armReady; simp -implicitDefEqProofs
@[simp] theorem ringEntry_pending (s : State) (x : Queue) (idx : BitVec 16) : (ringEntry s x idx).2.pending = s.pending := by unfold ringEntry; (try simp only []); (repeat' split) <;> (try rename_i h) <;> (first | (simp; done) | (simp [vWrite_ok_pending h]; done) | (simp [vWrite_ok_pending h]; split <;> simp) | (simp [vRead_ok_pending h]; done) | (simp; split <;> simp) | simp_all)
@[simp] theorem ringEntry_mem (s : State) (x : Queue) (idx : BitVec 16) : (ringEntry s x idx).2.mem = s.mem := by unfold ringEntry; (try simp only []); (repeat' split) <;> (try rename_i h) <;> (first | (simp; done) | (simp [vWrite_ok_mem h]; done) | (simp [vWrite_ok_mem h]; split <;> simp) | (simp [vRead_ok_mem h]; done) | (simp; split <;> simp) | simp_all)
@[simp] theorem ringEntry_queues (s : State) (x : Queue) (idx : BitVec 16) : (ringEntry s x idx).2.queues = s.queues := by unfold ringEntry; (try simp only []); (repeat' split) <;> (try rename_i h) <;> (first | (simp; done) | (simp [vWrite_ok_queues h]; done) | (simp [vWrite_ok_queues h]; split <;> simp) | (simp [vRead_ok_queues h]; done) | (simp; split <;> simp) | simp_all)
@[simp] theorem ringEntry_sems (s : State) (x : Queue) (idx : BitVec 16) : (ringEntry s x idx).2.sems = s.sems := by unfold ringEntry; (try simp only []); (repeat' split) <;> (try rename_i h) <;> (first | (simp; done) | (simp [vWrite_ok_sems h]; done) | (simp [vWrite_ok_sems h]; split <;> simp) | (simp [vRead_ok_sems h]; done) | (simp; split <;> simp) | simp_all)
@[simp] theorem ringEntry_jobs (s : State) (x : Queue) (idx : BitVec 16) : (ringEntry s x idx).2.jobs = s.jobs := by unfold ringEntry; (try simp only []); (repeat' split) <;> (try rename_i h) <;> (first | (simp; done) | (simp [vWrite_ok_jobs h]; done) | (simp [vWrite_ok_jobs h]; split <;> simp) | (simp [vRead_ok_jobs h]; done) | (simp; split <;> simp) | simp_all)
@[simp] theorem ringEntry_time (s : State) (x : Queue) (idx : BitVec 16) : (ringEntry s x idx).2.time = s.time := by unfold ringEntry; (try simp only []); (repeat' split) <;> (try rename_i h) <;> (first | (simp; done) | (simp [vWrite_ok_time h]; done) | (simp [vWrite_ok_time h]; split <;> simp) | (simp [vRead_ok_time h]; done) | (simp; split <;> simp) | simp_all)
@[simp] theorem ringEntry_arrays (s : State) (x : Queue) (idx : BitVec 16) : (ringEntry s x idx).2.arrays = s.arrays := by unfold ringEntry; (try simp only []); (repeat' split) <;> (try rename_i h) <;> (first | (simp; done) | (simp [vWrite_ok_arrays h]; done) | (simp [vWrite_ok_arrays h]; split <;> simp) | (simp [vRead_ok_arrays h]; done) | (simp; split <;> simp) | simp_all)
@[simp] theorem ringEntry_ports (s : State) (x : Queue) (idx : BitVec 16) : (ringEntry s x idx).2.ports = s.ports := by unfold ringEntry; (try simp only []); (repeat' split) <;> (try rename_i h) <;> (first | (simp; done) | (simp [vWrite_ok_ports h]; done) | (simp [vWrite_ok_ports h]; split <;> simp) | (simp [vRead_ok_ports h]; done) | (simp; split <;> simp) | simp_all)
@[simp] theorem ringEntry_trust (s : State) (x : Queue) (idx : BitVec 16) : (ringEntry s x idx).2.trust = s.trust := by unfold ringEntry; (try simp only []); (repeat' split) <;> (try rename_i h) <;> (first | (simp; done) | (simp [vWrite_ok_trust h]; done) | (simp [vWrite_ok_trust h]; split <;> simp) | (simp [vRead_ok_trust h]; done) | (simp; split <;> simp) | simp_all)
@[simp] theorem ringEntry_power (s : State) (x : Queue) (idx : BitVec 16) : (ringEntry s x idx).2.power = s.power := by unfold ringEntry; (try simp only []); (repeat' split) <;> (try rename_i h) <;> (first | (simp; done) | (simp [vWrite_ok_power h]; done) | (simp [vWrite_ok_power h]; split <;> simp) | (simp [vRead_ok_power h]; done) | (simp; split <;> simp) | simp_all)
@[simp] theorem reachMarker_pending (s : State) (q : QNum) (idx : BitVec 16) : (reachMarker s q idx).pending = s.pending := (rfl)
@[simp] theorem reachMarker_mem (s : State) (q : QNum) (idx : BitVec 16) : (reachMarker s q idx).mem = s.mem := (rfl)
@[simp] theorem reachMarker_sems (s : State) (q : QNum) (idx : BitVec 16) : (reachMarker s q idx).sems = s.sems := (rfl)
@[simp] theorem reachMarker_jobs (s : State) (q : QNum) (idx : BitVec 16) : (reachMarker s q idx).jobs = s.jobs := (rfl)
@[simp] theorem reachMarker_time (s : State) (q : QNum) (idx : BitVec 16) : (reachMarker s q idx).time = s.time := (rfl)
@[simp] theorem reachMarker_arrays (s : State) (q : QNum) (idx : BitVec 16) : (reachMarker s q idx).arrays = s.arrays := (rfl)
@[simp] theorem reachMarker_ports (s : State) (q : QNum) (idx : BitVec 16) : (reachMarker s q idx).ports = s.ports := (rfl)
@[simp] theorem reachMarker_trust (s : State) (q : QNum) (idx : BitVec 16) : (reachMarker s q idx).trust = s.trust := (rfl)
@[simp] theorem reachMarker_power (s : State) (q : QNum) (idx : BitVec 16) : (reachMarker s q idx).power = s.power := (rfl)
@[simp] theorem semCreateAs_pending (s : State) (f : Nat) (n : Nat) (v : BitVec 64) : (semCreateAs s f n v).2.pending = s.pending := by unfold semCreateAs; (repeat' split) <;> simp
@[simp] theorem semCreateAs_mem (s : State) (f : Nat) (n : Nat) (v : BitVec 64) : (semCreateAs s f n v).2.mem = s.mem := by unfold semCreateAs; (repeat' split) <;> simp
@[simp] theorem semCreateAs_queues (s : State) (f : Nat) (n : Nat) (v : BitVec 64) : (semCreateAs s f n v).2.queues = s.queues := by unfold semCreateAs; (repeat' split) <;> simp
@[simp] theorem semCreateAs_jobs (s : State) (f : Nat) (n : Nat) (v : BitVec 64) : (semCreateAs s f n v).2.jobs = s.jobs := by unfold semCreateAs; (repeat' split) <;> simp
@[simp] theorem semCreateAs_time (s : State) (f : Nat) (n : Nat) (v : BitVec 64) : (semCreateAs s f n v).2.time = s.time := by unfold semCreateAs; (repeat' split) <;> simp
@[simp] theorem semCreateAs_arrays (s : State) (f : Nat) (n : Nat) (v : BitVec 64) : (semCreateAs s f n v).2.arrays = s.arrays := by unfold semCreateAs; (repeat' split) <;> simp
@[simp] theorem semCreateAs_ports (s : State) (f : Nat) (n : Nat) (v : BitVec 64) : (semCreateAs s f n v).2.ports = s.ports := by unfold semCreateAs; (repeat' split) <;> simp
@[simp] theorem semCreateAs_trust (s : State) (f : Nat) (n : Nat) (v : BitVec 64) : (semCreateAs s f n v).2.trust = s.trust := by unfold semCreateAs; (repeat' split) <;> simp
@[simp] theorem semCreateAs_power (s : State) (f : Nat) (n : Nat) (v : BitVec 64) : (semCreateAs s f n v).2.power = s.power := by unfold semCreateAs; (repeat' split) <;> simp
@[simp] theorem semDestroyAs_pending (s : State) (f : Option Nat) (n : Nat) : (semDestroyAs s f n).2.pending = s.pending := by unfold semDestroyAs; (try simp only []); (repeat' split) <;> (try rename_i h) <;> (first | (simp; done) | (simp [vWrite_ok_pending h]; done) | (simp [vWrite_ok_pending h]; split <;> simp) | (simp [vRead_ok_pending h]; done) | (simp; split <;> simp) | simp_all)
@[simp] theorem semDestroyAs_mem (s : State) (f : Option Nat) (n : Nat) : (semDestroyAs s f n).2.mem = s.mem := by unfold semDestroyAs; (try simp only []); (repeat' split) <;> (try rename_i h) <;> (first | (simp; done) | (simp [vWrite_ok_mem h]; done) | (simp [vWrite_ok_mem h]; split <;> simp) | (simp [vRead_ok_mem h]; done) | (simp; split <;> simp) | simp_all)
@[simp] theorem semDestroyAs_jobs (s : State) (f : Option Nat) (n : Nat) : (semDestroyAs s f n).2.jobs = s.jobs := by unfold semDestroyAs; (try simp only []); (repeat' split) <;> (try rename_i h) <;> (first | (simp; done) | (simp [vWrite_ok_jobs h]; done) | (simp [vWrite_ok_jobs h]; split <;> simp) | (simp [vRead_ok_jobs h]; done) | (simp; split <;> simp) | simp_all)
@[simp] theorem semDestroyAs_time (s : State) (f : Option Nat) (n : Nat) : (semDestroyAs s f n).2.time = s.time := by unfold semDestroyAs; (try simp only []); (repeat' split) <;> (try rename_i h) <;> (first | (simp; done) | (simp [vWrite_ok_time h]; done) | (simp [vWrite_ok_time h]; split <;> simp) | (simp [vRead_ok_time h]; done) | (simp; split <;> simp) | simp_all)
@[simp] theorem semDestroyAs_arrays (s : State) (f : Option Nat) (n : Nat) : (semDestroyAs s f n).2.arrays = s.arrays := by unfold semDestroyAs; (try simp only []); (repeat' split) <;> (try rename_i h) <;> (first | (simp; done) | (simp [vWrite_ok_arrays h]; done) | (simp [vWrite_ok_arrays h]; split <;> simp) | (simp [vRead_ok_arrays h]; done) | (simp; split <;> simp) | simp_all)
@[simp] theorem semDestroyAs_ports (s : State) (f : Option Nat) (n : Nat) : (semDestroyAs s f n).2.ports = s.ports := by unfold semDestroyAs; (try simp only []); (repeat' split) <;> (try rename_i h) <;> (first | (simp; done) | (simp [vWrite_ok_ports h]; done) | (simp [vWrite_ok_ports h]; split <;> simp) | (simp [vRead_ok_ports h]; done) | (simp; split <;> simp) | simp_all)
@[simp] theorem semDestroyAs_trust (s : State) (f : Option Nat) (n : Nat) : (semDestroyAs s f n).2.trust = s.trust := by unfold semDestroyAs; (try simp only []); (repeat' split) <;> (try rename_i h) <;> (first | (simp; done) | (simp [vWrite_ok_trust h]; done) | (simp [vWrite_ok_trust h]; split <;> simp) | (simp [vRead_ok_trust h]; done) | (simp; split <;> simp) | simp_all)
@[simp] theorem semDestroyAs_power (s : State) (f : Option Nat) (n : Nat) : (semDestroyAs s f n).2.power = s.power := by unfold semDestroyAs; (try simp only []); (repeat' split) <;> (try rename_i h) <;> (first | (simp; done) | (simp [vWrite_ok_power h]; done) | (simp [vWrite_ok_power h]; split <;> simp) | (simp [vRead_ok_power h]; done) | (simp; split <;> simp) | simp_all)
@[simp] theorem unholdCore_pending (s : State) (core : Nat) : (unholdCore s core).pending = s.pending := by unfold unholdCore; simp -implicitDefEqProofs
@[simp] theorem unholdCore_mem (s : State) (core : Nat) : (unholdCore s core).mem = s.mem := by unfold unholdCore; simp -implicitDefEqProofs
@[simp] theorem unholdCore_poison (s : State) (core : Nat) : (unholdCore s core).poison = s.poison := by unfold unholdCore; simp -implicitDefEqProofs
@[simp] theorem unholdCore_queues (s : State) (core : Nat) : (unholdCore s core).queues = s.queues := by unfold unholdCore; simp -implicitDefEqProofs
@[simp] theorem unholdCore_sems (s : State) (core : Nat) : (unholdCore s core).sems = s.sems := by unfold unholdCore; simp -implicitDefEqProofs
@[simp] theorem unholdCore_jobs (s : State) (core : Nat) : (unholdCore s core).jobs = s.jobs := by unfold unholdCore; simp -implicitDefEqProofs
@[simp] theorem unholdCore_time (s : State) (core : Nat) : (unholdCore s core).time = s.time := by unfold unholdCore; simp -implicitDefEqProofs
@[simp] theorem unholdCore_ports (s : State) (core : Nat) : (unholdCore s core).ports = s.ports := by unfold unholdCore; simp -implicitDefEqProofs
@[simp] theorem unholdCore_masks (s : State) (core : Nat) : (unholdCore s core).masks = s.masks := by unfold unholdCore; simp -implicitDefEqProofs
@[simp] theorem unholdCore_trust (s : State) (core : Nat) : (unholdCore s core).trust = s.trust := by unfold unholdCore; simp -implicitDefEqProofs
@[simp] theorem unholdCore_power (s : State) (core : Nat) : (unholdCore s core).power = s.power := by unfold unholdCore; simp -implicitDefEqProofs
@[simp] theorem unholdCore_ctxs (s : State) (core : Nat) : (unholdCore s core).ctxs = s.ctxs := by unfold unholdCore; simp -implicitDefEqProofs
@[simp] theorem unholdCore_funcs (s : State) (core : Nat) : (unholdCore s core).funcs = s.funcs := by unfold unholdCore; simp -implicitDefEqProofs
@[simp] theorem unholdCore_assign (s : State) (core : Nat) : (unholdCore s core).assign = s.assign := by unfold unholdCore; simp -implicitDefEqProofs
@[simp] theorem unholdCore_paths (s : State) (core : Nat) : (unholdCore s core).paths = s.paths := by unfold unholdCore; simp -implicitDefEqProofs
@[simp] theorem startRepl_pending (s : State) (core : Nat) : (startRepl s core).pending = s.pending := by unfold startRepl; simp -implicitDefEqProofs
@[simp] theorem startRepl_mem (s : State) (core : Nat) : (startRepl s core).mem = s.mem := by unfold startRepl; simp -implicitDefEqProofs
@[simp] theorem startRepl_queues (s : State) (core : Nat) : (startRepl s core).queues = s.queues := by unfold startRepl; simp -implicitDefEqProofs
@[simp] theorem startRepl_sems (s : State) (core : Nat) : (startRepl s core).sems = s.sems := by unfold startRepl; simp -implicitDefEqProofs
@[simp] theorem startRepl_jobs (s : State) (core : Nat) : (startRepl s core).jobs = s.jobs := by unfold startRepl; simp -implicitDefEqProofs
@[simp] theorem startRepl_time (s : State) (core : Nat) : (startRepl s core).time = s.time := by unfold startRepl; simp -implicitDefEqProofs
@[simp] theorem startRepl_ports (s : State) (core : Nat) : (startRepl s core).ports = s.ports := by unfold startRepl; simp -implicitDefEqProofs
@[simp] theorem startRepl_power (s : State) (core : Nat) : (startRepl s core).power = s.power := by unfold startRepl; simp -implicitDefEqProofs
@[simp] theorem offerCore_pending (s : State) (core : Nat) : (offerCore s core).pending = s.pending := by unfold offerCore; simp -implicitDefEqProofs
@[simp] theorem offerCore_mem (s : State) (core : Nat) : (offerCore s core).mem = s.mem := by unfold offerCore; simp -implicitDefEqProofs
@[simp] theorem offerCore_queues (s : State) (core : Nat) : (offerCore s core).queues = s.queues := by unfold offerCore; simp -implicitDefEqProofs
@[simp] theorem offerCore_sems (s : State) (core : Nat) : (offerCore s core).sems = s.sems := by unfold offerCore; simp -implicitDefEqProofs
@[simp] theorem offerCore_jobs (s : State) (core : Nat) : (offerCore s core).jobs = s.jobs := by unfold offerCore; simp -implicitDefEqProofs
@[simp] theorem offerCore_time (s : State) (core : Nat) : (offerCore s core).time = s.time := by unfold offerCore; simp -implicitDefEqProofs
@[simp] theorem offerCore_ports (s : State) (core : Nat) : (offerCore s core).ports = s.ports := by unfold offerCore; simp -implicitDefEqProofs
@[simp] theorem offerCore_power (s : State) (core : Nat) : (offerCore s core).power = s.power := by unfold offerCore; simp -implicitDefEqProofs
@[simp] theorem noteRepair_pending (s : State) (a : Nat) (row : Nat) (src : Nat) (res : Nat) (bb : Bool) : (noteRepair s a row src res bb).pending = s.pending := by unfold noteRepair; simp -implicitDefEqProofs
@[simp] theorem noteRepair_mem (s : State) (a : Nat) (row : Nat) (src : Nat) (res : Nat) (bb : Bool) : (noteRepair s a row src res bb).mem = s.mem := by unfold noteRepair; simp -implicitDefEqProofs
@[simp] theorem noteRepair_queues (s : State) (a : Nat) (row : Nat) (src : Nat) (res : Nat) (bb : Bool) : (noteRepair s a row src res bb).queues = s.queues := by unfold noteRepair; simp -implicitDefEqProofs
@[simp] theorem noteRepair_sems (s : State) (a : Nat) (row : Nat) (src : Nat) (res : Nat) (bb : Bool) : (noteRepair s a row src res bb).sems = s.sems := by unfold noteRepair; simp -implicitDefEqProofs
@[simp] theorem noteRepair_jobs (s : State) (a : Nat) (row : Nat) (src : Nat) (res : Nat) (bb : Bool) : (noteRepair s a row src res bb).jobs = s.jobs := by unfold noteRepair; simp -implicitDefEqProofs
@[simp] theorem noteRepair_time (s : State) (a : Nat) (row : Nat) (src : Nat) (res : Nat) (bb : Bool) : (noteRepair s a row src res bb).time = s.time := by unfold noteRepair; simp -implicitDefEqProofs
@[simp] theorem noteRepair_arrays (s : State) (a : Nat) (row : Nat) (src : Nat) (res : Nat) (bb : Bool) : (noteRepair s a row src res bb).arrays = s.arrays := by unfold noteRepair; simp -implicitDefEqProofs
@[simp] theorem noteRepair_ports (s : State) (a : Nat) (row : Nat) (src : Nat) (res : Nat) (bb : Bool) : (noteRepair s a row src res bb).ports = s.ports := by unfold noteRepair; simp -implicitDefEqProofs
@[simp] theorem noteRepair_trust (s : State) (a : Nat) (row : Nat) (src : Nat) (res : Nat) (bb : Bool) : (noteRepair s a row src res bb).trust = s.trust := by unfold noteRepair; simp -implicitDefEqProofs
@[simp] theorem noteRepair_power (s : State) (a : Nat) (row : Nat) (src : Nat) (res : Nat) (bb : Bool) : (noteRepair s a row src res bb).power = s.power := by unfold noteRepair; simp -implicitDefEqProofs
@[simp] theorem raiseRepair_pending (s : State) (a : Nat) (row : Nat) (src : Nat) : (raiseRepair s a row src).pending = s.pending := by unfold raiseRepair; simp -implicitDefEqProofs
@[simp] theorem raiseRepair_mem (s : State) (a : Nat) (row : Nat) (src : Nat) : (raiseRepair s a row src).mem = s.mem := by unfold raiseRepair; simp -implicitDefEqProofs
@[simp] theorem raiseRepair_queues (s : State) (a : Nat) (row : Nat) (src : Nat) : (raiseRepair s a row src).queues = s.queues := by unfold raiseRepair; simp -implicitDefEqProofs
@[simp] theorem raiseRepair_sems (s : State) (a : Nat) (row : Nat) (src : Nat) : (raiseRepair s a row src).sems = s.sems := by unfold raiseRepair; simp -implicitDefEqProofs
@[simp] theorem raiseRepair_jobs (s : State) (a : Nat) (row : Nat) (src : Nat) : (raiseRepair s a row src).jobs = s.jobs := by unfold raiseRepair; simp -implicitDefEqProofs
@[simp] theorem raiseRepair_time (s : State) (a : Nat) (row : Nat) (src : Nat) : (raiseRepair s a row src).time = s.time := by unfold raiseRepair; simp -implicitDefEqProofs
@[simp] theorem raiseRepair_ports (s : State) (a : Nat) (row : Nat) (src : Nat) : (raiseRepair s a row src).ports = s.ports := by unfold raiseRepair; simp -implicitDefEqProofs
@[simp] theorem raiseRepair_trust (s : State) (a : Nat) (row : Nat) (src : Nat) : (raiseRepair s a row src).trust = s.trust := by unfold raiseRepair; simp -implicitDefEqProofs
@[simp] theorem raiseRepair_power (s : State) (a : Nat) (row : Nat) (src : Nat) : (raiseRepair s a row src).power = s.power := by unfold raiseRepair; simp -implicitDefEqProofs
@[simp] theorem repairWrite_pending (s : State) (v : Nat) : (repairWrite s v).2.pending = s.pending := by unfold repairWrite; (try simp only []); (repeat' split) <;> (try rename_i h) <;> (first | (simp; done) | (simp [vWrite_ok_pending h]; done) | (simp [vWrite_ok_pending h]; split <;> simp) | (simp [vRead_ok_pending h]; done) | (simp; split <;> simp) | simp_all)
@[simp] theorem repairWrite_mem (s : State) (v : Nat) : (repairWrite s v).2.mem = s.mem := by unfold repairWrite; (try simp only []); (repeat' split) <;> (try rename_i h) <;> (first | (simp; done) | (simp [vWrite_ok_mem h]; done) | (simp [vWrite_ok_mem h]; split <;> simp) | (simp [vRead_ok_mem h]; done) | (simp; split <;> simp) | simp_all)
@[simp] theorem repairWrite_queues (s : State) (v : Nat) : (repairWrite s v).2.queues = s.queues := by unfold repairWrite; (try simp only []); (repeat' split) <;> (try rename_i h) <;> (first | (simp; done) | (simp [vWrite_ok_queues h]; done) | (simp [vWrite_ok_queues h]; split <;> simp) | (simp [vRead_ok_queues h]; done) | (simp; split <;> simp) | simp_all)
@[simp] theorem repairWrite_sems (s : State) (v : Nat) : (repairWrite s v).2.sems = s.sems := by unfold repairWrite; (try simp only []); (repeat' split) <;> (try rename_i h) <;> (first | (simp; done) | (simp [vWrite_ok_sems h]; done) | (simp [vWrite_ok_sems h]; split <;> simp) | (simp [vRead_ok_sems h]; done) | (simp; split <;> simp) | simp_all)
@[simp] theorem repairWrite_jobs (s : State) (v : Nat) : (repairWrite s v).2.jobs = s.jobs := by unfold repairWrite; (try simp only []); (repeat' split) <;> (try rename_i h) <;> (first | (simp; done) | (simp [vWrite_ok_jobs h]; done) | (simp [vWrite_ok_jobs h]; split <;> simp) | (simp [vRead_ok_jobs h]; done) | (simp; split <;> simp) | simp_all)
@[simp] theorem repairWrite_time (s : State) (v : Nat) : (repairWrite s v).2.time = s.time := by unfold repairWrite; (try simp only []); (repeat' split) <;> (try rename_i h) <;> (first | (simp; done) | (simp [vWrite_ok_time h]; done) | (simp [vWrite_ok_time h]; split <;> simp) | (simp [vRead_ok_time h]; done) | (simp; split <;> simp) | simp_all)
@[simp] theorem repairWrite_ports (s : State) (v : Nat) : (repairWrite s v).2.ports = s.ports := by unfold repairWrite; (try simp only []); (repeat' split) <;> (try rename_i h) <;> (first | (simp; done) | (simp [vWrite_ok_ports h]; done) | (simp [vWrite_ok_ports h]; split <;> simp) | (simp [vRead_ok_ports h]; done) | (simp; split <;> simp) | simp_all)
@[simp] theorem repairWrite_trust (s : State) (v : Nat) : (repairWrite s v).2.trust = s.trust := by unfold repairWrite; (try simp only []); (repeat' split) <;> (try rename_i h) <;> (first | (simp; done) | (simp [vWrite_ok_trust h]; done) | (simp [vWrite_ok_trust h]; split <;> simp) | (simp [vRead_ok_trust h]; done) | (simp; split <;> simp) | simp_all)
@[simp] theorem repairWrite_power (s : State) (v : Nat) : (repairWrite s v).2.power = s.power := by unfold repairWrite; (try simp only []); (repeat' split) <;> (try rename_i h) <;> (first | (simp; done) | (simp [vWrite_ok_power h]; done) | (simp [vWrite_ok_power h]; split <;> simp) | (simp [vRead_ok_power h]; done) | (simp; split <;> simp) | simp_all)
@[simp] theorem arrayQuiet_pending (s : State) (a : Nat) : (arrayQuiet s a).2.pending = s.pending := by unfold arrayQuiet; (try simp only []); (repeat' split) <;> (try rename_i h) <;> (first | (simp; done) | (simp [vWrite_ok_pending h]; done) | (simp [vWrite_ok_pending h]; split <;> simp) | (simp [vRead_ok_pending h]; done) | (simp; split <;> simp) | simp_all)
@[simp] theorem arrayQuiet_mem (s : State) (a : Nat) : (arrayQuiet s a).2.mem = s.mem := by unfold arrayQuiet; (try simp only []); (repeat' split) <;> (try rename_i h) <;> (first | (simp; done) | (simp [vWrite_ok_mem h]; done) | (simp [vWrite_ok_mem h]; split <;> simp) | (simp [vRead_ok_mem h]; done) | (simp; split <;> simp) | simp_all)
@[simp] theorem arrayQuiet_queues (s : State) (a : Nat) : (arrayQuiet s a).2.queues = s.queues := by unfold arrayQuiet; (try simp only []); (repeat' split) <;> (try rename_i h) <;> (first | (simp; done) | (simp [vWrite_ok_queues h]; done) | (simp [vWrite_ok_queues h]; split <;> simp) | (simp [vRead_ok_queues h]; done) | (simp; split <;> simp) | simp_all)
@[simp] theorem arrayQuiet_sems (s : State) (a : Nat) : (arrayQuiet s a).2.sems = s.sems := by unfold arrayQuiet; (try simp only []); (repeat' split) <;> (try rename_i h) <;> (first | (simp; done) | (simp [vWrite_ok_sems h]; done) | (simp [vWrite_ok_sems h]; split <;> simp) | (simp [vRead_ok_sems h]; done) | (simp; split <;> simp) | simp_all)
@[simp] theorem arrayQuiet_jobs (s : State) (a : Nat) : (arrayQuiet s a).2.jobs = s.jobs := by unfold arrayQuiet; (try simp only []); (repeat' split) <;> (try rename_i h) <;> (first | (simp; done) | (simp [vWrite_ok_jobs h]; done) | (simp [vWrite_ok_jobs h]; split <;> simp) | (simp [vRead_ok_jobs h]; done) | (simp; split <;> simp) | simp_all)
@[simp] theorem arrayQuiet_time (s : State) (a : Nat) : (arrayQuiet s a).2.time = s.time := by unfold arrayQuiet; (try simp only []); (repeat' split) <;> (try rename_i h) <;> (first | (simp; done) | (simp [vWrite_ok_time h]; done) | (simp [vWrite_ok_time h]; split <;> simp) | (simp [vRead_ok_time h]; done) | (simp; split <;> simp) | simp_all)
@[simp] theorem arrayQuiet_arrays (s : State) (a : Nat) : (arrayQuiet s a).2.arrays = s.arrays := by unfold arrayQuiet; (try simp only []); (repeat' split) <;> (try rename_i h) <;> (first | (simp; done) | (simp [vWrite_ok_arrays h]; done) | (simp [vWrite_ok_arrays h]; split <;> simp) | (simp [vRead_ok_arrays h]; done) | (simp; split <;> simp) | simp_all)
@[simp] theorem arrayQuiet_ports (s : State) (a : Nat) : (arrayQuiet s a).2.ports = s.ports := by unfold arrayQuiet; (try simp only []); (repeat' split) <;> (try rename_i h) <;> (first | (simp; done) | (simp [vWrite_ok_ports h]; done) | (simp [vWrite_ok_ports h]; split <;> simp) | (simp [vRead_ok_ports h]; done) | (simp; split <;> simp) | simp_all)
@[simp] theorem arrayQuiet_trust (s : State) (a : Nat) : (arrayQuiet s a).2.trust = s.trust := by unfold arrayQuiet; (try simp only []); (repeat' split) <;> (try rename_i h) <;> (first | (simp; done) | (simp [vWrite_ok_trust h]; done) | (simp [vWrite_ok_trust h]; split <;> simp) | (simp [vRead_ok_trust h]; done) | (simp; split <;> simp) | simp_all)
@[simp] theorem arrayQuiet_power (s : State) (a : Nat) : (arrayQuiet s a).2.power = s.power := by unfold arrayQuiet; (try simp only []); (repeat' split) <;> (try rename_i h) <;> (first | (simp; done) | (simp [vWrite_ok_power h]; done) | (simp [vWrite_ok_power h]; split <;> simp) | (simp [vRead_ok_power h]; done) | (simp; split <;> simp) | simp_all)
@[simp] theorem endRepair_pending (s : State) (a row src res : Nat) : (endRepair s a row src res).pending = s.pending := by unfold endRepair; simp -implicitDefEqProofs
@[simp] theorem endRepair_mem (s : State) (a row src res : Nat) : (endRepair s a row src res).mem = s.mem := by unfold endRepair; simp -implicitDefEqProofs
@[simp] theorem endRepair_poison (s : State) (a row src res : Nat) : (endRepair s a row src res).poison = s.poison := by unfold endRepair; simp -implicitDefEqProofs
@[simp] theorem endRepair_queues (s : State) (a row src res : Nat) : (endRepair s a row src res).queues = s.queues := by unfold endRepair; simp -implicitDefEqProofs
@[simp] theorem endRepair_sems (s : State) (a row src res : Nat) : (endRepair s a row src res).sems = s.sems := by unfold endRepair; simp -implicitDefEqProofs
@[simp] theorem endRepair_jobs (s : State) (a row src res : Nat) : (endRepair s a row src res).jobs = s.jobs := by unfold endRepair; simp -implicitDefEqProofs
@[simp] theorem endRepair_time (s : State) (a row src res : Nat) : (endRepair s a row src res).time = s.time := by unfold endRepair; simp -implicitDefEqProofs
@[simp] theorem endRepair_arrays (s : State) (a row src res : Nat) : (endRepair s a row src res).arrays = s.arrays := by unfold endRepair; simp -implicitDefEqProofs
@[simp] theorem endRepair_ports (s : State) (a row src res : Nat) : (endRepair s a row src res).ports = s.ports := by unfold endRepair; simp -implicitDefEqProofs
@[simp] theorem endRepair_masks (s : State) (a row src res : Nat) : (endRepair s a row src res).masks = s.masks := by unfold endRepair; simp -implicitDefEqProofs
@[simp] theorem endRepair_trust (s : State) (a row src res : Nat) : (endRepair s a row src res).trust = s.trust := by unfold endRepair; simp -implicitDefEqProofs
@[simp] theorem endRepair_power (s : State) (a row src res : Nat) : (endRepair s a row src res).power = s.power := by unfold endRepair; simp -implicitDefEqProofs
@[simp] theorem endRepair_ctxs (s : State) (a row src res : Nat) : (endRepair s a row src res).ctxs = s.ctxs := by unfold endRepair; simp -implicitDefEqProofs
@[simp] theorem endRepair_funcs (s : State) (a row src res : Nat) : (endRepair s a row src res).funcs = s.funcs := by unfold endRepair; simp -implicitDefEqProofs
@[simp] theorem endRepair_assign (s : State) (a row src res : Nat) : (endRepair s a row src res).assign = s.assign := by unfold endRepair; simp -implicitDefEqProofs
@[simp] theorem endRepair_paths (s : State) (a row src res : Nat) : (endRepair s a row src res).paths = s.paths := by unfold endRepair; simp -implicitDefEqProofs
@[simp] theorem arrayOut_pending (s : State) (a : Nat) : (arrayOut s a).pending = s.pending := by unfold arrayOut; simp -implicitDefEqProofs
@[simp] theorem arrayOut_mem (s : State) (a : Nat) : (arrayOut s a).mem = s.mem := by unfold arrayOut; simp -implicitDefEqProofs
@[simp] theorem arrayOut_poison (s : State) (a : Nat) : (arrayOut s a).poison = s.poison := by unfold arrayOut; simp -implicitDefEqProofs
@[simp] theorem arrayOut_queues (s : State) (a : Nat) : (arrayOut s a).queues = s.queues := by unfold arrayOut; simp -implicitDefEqProofs
@[simp] theorem arrayOut_sems (s : State) (a : Nat) : (arrayOut s a).sems = s.sems := by unfold arrayOut; simp -implicitDefEqProofs
@[simp] theorem arrayOut_jobs (s : State) (a : Nat) : (arrayOut s a).jobs = s.jobs := by unfold arrayOut; simp -implicitDefEqProofs
@[simp] theorem arrayOut_time (s : State) (a : Nat) : (arrayOut s a).time = s.time := by unfold arrayOut; simp -implicitDefEqProofs
@[simp] theorem arrayOut_ports (s : State) (a : Nat) : (arrayOut s a).ports = s.ports := by unfold arrayOut; simp -implicitDefEqProofs
@[simp] theorem arrayOut_masks (s : State) (a : Nat) : (arrayOut s a).masks = s.masks := by unfold arrayOut; simp -implicitDefEqProofs
@[simp] theorem arrayOut_trust (s : State) (a : Nat) : (arrayOut s a).trust = s.trust := by unfold arrayOut; simp -implicitDefEqProofs
@[simp] theorem arrayOut_power (s : State) (a : Nat) : (arrayOut s a).power = s.power := by unfold arrayOut; simp -implicitDefEqProofs
@[simp] theorem arrayOut_ctxs (s : State) (a : Nat) : (arrayOut s a).ctxs = s.ctxs := by unfold arrayOut; simp -implicitDefEqProofs
@[simp] theorem arrayOut_funcs (s : State) (a : Nat) : (arrayOut s a).funcs = s.funcs := by unfold arrayOut; simp -implicitDefEqProofs
@[simp] theorem arrayOut_assign (s : State) (a : Nat) : (arrayOut s a).assign = s.assign := by unfold arrayOut; simp -implicitDefEqProofs
@[simp] theorem arrayOut_paths (s : State) (a : Nat) : (arrayOut s a).paths = s.paths := by unfold arrayOut; simp -implicitDefEqProofs
@[simp] theorem switchRow_pending (s : State) (a row : Nat) : (switchRow s a row).pending = s.pending := by unfold switchRow; simp -implicitDefEqProofs
@[simp] theorem switchRow_mem (s : State) (a row : Nat) : (switchRow s a row).mem = s.mem := by unfold switchRow; simp -implicitDefEqProofs
@[simp] theorem switchRow_poison (s : State) (a row : Nat) : (switchRow s a row).poison = s.poison := by unfold switchRow; simp -implicitDefEqProofs
@[simp] theorem switchRow_queues (s : State) (a row : Nat) : (switchRow s a row).queues = s.queues := by unfold switchRow; simp -implicitDefEqProofs
@[simp] theorem switchRow_sems (s : State) (a row : Nat) : (switchRow s a row).sems = s.sems := by unfold switchRow; simp -implicitDefEqProofs
@[simp] theorem switchRow_jobs (s : State) (a row : Nat) : (switchRow s a row).jobs = s.jobs := by unfold switchRow; simp -implicitDefEqProofs
@[simp] theorem switchRow_time (s : State) (a row : Nat) : (switchRow s a row).time = s.time := by unfold switchRow; simp -implicitDefEqProofs
@[simp] theorem switchRow_ports (s : State) (a row : Nat) : (switchRow s a row).ports = s.ports := by unfold switchRow; simp -implicitDefEqProofs
@[simp] theorem switchRow_masks (s : State) (a row : Nat) : (switchRow s a row).masks = s.masks := by unfold switchRow; simp -implicitDefEqProofs
@[simp] theorem switchRow_power (s : State) (a row : Nat) : (switchRow s a row).power = s.power := by unfold switchRow; simp -implicitDefEqProofs
@[simp] theorem switchRow_ctxs (s : State) (a row : Nat) : (switchRow s a row).ctxs = s.ctxs := by unfold switchRow; simp -implicitDefEqProofs
@[simp] theorem switchRow_funcs (s : State) (a row : Nat) : (switchRow s a row).funcs = s.funcs := by unfold switchRow; simp -implicitDefEqProofs
@[simp] theorem switchRow_assign (s : State) (a row : Nat) : (switchRow s a row).assign = s.assign := by unfold switchRow; simp -implicitDefEqProofs
@[simp] theorem switchRow_paths (s : State) (a row : Nat) : (switchRow s a row).paths = s.paths := by unfold switchRow; simp -implicitDefEqProofs
@[simp] theorem doRepair_pending (s : State) (a : Nat) (row : Nat) (src : Nat) (pass : Bool) : (doRepair s a row src pass).pending = s.pending := by unfold doRepair; simp -implicitDefEqProofs
@[simp] theorem doRepair_mem (s : State) (a : Nat) (row : Nat) (src : Nat) (pass : Bool) : (doRepair s a row src pass).mem = s.mem := by unfold doRepair; simp -implicitDefEqProofs
@[simp] theorem doRepair_queues (s : State) (a : Nat) (row : Nat) (src : Nat) (pass : Bool) : (doRepair s a row src pass).queues = s.queues := by unfold doRepair; simp -implicitDefEqProofs
@[simp] theorem doRepair_sems (s : State) (a : Nat) (row : Nat) (src : Nat) (pass : Bool) : (doRepair s a row src pass).sems = s.sems := by unfold doRepair; simp -implicitDefEqProofs
@[simp] theorem doRepair_time (s : State) (a : Nat) (row : Nat) (src : Nat) (pass : Bool) : (doRepair s a row src pass).time = s.time := by unfold doRepair; simp -implicitDefEqProofs
@[simp] theorem doRepair_ports (s : State) (a : Nat) (row : Nat) (src : Nat) (pass : Bool) : (doRepair s a row src pass).ports = s.ports := by unfold doRepair; simp -implicitDefEqProofs
@[simp] theorem doRepair_power (s : State) (a : Nat) (row : Nat) (src : Nat) (pass : Bool) : (doRepair s a row src pass).power = s.power := by unfold doRepair; simp -implicitDefEqProofs
@[simp] theorem cacheLookup_pending (s : State) (die : Nat) (alloc : Bool) (line : Nat) : (cacheLookup s die alloc line).pending = s.pending := by unfold cacheLookup; simp -implicitDefEqProofs
@[simp] theorem cacheLookup_mem (s : State) (die : Nat) (alloc : Bool) (line : Nat) : (cacheLookup s die alloc line).mem = s.mem := by unfold cacheLookup; simp -implicitDefEqProofs
@[simp] theorem cacheLookup_queues (s : State) (die : Nat) (alloc : Bool) (line : Nat) : (cacheLookup s die alloc line).queues = s.queues := by unfold cacheLookup; simp -implicitDefEqProofs
@[simp] theorem cacheLookup_sems (s : State) (die : Nat) (alloc : Bool) (line : Nat) : (cacheLookup s die alloc line).sems = s.sems := by unfold cacheLookup; simp -implicitDefEqProofs
@[simp] theorem cacheLookup_jobs (s : State) (die : Nat) (alloc : Bool) (line : Nat) : (cacheLookup s die alloc line).jobs = s.jobs := by unfold cacheLookup; simp -implicitDefEqProofs
@[simp] theorem cacheLookup_time (s : State) (die : Nat) (alloc : Bool) (line : Nat) : (cacheLookup s die alloc line).time = s.time := by unfold cacheLookup; simp -implicitDefEqProofs
@[simp] theorem cacheLookup_arrays (s : State) (die : Nat) (alloc : Bool) (line : Nat) : (cacheLookup s die alloc line).arrays = s.arrays := by unfold cacheLookup; simp -implicitDefEqProofs
@[simp] theorem cacheLookup_ports (s : State) (die : Nat) (alloc : Bool) (line : Nat) : (cacheLookup s die alloc line).ports = s.ports := by unfold cacheLookup; simp -implicitDefEqProofs
@[simp] theorem cacheLookup_trust (s : State) (die : Nat) (alloc : Bool) (line : Nat) : (cacheLookup s die alloc line).trust = s.trust := by unfold cacheLookup; simp -implicitDefEqProofs
@[simp] theorem cacheLookup_power (s : State) (die : Nat) (alloc : Bool) (line : Nat) : (cacheLookup s die alloc line).power = s.power := by unfold cacheLookup; simp -implicitDefEqProofs
@[simp] theorem putTrack_pending (s : State) (t : Track) (n : Option Track) : (putTrack s t n).pending = s.pending := (rfl)
@[simp] theorem putTrack_mem (s : State) (t : Track) (n : Option Track) : (putTrack s t n).mem = s.mem := (rfl)
@[simp] theorem putTrack_queues (s : State) (t : Track) (n : Option Track) : (putTrack s t n).queues = s.queues := (rfl)
@[simp] theorem putTrack_sems (s : State) (t : Track) (n : Option Track) : (putTrack s t n).sems = s.sems := (rfl)
@[simp] theorem putTrack_jobs (s : State) (t : Track) (n : Option Track) : (putTrack s t n).jobs = s.jobs := (rfl)
@[simp] theorem putTrack_time (s : State) (t : Track) (n : Option Track) : (putTrack s t n).time = s.time := (rfl)
@[simp] theorem putTrack_arrays (s : State) (t : Track) (n : Option Track) : (putTrack s t n).arrays = s.arrays := (rfl)
@[simp] theorem putTrack_ports (s : State) (t : Track) (n : Option Track) : (putTrack s t n).ports = s.ports := (rfl)
@[simp] theorem putTrack_trust (s : State) (t : Track) (n : Option Track) : (putTrack s t n).trust = s.trust := (rfl)
@[simp] theorem putTrack_power (s : State) (t : Track) (n : Option Track) : (putTrack s t n).power = s.power := (rfl)
@[simp] theorem endWait_pending (s : State) (q : QNum) (status : Nat) (dkind : Nat) (reason : Nat) (detail : Nat) : (endWait s q status dkind reason detail).pending = s.pending := by unfold endWait; (try simp only []); (repeat' split) <;> (try rename_i h) <;> (first | (simp; done) | (simp [vWrite_ok_pending h]; done) | (simp [vWrite_ok_pending h]; split <;> simp) | (simp [vRead_ok_pending h]; done) | (simp; split <;> simp) | simp_all)
@[simp] theorem endWait_mem (s : State) (q : QNum) (status : Nat) (dkind : Nat) (reason : Nat) (detail : Nat) : (endWait s q status dkind reason detail).mem = s.mem := by unfold endWait; (try simp only []); (repeat' split) <;> (try rename_i h) <;> (first | (simp; done) | (simp [vWrite_ok_mem h]; done) | (simp [vWrite_ok_mem h]; split <;> simp) | (simp [vRead_ok_mem h]; done) | (simp; split <;> simp) | simp_all)
@[simp] theorem endWait_sems (s : State) (q : QNum) (status : Nat) (dkind : Nat) (reason : Nat) (detail : Nat) : (endWait s q status dkind reason detail).sems = s.sems := by unfold endWait; (try simp only []); (repeat' split) <;> (try rename_i h) <;> (first | (simp; done) | (simp [vWrite_ok_sems h]; done) | (simp [vWrite_ok_sems h]; split <;> simp) | (simp [vRead_ok_sems h]; done) | (simp; split <;> simp) | simp_all)
@[simp] theorem endWait_jobs (s : State) (q : QNum) (status : Nat) (dkind : Nat) (reason : Nat) (detail : Nat) : (endWait s q status dkind reason detail).jobs = s.jobs := by unfold endWait; (try simp only []); (repeat' split) <;> (try rename_i h) <;> (first | (simp; done) | (simp [vWrite_ok_jobs h]; done) | (simp [vWrite_ok_jobs h]; split <;> simp) | (simp [vRead_ok_jobs h]; done) | (simp; split <;> simp) | simp_all)
@[simp] theorem endWait_time (s : State) (q : QNum) (status : Nat) (dkind : Nat) (reason : Nat) (detail : Nat) : (endWait s q status dkind reason detail).time = s.time := by unfold endWait; (try simp only []); (repeat' split) <;> (try rename_i h) <;> (first | (simp; done) | (simp [vWrite_ok_time h]; done) | (simp [vWrite_ok_time h]; split <;> simp) | (simp [vRead_ok_time h]; done) | (simp; split <;> simp) | simp_all)
@[simp] theorem endWait_arrays (s : State) (q : QNum) (status : Nat) (dkind : Nat) (reason : Nat) (detail : Nat) : (endWait s q status dkind reason detail).arrays = s.arrays := by unfold endWait; (try simp only []); (repeat' split) <;> (try rename_i h) <;> (first | (simp; done) | (simp [vWrite_ok_arrays h]; done) | (simp [vWrite_ok_arrays h]; split <;> simp) | (simp [vRead_ok_arrays h]; done) | (simp; split <;> simp) | simp_all)
@[simp] theorem endWait_ports (s : State) (q : QNum) (status : Nat) (dkind : Nat) (reason : Nat) (detail : Nat) : (endWait s q status dkind reason detail).ports = s.ports := by unfold endWait; (try simp only []); (repeat' split) <;> (try rename_i h) <;> (first | (simp; done) | (simp [vWrite_ok_ports h]; done) | (simp [vWrite_ok_ports h]; split <;> simp) | (simp [vRead_ok_ports h]; done) | (simp; split <;> simp) | simp_all)
@[simp] theorem endWait_trust (s : State) (q : QNum) (status : Nat) (dkind : Nat) (reason : Nat) (detail : Nat) : (endWait s q status dkind reason detail).trust = s.trust := by unfold endWait; (try simp only []); (repeat' split) <;> (try rename_i h) <;> (first | (simp; done) | (simp [vWrite_ok_trust h]; done) | (simp [vWrite_ok_trust h]; split <;> simp) | (simp [vRead_ok_trust h]; done) | (simp; split <;> simp) | simp_all)
@[simp] theorem endWait_power (s : State) (q : QNum) (status : Nat) (dkind : Nat) (reason : Nat) (detail : Nat) : (endWait s q status dkind reason detail).power = s.power := by unfold endWait; (try simp only []); (repeat' split) <;> (try rename_i h) <;> (first | (simp; done) | (simp [vWrite_ok_power h]; done) | (simp [vWrite_ok_power h]; split <;> simp) | (simp [vRead_ok_power h]; done) | (simp; split <;> simp) | simp_all)
@[simp] theorem countClose_pending (s : State) (c : Closed) : (countClose s c).pending = s.pending := by unfold countClose; simp -implicitDefEqProofs
@[simp] theorem countClose_mem (s : State) (c : Closed) : (countClose s c).mem = s.mem := by unfold countClose; simp -implicitDefEqProofs
@[simp] theorem countClose_queues (s : State) (c : Closed) : (countClose s c).queues = s.queues := by unfold countClose; simp -implicitDefEqProofs
@[simp] theorem countClose_sems (s : State) (c : Closed) : (countClose s c).sems = s.sems := by unfold countClose; simp -implicitDefEqProofs
@[simp] theorem countClose_jobs (s : State) (c : Closed) : (countClose s c).jobs = s.jobs := by unfold countClose; simp -implicitDefEqProofs
@[simp] theorem countClose_time (s : State) (c : Closed) : (countClose s c).time = s.time := by unfold countClose; simp -implicitDefEqProofs
@[simp] theorem countClose_arrays (s : State) (c : Closed) : (countClose s c).arrays = s.arrays := by unfold countClose; simp -implicitDefEqProofs
@[simp] theorem countClose_ports (s : State) (c : Closed) : (countClose s c).ports = s.ports := by unfold countClose; simp -implicitDefEqProofs
@[simp] theorem countClose_trust (s : State) (c : Closed) : (countClose s c).trust = s.trust := by unfold countClose; simp -implicitDefEqProofs
@[simp] theorem countClose_power (s : State) (c : Closed) : (countClose s c).power = s.power := by unfold countClose; simp -implicitDefEqProofs
@[simp] theorem closeWindow_pending (s : State) (job : Nat) : (closeWindow s job).pending = s.pending := by unfold closeWindow; simp -implicitDefEqProofs
@[simp] theorem closeWindow_mem (s : State) (job : Nat) : (closeWindow s job).mem = s.mem := by unfold closeWindow; simp -implicitDefEqProofs
@[simp] theorem closeWindow_queues (s : State) (job : Nat) : (closeWindow s job).queues = s.queues := by unfold closeWindow; simp -implicitDefEqProofs
@[simp] theorem closeWindow_sems (s : State) (job : Nat) : (closeWindow s job).sems = s.sems := by unfold closeWindow; simp -implicitDefEqProofs
@[simp] theorem closeWindow_jobs (s : State) (job : Nat) : (closeWindow s job).jobs = s.jobs := by unfold closeWindow; simp -implicitDefEqProofs
@[simp] theorem closeWindow_time (s : State) (job : Nat) : (closeWindow s job).time = s.time := by unfold closeWindow; simp -implicitDefEqProofs
@[simp] theorem closeWindow_arrays (s : State) (job : Nat) : (closeWindow s job).arrays = s.arrays := by unfold closeWindow; simp -implicitDefEqProofs
@[simp] theorem closeWindow_ports (s : State) (job : Nat) : (closeWindow s job).ports = s.ports := by unfold closeWindow; simp -implicitDefEqProofs
@[simp] theorem closeWindow_trust (s : State) (job : Nat) : (closeWindow s job).trust = s.trust := by unfold closeWindow; simp -implicitDefEqProofs
@[simp] theorem closeWindow_power (s : State) (job : Nat) : (closeWindow s job).power = s.power := by unfold closeWindow; simp -implicitDefEqProofs
@[simp] theorem unmatched_pending (s : State) : (unmatched s).pending = s.pending := (rfl)
@[simp] theorem unmatched_mem (s : State) : (unmatched s).mem = s.mem := (rfl)
@[simp] theorem unmatched_queues (s : State) : (unmatched s).queues = s.queues := (rfl)
@[simp] theorem unmatched_sems (s : State) : (unmatched s).sems = s.sems := (rfl)
@[simp] theorem unmatched_jobs (s : State) : (unmatched s).jobs = s.jobs := (rfl)
@[simp] theorem unmatched_time (s : State) : (unmatched s).time = s.time := (rfl)
@[simp] theorem unmatched_arrays (s : State) : (unmatched s).arrays = s.arrays := (rfl)
@[simp] theorem unmatched_ports (s : State) : (unmatched s).ports = s.ports := (rfl)
@[simp] theorem unmatched_trust (s : State) : (unmatched s).trust = s.trust := (rfl)
@[simp] theorem unmatched_power (s : State) : (unmatched s).power = s.power := (rfl)
@[simp] theorem dropCtx_pending (s : State) (q : QNum) : (dropCtx s q).pending = s.pending := (rfl)
@[simp] theorem dropCtx_mem (s : State) (q : QNum) : (dropCtx s q).mem = s.mem := (rfl)
@[simp] theorem dropCtx_queues (s : State) (q : QNum) : (dropCtx s q).queues = s.queues := (rfl)
@[simp] theorem dropCtx_sems (s : State) (q : QNum) : (dropCtx s q).sems = s.sems := (rfl)
@[simp] theorem dropCtx_jobs (s : State) (q : QNum) : (dropCtx s q).jobs = s.jobs := (rfl)
@[simp] theorem dropCtx_time (s : State) (q : QNum) : (dropCtx s q).time = s.time := (rfl)
@[simp] theorem dropCtx_arrays (s : State) (q : QNum) : (dropCtx s q).arrays = s.arrays := (rfl)
@[simp] theorem dropCtx_ports (s : State) (q : QNum) : (dropCtx s q).ports = s.ports := (rfl)
@[simp] theorem dropCtx_trust (s : State) (q : QNum) : (dropCtx s q).trust = s.trust := (rfl)
@[simp] theorem dropCtx_power (s : State) (q : QNum) : (dropCtx s q).power = s.power := (rfl)
@[simp] theorem flushRound_pending (s : State) (q : QNum) (port : Port) (x3 : Nat) : (flushRound s q port x3).pending = s.pending := by fun_induction flushRound <;> simp_all
@[simp] theorem flushRound_mem (s : State) (q : QNum) (port : Port) (x3 : Nat) : (flushRound s q port x3).mem = s.mem := by fun_induction flushRound <;> simp_all
@[simp] theorem flushRound_queues (s : State) (q : QNum) (port : Port) (x3 : Nat) : (flushRound s q port x3).queues = s.queues := by fun_induction flushRound <;> simp_all
@[simp] theorem flushRound_sems (s : State) (q : QNum) (port : Port) (x3 : Nat) : (flushRound s q port x3).sems = s.sems := by fun_induction flushRound <;> simp_all
@[simp] theorem flushRound_jobs (s : State) (q : QNum) (port : Port) (x3 : Nat) : (flushRound s q port x3).jobs = s.jobs := by fun_induction flushRound <;> simp_all
@[simp] theorem flushRound_time (s : State) (q : QNum) (port : Port) (x3 : Nat) : (flushRound s q port x3).time = s.time := by fun_induction flushRound <;> simp_all
@[simp] theorem flushRound_arrays (s : State) (q : QNum) (port : Port) (x3 : Nat) : (flushRound s q port x3).arrays = s.arrays := by fun_induction flushRound <;> simp_all
@[simp] theorem flushRound_trust (s : State) (q : QNum) (port : Port) (x3 : Nat) : (flushRound s q port x3).trust = s.trust := by fun_induction flushRound <;> simp_all
@[simp] theorem flushRound_power (s : State) (q : QNum) (port : Port) (x3 : Nat) : (flushRound s q port x3).power = s.power := by fun_induction flushRound <;> simp_all
@[simp] theorem startAxis_pending (s : State) (q : QNum) (jid : Nat) (a : Nat) (word : List Byte) : (startAxis s q jid a word).pending = s.pending := by unfold startAxis; simp -implicitDefEqProofs
@[simp] theorem startAxis_mem (s : State) (q : QNum) (jid : Nat) (a : Nat) (word : List Byte) : (startAxis s q jid a word).mem = s.mem := by unfold startAxis; simp -implicitDefEqProofs
@[simp] theorem startAxis_sems (s : State) (q : QNum) (jid : Nat) (a : Nat) (word : List Byte) : (startAxis s q jid a word).sems = s.sems := by unfold startAxis; simp -implicitDefEqProofs
@[simp] theorem startAxis_time (s : State) (q : QNum) (jid : Nat) (a : Nat) (word : List Byte) : (startAxis s q jid a word).time = s.time := by unfold startAxis; simp -implicitDefEqProofs
@[simp] theorem startAxis_arrays (s : State) (q : QNum) (jid : Nat) (a : Nat) (word : List Byte) : (startAxis s q jid a word).arrays = s.arrays := by unfold startAxis; simp -implicitDefEqProofs
@[simp] theorem startAxis_trust (s : State) (q : QNum) (jid : Nat) (a : Nat) (word : List Byte) : (startAxis s q jid a word).trust = s.trust := by unfold startAxis; simp -implicitDefEqProofs
@[simp] theorem startAxis_power (s : State) (q : QNum) (jid : Nat) (a : Nat) (word : List Byte) : (startAxis s q jid a word).power = s.power := by unfold startAxis; simp -implicitDefEqProofs
@[simp] theorem jobDoorbell_pending (s : State) (j : Nat) : (jobDoorbell s j).pending = s.pending := by unfold jobDoorbell; (repeat' split) <;> simp
@[simp] theorem jobDoorbell_mem (s : State) (j : Nat) : (jobDoorbell s j).mem = s.mem := by unfold jobDoorbell; (repeat' split) <;> simp
@[simp] theorem jobDoorbell_queues (s : State) (j : Nat) : (jobDoorbell s j).queues = s.queues := by unfold jobDoorbell; (repeat' split) <;> simp
@[simp] theorem jobDoorbell_sems (s : State) (j : Nat) : (jobDoorbell s j).sems = s.sems := by unfold jobDoorbell; (repeat' split) <;> simp
@[simp] theorem jobDoorbell_time (s : State) (j : Nat) : (jobDoorbell s j).time = s.time := by unfold jobDoorbell; (repeat' split) <;> simp
@[simp] theorem jobDoorbell_arrays (s : State) (j : Nat) : (jobDoorbell s j).arrays = s.arrays := by unfold jobDoorbell; (repeat' split) <;> simp
@[simp] theorem jobDoorbell_ports (s : State) (j : Nat) : (jobDoorbell s j).ports = s.ports := by unfold jobDoorbell; (repeat' split) <;> simp
@[simp] theorem jobDoorbell_trust (s : State) (j : Nat) : (jobDoorbell s j).trust = s.trust := by unfold jobDoorbell; (repeat' split) <;> simp
@[simp] theorem jobDoorbell_power (s : State) (j : Nat) : (jobDoorbell s j).power = s.power := by unfold jobDoorbell; (repeat' split) <;> simp
@[simp] theorem levelSet_pending (s : State) (f : Nat) (v : Nat) : (levelSet s f v).pending = s.pending := by unfold levelSet; simp -implicitDefEqProofs
@[simp] theorem levelSet_mem (s : State) (f : Nat) (v : Nat) : (levelSet s f v).mem = s.mem := by unfold levelSet; simp -implicitDefEqProofs
@[simp] theorem levelSet_queues (s : State) (f : Nat) (v : Nat) : (levelSet s f v).queues = s.queues := by unfold levelSet; simp -implicitDefEqProofs
@[simp] theorem levelSet_sems (s : State) (f : Nat) (v : Nat) : (levelSet s f v).sems = s.sems := by unfold levelSet; simp -implicitDefEqProofs
@[simp] theorem levelSet_jobs (s : State) (f : Nat) (v : Nat) : (levelSet s f v).jobs = s.jobs := by unfold levelSet; simp -implicitDefEqProofs
@[simp] theorem levelSet_time (s : State) (f : Nat) (v : Nat) : (levelSet s f v).time = s.time := by unfold levelSet; simp -implicitDefEqProofs
@[simp] theorem levelSet_arrays (s : State) (f : Nat) (v : Nat) : (levelSet s f v).arrays = s.arrays := by unfold levelSet; simp -implicitDefEqProofs
@[simp] theorem levelSet_ports (s : State) (f : Nat) (v : Nat) : (levelSet s f v).ports = s.ports := by unfold levelSet; simp -implicitDefEqProofs
@[simp] theorem levelSet_trust (s : State) (f : Nat) (v : Nat) : (levelSet s f v).trust = s.trust := by unfold levelSet; simp -implicitDefEqProofs
@[simp] theorem levelSet_power (s : State) (f : Nat) (v : Nat) : (levelSet s f v).power = s.power := by unfold levelSet; simp -implicitDefEqProofs
@[simp] theorem maskVector_pending (s : State) (f : Nat) (v : Nat) : (maskVector s f v).pending = s.pending := (rfl)
@[simp] theorem maskVector_mem (s : State) (f : Nat) (v : Nat) : (maskVector s f v).mem = s.mem := (rfl)
@[simp] theorem maskVector_queues (s : State) (f : Nat) (v : Nat) : (maskVector s f v).queues = s.queues := (rfl)
@[simp] theorem maskVector_sems (s : State) (f : Nat) (v : Nat) : (maskVector s f v).sems = s.sems := (rfl)
@[simp] theorem maskVector_jobs (s : State) (f : Nat) (v : Nat) : (maskVector s f v).jobs = s.jobs := (rfl)
@[simp] theorem maskVector_time (s : State) (f : Nat) (v : Nat) : (maskVector s f v).time = s.time := (rfl)
@[simp] theorem maskVector_arrays (s : State) (f : Nat) (v : Nat) : (maskVector s f v).arrays = s.arrays := (rfl)
@[simp] theorem maskVector_ports (s : State) (f : Nat) (v : Nat) : (maskVector s f v).ports = s.ports := (rfl)
@[simp] theorem maskVector_trust (s : State) (f : Nat) (v : Nat) : (maskVector s f v).trust = s.trust := (rfl)
@[simp] theorem maskVector_power (s : State) (f : Nat) (v : Nat) : (maskVector s f v).power = s.power := (rfl)
@[simp] theorem unmaskVector_pending (s : State) (f : Nat) (v : Nat) : (unmaskVector s f v).pending = s.pending := by unfold unmaskVector; simp -implicitDefEqProofs
@[simp] theorem unmaskVector_mem (s : State) (f : Nat) (v : Nat) : (unmaskVector s f v).mem = s.mem := by unfold unmaskVector; simp -implicitDefEqProofs
@[simp] theorem unmaskVector_queues (s : State) (f : Nat) (v : Nat) : (unmaskVector s f v).queues = s.queues := by unfold unmaskVector; simp -implicitDefEqProofs
@[simp] theorem unmaskVector_sems (s : State) (f : Nat) (v : Nat) : (unmaskVector s f v).sems = s.sems := by unfold unmaskVector; simp -implicitDefEqProofs
@[simp] theorem unmaskVector_jobs (s : State) (f : Nat) (v : Nat) : (unmaskVector s f v).jobs = s.jobs := by unfold unmaskVector; simp -implicitDefEqProofs
@[simp] theorem unmaskVector_time (s : State) (f : Nat) (v : Nat) : (unmaskVector s f v).time = s.time := by unfold unmaskVector; simp -implicitDefEqProofs
@[simp] theorem unmaskVector_arrays (s : State) (f : Nat) (v : Nat) : (unmaskVector s f v).arrays = s.arrays := by unfold unmaskVector; simp -implicitDefEqProofs
@[simp] theorem unmaskVector_ports (s : State) (f : Nat) (v : Nat) : (unmaskVector s f v).ports = s.ports := by unfold unmaskVector; simp -implicitDefEqProofs
@[simp] theorem unmaskVector_trust (s : State) (f : Nat) (v : Nat) : (unmaskVector s f v).trust = s.trust := by unfold unmaskVector; simp -implicitDefEqProofs
@[simp] theorem unmaskVector_power (s : State) (f : Nat) (v : Nat) : (unmaskVector s f v).power = s.power := by unfold unmaskVector; simp -implicitDefEqProofs
@[simp] theorem resizeBar2_pending (log2 : BitVec 6) (s : State) (f : Nat) : (resizeBar2 log2 s f).pending = s.pending := (rfl)
@[simp] theorem resizeBar2_mem (log2 : BitVec 6) (s : State) (f : Nat) : (resizeBar2 log2 s f).mem = s.mem := (rfl)
@[simp] theorem resizeBar2_queues (log2 : BitVec 6) (s : State) (f : Nat) : (resizeBar2 log2 s f).queues = s.queues := (rfl)
@[simp] theorem resizeBar2_sems (log2 : BitVec 6) (s : State) (f : Nat) : (resizeBar2 log2 s f).sems = s.sems := (rfl)
@[simp] theorem resizeBar2_jobs (log2 : BitVec 6) (s : State) (f : Nat) : (resizeBar2 log2 s f).jobs = s.jobs := (rfl)
@[simp] theorem resizeBar2_time (log2 : BitVec 6) (s : State) (f : Nat) : (resizeBar2 log2 s f).time = s.time := (rfl)
@[simp] theorem resizeBar2_arrays (log2 : BitVec 6) (s : State) (f : Nat) : (resizeBar2 log2 s f).arrays = s.arrays := (rfl)
@[simp] theorem resizeBar2_ports (log2 : BitVec 6) (s : State) (f : Nat) : (resizeBar2 log2 s f).ports = s.ports := (rfl)
@[simp] theorem resizeBar2_trust (log2 : BitVec 6) (s : State) (f : Nat) : (resizeBar2 log2 s f).trust = s.trust := (rfl)
@[simp] theorem resizeBar2_power (log2 : BitVec 6) (s : State) (f : Nat) : (resizeBar2 log2 s f).power = s.power := (rfl)
@[simp] theorem installDesc_pending (s : State) (job : Nat) (h : Nat) (d : Desc) : (installDesc s job h d).pending = s.pending := by unfold installDesc; simp -implicitDefEqProofs
@[simp] theorem installDesc_mem (s : State) (job : Nat) (h : Nat) (d : Desc) : (installDesc s job h d).mem = s.mem := by unfold installDesc; simp -implicitDefEqProofs
@[simp] theorem installDesc_queues (s : State) (job : Nat) (h : Nat) (d : Desc) : (installDesc s job h d).queues = s.queues := by unfold installDesc; simp -implicitDefEqProofs
@[simp] theorem installDesc_sems (s : State) (job : Nat) (h : Nat) (d : Desc) : (installDesc s job h d).sems = s.sems := by unfold installDesc; simp -implicitDefEqProofs
@[simp] theorem installDesc_time (s : State) (job : Nat) (h : Nat) (d : Desc) : (installDesc s job h d).time = s.time := by unfold installDesc; simp -implicitDefEqProofs
@[simp] theorem installDesc_arrays (s : State) (job : Nat) (h : Nat) (d : Desc) : (installDesc s job h d).arrays = s.arrays := by unfold installDesc; simp -implicitDefEqProofs
@[simp] theorem installDesc_ports (s : State) (job : Nat) (h : Nat) (d : Desc) : (installDesc s job h d).ports = s.ports := by unfold installDesc; simp -implicitDefEqProofs
@[simp] theorem installDesc_trust (s : State) (job : Nat) (h : Nat) (d : Desc) : (installDesc s job h d).trust = s.trust := by unfold installDesc; simp -implicitDefEqProofs
@[simp] theorem installDesc_power (s : State) (job : Nat) (h : Nat) (d : Desc) : (installDesc s job h d).power = s.power := by unfold installDesc; simp -implicitDefEqProofs
@[simp] theorem descOutcome_pending (s : State) (p : Path) (st : Nat) (field : Nat) (mayAlias : Bool) : (descOutcome s p st field mayAlias).2.pending = s.pending := (rfl)
@[simp] theorem descOutcome_mem (s : State) (p : Path) (st : Nat) (field : Nat) (mayAlias : Bool) : (descOutcome s p st field mayAlias).2.mem = s.mem := (rfl)
@[simp] theorem descOutcome_queues (s : State) (p : Path) (st : Nat) (field : Nat) (mayAlias : Bool) : (descOutcome s p st field mayAlias).2.queues = s.queues := (rfl)
@[simp] theorem descOutcome_sems (s : State) (p : Path) (st : Nat) (field : Nat) (mayAlias : Bool) : (descOutcome s p st field mayAlias).2.sems = s.sems := (rfl)
@[simp] theorem descOutcome_jobs (s : State) (p : Path) (st : Nat) (field : Nat) (mayAlias : Bool) : (descOutcome s p st field mayAlias).2.jobs = s.jobs := (rfl)
@[simp] theorem descOutcome_time (s : State) (p : Path) (st : Nat) (field : Nat) (mayAlias : Bool) : (descOutcome s p st field mayAlias).2.time = s.time := (rfl)
@[simp] theorem descOutcome_arrays (s : State) (p : Path) (st : Nat) (field : Nat) (mayAlias : Bool) : (descOutcome s p st field mayAlias).2.arrays = s.arrays := (rfl)
@[simp] theorem descOutcome_ports (s : State) (p : Path) (st : Nat) (field : Nat) (mayAlias : Bool) : (descOutcome s p st field mayAlias).2.ports = s.ports := (rfl)
@[simp] theorem descOutcome_trust (s : State) (p : Path) (st : Nat) (field : Nat) (mayAlias : Bool) : (descOutcome s p st field mayAlias).2.trust = s.trust := (rfl)
@[simp] theorem descOutcome_power (s : State) (p : Path) (st : Nat) (field : Nat) (mayAlias : Bool) : (descOutcome s p st field mayAlias).2.power = s.power := (rfl)
@[simp] theorem descDestroy_pending (s : State) (p : Path) (data : List Byte) : (descDestroy s p data).2.pending = s.pending := by unfold descDestroy; (try simp only []); (repeat' split) <;> (try rename_i h) <;> (first | (simp; done) | (simp [vWrite_ok_pending h]; done) | (simp [vWrite_ok_pending h]; split <;> simp) | (simp [vRead_ok_pending h]; done) | (simp; split <;> simp) | simp_all)
@[simp] theorem descDestroy_mem (s : State) (p : Path) (data : List Byte) : (descDestroy s p data).2.mem = s.mem := by unfold descDestroy; (try simp only []); (repeat' split) <;> (try rename_i h) <;> (first | (simp; done) | (simp [vWrite_ok_mem h]; done) | (simp [vWrite_ok_mem h]; split <;> simp) | (simp [vRead_ok_mem h]; done) | (simp; split <;> simp) | simp_all)
@[simp] theorem descDestroy_queues (s : State) (p : Path) (data : List Byte) : (descDestroy s p data).2.queues = s.queues := by unfold descDestroy; (try simp only []); (repeat' split) <;> (try rename_i h) <;> (first | (simp; done) | (simp [vWrite_ok_queues h]; done) | (simp [vWrite_ok_queues h]; split <;> simp) | (simp [vRead_ok_queues h]; done) | (simp; split <;> simp) | simp_all)
@[simp] theorem descDestroy_sems (s : State) (p : Path) (data : List Byte) : (descDestroy s p data).2.sems = s.sems := by unfold descDestroy; (try simp only []); (repeat' split) <;> (try rename_i h) <;> (first | (simp; done) | (simp [vWrite_ok_sems h]; done) | (simp [vWrite_ok_sems h]; split <;> simp) | (simp [vRead_ok_sems h]; done) | (simp; split <;> simp) | simp_all)
@[simp] theorem descDestroy_time (s : State) (p : Path) (data : List Byte) : (descDestroy s p data).2.time = s.time := by unfold descDestroy; (try simp only []); (repeat' split) <;> (try rename_i h) <;> (first | (simp; done) | (simp [vWrite_ok_time h]; done) | (simp [vWrite_ok_time h]; split <;> simp) | (simp [vRead_ok_time h]; done) | (simp; split <;> simp) | simp_all)
@[simp] theorem descDestroy_arrays (s : State) (p : Path) (data : List Byte) : (descDestroy s p data).2.arrays = s.arrays := by unfold descDestroy; (try simp only []); (repeat' split) <;> (try rename_i h) <;> (first | (simp; done) | (simp [vWrite_ok_arrays h]; done) | (simp [vWrite_ok_arrays h]; split <;> simp) | (simp [vRead_ok_arrays h]; done) | (simp; split <;> simp) | simp_all)
@[simp] theorem descDestroy_ports (s : State) (p : Path) (data : List Byte) : (descDestroy s p data).2.ports = s.ports := by unfold descDestroy; (try simp only []); (repeat' split) <;> (try rename_i h) <;> (first | (simp; done) | (simp [vWrite_ok_ports h]; done) | (simp [vWrite_ok_ports h]; split <;> simp) | (simp [vRead_ok_ports h]; done) | (simp; split <;> simp) | simp_all)
@[simp] theorem descDestroy_trust (s : State) (p : Path) (data : List Byte) : (descDestroy s p data).2.trust = s.trust := by unfold descDestroy; (try simp only []); (repeat' split) <;> (try rename_i h) <;> (first | (simp; done) | (simp [vWrite_ok_trust h]; done) | (simp [vWrite_ok_trust h]; split <;> simp) | (simp [vRead_ok_trust h]; done) | (simp; split <;> simp) | simp_all)
@[simp] theorem descDestroy_power (s : State) (p : Path) (data : List Byte) : (descDestroy s p data).2.power = s.power := by unfold descDestroy; (try simp only []); (repeat' split) <;> (try rename_i h) <;> (first | (simp; done) | (simp [vWrite_ok_power h]; done) | (simp [vWrite_ok_power h]; split <;> simp) | (simp [vRead_ok_power h]; done) | (simp; split <;> simp) | simp_all)
@[simp] theorem queueCreateAs_pending (s : State) (f : Nat) (loader : Bool) (d : List Byte) : (queueCreateAs s f loader d).2.pending = s.pending := by unfold queueCreateAs; (try simp only []); (repeat' split) <;> (try rename_i h) <;> (first | (simp; done) | (simp [vWrite_ok_pending h]; done) | (simp [vWrite_ok_pending h]; split <;> simp) | (simp [vRead_ok_pending h]; done) | (simp; split <;> simp) | simp_all)
@[simp] theorem queueCreateAs_mem (s : State) (f : Nat) (loader : Bool) (d : List Byte) : (queueCreateAs s f loader d).2.mem = s.mem := by unfold queueCreateAs; (try simp only []); (repeat' split) <;> (try rename_i h) <;> (first | (simp; done) | (simp [vWrite_ok_mem h]; done) | (simp [vWrite_ok_mem h]; split <;> simp) | (simp [vRead_ok_mem h]; done) | (simp; split <;> simp) | simp_all)
@[simp] theorem queueCreateAs_sems (s : State) (f : Nat) (loader : Bool) (d : List Byte) : (queueCreateAs s f loader d).2.sems = s.sems := by unfold queueCreateAs; (try simp only []); (repeat' split) <;> (try rename_i h) <;> (first | (simp; done) | (simp [vWrite_ok_sems h]; done) | (simp [vWrite_ok_sems h]; split <;> simp) | (simp [vRead_ok_sems h]; done) | (simp; split <;> simp) | simp_all)
@[simp] theorem queueCreateAs_jobs (s : State) (f : Nat) (loader : Bool) (d : List Byte) : (queueCreateAs s f loader d).2.jobs = s.jobs := by unfold queueCreateAs; (try simp only []); (repeat' split) <;> (try rename_i h) <;> (first | (simp; done) | (simp [vWrite_ok_jobs h]; done) | (simp [vWrite_ok_jobs h]; split <;> simp) | (simp [vRead_ok_jobs h]; done) | (simp; split <;> simp) | simp_all)
@[simp] theorem queueCreateAs_time (s : State) (f : Nat) (loader : Bool) (d : List Byte) : (queueCreateAs s f loader d).2.time = s.time := by unfold queueCreateAs; (try simp only []); (repeat' split) <;> (try rename_i h) <;> (first | (simp; done) | (simp [vWrite_ok_time h]; done) | (simp [vWrite_ok_time h]; split <;> simp) | (simp [vRead_ok_time h]; done) | (simp; split <;> simp) | simp_all)
@[simp] theorem queueCreateAs_arrays (s : State) (f : Nat) (loader : Bool) (d : List Byte) : (queueCreateAs s f loader d).2.arrays = s.arrays := by unfold queueCreateAs; (try simp only []); (repeat' split) <;> (try rename_i h) <;> (first | (simp; done) | (simp [vWrite_ok_arrays h]; done) | (simp [vWrite_ok_arrays h]; split <;> simp) | (simp [vRead_ok_arrays h]; done) | (simp; split <;> simp) | simp_all)
@[simp] theorem queueCreateAs_ports (s : State) (f : Nat) (loader : Bool) (d : List Byte) : (queueCreateAs s f loader d).2.ports = s.ports := by unfold queueCreateAs; (try simp only []); (repeat' split) <;> (try rename_i h) <;> (first | (simp; done) | (simp [vWrite_ok_ports h]; done) | (simp [vWrite_ok_ports h]; split <;> simp) | (simp [vRead_ok_ports h]; done) | (simp; split <;> simp) | simp_all)
@[simp] theorem queueCreateAs_trust (s : State) (f : Nat) (loader : Bool) (d : List Byte) : (queueCreateAs s f loader d).2.trust = s.trust := by unfold queueCreateAs; (try simp only []); (repeat' split) <;> (try rename_i h) <;> (first | (simp; done) | (simp [vWrite_ok_trust h]; done) | (simp [vWrite_ok_trust h]; split <;> simp) | (simp [vRead_ok_trust h]; done) | (simp; split <;> simp) | simp_all)
@[simp] theorem queueCreateAs_power (s : State) (f : Nat) (loader : Bool) (d : List Byte) : (queueCreateAs s f loader d).2.power = s.power := by unfold queueCreateAs; (try simp only []); (repeat' split) <;> (try rename_i h) <;> (first | (simp; done) | (simp [vWrite_ok_power h]; done) | (simp [vWrite_ok_power h]; split <;> simp) | (simp [vRead_ok_power h]; done) | (simp; split <;> simp) | simp_all)
@[simp] theorem queueCreateWrite_pending (s : State) (p : Path) (d : List Byte) : (queueCreateWrite s p d).2.pending = s.pending := by unfold queueCreateWrite; (try simp only []); (repeat' split) <;> (try rename_i h) <;> (first | (simp; done) | (simp [vWrite_ok_pending h]; done) | (simp [vWrite_ok_pending h]; split <;> simp) | (simp [vRead_ok_pending h]; done) | (simp; split <;> simp) | simp_all)
@[simp] theorem queueCreateWrite_mem (s : State) (p : Path) (d : List Byte) : (queueCreateWrite s p d).2.mem = s.mem := by unfold queueCreateWrite; (try simp only []); (repeat' split) <;> (try rename_i h) <;> (first | (simp; done) | (simp [vWrite_ok_mem h]; done) | (simp [vWrite_ok_mem h]; split <;> simp) | (simp [vRead_ok_mem h]; done) | (simp; split <;> simp) | simp_all)
@[simp] theorem queueCreateWrite_sems (s : State) (p : Path) (d : List Byte) : (queueCreateWrite s p d).2.sems = s.sems := by unfold queueCreateWrite; (try simp only []); (repeat' split) <;> (try rename_i h) <;> (first | (simp; done) | (simp [vWrite_ok_sems h]; done) | (simp [vWrite_ok_sems h]; split <;> simp) | (simp [vRead_ok_sems h]; done) | (simp; split <;> simp) | simp_all)
@[simp] theorem queueCreateWrite_jobs (s : State) (p : Path) (d : List Byte) : (queueCreateWrite s p d).2.jobs = s.jobs := by unfold queueCreateWrite; (try simp only []); (repeat' split) <;> (try rename_i h) <;> (first | (simp; done) | (simp [vWrite_ok_jobs h]; done) | (simp [vWrite_ok_jobs h]; split <;> simp) | (simp [vRead_ok_jobs h]; done) | (simp; split <;> simp) | simp_all)
@[simp] theorem queueCreateWrite_time (s : State) (p : Path) (d : List Byte) : (queueCreateWrite s p d).2.time = s.time := by unfold queueCreateWrite; (try simp only []); (repeat' split) <;> (try rename_i h) <;> (first | (simp; done) | (simp [vWrite_ok_time h]; done) | (simp [vWrite_ok_time h]; split <;> simp) | (simp [vRead_ok_time h]; done) | (simp; split <;> simp) | simp_all)
@[simp] theorem queueCreateWrite_arrays (s : State) (p : Path) (d : List Byte) : (queueCreateWrite s p d).2.arrays = s.arrays := by unfold queueCreateWrite; (try simp only []); (repeat' split) <;> (try rename_i h) <;> (first | (simp; done) | (simp [vWrite_ok_arrays h]; done) | (simp [vWrite_ok_arrays h]; split <;> simp) | (simp [vRead_ok_arrays h]; done) | (simp; split <;> simp) | simp_all)
@[simp] theorem queueCreateWrite_ports (s : State) (p : Path) (d : List Byte) : (queueCreateWrite s p d).2.ports = s.ports := by unfold queueCreateWrite; (try simp only []); (repeat' split) <;> (try rename_i h) <;> (first | (simp; done) | (simp [vWrite_ok_ports h]; done) | (simp [vWrite_ok_ports h]; split <;> simp) | (simp [vRead_ok_ports h]; done) | (simp; split <;> simp) | simp_all)
@[simp] theorem queueCreateWrite_trust (s : State) (p : Path) (d : List Byte) : (queueCreateWrite s p d).2.trust = s.trust := by unfold queueCreateWrite; (try simp only []); (repeat' split) <;> (try rename_i h) <;> (first | (simp; done) | (simp [vWrite_ok_trust h]; done) | (simp [vWrite_ok_trust h]; split <;> simp) | (simp [vRead_ok_trust h]; done) | (simp; split <;> simp) | simp_all)
@[simp] theorem queueCreateWrite_power (s : State) (p : Path) (d : List Byte) : (queueCreateWrite s p d).2.power = s.power := by unfold queueCreateWrite; (try simp only []); (repeat' split) <;> (try rename_i h) <;> (first | (simp; done) | (simp [vWrite_ok_power h]; done) | (simp [vWrite_ok_power h]; split <;> simp) | (simp [vRead_ok_power h]; done) | (simp; split <;> simp) | simp_all)
@[simp] theorem resumeAs_pending (s : State) (p : Path) (q : QNum) : (resumeAs s p q).2.pending = s.pending := by unfold resumeAs; (try simp only []); (repeat' split) <;> (try rename_i h) <;> (first | (simp; done) | (simp [vWrite_ok_pending h]; done) | (simp [vWrite_ok_pending h]; split <;> simp) | (simp [vRead_ok_pending h]; done) | (simp; split <;> simp) | simp_all)
@[simp] theorem resumeAs_mem (s : State) (p : Path) (q : QNum) : (resumeAs s p q).2.mem = s.mem := by unfold resumeAs; (try simp only []); (repeat' split) <;> (try rename_i h) <;> (first | (simp; done) | (simp [vWrite_ok_mem h]; done) | (simp [vWrite_ok_mem h]; split <;> simp) | (simp [vRead_ok_mem h]; done) | (simp; split <;> simp) | simp_all)
@[simp] theorem resumeAs_sems (s : State) (p : Path) (q : QNum) : (resumeAs s p q).2.sems = s.sems := by unfold resumeAs; (try simp only []); (repeat' split) <;> (try rename_i h) <;> (first | (simp; done) | (simp [vWrite_ok_sems h]; done) | (simp [vWrite_ok_sems h]; split <;> simp) | (simp [vRead_ok_sems h]; done) | (simp; split <;> simp) | simp_all)
@[simp] theorem resumeAs_jobs (s : State) (p : Path) (q : QNum) : (resumeAs s p q).2.jobs = s.jobs := by unfold resumeAs; (try simp only []); (repeat' split) <;> (try rename_i h) <;> (first | (simp; done) | (simp [vWrite_ok_jobs h]; done) | (simp [vWrite_ok_jobs h]; split <;> simp) | (simp [vRead_ok_jobs h]; done) | (simp; split <;> simp) | simp_all)
@[simp] theorem resumeAs_time (s : State) (p : Path) (q : QNum) : (resumeAs s p q).2.time = s.time := by unfold resumeAs; (try simp only []); (repeat' split) <;> (try rename_i h) <;> (first | (simp; done) | (simp [vWrite_ok_time h]; done) | (simp [vWrite_ok_time h]; split <;> simp) | (simp [vRead_ok_time h]; done) | (simp; split <;> simp) | simp_all)
@[simp] theorem resumeAs_arrays (s : State) (p : Path) (q : QNum) : (resumeAs s p q).2.arrays = s.arrays := by unfold resumeAs; (try simp only []); (repeat' split) <;> (try rename_i h) <;> (first | (simp; done) | (simp [vWrite_ok_arrays h]; done) | (simp [vWrite_ok_arrays h]; split <;> simp) | (simp [vRead_ok_arrays h]; done) | (simp; split <;> simp) | simp_all)
@[simp] theorem resumeAs_ports (s : State) (p : Path) (q : QNum) : (resumeAs s p q).2.ports = s.ports := by unfold resumeAs; (try simp only []); (repeat' split) <;> (try rename_i h) <;> (first | (simp; done) | (simp [vWrite_ok_ports h]; done) | (simp [vWrite_ok_ports h]; split <;> simp) | (simp [vRead_ok_ports h]; done) | (simp; split <;> simp) | simp_all)
@[simp] theorem resumeAs_trust (s : State) (p : Path) (q : QNum) : (resumeAs s p q).2.trust = s.trust := by unfold resumeAs; (try simp only []); (repeat' split) <;> (try rename_i h) <;> (first | (simp; done) | (simp [vWrite_ok_trust h]; done) | (simp [vWrite_ok_trust h]; split <;> simp) | (simp [vRead_ok_trust h]; done) | (simp; split <;> simp) | simp_all)
@[simp] theorem resumeAs_power (s : State) (p : Path) (q : QNum) : (resumeAs s p q).2.power = s.power := by unfold resumeAs; (try simp only []); (repeat' split) <;> (try rename_i h) <;> (first | (simp; done) | (simp [vWrite_ok_power h]; done) | (simp [vWrite_ok_power h]; split <;> simp) | (simp [vRead_ok_power h]; done) | (simp; split <;> simp) | simp_all)
@[simp] theorem latchQuiet_pending (s : State) (q : QNum) : (latchQuiet s q).pending = s.pending := by unfold latchQuiet; simp only []; (repeat' split) <;> (first | rfl | simp)
@[simp] theorem latchQuiet_mem (s : State) (q : QNum) : (latchQuiet s q).mem = s.mem := by unfold latchQuiet; simp only []; (repeat' split) <;> (first | rfl | simp)
@[simp] theorem latchQuiet_poison (s : State) (q : QNum) : (latchQuiet s q).poison = s.poison := by unfold latchQuiet; simp only []; (repeat' split) <;> (first | rfl | simp)
@[simp] theorem latchQuiet_queues (s : State) (q : QNum) : (latchQuiet s q).queues = s.queues := by unfold latchQuiet; simp only []; (repeat' split) <;> (first | rfl | simp)
@[simp] theorem latchQuiet_sems (s : State) (q : QNum) : (latchQuiet s q).sems = s.sems := by unfold latchQuiet; simp only []; (repeat' split) <;> (first | rfl | simp)
@[simp] theorem latchQuiet_jobs (s : State) (q : QNum) : (latchQuiet s q).jobs = s.jobs := by unfold latchQuiet; simp only []; (repeat' split) <;> (first | rfl | simp)
@[simp] theorem latchQuiet_time (s : State) (q : QNum) : (latchQuiet s q).time = s.time := by unfold latchQuiet; simp only []; (repeat' split) <;> (first | rfl | simp)
@[simp] theorem latchQuiet_ports (s : State) (q : QNum) : (latchQuiet s q).ports = s.ports := by unfold latchQuiet; simp only []; (repeat' split) <;> (first | rfl | simp)
@[simp] theorem latchQuiet_masks (s : State) (q : QNum) : (latchQuiet s q).masks = s.masks := by unfold latchQuiet; simp only []; (repeat' split) <;> (first | rfl | simp)
@[simp] theorem latchQuiet_trust (s : State) (q : QNum) : (latchQuiet s q).trust = s.trust := by unfold latchQuiet; simp only []; (repeat' split) <;> (first | rfl | simp)
@[simp] theorem latchQuiet_power (s : State) (q : QNum) : (latchQuiet s q).power = s.power := by unfold latchQuiet; simp only []; (repeat' split) <;> (first | rfl | simp)
@[simp] theorem latchQuiet_ctxs (s : State) (q : QNum) : (latchQuiet s q).ctxs = s.ctxs := by unfold latchQuiet; simp only []; (repeat' split) <;> (first | rfl | simp)
@[simp] theorem latchQuiet_funcs (s : State) (q : QNum) : (latchQuiet s q).funcs = s.funcs := by unfold latchQuiet; simp only []; (repeat' split) <;> (first | rfl | simp)
@[simp] theorem latchQuiet_assign (s : State) (q : QNum) : (latchQuiet s q).assign = s.assign := by unfold latchQuiet; simp only []; (repeat' split) <;> (first | rfl | simp)
@[simp] theorem latchQuiet_paths (s : State) (q : QNum) : (latchQuiet s q).paths = s.paths := by unfold latchQuiet; simp only []; (repeat' split) <;> (first | rfl | simp)
@[simp] theorem flushOne_pending (s : State) (q : QNum) : (flushOne s q).1.pending = s.pending := by unfold flushOne; (try simp only []); (repeat' split) <;> (try rename_i h) <;> (first | (simp; done) | (simp [vWrite_ok_pending h]; done) | (simp [vWrite_ok_pending h]; split <;> simp) | (simp [vRead_ok_pending h]; done) | (simp; split <;> simp) | simp_all)
@[simp] theorem flushOne_sems (s : State) (q : QNum) : (flushOne s q).1.sems = s.sems := by unfold flushOne; (try simp only []); (repeat' split) <;> (try rename_i h) <;> (first | (simp; done) | (simp [vWrite_ok_sems h]; done) | (simp [vWrite_ok_sems h]; split <;> simp) | (simp [vRead_ok_sems h]; done) | (simp; split <;> simp) | simp_all)
@[simp] theorem flushOne_jobs (s : State) (q : QNum) : (flushOne s q).1.jobs = s.jobs := by unfold flushOne; (try simp only []); (repeat' split) <;> (try rename_i h) <;> (first | (simp; done) | (simp [vWrite_ok_jobs h]; done) | (simp [vWrite_ok_jobs h]; split <;> simp) | (simp [vRead_ok_jobs h]; done) | (simp; split <;> simp) | simp_all)
@[simp] theorem flushOne_time (s : State) (q : QNum) : (flushOne s q).1.time = s.time := by unfold flushOne; (try simp only []); (repeat' split) <;> (try rename_i h) <;> (first | (simp; done) | (simp [vWrite_ok_time h]; done) | (simp [vWrite_ok_time h]; split <;> simp) | (simp [vRead_ok_time h]; done) | (simp; split <;> simp) | simp_all)
@[simp] theorem flushOne_arrays (s : State) (q : QNum) : (flushOne s q).1.arrays = s.arrays := by unfold flushOne; (try simp only []); (repeat' split) <;> (try rename_i h) <;> (first | (simp; done) | (simp [vWrite_ok_arrays h]; done) | (simp [vWrite_ok_arrays h]; split <;> simp) | (simp [vRead_ok_arrays h]; done) | (simp; split <;> simp) | simp_all)
@[simp] theorem flushOne_ports (s : State) (q : QNum) : (flushOne s q).1.ports = s.ports := by unfold flushOne; (try simp only []); (repeat' split) <;> (try rename_i h) <;> (first | (simp; done) | (simp [vWrite_ok_ports h]; done) | (simp [vWrite_ok_ports h]; split <;> simp) | (simp [vRead_ok_ports h]; done) | (simp; split <;> simp) | simp_all)
@[simp] theorem flushOne_trust (s : State) (q : QNum) : (flushOne s q).1.trust = s.trust := by unfold flushOne; (try simp only []); (repeat' split) <;> (try rename_i h) <;> (first | (simp; done) | (simp [vWrite_ok_trust h]; done) | (simp [vWrite_ok_trust h]; split <;> simp) | (simp [vRead_ok_trust h]; done) | (simp; split <;> simp) | simp_all)
@[simp] theorem flushOne_power (s : State) (q : QNum) : (flushOne s q).1.power = s.power := by unfold flushOne; (try simp only []); (repeat' split) <;> (try rename_i h) <;> (first | (simp; done) | (simp [vWrite_ok_power h]; done) | (simp [vWrite_ok_power h]; split <;> simp) | (simp [vRead_ok_power h]; done) | (simp; split <;> simp) | simp_all)
@[simp] theorem freeQueue_pending (s : State) (q : QNum) : (freeQueue s q).pending = s.pending := (rfl)
@[simp] theorem freeQueue_mem (s : State) (q : QNum) : (freeQueue s q).mem = s.mem := (rfl)
@[simp] theorem freeQueue_sems (s : State) (q : QNum) : (freeQueue s q).sems = s.sems := (rfl)
@[simp] theorem freeQueue_jobs (s : State) (q : QNum) : (freeQueue s q).jobs = s.jobs := (rfl)
@[simp] theorem freeQueue_time (s : State) (q : QNum) : (freeQueue s q).time = s.time := (rfl)
@[simp] theorem freeQueue_arrays (s : State) (q : QNum) : (freeQueue s q).arrays = s.arrays := (rfl)
@[simp] theorem freeQueue_ports (s : State) (q : QNum) : (freeQueue s q).ports = s.ports := (rfl)
@[simp] theorem freeQueue_trust (s : State) (q : QNum) : (freeQueue s q).trust = s.trust := (rfl)
@[simp] theorem freeQueue_power (s : State) (q : QNum) : (freeQueue s q).power = s.power := (rfl)
@[simp] theorem destroyAs_pending (s : State) (p : Path) (q : QNum) : (destroyAs s p q).2.pending = s.pending := by unfold destroyAs; (try simp only []); (repeat' split) <;> (try rename_i h) <;> (first | (simp; done) | (simp [vWrite_ok_pending h]; done) | (simp [vWrite_ok_pending h]; split <;> simp) | (simp [vRead_ok_pending h]; done) | (simp; split <;> simp) | simp_all)
@[simp] theorem destroyAs_mem (s : State) (p : Path) (q : QNum) : (destroyAs s p q).2.mem = s.mem := by unfold destroyAs; (try simp only []); (repeat' split) <;> (try rename_i h) <;> (first | (simp; done) | (simp [vWrite_ok_mem h]; done) | (simp [vWrite_ok_mem h]; split <;> simp) | (simp [vRead_ok_mem h]; done) | (simp; split <;> simp) | simp_all)
@[simp] theorem destroyAs_sems (s : State) (p : Path) (q : QNum) : (destroyAs s p q).2.sems = s.sems := by unfold destroyAs; (try simp only []); (repeat' split) <;> (try rename_i h) <;> (first | (simp; done) | (simp [vWrite_ok_sems h]; done) | (simp [vWrite_ok_sems h]; split <;> simp) | (simp [vRead_ok_sems h]; done) | (simp; split <;> simp) | simp_all)
@[simp] theorem destroyAs_jobs (s : State) (p : Path) (q : QNum) : (destroyAs s p q).2.jobs = s.jobs := by unfold destroyAs; (try simp only []); (repeat' split) <;> (try rename_i h) <;> (first | (simp; done) | (simp [vWrite_ok_jobs h]; done) | (simp [vWrite_ok_jobs h]; split <;> simp) | (simp [vRead_ok_jobs h]; done) | (simp; split <;> simp) | simp_all)
@[simp] theorem destroyAs_time (s : State) (p : Path) (q : QNum) : (destroyAs s p q).2.time = s.time := by unfold destroyAs; (try simp only []); (repeat' split) <;> (try rename_i h) <;> (first | (simp; done) | (simp [vWrite_ok_time h]; done) | (simp [vWrite_ok_time h]; split <;> simp) | (simp [vRead_ok_time h]; done) | (simp; split <;> simp) | simp_all)
@[simp] theorem destroyAs_arrays (s : State) (p : Path) (q : QNum) : (destroyAs s p q).2.arrays = s.arrays := by unfold destroyAs; (try simp only []); (repeat' split) <;> (try rename_i h) <;> (first | (simp; done) | (simp [vWrite_ok_arrays h]; done) | (simp [vWrite_ok_arrays h]; split <;> simp) | (simp [vRead_ok_arrays h]; done) | (simp; split <;> simp) | simp_all)
@[simp] theorem destroyAs_ports (s : State) (p : Path) (q : QNum) : (destroyAs s p q).2.ports = s.ports := by unfold destroyAs; (try simp only []); (repeat' split) <;> (try rename_i h) <;> (first | (simp; done) | (simp [vWrite_ok_ports h]; done) | (simp [vWrite_ok_ports h]; split <;> simp) | (simp [vRead_ok_ports h]; done) | (simp; split <;> simp) | simp_all)
@[simp] theorem destroyAs_trust (s : State) (p : Path) (q : QNum) : (destroyAs s p q).2.trust = s.trust := by unfold destroyAs; (try simp only []); (repeat' split) <;> (try rename_i h) <;> (first | (simp; done) | (simp [vWrite_ok_trust h]; done) | (simp [vWrite_ok_trust h]; split <;> simp) | (simp [vRead_ok_trust h]; done) | (simp; split <;> simp) | simp_all)
@[simp] theorem destroyAs_power (s : State) (p : Path) (q : QNum) : (destroyAs s p q).2.power = s.power := by unfold destroyAs; (try simp only []); (repeat' split) <;> (try rename_i h) <;> (first | (simp; done) | (simp [vWrite_ok_power h]; done) | (simp [vWrite_ok_power h]; split <;> simp) | (simp [vRead_ok_power h]; done) | (simp; split <;> simp) | simp_all)
@[simp] theorem semCreateWrite_pending (s : State) (p : Path) (d : List Byte) : (semCreateWrite s p d).2.pending = s.pending := by unfold semCreateWrite; (try simp only []); (repeat' split) <;> (try rename_i h) <;> (first | (simp; done) | (simp [vWrite_ok_pending h]; done) | (simp [vWrite_ok_pending h]; split <;> simp) | (simp [vRead_ok_pending h]; done) | (simp; split <;> simp) | simp_all)
@[simp] theorem semCreateWrite_mem (s : State) (p : Path) (d : List Byte) : (semCreateWrite s p d).2.mem = s.mem := by unfold semCreateWrite; (try simp only []); (repeat' split) <;> (try rename_i h) <;> (first | (simp; done) | (simp [vWrite_ok_mem h]; done) | (simp [vWrite_ok_mem h]; split <;> simp) | (simp [vRead_ok_mem h]; done) | (simp; split <;> simp) | simp_all)
@[simp] theorem semCreateWrite_queues (s : State) (p : Path) (d : List Byte) : (semCreateWrite s p d).2.queues = s.queues := by unfold semCreateWrite; (try simp only []); (repeat' split) <;> (try rename_i h) <;> (first | (simp; done) | (simp [vWrite_ok_queues h]; done) | (simp [vWrite_ok_queues h]; split <;> simp) | (simp [vRead_ok_queues h]; done) | (simp; split <;> simp) | simp_all)
@[simp] theorem semCreateWrite_jobs (s : State) (p : Path) (d : List Byte) : (semCreateWrite s p d).2.jobs = s.jobs := by unfold semCreateWrite; (try simp only []); (repeat' split) <;> (try rename_i h) <;> (first | (simp; done) | (simp [vWrite_ok_jobs h]; done) | (simp [vWrite_ok_jobs h]; split <;> simp) | (simp [vRead_ok_jobs h]; done) | (simp; split <;> simp) | simp_all)
@[simp] theorem semCreateWrite_time (s : State) (p : Path) (d : List Byte) : (semCreateWrite s p d).2.time = s.time := by unfold semCreateWrite; (try simp only []); (repeat' split) <;> (try rename_i h) <;> (first | (simp; done) | (simp [vWrite_ok_time h]; done) | (simp [vWrite_ok_time h]; split <;> simp) | (simp [vRead_ok_time h]; done) | (simp; split <;> simp) | simp_all)
@[simp] theorem semCreateWrite_arrays (s : State) (p : Path) (d : List Byte) : (semCreateWrite s p d).2.arrays = s.arrays := by unfold semCreateWrite; (try simp only []); (repeat' split) <;> (try rename_i h) <;> (first | (simp; done) | (simp [vWrite_ok_arrays h]; done) | (simp [vWrite_ok_arrays h]; split <;> simp) | (simp [vRead_ok_arrays h]; done) | (simp; split <;> simp) | simp_all)
@[simp] theorem semCreateWrite_ports (s : State) (p : Path) (d : List Byte) : (semCreateWrite s p d).2.ports = s.ports := by unfold semCreateWrite; (try simp only []); (repeat' split) <;> (try rename_i h) <;> (first | (simp; done) | (simp [vWrite_ok_ports h]; done) | (simp [vWrite_ok_ports h]; split <;> simp) | (simp [vRead_ok_ports h]; done) | (simp; split <;> simp) | simp_all)
@[simp] theorem semCreateWrite_trust (s : State) (p : Path) (d : List Byte) : (semCreateWrite s p d).2.trust = s.trust := by unfold semCreateWrite; (try simp only []); (repeat' split) <;> (try rename_i h) <;> (first | (simp; done) | (simp [vWrite_ok_trust h]; done) | (simp [vWrite_ok_trust h]; split <;> simp) | (simp [vRead_ok_trust h]; done) | (simp; split <;> simp) | simp_all)
@[simp] theorem semCreateWrite_power (s : State) (p : Path) (d : List Byte) : (semCreateWrite s p d).2.power = s.power := by unfold semCreateWrite; (try simp only []); (repeat' split) <;> (try rename_i h) <;> (first | (simp; done) | (simp [vWrite_ok_power h]; done) | (simp [vWrite_ok_power h]; split <;> simp) | (simp [vRead_ok_power h]; done) | (simp; split <;> simp) | simp_all)
@[simp] theorem semDestroyWrite_pending (s : State) (p : Path) (v : Nat) : (semDestroyWrite s p v).2.pending = s.pending := by unfold semDestroyWrite; simp -implicitDefEqProofs
@[simp] theorem semDestroyWrite_mem (s : State) (p : Path) (v : Nat) : (semDestroyWrite s p v).2.mem = s.mem := by unfold semDestroyWrite; simp -implicitDefEqProofs
@[simp] theorem semDestroyWrite_jobs (s : State) (p : Path) (v : Nat) : (semDestroyWrite s p v).2.jobs = s.jobs := by unfold semDestroyWrite; simp -implicitDefEqProofs
@[simp] theorem semDestroyWrite_time (s : State) (p : Path) (v : Nat) : (semDestroyWrite s p v).2.time = s.time := by unfold semDestroyWrite; simp -implicitDefEqProofs
@[simp] theorem semDestroyWrite_arrays (s : State) (p : Path) (v : Nat) : (semDestroyWrite s p v).2.arrays = s.arrays := by unfold semDestroyWrite; simp -implicitDefEqProofs
@[simp] theorem semDestroyWrite_ports (s : State) (p : Path) (v : Nat) : (semDestroyWrite s p v).2.ports = s.ports := by unfold semDestroyWrite; simp -implicitDefEqProofs
@[simp] theorem semDestroyWrite_trust (s : State) (p : Path) (v : Nat) : (semDestroyWrite s p v).2.trust = s.trust := by unfold semDestroyWrite; simp -implicitDefEqProofs
@[simp] theorem semDestroyWrite_power (s : State) (p : Path) (v : Nat) : (semDestroyWrite s p v).2.power = s.power := by unfold semDestroyWrite; simp -implicitDefEqProofs
@[simp] theorem eventRingWrite_pending (s : State) (f : Nat) (d : List Byte) : (eventRingWrite s f d).2.pending = s.pending := by unfold eventRingWrite; (try simp only []); (repeat' split) <;> (try rename_i h) <;> (first | (simp; done) | (simp [vWrite_ok_pending h]; done) | (simp [vWrite_ok_pending h]; split <;> simp) | (simp [vRead_ok_pending h]; done) | (simp; split <;> simp) | simp_all)
@[simp] theorem eventRingWrite_mem (s : State) (f : Nat) (d : List Byte) : (eventRingWrite s f d).2.mem = s.mem := by unfold eventRingWrite; (try simp only []); (repeat' split) <;> (try rename_i h) <;> (first | (simp; done) | (simp [vWrite_ok_mem h]; done) | (simp [vWrite_ok_mem h]; split <;> simp) | (simp [vRead_ok_mem h]; done) | (simp; split <;> simp) | simp_all)
@[simp] theorem eventRingWrite_queues (s : State) (f : Nat) (d : List Byte) : (eventRingWrite s f d).2.queues = s.queues := by unfold eventRingWrite; (try simp only []); (repeat' split) <;> (try rename_i h) <;> (first | (simp; done) | (simp [vWrite_ok_queues h]; done) | (simp [vWrite_ok_queues h]; split <;> simp) | (simp [vRead_ok_queues h]; done) | (simp; split <;> simp) | simp_all)
@[simp] theorem eventRingWrite_sems (s : State) (f : Nat) (d : List Byte) : (eventRingWrite s f d).2.sems = s.sems := by unfold eventRingWrite; (try simp only []); (repeat' split) <;> (try rename_i h) <;> (first | (simp; done) | (simp [vWrite_ok_sems h]; done) | (simp [vWrite_ok_sems h]; split <;> simp) | (simp [vRead_ok_sems h]; done) | (simp; split <;> simp) | simp_all)
@[simp] theorem eventRingWrite_jobs (s : State) (f : Nat) (d : List Byte) : (eventRingWrite s f d).2.jobs = s.jobs := by unfold eventRingWrite; (try simp only []); (repeat' split) <;> (try rename_i h) <;> (first | (simp; done) | (simp [vWrite_ok_jobs h]; done) | (simp [vWrite_ok_jobs h]; split <;> simp) | (simp [vRead_ok_jobs h]; done) | (simp; split <;> simp) | simp_all)
@[simp] theorem eventRingWrite_time (s : State) (f : Nat) (d : List Byte) : (eventRingWrite s f d).2.time = s.time := by unfold eventRingWrite; (try simp only []); (repeat' split) <;> (try rename_i h) <;> (first | (simp; done) | (simp [vWrite_ok_time h]; done) | (simp [vWrite_ok_time h]; split <;> simp) | (simp [vRead_ok_time h]; done) | (simp; split <;> simp) | simp_all)
@[simp] theorem eventRingWrite_arrays (s : State) (f : Nat) (d : List Byte) : (eventRingWrite s f d).2.arrays = s.arrays := by unfold eventRingWrite; (try simp only []); (repeat' split) <;> (try rename_i h) <;> (first | (simp; done) | (simp [vWrite_ok_arrays h]; done) | (simp [vWrite_ok_arrays h]; split <;> simp) | (simp [vRead_ok_arrays h]; done) | (simp; split <;> simp) | simp_all)
@[simp] theorem eventRingWrite_ports (s : State) (f : Nat) (d : List Byte) : (eventRingWrite s f d).2.ports = s.ports := by unfold eventRingWrite; (try simp only []); (repeat' split) <;> (try rename_i h) <;> (first | (simp; done) | (simp [vWrite_ok_ports h]; done) | (simp [vWrite_ok_ports h]; split <;> simp) | (simp [vRead_ok_ports h]; done) | (simp; split <;> simp) | simp_all)
@[simp] theorem eventRingWrite_trust (s : State) (f : Nat) (d : List Byte) : (eventRingWrite s f d).2.trust = s.trust := by unfold eventRingWrite; (try simp only []); (repeat' split) <;> (try rename_i h) <;> (first | (simp; done) | (simp [vWrite_ok_trust h]; done) | (simp [vWrite_ok_trust h]; split <;> simp) | (simp [vRead_ok_trust h]; done) | (simp; split <;> simp) | simp_all)
@[simp] theorem eventRingWrite_power (s : State) (f : Nat) (d : List Byte) : (eventRingWrite s f d).2.power = s.power := by unfold eventRingWrite; (try simp only []); (repeat' split) <;> (try rename_i h) <;> (first | (simp; done) | (simp [vWrite_ok_power h]; done) | (simp [vWrite_ok_power h]; split <;> simp) | (simp [vRead_ok_power h]; done) | (simp; split <;> simp) | simp_all)
@[simp] theorem functionAbortWrite_pending (s : State) (p : Path) (f : Nat) : (functionAbortWrite s p f).2.pending = s.pending := by unfold functionAbortWrite; (repeat' split) <;> simp
@[simp] theorem functionAbortWrite_mem (s : State) (p : Path) (f : Nat) : (functionAbortWrite s p f).2.mem = s.mem := by unfold functionAbortWrite; (repeat' split) <;> simp
@[simp] theorem functionAbortWrite_time (s : State) (p : Path) (f : Nat) : (functionAbortWrite s p f).2.time = s.time := by unfold functionAbortWrite; (repeat' split) <;> simp
@[simp] theorem functionAbortWrite_arrays (s : State) (p : Path) (f : Nat) : (functionAbortWrite s p f).2.arrays = s.arrays := by unfold functionAbortWrite; (repeat' split) <;> simp
@[simp] theorem functionAbortWrite_trust (s : State) (p : Path) (f : Nat) : (functionAbortWrite s p f).2.trust = s.trust := by unfold functionAbortWrite; (repeat' split) <;> simp
@[simp] theorem functionAbortWrite_power (s : State) (p : Path) (f : Nat) : (functionAbortWrite s p f).2.power = s.power := by unfold functionAbortWrite; (repeat' split) <;> simp
@[simp] theorem recordJob_pending (r : Load) (s : State) : (recordJob r s).pending = s.pending := (rfl)
@[simp] theorem recordJob_mem (r : Load) (s : State) : (recordJob r s).mem = s.mem := (rfl)
@[simp] theorem recordJob_queues (r : Load) (s : State) : (recordJob r s).queues = s.queues := (rfl)
@[simp] theorem recordJob_sems (r : Load) (s : State) : (recordJob r s).sems = s.sems := (rfl)
@[simp] theorem recordJob_time (r : Load) (s : State) : (recordJob r s).time = s.time := (rfl)
@[simp] theorem recordJob_arrays (r : Load) (s : State) : (recordJob r s).arrays = s.arrays := (rfl)
@[simp] theorem recordJob_ports (r : Load) (s : State) : (recordJob r s).ports = s.ports := (rfl)
@[simp] theorem recordJob_trust (r : Load) (s : State) : (recordJob r s).trust = s.trust := (rfl)
@[simp] theorem recordJob_power (r : Load) (s : State) : (recordJob r s).power = s.power := (rfl)
@[simp] theorem modLayer_pending (r : Load) (k : Nat) (g : Layer → Layer) (s : State) : (modLayer r k g s).pending = s.pending := (rfl)
@[simp] theorem modLayer_mem (r : Load) (k : Nat) (g : Layer → Layer) (s : State) : (modLayer r k g s).mem = s.mem := (rfl)
@[simp] theorem modLayer_queues (r : Load) (k : Nat) (g : Layer → Layer) (s : State) : (modLayer r k g s).queues = s.queues := (rfl)
@[simp] theorem modLayer_sems (r : Load) (k : Nat) (g : Layer → Layer) (s : State) : (modLayer r k g s).sems = s.sems := (rfl)
@[simp] theorem modLayer_time (r : Load) (k : Nat) (g : Layer → Layer) (s : State) : (modLayer r k g s).time = s.time := (rfl)
@[simp] theorem modLayer_arrays (r : Load) (k : Nat) (g : Layer → Layer) (s : State) : (modLayer r k g s).arrays = s.arrays := (rfl)
@[simp] theorem modLayer_ports (r : Load) (k : Nat) (g : Layer → Layer) (s : State) : (modLayer r k g s).ports = s.ports := (rfl)
@[simp] theorem modLayer_trust (r : Load) (k : Nat) (g : Layer → Layer) (s : State) : (modLayer r k g s).trust = s.trust := (rfl)
@[simp] theorem modLayer_power (r : Load) (k : Nat) (g : Layer → Layer) (s : State) : (modLayer r k g s).power = s.power := (rfl)
@[simp] theorem undoLoad_pending (s0 : State) (s1 : State) : (undoLoad s0 s1).pending = s0.pending := (rfl)
@[simp] theorem undoLoad_queues (s0 : State) (s1 : State) : (undoLoad s0 s1).queues = s0.queues := (rfl)
@[simp] theorem undoLoad_sems (s0 : State) (s1 : State) : (undoLoad s0 s1).sems = s0.sems := (rfl)
@[simp] theorem undoLoad_jobs (s0 : State) (s1 : State) : (undoLoad s0 s1).jobs = s0.jobs := (rfl)
@[simp] theorem undoLoad_time (s0 : State) (s1 : State) : (undoLoad s0 s1).time = s0.time := (rfl)
@[simp] theorem undoLoad_arrays (s0 : State) (s1 : State) : (undoLoad s0 s1).arrays = s0.arrays := (rfl)
@[simp] theorem undoLoad_ports (s0 : State) (s1 : State) : (undoLoad s0 s1).ports = s0.ports := (rfl)
@[simp] theorem undoLoad_trust (s0 : State) (s1 : State) : (undoLoad s0 s1).trust = s0.trust := (rfl)
@[simp] theorem undoLoad_power (s0 : State) (s1 : State) : (undoLoad s0 s1).power = s0.power := (rfl)
@[simp] theorem reassign_pending (kind : Nat) (op : Nat) (f : Nat) (s : State) (item : Nat) : (reassign kind op f s item).pending = s.pending := (rfl)
@[simp] theorem reassign_mem (kind : Nat) (op : Nat) (f : Nat) (s : State) (item : Nat) : (reassign kind op f s item).mem = s.mem := (rfl)
@[simp] theorem reassign_queues (kind : Nat) (op : Nat) (f : Nat) (s : State) (item : Nat) : (reassign kind op f s item).queues = s.queues := (rfl)
@[simp] theorem reassign_sems (kind : Nat) (op : Nat) (f : Nat) (s : State) (item : Nat) : (reassign kind op f s item).sems = s.sems := (rfl)
@[simp] theorem reassign_jobs (kind : Nat) (op : Nat) (f : Nat) (s : State) (item : Nat) : (reassign kind op f s item).jobs = s.jobs := (rfl)
@[simp] theorem reassign_time (kind : Nat) (op : Nat) (f : Nat) (s : State) (item : Nat) : (reassign kind op f s item).time = s.time := (rfl)
@[simp] theorem reassign_arrays (kind : Nat) (op : Nat) (f : Nat) (s : State) (item : Nat) : (reassign kind op f s item).arrays = s.arrays := (rfl)
@[simp] theorem reassign_ports (kind : Nat) (op : Nat) (f : Nat) (s : State) (item : Nat) : (reassign kind op f s item).ports = s.ports := (rfl)
@[simp] theorem reassign_trust (kind : Nat) (op : Nat) (f : Nat) (s : State) (item : Nat) : (reassign kind op f s item).trust = s.trust := (rfl)
@[simp] theorem reassign_power (kind : Nat) (op : Nat) (f : Nat) (s : State) (item : Nat) : (reassign kind op f s item).power = s.power := (rfl)
@[simp] theorem assignWrite_pending (s : State) (p : Path) (d : List Byte) : (assignWrite s p d).2.pending = s.pending := by unfold assignWrite; (try simp only []); (repeat' split) <;> (try rename_i h) <;> (first | (simp; done) | (simp [vWrite_ok_pending h]; done) | (simp [vWrite_ok_pending h]; split <;> simp) | (simp [vRead_ok_pending h]; done) | (simp; split <;> simp) | simp_all)
@[simp] theorem assignWrite_mem (s : State) (p : Path) (d : List Byte) : (assignWrite s p d).2.mem = s.mem := by unfold assignWrite; (try simp only []); (repeat' split) <;> (try rename_i h) <;> (first | (simp; done) | (simp [vWrite_ok_mem h]; done) | (simp [vWrite_ok_mem h]; split <;> simp) | (simp [vRead_ok_mem h]; done) | (simp; split <;> simp) | simp_all)
@[simp] theorem assignWrite_queues (s : State) (p : Path) (d : List Byte) : (assignWrite s p d).2.queues = s.queues := by unfold assignWrite; (try simp only []); (repeat' split) <;> (try rename_i h) <;> (first | (simp; done) | (simp [vWrite_ok_queues h]; done) | (simp [vWrite_ok_queues h]; split <;> simp) | (simp [vRead_ok_queues h]; done) | (simp; split <;> simp) | simp_all)
@[simp] theorem assignWrite_sems (s : State) (p : Path) (d : List Byte) : (assignWrite s p d).2.sems = s.sems := by unfold assignWrite; (try simp only []); (repeat' split) <;> (try rename_i h) <;> (first | (simp; done) | (simp [vWrite_ok_sems h]; done) | (simp [vWrite_ok_sems h]; split <;> simp) | (simp [vRead_ok_sems h]; done) | (simp; split <;> simp) | simp_all)
@[simp] theorem assignWrite_jobs (s : State) (p : Path) (d : List Byte) : (assignWrite s p d).2.jobs = s.jobs := by unfold assignWrite; (try simp only []); (repeat' split) <;> (try rename_i h) <;> (first | (simp; done) | (simp [vWrite_ok_jobs h]; done) | (simp [vWrite_ok_jobs h]; split <;> simp) | (simp [vRead_ok_jobs h]; done) | (simp; split <;> simp) | simp_all)
@[simp] theorem assignWrite_time (s : State) (p : Path) (d : List Byte) : (assignWrite s p d).2.time = s.time := by unfold assignWrite; (try simp only []); (repeat' split) <;> (try rename_i h) <;> (first | (simp; done) | (simp [vWrite_ok_time h]; done) | (simp [vWrite_ok_time h]; split <;> simp) | (simp [vRead_ok_time h]; done) | (simp; split <;> simp) | simp_all)
@[simp] theorem assignWrite_arrays (s : State) (p : Path) (d : List Byte) : (assignWrite s p d).2.arrays = s.arrays := by unfold assignWrite; (try simp only []); (repeat' split) <;> (try rename_i h) <;> (first | (simp; done) | (simp [vWrite_ok_arrays h]; done) | (simp [vWrite_ok_arrays h]; split <;> simp) | (simp [vRead_ok_arrays h]; done) | (simp; split <;> simp) | simp_all)
@[simp] theorem assignWrite_ports (s : State) (p : Path) (d : List Byte) : (assignWrite s p d).2.ports = s.ports := by unfold assignWrite; (try simp only []); (repeat' split) <;> (try rename_i h) <;> (first | (simp; done) | (simp [vWrite_ok_ports h]; done) | (simp [vWrite_ok_ports h]; split <;> simp) | (simp [vRead_ok_ports h]; done) | (simp; split <;> simp) | simp_all)
@[simp] theorem assignWrite_trust (s : State) (p : Path) (d : List Byte) : (assignWrite s p d).2.trust = s.trust := by unfold assignWrite; (try simp only []); (repeat' split) <;> (try rename_i h) <;> (first | (simp; done) | (simp [vWrite_ok_trust h]; done) | (simp [vWrite_ok_trust h]; split <;> simp) | (simp [vRead_ok_trust h]; done) | (simp; split <;> simp) | simp_all)
@[simp] theorem assignWrite_power (s : State) (p : Path) (d : List Byte) : (assignWrite s p d).2.power = s.power := by unfold assignWrite; (try simp only []); (repeat' split) <;> (try rename_i h) <;> (first | (simp; done) | (simp [vWrite_ok_power h]; done) | (simp [vWrite_ok_power h]; split <;> simp) | (simp [vRead_ok_power h]; done) | (simp; split <;> simp) | simp_all)
@[simp] theorem rootWrite_pending (s : State) (f : Nat) (v : Nat) : (rootWrite s f v).2.pending = s.pending := by unfold rootWrite; (repeat' split) <;> simp
@[simp] theorem rootWrite_mem (s : State) (f : Nat) (v : Nat) : (rootWrite s f v).2.mem = s.mem := by unfold rootWrite; (repeat' split) <;> simp
@[simp] theorem rootWrite_queues (s : State) (f : Nat) (v : Nat) : (rootWrite s f v).2.queues = s.queues := by unfold rootWrite; (repeat' split) <;> simp
@[simp] theorem rootWrite_sems (s : State) (f : Nat) (v : Nat) : (rootWrite s f v).2.sems = s.sems := by unfold rootWrite; (repeat' split) <;> simp
@[simp] theorem rootWrite_jobs (s : State) (f : Nat) (v : Nat) : (rootWrite s f v).2.jobs = s.jobs := by unfold rootWrite; (repeat' split) <;> simp
@[simp] theorem rootWrite_time (s : State) (f : Nat) (v : Nat) : (rootWrite s f v).2.time = s.time := by unfold rootWrite; (repeat' split) <;> simp
@[simp] theorem rootWrite_arrays (s : State) (f : Nat) (v : Nat) : (rootWrite s f v).2.arrays = s.arrays := by unfold rootWrite; (repeat' split) <;> simp
@[simp] theorem rootWrite_ports (s : State) (f : Nat) (v : Nat) : (rootWrite s f v).2.ports = s.ports := by unfold rootWrite; (repeat' split) <;> simp
@[simp] theorem rootWrite_trust (s : State) (f : Nat) (v : Nat) : (rootWrite s f v).2.trust = s.trust := by unfold rootWrite; (repeat' split) <;> simp
@[simp] theorem rootWrite_power (s : State) (f : Nat) (v : Nat) : (rootWrite s f v).2.power = s.power := by unfold rootWrite; (repeat' split) <;> simp
@[simp] theorem invalWrite_pending (s : State) (p : Path) (d : List Byte) : (invalWrite s p d).2.pending = s.pending := by unfold invalWrite; (try simp only []); (repeat' split) <;> (try rename_i h) <;> (first | (simp; done) | (simp [vWrite_ok_pending h]; done) | (simp [vWrite_ok_pending h]; split <;> simp) | (simp [vRead_ok_pending h]; done) | (simp; split <;> simp) | simp_all)
@[simp] theorem invalWrite_mem (s : State) (p : Path) (d : List Byte) : (invalWrite s p d).2.mem = s.mem := by unfold invalWrite; (try simp only []); (repeat' split) <;> (try rename_i h) <;> (first | (simp; done) | (simp [vWrite_ok_mem h]; done) | (simp [vWrite_ok_mem h]; split <;> simp) | (simp [vRead_ok_mem h]; done) | (simp; split <;> simp) | simp_all)
@[simp] theorem invalWrite_queues (s : State) (p : Path) (d : List Byte) : (invalWrite s p d).2.queues = s.queues := by unfold invalWrite; (try simp only []); (repeat' split) <;> (try rename_i h) <;> (first | (simp; done) | (simp [vWrite_ok_queues h]; done) | (simp [vWrite_ok_queues h]; split <;> simp) | (simp [vRead_ok_queues h]; done) | (simp; split <;> simp) | simp_all)
@[simp] theorem invalWrite_sems (s : State) (p : Path) (d : List Byte) : (invalWrite s p d).2.sems = s.sems := by unfold invalWrite; (try simp only []); (repeat' split) <;> (try rename_i h) <;> (first | (simp; done) | (simp [vWrite_ok_sems h]; done) | (simp [vWrite_ok_sems h]; split <;> simp) | (simp [vRead_ok_sems h]; done) | (simp; split <;> simp) | simp_all)
@[simp] theorem invalWrite_jobs (s : State) (p : Path) (d : List Byte) : (invalWrite s p d).2.jobs = s.jobs := by unfold invalWrite; (try simp only []); (repeat' split) <;> (try rename_i h) <;> (first | (simp; done) | (simp [vWrite_ok_jobs h]; done) | (simp [vWrite_ok_jobs h]; split <;> simp) | (simp [vRead_ok_jobs h]; done) | (simp; split <;> simp) | simp_all)
@[simp] theorem invalWrite_time (s : State) (p : Path) (d : List Byte) : (invalWrite s p d).2.time = s.time := by unfold invalWrite; (try simp only []); (repeat' split) <;> (try rename_i h) <;> (first | (simp; done) | (simp [vWrite_ok_time h]; done) | (simp [vWrite_ok_time h]; split <;> simp) | (simp [vRead_ok_time h]; done) | (simp; split <;> simp) | simp_all)
@[simp] theorem invalWrite_arrays (s : State) (p : Path) (d : List Byte) : (invalWrite s p d).2.arrays = s.arrays := by unfold invalWrite; (try simp only []); (repeat' split) <;> (try rename_i h) <;> (first | (simp; done) | (simp [vWrite_ok_arrays h]; done) | (simp [vWrite_ok_arrays h]; split <;> simp) | (simp [vRead_ok_arrays h]; done) | (simp; split <;> simp) | simp_all)
@[simp] theorem invalWrite_ports (s : State) (p : Path) (d : List Byte) : (invalWrite s p d).2.ports = s.ports := by unfold invalWrite; (try simp only []); (repeat' split) <;> (try rename_i h) <;> (first | (simp; done) | (simp [vWrite_ok_ports h]; done) | (simp [vWrite_ok_ports h]; split <;> simp) | (simp [vRead_ok_ports h]; done) | (simp; split <;> simp) | simp_all)
@[simp] theorem invalWrite_trust (s : State) (p : Path) (d : List Byte) : (invalWrite s p d).2.trust = s.trust := by unfold invalWrite; (try simp only []); (repeat' split) <;> (try rename_i h) <;> (first | (simp; done) | (simp [vWrite_ok_trust h]; done) | (simp [vWrite_ok_trust h]; split <;> simp) | (simp [vRead_ok_trust h]; done) | (simp; split <;> simp) | simp_all)
@[simp] theorem invalWrite_power (s : State) (p : Path) (d : List Byte) : (invalWrite s p d).2.power = s.power := by unfold invalWrite; (try simp only []); (repeat' split) <;> (try rename_i h) <;> (first | (simp; done) | (simp [vWrite_ok_power h]; done) | (simp [vWrite_ok_power h]; split <;> simp) | (simp [vRead_ok_power h]; done) | (simp; split <;> simp) | simp_all)
@[simp] theorem layerWrite_pending (s : State) (p : Path) (g : Job → Layer → Layer) : (layerWrite s p g).2.pending = s.pending := by unfold layerWrite; (repeat' split) <;> simp
@[simp] theorem layerWrite_mem (s : State) (p : Path) (g : Job → Layer → Layer) : (layerWrite s p g).2.mem = s.mem := by unfold layerWrite; (repeat' split) <;> simp
@[simp] theorem layerWrite_queues (s : State) (p : Path) (g : Job → Layer → Layer) : (layerWrite s p g).2.queues = s.queues := by unfold layerWrite; (repeat' split) <;> simp
@[simp] theorem layerWrite_sems (s : State) (p : Path) (g : Job → Layer → Layer) : (layerWrite s p g).2.sems = s.sems := by unfold layerWrite; (repeat' split) <;> simp
@[simp] theorem layerWrite_time (s : State) (p : Path) (g : Job → Layer → Layer) : (layerWrite s p g).2.time = s.time := by unfold layerWrite; (repeat' split) <;> simp
@[simp] theorem layerWrite_arrays (s : State) (p : Path) (g : Job → Layer → Layer) : (layerWrite s p g).2.arrays = s.arrays := by unfold layerWrite; (repeat' split) <;> simp
@[simp] theorem layerWrite_ports (s : State) (p : Path) (g : Job → Layer → Layer) : (layerWrite s p g).2.ports = s.ports := by unfold layerWrite; (repeat' split) <;> simp
@[simp] theorem layerWrite_trust (s : State) (p : Path) (g : Job → Layer → Layer) : (layerWrite s p g).2.trust = s.trust := by unfold layerWrite; (repeat' split) <;> simp
@[simp] theorem layerWrite_power (s : State) (p : Path) (g : Job → Layer → Layer) : (layerWrite s p g).2.power = s.power := by unfold layerWrite; (repeat' split) <;> simp
@[simp] theorem recipeEntryWrite_pending (s : State) (p : Path) (v : Nat) : (recipeEntryWrite s p v).2.pending = s.pending := by unfold recipeEntryWrite; (repeat' split) <;> simp
@[simp] theorem recipeEntryWrite_mem (s : State) (p : Path) (v : Nat) : (recipeEntryWrite s p v).2.mem = s.mem := by unfold recipeEntryWrite; (repeat' split) <;> simp
@[simp] theorem recipeEntryWrite_queues (s : State) (p : Path) (v : Nat) : (recipeEntryWrite s p v).2.queues = s.queues := by unfold recipeEntryWrite; (repeat' split) <;> simp
@[simp] theorem recipeEntryWrite_sems (s : State) (p : Path) (v : Nat) : (recipeEntryWrite s p v).2.sems = s.sems := by unfold recipeEntryWrite; (repeat' split) <;> simp
@[simp] theorem recipeEntryWrite_time (s : State) (p : Path) (v : Nat) : (recipeEntryWrite s p v).2.time = s.time := by unfold recipeEntryWrite; (repeat' split) <;> simp
@[simp] theorem recipeEntryWrite_arrays (s : State) (p : Path) (v : Nat) : (recipeEntryWrite s p v).2.arrays = s.arrays := by unfold recipeEntryWrite; (repeat' split) <;> simp
@[simp] theorem recipeEntryWrite_ports (s : State) (p : Path) (v : Nat) : (recipeEntryWrite s p v).2.ports = s.ports := by unfold recipeEntryWrite; (repeat' split) <;> simp
@[simp] theorem recipeEntryWrite_trust (s : State) (p : Path) (v : Nat) : (recipeEntryWrite s p v).2.trust = s.trust := by unfold recipeEntryWrite; (repeat' split) <;> simp
@[simp] theorem recipeEntryWrite_power (s : State) (p : Path) (v : Nat) : (recipeEntryWrite s p v).2.power = s.power := by unfold recipeEntryWrite; (repeat' split) <;> simp
@[simp] theorem crimalWrite_pending (s : State) (p : Path) (v : Nat) : (crimalWrite s p v).2.pending = s.pending := by unfold crimalWrite; (repeat' split) <;> simp
@[simp] theorem crimalWrite_mem (s : State) (p : Path) (v : Nat) : (crimalWrite s p v).2.mem = s.mem := by unfold crimalWrite; (repeat' split) <;> simp
@[simp] theorem crimalWrite_queues (s : State) (p : Path) (v : Nat) : (crimalWrite s p v).2.queues = s.queues := by unfold crimalWrite; (repeat' split) <;> simp
@[simp] theorem crimalWrite_sems (s : State) (p : Path) (v : Nat) : (crimalWrite s p v).2.sems = s.sems := by unfold crimalWrite; (repeat' split) <;> simp
@[simp] theorem crimalWrite_time (s : State) (p : Path) (v : Nat) : (crimalWrite s p v).2.time = s.time := by unfold crimalWrite; (repeat' split) <;> simp
@[simp] theorem crimalWrite_arrays (s : State) (p : Path) (v : Nat) : (crimalWrite s p v).2.arrays = s.arrays := by unfold crimalWrite; (repeat' split) <;> simp
@[simp] theorem crimalWrite_ports (s : State) (p : Path) (v : Nat) : (crimalWrite s p v).2.ports = s.ports := by unfold crimalWrite; (repeat' split) <;> simp
@[simp] theorem crimalWrite_trust (s : State) (p : Path) (v : Nat) : (crimalWrite s p v).2.trust = s.trust := by unfold crimalWrite; (repeat' split) <;> simp
@[simp] theorem crimalWrite_power (s : State) (p : Path) (v : Nat) : (crimalWrite s p v).2.power = s.power := by unfold crimalWrite; (repeat' split) <;> simp
@[simp] theorem thresholdWrite_pending (s : State) (p : Path) (v : Nat) : (thresholdWrite s p v).2.pending = s.pending := by unfold thresholdWrite; (repeat' split) <;> simp
@[simp] theorem thresholdWrite_mem (s : State) (p : Path) (v : Nat) : (thresholdWrite s p v).2.mem = s.mem := by unfold thresholdWrite; (repeat' split) <;> simp
@[simp] theorem thresholdWrite_queues (s : State) (p : Path) (v : Nat) : (thresholdWrite s p v).2.queues = s.queues := by unfold thresholdWrite; (repeat' split) <;> simp
@[simp] theorem thresholdWrite_sems (s : State) (p : Path) (v : Nat) : (thresholdWrite s p v).2.sems = s.sems := by unfold thresholdWrite; (repeat' split) <;> simp
@[simp] theorem thresholdWrite_time (s : State) (p : Path) (v : Nat) : (thresholdWrite s p v).2.time = s.time := by unfold thresholdWrite; (repeat' split) <;> simp
@[simp] theorem thresholdWrite_arrays (s : State) (p : Path) (v : Nat) : (thresholdWrite s p v).2.arrays = s.arrays := by unfold thresholdWrite; (repeat' split) <;> simp
@[simp] theorem thresholdWrite_ports (s : State) (p : Path) (v : Nat) : (thresholdWrite s p v).2.ports = s.ports := by unfold thresholdWrite; (repeat' split) <;> simp
@[simp] theorem thresholdWrite_trust (s : State) (p : Path) (v : Nat) : (thresholdWrite s p v).2.trust = s.trust := by unfold thresholdWrite; (repeat' split) <;> simp
@[simp] theorem thresholdWrite_power (s : State) (p : Path) (v : Nat) : (thresholdWrite s p v).2.power = s.power := by unfold thresholdWrite; (repeat' split) <;> simp
@[simp] theorem coordEntryWrite_pending (s : State) (v : Nat) : (coordEntryWrite s v).2.pending = s.pending := by unfold coordEntryWrite; (repeat' split) <;> simp
@[simp] theorem coordEntryWrite_queues (s : State) (v : Nat) : (coordEntryWrite s v).2.queues = s.queues := by unfold coordEntryWrite; (repeat' split) <;> simp
@[simp] theorem coordEntryWrite_sems (s : State) (v : Nat) : (coordEntryWrite s v).2.sems = s.sems := by unfold coordEntryWrite; (repeat' split) <;> simp
@[simp] theorem coordEntryWrite_jobs (s : State) (v : Nat) : (coordEntryWrite s v).2.jobs = s.jobs := by unfold coordEntryWrite; (repeat' split) <;> simp
@[simp] theorem coordEntryWrite_time (s : State) (v : Nat) : (coordEntryWrite s v).2.time = s.time := by unfold coordEntryWrite; (repeat' split) <;> simp
@[simp] theorem coordEntryWrite_arrays (s : State) (v : Nat) : (coordEntryWrite s v).2.arrays = s.arrays := by unfold coordEntryWrite; (repeat' split) <;> simp
@[simp] theorem coordEntryWrite_trust (s : State) (v : Nat) : (coordEntryWrite s v).2.trust = s.trust := by unfold coordEntryWrite; (repeat' split) <;> simp
@[simp] theorem coordEntryWrite_power (s : State) (v : Nat) : (coordEntryWrite s v).2.power = s.power := by unfold coordEntryWrite; (repeat' split) <;> simp
@[simp] theorem axisEntryWrite_pending (s : State) (v : Nat) : (axisEntryWrite s v).2.pending = s.pending := by unfold axisEntryWrite; (repeat' split) <;> simp
@[simp] theorem axisEntryWrite_sems (s : State) (v : Nat) : (axisEntryWrite s v).2.sems = s.sems := by unfold axisEntryWrite; (repeat' split) <;> simp
@[simp] theorem axisEntryWrite_time (s : State) (v : Nat) : (axisEntryWrite s v).2.time = s.time := by unfold axisEntryWrite; (repeat' split) <;> simp
@[simp] theorem axisEntryWrite_arrays (s : State) (v : Nat) : (axisEntryWrite s v).2.arrays = s.arrays := by unfold axisEntryWrite; (repeat' split) <;> simp
@[simp] theorem axisEntryWrite_trust (s : State) (v : Nat) : (axisEntryWrite s v).2.trust = s.trust := by unfold axisEntryWrite; (repeat' split) <;> simp
@[simp] theorem axisEntryWrite_power (s : State) (v : Nat) : (axisEntryWrite s v).2.power = s.power := by unfold axisEntryWrite; (repeat' split) <;> simp
@[simp] theorem portEnableEntryWrite_pending (s : State) (v : Nat) : (portEnableEntryWrite s v).2.pending = s.pending := by unfold portEnableEntryWrite; simp -implicitDefEqProofs
@[simp] theorem portEnableEntryWrite_mem (s : State) (v : Nat) : (portEnableEntryWrite s v).2.mem = s.mem := by unfold portEnableEntryWrite; simp -implicitDefEqProofs
@[simp] theorem portEnableEntryWrite_sems (s : State) (v : Nat) : (portEnableEntryWrite s v).2.sems = s.sems := by unfold portEnableEntryWrite; simp -implicitDefEqProofs
@[simp] theorem portEnableEntryWrite_time (s : State) (v : Nat) : (portEnableEntryWrite s v).2.time = s.time := by unfold portEnableEntryWrite; simp -implicitDefEqProofs
@[simp] theorem portEnableEntryWrite_arrays (s : State) (v : Nat) : (portEnableEntryWrite s v).2.arrays = s.arrays := by unfold portEnableEntryWrite; simp -implicitDefEqProofs
@[simp] theorem portEnableEntryWrite_trust (s : State) (v : Nat) : (portEnableEntryWrite s v).2.trust = s.trust := by unfold portEnableEntryWrite; simp -implicitDefEqProofs
@[simp] theorem portEnableEntryWrite_power (s : State) (v : Nat) : (portEnableEntryWrite s v).2.power = s.power := by unfold portEnableEntryWrite; simp -implicitDefEqProofs
@[simp] theorem claimWrite_pending (s : State) (index : Nat) (sub : Nat) (v : Nat) : (claimWrite s index sub v).2.2.pending = s.pending := by unfold claimWrite; (repeat' split) <;> simp
@[simp] theorem claimWrite_mem (s : State) (index : Nat) (sub : Nat) (v : Nat) : (claimWrite s index sub v).2.2.mem = s.mem := by unfold claimWrite; (repeat' split) <;> simp
@[simp] theorem claimWrite_queues (s : State) (index : Nat) (sub : Nat) (v : Nat) : (claimWrite s index sub v).2.2.queues = s.queues := by unfold claimWrite; (repeat' split) <;> simp
@[simp] theorem claimWrite_sems (s : State) (index : Nat) (sub : Nat) (v : Nat) : (claimWrite s index sub v).2.2.sems = s.sems := by unfold claimWrite; (repeat' split) <;> simp
@[simp] theorem claimWrite_jobs (s : State) (index : Nat) (sub : Nat) (v : Nat) : (claimWrite s index sub v).2.2.jobs = s.jobs := by unfold claimWrite; (repeat' split) <;> simp
@[simp] theorem claimWrite_time (s : State) (index : Nat) (sub : Nat) (v : Nat) : (claimWrite s index sub v).2.2.time = s.time := by unfold claimWrite; (repeat' split) <;> simp
@[simp] theorem claimWrite_arrays (s : State) (index : Nat) (sub : Nat) (v : Nat) : (claimWrite s index sub v).2.2.arrays = s.arrays := by unfold claimWrite; (repeat' split) <;> simp
@[simp] theorem claimWrite_ports (s : State) (index : Nat) (sub : Nat) (v : Nat) : (claimWrite s index sub v).2.2.ports = s.ports := by unfold claimWrite; (repeat' split) <;> simp
@[simp] theorem claimWrite_trust (s : State) (index : Nat) (sub : Nat) (v : Nat) : (claimWrite s index sub v).2.2.trust = s.trust := by unfold claimWrite; (repeat' split) <;> simp
@[simp] theorem claimWrite_power (s : State) (index : Nat) (sub : Nat) (v : Nat) : (claimWrite s index sub v).2.2.power = s.power := by unfold claimWrite; (repeat' split) <;> simp
@[simp] theorem faultAckWrite_pending (s : State) (v : Nat) : (faultAckWrite s v).2.pending = s.pending := by unfold faultAckWrite; (repeat' split) <;> simp
@[simp] theorem faultAckWrite_mem (s : State) (v : Nat) : (faultAckWrite s v).2.mem = s.mem := by unfold faultAckWrite; (repeat' split) <;> simp
@[simp] theorem faultAckWrite_queues (s : State) (v : Nat) : (faultAckWrite s v).2.queues = s.queues := by unfold faultAckWrite; (repeat' split) <;> simp
@[simp] theorem faultAckWrite_sems (s : State) (v : Nat) : (faultAckWrite s v).2.sems = s.sems := by unfold faultAckWrite; (repeat' split) <;> simp
@[simp] theorem faultAckWrite_jobs (s : State) (v : Nat) : (faultAckWrite s v).2.jobs = s.jobs := by unfold faultAckWrite; (repeat' split) <;> simp
@[simp] theorem faultAckWrite_time (s : State) (v : Nat) : (faultAckWrite s v).2.time = s.time := by unfold faultAckWrite; (repeat' split) <;> simp
@[simp] theorem faultAckWrite_arrays (s : State) (v : Nat) : (faultAckWrite s v).2.arrays = s.arrays := by unfold faultAckWrite; (repeat' split) <;> simp
@[simp] theorem faultAckWrite_ports (s : State) (v : Nat) : (faultAckWrite s v).2.ports = s.ports := by unfold faultAckWrite; (repeat' split) <;> simp
@[simp] theorem faultAckWrite_trust (s : State) (v : Nat) : (faultAckWrite s v).2.trust = s.trust := by unfold faultAckWrite; (repeat' split) <;> simp
@[simp] theorem faultAckWrite_power (s : State) (v : Nat) : (faultAckWrite s v).2.power = s.power := by unfold faultAckWrite; (repeat' split) <;> simp
@[simp] theorem traceEnWrite_pending (s : State) (v : Nat) : (traceEnWrite s v).2.pending = s.pending := (rfl)
@[simp] theorem traceEnWrite_mem (s : State) (v : Nat) : (traceEnWrite s v).2.mem = s.mem := (rfl)
@[simp] theorem traceEnWrite_queues (s : State) (v : Nat) : (traceEnWrite s v).2.queues = s.queues := (rfl)
@[simp] theorem traceEnWrite_sems (s : State) (v : Nat) : (traceEnWrite s v).2.sems = s.sems := (rfl)
@[simp] theorem traceEnWrite_jobs (s : State) (v : Nat) : (traceEnWrite s v).2.jobs = s.jobs := (rfl)
@[simp] theorem traceEnWrite_time (s : State) (v : Nat) : (traceEnWrite s v).2.time = s.time := (rfl)
@[simp] theorem traceEnWrite_arrays (s : State) (v : Nat) : (traceEnWrite s v).2.arrays = s.arrays := (rfl)
@[simp] theorem traceEnWrite_ports (s : State) (v : Nat) : (traceEnWrite s v).2.ports = s.ports := (rfl)
@[simp] theorem traceEnWrite_trust (s : State) (v : Nat) : (traceEnWrite s v).2.trust = s.trust := (rfl)
@[simp] theorem traceEnWrite_power (s : State) (v : Nat) : (traceEnWrite s v).2.power = s.power := (rfl)
@[simp] theorem triggerTrace_pending (s : State) : (triggerTrace s).pending = s.pending := by unfold triggerTrace; simp -implicitDefEqProofs
@[simp] theorem triggerTrace_mem (s : State) : (triggerTrace s).mem = s.mem := by unfold triggerTrace; simp -implicitDefEqProofs
@[simp] theorem triggerTrace_queues (s : State) : (triggerTrace s).queues = s.queues := by unfold triggerTrace; simp -implicitDefEqProofs
@[simp] theorem triggerTrace_sems (s : State) : (triggerTrace s).sems = s.sems := by unfold triggerTrace; simp -implicitDefEqProofs
@[simp] theorem triggerTrace_jobs (s : State) : (triggerTrace s).jobs = s.jobs := by unfold triggerTrace; simp -implicitDefEqProofs
@[simp] theorem triggerTrace_time (s : State) : (triggerTrace s).time = s.time := by unfold triggerTrace; simp -implicitDefEqProofs
@[simp] theorem triggerTrace_arrays (s : State) : (triggerTrace s).arrays = s.arrays := by unfold triggerTrace; simp -implicitDefEqProofs
@[simp] theorem triggerTrace_ports (s : State) : (triggerTrace s).ports = s.ports := by unfold triggerTrace; simp -implicitDefEqProofs
@[simp] theorem triggerTrace_trust (s : State) : (triggerTrace s).trust = s.trust := by unfold triggerTrace; simp -implicitDefEqProofs
@[simp] theorem triggerTrace_power (s : State) : (triggerTrace s).power = s.power := by unfold triggerTrace; simp -implicitDefEqProofs
@[simp] theorem persist_pending (s : State) (index : Nat) (sub : Nat) (v : Nat) : (persist s index sub v).pending = s.pending := (rfl)
@[simp] theorem persist_mem (s : State) (index : Nat) (sub : Nat) (v : Nat) : (persist s index sub v).mem = s.mem := (rfl)
@[simp] theorem persist_queues (s : State) (index : Nat) (sub : Nat) (v : Nat) : (persist s index sub v).queues = s.queues := (rfl)
@[simp] theorem persist_sems (s : State) (index : Nat) (sub : Nat) (v : Nat) : (persist s index sub v).sems = s.sems := (rfl)
@[simp] theorem persist_jobs (s : State) (index : Nat) (sub : Nat) (v : Nat) : (persist s index sub v).jobs = s.jobs := (rfl)
@[simp] theorem persist_time (s : State) (index : Nat) (sub : Nat) (v : Nat) : (persist s index sub v).time = s.time := (rfl)
@[simp] theorem persist_arrays (s : State) (index : Nat) (sub : Nat) (v : Nat) : (persist s index sub v).arrays = s.arrays := (rfl)
@[simp] theorem persist_ports (s : State) (index : Nat) (sub : Nat) (v : Nat) : (persist s index sub v).ports = s.ports := (rfl)
@[simp] theorem persist_trust (s : State) (index : Nat) (sub : Nat) (v : Nat) : (persist s index sub v).trust = s.trust := (rfl)
@[simp] theorem persist_power (s : State) (index : Nat) (sub : Nat) (v : Nat) : (persist s index sub v).power = s.power := (rfl)
@[simp] theorem setSlot_pending (s : State) (n : Nat) (x : Slot) : (setSlot s n x).pending = s.pending := (rfl)
@[simp] theorem setSlot_mem (s : State) (n : Nat) (x : Slot) : (setSlot s n x).mem = s.mem := (rfl)
@[simp] theorem setSlot_queues (s : State) (n : Nat) (x : Slot) : (setSlot s n x).queues = s.queues := (rfl)
@[simp] theorem setSlot_sems (s : State) (n : Nat) (x : Slot) : (setSlot s n x).sems = s.sems := (rfl)
@[simp] theorem setSlot_jobs (s : State) (n : Nat) (x : Slot) : (setSlot s n x).jobs = s.jobs := (rfl)
@[simp] theorem setSlot_time (s : State) (n : Nat) (x : Slot) : (setSlot s n x).time = s.time := (rfl)
@[simp] theorem setSlot_arrays (s : State) (n : Nat) (x : Slot) : (setSlot s n x).arrays = s.arrays := (rfl)
@[simp] theorem setSlot_ports (s : State) (n : Nat) (x : Slot) : (setSlot s n x).ports = s.ports := (rfl)
@[simp] theorem setSlot_power (s : State) (n : Nat) (x : Slot) : (setSlot s n x).power = s.power := (rfl)
@[simp] theorem bootRoot_pending (s : State) (kind : Nat) : (bootRoot s kind).pending = s.pending := by unfold bootRoot; (repeat' split) <;> simp
@[simp] theorem bootRoot_mem (s : State) (kind : Nat) : (bootRoot s kind).mem = s.mem := by unfold bootRoot; (repeat' split) <;> simp
@[simp] theorem bootRoot_queues (s : State) (kind : Nat) : (bootRoot s kind).queues = s.queues := by unfold bootRoot; (repeat' split) <;> simp
@[simp] theorem bootRoot_sems (s : State) (kind : Nat) : (bootRoot s kind).sems = s.sems := by unfold bootRoot; (repeat' split) <;> simp
@[simp] theorem bootRoot_jobs (s : State) (kind : Nat) : (bootRoot s kind).jobs = s.jobs := by unfold bootRoot; (repeat' split) <;> simp
@[simp] theorem bootRoot_time (s : State) (kind : Nat) : (bootRoot s kind).time = s.time := by unfold bootRoot; (repeat' split) <;> simp
@[simp] theorem bootRoot_arrays (s : State) (kind : Nat) : (bootRoot s kind).arrays = s.arrays := by unfold bootRoot; (repeat' split) <;> simp
@[simp] theorem bootRoot_ports (s : State) (kind : Nat) : (bootRoot s kind).ports = s.ports := by unfold bootRoot; (repeat' split) <;> simp
@[simp] theorem bootRoot_power (s : State) (kind : Nat) : (bootRoot s kind).power = s.power := by unfold bootRoot; (repeat' split) <;> simp
@[simp] theorem writeHeld_pending (s : State) : (writeHeld s).pending = s.pending := by unfold writeHeld; simp -implicitDefEqProofs
@[simp] theorem writeHeld_mem (s : State) : (writeHeld s).mem = s.mem := by unfold writeHeld; simp -implicitDefEqProofs
@[simp] theorem writeHeld_queues (s : State) : (writeHeld s).queues = s.queues := by unfold writeHeld; simp -implicitDefEqProofs
@[simp] theorem writeHeld_sems (s : State) : (writeHeld s).sems = s.sems := by unfold writeHeld; simp -implicitDefEqProofs
@[simp] theorem writeHeld_jobs (s : State) : (writeHeld s).jobs = s.jobs := by unfold writeHeld; simp -implicitDefEqProofs
@[simp] theorem writeHeld_time (s : State) : (writeHeld s).time = s.time := by unfold writeHeld; simp -implicitDefEqProofs
@[simp] theorem writeHeld_arrays (s : State) : (writeHeld s).arrays = s.arrays := by unfold writeHeld; simp -implicitDefEqProofs
@[simp] theorem writeHeld_ports (s : State) : (writeHeld s).ports = s.ports := by unfold writeHeld; simp -implicitDefEqProofs
@[simp] theorem writeHeld_trust (s : State) : (writeHeld s).trust = s.trust := by unfold writeHeld; simp -implicitDefEqProofs
@[simp] theorem writeHeld_power (s : State) : (writeHeld s).power = s.power := by unfold writeHeld; simp -implicitDefEqProofs
@[simp] theorem mgmtReset_pending (s : State) : (mgmtReset s).pending = s.pending := (rfl)
@[simp] theorem mgmtReset_mem (s : State) : (mgmtReset s).mem = s.mem := (rfl)
@[simp] theorem mgmtReset_queues (s : State) : (mgmtReset s).queues = s.queues := (rfl)
@[simp] theorem mgmtReset_sems (s : State) : (mgmtReset s).sems = s.sems := (rfl)
@[simp] theorem mgmtReset_jobs (s : State) : (mgmtReset s).jobs = s.jobs := (rfl)
@[simp] theorem mgmtReset_time (s : State) : (mgmtReset s).time = s.time := (rfl)
@[simp] theorem mgmtReset_arrays (s : State) : (mgmtReset s).arrays = s.arrays := (rfl)
@[simp] theorem mgmtReset_ports (s : State) : (mgmtReset s).ports = s.ports := (rfl)
@[simp] theorem mgmtReset_power (s : State) : (mgmtReset s).power = s.power := (rfl)
@[simp] theorem enterFaulted_pending (s : State) (cause : Nat) : (enterFaulted s cause).pending = s.pending := by unfold enterFaulted; simp -implicitDefEqProofs
@[simp] theorem enterFaulted_queues (s : State) (cause : Nat) : (enterFaulted s cause).queues = s.queues := by unfold enterFaulted; simp -implicitDefEqProofs
@[simp] theorem enterFaulted_sems (s : State) (cause : Nat) : (enterFaulted s cause).sems = s.sems := by unfold enterFaulted; simp -implicitDefEqProofs
@[simp] theorem enterFaulted_jobs (s : State) (cause : Nat) : (enterFaulted s cause).jobs = s.jobs := by unfold enterFaulted; simp -implicitDefEqProofs
@[simp] theorem enterFaulted_time (s : State) (cause : Nat) : (enterFaulted s cause).time = s.time := by unfold enterFaulted; simp -implicitDefEqProofs
@[simp] theorem enterFaulted_arrays (s : State) (cause : Nat) : (enterFaulted s cause).arrays = s.arrays := by unfold enterFaulted; simp -implicitDefEqProofs
@[simp] theorem enterFaulted_ports (s : State) (cause : Nat) : (enterFaulted s cause).ports = s.ports := by unfold enterFaulted; simp -implicitDefEqProofs
@[simp] theorem enterFaulted_trust (s : State) (cause : Nat) : (enterFaulted s cause).trust = s.trust := by unfold enterFaulted; simp -implicitDefEqProofs
@[simp] theorem fwTargetWrite_pending (s : State) (v : Nat) : (fwTargetWrite s v).2.pending = s.pending := by unfold fwTargetWrite; (repeat' split) <;> simp
@[simp] theorem fwTargetWrite_mem (s : State) (v : Nat) : (fwTargetWrite s v).2.mem = s.mem := by unfold fwTargetWrite; (repeat' split) <;> simp
@[simp] theorem fwTargetWrite_queues (s : State) (v : Nat) : (fwTargetWrite s v).2.queues = s.queues := by unfold fwTargetWrite; (repeat' split) <;> simp
@[simp] theorem fwTargetWrite_sems (s : State) (v : Nat) : (fwTargetWrite s v).2.sems = s.sems := by unfold fwTargetWrite; (repeat' split) <;> simp
@[simp] theorem fwTargetWrite_jobs (s : State) (v : Nat) : (fwTargetWrite s v).2.jobs = s.jobs := by unfold fwTargetWrite; (repeat' split) <;> simp
@[simp] theorem fwTargetWrite_time (s : State) (v : Nat) : (fwTargetWrite s v).2.time = s.time := by unfold fwTargetWrite; (repeat' split) <;> simp
@[simp] theorem fwTargetWrite_arrays (s : State) (v : Nat) : (fwTargetWrite s v).2.arrays = s.arrays := by unfold fwTargetWrite; (repeat' split) <;> simp
@[simp] theorem fwTargetWrite_ports (s : State) (v : Nat) : (fwTargetWrite s v).2.ports = s.ports := by unfold fwTargetWrite; (repeat' split) <;> simp
@[simp] theorem fwTargetWrite_power (s : State) (v : Nat) : (fwTargetWrite s v).2.power = s.power := by unfold fwTargetWrite; (repeat' split) <;> simp
@[simp] theorem fwChunkWrite_pending (s : State) (d : List Byte) : (fwChunkWrite s d).2.pending = s.pending := by unfold fwChunkWrite; (try simp only []); (repeat' split) <;> (try rename_i h) <;> (first | (simp; done) | (simp [vWrite_ok_pending h]; done) | (simp [vWrite_ok_pending h]; split <;> simp) | (simp [vRead_ok_pending h]; done) | (simp; split <;> simp) | simp_all)
@[simp] theorem fwChunkWrite_mem (s : State) (d : List Byte) : (fwChunkWrite s d).2.mem = s.mem := by unfold fwChunkWrite; (try simp only []); (repeat' split) <;> (try rename_i h) <;> (first | (simp; done) | (simp [vWrite_ok_mem h]; done) | (simp [vWrite_ok_mem h]; split <;> simp) | (simp [vRead_ok_mem h]; done) | (simp; split <;> simp) | simp_all)
@[simp] theorem fwChunkWrite_queues (s : State) (d : List Byte) : (fwChunkWrite s d).2.queues = s.queues := by unfold fwChunkWrite; (try simp only []); (repeat' split) <;> (try rename_i h) <;> (first | (simp; done) | (simp [vWrite_ok_queues h]; done) | (simp [vWrite_ok_queues h]; split <;> simp) | (simp [vRead_ok_queues h]; done) | (simp; split <;> simp) | simp_all)
@[simp] theorem fwChunkWrite_sems (s : State) (d : List Byte) : (fwChunkWrite s d).2.sems = s.sems := by unfold fwChunkWrite; (try simp only []); (repeat' split) <;> (try rename_i h) <;> (first | (simp; done) | (simp [vWrite_ok_sems h]; done) | (simp [vWrite_ok_sems h]; split <;> simp) | (simp [vRead_ok_sems h]; done) | (simp; split <;> simp) | simp_all)
@[simp] theorem fwChunkWrite_jobs (s : State) (d : List Byte) : (fwChunkWrite s d).2.jobs = s.jobs := by unfold fwChunkWrite; (try simp only []); (repeat' split) <;> (try rename_i h) <;> (first | (simp; done) | (simp [vWrite_ok_jobs h]; done) | (simp [vWrite_ok_jobs h]; split <;> simp) | (simp [vRead_ok_jobs h]; done) | (simp; split <;> simp) | simp_all)
@[simp] theorem fwChunkWrite_time (s : State) (d : List Byte) : (fwChunkWrite s d).2.time = s.time := by unfold fwChunkWrite; (try simp only []); (repeat' split) <;> (try rename_i h) <;> (first | (simp; done) | (simp [vWrite_ok_time h]; done) | (simp [vWrite_ok_time h]; split <;> simp) | (simp [vRead_ok_time h]; done) | (simp; split <;> simp) | simp_all)
@[simp] theorem fwChunkWrite_arrays (s : State) (d : List Byte) : (fwChunkWrite s d).2.arrays = s.arrays := by unfold fwChunkWrite; (try simp only []); (repeat' split) <;> (try rename_i h) <;> (first | (simp; done) | (simp [vWrite_ok_arrays h]; done) | (simp [vWrite_ok_arrays h]; split <;> simp) | (simp [vRead_ok_arrays h]; done) | (simp; split <;> simp) | simp_all)
@[simp] theorem fwChunkWrite_ports (s : State) (d : List Byte) : (fwChunkWrite s d).2.ports = s.ports := by unfold fwChunkWrite; (try simp only []); (repeat' split) <;> (try rename_i h) <;> (first | (simp; done) | (simp [vWrite_ok_ports h]; done) | (simp [vWrite_ok_ports h]; split <;> simp) | (simp [vRead_ok_ports h]; done) | (simp; split <;> simp) | simp_all)
@[simp] theorem fwChunkWrite_power (s : State) (d : List Byte) : (fwChunkWrite s d).2.power = s.power := by unfold fwChunkWrite; (try simp only []); (repeat' split) <;> (try rename_i h) <;> (first | (simp; done) | (simp [vWrite_ok_power h]; done) | (simp [vWrite_ok_power h]; split <;> simp) | (simp [vRead_ok_power h]; done) | (simp; split <;> simp) | simp_all)
@[simp] theorem doCommit_pending (s : State) : (doCommit s).pending = s.pending := by unfold doCommit; simp -implicitDefEqProofs
@[simp] theorem doCommit_mem (s : State) : (doCommit s).mem = s.mem := by unfold doCommit; simp -implicitDefEqProofs
@[simp] theorem doCommit_queues (s : State) : (doCommit s).queues = s.queues := by unfold doCommit; simp -implicitDefEqProofs
@[simp] theorem doCommit_sems (s : State) : (doCommit s).sems = s.sems := by unfold doCommit; simp -implicitDefEqProofs
@[simp] theorem doCommit_jobs (s : State) : (doCommit s).jobs = s.jobs := by unfold doCommit; simp -implicitDefEqProofs
@[simp] theorem doCommit_time (s : State) : (doCommit s).time = s.time := by unfold doCommit; simp -implicitDefEqProofs
@[simp] theorem doCommit_arrays (s : State) : (doCommit s).arrays = s.arrays := by unfold doCommit; simp -implicitDefEqProofs
@[simp] theorem doCommit_ports (s : State) : (doCommit s).ports = s.ports := by unfold doCommit; simp -implicitDefEqProofs
@[simp] theorem doCommit_power (s : State) : (doCommit s).power = s.power := by unfold doCommit; simp -implicitDefEqProofs
@[simp] theorem fwCommitWrite_pending (s : State) : (fwCommitWrite s).2.pending = s.pending := by unfold fwCommitWrite; (try simp only []); (repeat' split) <;> (try rename_i h) <;> (first | (simp; done) | (simp [vWrite_ok_pending h]; done) | (simp [vWrite_ok_pending h]; split <;> simp) | (simp [vRead_ok_pending h]; done) | (simp; split <;> simp) | simp_all)
@[simp] theorem fwCommitWrite_mem (s : State) : (fwCommitWrite s).2.mem = s.mem := by unfold fwCommitWrite; (try simp only []); (repeat' split) <;> (try rename_i h) <;> (first | (simp; done) | (simp [vWrite_ok_mem h]; done) | (simp [vWrite_ok_mem h]; split <;> simp) | (simp [vRead_ok_mem h]; done) | (simp; split <;> simp) | simp_all)
@[simp] theorem fwCommitWrite_queues (s : State) : (fwCommitWrite s).2.queues = s.queues := by unfold fwCommitWrite; (try simp only []); (repeat' split) <;> (try rename_i h) <;> (first | (simp; done) | (simp [vWrite_ok_queues h]; done) | (simp [vWrite_ok_queues h]; split <;> simp) | (simp [vRead_ok_queues h]; done) | (simp; split <;> simp) | simp_all)
@[simp] theorem fwCommitWrite_sems (s : State) : (fwCommitWrite s).2.sems = s.sems := by unfold fwCommitWrite; (try simp only []); (repeat' split) <;> (try rename_i h) <;> (first | (simp; done) | (simp [vWrite_ok_sems h]; done) | (simp [vWrite_ok_sems h]; split <;> simp) | (simp [vRead_ok_sems h]; done) | (simp; split <;> simp) | simp_all)
@[simp] theorem fwCommitWrite_jobs (s : State) : (fwCommitWrite s).2.jobs = s.jobs := by unfold fwCommitWrite; (try simp only []); (repeat' split) <;> (try rename_i h) <;> (first | (simp; done) | (simp [vWrite_ok_jobs h]; done) | (simp [vWrite_ok_jobs h]; split <;> simp) | (simp [vRead_ok_jobs h]; done) | (simp; split <;> simp) | simp_all)
@[simp] theorem fwCommitWrite_time (s : State) : (fwCommitWrite s).2.time = s.time := by unfold fwCommitWrite; (try simp only []); (repeat' split) <;> (try rename_i h) <;> (first | (simp; done) | (simp [vWrite_ok_time h]; done) | (simp [vWrite_ok_time h]; split <;> simp) | (simp [vRead_ok_time h]; done) | (simp; split <;> simp) | simp_all)
@[simp] theorem fwCommitWrite_arrays (s : State) : (fwCommitWrite s).2.arrays = s.arrays := by unfold fwCommitWrite; (try simp only []); (repeat' split) <;> (try rename_i h) <;> (first | (simp; done) | (simp [vWrite_ok_arrays h]; done) | (simp [vWrite_ok_arrays h]; split <;> simp) | (simp [vRead_ok_arrays h]; done) | (simp; split <;> simp) | simp_all)
@[simp] theorem fwCommitWrite_ports (s : State) : (fwCommitWrite s).2.ports = s.ports := by unfold fwCommitWrite; (try simp only []); (repeat' split) <;> (try rename_i h) <;> (first | (simp; done) | (simp [vWrite_ok_ports h]; done) | (simp [vWrite_ok_ports h]; split <;> simp) | (simp [vRead_ok_ports h]; done) | (simp; split <;> simp) | simp_all)
@[simp] theorem fwCommitWrite_power (s : State) : (fwCommitWrite s).2.power = s.power := by unfold fwCommitWrite; (try simp only []); (repeat' split) <;> (try rename_i h) <;> (first | (simp; done) | (simp [vWrite_ok_power h]; done) | (simp [vWrite_ok_power h]; split <;> simp) | (simp [vRead_ok_power h]; done) | (simp; split <;> simp) | simp_all)
@[simp] theorem acceptUnlock_pending (s : State) : (acceptUnlock s).pending = s.pending := by unfold acceptUnlock; simp -implicitDefEqProofs
@[simp] theorem acceptUnlock_mem (s : State) : (acceptUnlock s).mem = s.mem := by unfold acceptUnlock; simp -implicitDefEqProofs
@[simp] theorem acceptUnlock_queues (s : State) : (acceptUnlock s).queues = s.queues := by unfold acceptUnlock; simp -implicitDefEqProofs
@[simp] theorem acceptUnlock_sems (s : State) : (acceptUnlock s).sems = s.sems := by unfold acceptUnlock; simp -implicitDefEqProofs
@[simp] theorem acceptUnlock_jobs (s : State) : (acceptUnlock s).jobs = s.jobs := by unfold acceptUnlock; simp -implicitDefEqProofs
@[simp] theorem acceptUnlock_time (s : State) : (acceptUnlock s).time = s.time := by unfold acceptUnlock; simp -implicitDefEqProofs
@[simp] theorem acceptUnlock_arrays (s : State) : (acceptUnlock s).arrays = s.arrays := by unfold acceptUnlock; simp -implicitDefEqProofs
@[simp] theorem acceptUnlock_ports (s : State) : (acceptUnlock s).ports = s.ports := by unfold acceptUnlock; simp -implicitDefEqProofs
@[simp] theorem acceptUnlock_power (s : State) : (acceptUnlock s).power = s.power := by unfold acceptUnlock; simp -implicitDefEqProofs
@[simp] theorem fwActivateWrite_pending (s : State) : (fwActivateWrite s).2.pending = s.pending := by unfold fwActivateWrite; (try simp only []); (repeat' split) <;> (try rename_i h) <;> (first | (simp; done) | (simp [vWrite_ok_pending h]; done) | (simp [vWrite_ok_pending h]; split <;> simp) | (simp [vRead_ok_pending h]; done) | (simp; split <;> simp) | simp_all)
@[simp] theorem fwActivateWrite_mem (s : State) : (fwActivateWrite s).2.mem = s.mem := by unfold fwActivateWrite; (try simp only []); (repeat' split) <;> (try rename_i h) <;> (first | (simp; done) | (simp [vWrite_ok_mem h]; done) | (simp [vWrite_ok_mem h]; split <;> simp) | (simp [vRead_ok_mem h]; done) | (simp; split <;> simp) | simp_all)
@[simp] theorem fwActivateWrite_queues (s : State) : (fwActivateWrite s).2.queues = s.queues := by unfold fwActivateWrite; (try simp only []); (repeat' split) <;> (try rename_i h) <;> (first | (simp; done) | (simp [vWrite_ok_queues h]; done) | (simp [vWrite_ok_queues h]; split <;> simp) | (simp [vRead_ok_queues h]; done) | (simp; split <;> simp) | simp_all)
@[simp] theorem fwActivateWrite_sems (s : State) : (fwActivateWrite s).2.sems = s.sems := by unfold fwActivateWrite; (try simp only []); (repeat' split) <;> (try rename_i h) <;> (first | (simp; done) | (simp [vWrite_ok_sems h]; done) | (simp [vWrite_ok_sems h]; split <;> simp) | (simp [vRead_ok_sems h]; done) | (simp; split <;> simp) | simp_all)
@[simp] theorem fwActivateWrite_jobs (s : State) : (fwActivateWrite s).2.jobs = s.jobs := by unfold fwActivateWrite; (try simp only []); (repeat' split) <;> (try rename_i h) <;> (first | (simp; done) | (simp [vWrite_ok_jobs h]; done) | (simp [vWrite_ok_jobs h]; split <;> simp) | (simp [vRead_ok_jobs h]; done) | (simp; split <;> simp) | simp_all)
@[simp] theorem fwActivateWrite_time (s : State) : (fwActivateWrite s).2.time = s.time := by unfold fwActivateWrite; (try simp only []); (repeat' split) <;> (try rename_i h) <;> (first | (simp; done) | (simp [vWrite_ok_time h]; done) | (simp [vWrite_ok_time h]; split <;> simp) | (simp [vRead_ok_time h]; done) | (simp; split <;> simp) | simp_all)
@[simp] theorem fwActivateWrite_arrays (s : State) : (fwActivateWrite s).2.arrays = s.arrays := by unfold fwActivateWrite; (try simp only []); (repeat' split) <;> (try rename_i h) <;> (first | (simp; done) | (simp [vWrite_ok_arrays h]; done) | (simp [vWrite_ok_arrays h]; split <;> simp) | (simp [vRead_ok_arrays h]; done) | (simp; split <;> simp) | simp_all)
@[simp] theorem fwActivateWrite_ports (s : State) : (fwActivateWrite s).2.ports = s.ports := by unfold fwActivateWrite; (try simp only []); (repeat' split) <;> (try rename_i h) <;> (first | (simp; done) | (simp [vWrite_ok_ports h]; done) | (simp [vWrite_ok_ports h]; split <;> simp) | (simp [vRead_ok_ports h]; done) | (simp; split <;> simp) | simp_all)
@[simp] theorem fwActivateWrite_power (s : State) : (fwActivateWrite s).2.power = s.power := by unfold fwActivateWrite; (try simp only []); (repeat' split) <;> (try rename_i h) <;> (first | (simp; done) | (simp [vWrite_ok_power h]; done) | (simp [vWrite_ok_power h]; split <;> simp) | (simp [vRead_ok_power h]; done) | (simp; split <;> simp) | simp_all)
@[simp] theorem svnRaiseWrite_pending (s : State) (kind : Nat) : (svnRaiseWrite s kind).2.pending = s.pending := by unfold svnRaiseWrite; (repeat' split) <;> simp
@[simp] theorem svnRaiseWrite_mem (s : State) (kind : Nat) : (svnRaiseWrite s kind).2.mem = s.mem := by unfold svnRaiseWrite; (repeat' split) <;> simp
@[simp] theorem svnRaiseWrite_queues (s : State) (kind : Nat) : (svnRaiseWrite s kind).2.queues = s.queues := by unfold svnRaiseWrite; (repeat' split) <;> simp
@[simp] theorem svnRaiseWrite_sems (s : State) (kind : Nat) : (svnRaiseWrite s kind).2.sems = s.sems := by unfold svnRaiseWrite; (repeat' split) <;> simp
@[simp] theorem svnRaiseWrite_jobs (s : State) (kind : Nat) : (svnRaiseWrite s kind).2.jobs = s.jobs := by unfold svnRaiseWrite; (repeat' split) <;> simp
@[simp] theorem svnRaiseWrite_time (s : State) (kind : Nat) : (svnRaiseWrite s kind).2.time = s.time := by unfold svnRaiseWrite; (repeat' split) <;> simp
@[simp] theorem svnRaiseWrite_arrays (s : State) (kind : Nat) : (svnRaiseWrite s kind).2.arrays = s.arrays := by unfold svnRaiseWrite; (repeat' split) <;> simp
@[simp] theorem svnRaiseWrite_ports (s : State) (kind : Nat) : (svnRaiseWrite s kind).2.ports = s.ports := by unfold svnRaiseWrite; (repeat' split) <;> simp
@[simp] theorem svnRaiseWrite_power (s : State) (kind : Nat) : (svnRaiseWrite s kind).2.power = s.power := by unfold svnRaiseWrite; (repeat' split) <;> simp
@[simp] theorem coreReplaceWrite_pending (s : State) (v : Nat) : (coreReplaceWrite s v).2.pending = s.pending := by unfold coreReplaceWrite; (try simp only []); (repeat' split) <;> (try rename_i h) <;> (first | (simp; done) | (simp [vWrite_ok_pending h]; done) | (simp [vWrite_ok_pending h]; split <;> simp) | (simp [vRead_ok_pending h]; done) | (simp; split <;> simp) | simp_all)
@[simp] theorem coreReplaceWrite_mem (s : State) (v : Nat) : (coreReplaceWrite s v).2.mem = s.mem := by unfold coreReplaceWrite; (try simp only []); (repeat' split) <;> (try rename_i h) <;> (first | (simp; done) | (simp [vWrite_ok_mem h]; done) | (simp [vWrite_ok_mem h]; split <;> simp) | (simp [vRead_ok_mem h]; done) | (simp; split <;> simp) | simp_all)
@[simp] theorem coreReplaceWrite_queues (s : State) (v : Nat) : (coreReplaceWrite s v).2.queues = s.queues := by unfold coreReplaceWrite; (try simp only []); (repeat' split) <;> (try rename_i h) <;> (first | (simp; done) | (simp [vWrite_ok_queues h]; done) | (simp [vWrite_ok_queues h]; split <;> simp) | (simp [vRead_ok_queues h]; done) | (simp; split <;> simp) | simp_all)
@[simp] theorem coreReplaceWrite_sems (s : State) (v : Nat) : (coreReplaceWrite s v).2.sems = s.sems := by unfold coreReplaceWrite; (try simp only []); (repeat' split) <;> (try rename_i h) <;> (first | (simp; done) | (simp [vWrite_ok_sems h]; done) | (simp [vWrite_ok_sems h]; split <;> simp) | (simp [vRead_ok_sems h]; done) | (simp; split <;> simp) | simp_all)
@[simp] theorem coreReplaceWrite_jobs (s : State) (v : Nat) : (coreReplaceWrite s v).2.jobs = s.jobs := by unfold coreReplaceWrite; (try simp only []); (repeat' split) <;> (try rename_i h) <;> (first | (simp; done) | (simp [vWrite_ok_jobs h]; done) | (simp [vWrite_ok_jobs h]; split <;> simp) | (simp [vRead_ok_jobs h]; done) | (simp; split <;> simp) | simp_all)
@[simp] theorem coreReplaceWrite_time (s : State) (v : Nat) : (coreReplaceWrite s v).2.time = s.time := by unfold coreReplaceWrite; (try simp only []); (repeat' split) <;> (try rename_i h) <;> (first | (simp; done) | (simp [vWrite_ok_time h]; done) | (simp [vWrite_ok_time h]; split <;> simp) | (simp [vRead_ok_time h]; done) | (simp; split <;> simp) | simp_all)
@[simp] theorem coreReplaceWrite_ports (s : State) (v : Nat) : (coreReplaceWrite s v).2.ports = s.ports := by unfold coreReplaceWrite; (try simp only []); (repeat' split) <;> (try rename_i h) <;> (first | (simp; done) | (simp [vWrite_ok_ports h]; done) | (simp [vWrite_ok_ports h]; split <;> simp) | (simp [vRead_ok_ports h]; done) | (simp; split <;> simp) | simp_all)
@[simp] theorem coreReplaceWrite_power (s : State) (v : Nat) : (coreReplaceWrite s v).2.power = s.power := by unfold coreReplaceWrite; (try simp only []); (repeat' split) <;> (try rename_i h) <;> (first | (simp; done) | (simp [vWrite_ok_power h]; done) | (simp [vWrite_ok_power h]; split <;> simp) | (simp [vRead_ok_power h]; done) | (simp; split <;> simp) | simp_all)
@[simp] theorem setRepl_pending (s : State) (r : CoreRepl) : (setRepl s r).pending = s.pending := (rfl)
@[simp] theorem setRepl_mem (s : State) (r : CoreRepl) : (setRepl s r).mem = s.mem := (rfl)
@[simp] theorem setRepl_queues (s : State) (r : CoreRepl) : (setRepl s r).queues = s.queues := (rfl)
@[simp] theorem setRepl_sems (s : State) (r : CoreRepl) : (setRepl s r).sems = s.sems := (rfl)
@[simp] theorem setRepl_jobs (s : State) (r : CoreRepl) : (setRepl s r).jobs = s.jobs := (rfl)
@[simp] theorem setRepl_time (s : State) (r : CoreRepl) : (setRepl s r).time = s.time := (rfl)
@[simp] theorem setRepl_arrays (s : State) (r : CoreRepl) : (setRepl s r).arrays = s.arrays := (rfl)
@[simp] theorem setRepl_ports (s : State) (r : CoreRepl) : (setRepl s r).ports = s.ports := (rfl)
@[simp] theorem setRepl_power (s : State) (r : CoreRepl) : (setRepl s r).power = s.power := (rfl)
@[simp] theorem spendSpare_pending (s : State) (die : Nat) (spare : Nat) : (spendSpare s die spare).pending = s.pending := by unfold spendSpare; simp -implicitDefEqProofs
@[simp] theorem spendSpare_mem (s : State) (die : Nat) (spare : Nat) : (spendSpare s die spare).mem = s.mem := by unfold spendSpare; simp -implicitDefEqProofs
@[simp] theorem spendSpare_queues (s : State) (die : Nat) (spare : Nat) : (spendSpare s die spare).queues = s.queues := by unfold spendSpare; simp -implicitDefEqProofs
@[simp] theorem spendSpare_sems (s : State) (die : Nat) (spare : Nat) : (spendSpare s die spare).sems = s.sems := by unfold spendSpare; simp -implicitDefEqProofs
@[simp] theorem spendSpare_jobs (s : State) (die : Nat) (spare : Nat) : (spendSpare s die spare).jobs = s.jobs := by unfold spendSpare; simp -implicitDefEqProofs
@[simp] theorem spendSpare_time (s : State) (die : Nat) (spare : Nat) : (spendSpare s die spare).time = s.time := by unfold spendSpare; simp -implicitDefEqProofs
@[simp] theorem spendSpare_arrays (s : State) (die : Nat) (spare : Nat) : (spendSpare s die spare).arrays = s.arrays := by unfold spendSpare; simp -implicitDefEqProofs
@[simp] theorem spendSpare_ports (s : State) (die : Nat) (spare : Nat) : (spendSpare s die spare).ports = s.ports := by unfold spendSpare; simp -implicitDefEqProofs
@[simp] theorem spendSpare_power (s : State) (die : Nat) (spare : Nat) : (spendSpare s die spare).power = s.power := by unfold spendSpare; simp -implicitDefEqProofs
@[simp] theorem loseCore_pending (s : State) (core : Nat) : (loseCore s core).pending = s.pending := by unfold loseCore; simp -implicitDefEqProofs
@[simp] theorem loseCore_queues (s : State) (core : Nat) : (loseCore s core).queues = s.queues := by unfold loseCore; simp -implicitDefEqProofs
@[simp] theorem loseCore_sems (s : State) (core : Nat) : (loseCore s core).sems = s.sems := by unfold loseCore; simp -implicitDefEqProofs
@[simp] theorem loseCore_jobs (s : State) (core : Nat) : (loseCore s core).jobs = s.jobs := by unfold loseCore; simp -implicitDefEqProofs
@[simp] theorem loseCore_time (s : State) (core : Nat) : (loseCore s core).time = s.time := by unfold loseCore; simp -implicitDefEqProofs
@[simp] theorem loseCore_arrays (s : State) (core : Nat) : (loseCore s core).arrays = s.arrays := by unfold loseCore; simp -implicitDefEqProofs
@[simp] theorem loseCore_ports (s : State) (core : Nat) : (loseCore s core).ports = s.ports := by unfold loseCore; simp -implicitDefEqProofs
@[simp] theorem loseCore_masks (s : State) (core : Nat) : (loseCore s core).masks = s.masks := by unfold loseCore; simp -implicitDefEqProofs
@[simp] theorem loseCore_power (s : State) (core : Nat) : (loseCore s core).power = s.power := by unfold loseCore; simp -implicitDefEqProofs
@[simp] theorem loseCore_ctxs (s : State) (core : Nat) : (loseCore s core).ctxs = s.ctxs := by unfold loseCore; simp -implicitDefEqProofs
@[simp] theorem loseCore_assign (s : State) (core : Nat) : (loseCore s core).assign = s.assign := by unfold loseCore; simp -implicitDefEqProofs
@[simp] theorem loseCore_paths (s : State) (core : Nat) : (loseCore s core).paths = s.paths := by unfold loseCore; simp -implicitDefEqProofs
@[simp] theorem failRepl_pending (s : State) (r : CoreRepl) (oldWorks : Bool) : (failRepl s r oldWorks).pending = s.pending := by unfold failRepl; simp -implicitDefEqProofs
@[simp] theorem failRepl_queues (s : State) (r : CoreRepl) (oldWorks : Bool) : (failRepl s r oldWorks).queues = s.queues := by unfold failRepl; simp -implicitDefEqProofs
@[simp] theorem failRepl_sems (s : State) (r : CoreRepl) (oldWorks : Bool) : (failRepl s r oldWorks).sems = s.sems := by unfold failRepl; simp -implicitDefEqProofs
@[simp] theorem failRepl_jobs (s : State) (r : CoreRepl) (oldWorks : Bool) : (failRepl s r oldWorks).jobs = s.jobs := by unfold failRepl; simp -implicitDefEqProofs
@[simp] theorem failRepl_time (s : State) (r : CoreRepl) (oldWorks : Bool) : (failRepl s r oldWorks).time = s.time := by unfold failRepl; simp -implicitDefEqProofs
@[simp] theorem failRepl_arrays (s : State) (r : CoreRepl) (oldWorks : Bool) : (failRepl s r oldWorks).arrays = s.arrays := by unfold failRepl; simp -implicitDefEqProofs
@[simp] theorem failRepl_ports (s : State) (r : CoreRepl) (oldWorks : Bool) : (failRepl s r oldWorks).ports = s.ports := by unfold failRepl; simp -implicitDefEqProofs
@[simp] theorem failRepl_power (s : State) (r : CoreRepl) (oldWorks : Bool) : (failRepl s r oldWorks).power = s.power := by unfold failRepl; simp -implicitDefEqProofs
@[simp] theorem freshArray_pending (s : State) (a : Nat) : (freshArray s a).pending = s.pending := by unfold freshArray; simp -implicitDefEqProofs
@[simp] theorem freshArray_mem (s : State) (a : Nat) : (freshArray s a).mem = s.mem := by unfold freshArray; simp -implicitDefEqProofs
@[simp] theorem freshArray_queues (s : State) (a : Nat) : (freshArray s a).queues = s.queues := by unfold freshArray; simp -implicitDefEqProofs
@[simp] theorem freshArray_sems (s : State) (a : Nat) : (freshArray s a).sems = s.sems := by unfold freshArray; simp -implicitDefEqProofs
@[simp] theorem freshArray_time (s : State) (a : Nat) : (freshArray s a).time = s.time := by unfold freshArray; simp -implicitDefEqProofs
@[simp] theorem freshArray_ports (s : State) (a : Nat) : (freshArray s a).ports = s.ports := by unfold freshArray; simp -implicitDefEqProofs
@[simp] theorem freshArray_trust (s : State) (a : Nat) : (freshArray s a).trust = s.trust := by unfold freshArray; simp -implicitDefEqProofs
@[simp] theorem freshArray_power (s : State) (a : Nat) : (freshArray s a).power = s.power := by unfold freshArray; simp -implicitDefEqProofs
@[simp] theorem memRepairWrite_pending (s : State) (a : Nat) : (memRepairWrite s a).2.pending = s.pending := by unfold memRepairWrite; (repeat' split) <;> simp
@[simp] theorem memRepairWrite_mem (s : State) (a : Nat) : (memRepairWrite s a).2.mem = s.mem := by unfold memRepairWrite; (repeat' split) <;> simp
@[simp] theorem memRepairWrite_queues (s : State) (a : Nat) : (memRepairWrite s a).2.queues = s.queues := by unfold memRepairWrite; (repeat' split) <;> simp
@[simp] theorem memRepairWrite_sems (s : State) (a : Nat) : (memRepairWrite s a).2.sems = s.sems := by unfold memRepairWrite; (repeat' split) <;> simp
@[simp] theorem memRepairWrite_jobs (s : State) (a : Nat) : (memRepairWrite s a).2.jobs = s.jobs := by unfold memRepairWrite; (repeat' split) <;> simp
@[simp] theorem memRepairWrite_time (s : State) (a : Nat) : (memRepairWrite s a).2.time = s.time := by unfold memRepairWrite; (repeat' split) <;> simp
@[simp] theorem memRepairWrite_arrays (s : State) (a : Nat) : (memRepairWrite s a).2.arrays = s.arrays := by unfold memRepairWrite; (repeat' split) <;> simp
@[simp] theorem memRepairWrite_ports (s : State) (a : Nat) : (memRepairWrite s a).2.ports = s.ports := by unfold memRepairWrite; (repeat' split) <;> simp
@[simp] theorem memRepairWrite_trust (s : State) (a : Nat) : (memRepairWrite s a).2.trust = s.trust := by unfold memRepairWrite; (repeat' split) <;> simp
@[simp] theorem memRepairWrite_power (s : State) (a : Nat) : (memRepairWrite s a).2.power = s.power := by unfold memRepairWrite; (repeat' split) <;> simp
@[simp] theorem respond_pending (s : State) (r : List Byte) : (respond s r).pending = s.pending := (rfl)
@[simp] theorem respond_mem (s : State) (r : List Byte) : (respond s r).mem = s.mem := (rfl)
@[simp] theorem respond_queues (s : State) (r : List Byte) : (respond s r).queues = s.queues := (rfl)
@[simp] theorem respond_sems (s : State) (r : List Byte) : (respond s r).sems = s.sems := (rfl)
@[simp] theorem respond_jobs (s : State) (r : List Byte) : (respond s r).jobs = s.jobs := (rfl)
@[simp] theorem respond_time (s : State) (r : List Byte) : (respond s r).time = s.time := (rfl)
@[simp] theorem respond_arrays (s : State) (r : List Byte) : (respond s r).arrays = s.arrays := (rfl)
@[simp] theorem respond_ports (s : State) (r : List Byte) : (respond s r).ports = s.ports := (rfl)
@[simp] theorem respond_power (s : State) (r : List Byte) : (respond s r).power = s.power := (rfl)
@[simp] theorem spdmError_pending (s : State) (code : Nat) : (spdmError s code).pending = s.pending := (rfl)
@[simp] theorem spdmError_mem (s : State) (code : Nat) : (spdmError s code).mem = s.mem := (rfl)
@[simp] theorem spdmError_queues (s : State) (code : Nat) : (spdmError s code).queues = s.queues := (rfl)
@[simp] theorem spdmError_sems (s : State) (code : Nat) : (spdmError s code).sems = s.sems := (rfl)
@[simp] theorem spdmError_jobs (s : State) (code : Nat) : (spdmError s code).jobs = s.jobs := (rfl)
@[simp] theorem spdmError_time (s : State) (code : Nat) : (spdmError s code).time = s.time := (rfl)
@[simp] theorem spdmError_arrays (s : State) (code : Nat) : (spdmError s code).arrays = s.arrays := (rfl)
@[simp] theorem spdmError_ports (s : State) (code : Nat) : (spdmError s code).ports = s.ports := (rfl)
@[simp] theorem spdmError_power (s : State) (code : Nat) : (spdmError s code).power = s.power := (rfl)
@[simp] theorem setStage_pending (s : State) (p : SpdmPath) (n : Nat) : (setStage s p n).pending = s.pending := (rfl)
@[simp] theorem setStage_mem (s : State) (p : SpdmPath) (n : Nat) : (setStage s p n).mem = s.mem := (rfl)
@[simp] theorem setStage_queues (s : State) (p : SpdmPath) (n : Nat) : (setStage s p n).queues = s.queues := (rfl)
@[simp] theorem setStage_sems (s : State) (p : SpdmPath) (n : Nat) : (setStage s p n).sems = s.sems := (rfl)
@[simp] theorem setStage_jobs (s : State) (p : SpdmPath) (n : Nat) : (setStage s p n).jobs = s.jobs := (rfl)
@[simp] theorem setStage_time (s : State) (p : SpdmPath) (n : Nat) : (setStage s p n).time = s.time := (rfl)
@[simp] theorem setStage_arrays (s : State) (p : SpdmPath) (n : Nat) : (setStage s p n).arrays = s.arrays := (rfl)
@[simp] theorem setStage_ports (s : State) (p : SpdmPath) (n : Nat) : (setStage s p n).ports = s.ports := (rfl)
@[simp] theorem setStage_power (s : State) (p : SpdmPath) (n : Nat) : (setStage s p n).power = s.power := (rfl)
@[simp] theorem applyStore_pending (s : State) : (applyStore s).pending = s.pending := (rfl)
@[simp] theorem applyStore_mem (s : State) : (applyStore s).mem = s.mem := (rfl)
@[simp] theorem applyStore_queues (s : State) : (applyStore s).queues = s.queues := (rfl)
@[simp] theorem applyStore_sems (s : State) : (applyStore s).sems = s.sems := (rfl)
@[simp] theorem applyStore_jobs (s : State) : (applyStore s).jobs = s.jobs := (rfl)
@[simp] theorem applyStore_time (s : State) : (applyStore s).time = s.time := (rfl)
@[simp] theorem applyStore_arrays (s : State) : (applyStore s).arrays = s.arrays := (rfl)
@[simp] theorem applyStore_ports (s : State) : (applyStore s).ports = s.ports := (rfl)
@[simp] theorem restarted_pending (s : State) (on : Bool) : (restarted s on).pending = s.pending := (rfl)
@[simp] theorem bringUp_pending (s : State) (h : HPort) : (bringUp s h).pending = s.pending := by unfold bringUp; simp -implicitDefEqProofs
@[simp] theorem bringUp_mem (s : State) (h : HPort) : (bringUp s h).mem = s.mem := by unfold bringUp; simp -implicitDefEqProofs
@[simp] theorem bringUp_queues (s : State) (h : HPort) : (bringUp s h).queues = s.queues := by unfold bringUp; simp -implicitDefEqProofs
@[simp] theorem bringUp_sems (s : State) (h : HPort) : (bringUp s h).sems = s.sems := by unfold bringUp; simp -implicitDefEqProofs
@[simp] theorem bringUp_jobs (s : State) (h : HPort) : (bringUp s h).jobs = s.jobs := by unfold bringUp; simp -implicitDefEqProofs
@[simp] theorem bringUp_time (s : State) (h : HPort) : (bringUp s h).time = s.time := by unfold bringUp; simp -implicitDefEqProofs
@[simp] theorem bringUp_arrays (s : State) (h : HPort) : (bringUp s h).arrays = s.arrays := by unfold bringUp; simp -implicitDefEqProofs
@[simp] theorem bringUp_ports (s : State) (h : HPort) : (bringUp s h).ports = s.ports := by unfold bringUp; simp -implicitDefEqProofs
@[simp] theorem bringUp_trust (s : State) (h : HPort) : (bringUp s h).trust = s.trust := by unfold bringUp; simp -implicitDefEqProofs
@[simp] theorem bringUp_power (s : State) (h : HPort) : (bringUp s h).power = s.power := by unfold bringUp; simp -implicitDefEqProofs
@[simp] theorem testedArray_pending (s : State) (e : ArrayNum × Option (BitVec 6) × Bool) : (testedArray s e).pending = s.pending := by unfold testedArray; (repeat' split) <;> simp
@[simp] theorem testedArray_mem (s : State) (e : ArrayNum × Option (BitVec 6) × Bool) : (testedArray s e).mem = s.mem := by unfold testedArray; (repeat' split) <;> simp
@[simp] theorem testedArray_queues (s : State) (e : ArrayNum × Option (BitVec 6) × Bool) : (testedArray s e).queues = s.queues := by unfold testedArray; (repeat' split) <;> simp
@[simp] theorem testedArray_sems (s : State) (e : ArrayNum × Option (BitVec 6) × Bool) : (testedArray s e).sems = s.sems := by unfold testedArray; (repeat' split) <;> simp
@[simp] theorem testedArray_jobs (s : State) (e : ArrayNum × Option (BitVec 6) × Bool) : (testedArray s e).jobs = s.jobs := by unfold testedArray; (repeat' split) <;> simp
@[simp] theorem testedArray_time (s : State) (e : ArrayNum × Option (BitVec 6) × Bool) : (testedArray s e).time = s.time := by unfold testedArray; (repeat' split) <;> simp
@[simp] theorem testedArray_ports (s : State) (e : ArrayNum × Option (BitVec 6) × Bool) : (testedArray s e).ports = s.ports := by unfold testedArray; (repeat' split) <;> simp
@[simp] theorem testedArray_power (s : State) (e : ArrayNum × Option (BitVec 6) × Bool) : (testedArray s e).power = s.power := by unfold testedArray; (repeat' split) <;> simp
@[simp] theorem goStandby_pending (s : State) : (goStandby s).pending = s.pending := by unfold goStandby; simp -implicitDefEqProofs
@[simp] theorem goStandby_sems (s : State) : (goStandby s).sems = s.sems := by unfold goStandby; simp -implicitDefEqProofs
@[simp] theorem goStandby_time (s : State) : (goStandby s).time = s.time := by unfold goStandby; simp -implicitDefEqProofs
@[simp] theorem goStandby_trust (s : State) : (goStandby s).trust = s.trust := by unfold goStandby; simp -implicitDefEqProofs
@[simp] theorem newEnvelope_pending (s : State) : (newEnvelope s).pending = s.pending := (rfl)
@[simp] theorem newEnvelope_mem (s : State) : (newEnvelope s).mem = s.mem := (rfl)
@[simp] theorem newEnvelope_queues (s : State) : (newEnvelope s).queues = s.queues := (rfl)
@[simp] theorem newEnvelope_sems (s : State) : (newEnvelope s).sems = s.sems := (rfl)
@[simp] theorem newEnvelope_jobs (s : State) : (newEnvelope s).jobs = s.jobs := (rfl)
@[simp] theorem newEnvelope_time (s : State) : (newEnvelope s).time = s.time := (rfl)
@[simp] theorem newEnvelope_arrays (s : State) : (newEnvelope s).arrays = s.arrays := (rfl)
@[simp] theorem newEnvelope_ports (s : State) : (newEnvelope s).ports = s.ports := (rfl)
@[simp] theorem newEnvelope_trust (s : State) : (newEnvelope s).trust = s.trust := (rfl)
@[simp] theorem modeWrite_pending (s : State) (m : Nat) : (modeWrite s m).2.pending = s.pending := by unfold modeWrite; (try simp only []); (repeat' split) <;> (try rename_i h) <;> (first | (simp; done) | (simp [vWrite_ok_pending h]; done) | (simp [vWrite_ok_pending h]; split <;> simp) | (simp [vRead_ok_pending h]; done) | (simp; split <;> simp) | simp_all)
@[simp] theorem modeWrite_sems (s : State) (m : Nat) : (modeWrite s m).2.sems = s.sems := by unfold modeWrite; (try simp only []); (repeat' split) <;> (try rename_i h) <;> (first | (simp; done) | (simp [vWrite_ok_sems h]; done) | (simp [vWrite_ok_sems h]; split <;> simp) | (simp [vRead_ok_sems h]; done) | (simp; split <;> simp) | simp_all)
@[simp] theorem modeWrite_time (s : State) (m : Nat) : (modeWrite s m).2.time = s.time := by unfold modeWrite; (try simp only []); (repeat' split) <;> (try rename_i h) <;> (first | (simp; done) | (simp [vWrite_ok_time h]; done) | (simp [vWrite_ok_time h]; split <;> simp) | (simp [vRead_ok_time h]; done) | (simp; split <;> simp) | simp_all)
@[simp] theorem modeWrite_trust (s : State) (m : Nat) : (modeWrite s m).2.trust = s.trust := by unfold modeWrite; (try simp only []); (repeat' split) <;> (try rename_i h) <;> (first | (simp; done) | (simp [vWrite_ok_trust h]; done) | (simp [vWrite_ok_trust h]; split <;> simp) | (simp [vRead_ok_trust h]; done) | (simp; split <;> simp) | simp_all)
@[simp] theorem capWrite_pending (s : State) (w : Nat) : (capWrite s w).2.pending = s.pending := by unfold capWrite; (repeat' split) <;> simp
@[simp] theorem capWrite_mem (s : State) (w : Nat) : (capWrite s w).2.mem = s.mem := by unfold capWrite; (repeat' split) <;> simp
@[simp] theorem capWrite_queues (s : State) (w : Nat) : (capWrite s w).2.queues = s.queues := by unfold capWrite; (repeat' split) <;> simp
@[simp] theorem capWrite_sems (s : State) (w : Nat) : (capWrite s w).2.sems = s.sems := by unfold capWrite; (repeat' split) <;> simp
@[simp] theorem capWrite_jobs (s : State) (w : Nat) : (capWrite s w).2.jobs = s.jobs := by unfold capWrite; (repeat' split) <;> simp
@[simp] theorem capWrite_time (s : State) (w : Nat) : (capWrite s w).2.time = s.time := by unfold capWrite; (repeat' split) <;> simp
@[simp] theorem capWrite_arrays (s : State) (w : Nat) : (capWrite s w).2.arrays = s.arrays := by unfold capWrite; (repeat' split) <;> simp
@[simp] theorem capWrite_ports (s : State) (w : Nat) : (capWrite s w).2.ports = s.ports := by unfold capWrite; (repeat' split) <;> simp
@[simp] theorem capWrite_trust (s : State) (w : Nat) : (capWrite s w).2.trust = s.trust := by unfold capWrite; (repeat' split) <;> simp
@[simp] theorem drainWrite_pending (s : State) (v : Nat) : (drainWrite s v).2.pending = s.pending := by unfold drainWrite; simp -implicitDefEqProofs
@[simp] theorem drainWrite_queues (s : State) (v : Nat) : (drainWrite s v).2.queues = s.queues := by unfold drainWrite; simp -implicitDefEqProofs
@[simp] theorem drainWrite_sems (s : State) (v : Nat) : (drainWrite s v).2.sems = s.sems := by unfold drainWrite; simp -implicitDefEqProofs
@[simp] theorem drainWrite_jobs (s : State) (v : Nat) : (drainWrite s v).2.jobs = s.jobs := by unfold drainWrite; simp -implicitDefEqProofs
@[simp] theorem drainWrite_time (s : State) (v : Nat) : (drainWrite s v).2.time = s.time := by unfold drainWrite; simp -implicitDefEqProofs
@[simp] theorem drainWrite_arrays (s : State) (v : Nat) : (drainWrite s v).2.arrays = s.arrays := by unfold drainWrite; simp -implicitDefEqProofs
@[simp] theorem drainWrite_ports (s : State) (v : Nat) : (drainWrite s v).2.ports = s.ports := by unfold drainWrite; simp -implicitDefEqProofs
@[simp] theorem drainWrite_trust (s : State) (v : Nat) : (drainWrite s v).2.trust = s.trust := by unfold drainWrite; simp -implicitDefEqProofs
@[simp] theorem resetFunction_pending (s : State) (f : Nat) : (resetFunction s f).pending = s.pending := (rfl)
@[simp] theorem resetFunction_mem (s : State) (f : Nat) : (resetFunction s f).mem = s.mem := (rfl)
@[simp] theorem resetFunction_queues (s : State) (f : Nat) : (resetFunction s f).queues = s.queues := (rfl)
@[simp] theorem resetFunction_sems (s : State) (f : Nat) : (resetFunction s f).sems = s.sems := (rfl)
@[simp] theorem resetFunction_jobs (s : State) (f : Nat) : (resetFunction s f).jobs = s.jobs := (rfl)
@[simp] theorem resetFunction_time (s : State) (f : Nat) : (resetFunction s f).time = s.time := (rfl)
@[simp] theorem resetFunction_arrays (s : State) (f : Nat) : (resetFunction s f).arrays = s.arrays := (rfl)
@[simp] theorem resetFunction_ports (s : State) (f : Nat) : (resetFunction s f).ports = s.ports := (rfl)
@[simp] theorem resetFunction_trust (s : State) (f : Nat) : (resetFunction s f).trust = s.trust := (rfl)
@[simp] theorem resetFunction_power (s : State) (f : Nat) : (resetFunction s f).power = s.power := (rfl)
@[simp] theorem protectWrite_pending (s : State) (v : Nat) : (protectWrite s v).2.pending = s.pending := (rfl)
@[simp] theorem protectWrite_mem (s : State) (v : Nat) : (protectWrite s v).2.mem = s.mem := (rfl)
@[simp] theorem protectWrite_queues (s : State) (v : Nat) : (protectWrite s v).2.queues = s.queues := (rfl)
@[simp] theorem protectWrite_sems (s : State) (v : Nat) : (protectWrite s v).2.sems = s.sems := (rfl)
@[simp] theorem protectWrite_jobs (s : State) (v : Nat) : (protectWrite s v).2.jobs = s.jobs := (rfl)
@[simp] theorem protectWrite_time (s : State) (v : Nat) : (protectWrite s v).2.time = s.time := (rfl)
@[simp] theorem protectWrite_arrays (s : State) (v : Nat) : (protectWrite s v).2.arrays = s.arrays := (rfl)
@[simp] theorem protectWrite_ports (s : State) (v : Nat) : (protectWrite s v).2.ports = s.ports := (rfl)
@[simp] theorem protectWrite_trust (s : State) (v : Nat) : (protectWrite s v).2.trust = s.trust := (rfl)
@[simp] theorem sidebandWrite_pending (s : State) (v : Nat) : (sidebandWrite s v).2.pending = s.pending := (rfl)
@[simp] theorem sidebandWrite_mem (s : State) (v : Nat) : (sidebandWrite s v).2.mem = s.mem := (rfl)
@[simp] theorem sidebandWrite_queues (s : State) (v : Nat) : (sidebandWrite s v).2.queues = s.queues := (rfl)
@[simp] theorem sidebandWrite_sems (s : State) (v : Nat) : (sidebandWrite s v).2.sems = s.sems := (rfl)
@[simp] theorem sidebandWrite_jobs (s : State) (v : Nat) : (sidebandWrite s v).2.jobs = s.jobs := (rfl)
@[simp] theorem sidebandWrite_time (s : State) (v : Nat) : (sidebandWrite s v).2.time = s.time := (rfl)
@[simp] theorem sidebandWrite_arrays (s : State) (v : Nat) : (sidebandWrite s v).2.arrays = s.arrays := (rfl)
@[simp] theorem sidebandWrite_ports (s : State) (v : Nat) : (sidebandWrite s v).2.ports = s.ports := (rfl)
@[simp] theorem sidebandWrite_trust (s : State) (v : Nat) : (sidebandWrite s v).2.trust = s.trust := (rfl)
@[simp] theorem supplyWrite_pending (s : State) (v : Nat) : (supplyWrite s v).2.pending = s.pending := by unfold supplyWrite; simp -implicitDefEqProofs
@[simp] theorem supplyWrite_mem (s : State) (v : Nat) : (supplyWrite s v).2.mem = s.mem := by unfold supplyWrite; simp -implicitDefEqProofs
@[simp] theorem supplyWrite_sems (s : State) (v : Nat) : (supplyWrite s v).2.sems = s.sems := by unfold supplyWrite; simp -implicitDefEqProofs
@[simp] theorem supplyWrite_time (s : State) (v : Nat) : (supplyWrite s v).2.time = s.time := by unfold supplyWrite; simp -implicitDefEqProofs
@[simp] theorem supplyWrite_arrays (s : State) (v : Nat) : (supplyWrite s v).2.arrays = s.arrays := by unfold supplyWrite; simp -implicitDefEqProofs
@[simp] theorem supplyWrite_trust (s : State) (v : Nat) : (supplyWrite s v).2.trust = s.trust := by unfold supplyWrite; simp -implicitDefEqProofs
@[simp] theorem supplyWrite_power (s : State) (v : Nat) : (supplyWrite s v).2.power = s.power := by unfold supplyWrite; simp -implicitDefEqProofs
@[simp] theorem managedWrite_pending (s : State) (v : Nat) : (managedWrite s v).2.pending = s.pending := by unfold managedWrite; (repeat' split) <;> simp
@[simp] theorem managedWrite_mem (s : State) (v : Nat) : (managedWrite s v).2.mem = s.mem := by unfold managedWrite; (repeat' split) <;> simp
@[simp] theorem managedWrite_queues (s : State) (v : Nat) : (managedWrite s v).2.queues = s.queues := by unfold managedWrite; (repeat' split) <;> simp
@[simp] theorem managedWrite_sems (s : State) (v : Nat) : (managedWrite s v).2.sems = s.sems := by unfold managedWrite; (repeat' split) <;> simp
@[simp] theorem managedWrite_jobs (s : State) (v : Nat) : (managedWrite s v).2.jobs = s.jobs := by unfold managedWrite; (repeat' split) <;> simp
@[simp] theorem managedWrite_time (s : State) (v : Nat) : (managedWrite s v).2.time = s.time := by unfold managedWrite; (repeat' split) <;> simp
@[simp] theorem managedWrite_arrays (s : State) (v : Nat) : (managedWrite s v).2.arrays = s.arrays := by unfold managedWrite; (repeat' split) <;> simp
@[simp] theorem managedWrite_ports (s : State) (v : Nat) : (managedWrite s v).2.ports = s.ports := by unfold managedWrite; (repeat' split) <;> simp
@[simp] theorem managedWrite_trust (s : State) (v : Nat) : (managedWrite s v).2.trust = s.trust := by unfold managedWrite; (repeat' split) <;> simp
@[simp] theorem managedWrite_power (s : State) (v : Nat) : (managedWrite s v).2.power = s.power := by unfold managedWrite; (repeat' split) <;> simp
@[simp] theorem syncStatusWrite_pending (s : State) (v : Nat) : (syncStatusWrite s v).2.pending = s.pending := (rfl)
@[simp] theorem syncStatusWrite_mem (s : State) (v : Nat) : (syncStatusWrite s v).2.mem = s.mem := (rfl)
@[simp] theorem syncStatusWrite_queues (s : State) (v : Nat) : (syncStatusWrite s v).2.queues = s.queues := (rfl)
@[simp] theorem syncStatusWrite_sems (s : State) (v : Nat) : (syncStatusWrite s v).2.sems = s.sems := (rfl)
@[simp] theorem syncStatusWrite_jobs (s : State) (v : Nat) : (syncStatusWrite s v).2.jobs = s.jobs := (rfl)
@[simp] theorem syncStatusWrite_arrays (s : State) (v : Nat) : (syncStatusWrite s v).2.arrays = s.arrays := (rfl)
@[simp] theorem syncStatusWrite_ports (s : State) (v : Nat) : (syncStatusWrite s v).2.ports = s.ports := (rfl)
@[simp] theorem syncStatusWrite_trust (s : State) (v : Nat) : (syncStatusWrite s v).2.trust = s.trust := (rfl)
@[simp] theorem syncStatusWrite_power (s : State) (v : Nat) : (syncStatusWrite s v).2.power = s.power := (rfl)
@[simp] theorem stickyWrite_pending (s : State) (p : Path) (v : Nat) : (stickyWrite s p v).2.pending = s.pending := by unfold stickyWrite; (repeat' split) <;> simp
@[simp] theorem stickyWrite_mem (s : State) (p : Path) (v : Nat) : (stickyWrite s p v).2.mem = s.mem := by unfold stickyWrite; (repeat' split) <;> simp
@[simp] theorem stickyWrite_queues (s : State) (p : Path) (v : Nat) : (stickyWrite s p v).2.queues = s.queues := by unfold stickyWrite; (repeat' split) <;> simp
@[simp] theorem stickyWrite_sems (s : State) (p : Path) (v : Nat) : (stickyWrite s p v).2.sems = s.sems := by unfold stickyWrite; (repeat' split) <;> simp
@[simp] theorem stickyWrite_jobs (s : State) (p : Path) (v : Nat) : (stickyWrite s p v).2.jobs = s.jobs := by unfold stickyWrite; (repeat' split) <;> simp
@[simp] theorem stickyWrite_time (s : State) (p : Path) (v : Nat) : (stickyWrite s p v).2.time = s.time := by unfold stickyWrite; (repeat' split) <;> simp
@[simp] theorem stickyWrite_arrays (s : State) (p : Path) (v : Nat) : (stickyWrite s p v).2.arrays = s.arrays := by unfold stickyWrite; (repeat' split) <;> simp
@[simp] theorem stickyWrite_ports (s : State) (p : Path) (v : Nat) : (stickyWrite s p v).2.ports = s.ports := by unfold stickyWrite; (repeat' split) <;> simp
@[simp] theorem stickyWrite_trust (s : State) (p : Path) (v : Nat) : (stickyWrite s p v).2.trust = s.trust := by unfold stickyWrite; (repeat' split) <;> simp
@[simp] theorem stickyWrite_power (s : State) (p : Path) (v : Nat) : (stickyWrite s p v).2.power = s.power := by unfold stickyWrite; (repeat' split) <;> simp
@[simp] theorem emptyStore_pending (s : State) : (emptyStore s).pending = s.pending := rfl
@[simp] theorem emptyStore_mem (s : State) : (emptyStore s).mem = s.mem := rfl
@[simp] theorem emptyStore_poison (s : State) : (emptyStore s).poison = s.poison := rfl
@[simp] theorem emptyStore_queues (s : State) : (emptyStore s).queues = s.queues := rfl
@[simp] theorem emptyStore_sems (s : State) : (emptyStore s).sems = s.sems := rfl
@[simp] theorem emptyStore_jobs (s : State) : (emptyStore s).jobs = s.jobs := rfl
@[simp] theorem emptyStore_time (s : State) : (emptyStore s).time = s.time := rfl
@[simp] theorem emptyStore_arrays (s : State) : (emptyStore s).arrays = s.arrays := rfl
@[simp] theorem emptyStore_ports (s : State) : (emptyStore s).ports = s.ports := rfl
@[simp] theorem emptyStore_masks (s : State) : (emptyStore s).masks = s.masks := rfl
@[simp] theorem emptyStore_trust (s : State) : (emptyStore s).trust = s.trust := rfl
@[simp] theorem emptyStore_power (s : State) : (emptyStore s).power = s.power := rfl
@[simp] theorem emptyStore_ctxs (s : State) : (emptyStore s).ctxs = s.ctxs := rfl
@[simp] theorem emptyStore_funcs (s : State) : (emptyStore s).funcs = s.funcs := rfl
@[simp] theorem emptyStore_assign (s : State) : (emptyStore s).assign = s.assign := rfl
@[simp] theorem emptyStore_paths (s : State) : (emptyStore s).paths = s.paths := rfl
@[simp] theorem restoreWrite_pending (s : State) (v : Nat) : (restoreWrite s v).2.pending = s.pending := by unfold restoreWrite; (repeat' split) <;> rfl
@[simp] theorem restoreWrite_mem (s : State) (v : Nat) : (restoreWrite s v).2.mem = s.mem := by unfold restoreWrite; (repeat' split) <;> rfl
@[simp] theorem restoreWrite_queues (s : State) (v : Nat) : (restoreWrite s v).2.queues = s.queues := by unfold restoreWrite; (repeat' split) <;> rfl
@[simp] theorem restoreWrite_sems (s : State) (v : Nat) : (restoreWrite s v).2.sems = s.sems := by unfold restoreWrite; (repeat' split) <;> rfl
@[simp] theorem restoreWrite_jobs (s : State) (v : Nat) : (restoreWrite s v).2.jobs = s.jobs := by unfold restoreWrite; (repeat' split) <;> rfl
@[simp] theorem restoreWrite_time (s : State) (v : Nat) : (restoreWrite s v).2.time = s.time := by unfold restoreWrite; (repeat' split) <;> rfl
@[simp] theorem restoreWrite_arrays (s : State) (v : Nat) : (restoreWrite s v).2.arrays = s.arrays := by unfold restoreWrite; (repeat' split) <;> rfl
@[simp] theorem restoreWrite_ports (s : State) (v : Nat) : (restoreWrite s v).2.ports = s.ports := by unfold restoreWrite; (repeat' split) <;> rfl
@[simp] theorem restoreWrite_trust (s : State) (v : Nat) : (restoreWrite s v).2.trust = s.trust := by unfold restoreWrite; (repeat' split) <;> rfl
@[simp] theorem restoreWrite_power (s : State) (v : Nat) : (restoreWrite s v).2.power = s.power := by unfold restoreWrite; (repeat' split) <;> rfl
@[simp] theorem triggerWrite_pending (s : State) (v : Nat) : (triggerWrite s v).2.pending = s.pending := by unfold triggerWrite; (repeat' split) <;> simp
@[simp] theorem triggerWrite_mem (s : State) (v : Nat) : (triggerWrite s v).2.mem = s.mem := by unfold triggerWrite; (repeat' split) <;> simp
@[simp] theorem triggerWrite_queues (s : State) (v : Nat) : (triggerWrite s v).2.queues = s.queues := by unfold triggerWrite; (repeat' split) <;> simp
@[simp] theorem triggerWrite_sems (s : State) (v : Nat) : (triggerWrite s v).2.sems = s.sems := by unfold triggerWrite; (repeat' split) <;> simp
@[simp] theorem triggerWrite_jobs (s : State) (v : Nat) : (triggerWrite s v).2.jobs = s.jobs := by unfold triggerWrite; (repeat' split) <;> simp
@[simp] theorem triggerWrite_time (s : State) (v : Nat) : (triggerWrite s v).2.time = s.time := by unfold triggerWrite; (repeat' split) <;> simp
@[simp] theorem triggerWrite_arrays (s : State) (v : Nat) : (triggerWrite s v).2.arrays = s.arrays := by unfold triggerWrite; (repeat' split) <;> simp
@[simp] theorem triggerWrite_ports (s : State) (v : Nat) : (triggerWrite s v).2.ports = s.ports := by unfold triggerWrite; (repeat' split) <;> simp
@[simp] theorem triggerWrite_trust (s : State) (v : Nat) : (triggerWrite s v).2.trust = s.trust := by unfold triggerWrite; (repeat' split) <;> simp
@[simp] theorem triggerWrite_power (s : State) (v : Nat) : (triggerWrite s v).2.power = s.power := by unfold triggerWrite; (repeat' split) <;> simp
@[simp] theorem traceQueuesWrite_pending (s : State) (off : Nat) (d : List Byte) : (traceQueuesWrite s off d).2.pending = s.pending := (rfl)
@[simp] theorem traceQueuesWrite_mem (s : State) (off : Nat) (d : List Byte) : (traceQueuesWrite s off d).2.mem = s.mem := (rfl)
@[simp] theorem traceQueuesWrite_queues (s : State) (off : Nat) (d : List Byte) : (traceQueuesWrite s off d).2.queues = s.queues := (rfl)
@[simp] theorem traceQueuesWrite_sems (s : State) (off : Nat) (d : List Byte) : (traceQueuesWrite s off d).2.sems = s.sems := (rfl)
@[simp] theorem traceQueuesWrite_jobs (s : State) (off : Nat) (d : List Byte) : (traceQueuesWrite s off d).2.jobs = s.jobs := (rfl)
@[simp] theorem traceQueuesWrite_time (s : State) (off : Nat) (d : List Byte) : (traceQueuesWrite s off d).2.time = s.time := (rfl)
@[simp] theorem traceQueuesWrite_arrays (s : State) (off : Nat) (d : List Byte) : (traceQueuesWrite s off d).2.arrays = s.arrays := (rfl)
@[simp] theorem traceQueuesWrite_ports (s : State) (off : Nat) (d : List Byte) : (traceQueuesWrite s off d).2.ports = s.ports := (rfl)
@[simp] theorem traceQueuesWrite_trust (s : State) (off : Nat) (d : List Byte) : (traceQueuesWrite s off d).2.trust = s.trust := (rfl)
@[simp] theorem traceQueuesWrite_power (s : State) (off : Nat) (d : List Byte) : (traceQueuesWrite s off d).2.power = s.power := (rfl)
@[simp] theorem commitActivateWrite_pending (s : State) (v : Nat) : (commitActivateWrite s v).2.pending = s.pending := by unfold commitActivateWrite; (repeat' split) <;> simp
@[simp] theorem commitActivateWrite_mem (s : State) (v : Nat) : (commitActivateWrite s v).2.mem = s.mem := by unfold commitActivateWrite; (repeat' split) <;> simp
@[simp] theorem commitActivateWrite_queues (s : State) (v : Nat) : (commitActivateWrite s v).2.queues = s.queues := by unfold commitActivateWrite; (repeat' split) <;> simp
@[simp] theorem commitActivateWrite_sems (s : State) (v : Nat) : (commitActivateWrite s v).2.sems = s.sems := by unfold commitActivateWrite; (repeat' split) <;> simp
@[simp] theorem commitActivateWrite_jobs (s : State) (v : Nat) : (commitActivateWrite s v).2.jobs = s.jobs := by unfold commitActivateWrite; (repeat' split) <;> simp
@[simp] theorem commitActivateWrite_time (s : State) (v : Nat) : (commitActivateWrite s v).2.time = s.time := by unfold commitActivateWrite; (repeat' split) <;> simp
@[simp] theorem commitActivateWrite_arrays (s : State) (v : Nat) : (commitActivateWrite s v).2.arrays = s.arrays := by unfold commitActivateWrite; (repeat' split) <;> simp
@[simp] theorem commitActivateWrite_ports (s : State) (v : Nat) : (commitActivateWrite s v).2.ports = s.ports := by unfold commitActivateWrite; (repeat' split) <;> simp
@[simp] theorem commitActivateWrite_power (s : State) (v : Nat) : (commitActivateWrite s v).2.power = s.power := by unfold commitActivateWrite; (repeat' split) <;> simp
@[simp] theorem selectWrite_pending (s : State) (p : Path) (index : Nat) (sub : Nat) (v : Nat) : (selectWrite s p index sub v).pending = s.pending := (rfl)
@[simp] theorem selectWrite_mem (s : State) (p : Path) (index : Nat) (sub : Nat) (v : Nat) : (selectWrite s p index sub v).mem = s.mem := (rfl)
@[simp] theorem selectWrite_queues (s : State) (p : Path) (index : Nat) (sub : Nat) (v : Nat) : (selectWrite s p index sub v).queues = s.queues := (rfl)
@[simp] theorem selectWrite_sems (s : State) (p : Path) (index : Nat) (sub : Nat) (v : Nat) : (selectWrite s p index sub v).sems = s.sems := (rfl)
@[simp] theorem selectWrite_jobs (s : State) (p : Path) (index : Nat) (sub : Nat) (v : Nat) : (selectWrite s p index sub v).jobs = s.jobs := (rfl)
@[simp] theorem selectWrite_time (s : State) (p : Path) (index : Nat) (sub : Nat) (v : Nat) : (selectWrite s p index sub v).time = s.time := (rfl)
@[simp] theorem selectWrite_arrays (s : State) (p : Path) (index : Nat) (sub : Nat) (v : Nat) : (selectWrite s p index sub v).arrays = s.arrays := (rfl)
@[simp] theorem selectWrite_ports (s : State) (p : Path) (index : Nat) (sub : Nat) (v : Nat) : (selectWrite s p index sub v).ports = s.ports := (rfl)
@[simp] theorem selectWrite_trust (s : State) (p : Path) (index : Nat) (sub : Nat) (v : Nat) : (selectWrite s p index sub v).trust = s.trust := (rfl)
@[simp] theorem selectWrite_power (s : State) (p : Path) (index : Nat) (sub : Nat) (v : Nat) : (selectWrite s p index sub v).power = s.power := (rfl)
@[simp] theorem keepWrite_pending (s : State) (index : Nat) (sub : Nat) (v : Nat) : (keepWrite s index sub v).pending = s.pending := by unfold keepWrite; (repeat' split) <;> simp
@[simp] theorem keepWrite_mem (s : State) (index : Nat) (sub : Nat) (v : Nat) : (keepWrite s index sub v).mem = s.mem := by unfold keepWrite; (repeat' split) <;> simp
@[simp] theorem keepWrite_queues (s : State) (index : Nat) (sub : Nat) (v : Nat) : (keepWrite s index sub v).queues = s.queues := by unfold keepWrite; (repeat' split) <;> simp
@[simp] theorem keepWrite_sems (s : State) (index : Nat) (sub : Nat) (v : Nat) : (keepWrite s index sub v).sems = s.sems := by unfold keepWrite; (repeat' split) <;> simp
@[simp] theorem keepWrite_jobs (s : State) (index : Nat) (sub : Nat) (v : Nat) : (keepWrite s index sub v).jobs = s.jobs := by unfold keepWrite; (repeat' split) <;> simp
@[simp] theorem keepWrite_time (s : State) (index : Nat) (sub : Nat) (v : Nat) : (keepWrite s index sub v).time = s.time := by unfold keepWrite; (repeat' split) <;> simp
@[simp] theorem keepWrite_arrays (s : State) (index : Nat) (sub : Nat) (v : Nat) : (keepWrite s index sub v).arrays = s.arrays := by unfold keepWrite; (repeat' split) <;> simp
@[simp] theorem keepWrite_ports (s : State) (index : Nat) (sub : Nat) (v : Nat) : (keepWrite s index sub v).ports = s.ports := by unfold keepWrite; (repeat' split) <;> simp
@[simp] theorem keepWrite_trust (s : State) (index : Nat) (sub : Nat) (v : Nat) : (keepWrite s index sub v).trust = s.trust := by unfold keepWrite; (repeat' split) <;> simp
@[simp] theorem keepWrite_power (s : State) (index : Nat) (sub : Nat) (v : Nat) : (keepWrite s index sub v).power = s.power := by unfold keepWrite; (repeat' split) <;> simp
@[simp] theorem answer_pending (s : State) (p : Path) (st : Nat) (d : List Byte) : (answer s p st d).pending = s.pending := (rfl)
@[simp] theorem answer_mem (s : State) (p : Path) (st : Nat) (d : List Byte) : (answer s p st d).mem = s.mem := (rfl)
@[simp] theorem answer_queues (s : State) (p : Path) (st : Nat) (d : List Byte) : (answer s p st d).queues = s.queues := (rfl)
@[simp] theorem answer_sems (s : State) (p : Path) (st : Nat) (d : List Byte) : (answer s p st d).sems = s.sems := (rfl)
@[simp] theorem answer_jobs (s : State) (p : Path) (st : Nat) (d : List Byte) : (answer s p st d).jobs = s.jobs := (rfl)
@[simp] theorem answer_time (s : State) (p : Path) (st : Nat) (d : List Byte) : (answer s p st d).time = s.time := (rfl)
@[simp] theorem answer_arrays (s : State) (p : Path) (st : Nat) (d : List Byte) : (answer s p st d).arrays = s.arrays := (rfl)
@[simp] theorem answer_ports (s : State) (p : Path) (st : Nat) (d : List Byte) : (answer s p st d).ports = s.ports := (rfl)
@[simp] theorem answer_trust (s : State) (p : Path) (st : Nat) (d : List Byte) : (answer s p st d).trust = s.trust := (rfl)
@[simp] theorem answer_power (s : State) (p : Path) (st : Nat) (d : List Byte) : (answer s p st d).power = s.power := (rfl)
@[simp] theorem readEffect_pending (s : State) (p : Path) (index : Nat) (sub : Nat) : (readEffect s p index sub).pending = s.pending := by unfold readEffect; (repeat' split) <;> simp
@[simp] theorem readEffect_mem (s : State) (p : Path) (index : Nat) (sub : Nat) : (readEffect s p index sub).mem = s.mem := by unfold readEffect; (repeat' split) <;> simp
@[simp] theorem readEffect_queues (s : State) (p : Path) (index : Nat) (sub : Nat) : (readEffect s p index sub).queues = s.queues := by unfold readEffect; (repeat' split) <;> simp
@[simp] theorem readEffect_sems (s : State) (p : Path) (index : Nat) (sub : Nat) : (readEffect s p index sub).sems = s.sems := by unfold readEffect; (repeat' split) <;> simp
@[simp] theorem readEffect_jobs (s : State) (p : Path) (index : Nat) (sub : Nat) : (readEffect s p index sub).jobs = s.jobs := by unfold readEffect; (repeat' split) <;> simp
@[simp] theorem readEffect_time (s : State) (p : Path) (index : Nat) (sub : Nat) : (readEffect s p index sub).time = s.time := by unfold readEffect; (repeat' split) <;> simp
@[simp] theorem readEffect_arrays (s : State) (p : Path) (index : Nat) (sub : Nat) : (readEffect s p index sub).arrays = s.arrays := by unfold readEffect; (repeat' split) <;> simp
@[simp] theorem readEffect_ports (s : State) (p : Path) (index : Nat) (sub : Nat) : (readEffect s p index sub).ports = s.ports := by unfold readEffect; (repeat' split) <;> simp
@[simp] theorem readEffect_trust (s : State) (p : Path) (index : Nat) (sub : Nat) : (readEffect s p index sub).trust = s.trust := by unfold readEffect; (repeat' split) <;> simp
@[simp] theorem infoEntry_pending (s : State) (p : Path) (index : Nat) (sub : Nat) : (infoEntry s p index sub).pending = s.pending := by unfold infoEntry; (repeat' split) <;> simp
@[simp] theorem infoEntry_mem (s : State) (p : Path) (index : Nat) (sub : Nat) : (infoEntry s p index sub).mem = s.mem := by unfold infoEntry; (repeat' split) <;> simp
@[simp] theorem infoEntry_queues (s : State) (p : Path) (index : Nat) (sub : Nat) : (infoEntry s p index sub).queues = s.queues := by unfold infoEntry; (repeat' split) <;> simp
@[simp] theorem infoEntry_sems (s : State) (p : Path) (index : Nat) (sub : Nat) : (infoEntry s p index sub).sems = s.sems := by unfold infoEntry; (repeat' split) <;> simp
@[simp] theorem infoEntry_jobs (s : State) (p : Path) (index : Nat) (sub : Nat) : (infoEntry s p index sub).jobs = s.jobs := by unfold infoEntry; (repeat' split) <;> simp
@[simp] theorem infoEntry_time (s : State) (p : Path) (index : Nat) (sub : Nat) : (infoEntry s p index sub).time = s.time := by unfold infoEntry; (repeat' split) <;> simp
@[simp] theorem infoEntry_arrays (s : State) (p : Path) (index : Nat) (sub : Nat) : (infoEntry s p index sub).arrays = s.arrays := by unfold infoEntry; (repeat' split) <;> simp
@[simp] theorem infoEntry_ports (s : State) (p : Path) (index : Nat) (sub : Nat) : (infoEntry s p index sub).ports = s.ports := by unfold infoEntry; (repeat' split) <;> simp
@[simp] theorem infoEntry_trust (s : State) (p : Path) (index : Nat) (sub : Nat) : (infoEntry s p index sub).trust = s.trust := by unfold infoEntry; (repeat' split) <;> simp
@[simp] theorem infoEntry_power (s : State) (p : Path) (index : Nat) (sub : Nat) : (infoEntry s p index sub).power = s.power := by unfold infoEntry; (repeat' split) <;> simp
@[simp] theorem msixWord_pending (s : State) (f : Nat) (off : Nat) (v : Nat) : (msixWord s f off v).pending = s.pending := by unfold msixWord; simp -implicitDefEqProofs
@[simp] theorem msixWord_mem (s : State) (f : Nat) (off : Nat) (v : Nat) : (msixWord s f off v).mem = s.mem := by unfold msixWord; simp -implicitDefEqProofs
@[simp] theorem msixWord_queues (s : State) (f : Nat) (off : Nat) (v : Nat) : (msixWord s f off v).queues = s.queues := by unfold msixWord; simp -implicitDefEqProofs
@[simp] theorem msixWord_sems (s : State) (f : Nat) (off : Nat) (v : Nat) : (msixWord s f off v).sems = s.sems := by unfold msixWord; simp -implicitDefEqProofs
@[simp] theorem msixWord_jobs (s : State) (f : Nat) (off : Nat) (v : Nat) : (msixWord s f off v).jobs = s.jobs := by unfold msixWord; simp -implicitDefEqProofs
@[simp] theorem msixWord_time (s : State) (f : Nat) (off : Nat) (v : Nat) : (msixWord s f off v).time = s.time := by unfold msixWord; simp -implicitDefEqProofs
@[simp] theorem msixWord_arrays (s : State) (f : Nat) (off : Nat) (v : Nat) : (msixWord s f off v).arrays = s.arrays := by unfold msixWord; simp -implicitDefEqProofs
@[simp] theorem msixWord_ports (s : State) (f : Nat) (off : Nat) (v : Nat) : (msixWord s f off v).ports = s.ports := by unfold msixWord; simp -implicitDefEqProofs
@[simp] theorem msixWord_trust (s : State) (f : Nat) (off : Nat) (v : Nat) : (msixWord s f off v).trust = s.trust := by unfold msixWord; simp -implicitDefEqProofs
@[simp] theorem msixWord_power (s : State) (f : Nat) (off : Nat) (v : Nat) : (msixWord s f off v).power = s.power := by unfold msixWord; simp -implicitDefEqProofs
@[simp] theorem functionWord_pending (f : Nat) (s : State) (off : Nat) (v : Nat) : (functionWord f s off v).pending = s.pending := by unfold functionWord; (repeat' split) <;> simp
@[simp] theorem functionWord_mem (f : Nat) (s : State) (off : Nat) (v : Nat) : (functionWord f s off v).mem = s.mem := by unfold functionWord; (repeat' split) <;> simp
@[simp] theorem functionWord_queues (f : Nat) (s : State) (off : Nat) (v : Nat) : (functionWord f s off v).queues = s.queues := by unfold functionWord; (repeat' split) <;> simp
@[simp] theorem functionWord_sems (f : Nat) (s : State) (off : Nat) (v : Nat) : (functionWord f s off v).sems = s.sems := by unfold functionWord; (repeat' split) <;> simp
@[simp] theorem functionWord_jobs (f : Nat) (s : State) (off : Nat) (v : Nat) : (functionWord f s off v).jobs = s.jobs := by unfold functionWord; (repeat' split) <;> simp
@[simp] theorem functionWord_time (f : Nat) (s : State) (off : Nat) (v : Nat) : (functionWord f s off v).time = s.time := by unfold functionWord; (repeat' split) <;> simp
@[simp] theorem functionWord_arrays (f : Nat) (s : State) (off : Nat) (v : Nat) : (functionWord f s off v).arrays = s.arrays := by unfold functionWord; (repeat' split) <;> simp
@[simp] theorem functionWord_ports (f : Nat) (s : State) (off : Nat) (v : Nat) : (functionWord f s off v).ports = s.ports := by unfold functionWord; (repeat' split) <;> simp
@[simp] theorem functionWord_trust (f : Nat) (s : State) (off : Nat) (v : Nat) : (functionWord f s off v).trust = s.trust := by unfold functionWord; (repeat' split) <;> simp
@[simp] theorem functionWord_power (f : Nat) (s : State) (off : Nat) (v : Nat) : (functionWord f s off v).power = s.power := by unfold functionWord; (repeat' split) <;> simp
@[simp] theorem idle_pending (s : State) : (idle s).pending = s.pending := by unfold idle; simp -implicitDefEqProofs
@[simp] theorem idle_mem (s : State) : (idle s).mem = s.mem := by unfold idle; simp -implicitDefEqProofs
@[simp] theorem idle_queues (s : State) : (idle s).queues = s.queues := by unfold idle; simp -implicitDefEqProofs
@[simp] theorem idle_sems (s : State) : (idle s).sems = s.sems := by unfold idle; simp -implicitDefEqProofs
@[simp] theorem idle_jobs (s : State) : (idle s).jobs = s.jobs := by unfold idle; simp -implicitDefEqProofs
@[simp] theorem idle_arrays (s : State) : (idle s).arrays = s.arrays := by unfold idle; simp -implicitDefEqProofs
@[simp] theorem idle_ports (s : State) : (idle s).ports = s.ports := by unfold idle; simp -implicitDefEqProofs
@[simp] theorem idle_trust (s : State) : (idle s).trust = s.trust := by unfold idle; simp -implicitDefEqProofs
@[simp] theorem idle_power (s : State) : (idle s).power = s.power := by unfold idle; simp -implicitDefEqProofs

end Sys2Proof.Machine
end

