-- ==== Sys2Proof/Laws/Total.lean ====
section
/-! SUPPORT. Total correctness of the bodies of commands: from a calm run (no poison, the job as it was) a computation on near memory always ends, and the run stays calm. One lemma for each operation, which the statements of completion cite. -/

namespace Sys2Proof.Machine

/-- From every run that meets the premise the computation ends, and its result and the run after it meet the conclusion. -/
def Tot {α : Type} (P : Run → Prop) (m : M α) (Q : α → Run → Prop) : Prop :=
  ∀ r, P r → ∃ a r', (ExceptT.run m).run r = (.ok a, r') ∧ Q a r'

/-- The run is as calm as at the start r0: nothing is poisoned, its command, its job but for overflow evidence and a deadlock noted, no write but its own is pending, no status has been set; and while `still` holds, memory is the same. -/
structure Calm (r0 : Run) (still : Bool) (r : Run) : Prop where
  poison : r.s.poison = []
  cmd : r.c = r0.c
  exe : r.exe = r0.exe
  job : r.job = r0.job
  func : r.f = r0.f
  queue : r.q = r0.q
  copies : r.w.copies = r0.w.copies
  clear : ∀ g, pendingWrites r0.s r0.q r0.w.idx g = 0
  status : r.w.status = 0
  idx : r.w.idx = r0.w.idx
  dat : ∃ b d, r.s.job r.job = { r0.s.job r0.job with evidence := b, deadlocked := d }
  queues : ∀ g, pendingWrites r.s r0.q r0.w.idx g = 0
  masks : ∀ id, (tfind r.s.masks id).map (·.epoch) = (tfind r0.s.masks id).map (·.epoch)
  mem : still = true → r.s.mem = r0.s.mem

/-- A computation that keeps the run calm, whatever it answers. -/
abbrev Keep (r0 : Run) (still : Bool) {α : Type} (m : M α) : Prop := Tot (Calm r0 still) m fun _ => Calm r0 still

theorem Tot.pure {α : Type} {P : Run → Prop} {Q : α → Run → Prop} (a : α) (h : ∀ r, P r → Q a r) : Tot P (pure a : M α) Q :=
  fun r hr => ⟨a, r, rfl, h r hr⟩

theorem Tot.bind {α β : Type} {P : Run → Prop} {Q : α → Run → Prop} {R : β → Run → Prop} {m : M α} {k : α → M β}
    (h1 : Tot P m Q) (h2 : ∀ a, Tot (Q a) (k a) R) : Tot P (m >>= k) R := by
  intro r hr
  obtain ⟨a, r1, e1, q1⟩ := h1 r hr
  obtain ⟨b, r2, e2, q2⟩ := h2 a r1 q1
  refine ⟨b, r2, ?_, q2⟩
  show (ExceptT.run (m >>= k)).run r = _
  rw [ExceptT.run_bind]
  simp only [StateT.run_bind]
  rw [e1]
  exact e2

theorem Tot.conseq {α : Type} {P P' : Run → Prop} {Q Q' : α → Run → Prop} {m : M α} (h : Tot P m Q) (hp : ∀ r, P' r → P r)
    (hq : ∀ a r, Q a r → Q' a r) : Tot P' m Q' := by
  intro r hr
  obtain ⟨a, r', e, q⟩ := h r (hp r hr)
  exact ⟨a, r', e, hq a r' q⟩

theorem Tot.get {P : Run → Prop} : Tot P (get : M Run) fun a r => a = r ∧ P r := fun r hr => ⟨r, r, rfl, rfl, hr⟩

theorem Tot.modify {P : Run → Prop} {Q : Unit → Run → Prop} (g : Run → Run) (h : ∀ r, P r → Q () (g r)) : Tot P (modify g : M Unit) Q :=
  fun r hr => ⟨(), g r, rfl, h r hr⟩

theorem Tot.map {α β : Type} {P : Run → Prop} {Q : α → Run → Prop} {R : β → Run → Prop} {m : M α} (g : α → β) (h : Tot P m Q)
    (hr : ∀ a r, Q a r → R (g a) r) : Tot P (g <$> m) R := by
  rw [map_eq_pure_bind]
  exact h.bind fun a => Tot.pure _ (hr a)

/-- A computation that looks at the run first. -/
theorem Tot.got {α : Type} {P : Run → Prop} {Q : α → Run → Prop} {k : Run → M α} (h : ∀ x, P x → Tot (· = x) (k x) Q) : Tot P ((MonadState.get : M Run) >>= k) Q := by
  refine Tot.bind (Q := fun a r => a = r ∧ P a) (fun r hr => ⟨r, r, rfl, rfl, hr⟩) fun x => ?_
  rintro r ⟨rfl, hx⟩
  exact h x hx x rfl

/-- A fact about the premise that a computation needs. -/
theorem Tot.given {α : Type} {P : Run → Prop} {p : Prop} {Q : α → Run → Prop} {m : M α} (h : p → Tot P m Q) : Tot (fun r => p ∧ P r) m Q :=
  fun r hr => h hr.1 r hr.2

theorem Tot.need {P : Run → Prop} {b : Bool} {st : Nat} (h : b = true) : Tot P (need b st) fun _ => P := by
  subst h
  exact Tot.pure _ fun _ h => h

variable {r0 : Run} {st : Bool}

theorem Calm.weaken {r : Run} {st : Bool} (h : Calm r0 st r) : Calm r0 false r := { h with mem := by simp }

theorem Keep.pure {α : Type} (a : α) : Keep r0 st (pure a : M α) := Tot.pure a fun _ h => h
theorem Keep.bind {α β : Type} {m : M α} {k : α → M β} (h1 : Keep r0 st m) (h2 : ∀ a, Keep r0 st (k a)) : Keep r0 st (m >>= k) := Tot.bind h1 h2
theorem Keep.map {α β : Type} {m : M α} (g : α → β) (h : Keep r0 st m) : Keep r0 st (g <$> m) := Tot.map g h fun _ _ h => h
theorem Keep.get : Keep r0 st (get : M Run) := Tot.get.conseq (fun _ h => h) fun _ _ h => h.2
theorem Keep.seq {α : Type} {P : Run → Prop} {m : M PUnit} {k : M α} {Q : α → Run → Prop} (h1 : Tot P m fun _ => P) (h2 : Tot P k Q) :
    Tot P (do m; k) Q := Tot.bind h1 fun _ => h2

theorem Keep.forEach {α : Type} (l : List α) (g : α → M Unit) (h : ∀ a ∈ l, Keep r0 st (g a)) : Keep r0 st (forEach l g) := by
  induction l with
  | nil => exact Keep.pure ()
  | cons a r ih => exact Keep.bind (h a (by simp)) fun _ => ih fun b hb => h b (by simp [hb])

theorem Keep.mapEach {α β : Type} (l : List α) (g : α → M β) (h : ∀ a ∈ l, Keep r0 st (g a)) : Keep r0 st (mapEach l g) := by
  induction l with
  | nil => exact Keep.pure _
  | cons a r ih => exact Keep.bind (h a (by simp)) fun _ => Keep.bind (ih fun b hb => h b (by simp [hb])) fun _ => Keep.pure _

theorem Keep.ite {α : Type} {p : Prop} [Decidable p] {a b : M α} (h1 : p → Keep r0 st a) (h2 : ¬p → Keep r0 st b) : Keep r0 st (if p then a else b) := by
  split
  · exact h1 ‹_›
  · exact h2 ‹_›

theorem pendingWrites_congr {s t : State} (h : s.queues = t.queues) (p : QNum) (i : BitVec 16) (g : Nat) : pendingWrites s p i g = pendingWrites t p i g := by
  simp only [pendingWrites, h]

/-- What one table entry adds to a pending-write count. -/
def writesOf (q : QNum) (idx : BitVec 16) (g : Nat) (e : Nat × Queue) : List Nat :=
  e.2.started.flatMap fun w =>
    if !w.done || (e.1 == q.toNat && w.idx == idx) then []
    else w.spans.map fun sp => sp.requestsIn (exeOf (BitVec.ofNat 15 e.1) e.2).request g

theorem pending_zero (s : State) (q : QNum) (idx : BitVec 16) (g : Nat) : pendingWrites s q idx g = 0 ↔ ∀ e ∈ s.queues, ∀ n ∈ writesOf q idx g e, n = 0 := by
  have sum : ∀ (l : List Nat) (a : Nat), l.foldl (· + ·) a = 0 ↔ a = 0 ∧ ∀ n ∈ l, n = 0 := by
    intro l
    induction l with
    | nil => simp
    | cons b r ih => intro a; simp only [List.foldl_cons, ih, List.forall_mem_cons, Nat.add_eq_zero_iff, and_assoc]
  have : pendingWrites s q idx g = min 1023 ((s.queues.flatMap (writesOf q idx g)).foldl (· + ·) 0) := rfl
  rw [this, Nat.min_eq_zero_iff]
  simp only [sum, true_and, List.mem_flatMap]
  constructor
  · rintro (h | h)
    · omega
    · exact fun e he n hn => h n ⟨e, he, hn⟩
  · exact fun h => .inr fun n ⟨e, he, hn⟩ => h e he n hn

theorem mem_tput {α : Type} {k : Nat} {v : α} {t : Tab α} {e : Nat × α} (h : e ∈ tput k v t) : e = (k, v) ∨ e ∈ t := by
  induction t with
  | nil => simpa [tput] using h
  | cons a r ih =>
    obtain ⟨k', v'⟩ := a
    simp only [tput] at h
    split at h
    · simpa using h
    · split at h
      · rcases List.mem_cons.1 h with h | h
        · exact .inl h
        · exact .inr (List.mem_cons_of_mem _ h)
      · rcases List.mem_cons.1 h with h | h
        · exact .inr (by simp [h])
        · exact (ih h).imp id (List.mem_cons_of_mem _)

theorem tget_mem {α : Type} (d : α) (k : Nat) (t : Tab α) : tget d t k = d ∨ (k, tget d t k) ∈ t := by
  induction t with
  | nil => exact .inl rfl
  | cons a r ih =>
    obtain ⟨k', v'⟩ := a
    simp only [tget]
    split
    · next h => subst h; exact .inr (by simp)
    · exact ih.imp id (List.mem_cons_of_mem _)

/-- A change of a queue's record that leaves its started commands' stores alone adds no pending write. -/
theorem pending_setQueue {s : State} {p q : QNum} {idx : BitVec 16} {g : Nat} {x : Queue}
    (hx : ∀ n ∈ writesOf q idx g (p.toNat, x), n ∈ writesOf q idx g (p.toNat, s.queue p)) (h : pendingWrites s q idx g = 0) :
    pendingWrites (s.setQueue p x) q idx g = 0 := by
  rw [pending_zero] at h ⊢
  intro e he
  rcases mem_tput he with rfl | he
  · intro n hn
    rcases tget_mem ({} : Queue) p.toNat s.queues with hd | hm
    · have := hx n hn
      rw [show s.queue p = {} from hd] at this
      simp [writesOf] at this
    · exact h _ hm n (hx n hn)
  · exact h e he

/-- A state change that leaves poison, masks and the job alone. -/
theorem Calm.modS {r : Run} (h : Calm r0 st r) (g : State → State) (hp : (g r.s).poison = [])
    (hj : ∃ b d, (g r.s).job r.job = { r0.s.job r0.job with evidence := b, deadlocked := d }) (hk : ∀ id, (tfind (g r.s).masks id).map (·.epoch) = (tfind r0.s.masks id).map (·.epoch))
    (hm : st = true → (g r.s).mem = r0.s.mem) (hq : ∀ k, pendingWrites r.s r0.q r0.w.idx k = 0 → pendingWrites (g r.s) r0.q r0.w.idx k = 0 := by
      exact fun k hk => (pendingWrites_congr (by first | rfl | simp) _ _ k).trans hk) : Calm r0 st { r with s := g r.s } :=
  { h with poison := hp, dat := hj, queues := fun k => hq k (h.queues k), masks := hk, mem := hm }

/-- A state change that leaves poison, masks, the jobs and memory alone keeps the run calm. -/
theorem Keep.modS (g : State → State) (h : ∀ s, (g s).poison = s.poison ∧ (g s).jobs = s.jobs ∧ (g s).masks = s.masks ∧ (g s).mem = s.mem)
    (hq : ∀ s, (g s).queues = s.queues := by intro s; first | rfl | simp) : Keep r0 st (modS g) :=
  Tot.modify _ fun r hr => hr.modS g (by rw [(h _).1, hr.poison]) (by obtain ⟨b, d, hb⟩ := hr.dat; exact ⟨b, d, by rw [State.job, (h _).2.1]; exact hb⟩)
    (fun id => by rw [(h _).2.2.1, hr.masks]) (fun e => by rw [(h _).2.2.2, hr.mem e]) (fun k hk => (pendingWrites_congr (hq _) _ _ k).trans hk)

/-- A record change that leaves copies and status alone keeps the run calm. -/
theorem Keep.modW (g : Started → Started) (h : ∀ w, (g w).copies = w.copies ∧ (g w).status = w.status)
    (hi : ∀ w, (g w).idx = w.idx := by intro w; first | rfl | (split <;> (try split) <;> rfl)) : Keep r0 st (modW g) :=
  Tot.modify _ fun r hr => { hr with copies := by rw [(h _).1, hr.copies], status := by rw [(h _).2, hr.status], idx := by rw [hi, hr.idx] }

theorem bumpStep_parts (s : State) (j c n : Nat) : (bumpStep s j c n).poison = s.poison ∧ (bumpStep s j c n).jobs = s.jobs ∧
    (bumpStep s j c n).masks = s.masks ∧ (bumpStep s j c n).mem = s.mem := by
  unfold bumpStep; split <;> simp

theorem bump_parts (s : State) (a b c n : Nat) : (bump s a b c n).poison = s.poison ∧ (bump s a b c n).jobs = s.jobs ∧
    (bump s a b c n).masks = s.masks ∧ (bump s a b c n).mem = s.mem := by
  unfold bump; split <;> simp

theorem Keep.countM (code n : Nat) : Keep r0 st (countM code n) :=
  Tot.modify _ fun r hr => hr.modS (fun s => bumpStep s r.job code n) (by rw [(bumpStep_parts _ _ _ _).1, hr.poison])
    (by obtain ⟨b, d, hb⟩ := hr.dat; exact ⟨b, d, by rw [State.job, (bumpStep_parts _ _ _ _).2.1]; exact hb⟩)
    (fun id => by rw [(bumpStep_parts _ _ _ _).2.2.1, hr.masks]) fun e => by rw [(bumpStep_parts _ _ _ _).2.2.2, hr.mem e]

theorem Keep.jobM : Keep r0 st jobM := Keep.bind Keep.get fun _ => Keep.pure _
theorem Keep.getS : Keep r0 st getS := Keep.bind Keep.get fun _ => Keep.pure _
theorem Keep.fieldM (o n : Nat) : Keep r0 st (fieldM o n) := Keep.bind Keep.get fun _ => Keep.pure _

/-! ### Near memory -/

theorem poisonIn_nil {s : State} (h : s.poison = []) (a n : Nat) : poisonIn s a n = none := by
  simp [poisonIn, h]

/-- A read of near memory answers the bytes that are there. -/
theorem Tot.readM {P : Run → Prop} (hp : ∀ r, P r → r.s.poison = [] ∧ ∀ g, pendingWrites r.s r.q r.w.idx g = 0) (a n : Nat) :
    Tot P (readM 0 a n) fun b r => b = physRead r.s a n ∧ P r := by
  refine Tot.got fun x hx => ?_
  simp only [if_true, poisonIn_nil (hp x hx).1]
  have hs : Tot (· = x) (scoreboardM a n) fun _ r => r = x := by
    refine Tot.got fun y hy => ?_
    subst hy
    simp only [(hp y hx).2, bne_self_eq_false, List.any_eq_false.2, Bool.false_eq_true, not_false_eq_true, implies_true, if_false]
    exact Tot.pure _ fun _ h => h
  refine hs.bind fun _ => Tot.pure _ ?_
  rintro r rfl
  exact ⟨rfl, hx⟩

theorem Calm.near {r : Run} (h : Calm r0 st r) : r.s.poison = [] ∧ ∀ g, pendingWrites r.s r.q r.w.idx g = 0 :=
  ⟨h.poison, fun g => by rw [h.queue, h.idx, h.queues g]⟩

theorem Keep.readM (a n : Nat) {t : Nat} (ht : t = 0) : Keep r0 st (readM t a n) := by
  subst ht
  exact (Tot.readM (fun r h => h.near) a n).conseq (fun _ h => h) fun _ _ h => h.2

theorem Keep.noteSpan (near : Bool) (a n : Nat) : Keep r0 st (noteSpan near a n) :=
  Keep.modW _ fun w => ⟨rfl, rfl⟩

theorem physWrite_parts (s : State) (a : Nat) (bs : List Byte) (h : s.poison = []) : (physWrite s a bs).poison = [] ∧ (physWrite s a bs).jobs = s.jobs ∧
    (physWrite s a bs).masks = s.masks := by
  simp [physWrite, h]

theorem Keep.writeM (a : Nat) (bs : List Byte) {t : Nat} (ht : t = 0) : Keep r0 false (writeM t a bs) := by
  subst ht
  refine Keep.bind Keep.get fun x => ?_
  simp only [if_true]
  refine Keep.bind (Tot.modify _ fun r hr => hr.modS (fun s => physWrite s a bs) (physWrite_parts _ _ _ hr.poison).1 ?_ ?_ (by simp)) fun _ =>
    Keep.bind (Tot.modify _ fun r hr => hr.modS (fun s => unpoison s _) (by simp [unpoison, hr.poison]) hr.dat hr.masks hr.mem) fun _ => Keep.noteSpan _ _ _
  · obtain ⟨b, d, hb⟩ := hr.dat
    exact ⟨b, d, by rw [State.job, (physWrite_parts _ _ _ hr.poison).2.1]; exact hb⟩
  · intro id
    rw [(physWrite_parts _ _ _ hr.poison).2.2, hr.masks]

theorem Keep.peekM (a n : Nat) {t : Nat} (ht : t = 0) : Keep r0 st (peekM t a n) := by
  subst ht
  exact Keep.bind Keep.getS fun x => Keep.pure _

theorem Keep.readBits (a w : Nat) {t : Nat} (ht : t = 0) : Keep r0 st (readBits t a w) := Keep.bind (Keep.readM _ _ ht) fun _ => Keep.pure _

theorem Keep.writeBits (a w v : Nat) {t : Nat} (ht : t = 0) : Keep r0 false (writeBits t a w v) := by
  unfold Sys2Proof.Machine.writeBits
  exact Keep.ite (fun _ => Keep.writeM _ _ ht) fun _ => Keep.bind (Keep.peekM _ _ ht) fun _ => Keep.writeM _ _ ht

/-! ### Elements and rows -/

theorem flat_parts {t : TDesc} (h : flat t = true) : t.tier = 0 ∧ t.layout ≠ 2 ∧ t.layout ≠ 3 := by
  simpa [flat, and_assoc] using h

theorem readable_parts {t : TDesc} (h : readable t = true) : flat t = true ∧ (fmtOf t.fmt).isSome = true := by
  simpa [readable] using h

theorem writable_parts {e : Exe} {t : TDesc} (h : writable e t = true) : t.tier = 0 ∧ (fmtOf t.fmt).isSome = true ∧ dstOk e t = true := by
  simpa [writable, and_assoc] using h

/-- A format of numbers is no integer format. -/
theorem not_int_of_fmt {f : Nat} (h : (fmtOf f).isSome = true) : isIntFmt f = false := by
  unfold isIntFmt
  by_contra hc
  rw [Bool.not_eq_false, List.contains_iff_mem] at hc
  simp only [List.mem_cons, List.not_mem_nil, or_false] at hc
  rcases hc with rfl | rfl | rfl | rfl <;> simp [fmtOf] at h

theorem Keep.countReads (t : TDesc) (c0 : Nat) (l : List (Nat × Nat)) : Keep r0 st (countReads t c0 l) := by
  unfold Sys2Proof.Machine.countReads
  dsimp only
  split <;> split <;> first
    | exact Keep.bind (Keep.countM _ _) fun _ => Keep.countM _ _
    | exact Keep.bind (Keep.countM _ _) fun _ => Keep.pure _
    | exact Keep.countM _ _
    | exact Keep.pure _

theorem Keep.readCodes {t : TDesc} (h : flat t = true) (row c0 n : Nat) : Keep r0 st (readCodes t row c0 n) := by
  unfold Sys2Proof.Machine.readCodes
  rw [if_neg (flat_parts h).2.1, if_neg (flat_parts h).2.2]
  refine Keep.mapEach _ _ fun c _ => Keep.bind (Keep.readBits _ _ (flat_parts h).1) fun _ => ?_
  dsimp only
  split
  · exact Keep.bind (Keep.pure _) fun _ => Keep.pure _
  · exact Keep.bind (Keep.readM _ _ (flat_parts h).1) fun _ => Keep.bind (Keep.pure _) fun _ => Keep.pure _

theorem Keep.readVals {t : TDesc} (h : flat t = true) (hf : (fmtOf t.fmt).isSome = true) (row c0 n : Nat) : Keep r0 st (readVals t row c0 n) := by
  obtain ⟨k, hk⟩ := Option.isSome_iff_exists.1 hf
  unfold Sys2Proof.Machine.readVals
  refine Keep.bind (Keep.readCodes h _ _ _) fun _ => Keep.bind (Keep.countReads _ _ _) fun _ => ?_
  rw [hk]
  exact Keep.pure _

theorem Keep.readRow {t : TDesc} (h : flat t = true) (hf : (fmtOf t.fmt).isSome = true) (row c0 n : Nat) : Keep r0 st (readRow t row c0 n) :=
  Keep.bind (Keep.readVals h hf _ _ _) fun _ => Keep.pure _

theorem Keep.readAll {t : TDesc} (h : flat t = true) (hf : (fmtOf t.fmt).isSome = true) : Keep r0 st (readAll t) :=
  Keep.mapEach _ _ fun _ _ => Keep.readRow h hf _ _ _

theorem Keep.evidenceM (t : TDesc) (b : Bool) : Keep r0 st (evidenceM t b) := by
  unfold Sys2Proof.Machine.evidenceM
  refine Keep.ite (fun _ => ?_) fun _ => Keep.pure _
  refine Tot.got fun x hr => ?_
  dsimp only
  split
  · split
    · rintro r rfl
      refine ⟨(), _, rfl, hr.modS (fun s => s.setJob r.job { r.s.job r.job with evidence := true }) hr.poison ?_ hr.masks hr.mem⟩
      obtain ⟨b, d, hb⟩ := hr.dat
      refine ⟨true, d, ?_⟩
      rw [hb]
      exact tget_tput_same _ _ _ _
    · exact Tot.pure _ fun _ h => h ▸ hr
  · exact Tot.pure _ fun _ h => h ▸ hr

theorem Keep.putCodes {t : TDesc} (h : t.tier = 0) (row c0 : Nat) (codes : List Nat) (sc : Nat) : Keep r0 false (putCodes t row c0 codes sc) := by
  unfold Sys2Proof.Machine.putCodes
  refine Keep.bind (Keep.forEach _ _ fun _ _ => Keep.writeBits _ _ _ h) fun _ => ?_
  exact Keep.ite (fun _ => Keep.writeM _ _ h) fun _ => Keep.pure _

theorem Keep.padRow {t : TDesc} (h : t.tier = 0) (row last : Nat) : Keep r0 false (padRow t row last) := by
  unfold Sys2Proof.Machine.padRow
  exact Keep.ite (fun _ => Keep.forEach _ _ fun _ _ => Keep.writeBits _ _ _ h) fun _ => Keep.pure _

theorem Keep.narrowRow (t : TDesc) (k : Fmt) (row c0 : Nat) (vals : List Nat) (site : Option Nat) (fixed : Option Int) (rne : Bool) :
    Keep r0 st (narrowRow t k row c0 vals site fixed rne) := by
  unfold Sys2Proof.Machine.narrowRow
  refine Keep.bind Keep.get fun x => Keep.mapEach _ _ fun p _ => ?_
  exact Keep.bind (Keep.countM _ _) fun _ => Keep.bind (Keep.countM _ _) fun _ => Keep.bind (Keep.countM _ _) fun _ =>
    Keep.bind (Keep.evidenceM _ _) fun _ => Keep.pure _

theorem Keep.writeRow {t : TDesc} (h : t.tier = 0) (hf : (fmtOf t.fmt).isSome = true) (row c0 : Nat) (vals : List Nat) (site : Option Nat)
    (fixed : Option Int) (rne : Bool) : Keep r0 false (writeRow t row c0 vals site fixed rne) := by
  obtain ⟨k, hk⟩ := Option.isSome_iff_exists.1 hf
  unfold Sys2Proof.Machine.writeRow
  rw [hk]
  refine Keep.bind (Keep.narrowRow _ _ _ _ _ _ _ _) fun _ => Keep.bind (Keep.forEach _ _ fun _ _ => Keep.putCodes h _ _ _ _) fun _ => ?_
  exact Keep.bind (Keep.padRow h _ _) fun _ => Keep.pure _

theorem Keep.putDenseHdr {t : TDesc} (h : t.tier = 0) (a f e i : Nat) : Keep r0 false (putDenseHdr t a f e i) :=
  Keep.bind (Keep.peekM _ _ h) fun _ => Keep.writeM _ _ h

theorem Keep.writeTensor {t : TDesc} (h : t.tier = 0) (hf : (fmtOf t.fmt).isSome = true) (rows : List (List Nat)) (f e i : Nat) (site : Option Nat)
    (fixed : Option Int) (rne : Bool) : Keep r0 false (writeTensor t rows f e i site fixed rne) := by
  unfold Sys2Proof.Machine.writeTensor
  refine Keep.ite (fun _ => Keep.forEach _ _ fun _ _ => Keep.forEach _ _ fun _ _ => ?_) fun _ => Keep.forEach _ _ fun _ _ => ?_
  · refine Keep.bind (Keep.writeM _ _ h) fun _ => Keep.bind (Keep.mapEach _ _ fun _ _ => Keep.writeRow h hf _ _ _ _ _ _) fun _ => ?_
    exact Keep.putDenseHdr h _ _ _ _
  · exact Keep.bind (Keep.writeRow h hf _ _ _ _ _ _) fun _ => Keep.pure _

theorem Keep.writerM (t : TDesc) : Keep r0 st (writerM t) := by
  unfold Sys2Proof.Machine.writerM
  refine Keep.ite (fun _ => Keep.bind (Keep.modS _ fun s => ?_) fun _ => Keep.modW _ fun w => by simp) fun _ => Keep.pure _
  unfold genStart; split <;> simp

theorem Keep.writerOpt (t : Option TDesc) : Keep r0 st (writerOpt t) := by
  cases t with
  | none => exact Keep.pure _
  | some t => exact Keep.writerM t

/-! ### Descriptors -/

/-- A handle that can be named answers its operand. -/
theorem descM_at {h : Nat} {x : Run} (hv : namable x.w.copies (x.s.job x.job) h = true) :
    (ExceptT.run (descM h)).run x = (.ok (operandOf x.w.copies (x.s.job x.job) h), x) := by
  show (ExceptT.run (match x.w.copies.find? fun e => e.1.toNat == h with
    | some (_, d, f) => _
    | none => _ : M TDesc)).run x = _
  unfold operandOf
  cases hf : x.w.copies.find? fun e => e.1.toNat == h with
  | some e => rfl
  | none =>
    have hn : (x.w.copies.map (·.1.toNat)).contains h = false := by
      rw [Bool.eq_false_iff]
      intro hc
      rw [List.contains_iff_mem, List.mem_map] at hc
      obtain ⟨e, he, rfl⟩ := hc
      have := List.find?_eq_none.1 hf e he
      simp at this
    simp only [namable, hn, Bool.or_false, validHandle, Bool.and_eq_true, decide_eq_true_eq] at hv
    obtain ⟨⟨h1, h2⟩, h3⟩ := hv
    obtain ⟨d0, hd⟩ := Option.isSome_iff_exists.1 h3
    dsimp only
    rw [if_neg (by simp; omega), hd]
    rfl

theorem operandOf_evidence (cs : List (BitVec 32 × Desc × BitVec 8)) (j : Job) (b d : Bool) (h : Nat) :
    operandOf cs { j with evidence := b, deadlocked := d } h = operandOf cs j h := rfl

theorem Tot.descM {h : Nat} (hv : namable r0.w.copies (r0.s.job r0.job) h = true) :
    Tot (Calm r0 st) (descM h) fun t r => t = operandOf r0.w.copies (r0.s.job r0.job) h ∧ Calm r0 st r := by
  intro x hr
  obtain ⟨b, d, hb⟩ := hr.dat
  refine ⟨_, x, descM_at ?_, ?_, hr⟩
  · rw [hr.copies, hb]
    exact hv
  · rw [hr.copies, hb, operandOf_evidence]

theorem Tot.descOpt {h : Nat} (hv : h = 0 ∨ namable r0.w.copies (r0.s.job r0.job) h = true) :
    Tot (Calm r0 st) (descOpt h) fun t r => t = optOperand r0.w.copies (r0.s.job r0.job) h ∧ Calm r0 st r := by
  unfold Sys2Proof.Machine.descOpt optOperand
  split
  · exact Tot.pure _ fun _ h => ⟨rfl, h⟩
  · exact (Tot.descM (hv.resolve_left ‹_›)).map _ fun a r h => ⟨by rw [h.1], h.2⟩


theorem noInts_tot {P : Run → Prop} (ts : List TDesc) (h : ∀ t ∈ ts, (fmtOf t.fmt).isSome = true) : Tot P (noInts ts) fun _ => P := by
  unfold noInts
  induction ts with
  | nil => exact Tot.pure _ fun _ h => h
  | cons t r ih =>
    refine Tot.bind (Q := fun _ => P) ?_ fun _ => ih fun u hu => h u (by simp [hu])
    dsimp only
    rw [not_int_of_fmt (h t (by simp))]
    exact Tot.pure _ fun _ h => h

/-- A body that keeps the run calm leaves status OK. -/
theorem Keep.done {r0 : Run} {st : Bool} {P : Run → Prop} {m : M Unit} (h : Tot P m fun _ => Calm r0 st) : Tot P m fun _ r => r.w.status = 0 :=
  h.conseq (fun _ h => h) fun _ _ h => h.status

/-- A ready head is presented. -/
theorem startCmd_ready {q : QNum} {c : Cmd} {resv : Cmd → Bool} {handles : Cmd → List Nat} {body : M Unit} {s : State} (h : headReady s q c = true) :
    startCmd q c resv handles body s = .next (present q c resv handles body s) := by
  simp only [headReady, Bool.and_eq_true] at h
  obtain ⟨h1, h2⟩ := h
  have h3 := h1
  simp only [takeable, Bool.and_eq_true, Bool.not_eq_true'] at h3
  simp only [startCmd, h3.1.1.1, h3.1.1.2, h1, h2, Bool.not_true, Bool.false_eq_true, if_false]

/-- A command that starts and whose body ends is among those started. -/
theorem start_ends {q : QNum} {c : Cmd} {resv : Cmd → Bool} {handles : Cmd → List Nat} {body : M Unit} {s s1 : State} {r : Run}
    (hs : Starts s q c resv handles s1) (h : Ends body s s1 q c r) : startCmd q c resv handles body s = .next (started q r) := by
  obtain ⟨h3, ⟨b, h4⟩, h5, h6⟩ := hs
  rw [startCmd_ready h3]
  unfold present
  simp only [h4, h5, h6, started, Bool.not_true, Bool.false_eq_true, if_false]
  rw [show (ExceptT.run body).run (headRun s1 q (s.queue q) c) = (.ok (), r) from h]
  rfl

/-- A command whose body always ends, its start being free of poison, completes. -/
theorem completes_of_ends {i : Instr} {q : QNum} {c : Cmd} {resv : Cmd → Bool} {handles : Cmd → List Nat} {body : M Unit} {s s1 : State}
    (hi : ∀ r, startCmd q c resv handles body s = .next (started q r) → exec i s = .next (started q r)) (hs : Starts s q c resv handles s1) (hp : NearClear s1 q (s.queue q).next)
    (h : ∀ r0 : Run, r0 = headRun s1 q (s.queue q) c → r0.c = c → r0.exe = exeOf q (s.queue q) → r0.s.job r0.job = s1.job (s.queue q).job.toNat →
      r0.w.copies = (s.queue q).hold.copies → r0.s = s1 → Calm r0 true r0 → Tot (· = r0) body fun _ r => r.w.status = 0) : Completes i body s s1 q c := by
  have hc : Calm (headRun s1 q (s.queue q) c) true (headRun s1 q (s.queue q) c) :=
    ⟨hp.1, rfl, rfl, rfl, rfl, rfl, rfl, hp.2, rfl, rfl, ⟨_, _, rfl⟩, hp.2, fun _ => rfl, fun _ => rfl⟩
  obtain ⟨a, r, h1, h2⟩ := h _ rfl rfl rfl rfl rfl rfl hc _ rfl
  exact ⟨r, h1, hi r (start_ends hs h1), h2⟩

theorem completes_of_tot {i : Instr} {q : QNum} {c : Cmd} {resv : Cmd → Bool} {handles : Cmd → List Nat} {body : M Unit} {s s1 : State}
    (hi : exec i s = startCmd q c resv handles body s) (hs : Starts s q c resv handles s1) (hp : NearClear s1 q (s.queue q).next)
    (h : ∀ r0 : Run, r0 = headRun s1 q (s.queue q) c → r0.c = c → r0.exe = exeOf q (s.queue q) → r0.s.job r0.job = s1.job (s.queue q).job.toNat →
      r0.w.copies = (s.queue q).hold.copies → r0.s = s1 → Calm r0 true r0 → Tot (· = r0) body fun _ r => r.w.status = 0) : Completes i body s s1 q c :=
  completes_of_ends (fun _ hr => hi.trans hr) hs hp h

theorem handles_valid {s s1 : State} {q : QNum} {c : Cmd} {resv : Cmd → Bool} {handles : Cmd → List Nat} (h : Starts s q c resv handles s1) :
    ∀ k ∈ handles c, namable (s.queue q).hold.copies (s1.job (s.queue q).job.toNat) k = true := by
  obtain ⟨-, -, -, h⟩ := h
  unfold earlyChecks at h
  split at h; · simp at h
  split at h; · simp at h
  split at h; · simp at h
  split at h; · simp at h
  split at h
  · simp at h
  · next hf =>
    intro k hk
    have := List.find?_eq_none.1 hf k hk
    unfold namable
    rw [Bool.or_eq_true]
    by_contra hc
    rw [not_or, Bool.not_eq_true, Bool.not_eq_true] at hc
    exact this (by rw [hc.1, hc.2]; rfl)

theorem optH_valid {cs : List (BitVec 32 × Desc × BitVec 8)} {j : Job} {l : List Nat} {k : Nat} (h : ∀ a ∈ l, namable cs j a = true) (hl : ∀ a ∈ optH k, a ∈ l) :
    k = 0 ∨ namable cs j k = true := by
  by_cases hk : k = 0
  · exact .inl hk
  · exact .inr (h k (hl k (by simp [optH, hk])))

variable {α β : Type} {r0 : Run} {st : Bool} {R : β → Run → Prop} {j : Job} {cs : List (BitVec 32 × Desc × BitVec 8)}

theorem readable_spread {u : TDesc} (e : List Nat) (h : readable u = true) : readable (u.spread e) = true := by unfold TDesc.spread; split <;> exact h

theorem Tot.rowsOr (t : Option TDesc) (out : TDesc) (v : Nat) (h : ∀ u ∈ t, readable u = true) : Keep r0 st (rowsOr t out v) := by
  cases t with
  | none => exact Keep.pure _
  | some t =>
    have hr := readable_parts (readable_spread out.ext (h t rfl))
    exact Keep.readAll hr.1 hr.2

/-- What follows a look at the run is met at that run. -/
theorem tot_at {r : Run} {m : M α} {Q : α → Run → Prop} {P : Run → Prop} (hr : P r) (h : Tot P m Q) : Tot (· = r) m Q :=
  h.conseq (fun _ e => e ▸ hr) fun _ _ h => h

theorem tot_descB {h : Nat} {k : TDesc → M β} (hj : r0.s.job r0.job = j) (hcs : r0.w.copies = cs) (hv : namable cs j h = true)
    (hk : Tot (Calm r0 st) (k (operandOf cs j h)) R) : Tot (Calm r0 st) (descM h >>= k) R := by
  subst hj hcs
  refine (Tot.descM hv).bind fun t => Tot.given ?_
  rintro rfl
  exact hk

theorem tot_descOptB {h : Nat} {k : Option TDesc → M β} (hj : r0.s.job r0.job = j) (hcs : r0.w.copies = cs) (hv : h = 0 ∨ namable cs j h = true)
    (hk : Tot (Calm r0 st) (k (optOperand cs j h)) R) : Tot (Calm r0 st) (descOpt h >>= k) R := by
  subst hj hcs
  refine (Tot.descOpt hv).bind fun t => Tot.given ?_
  rintro rfl
  exact hk

theorem tot_descMapB {h : Nat} {k : Option TDesc → M β} (hj : r0.s.job r0.job = j) (hcs : r0.w.copies = cs) (hv : namable cs j h = true)
    (hk : Tot (Calm r0 st) (k (some (operandOf cs j h))) R) : Tot (Calm r0 st) ((some <$> descM h) >>= k) R := by
  subst hj hcs
  refine Tot.bind (Q := fun t r => t = some (operandOf r0.w.copies (r0.s.job r0.job) h) ∧ Calm r0 st r)
    ((Tot.descM hv).map _ fun _ _ h => ⟨by rw [h.1], h.2⟩) fun t => Tot.given ?_
  rintro rfl
  exact hk

theorem tot_none {γ : Type} {k : Option γ → M β} {P : Run → Prop} (hk : Tot P (k none) R) : Tot P (Pure.pure none >>= k) R := hk

theorem tot_needB {P : Run → Prop} {b : Bool} {n : Nat} {k : PUnit → M β} (hb : b = true) (hk : Tot P (k ()) R) : Tot P (need b n >>= k) R :=
  (Tot.need hb).bind fun _ => hk

theorem tot_keepB {m : M α} {k : α → M β} (hm : Keep r0 st m) (hk : ∀ a, Tot (Calm r0 st) (k a) R) : Tot (Calm r0 st) (m >>= k) R := Tot.bind hm hk

theorem tot_intsB {P : Run → Prop} {ts : List TDesc} {k : PUnit → M β} (h : ∀ t ∈ ts, (fmtOf t.fmt).isSome = true) (hk : Tot P (k ()) R) :
    Tot P (noInts ts >>= k) R := (noInts_tot ts h).bind fun _ => hk

/-- Reading is over: memory may change from here. -/
theorem tot_toWrite {m : M β} (h : Tot (Calm r0 false) m R) : Tot (Calm r0 st) m R := h.conseq (fun _ h => h.weaken) fun _ _ h => h

theorem tot_first {k : Run → M β} (hr : Calm r0 true r0) (h : Tot (Calm r0 true) (k r0) R) : Tot (· = r0) (MonadState.get >>= k) R :=
  Tot.got fun _ e => e ▸ tot_at hr h

theorem tot_start {k : Run → M β} (h : ∀ r, Calm r0 st r → Tot (Calm r0 st) (k { r with c := r0.c, exe := r0.exe, job := r0.job }) R) :
    Tot (Calm r0 st) (MonadState.get >>= k) R :=
  Tot.got fun r hr => tot_at hr (by
    have := h r hr
    rw [← hr.cmd, ← hr.exe, ← hr.job] at this
    exact this)


theorem job_undeadlock (p : Hold → Bool) (s : State) (k : Nat) : ∃ d, (undeadlock p s).job k = { s.job k with deadlocked := d } := by
  unfold undeadlock State.job
  simp only
  generalize s.queues = qs
  induction s.jobs with
  | nil => exact ⟨_, rfl⟩
  | cons e r ih =>
    obtain ⟨i, x⟩ := e
    simp only [List.map_cons, tget]
    by_cases hc : (x.deadlocked && qs.any fun q => q.2.job.toNat == i && q.2.st != .free && p q.2.hold) = true
    · simp only [hc, if_true]
      split
      · exact ⟨_, rfl⟩
      · exact ih
    · simp only [hc, Bool.false_eq_true, if_false]
      split
      · exact ⟨x.deadlocked, rfl⟩
      · exact ih

theorem dropRef_parts (s : State) (i k : Nat) : (dropRef s i).poison = s.poison ∧ (dropRef s i).mem = s.mem ∧
    (∃ d, (dropRef s i).job k = { s.job k with deadlocked := d }) ∧ ∀ id, (tfind (dropRef s i).masks id).map (·.epoch) = (tfind s.masks id).map (·.epoch) := by
  unfold dropRef
  split
  · exact ⟨rfl, rfl, ⟨_, rfl⟩, fun _ => rfl⟩
  · next e he =>
    refine ⟨rfl, rfl, ?_, fun id => ?_⟩
    · obtain ⟨d, hd⟩ := job_undeadlock (· == .maskRef (BitVec.ofNat 32 i)) s k
      exact ⟨d, hd⟩
    · show (tfind (tput _ _ s.masks) id).map (·.epoch) = _
      rw [tfind_tput]
      split
      · next h => subst h; rw [he]; rfl
      · rfl

theorem dropTileRef_parts (s : State) (a k : Nat) : (dropTileRef s a).poison = s.poison ∧ (dropTileRef s a).mem = s.mem ∧
    (∃ d, (dropTileRef s a).job k = { s.job k with deadlocked := d }) ∧ ∀ id, (tfind (dropTileRef s a).masks id).map (·.epoch) = (tfind s.masks id).map (·.epoch) := by
  unfold dropTileRef
  dsimp only
  split
  · split
    · exact dropRef_parts _ _ _
    · exact ⟨rfl, rfl, ⟨_, rfl⟩, fun _ => rfl⟩
  · exact ⟨rfl, rfl, ⟨_, rfl⟩, fun _ => rfl⟩

theorem keep_dropTileRef {r0 : Run} {st : Bool} (a : Nat) : Keep r0 st (modS fun s => dropTileRef s a) := by
  refine Tot.modify _ fun r hr => ?_
  obtain ⟨h1, h2, ⟨d', h3⟩, h4⟩ := dropTileRef_parts r.s a r.job
  refine hr.modS (fun s => dropTileRef s a) (by rw [h1, hr.poison]) ?_ (fun id => by rw [h4, hr.masks]) fun e => by rw [h2, hr.mem e]
  obtain ⟨b, d, hb⟩ := hr.dat
  exact ⟨b, d', by rw [h3, hb]⟩

/-- A change of the started commands of a queue, not of what they are and store, keeps the run calm. -/
theorem keep_mapStarted {r0 : Run} {st : Bool} (p : QNum) (f : Started → Started) (hf : ∀ w, (f w).idx = w.idx ∧ (f w).done = w.done ∧ (f w).spans = w.spans) :
    Keep r0 st (modS fun s => s.setQueue p { s.queue p with started := (s.queue p).started.map f }) :=
  Tot.modify _ fun r hr => hr.modS (fun s => s.setQueue p { s.queue p with started := (s.queue p).started.map f }) hr.poison hr.dat hr.masks hr.mem
    fun k hk => pending_setQueue (fun n hn => by
      have hx : ∀ e, exeOf (BitVec.ofNat 15 e) { r.s.queue p with started := (r.s.queue p).started.map f } = exeOf (BitVec.ofNat 15 e) (r.s.queue p) := fun _ => rfl
      simp only [writesOf, List.flatMap_map, hx, hf] at hn ⊢
      exact hn) hk

/-- The end of a tile's use keeps the run calm. -/
theorem keep_leaveTile {r0 : Run} {st : Bool} (p : QNum) (a : Nat) : Keep r0 st (modS fun s => leaveTile s p a) := by
  intro r hr
  have hd := keep_dropTileRef (r0 := r0) (st := st) a r hr
  obtain ⟨_, _, e1, h1⟩ := hd
  cases e1
  refine ⟨(), _, rfl, ?_⟩
  show Calm r0 st { r with s := leaveTile r.s p a }
  unfold leaveTile
  dsimp only
  split
  · exact hr
  · split
    · exact hr
    · split
      · exact h1
      · next i hi =>
        refine hr.modS (fun s => ((s.setArray a _).setQueue p _)) hr.poison hr.dat hr.masks hr.mem fun k hk => pending_setQueue (fun n hn => ?_) hk
        have hx : ∀ e l, exeOf (BitVec.ofNat 15 e) { r.s.queue p with started := l } = exeOf (BitVec.ofNat 15 e) (r.s.queue p) := fun _ _ => rfl
        simp only [writesOf, List.flatMap_map, hx] at hn ⊢
        rw [List.mem_flatMap] at hn ⊢
        obtain ⟨w, hw, hn⟩ := hn
        refine ⟨w, hw, ?_⟩
        split at hn <;> exact hn

theorem keep_modArray {r0 : Run} {st : Bool} (a : Nat) (g : ArrayState → ArrayState) : Keep r0 st (modArray a g) := Keep.modS _ fun _ => ⟨rfl, rfl, rfl, rfl⟩

theorem tot_arrayB {r0 : Run} {st : Bool} {β : Type} {k : Nat → M β} {R : β → Run → Prop} {a : Nat} (h : r0.exe.array? = some a) (hk : Tot (Calm r0 st) (k a) R) :
    Tot (Calm r0 st) (arrayM >>= k) R := by
  unfold arrayM
  rw [bind_assoc]
  refine tot_start fun r _ => ?_
  simp only [h]
  exact hk

theorem keep_denseElems {r0 : Run} {st : Bool} {t : TDesc} (h : flat t = true) (row c0 n : Nat) : Keep r0 st (denseElems t row c0 n) := by
  unfold denseElems
  rw [if_neg (flat_parts h).2.1]
  exact tot_keepB (Keep.readCodes h _ _ _) fun _ => Keep.pure _

theorem tot_loadDense {r0 : Run} {st : Bool} {t : TDesc} (h : flat t = true) (ko no k n : Nat) :
    Tot (Calm r0 st) (loadDense t ko no k n) fun l r => l.hdrs = [] ∧ Calm r0 st r := by
  unfold loadDense
  rw [if_neg (flat_parts h).2.1]
  refine tot_keepB (α := List (Nat × List (Nat × Nat × Bool))) (Keep.mapEach _ _ fun i _ => ?_) fun l => Tot.pure _ fun r hr => ⟨rfl, hr⟩
  exact tot_keepB (keep_denseElems h _ _ _) fun _ => tot_keepB (Keep.countReads _ _ _) fun _ => Keep.pure _

/-- A list of results, each with a property. -/
theorem Tot.mapEachP {α β : Type} {P : Run → Prop} {p : β → Prop} (l : List α) (g : α → M β) (h : ∀ a ∈ l, Tot P (g a) fun b r => p b ∧ P r) :
    Tot P (mapEach l g) fun bs r => (∀ b ∈ bs, p b) ∧ P r := by
  induction l with
  | nil => exact Tot.pure _ fun _ h => ⟨by simp, h⟩
  | cons a r ih =>
    refine (h a (by simp)).bind fun b => Tot.given fun hb => ?_
    refine (ih fun x hx => h x (by simp [hx])).bind fun bs => Tot.given fun hbs => ?_
    refine Tot.pure _ fun r hr => ⟨?_, hr⟩
    simpa [hb] using hbs

theorem keep_fetchRow {r0 : Run} {st : Bool} {t : TDesc} (h : readable t = true) (row k0 n : Nat) : Keep r0 st (fetchRow t row k0 n) := by
  obtain ⟨h1, h2⟩ := readable_parts h
  unfold fetchRow
  dsimp only
  split
  · exact tot_keepB (Keep.pure _) fun _ => tot_keepB (Keep.countReads _ _ _) fun _ => Keep.pure _
  · exact tot_keepB (Keep.readCodes h1 _ _ _) fun _ => tot_keepB (Keep.countReads _ _ _) fun _ => Keep.pure _

theorem keep_denseTile {r0 : Run} {t : TDesc} (h : t.tier = 0) (hf : (fmtOf t.fmt).isSome = true) (k : Fmt) (raw : Bool) (row0 col c0 : Nat)
    (rows : List (Nat × OutRow × List Nat)) : Keep r0 false (denseTile t k raw row0 col c0 rows) := by
  unfold denseTile
  refine tot_keepB (Keep.peekM _ _ h) fun _ => ?_
  have key : ∀ (keep : List Bool → Nat) (a b : Nat), Keep r0 false (do
      let flags ← mapEach rows fun e => do
        let seg := (e.2.2.drop (c0 - col)).take (min 32 (t.chan - c0) - (col - c0))
        if raw then
          putCodes t e.1 (max c0 col) seg 0
          padRow t e.1 (max c0 col + seg.length)
          evidenceM t (seg.any fun v => !f32IsFinite v)
          return false
        else
          let f ← writeRow t e.1 (max c0 col) seg
          return f || ((e.2.1.entries.take ((rows.head?.map fun e => e.2.2.length).getD 0)).drop (c0 - col) |>.take (min 32 (t.chan - c0) - (col - c0))).any fun v => !f32IsFinite v
      putDenseHdr t (t.slotAddr row0 c0) (keep flags) a b) := by
    intro keep a b
    refine tot_keepB (Keep.mapEach _ _ fun e _ => ?_) fun _ => Keep.putDenseHdr h _ _ _ _
    refine Keep.ite (fun _ => ?_) fun _ => ?_
    · exact tot_keepB (Keep.putCodes h _ _ _ _) fun _ => tot_keepB (Keep.padRow h _ _) fun _ => tot_keepB (Keep.evidenceM _ _) fun _ => Keep.pure _
    · exact tot_keepB (Keep.writeRow h hf _ _ _ _ _ _) fun _ => Keep.pure _
  dsimp only
  split
  · exact tot_keepB (Keep.writeM _ _ h) fun _ => key _ _ _
  · exact key _ _ _

/-- Nothing of a drain stops it where its rows lie within the destination, or what lies beyond is only counted. -/
theorem oobCut_none {t : TDesc} {b : Bool} {row col width : Nat} {rows : List OutRow}
    (ho : t.oobFault = false ∨ width ≤ outCols t col width ∧ ∀ o ∈ rows, row + o.i < t.rows) : (oobCut t b row col width rows).2.2 = none := by
  unfold oobCut
  have : (if t.oobFault = true then rows.find? fun o => decide (0 < width - outCols t col width) || !decide (row + o.i < t.rows) else none) = none := by
    rcases ho with ho | ⟨hw, ho⟩
    · simp [ho]
    · split
      · rw [List.find?_eq_none]
        intro o hm
        have := ho o hm
        simp only [Bool.or_eq_true, decide_eq_true_eq, Bool.not_eq_true', decide_eq_false_iff_not]
        omega
      · rfl
  dsimp only
  rw [this]

/-- A raw drain ends where its rows lie within the destination, or an element beyond it is only counted. -/
theorem keep_drainRaw {r0 : Run} {t : TDesc} (h : t.tier = 0) (hf : (fmtOf t.fmt).isSome = true) (row col width : Nat) (rows : List OutRow)
    (ho : t.oobFault = false ∨ width ≤ outCols t col width ∧ ∀ o ∈ rows, row + o.i < t.rows) : Keep r0 false (drainRows t none row col width rows) := by
  obtain ⟨k, hk⟩ := Option.isSome_iff_exists.1 hf
  have hno := oobCut_none (b := ((none : Option OutParams).map (·.compress)).getD false) ho
  unfold drainRows
  dsimp only
  refine tot_keepB (Keep.pure _) fun vals => ?_
  rw [hk]
  dsimp only
  rw [hno]
  have hend : Keep r0 false (do
      countM 22 (oobCut t (((none : Option OutParams).map (·.compress)).getD false) row col width rows).2.1
      pure ()) := tot_keepB (Keep.countM _ _) fun _ => Keep.pure _
  split
  · exact hend
  · split
    · refine tot_keepB (Keep.forEach _ _ fun g _ => ?_) fun _ => hend
      exact Keep.forEach _ _ fun ct _ => keep_denseTile h hf _ _ _ _ _ _
    · refine tot_keepB (Keep.forEach _ _ fun e _ => ?_) fun _ => hend
      exact tot_keepB (Keep.putCodes h _ _ _ _) fun _ => tot_keepB (Keep.padRow h _ _) fun _ => Keep.evidenceM _ _

theorem tot_modArray {r0 : Run} {st : Bool} {p : ArrayState → Prop} (a : Nat) (g : ArrayState → ArrayState) (h : ∀ x, p (g x)) :
    Tot (Calm r0 st) (modArray a g) fun _ r => p (r.s.array a) ∧ Calm r0 st r :=
  Tot.modify _ fun r hr => by
    refine ⟨?_, hr.modS (fun s => s.setArray a (g (s.array a))) hr.poison hr.dat hr.masks hr.mem⟩
    show p ((r.s.setArray a (g (r.s.array a))).array a)
    rw [show (r.s.setArray a (g (r.s.array a))).array a = g (r.s.array a) from tget_tput_same _ _ _ _]
    exact h _

/-- The state that a computation looks at has what the premise says of it. -/
theorem tot_getS {P : Run → Prop} {p : State → Prop} (h : ∀ r, P r → p r.s) : Tot P getS fun s r => p s ∧ P r := by
  refine Tot.got fun x hx => Tot.pure _ ?_
  rintro r rfl
  exact ⟨h r hx, hx⟩

theorem terms_updateRow (j : Job) (a mode tid inc : Nat) (m : AccSet) (row : Nat) (sums : List Nat) (x : ArrayState) :
    tget 0 (updateRow j a mode tid inc m row sums x).terms row ≤ tget 0 x.terms row + inc := by
  unfold updateRow
  simp only [tget_tput_same]
  omega

theorem terms_zeroRow (m : AccSet) (row : Nat) (x : ArrayState) : tget 0 (zeroRow m row x).terms row = 0 := by
  simp [zeroRow]

/-! ### What reads at the start reads on -/

/-- A run sees what r0 sees: no poison, the same memory, and the same weights registered. -/
structure Seen (r0 r : Run) : Prop where
  near : r.s.poison = [] ∧ ∀ g, pendingWrites r.s r.q r.w.idx g = 0
  mem : r.s.mem = r0.s.mem
  masks : ∀ id, (tfind r.s.masks id).map (·.epoch) = (tfind r0.s.masks id).map (·.epoch)

theorem Seen.known {r0 r : Run} (h : Seen r0 r) (id : Nat) : (tfind r.s.masks id).isSome = (tfind r0.s.masks id).isSome := by
  have := congrArg Option.isSome (h.masks id)
  simpa using this

theorem Calm.seen {r0 r : Run} (h : Calm r0 true r) : Seen r0 r := ⟨h.near, h.mem rfl, h.masks⟩

/-- A computation that only looks: from r0 it answers a value and leaves the run, as it does from every run that sees the same; or it stops. -/
def Looks (r0 : Run) {α : Type} (m : M α) : Prop :=
  (∃ x, Reads m r0 x ∧ ∀ r, Seen r0 r → Reads m r x) ∨ ∃ e r', (ExceptT.run m).run r0 = (.error e, r')

theorem Looks.pure {r0 : Run} {α : Type} (a : α) : Looks r0 (pure a : M α) := .inl ⟨a, rfl, fun _ _ => rfl⟩

theorem reads_bind {r : Run} {α β : Type} {m : M α} {k : α → M β} {a : α} {b : β} (h1 : Reads m r a) (h2 : Reads (k a) r b) : Reads (m >>= k) r b := by
  unfold Reads
  rw [ExceptT.run_bind]
  simp only [StateT.run_bind]
  rw [show StateT.run (ExceptT.run m) r = (.ok a, r) from h1]
  exact h2

theorem Looks.bind {r0 : Run} {α β : Type} {m : M α} {k : α → M β} (h1 : Looks r0 m) (h2 : ∀ a, Looks r0 (k a)) : Looks r0 (m >>= k) := by
  rcases h1 with ⟨a, ha, ha'⟩ | ⟨e, r', he⟩
  · rcases h2 a with ⟨b, hb, hb'⟩ | ⟨e, r', he⟩
    · exact .inl ⟨b, reads_bind ha hb, fun r hr => reads_bind (ha' r hr) (hb' r hr)⟩
    · refine .inr ⟨e, r', ?_⟩
      rw [ExceptT.run_bind]
      simp only [StateT.run_bind]
      rw [show StateT.run (ExceptT.run m) r0 = (.ok a, r0) from ha]
      exact he
  · refine .inr ⟨e, r', ?_⟩
    rw [ExceptT.run_bind]
    simp only [StateT.run_bind]
    rw [show StateT.run (ExceptT.run m) r0 = (.error e, r') from he]
    rfl

theorem Looks.stop {r0 : Run} {α : Type} (e : Stop) : Looks r0 (throw e : M α) := .inr ⟨e, r0, rfl⟩

theorem Looks.mapEach {r0 : Run} {α β : Type} (l : List α) (g : α → M β) (h : ∀ a, Looks r0 (g a)) : Looks r0 (mapEach l g) := by
  induction l with
  | nil => exact Looks.pure _
  | cons a r ih => exact Looks.bind (h a) fun _ => Looks.bind ih fun _ => Looks.pure _

theorem reads_readM {r : Run} (hp : r.s.poison = [] ∧ ∀ g, pendingWrites r.s r.q r.w.idx g = 0) (a n : Nat) : Reads (readM 0 a n) r (physRead r.s a n) := by
  obtain ⟨b, r', h1, h2, h3⟩ := Tot.readM (P := (· = r)) (by rintro _ rfl; exact hp) a n r rfl
  subst h3
  rw [h2] at h1
  exact h1

theorem Looks.readM {r0 : Run} (hp : r0.s.poison = [] ∧ ∀ g, pendingWrites r0.s r0.q r0.w.idx g = 0) (a n : Nat) {t : Nat} (ht : t = 0) : Looks r0 (readM t a n) := by
  subst ht
  refine .inl ⟨_, reads_readM hp a n, fun r hr => ?_⟩
  have := reads_readM hr.near a n
  rw [physRead, hr.mem] at this
  exact this

theorem Looks.checkHdr {r0 : Run} (hc : Calm r0 true r0) (t : TDesc) (h : Hdr) (a : Nat) : Looks r0 (checkHdr t h a) := by
  have key : ∀ r, Seen r0 r → (ExceptT.run (Sys2Proof.Machine.checkHdr t h a)).run r = (if (kindAllowed t h.kind && h.level == 1 && h.fmt == t.fmt && h.rsvd == 0 &&
      h.flags % 32 == 0 && (!h.escape || h.kind == 1) && (!h.masked || (tfind r0.s.masks h.tid).isSome)) = true then (.ok (), r)
      else (.error (.done stTileInvalid (if t.tier = 0 then 2 else 1) 0 a), r)) := by
    intro r hr
    rw [← hr.known]
    show (ExceptT.run (if _ then Pure.pure () else tileInvalid t a : M Unit)).run r = _
    split
    · rfl
    · rfl
  by_cases hb : (kindAllowed t h.kind && h.level == 1 && h.fmt == t.fmt && h.rsvd == 0 &&
      h.flags % 32 == 0 && (!h.escape || h.kind == 1) && (!h.masked || (tfind r0.s.masks h.tid).isSome)) = true
  · exact .inl ⟨(), by have := key r0 hc.seen; rw [if_pos hb] at this; exact this, fun r hr => by have := key r hr; rw [if_pos hb] at this; exact this⟩
  · exact .inr ⟨_, _, by have := key r0 hc.seen; rw [if_neg hb] at this; exact this⟩

theorem Looks.readQuad {r0 : Run} (hp : r0.s.poison = [] ∧ ∀ g, pendingWrites r0.s r0.q r0.w.idx g = 0) {t : TDesc} (ht : t.tier = 0) (a q : Nat) : Looks r0 (readQuad t a q) := by
  unfold Sys2Proof.Machine.readQuad
  refine Looks.bind (Looks.readM hp _ _ ht) fun _ => Looks.bind (Looks.readM hp _ _ ht) fun _ => Looks.bind (Looks.readM hp _ _ ht) fun _ => ?_
  dsimp only
  split
  · exact Looks.stop _
  · exact Looks.pure _

theorem Looks.readWTile {r0 : Run} (hc : Calm r0 true r0) {t : TDesc} (ht : t.tier = 0) (ep i : Nat) : Looks r0 (readWTile t ep i) := by
  have tail : ∀ b : List Byte, Looks r0 (do
      let qs ← Machine.mapEach (List.range 128) fun q => Sys2Proof.Machine.readQuad t (t.base + i * t.wtileSize) q
      epochCheck ep (parseHdr b).epoch
      Pure.pure (⟨i, t.base + i * t.wtileSize, parseHdr b, qs⟩ : WTile)) := by
    intro b
    refine Looks.bind (Looks.mapEach _ _ fun _ => Looks.readQuad hc.near ht _ _) fun _ => Looks.bind ?_ fun _ => Looks.pure _
    unfold epochCheck
    split
    · exact Looks.pure _
    · exact .inr ⟨_, _, rfl⟩
  unfold Sys2Proof.Machine.readWTile
  refine Looks.bind (Looks.readM hc.near _ _ ht) fun b => Looks.bind (Looks.checkHdr hc _ _ _) fun _ => ?_
  dsimp only
  split
  · exact tail b
  · exact Looks.bind (Looks.stop _) fun _ => tail b

theorem Looks.readBits {r0 : Run} (hp : r0.s.poison = [] ∧ ∀ g, pendingWrites r0.s r0.q r0.w.idx g = 0) (a w : Nat) {t : Nat} (ht : t = 0) : Looks r0 (readBits t a w) :=
  Looks.bind (Looks.readM hp _ _ ht) fun _ => Looks.pure _

theorem Looks.readCodes {r0 : Run} (hp : r0.s.poison = [] ∧ ∀ g, pendingWrites r0.s r0.q r0.w.idx g = 0) {t : TDesc} (h : flat t = true) (row c0 n : Nat) : Looks r0 (readCodes t row c0 n) := by
  unfold Sys2Proof.Machine.readCodes
  rw [if_neg (flat_parts h).2.1, if_neg (flat_parts h).2.2]
  refine Looks.mapEach _ _ fun c => Looks.bind (Looks.readBits hp _ _ (flat_parts h).1) fun _ => ?_
  dsimp only
  split
  · exact Looks.bind (Looks.pure _) fun _ => Looks.pure _
  · exact Looks.bind (Looks.readM hp _ _ (flat_parts h).1) fun _ => Looks.bind (Looks.pure _) fun _ => Looks.pure _

/-- What could be read at the start is read later, with the same result, while memory stands. -/
theorem tot_reads {r0 : Run} {α : Type} {m : M α} {x : α} (hl : Looks r0 m) (h : Reads m r0 x) : Tot (Calm r0 true) m fun y r => y = x ∧ Calm r0 true r := by
  intro r hr
  rcases hl with ⟨y, h1, h2⟩ | ⟨e, r', he⟩
  · have : y = x := by
      have := congrArg Prod.fst (h1.symm.trans h)
      exact Except.ok.inj this
    subst this
    exact ⟨y, r, h2 r hr.seen, rfl, hr⟩
  · have := congrArg Prod.fst (he.symm.trans h)
    cases this

/-! ### The start of the mask commands -/

theorem tot_getE {r0 : Run} {β : Type} {R : β → Run → Prop} {k : Run → M β} (h : Tot (· = r0) (k r0) R) : Tot (· = r0) (MonadState.get >>= k) R :=
  Tot.got fun _ e => e ▸ h

theorem tot_bindE {r0 : Run} {α β : Type} {R : β → Run → Prop} {m : M α} {k : α → M β} {a : α} (hm : Reads m r0 a) (h : Tot (· = r0) (k a) R) :
    Tot (· = r0) (m >>= k) R := by
  refine Tot.bind (Q := fun x r => x = a ∧ r = r0) ?_ fun x => Tot.given ?_
  · rintro r rfl
    exact ⟨a, r, hm, rfl, rfl⟩
  · rintro rfl
    exact h

theorem reads_descM {r0 : Run} {h : Nat} (hv : namable r0.w.copies (r0.s.job r0.job) h = true) : Reads (descM h) r0 (operandOf r0.w.copies (r0.s.job r0.job) h) := descM_at hv

theorem reads_descOpt {r0 : Run} {h : Nat} (hv : h = 0 ∨ namable r0.w.copies (r0.s.job r0.job) h = true) :
    Reads (descOpt h) r0 (optOperand r0.w.copies (r0.s.job r0.job) h) := by
  unfold descOpt optOperand
  split
  · rfl
  · have := reads_descM (hv.resolve_left ‹_›)
    rw [map_eq_pure_bind]
    exact reads_bind this rfl

theorem reads_need {r : Run} {b : Bool} {st : Nat} (h : b = true) : Reads (need b st) r () := by subst h; rfl

theorem reads_weightM {r0 : Run} {w : TDesc} {m : MaskEntry} (h1 : tfind r0.s.masks w.tid = some m) (h2 : w.layout = 3) (h3 : srcOk r0.exe w = true) :
    Reads (weightM w) r0 m := by
  unfold Reads weightM
  show (ExceptT.run (match tfind r0.s.masks w.tid with | some e => _ | none => _ : M MaskEntry)).run r0 = _
  rw [h1]
  dsimp only
  rw [if_pos (by simp [h2, h3])]
  rfl

theorem reads_rangeM {r0 : Run} {w : TDesc} (h1 : cmdField r0.c 0x10 4 ≠ 0) (h2 : cmdField r0.c 0x0C 4 + cmdField r0.c 0x10 4 ≤ w.wTiles) :
    Reads (rangeM w) r0 (rangeFrom (cmdField r0.c 0x0C 4) (cmdField r0.c 0x10 4)) := by
  unfold rangeM
  refine reads_bind (a := cmdField r0.c 0x0C 4) rfl (reads_bind (a := cmdField r0.c 0x10 4) rfl (reads_bind (reads_need (by simpa using h1)) (reads_bind (reads_need (by simpa using h2)) rfl)))

theorem keep_refMask {r0 : Run} {st : Bool} (id : Nat) : Keep r0 st (refMask id) := by
  refine Tot.bind (Q := fun s r => s = r.s ∧ Calm r0 st r) (Tot.got fun x hx => Tot.pure _ (by rintro r rfl; exact ⟨rfl, hx⟩)) fun s => ?_
  split
  · exact Tot.pure _ fun _ h => h.2
  · next e he =>
    refine Tot.bind (Q := fun _ => Calm r0 st) (Tot.modify _ fun r hr => ?_) fun _ => Keep.modW _ fun _ => ⟨rfl, rfl⟩
    obtain ⟨rfl, hr⟩ := hr
    refine hr.modS (fun s => { s with masks := tput id { e with refs := e.refs + 1 } s.masks }) hr.poison hr.dat (fun k => ?_) hr.mem
    rw [← hr.masks]
    show (tfind (tput id _ r.s.masks) k).map (·.epoch) = _
    rw [tfind_tput]
    split
    · next h => subst h; rw [he]; rfl
    · rfl

theorem keep_wordM {r0 : Run} {st : Bool} (b : Bool) (n : Nat) : Keep r0 st (wordM b n) := Keep.modW _ fun _ => ⟨rfl, rfl⟩

theorem keep_skippedM {r0 : Run} {st : Bool} : Keep r0 st skippedM := Keep.bind Keep.get fun _ => Keep.pure _

theorem reads_idleMask {r0 : Run} {id : Nat} {m : MaskEntry} (h1 : tfind r0.s.masks id = some m) (h2 : m.st = .idle) : Reads (idleMask id) r0 m := by
  unfold Reads idleMask
  show (ExceptT.run (match tfind r0.s.masks id with | none => _ | some e => _ : M MaskEntry)).run r0 = _
  rw [h1]
  simp only [h2, if_true]
  rfl

/-- The work of a mask command on an idle weight. -/
theorem tot_maskWork {r0 : Run} {st : Bool} (hc : Calm r0 true r0) {w : TDesc} {m : MaskEntry} {act : MaskEntry → M Unit} (h1 : tfind r0.s.masks w.tid = some m)
    (h2 : m.st = .idle) (ha : Tot (Calm r0 true) (act m) fun _ => Calm r0 st) : Tot (· = r0) (maskWork w act) fun _ r => r.w.status = 0 := by
  unfold maskWork
  refine tot_bindE (reads_idleMask h1 h2) (tot_at hc (tot_keepB (keep_refMask _) fun _ => tot_keepB keep_skippedM fun b => ?_))
  split
  · exact Keep.done (r0 := r0) (st := true) (keep_wordM _ _)
  · exact Keep.done (r0 := r0) ha

/-- A run that is calm, with the mask registry as it was at the start. -/
def CalmSame (r0 r : Run) : Prop := r.s.masks = r0.s.masks ∧ Calm r0 true r

/-- Counting as a writer leaves the registry as it was. -/
theorem Tot.writerSame {r0 : Run} (t : TDesc) : Tot (CalmSame r0) (writerM t) fun _ => CalmSame r0 := by
  rintro r ⟨h1, hr⟩
  obtain ⟨a, r', e, hr'⟩ := Keep.writerM t r hr
  refine ⟨a, r', e, ?_, hr'⟩
  unfold writerM at e
  split at e
  · cases e
    show (genStart r.s t.tid).masks = _
    rw [show (genStart r.s t.tid).masks = r.s.masks by unfold genStart; split <;> rfl]
    exact h1
  · cases e
    exact h1

theorem Tot.writerOptSame {r0 : Run} (t : Option TDesc) : Tot (CalmSame r0) (writerOpt t) fun _ => CalmSame r0 := by
  cases t with
  | none => exact Tot.pure _ fun _ h => h
  | some t => exact Tot.writerSame t

/-- PRUNE and REGROW count as writers before their work. -/
theorem Tot.selectSame {r0 : Run} (t : TDesc) (rep : Option TDesc) : Tot (CalmSame r0) (writeSelect t rep) fun _ => CalmSame r0 := by
  unfold writeSelect
  refine Tot.bind (Tot.writerSame t) fun _ => ?_
  cases rep with
  | none => exact Tot.pure _ fun _ h => h
  | some z => exact Tot.writerSame z

/-- An idle weight, after the command has counted as a writer. -/
theorem Tot.idleSame {r0 : Run} {id : Nat} {m : MaskEntry} (h1 : tfind r0.s.masks id = some m) (h2 : m.st = .idle) :
    Tot (CalmSame r0) (idleMask id) fun x r => x = m ∧ Calm r0 true r := fun r hr =>
  ⟨m, r, reads_idleMask (by rw [hr.1]; exact h1) h2, rfl, hr.2⟩

/-- The work of a mask command on an idle weight, after the command has counted as a writer. -/
theorem tot_maskWorkB {r0 : Run} {st : Bool} {w : TDesc} {m : MaskEntry} {act : MaskEntry → M Unit} (h1 : tfind r0.s.masks w.tid = some m) (h2 : m.st = .idle)
    (ha : Tot (Calm r0 true) (act m) fun _ => Calm r0 st) : Tot (CalmSame r0) (maskWork w act) fun _ r => r.w.status = 0 := by
  unfold maskWork
  refine (Tot.idleSame h1 h2).bind fun x => Tot.given ?_
  rintro rfl
  refine tot_keepB (keep_refMask _) fun _ => tot_keepB keep_skippedM fun b => ?_
  split
  · exact Keep.done (r0 := r0) (st := true) (keep_wordM _ _)
  · exact Keep.done (r0 := r0) ha

theorem keep_maskCodes {r0 : Run} {st : Bool} {t : TDesc} (h : flat t = true) (row c0 n : Nat) : Keep r0 st (maskCodes t row c0 n) := by
  unfold maskCodes
  refine tot_keepB (Keep.readCodes h _ _ _) fun _ => ?_
  dsimp only
  split
  · exact tot_keepB (Keep.countReads _ _ _) fun _ => Keep.pure _
  · exact Keep.pure _

theorem keep_maskVals {r0 : Run} {st : Bool} {t : TDesc} (h : readable t = true) (row c0 n : Nat) : Keep r0 st (maskVals t row c0 n) := by
  obtain ⟨h1, h2⟩ := readable_parts h
  obtain ⟨k, hk⟩ := Option.isSome_iff_exists.1 h2
  unfold maskVals
  refine tot_keepB (keep_maskCodes h1 _ _ _) fun _ => ?_
  rw [hk]
  exact Keep.pure _

theorem keep_masterScores {r0 : Run} {st : Bool} {m : TDesc} (h : readable m = true) (t : WTile) (n depth : Nat) : Keep r0 st (masterScores m t n depth) := by
  unfold masterScores
  exact tot_keepB (keep_maskVals h _ _ _) fun _ => Keep.pure _

theorem keep_reportM {r0 : Run} (t : Option TDesc) (words : List Nat) (e : Nat) (h : ∀ z ∈ t, z.tier = 0) : Keep r0 false (reportM t words e) := by
  unfold reportM
  cases t with
  | none => exact Keep.pure _
  | some t => exact Keep.putCodes (h t rfl) _ _ _ _

theorem reads_mapEach {r : Run} {α β : Type} (l : List α) (g : α → M β) (f : α → β) (h : ∀ a ∈ l, Reads (g a) r (f a)) : Reads (mapEach l g) r (l.map f) := by
  induction l with
  | nil => rfl
  | cons a t ih => exact reads_bind (h a (by simp)) (reads_bind (ih fun b hb => h b (by simp [hb])) rfl)

theorem keep_setMasks {r0 : Run} {st : Bool} (id : Nat) (e : MaskEntry) (h : (tfind r0.s.masks id).map (·.epoch) = some e.epoch) :
    Keep r0 st (modS fun s => { s with masks := tput id e s.masks }) :=
  Tot.modify _ fun r hr => by
    refine hr.modS (fun s => { s with masks := tput id e s.masks }) hr.poison hr.dat (fun k => ?_) hr.mem
    rw [← hr.masks]
    show (tfind (tput id _ r.s.masks) k).map (·.epoch) = _
    rw [tfind_tput]
    split
    · next hk => subst hk; rw [hr.masks, h]; rfl
    · rfl

theorem keep_changeCompanion {r0 : Run} (plain : Bool) {t : TDesc} (h : t.tier = 0) (tile : Nat) (u : MUnit) (n : Nat) : Keep r0 false (changeCompanion plain t tile u n) := by
  unfold changeCompanion
  refine Keep.forEach _ _ fun c _ => tot_keepB (Keep.mapEach _ _ fun _ _ => Keep.readBits _ _ h) fun old => ?_
  exact Keep.ite (fun _ => tot_keepB (Keep.forEach _ _ fun _ _ => Keep.writeBits _ _ _ h) fun _ => Keep.evidenceM _ _) fun _ => Keep.pure _

theorem keep_rewriteTile {r0 : Run} {w : TDesc} (hw : w.tier = 0) {comps : List TDesc} (hc : ∀ t ∈ comps, t.tier = 0) (t : WTile) (ch : List (MUnit × Nat)) (e : Nat) :
    Keep r0 false (rewriteTile w comps t ch e) := by
  unfold rewriteTile
  refine tot_keepB (Keep.forEach _ _ fun z _ => Keep.ite (fun _ => Keep.pure _) fun _ => Keep.writeM _ _ hw) fun _ => ?_
  refine tot_keepB (Keep.forEach _ _ fun z _ => Keep.forEach _ _ fun d hd => keep_changeCompanion _ (hc d hd) _ _ _) fun _ => Keep.writeM _ _ hw

theorem keep_auditTile {r0 : Run} {st : Bool} (c : Cmd) {w1 : TDesc} (h : readable w1 = true) (b1 : Option (List Nat)) (xs : List (Nat × List Nat)) (pred : List (Nat × List Bool))
    (tile : List Nat × List Nat) : Keep r0 st (auditTile c w1 b1 xs pred tile) := by
  unfold auditTile
  refine tot_keepB (Keep.mapEach _ _ fun n _ => ?_) fun _ => Keep.pure _
  have hf := flat_parts (readable_parts h).1
  have hr : Keep r0 st (rowEpochs w1 n) := by
    unfold rowEpochs
    rw [if_neg (by simp [hf.2.1, hf.2.2])]
    exact Keep.pure _
  exact tot_keepB hr fun _ => tot_keepB (keep_maskVals h _ _ _) fun _ => Keep.pure _

theorem keep_optVals {r0 : Run} {st : Bool} {t : Option TDesc} (h : ∀ u ∈ t, readable u = true) (n : Nat) :
    Keep r0 st (match t with | some t => some <$> maskVals t 0 0 n | none => pure none : M (Option (List Nat))) := by
  cases t with
  | none => exact Keep.pure _
  | some t => exact Keep.map _ (keep_maskVals (h t rfl) _ _ _)

/-! ### Moves -/

/-- A tensor whose elements can be moved one by one: element by element, in a format of integers or of numbers. -/
theorem keep_codeAt {r0 : Run} {st : Bool} {t : TDesc} (h : flat t = true) (x : List Nat) : Keep r0 st (codeAt t x) := by
  unfold codeAt
  refine tot_keepB (Keep.readBits _ _ (flat_parts h).1) fun _ => ?_
  split
  · exact tot_keepB (Keep.pure _) fun _ => Keep.pure _
  · exact tot_keepB (Keep.readM _ _ (flat_parts h).1) fun _ => tot_keepB (Keep.pure _) fun _ => Keep.pure _

theorem not_tiled {t : TDesc} (h : flat t = true) : t.tiled = false := by
  have := flat_parts h
  simp [TDesc.tiled, this.2.1, this.2.2]

theorem keep_valueAt {r0 : Run} {st : Bool} {t : TDesc} (h : readable t = true) (ep : Option (Nat × Nat)) (b : Bool) (x : List Nat) : Keep r0 st (valueAt t ep b x) := by
  obtain ⟨h1, h2⟩ := readable_parts h
  obtain ⟨k, hk⟩ := Option.isSome_iff_exists.1 h2
  unfold valueAt
  simp only [not_tiled h1, Bool.false_eq_true, if_false, hk]
  refine tot_keepB (keep_codeAt h1 _) fun _ => ?_
  split
  · refine tot_keepB (Keep.countM _ _) fun _ => ?_
    split
    · exact tot_keepB (Keep.countM _ _) fun _ => Keep.pure _
    · exact Keep.pure _
  · split
    · exact tot_keepB (Keep.countM _ _) fun _ => Keep.pure _
    · exact Keep.pure _

theorem keep_storeCode {r0 : Run} {t : TDesc} (h : t.tier = 0) (x : List Nat) (code : Nat) (sc : Option Nat) : Keep r0 false (storeCode t x code sc) := by
  unfold storeCode
  cases sc <;> cases fmtOf t.fmt <;> dsimp only
  all_goals
    repeat' first
      | with_reducible exact Keep.pure _
      | with_reducible exact Keep.writeBits _ _ _ h
      | with_reducible exact Keep.writeM _ _ h
      | with_reducible exact Keep.padRow h _ _
      | with_reducible exact Keep.evidenceM _ _
      | with_reducible refine tot_keepB ?_ fun _ => ?_
      | split

theorem keep_addAt {r0 : Run} {t : TDesc} (h : t.tier = 0) (x : List Nat) (v : Nat) : Keep r0 false (addAt t x v) := by
  unfold addAt
  refine tot_keepB (Keep.peekM _ _ h) fun _ => ?_
  dsimp only
  split
  · exact Keep.writeBits _ _ _ h
  · split
    · next k hk => exact tot_keepB (Keep.writeRow h (by rw [hk]; rfl) _ _ _ _ _ _) fun _ => Keep.pure _
    · exact Keep.pure _

theorem tot_tryStop {P : Run → Prop} {Q : Bool → Run → Prop} {m : M Bool} (h : Tot P m Q) : Tot P (tryStop m) fun x r => ∃ b, x = .ok b ∧ Q b r := by
  intro r hr
  obtain ⟨b, r', h1, h2⟩ := h r hr
  refine ⟨.ok b, r', ?_, b, rfl, h2⟩
  have h3 : m r = (Except.ok b, r') := h1
  simp only [tryStop, tryCatch, tryCatchThe, MonadExceptOf.tryCatch, ExceptT.tryCatch, ExceptT.run, ExceptT.mk, Functor.map, ExceptT.map, bind, StateT.bind, StateT.run, h3, pure,
    StateT.pure]

/-- Units that all keep the run calm run to the end. -/
theorem tot_runUnits {r0 : Run} {st : Bool} (us : List DUnit) (h : ∀ u ∈ us, Keep r0 st u.act) : Tot (Calm r0 st) (runUnits us) fun x r => x.2.2 = none ∧ Calm r0 st r := by
  induction us with
  | nil => exact Tot.pure _ fun _ h => ⟨rfl, h⟩
  | cons u us ih =>
    unfold runUnits
    refine (tot_tryStop (h u (by simp))).bind fun x => ?_
    cases x with
    | error e => rintro r ⟨b, hb, -⟩; cases hb
    | ok b =>
      refine Tot.conseq (P := Calm r0 st) ?_ (fun r h => by obtain ⟨_, -, hr⟩ := h; exact hr) fun _ _ h => h
      refine (ih fun v hv => h v (by simp [hv])).bind fun y => Tot.given fun hy => ?_
      obtain ⟨l, rest, e⟩ := y
      exact Tot.pure _ fun _ h => ⟨hy, h⟩

/-- What follows a run of units, at whose end nothing has stopped. -/
theorem tot_unitsB {r0 : Run} {R : Unit → Run → Prop} {us : List DUnit} {k : List Nat × List DUnit × Option Stop → M Unit} (h : ∀ u ∈ us, Keep r0 false u.act)
    (hk : ∀ l rest, Tot (Calm r0 false) (k (l, rest, none)) R) : Tot (Calm r0 true) (runUnits us >>= k) R :=
  tot_toWrite ((tot_runUnits us h).bind fun x => Tot.given fun hx => by
    obtain ⟨l, rest, e⟩ := x
    dsimp only at hx
    subst hx
    exact hk l rest)

theorem elemUnits_keep {r0 : Run} {st : Bool} {shape : List Nat} {w : Nat} {src dst : List Nat → Nat} {body : List Nat → Bool → M Bool}
    (h : ∀ x b, Keep r0 st (body x b)) : ∀ u ∈ elemUnits shape w src dst body, Keep r0 st u.act := by
  intro u hu
  simp only [elemUnits, List.mem_map] at hu
  obtain ⟨i, -, rfl⟩ := hu
  exact h _ _

theorem pieceUnits_keep {r0 : Run} {shape : List Nat} {d : TDesc} {df : Nat} {src : List Nat → Nat} {val : List Nat → Bool → M Nat} {rne : Bool}
    (hd : d.tier = 0) (hf : (fmtOf d.fmt).isSome = true) (h : ∀ x b, Keep r0 false (val x b)) : ∀ u ∈ pieceUnits shape d df src val rne, Keep r0 false u.act := by
  intro u hu
  simp only [pieceUnits, List.mem_flatMap, List.mem_map] at hu
  obtain ⟨i, -, p, -, rfl⟩ := hu
  exact tot_keepB (Keep.mapEach _ _ fun _ _ => h _ _) fun _ => tot_keepB (Keep.writeRow hd hf _ _ _ _ _ _) fun _ => Keep.pure _

/-- A tensor of near memory meets no run-ahead loads. -/
theorem keep_runAhead {r0 : Run} {st : Bool} {t : TDesc} (h : t.tier = 0) : Keep r0 st (runAheadM t) := by
  unfold runAheadM
  rw [if_pos h]
  exact Keep.pure _

theorem keep_setSem {r0 : Run} {st : Bool} (a b : Nat) : Keep r0 st (setSem a b) := Keep.modW _ fun _ => ⟨rfl, rfl⟩

theorem reads_semM {r0 : Run} {n : Nat} (h : semCheck r0.s r0.f n = stOk) : Reads (semM n) r0 () := by
  unfold Reads semM
  show (ExceptT.run (if semCheck r0.s r0.f n = stOk then pure () else stopAt _ 6 n : M Unit)).run r0 = _
  rw [if_pos h]
  rfl

theorem int_block {t : TDesc} (h : isIntFmt t.fmt = true) : t.block = 1 := by
  unfold isIntFmt at h
  rw [List.contains_iff_mem] at h
  unfold TDesc.block
  simp only [List.mem_cons, List.not_mem_nil, or_false] at h
  rcases h with h | h | h | h <;> rw [h] <;> decide

/-- What the operands of a GATHER or SCATTER in near memory have. -/
structure Movable (o : GOps) : Prop where
  src : flat o.src = true
  dst : flat o.dst = true
  idx : flat o.idx = true
  srcNum : isIntFmt o.src.fmt = true ∨ (fmtOf o.src.fmt).isSome = true
  dstNum : isIntFmt o.dst.fmt = true ∨ (fmtOf o.dst.fmt).isSome = true
  pair : pairOk o.src o.dst = true

theorem Movable.vals {o : GOps} (h : Movable o) (hd : isIntFmt o.dst.fmt = false) : readable o.src = true ∧ (fmtOf o.dst.fmt).isSome = true := by
  have h1 : isIntFmt o.src.fmt = false := by
    have := h.pair
    simp only [pairOk, Bool.or_eq_true, beq_iff_eq, Bool.and_eq_true, Bool.not_eq_true'] at this
    rcases this with e | e
    · rw [e]; exact hd
    · exact e.1
  have h2 := h.srcNum
  have h3 := h.dstNum
  rw [h1] at h2
  rw [hd] at h3
  simp only [Bool.false_eq_true, false_or] at h2 h3
  exact ⟨by simp [readable, h.src, h2], h3⟩

theorem Movable.verbatim {o : GOps} (h : Movable o) (hd : isIntFmt o.dst.fmt = true) (sc : Bool) : o.verbatim sc = true := by
  have hp : o.src.fmt = o.dst.fmt := by
    have := h.pair
    simp only [pairOk, hd, Bool.not_true, Bool.and_false, Bool.or_false, beq_iff_eq] at this
    exact this
  simp [GOps.verbatim, hp, not_tiled h.src, int_block (t := o.src) (by rw [hp]; exact hd)]

theorem keep_indexM {r0 : Run} {st : Bool} {t : TDesc} (h : flat t = true) (i : Nat) : Keep r0 st (indexM t i) :=
  tot_keepB (Keep.readBits _ _ (flat_parts h).1) fun _ => Keep.pure _

theorem keep_fetchSlice {r0 : Run} {st : Bool} {o : GOps} (h : Movable o) (sc alloc : Bool) (src : List Nat → List Nat) : Keep r0 st (fetchSlice o sc alloc src) := by
  unfold fetchSlice lookupM
  refine Keep.bind Keep.get fun r => ?_
  cases r.exe.die? with
  | none => exact Keep.pure _
  | some d =>
    simp only [(flat_parts h.src).1, if_true]
    exact Keep.pure _

theorem keep_moveSlice {r0 : Run} {o : GOps} (h : Movable o) (sc : Bool) (src dst : List Nat → List Nat) : Keep r0 false (moveSlice o sc src dst) := by
  have hd := (flat_parts h.dst).1
  unfold moveSlice
  dsimp only
  split
  · refine Keep.forEach _ _ fun i _ => ?_
    split
    · exact tot_keepB (Keep.map _ (keep_codeAt h.src _)) fun _ => keep_addAt hd _ _
    · next hn => exact tot_keepB (keep_valueAt (h.vals (by simpa using hn)).1 _ _ _) fun _ => keep_addAt hd _ _
  · split
    · exact Keep.forEach _ _ fun i _ => tot_keepB (keep_codeAt h.src _) fun _ => keep_storeCode hd _ _ _
    · next hv =>
      have hn : isIntFmt o.dst.fmt = false := by
        by_contra hc
        exact hv (h.verbatim (by simpa using hc) _)
      obtain ⟨h1, h2⟩ := h.vals hn
      refine Keep.forEach _ _ fun i _ => Keep.forEach _ _ fun p _ => ?_
      exact tot_keepB (Keep.mapEach _ _ fun _ _ => keep_valueAt h1 _ _ _) fun _ => tot_keepB (Keep.writeRow hd h2 _ _ _ _ _ _) fun _ => Keep.pure _

theorem keep_gatherAt {r0 : Run} {o : GOps} (h : Movable o) (alloc : Bool) (first p : Nat) : Keep r0 false (gatherAt o alloc first p) := by
  unfold gatherAt
  refine tot_keepB (keep_indexM h.idx _) fun v => ?_
  dsimp only
  split
  · exact tot_keepB (Keep.countM _ _) fun _ => tot_keepB (keep_fetchSlice h _ _ _) fun _ => keep_moveSlice h _ _ _
  · exact tot_keepB (keep_fetchSlice h _ _ _) fun _ => keep_moveSlice h _ _ _

theorem keep_gatherBlock {r0 : Run} {o : GOps} (h : Movable o) (hb : o.dst.block ≠ 1) (alloc : Bool) (first : Nat) (p : Nat × Nat) :
    Keep r0 false (gatherBlock o alloc first p) := by
  have hn : isIntFmt o.dst.fmt = false := by
    by_contra hc
    exact hb (int_block (by simpa using hc))
  obtain ⟨h1, h2⟩ := h.vals hn
  unfold gatherBlock
  refine tot_keepB (Keep.mapEach _ _ fun p _ => ?_) fun _ => tot_keepB (Keep.writeRow (flat_parts h.dst).1 h2 _ _ _ _ _ _) fun _ => Keep.pure _
  refine tot_keepB (keep_indexM h.idx _) fun v => ?_
  dsimp only
  split
  · exact tot_keepB (Keep.countM _ _) fun _ => tot_keepB (keep_fetchSlice h _ _ _) fun _ => keep_valueAt h1 _ _ _
  · exact tot_keepB (keep_fetchSlice h _ _ _) fun _ => keep_valueAt h1 _ _ _

theorem keep_scatterAt {r0 : Run} {o : GOps} (h : Movable o) (ho : o.dst.oobFault = false) (alloc : Bool) (first p : Nat) : Keep r0 false (scatterAt o alloc first p) := by
  unfold scatterAt
  refine tot_keepB (keep_indexM h.idx _) fun v => ?_
  simp only [ho, Bool.false_eq_true, if_false]
  split
  · exact tot_keepB (Keep.countM _ _) fun _ => Keep.countM _ _
  · exact tot_keepB (keep_fetchSlice h _ _ _) fun _ => keep_moveSlice h _ _ _

/-! ### Reduction and training commands -/

/-- A run that is free of poison, copies and a status starts a calm of its own. -/
theorem tot_rebase {β : Type} {P : Run → Prop} {m : M β} {R : β → Run → Prop}
    (hp : ∀ r, P r → r.s.poison = [] ∧ (∀ g, pendingWrites r.s r.q r.w.idx g = 0) ∧ r.w.status = 0)
    (h : ∀ r1, P r1 → Calm r1 true r1 → Tot (Calm r1 true) m R) : Tot P m R := fun r hr =>
  have hc : Calm r true r := ⟨(hp r hr).1, rfl, rfl, rfl, rfl, rfl, rfl, (hp r hr).2.1, (hp r hr).2.2, rfl, ⟨_, _, rfl⟩, (hp r hr).2.1, fun _ => rfl, fun _ => rfl⟩
  h r hr hc r hc

theorem near_flat {e : Exe} {t : TDesc} (h : nearDst e t = true) (hl : t.tiled = false) : flat t = true := by
  simp only [nearDst, Bool.and_eq_true, beq_iff_eq] at h
  simp only [TDesc.tiled, Bool.or_eq_false_iff, beq_eq_false_iff_ne] at hl
  simp [flat, h.1, hl]

theorem src_flat {e : Exe} {t : TDesc} (h : nearSrc e t = true) (hl : t.tiled = false) : flat t = true := by
  simp only [nearSrc, Bool.and_eq_true, beq_iff_eq] at h
  simp only [TDesc.tiled, Bool.or_eq_false_iff, beq_eq_false_iff_ne] at hl
  simp [flat, h.1, hl]

theorem keep_linear {r0 : Run} {st : Bool} {t : TDesc} (h : readable t = true) : Keep r0 st (linear t) :=
  tot_keepB (Keep.readAll (readable_parts h).1 (readable_parts h).2) fun _ => Keep.pure _

theorem keep_linearKept {r0 : Run} {st : Bool} {t : TDesc} (h : readable t = true) (vals : Kept) : Keep r0 st (linearKept t vals) := by
  obtain ⟨h1, h2⟩ := readable_parts h
  obtain ⟨k, hk⟩ := Option.isSome_iff_exists.1 h2
  unfold linearKept
  rw [hk]
  refine tot_keepB (Keep.mapEach _ _ fun _ _ => ?_) fun _ => Keep.pure _
  dsimp only
  split
  · exact tot_keepB (Keep.readCodes h1 _ _ _) fun _ => tot_keepB (Keep.countReads _ _ _) fun _ => Keep.pure _
  · exact tot_keepB (Keep.pure _) fun _ => tot_keepB (Keep.countReads _ _ _) fun _ => Keep.pure _

theorem keep_writeKept {r0 : Run} {t : TDesc} (h : readable t = true) (vals : Kept) (site : Option Nat) (rne : Bool) : Keep r0 false (writeKept t vals site rne) := by
  obtain ⟨h1, h2⟩ := readable_parts h
  obtain ⟨k, hk⟩ := Option.isSome_iff_exists.1 h2
  have h0 := (flat_parts h1).1
  unfold writeKept
  rw [hk]
  refine Keep.forEach _ _ fun row _ => tot_keepB (Keep.readCodes h1 _ _ _) fun _ => tot_keepB (Keep.narrowRow _ _ _ _ _ _ _ _) fun _ => ?_
  exact tot_keepB (Keep.forEach _ _ fun _ _ => Keep.putCodes h0 _ _ _ _) fun _ => Keep.padRow h0 _ _

theorem Looks.epochOf {r0 : Run} (e t : Nat) : Looks r0 (epochCheck e t) := by
  unfold epochCheck
  split
  · exact Looks.pure _
  · exact .inr ⟨_, _, rfl⟩

/-- A look at the registry sees what it saw at the start: which weights are registered, and their epochs. -/
theorem Looks.known {r0 : Run} (hc : Calm r0 true r0) {β : Type} {id : Nat} {k : Option (BitVec 16) → M β} (h : ∀ e, Looks r0 (k e)) :
    Looks r0 (getS >>= fun s => k ((tfind s.masks id).map (·.epoch))) := by
  have hk := h ((tfind r0.s.masks id).map (·.epoch))
  have key : ∀ r, Seen r0 r → (ExceptT.run (getS >>= fun s => k ((tfind s.masks id).map (·.epoch)))).run r = (ExceptT.run (k ((tfind r0.s.masks id).map (·.epoch)))).run r := by
    intro r hr
    rw [← hr.masks]
    rfl
  rcases hk with ⟨x, h1, h2⟩ | ⟨e, r', he⟩
  · exact .inl ⟨x, (key r0 hc.seen).trans h1, fun r hr => (key r hr).trans (h2 r hr)⟩
  · exact .inr ⟨e, r', (key r0 hc.seen).trans he⟩

theorem Looks.readWork {r0 : Run} (hc : Calm r0 true r0) (j : Job) {t : TDesc} (ht : t.tier = 0) : Looks r0 (readWork j t) := by
  unfold Sys2Proof.Machine.readWork
  refine Looks.bind (Looks.readM hc.near _ _ ht) fun b => ?_
  dsimp only
  have h0 : (if (earlierFmts j t).contains (parseHdr b).fmt = true then { t with fmt := (parseHdr b).fmt } else t).tier = 0 := by split <;> exact ht
  revert h0
  generalize (if (earlierFmts j t).contains (parseHdr b).fmt = true then { t with fmt := (parseHdr b).fmt } else t) = u
  intro h0
  refine Looks.bind (Looks.mapEach _ _ fun i => ?_) fun _ => Looks.pure _
  refine Looks.bind (Looks.readM hc.near _ _ h0) fun hb => Looks.bind (Looks.checkHdr hc _ _ _) fun _ => ?_
  have hq : Looks r0 (do
      let qs ← Machine.mapEach (List.range 128) fun q => Sys2Proof.Machine.readQuad u (u.base + i * u.wtileSize) q
      Pure.pure (⟨i, u.base + i * u.wtileSize, parseHdr hb, qs⟩ : WTile)) :=
    Looks.bind (Looks.mapEach _ _ fun _ => Looks.readQuad hc.near h0 _ _) fun _ => Looks.pure _
  have he := Looks.known hc (id := (parseHdr hb).tid) (k := fun e => (match e with
        | some e => if (parseHdr hb).masked then epochCheck e.toNat (parseHdr hb).epoch else Pure.pure ()
        | none => Pure.pure () : M Unit) >>= fun _ => do
      let qs ← Machine.mapEach (List.range 128) fun q => Sys2Proof.Machine.readQuad u (u.base + i * u.wtileSize) q
      Pure.pure (⟨i, u.base + i * u.wtileSize, parseHdr hb, qs⟩ : WTile)) fun e => Looks.bind ?_ fun _ => hq
  · refine Eq.mp (congrArg (Looks r0) ?_) he
    congr 1
    funext s
    cases tfind s.masks (parseHdr hb).tid with
    | none => rfl
    | some e =>
      dsimp only [Option.map_some]
      split <;> rfl
  · cases e with
    | none => exact Looks.pure _
    | some e =>
      dsimp only
      split
      · exact Looks.epochOf _ _
      · exact Looks.pure _

/-- Where a computation ends, so did its first part. -/
theorem bind_ends {α β : Type} {m : M α} {k : α → M β} {r r' : Run} {b : β} (h : (ExceptT.run (m >>= k)).run r = (.ok b, r')) :
    ∃ a r1, (ExceptT.run m).run r = (.ok a, r1) ∧ (ExceptT.run (k a)).run r1 = (.ok b, r') := by
  rw [ExceptT.run_bind] at h
  simp only [StateT.run_bind] at h
  generalize hm : (ExceptT.run m).run r = y at h
  obtain ⟨x, r1⟩ := y
  cases x with
  | error e => cases h
  | ok a => exact ⟨a, r1, rfl, h⟩

/-- A working copy that has been read is in a format of numbers. -/
theorem work_fmt {r : Run} {j : Job} {t : TDesc} {x : TDesc × List WTile} (h : Reads (readWork j t) r x) (hf : (fmtOf t.fmt).isSome = true) :
    (fmtOf x.1.fmt).isSome = true := by
  unfold Reads readWork at h
  obtain ⟨b, r1, -, h⟩ := bind_ends h
  obtain ⟨l, r2, -, h⟩ := bind_ends h
  have := congrArg Prod.fst h
  cases this
  dsimp only
  split
  · next hc =>
    have hw : (parseHdr b).fmt ∈ workFmts := by
      rw [List.contains_iff_mem] at hc
      unfold earlierFmts at hc
      split at hc
      · exact (List.dropWhile_sublist _).subset ((List.takeWhile_sublist _).subset hc)
      · simp at hc
    simp only [workFmts, List.mem_cons, List.not_mem_nil, or_false] at hw
    rcases hw with h | h | h | h | h | h <;> simp only [h] <;> rfl
  · exact hf

theorem keep_writeWorkTile {r0 : Run} {t0 t : TDesc} (h : t.tier = 0) (hf : (fmtOf t.fmt).isSome = true) (h0 : (fmtOf t0.fmt).isSome = true) (w : WTile) (vals : Kept) :
    Keep r0 false (writeWorkTile t0 t w vals) := by
  obtain ⟨k, hk⟩ := Option.isSome_iff_exists.1 hf
  obtain ⟨k0, hk0⟩ := Option.isSome_iff_exists.1 h0
  unfold writeWorkTile
  rw [hk, hk0]
  refine tot_keepB (Keep.mapEach _ _ fun _ _ => ?_) fun _ => tot_keepB (Keep.forEach _ _ fun _ _ => Keep.writeM _ _ h) fun _ => Keep.writeM _ _ h
  exact tot_keepB (Keep.mapEach _ _ fun _ _ => tot_keepB (Keep.countReads _ _ _) fun _ => tot_keepB (Keep.narrowRow _ _ _ _ _ _ _ _) fun _ => Keep.pure _) fun _ => Keep.pure _

/-- The record of the reduction engine's own counters. -/
theorem keep_bump {r0 : Run} {st : Bool} (a b c n : Nat) : Keep r0 st (modS fun s => bump s a b c n) := Keep.modS _ fun s => bump_parts s _ _ _ _

theorem keep_noteEvidence {r0 : Run} {st : Bool} : Keep r0 st noteEvidence := by
  unfold noteEvidence
  refine Tot.modify _ fun r hr => ?_
  refine hr.modS (fun s => s.setJob r.job { r.s.job r.job with evidence := true }) hr.poison ?_ hr.masks hr.mem
  obtain ⟨b, d, hb⟩ := hr.dat
  refine ⟨true, d, ?_⟩
  rw [hb]
  exact tget_tput_same _ _ _ _

/-- Adding a bucket to its accumulator ends, and the record is complete. -/
theorem tot_accumulate {r0 : Run} {j : Job} {cs : List (BitVec 32 × Desc × BitVec 8)} (hj : r0.s.job r0.job = j) (hcs : r0.w.copies = cs)
    (h1 : namable cs j (cmdField r0.c 8 4) = true) (h2 : namable cs j (cmdField r0.c 0x10 4) = true)
    (h3 : readable (operandOf cs j (cmdField r0.c 8 4)) = true) (h4 : readable (operandOf cs j (cmdField r0.c 0x10 4)) = true) :
    Tot (Calm r0 true) accumulate fun _ r => r.w.done = true ∧ Calm r0 false r := by
  obtain ⟨h3f, h3n⟩ := readable_parts h3
  obtain ⟨h4f, h4n⟩ := readable_parts h4
  unfold accumulate
  refine Tot.got fun x hx => tot_at hx ?_
  have hxc : x.c = r0.c := hx.cmd
  simp only [hxc]
  refine tot_descB hj hcs h1 (tot_descB hj hcs h2 ?_)
  refine tot_keepB (Keep.readRow h3f h3n _ _ _) fun v => tot_keepB (Keep.readRow h4f h4n _ _ _) fun old => ?_
  have tail : ∀ l p, Tot (Calm r0 true) (do
      putCodes (operandOf cs j (cmdField r0.c 0x10 4)) 0 0 l 0
      modW fun w => { w with done := true, opspec := p }
      match x.exe with
      | .re d n _ => modS fun s => bump s 9 (2 * d + n) 2 1
      | _ => Pure.pure ()) fun _ r => r.w.done = true ∧ Calm r0 false r := by
    intro l p
    refine tot_toWrite (tot_keepB (Keep.putCodes (flat_parts h4f).1 _ _ _ _) fun _ => ?_)
    refine Tot.bind (Q := fun _ r => r.w.done = true ∧ Calm r0 false r) (Tot.modify _ fun r hr =>
      ⟨rfl, ⟨hr.poison, hr.cmd, hr.exe, hr.job, hr.func, hr.queue, hr.copies, hr.clear, hr.status, hr.idx, hr.dat, hr.queues, hr.masks, hr.mem⟩⟩) fun _ => ?_
    have hpure : Tot (fun r => r.w.done = true ∧ Calm r0 false r) (Pure.pure () : M Unit) fun _ r => r.w.done = true ∧ Calm r0 false r := Tot.pure _ fun _ h => h
    cases x.exe with
    | re d n k =>
      rintro r ⟨hr1, hr2⟩
      obtain ⟨a, r', e1, e2⟩ := keep_bump (r0 := r0) (st := false) 9 (2 * d + n) 2 1 r hr2
      refine ⟨a, r', e1, ?_, e2⟩
      have : r' = { r with s := bump r.s 9 (2 * d + n) 2 1 } := (congrArg Prod.snd e1).symm
      rw [this]
      exact hr1
    | _ => exact hpure
  split
  · exact tot_keepB keep_noteEvidence fun _ => tail _ _
  · exact tail _ _

theorem tot_ite {β : Type} {P : Run → Prop} {p : Prop} [Decidable p] {a b : M β} {R : β → Run → Prop} (h1 : p → Tot P a R) (h2 : ¬p → Tot P b R) :
    Tot P (if p then a else b) R := by
  split
  · exact h1 ‹_›
  · exact h2 ‹_›

theorem tot_workB {r0 : Run} {β : Type} {R : β → Run → Prop} (hc : Calm r0 true r0) {t : TDesc} (ht : t.tier = 0) {x : TDesc × List WTile} (hx : Reads (readWork j t) r0 x)
    {k : Option (TDesc × List WTile) → M β} (hk : Tot (Calm r0 false) (k (some x)) R) : Tot (Calm r0 true) ((some <$> readWork j t) >>= k) R := by
  refine Tot.bind (Q := fun y r => y = some x ∧ Calm r0 true r) ((tot_reads (Looks.readWork hc _ ht) hx).map _ fun a r h => ⟨by rw [h.1], h.2⟩) fun y => Tot.given ?_
  rintro rfl
  exact tot_toWrite hk

/-- Reading the head's ring entry leaves the queues. -/
theorem fetchHead_queues {s s1 : State} {q : QNum} {c : Cmd} {b : List Byte} (h : fetchHead s q c = .ok (b, s1)) : s1.queues = s.queues := by
  unfold fetchHead at h
  rw [vRead_ok_queues h, readRoot_queues, noteLate_queues]

/-- The queue of a command that has started: its head has moved on, and its record is the last of those under construction. -/
theorem started_queue (q : QNum) (r : Run) : ((started q r).queue q).next = (r.s.queue q).next + 1 ∧
    ((started q r).queue q).started = (r.s.queue q).started ++ [{ r.w with phase := (r.s.queue q).phase }] := by
  unfold started pushStarted State.queue
  dsimp only
  rw [traceRec_queues]
  simp only [State.setQueue, tget_tput_same]
  exact ⟨rfl, rfl⟩

/-! ### Ranges that overlap -/

theorem tot_caught {α : Type} {P : Run → Prop} {m : M α} {Q : α → Run → Prop} (h : Tot P m Q) :
    Tot P (tryCatch (Except.ok <$> m) fun e => pure (Except.error e) : M (Except Stop α)) fun x r => ∃ a, x = .ok a ∧ Q a r := by
  intro r hr
  obtain ⟨b, r', h1, h2⟩ := h r hr
  refine ⟨.ok b, r', ?_, b, rfl, h2⟩
  have h3 : m r = (Except.ok b, r') := h1
  simp only [tryCatch, tryCatchThe, MonadExceptOf.tryCatch, ExceptT.tryCatch, ExceptT.run, ExceptT.mk, Functor.map, ExceptT.map, bind, StateT.bind, StateT.run, h3, pure,
    StateT.pure]

/-- Reads of a source as it stood keep the run calm. -/
theorem keep_asOf {α : Type} {z : State} (hz : z.poison = []) {m : M α} (h : Keep r0 false m) : Keep r0 false (asOf z m) := by
  unfold asOf
  refine Tot.bind (Q := fun n r => n.poison = [] ∧ Calm r0 false r) ?_ fun now => Tot.given fun hn => ?_
  · intro r hr
    exact ⟨r.s, r, rfl, hr.poison, hr⟩
  refine Keep.bind (Tot.modify _ fun r hr => hr.modS (fun s => { s with mem := z.mem, poison := z.poison }) hz hr.dat hr.masks (by simp)) fun _ => ?_
  refine Tot.bind (tot_caught h) fun x => ?_
  rintro r ⟨a, rfl, hr⟩
  exact Keep.bind (Tot.modify _ fun r hr => hr.modS (fun s => { s with mem := now.mem, poison := now.poison }) hn hr.dat hr.masks (by simp)) (fun _ => Keep.pure a) r hr

/-- Freeing the bytes where ranges overlap keeps the run calm. -/
theorem keep_freeOverlap (s d : TDesc) (first n : Nat) : Keep r0 false (freeOverlap s d first n) := by
  unfold freeOverlap
  refine Keep.bind Keep.get fun r => Keep.forEach _ _ fun a _ => ?_
  exact Tot.modify _ fun r hr => hr.modS (fun m => { (drawBytes m 1).2 with mem := memPut a (drawBytes m 1).1 m.mem }) (by simpa using hr.poison)
    (by simpa [State.job] using hr.dat) (by simpa using hr.masks) (by simp)

/-- What follows units that are formed from the state at hand, at whose end nothing has stopped. -/
theorem tot_freshUnits {r0 : Run} {R : Unit → Run → Prop} {us : State → List DUnit} {k : State → List Nat × List DUnit × Option Stop → M Unit}
    (h : ∀ z : State, z.poison = [] → ∀ u ∈ us z, Keep r0 false u.act) (hk : ∀ z l rest, Tot (Calm r0 false) (k z (l, rest, none)) R) :
    Tot (Calm r0 true) (getS >>= fun z => runUnits (us z) >>= k z) R := by
  refine Tot.bind (Q := fun z r => z.poison = [] ∧ Calm r0 true r) ?_ fun z => Tot.given fun hz => tot_unitsB (h z hz) (hk z)
  intro r hr
  exact ⟨r.s, r, rfl, hr.poison, hr⟩

end Sys2Proof.Machine
end

