-- ==== Sys2Proof/Laws/Writes.lean ====
section
/-! SUPPORT. Of two writes to one place the later stands; what a counter reads after it is counted, or after another is; and what the late senders of a beat leave alone. -/

namespace Sys2Proof.Machine

@[simp] theorem setPort_setPort (s : State) (p : Port) (x y : PortState) : (s.setPort p x).setPort p y = s.setPort p y := by simp [State.setPort]
@[simp] theorem setQueue_setQueue (s : State) (q : QNum) (x y : Queue) : (s.setQueue q x).setQueue q y = s.setQueue q y := by simp [State.setQueue]
@[simp] theorem setFunc_setFunc (s : State) (f : Nat) (x y : FuncState) : (s.setFunc f x).setFunc f y = s.setFunc f y := by simp [State.setFunc]
@[simp] theorem setSem_setSem (s : State) (n : Nat) (x y : Sem) : (s.setSem n x).setSem n y = s.setSem n y := by simp [State.setSem]
@[simp] theorem setArray_setArray (s : State) (a : Nat) (x y : ArrayState) : (s.setArray a x).setArray a y = s.setArray a y := by simp [State.setArray]
@[simp] theorem setCtx_setCtx (s : State) (q : QNum) (x y : Ctx) : (s.setCtx q x).setCtx q y = s.setCtx q y := by simp [State.setCtx]
@[simp] theorem setJob_setJob (s : State) (j : Nat) (x y : Job) : (s.setJob j x).setJob j y = s.setJob j y := by simp [State.setJob]

/-- A counter rises by what is counted. -/
theorem counter_bump_same (s : State) (cls inst code n : Nat) (h : n ≠ 0) :
    (bump s cls inst code n).counter cls inst code = (s.counter cls inst code + n) % 2 ^ 64 := by
  simp [bump, h, State.counter]
/-- Counting one counter leaves every other. -/
theorem counter_bump_ne (s : State) {cls inst code n cls' inst' code' : Nat} (h : ctrKey cls' inst' code' ≠ ctrKey cls inst code) :
    (bump s cls inst code n).counter cls' inst' code' = s.counter cls' inst' code' := by
  unfold bump
  split
  · rfl
  · simp [State.counter, tget_tput, h]

/-- What every step of a fold leaves alone, the fold leaves alone. -/
theorem foldl_keeps {α β : Type} (F : State → β) (g : State → α → State) (h : ∀ s a, F (g s a) = F s) (l : List α) (s : State) :
    F (l.foldl g s) = F s := by
  induction l generalizing s <;> simp_all

/-- Taking segments of a context changes that context alone. -/
theorem takeFrom_fst (s : State) (q n : Nat) :
    (takeFrom s q n).1 = s.setCtx (BitVec.ofNat 15 q) (presentSegs n (s.ctx (BitVec.ofNat 15 q)) (s.ctx (BitVec.ofNat 15 q)).outq).2 := rfl

/-- The late senders of a beat change contexts, ports and the counter of late senders, and nothing else. -/
theorem lateSenders_keeps {β : Type} (F : State → β) (h1 : ∀ s q x, F (State.setCtx s q x) = F s) (h2 : ∀ s p x, F (State.setPort s p x) = F s)
    (h3 : ∀ s p, F (bump s 0x0A p 9 1) = F s) (s : State) : F (lateSenders s) = F s := by
  unfold lateSenders
  apply foldl_keeps
  intro s p
  dsimp only
  split
  · rfl
  · apply foldl_keeps
    intro s e
    (repeat' split) <;> first | rfl | rw [h3, h2, takeFrom_fst, h1]

end Sys2Proof.Machine
end

