-- ==== Sys2Proof/Tests/Small.lean ====
section
/-! SUPPORT. Small states and operands, and what it takes for a command of a queue to start and to end on them. -/

set_option maxRecDepth 100000
set_option Elab.async false

namespace Sys2Proof.Tests
open Sys2Proof.Machine

/-! ### Small states -/

/-- A command from its opcode and its fields: offset, bytes, value (R357). -/
def mk (op : Nat) (fs : List (Nat × Nat × Nat)) : Cmd :=
  BitVec.ofNat 512 (op + 0x10 * 256 + fs.foldl (fun a f => a + f.2.2 % 2 ^ (8 * f.2.1) * 2 ^ (8 * f.1)) 0)

/-- A descriptor of format, layout, rank, tier, access, tensor, base, allocation, auxiliary base, sizes and strides (R316). -/
def mkDesc (fmt layout rank tier access tid base alloc aux : Nat) (sizes strides : List Nat) : Desc :=
  let v := fmt + (layout * 16 + rank) * 2 ^ 8 + (tier * 32 + access) * 2 ^ 16 + tid * 2 ^ 32 + base * 2 ^ 64 + base * 2 ^ 128 +
    alloc * 2 ^ 192 + aux * 2 ^ 256
  let v := sizes.zipIdx.foldl (fun a e => a + e.1 * 2 ^ (8 * (0x28 + 9 * e.2))) v
  let v := strides.zipIdx.foldl (fun a e => a + e.1 * 2 ^ (8 * (0x2C + 9 * e.2))) v
  ⟨BitVec.ofNat 1024 v, false, []⟩

/-- Physical address of the page table that the small states use. -/
def rootPa : Nat := 0x10000000

/-- A table whose first leaf maps 1 GiB onto itself. -/
def mem0 : List Host.Cell := memPut rootPa (leBytes 8 (0x10010000 + 1)) (memPut 0x10010000 (leBytes 8 7) [])

/-- A queue of function 0 and job 1 with n commands waiting. -/
def q0 (n : Nat) : Queue :=
  { st := .active, func := 0, log2N := 4, job := 1, ring := 0x1000, comp := 0x8000, tail := BitVec.ofNat 16 n }

/-- A running module with queues, the descriptors of job 1 and memory. -/
def st0 (qs : List (Nat × Queue)) (descs : List (Nat × Desc)) (mem : List Host.Cell) : State :=
  { State.reset with
    mem := mem, queues := qs, time := ({ st := .aligned, tick := 1000 } : TimeUnit), jobs := [(1, { seed := 77, descs := descs })]
    funcs := [(0, { root := BitVec.ofNat 64 (rootPa + 1) })] }

/-- A command starts and its body ends, with a check of the state at its start and of its run. -/
def ran (s : State) (q : QNum) (c : Cmd) (resv : Cmd → Bool) (handles : Cmd → List Nat) (body : M Unit) (p : State → Run → Bool) : Bool :=
  headReady s q c &&
  match fetchHead s q c with
  | .ok (_, s1) =>
    unitOk s1 (exeOf q (s.queue q)) && (earlyChecks (s1.job (s.queue q).job.toNat) (exeOf q (s.queue q)) c ((s.queue q).hold.copies.map (·.1.toNat)) resv handles).isNone &&
      match (ExceptT.run body).run (headRun s1 q (s.queue q) c) with
      | (.ok _, r) => p s1 r
      | _ => false
  | _ => false

theorem ran_starts_ends {s : State} {q : QNum} {c : Cmd} {resv : Cmd → Bool} {handles : Cmd → List Nat} {body : M Unit}
    {p : State → Run → Bool} (h : ran s q c resv handles body p = true) :
    ∃ s1 r, Starts s q c resv handles s1 ∧ Ends body s s1 q c r ∧ p s1 r = true := by
  unfold ran at h
  simp only [Bool.and_eq_true] at h
  obtain ⟨h1, h2⟩ := h
  split at h2
  · rename_i b s1 hf
    simp only [Bool.and_eq_true, Option.isNone_iff_eq_none] at h2
    obtain ⟨⟨h3, h4⟩, h5⟩ := h2
    split at h5
    · rename_i u r hr
      exact ⟨s1, r, ⟨h1, ⟨b, hf⟩, h3, h4⟩, hr, h5⟩
    · cases h5
  · cases h2

/-- A command starts, with a check of the state at its start. -/
def starts (s : State) (q : QNum) (c : Cmd) (resv : Cmd → Bool) (handles : Cmd → List Nat) (p : State → Bool) : Bool :=
  ran s q c resv handles (pure ()) fun s1 _ => p s1

theorem starts_start {s : State} {q : QNum} {c : Cmd} {resv : Cmd → Bool} {handles : Cmd → List Nat} {p : State → Bool}
    (h : starts s q c resv handles p = true) : ∃ s1, Starts s q c resv handles s1 ∧ p s1 = true := by
  obtain ⟨s1, r, h1, -, h2⟩ := ran_starts_ends h
  exact ⟨s1, h1, h2⟩

/-- No poison, and no command whose work is over has stores that wait for their responses. -/
def quietNear (s : State) : Bool := s.poison.isEmpty && s.queues.all fun e => e.2.started.all fun w => !w.done || w.spans.isEmpty

theorem nearClear_of_quiet {s : State} (h : quietNear s = true) (q : QNum) (idx : BitVec 16) : NearClear s q idx := by
  simp only [quietNear, Bool.and_eq_true, List.isEmpty_iff] at h
  refine ⟨h.1, fun g => ?_⟩
  have hz : (s.queues.flatMap fun e => e.2.started.flatMap fun w =>
      if !w.done || (e.1 == q.toNat && w.idx == idx) then []
      else w.spans.map fun sp => sp.requestsIn (exeOf (BitVec.ofNat 15 e.1) e.2).request g) = [] := by
    simp only [List.flatMap_eq_nil_iff]
    intro e he w hw
    have hk := List.all_eq_true.mp (List.all_eq_true.mp h.2 e he) w hw
    split
    · rfl
    · rename_i hn
      have : w.spans = [] := by
        cases hd : w.done
        · simp [hd] at hn
        · simpa [hd] using hk
      simp [this]
  unfold pendingWrites
  rw [hz]
  rfl

/-- Near memory of core 0. -/
def nb : Nat := nearBase

/-- A running module: time ALIGNED, root monitor and service firmware up, host function 0 agreed. -/
def up : State :=
  { time := { st := .aligned, tick := 1000, refPresent := true }, trust := { sfUp := true }, power := { state := .running }
    funcs := [(0, { agreed := 1, levelHost := 1, root := BitVec.ofNat 64 (rootPa + 1) })], mem := mem0 }

/-- The running module with time in a state at a tick. -/
def at_ (st : TimeState) (tick : Nat) : State := { up with time := { st := st, tick := BitVec.ofNat 64 tick, refPresent := true } }

/-- The running module with port 0 in a state. -/
def port0 (x : PortState) : State := { up with ports := [(0, x)] }

end Sys2Proof.Tests
end

