-- ==== Sys2Proof/Tests/Slice0.lean ====
section
/-! SUPPORT. An ill-formed term for each check of WellFormed, and the worked examples of spec/: each expected value is the example's own. -/

set_option maxRecDepth 100000

namespace Sys2Proof.Tests
open Sys2Proof.Machine

/-! ### Ill-formed commands -/

/-- A slot of n flit positions and k group CRCs. -/
def rxOf (n k : Nat) : RxSlot := ⟨0, List.replicate n 0, List.replicate k 0, List.replicate 32 0, [], []⟩

theorem test_wf_slot_takes_30_flits : (Instr.slotReceived 0 (rxOf 29 8)).wf = false := by decide +kernel
theorem test_wf_slot_takes_8_crcs : (Instr.slotReceived 0 (rxOf 30 7)).wf = false := by decide +kernel
theorem test_wf_slot : (Instr.slotReceived 0 (rxOf 30 8)).wf = true := by decide +kernel

/-- A head that counts 2 data flits with one behind it. -/
def shortMsg : Msg := ⟨0x20000, [0]⟩

theorem test_wf_message_has_len_flits :
    ([.chainSegmentReceived 0 shortMsg, .transferSegmentReceived 0 shortMsg, .creditGrantReceived 0 shortMsg,
      .verdictMessageReceived 0 shortMsg, .ident 0 shortMsg, .ping 0 shortMsg, .pong 0 shortMsg, .offset 0 shortMsg,
      .laneMove 0 shortMsg, .laneAck 0 shortMsg, .recheck 0 shortMsg, .stretchRecord 0 shortMsg] : List Instr).all (fun i => !i.wf) = true := by
  decide +kernel

theorem test_wf_lane_below_9 :
    ([.laneSignalLoss 0 9, .laneErrorWindow 0 9 0, .mapDone 0 .straight 0 0 (some 9)] : List Instr).all (fun i => !i.wf) = true := by decide +kernel

theorem test_wf_opcode_of_every_executor :
    ([.nop 0 1, .wait 0 0, .signal 0 0, .fence 0 0, .beatAlign 0 0, .unassignedOpcode 0 0x10, .semCreate 0 0, .semDestroy 0 0] : List Instr).all
      (fun i => !i.wf) = true := by decide +kernel
theorem test_wf_opcode_of_arrays :
    ([.mmul 0 0 none, .mmulT 0 0x10 none, .loadStat 0 0 none, .preloadAcc 0 0, .drain 0 0] : List Instr).all (fun i => !i.wf) = true := by decide +kernel
theorem test_wf_opcode_of_vector_unit :
    ([.vecChain 0 0, .vecReduce 0 0, .softmax 0 0, .norm 0 0, .dropout 0 0, .quantise 0 0, .dequantise 0 0] : List Instr).all
      (fun i => !i.wf) = true := by decide +kernel
theorem test_wf_opcode_of_mask_unit :
    ([.maskScore 0 0, .prune 0 0, .regrow 0 0, .maskCommit 0 0, .predict 0 0, .maskGather 0 0] : List Instr).all (fun i => !i.wf) = true := by
  decide +kernel
theorem test_wf_opcode_of_movers :
    ([.copy 0 0, .fill 0 0, .compare 0 0, .transposeCopy 0 0, .gather 0 0, .scatter 0 0] : List Instr).all (fun i => !i.wf) = true := by decide +kernel
theorem test_wf_opcode_of_reduction_and_training :
    ([.redBucket 0 0, .redFlush 0 0, .reshard 0 0, .optUpdate 0 0, .lossScaleCheck 0 0] : List Instr).all (fun i => !i.wf) = true := by decide +kernel

theorem test_wf_sideband_pins : ([.sidebandMismatchCount 12, .sidebandMismatchCount 19] : List Instr).all (fun i => !i.wf) = true := by decide +kernel
theorem test_wf_five_dies : (Instr.temperatureReport [0, 0, 0, 0] 0).wf = false := by decide +kernel
theorem test_wf_access_sizes :
    ([.doorbellWrite 0 0 3 0, .semWindowSet 0 0 0 0, .semWindowAdd 0 0 16 0, .registerWrite (.bar0 0 0 5 0)] : List Instr).all (fun i => !i.wf) = true := by
  decide +kernel
theorem test_wf_numVfs : ([.registerWrite (.pcie 1 (.numVfs 4)), .registerWrite (.pcie 64 (.numVfs 64))] : List Instr).all (fun i => !i.wf) = true := by
  decide +kernel
theorem test_wf_input_voltage : ([.inputLoss 36000, .inputOutOfRange 40000, .inputOutOfRange 60000] : List Instr).all (fun i => !i.wf) = true := by
  decide +kernel
theorem test_wf_bar2_sizes : ([.bar2Resize 0 29, .bar2Resize 0 43] : List Instr).all (fun i => !i.wf) = true := by decide +kernel

/-! ### Number formats (spec/03) -/

/-- A block narrowed to nearest even. -/
def blockOf (fmt : Nat) (xs : List Nat) : Option Narrowed := (fmtOf fmt).map fun t => narrowBlock t (fun _ => .rne) none xs

theorem test_mxfp4_block :
    blockOf 0x0C ([0x41500000, 0xBE99999A, 0x40266666, 0x40A00000, 0x40E00000, 0x7F800000, 0xC1500000, 0x3F800000] ++ List.replicate 24 0) =
      some { codes := [0x5, 0x8, 0x1, 0x2, 0x4, 0x7, 0xD, 0x0] ++ List.replicate 24 0, scale := 0x81, ovf := 0, nonfin := 1 } := by decide +kernel

theorem test_bf16_top : blockOf 0x02 [0x7F7FF000] = some { codes := [0x7F7F], ovf := 1 } ∧ blockOf 0x02 [0x7F800000] = some { codes := [0x7F80] } := by
  decide +kernel

theorem test_mxfp8_block :
    (blockOf 0x08 ([0x43180000, 0, 0x7F800000, 0x3FC66666] ++ List.replicate 28 0)).map (fun n => (n.codes.take 4, n.scale, n.nonfin)) =
      some ([0x7A, 0x00, 0x7E, 0x44], 0x7E, 1) := by decide +kernel

theorem test_gm16_stochastic :
    (fmtOf 5).map (fun t => (narrowBlock t (fun i => .sr (if i = 0 then 0x3A00 else 0xA000)) none
      ([0x3E99999A, 0x3E99999A, 0x3F400000] ++ List.replicate 61 0)).codes.take 2) = some [0x7199, 0x719A] ∧
    (fmtOf 5).map (fun t => (narrowBlock t (fun _ => .sr 0) none ([0x3E99999A, 0x3F400000] ++ List.replicate 62 0)).scale) = some 0x7E := by
  decide +kernel

/-! ### Accumulation, vectors and sparsity (spec/05, 06, 07) -/

theorem test_output_stages :
    [0x43960000, 0xC2200000, 0x7F800000, 0x40466666].zipIdx.map (fun e =>
      outStage ⟨none, none, none, none, 1, false, 0, 0⟩ (some [0x3F000000, 0x3F000000, 0x3F000000, 0x3F000000]) (some [0x40000000, 0x3F800000, 0, 0]) e.2 e.1) =
      [0x43180000, 0, 0x7F800000, 0x3FC66666] := by decide +kernel

theorem test_accumulator_overflow : fadd 0x7F400000 0x7F000000 = 0x7F800000 := by decide +kernel

theorem test_pattern_22 : transDecode 22 = some [1, 4, 0, 5] ∧ transColumn [1, 4, 0, 5] 0 = [0, 2] := by decide +kernel

theorem test_six_rows_issue_twice : matchIssues 8 [] [[0, 2], [1], [0], [3], [], [1, 3]] = 2 := by decide +kernel

theorem test_match_need_set :
    needSet 2 (List.replicate 16 true) ((List.range 16).map fun k => (0x0103 : Nat).testBit k) = [0, 2] := by decide +kernel

/-! ### Training numerics (spec/08) -/

theorem test_adamw_update :
    let w := (fmtOf 5).map fun t => widen t 126 0x719A
    optElem 1 ⟨pow2 (-8), 0x3F600000, 0x3F7E0000, pow2 (-40), pow2 (-3), f32One, f32One, f32One⟩ (pow2 (-16)) f32One 0x42800000
      ⟨w.getD 0, pow2 (-11), pow2 (-20)⟩ = ⟨0x3E986CCC, 0x3A100000, pow2 (-20)⟩ := by decide +kernel

/-- Layer 37 of the example, with the run after the steps 505 to 507. -/
def layer37 (run : Nat) : Layer := { w := 0x0C, a := 0x08, ceil := 4, run := run }

theorem test_run_of_exceeding_steps :
    (closeLayer false true (layer37 2)).1.run = 3 ∧ (closeLayer false false (layer37 3)).1.run = 0 ∧
      (closeLayer false true (layer37 3)).2 = .promoted ∧ (closeLayer false true (layer37 3)).1.w = 0x0B ∧
      (closeLayer false true (layer37 3)).1.a = 0x08 := by decide +kernel

/-- Eight positions of a chain, under the rounding of each hop to BF16. -/
def addUp (mode : Nat → Rnd) (xs : List Nat) : Nat :=
  xs.zipIdx.foldl (fun acc e => ((fmtOf 2).map fun t => widen t 0 ((narrowElem t 0 (mode (e.2 + 1)) (fadd acc e.1)).1)).getD 0) f32One

theorem test_chain_to_nearest_even : fadd (addUp (fun _ => .rne) (List.replicate 6 (pow2 (-8)))) 0x40400000 = 0x40800000 := by decide +kernel
theorem test_chain_stochastic :
    fadd (addUp (fun i => .sr ([0, 0x9C01, 0x1234, 0xC0DE, 0x7FFF, 0x8000, 0x0F0F].getD i 0)) (List.replicate 6 (pow2 (-8)))) 0x40400000 = 0x4080C000 := by
  decide +kernel

/-! ### Time, numbers and addresses (spec/01, 02, 10, 11, 13) -/

/-- The module of the example: slot 128 of wall beat 1,000,014, stretch offset 4. -/
def beat14 (tick : Nat) : State := { up with time := { st := .aligned, tick := BitVec.ofNat 64 tick, offset := 4 } }

theorem test_not_before :
    notBefore (beat14 256003712) { base := 1000000 } (.ma 0 0) (BitVec.ofNat 512 (0x80000A80 * 2 ^ 32)) = .due ∧
      notBefore (beat14 256003711) { base := 1000000 } (.ma 0 0) (BitVec.ofNat 512 (0x80000A80 * 2 ^ 32)) = .early ∧
      notBefore (beat14 256003713) { base := 1000000 } (.ma 0 0) (BitVec.ofNat 512 (0x80000A80 * 2 ^ 32)) = .late := by decide +kernel

theorem test_queue_numbers : engineOf 1299 = .ma 81 3 ∧ engineOf 3013 = .re 1 1 5 := by decide +kernel

theorem test_indices_across_the_wrap :
    ({ log2N := 8, next := 65500, tail := 44 } : Queue).waiting = 80 ∧ entryAddr { log2N := 8, next := 65500 } = 64 * 220 := by decide +kernel

theorem test_interleave : deviceOf 0x006123455678 = 5 := by decide +kernel

theorem test_convolution_element :
    strideOff [1, 128, 7168, 401408] [64, 47, 18, 0] = 135104 ∧ injective [1, 128, 7168, 401408] [128, 56, 56, 8] = true ∧
      injective [1, 16] [32, 4] = false := by decide +kernel

/-- The expert weight of the example, on the module at B = 1 and D = 3 of 8 by 4 by 4 by 4. -/
def expert : TDesc :=
  parseDesc { p := [8, 4, 4, 4], q := [0, 1, 0, 3] } 1 ⟨BitVec.ofNat 1024
    (0x0C + 0x33 * 2 ^ 8 + 0x31 * 2 ^ 16 + 2048 * 2 ^ 320 + 8192 * 2 ^ 392 + 30 * 2 ^ 464 + 0x750 * 2 ^ 896), false, []⟩

theorem test_expert_weight :
    expert.ext = [2048, 2048, 7] ∧ expert.wtileSize = 21008 ∧ expert.wslotAddr 100 5 2 = 0x290800 ∧
      elemIndex { p := [8, 4, 4, 4], q := [0, 1, 0, 3] } expert [100, 5, 2] = 423635044 := by decide +kernel

/-! ### Power and the link (spec/15, 20) -/

theorem test_governor : pickS 600 2750 0 (20 * 256 * 1500 : Nat) = 149 := by decide +kernel

theorem test_governor_lowers_by_16 :
    (match execGovernorUpdate 1500 { up with power := { up.power with s := 149, sPrev := 149, pBase := 600 } } with
      | .next s => s.power.sNext
      | _ => 0) = 133 := by decide +kernel

end Sys2Proof.Tests
end

