-- ==== Sys2Proof/Tests/WitnessFabric.lean ====
section
/-! SUPPORT. States and operands that meet the hypotheses of the statements on reduction, waits, completion, hosts, memory service and arrays out of band. -/

set_option maxRecDepth 100000
set_option Elab.async false

namespace Sys2Proof.Tests
open Sys2Proof.Machine

/-! ### Reduction -/

/-- Queue of context 0 of engine 0 on die 0. -/
def ctxQ : QNum := ctxQueue 0 0 0
/-- RED_BUCKET on axis A, as a GATHER of bytes, as a SUM of FP32, and as a SUM that adds two buckets to an accumulator first. -/
def gatherCmd : Cmd := mk 0x70 [(8, 4, 1), (0xC, 4, 2), (0x18, 4, 0xFFFFFFFF), (0x20, 4, 0xFFFFFFFF), (0x34, 1, 0x80)]
def sumCmd : Cmd := mk 0x70 [(8, 4, 3), (0xC, 4, 4), (0x18, 4, 0xFFFFFFFF), (0x20, 4, 0xFFFFFFFF)]
def addCmd : Cmd := mk 0x70 [(8, 4, 3), (0xC, 4, 4), (0x10, 4, 5), (0x18, 4, 0xFFFFFFFF), (0x20, 4, 0xFFFFFFFF), (0x35, 1, 1)]
/-- Job 1 on a ring of two modules along axis A. -/
def ringJob : Job :=
  { p := [2, 1, 1, 1], descs := [(1, mkDesc 0x1B 0 1 0 0 0 nearBase 256 0 [256] [1]), (2, mkDesc 0x1B 0 1 0 1 0 (nearBase + 4096) 512 0 [512] [1]),
      (3, mkDesc 0 0 1 0 0 0 nearBase 0x100000 0 [512] [1]), (4, mkDesc 0 0 1 0 1 0 (nearBase + 0x400000) 0x80000 0 [256] [1]),
      (5, mkDesc 0 0 1 0 1 0 (nearBase + 0x8000) 0x80000 0 [512] [1])] }
/-- The RED_BUCKET under way. -/
def bucket (c : Cmd) : Started := { idx := 0, op := 0x70, cmd := c, done := false }
/-- A module with a chain context, its command started, and messages in the inbox of port 0. -/
def chained (x : Ctx) (c : Cmd) (ms : List Msg) (h : Hold := .none) : State :=
  { up with jobs := [(1, ringJob)], ctxs := [(ctxQ.toNat, x)], queues := [(ctxQ.toNat, { q0 1 with hold := h, started := [bucket c] })]
            ports := [(0, { st := .active, inbox := ms }), (1, { st := .active })] }
theorem witness_NearClear (x : Ctx) (c : Cmd) (ms : List Msg) (h : Hold) : NearClear (chained x c ms h) ctxQ 0 := ⟨rfl, fun _ => rfl⟩
theorem witness_ChainReady : ChainReady [] ringJob gatherCmd ∧ ChainReady [] ringJob sumCmd ∧ ChainReady [] ringJob addCmd := by
  refine ⟨⟨?_, ?_, ?_, ?_⟩, ⟨?_, ?_, ?_, ?_⟩, ⟨?_, ?_, ?_, ?_⟩⟩ <;> decide +kernel
/-- Segment 0 of the predecessor's shard, of n bytes, and of n sums in 16 bits. -/
def gatherSeg (n : Nat) : Msg := ⟨chainHead ringJob ctxQ 1 0 0 4 0 1 0 0 0 n, dataFlits (List.replicate 256 7) 4⟩
def sumSeg (n : Nat) : Msg := ⟨chainHead ringJob ctxQ 2 0 0 8 0 0 0 0 0 n, dataFlits (List.replicate 512 0) 8⟩
theorem witness_ChainSegment : ∀ m ∈ [sumSeg 256, sumSeg 255], ∀ b ∈ [false, true],
    let s := chained { cur := some (0, sumCmd), running := b } sumCmd [m]
    msgKind m = 2 ∧ msgOr m = false ∧ bkGather sumCmd = false ∧ msgCredit m = false ∧ (s.port 0).inbox.contains m = true ∧
      msgCtx s m = some (ctxQ, 1) ∧ (s.ctx ctxQ).cur = some (0, sumCmd) ∧ bkTag sumCmd = msgTag m ∧ (s.ctx ctxQ).epoch = msgEpoch m ∧
      (s.ctx ctxQ).running = b ∧ (s.queue ctxQ).started.find? (fun w => w.idx == 0) = some (bucket sumCmd) ∧
      segFits (chainOf (bucket sumCmd).copies (s.job 1) sumCmd) (bkWire sumCmd) (s.ctx ctxQ).segs m = decide (m = sumSeg 256) ∧
      (s.port (bucketBack sumCmd)).up = true := by decide +kernel
theorem witness_TransferSegment : ∀ m ∈ [gatherSeg 256, gatherSeg 255], ∀ b ∈ [false, true],
    let s := chained { cur := some (0, gatherCmd), running := b } gatherCmd [m]
    msgKind m = 1 ∧ bkGather gatherCmd = true ∧ msgCredit m = false ∧ (s.port 0).inbox.contains m = true ∧
      msgCtx s m = some (ctxQ, 1) ∧ (s.ctx ctxQ).cur = some (0, gatherCmd) ∧ bkTag gatherCmd = msgTag m ∧ (s.ctx ctxQ).epoch = msgEpoch m ∧
      (s.ctx ctxQ).running = b ∧ (s.queue ctxQ).started.find? (fun w => w.idx == 0) = some (bucket gatherCmd) ∧
      segFits (chainOf (bucket gatherCmd).copies (s.job 1) gatherCmd) (bkWire gatherCmd) (s.ctx ctxQ).segs m = decide (m = gatherSeg 256) ∧
      (s.port (bucketBack gatherCmd)).up = true := by decide +kernel
/-- A credit grant of n flits, with a tag. -/
def grant (tag : Nat) (n : Nat := 5) : Msg := creditMsg ringJob ctxQ false 0 tag n
/-- The module with that context and a grant in the inbox of port 1, on which the chain sends. -/
def granted (x : Ctx) (m : Msg) : State := { chained x sumCmd [] with ports := [(0, { st := .active }), (1, { st := .active, inbox := [m] })] }
/-- A port with a message of a context that no job has. -/
def jobless (m : Msg) : State := port0 { st := .active, inbox := [m] }
theorem witness_Unmatched : ∀ m ∈ [sumSeg 256, gatherSeg 256, grant 0], ((jobless m).port 0).inbox.contains m = true ∧ msgCtx (jobless m) m = none ∧
    (msgKind m = 2 ∧ msgOr m = false ∧ msgCredit m = false ∨ msgKind m = 1 ∧ msgCredit m = false ∨ msgKind m ≤ 2 ∧ msgCredit m = true) := by
  decide +kernel
theorem witness_Credit : ∀ e ∈ [(0, 5, false), (0, 1024, false), (9, 5, false), (0, 1024, true)],
    let m := grant e.1 e.2.1
    let s := granted { cur := some (0, sumCmd), opened := e.2.2 } m
    (s.port 1).inbox.contains m = true ∧ msgKind m ≤ 2 ∧ msgCredit m = true ∧ msgCtx s m = some (ctxQ, 1) ∧ (s.ctx ctxQ).cur = some (0, sumCmd) ∧
      decide (1 = bucketPort sumCmd ∧ bkTag sumCmd = msgTag m ∧ (s.ctx ctxQ).epoch = msgEpoch m ∧
        ¬((s.ctx ctxQ).opened = true ∧ msgField m 0x0E 2 = s.reg 0x3800 2)) = decide (e.1 = 0 ∧ e.2.2 = false) := by
  decide +kernel
theorem witness_Credit_idle : ∀ r ∈ [none, some ((1 : BitVec 32), (0 : BitVec 2), 0), some (1, 1, 0)],
    let m := grant 0xFFFF
    let s := granted { round := r } m
    (s.port 1).inbox.contains m = true ∧ msgKind m ≤ 2 ∧ msgCredit m = true ∧ msgCtx s m = some (ctxQ, 1) ∧ (s.ctx ctxQ).cur = none ∧ (s.ctx ctxQ).round = r ∧
      msgTag m = roundTag ∧ (s.ctx ctxQ).epoch = msgEpoch m ∧ (s.ctx ctxQ).opened = false ∧ 1 = axisPort 0 true ∧ 1 ≠ axisPort 1 true := by decide +kernel
/-- The window of a second RED_BUCKET with the TAG of the first waits until the second starts; what the first has used comes back at once (R440, R455). -/
theorem test_second_window_waits :
    let w : Grant := ⟨1, 7, 0, 1024⟩
    let x := ({} : Ctx).credit 1024 w
    x.takes 1024 1 7 w = false ∧ x.takes 1024 1 7 ⟨1, 7, 0, 65⟩ = true ∧ (takeGrants (x.hold w) 1024 1 7 0).credits = 1024 := by decide +kernel

/-- A verdict round asked for on axis A, of the module at a coordinate. -/
def roundWord : Verdict := ⟨5, 0, ctxQ, 1, List.replicate 576 0, false⟩
def roundJob (me : Nat) : Job := { ringJob with q := [me, 0, 0, 0], verdict := some roundWord }
/-- The module with that job, and a round in its context. -/
def inRound (x : Ctx) (me : Nat) (ms : List Msg) : State :=
  { up with jobs := [(1, roundJob me)], ctxs := [(ctxQ.toNat, x)], queues := [(ctxQ.toNat, q0 0)], ports := [(0, { st := .active, inbox := ms }), (1, { st := .active })] }
theorem witness_VerdictRoundStart : ∀ me ∈ [0, 1], (inRound {} me []).job? ((inRound {} me []).queue ctxQ).job.toNat = some (roundJob me) ∧
    (roundJob me).verdict = some roundWord ∧ roundWord.chain = ctxQ ∧ ((inRound {} me []).ctx ctxQ).cur = none ∧ ((inRound {} me []).ctx ctxQ).round = none ∧
    (roundJob me).reshard = none ∧ ((inRound {} me []).queue ctxQ).started.all (·.done) = true ∧ firstAxis roundWord.axes = some 0 ∧
    ((inRound {} me []).port (axisPort 0 true)).up = true ∧ ((inRound {} me []).port (axisPort 0 false)).up = true := by decide +kernel
theorem witness_VerdictWord : ∀ me ∈ [0, 1],
    let m := roundMsg (roundJob 1) ctxQ 0 0 0 (List.replicate 576 0)
    let s := inRound { round := some (1, 0, 0) } me [m]
    (s.port 0).inbox.contains m = true ∧ msgKind m = 2 ∧ msgCredit m = false ∧ msgOr m = true ∧ msgCtx s m = some (ctxQ, 1) ∧
      (s.ctx ctxQ).round = some (1, 0, 0) ∧ (s.ctx ctxQ).epoch = msgEpoch m ∧ msgTag m = roundTag ∧ m.data.length = 9 ∧
      0 < roundIn ((s.job 1).q.getD 0 0) ∧ s.job? 1 = some (roundJob me) ∧ decide ((roundJob me).q.getD 0 0 ≠ 0) = decide (me = 1) := by decide +kernel
/-- A context whose bucket is full, at its start. -/
def full (c : Cmd) : State := chained { cur := some (0, c) } c [] (.fill 0 0 0 true)
theorem witness_ChainStart (c : Cmd) : ((full c).queue ctxQ).hold = .fill 0 0 0 true ∧ ((full c).ctx ctxQ).cur = some (0, c) ∧
    ((full c).queue ctxQ).started.find? (fun w => w.idx == 0) = some (bucket c) ∧ (full c).job ((full c).queue ctxQ).job.toNat = ringJob :=
  ⟨rfl, rfl, rfl, rfl⟩
theorem witness_ChainStart_sends : (bkN gatherCmd = 1 ∧ bkN sumCmd = 1 ∧ bkN addCmd = 2 ∧ sends addCmd ringJob.step = false) ∧
    ∀ p ∈ [bucketPort gatherCmd, bucketPort sumCmd, bucketPort addCmd], ((full addCmd).port p).up = true := by decide +kernel
theorem witness_ReshardInstall :
    let c := mk 0x72 [(8, 1, 1), (0xC, 2, 5)]
    let s : State := { at_ .aligned 1024 with jobs := [(1, { ringJob with reshard := some (ctxQ, 0, c) })] }
    s.job? 1 = some { ringJob with reshard := some (ctxQ, 0, c) } ∧ activeChains s 1 = 0 ∧ s.slot = 0 ∧ s.ticking = true := by decide +kernel
theorem witness_RedJobs : tfind [(3, (RedJobState.draining, (0 : BitVec 6)))] 3 = some (.draining, 0) ∧
    redBusy { up with redJobs := [(3, (.draining, 0))] } 3 = false ∧ tfind [(3, (RedJobState.hold, (0 : BitVec 6)))] 3 = some (.hold, 0) := by
  decide +kernel

/-! ### Waiting and completion -/

/-- A satisfied WAIT on semaphore 5 for 2, with a valid prefetch on its semaphore in core 0's tracker. -/
def waiting (k : Track) : State :=
  { up with
    queues := [(6, { q0 1 with hold := .wait 0 (mk 1 []) 5 false 2 true }), (7, q0 0)], jobs := [(1, {})]
    msys := { trackers := [(0, [k])], gens := [(9, { entered := true, gen := 4 })] } }
/-- A tracked prefetch of tensor 9. -/
def prefetch (gen : Nat) (run : Option (QNum × Started)) (replays : Nat) : Track :=
  ⟨7, mk 0x50 [], 9, BitVec.ofNat 32 gen, some 5, 2, replays, run, 1⟩
theorem witness_SatisfiedWait : ((waiting (prefetch 4 none 0)).queue 6).st = .active ∧
    ((waiting (prefetch 4 none 0)).queue 6).hold = .wait 0 (mk 1 []) 5 false 2 true ∧
    checkedTracks (waiting (prefetch 4 none 0)) 5 false 2 = [prefetch 4 none 0] ∧
    (prefetch 4 none 0).run = none ∧ (prefetch 4 none 0).valid (waiting (prefetch 4 none 0)) = true := by decide +kernel
/-- The replay of a prefetch, over with a status. -/
def replayed (gen st replays : Nat) : Track := prefetch gen (some (6, { idx := 0, op := 0x50, cmd := mk 0x50 [], status := BitVec.ofNat 16 st })) replays
theorem witness_ReplayEnd : ∀ k ∈ [replayed 4 8 0, replayed 4 0 0, replayed 6 0 255, replayed 6 0 0],
    ∃ t w, replayOf (waiting k) 6 = some (t, w) ∧ w.ue = none ∧ w.writes = [] ∧ t = k ∧
      (completeStat (waiting k) ((waiting k).queue t.queue).func.toNat t.job.toNat w).2.2 = none := by
  intro k hk
  fin_cases hk <;> exact ⟨_, _, rfl, rfl, rfl, rfl, rfl⟩
theorem witness_ReplayEnd_cases : isError 8 = true ∧ isError 0 = false ∧ (replayed 4 0 0).valid (waiting (replayed 4 0 0)) = true ∧
    (replayed 6 0 255).valid (waiting (replayed 6 0 255)) = false ∧ 255 ≥ up.reg 0x4030 3 ∧ 0 < up.reg 0x4030 3 := by decide +kernel

/-- A queue with a command whose work is over. -/
def finished (st : Nat) (sem : Option (BitVec 32 × BitVec 64)) : Started := { idx := 0, op := 0, cmd := mk 0 [], status := BitVec.ofNat 16 st, sem := sem }
def finishing (w : Started) : State :=
  { up with queues := [(6, { q0 1 with started := [w], next := 1 })], jobs := [(1, {})], sems := [(5, { value := 3, st := .live })] }
theorem witness_CommandComplete : ∀ w ∈ [finished 0 (some (5, 2)), finished 8 none],
    ((finishing w).ctx 6).cur = none ∧ ((finishing w).queue 6).st = .active ∧ ((finishing w).queue 6).flushing = false ∧ findDone ((finishing w).queue 6) 0 = some w ∧
      w.stat = none ∧ (completeStat (finishing w) 0 1 w).1 = finishing w ∧ (((finishing w).queue 6).comp.toNat + 16 * 0) % 65536 + 16 ≤ 65536 ∧
      xlate (completeSem (finishing w) 0 w).1 0 1 (((finishing w).queue 6).comp.toNat + 16 * 0) true = .dev 0x8000 none ∧
      devicesOk (completeSem (finishing w) 0 w).1 0x8000 16 = true := by
  decide +kernel
theorem witness_CommandComplete_error : isError (finished 8 none).status.toNat = true ∧ (cmdField (finished 8 none).cmd 1 1).testBit 2 = false ∧
    ((finishing (finished 8 none)).queue 6).destroying = false ∧ (completeSem (finishing (finished 8 none)) 0 (finished 8 none)).2 = finished 8 none := by
  decide +kernel
/-- The same with the completion ring in a page of host memory. -/
def finishingFar : State :=
  let w := finished 0 none
  { finishing w with
    mem := memPut 0x10010008 (leBytes 8 (2 ^ 30 + 64 + 7)) mem0, funcs := [(0, { root := BitVec.ofNat 64 (rootPa + 1), ats := [(2 ^ 14, .granted 0)] })]
    queues := [(6, { q0 1 with started := [w], next := 1, comp := 2 ^ 30 })] }
theorem witness_CommandComplete_host : xlate finishingFar 0 1 (2 ^ 30) true = .host 0 0 := by decide +kernel
theorem witness_CompletionSemaphore : semCheck (finishing (finished 0 none)) 0 5 = stOk ∧ semCheck (finishing (finished 0 none)) 0 6 ≠ stOk ∧
    (finished 8 (some (5, 2))).status ≠ 0 := by decide +kernel
theorem witness_StoresSatisfyWaits : ((waiting (prefetch 4 none 0)).queue 6).hold = .wait 0 (mk 1 []) 5 false 2 true ∧
    (({ up with queues := [(6, { q0 1 with hold := .wait 0 (mk 1 []) 5 true 2 false })] } : State).queue 6).hold = .wait 0 (mk 1 []) 5 true 2 false := by
  decide +kernel

/-- Job 1 with one queue waiting and one empty. -/
def stuck : State := { up with jobs := [(1, {})], queues := [(6, { q0 1 with hold := .wait 0 (mk 1 []) 5 false 2 false }), (7, q0 0)] }
theorem witness_Deadlock : stuck.job? 1 = some {} ∧ ({} : Job).deadlocked = false ∧ ({} : Job).aborting = false ∧
    ((queuesOf stuck 1).all fun q => (blockedAs (stuck.queue q)).isSome) = true ∧ (6 : QNum) ∈ queuesOf stuck 1 ∧ blockedAs (stuck.queue 6) = some (0, 5, 2) := by
  decide +kernel

/-! ### Hosts -/

/-- The module with submission queue 4096 of function 0. -/
def rung : State := { up with queues := [(4096, { q0 1 with engine := 0xFFFF })], jobs := [(1, {})], sems := [(5, { value := 3, st := .live })] }
theorem witness_Doorbell : hostOpen rung 0 = true ∧ sized 4 3 < 65536 ∧ (rung.func 0).agreed ≠ 0 ∧ reachesQueue rung 0 4096 = true ∧ (rung.queue 4096).st ≠ .free ∧
    (rung.queue 4096).st ≠ .aborted ∧ (rung.queue 4096).destroying = false ∧ (BitVec.ofNat 16 3 - (rung.queue 4096).head).toNat < (rung.queue 4096).n ∧
    ((rung.queue 4096).tail - (rung.queue 4096).head).toNat ≤ (BitVec.ofNat 16 3 - (rung.queue 4096).head).toNat := by decide +kernel
/-- The same before the function has agreed a level. -/
def unagreed : State := { rung with funcs := [(0, {})] }
theorem witness_BadDoorbell : (2 ≠ 4 ∧ 2 ≠ 8) ∧ 65536 ≤ sized 4 0x10000 ∧ hostOpen unagreed 0 = true ∧ (unagreed.func 0).agreed = 0 ∧
    hostOpen rung 64 = true ∧ reachesQueue rung 64 4096 = false := by decide +kernel
theorem witness_SemWindow : hostOpen rung 0 = true ∧ functionAborting rung 0 = false ∧ (rung.func 0).agreed ≠ 0 ∧ rung.assignedTo 2 5 0 = true ∧
    (rung.sem 5).st = .live := by decide +kernel
theorem witness_SemWindowDenied : 4 ≠ 8 ∧ functionAborting unagreed 0 = false ∧ (unagreed.func 0).agreed = 0 ∧ functionAborting rung 64 = false ∧
    rung.assignedTo 2 5 64 = false ∧ (rung.sem 6).st ≠ .live := by decide +kernel
theorem witness_WindowsUnlocked : (at_ .unlocked 0).ticking = false := by decide +kernel
theorem witness_Level : hostOpen up 0 = true ∧ ownsWork up 0 = false ∧ (1 : BitVec 4) = (rung.func 0).agreed ∧ (0 : BitVec 4) ≠ (rung.func 0).agreed ∧
    ownsWork rung 0 = true := by decide +kernel
theorem witness_Bar2 : hostOpen up 0 = true ∧ apertureOk up 0 64 4 = true ∧ devicesOk up ((up.func 0).aperture.toNat + 64) 4 = true ∧ Memory.wf up.mem = true ∧
    apertureOk up 0 (2 ^ 38 - 2) 4 = false ∧ (poisonIn { up with poison := [2] } 64 4).isSome = true ∧ (poisonIn up 64 4).isSome = false := by decide +kernel
/-- The module with every device out of service. -/
def unserved : State := { up with msys := { devices := 0 } }
theorem witness_Bar2_offline : hostOpen unserved 0 = true ∧ apertureOk unserved 0 64 4 = true ∧ devicesOk unserved ((unserved.func 0).aperture.toNat + 64) 4 = false := by
  decide +kernel
/-- A page of host port H0 asked for. -/
def asking : State :=
  { up with mem := memPut 0x10010008 (leBytes 8 (2 ^ 30 + 64 + 7)) mem0, funcs := [(0, { root := BitVec.ofNat 64 (rootPa + 1), ats := [(2 ^ 14, .requested)] })] }
theorem witness_HostPage : outstanding asking 0 (2 ^ 30) = some (2 ^ 14) ∧ (asking.func 0).atsInval.length < 32 := by decide +kernel
theorem witness_Bar2Resize : hostOpen up 0 = true ∧ 30 ≤ (30 : BitVec 6).toNat ∧ (42 : BitVec 6).toNat ≤ 42 := by decide +kernel

/-! ### The memory system -/

/-- An invalidation in progress, one that waits, and a command of function 0 with a write that has no response yet, or none. -/
def invalidating (ws : List Span) : State :=
  { up with jobs := [(1, { root := some 3 })], msys := { inval := some (0, 0, 0), invalQ := [(1, 0, 0)] }
            queues := [(6, { q0 1 with started := [{ idx := 0, op := 0, cmd := mk 0 [], spans := ws }] })] }
theorem witness_Invalidation : (invalidating []).msys.inval = some (0, 0, 0) ∧ writesRange (invalidating []) 0 0 0 = false ∧
    writesRange (invalidating [⟨false, 0, 16⟩]) 0 0 0 = true ∧ (invalidating []).job? 1 = some { root := some 3 } := by decide +kernel
/-- A move from LPDDR5X up to die 0. -/
def moving : State := { up with msys := { moves := [⟨0x10010000, lpBase, 2 ^ 22, 0, none⟩] } }
theorem witness_PageMove : Memory.wf moving.mem = true ∧
    moving.msys.moves.find? (fun m => besideDie 0 (m.new / 2 ^ 21)) = some ⟨0x10010000, lpBase, 2 ^ 22, 0, none⟩ ∧ idleDe moving 0 = true ∧
    lpBase % 2 ^ 21 = 0 ∧ 2 ^ 22 % 2 ^ 21 = 0 ∧ lpBase ≠ 2 ^ 22 ∧ (2 ^ 22 + 2 ^ 21 ≤ 0x10010000) ∧ 2 ^ 22 < 2 ^ 56 := by decide +kernel
theorem witness_PageMove_written : (⟨0x10010000, lpBase, 2 ^ 22, 0, none⟩ : PageMv).attempts < 2 ∧
    2 ≤ (⟨0x10010000, lpBase, 2 ^ 22, 2, none⟩ : PageMv).attempts := by decide +kernel
theorem witness_Scrub : up.reg 0x4050 1 ≠ 0 ∧ up.trust.rootUp = true ∧ ({ up with trust := { rootUp := false } } : State).trust.rootUp = false ∧ up.dict.bbHeld.length + up.dict.ce.length ≤ 256 := by decide +kernel

/-! ### Matrix arrays out of band -/

theorem witness_ShadowSample :
    let s : State := { up with samples := [(0, [⟨1, 0, [0x3F800000], [0x3F800000]⟩])], jobs := [(1, {})] }
    tget [] s.samples 0 = [⟨1, 0, [0x3F800000], [0x3F800000]⟩] ∧
      (s.queues.any fun e => (exeOf (BitVec.ofNat 15 e.1) e.2).core? == some 0 && e.2.started.any fun w => w.holdsBuffer) = false ∧ s.job? 1 = some {} := by
  decide +kernel
theorem witness_RowTest : up.trust.sfUp = true ∧ (up.array 0).spare ≠ 3 ∧ (up.array 511).spare ≠ 3 := by decide +kernel
theorem witness_QuietPoint :
    let s : State := { up with arrays := [(0, { repair := some (63, 2) }), (1, { repair := some (0, 1), spare := 1 })] }
    (s.array 0).repair = some (63, 2) ∧ (s.array 0).recorded = false ∧ s.trust.handover = none ∧ (arrayQuiet s 0).1 = true ∧ (s.array 0).spare ≠ 1 ∧ (s.array 0).spare ≠ 2 ∧
      (s.array 1).repair = some (0, 1) ∧ (s.array 1).recorded = false ∧ (arrayQuiet s 1).1 = true ∧ (s.array 1).spare = 1 := by decide +kernel

end Sys2Proof.Tests
end

