-- ==== Sys2Proof/Tests/WitnessDictionary.lean ====
section
/-! SUPPORT. States and operands that meet the hypotheses of the statements on the dictionary, queues, descriptors, aborts and loads. -/

set_option maxRecDepth 100000
set_option Elab.async false

namespace Sys2Proof.Tests
open Sys2Proof.Machine

/-! ### The dictionary -/

/-- The management path may write these entries of the running module: index, subindex, bytes. -/
def writableEntries : List (Nat × Nat × Nat) :=
  [(0x1200, 4, 4), (0x2E00, 2, 2), (0x2E00, 1, 1), (0x3010, 1, 1), (0x7E00, 2, 1), (0x7E00, 1, 1), (0x7E00, 6, 1), (0x1100, 5, 16)] ++
  [(0x3400, 2, 4), (0x3400, 3, 4), (0x3400, 4, 1), (0x5020, 2, 4), (0x5020, 7, 1), (0x4021, 1, 16), (0x4820, 1, 4), (0x6840, 1, 2)] ++
  [(0x6840, 4, 8), (0x6000, 4, 48), (0x6000, 5, 4), (0x4060, 2, 136), (0x4060, 3, 8), (0x6020, 1, 16), (0x6020, 128, 16), (0x6040, 1, 4)] ++
  [(0x6040, 2, 1), (0x6058, 1, 40), (0x6820, 2, 1024), (0x6820, 3, 1), (0x6800, 3, 1), (0x2000, 1, 1), (0x2000, 2, 2), (0x2010, 2, 1)] ++
  [(0x2010, 3, 4), (0x2040, 2, 4), (0x2040, 3, 1)]
theorem witness_WriteCheck : (writableEntries.all fun e => writeCheck up .mgmt e.1 e.2.1 0 e.2.2 == stOk) = true := by decide +kernel
theorem witness_RefusedWrite : writeCheck State.reset .mgmt 0x3400 2 0 4 = stOffline ∧ writeCheck up .mgmt 0x1000 9 0 4 = stCmdInvalid ∧
    writeCheck up .mgmt 0x3400 2 0 3 = stCmdInvalid ∧ writeCheck up (.window 1) 0x3400 2 0 4 = stOffline ∧
    writeCheck { up with funcs := [(0, {})] } (.window 0) 0x3400 2 0 4 = stLevel := by decide +kernel
theorem witness_WriteSetsTheEntry : writeCheck up .mgmt 0x3400 7 0 2 = stOk ∧ claimants.contains (0x3400, 7) = false ∧
    lowAction up .mgmt 0x3400 7 (leNat (leBytes 2 4096)) (leBytes 2 4096) = none ∧ rangeOk 0x3400 7 (leNat (leBytes 2 4096)) = true ∧
    isSelector 0x3400 7 = false := by decide +kernel
theorem witness_WriteSetsTheSelector : writeCheck up .mgmt 0x5010 1 0 4 = stOk ∧ claimants.contains (0x5010, 1) = false ∧
    highAction up .mgmt 0x5010 1 0 7 (leBytes 4 7) = none ∧ rangeOk 0x5010 1 (leNat (leBytes 4 7)) = true ∧ isSelector 0x5010 1 = true := by decide +kernel
theorem witness_Read : ∃ e, visible .mgmt 0x3400 2 = some e ∧ e.acc ≠ .wo ∧ (∃ v, entryBytes up .mgmt e 2 = .ok v ∧ readShape .mgmt e 2 0 4 v = true) ∧
    served up .mgmt false 0x3400 = true := by
  refine ⟨_, rfl, by decide +kernel, ⟨_, rfl, by decide +kernel⟩, by decide +kernel⟩
/-- A path that has read LAST_STRETCH. -/
def readOnce : State := up.setPath .mgmt { readSnap := some (256 * 0x3000 + 8, List.replicate 20 5) }
theorem witness_ReadAtAnOffset : ∃ e, visible .mgmt 0x3000 8 = some e ∧ e.acc ≠ .wo ∧ readShape .mgmt e 8 4 16 (List.replicate 20 5) = true ∧
    (readOnce.path .mgmt).readSnap = some (256 * e.index + 8, List.replicate 20 5) ∧ served readOnce .mgmt false 0x3000 = true :=
  ⟨⟨0x3000, 8, 8, .blob 20, .ro, false, false, 0⟩, by decide +kernel⟩
/-- A counter selected on the management path. -/
def counting (v : Nat) : State := up.setPath .mgmt { sel := [(256 * 0x7000 + 1, v)] }
theorem witness_Serving (v : Nat) : Serving (counting v) .mgmt :=
  ⟨by show ModState.running ≠ _; decide, rfl, rfl, rfl, rfl, fun _ h => (nomatch h), fun _ h => (nomatch h)⟩
theorem witness_Serving_window : Serving up (.window 0) :=
  ⟨by decide +kernel, rfl, rfl, rfl, rfl, fun _ h => (nomatch h), fun f h => by cases h; decide +kernel⟩
theorem witness_Serving_mctp : Serving up (.mctp 1) :=
  ⟨by decide +kernel, rfl, rfl, rfl, rfl, fun _ _ => by decide +kernel, fun _ h => nomatch h⟩
theorem witness_Counter : cntSelect (counting (5 * 2 ^ 56 + 2 * 2 ^ 32)) .mgmt = (5, 0, 2) ∧ counterExists 5 0 2 = true ∧
    cntSelect (counting (2 * 2 ^ 56 + 2 ^ 32 + 9)) .mgmt = (2, 9, 1) ∧ counterExists 2 9 1 = true ∧ ((counting 0).job? 9).isNone = true ∧
    cntSelect (counting (99 * 2 ^ 56)) .mgmt = (99, 0, 0) ∧ counterExists 99 0 0 = false ∧
    cntSelect (counting (2 ^ 56)) .mgmt = (1, 0, 0) ∧ engineIndexOk 0 = true ∧ cntSelect (counting (2 ^ 56 + 0xFFFF)) .mgmt = (1, 0xFFFF, 0) ∧
    engineIndexOk 0xFFFF = false := by decide +kernel
/-- The window of function 0 with LEN and DATA set. -/
def window (data : List Byte) (len : Nat) : State := up.setPath (.window 0) { winLen := BitVec.ofNat 32 len, winData := data }
theorem witness_RegisterWrite : hostOpen up 0 = true ∧ hostOpen up 1 = false ∧ hostOpen (window [5] 4) 0 = true ∧ ((window [5] 4).path (.window 0)).descWait = none ∧
    bits 0x34000201 4 4 = 0 ∧ bits 0x34000201 0 4 = 1 ∧ bits 0x34000202 0 4 = 2 ∧ ((window [5] 4).path (.window 0)).winLen.toNat ≤ 1024 ∧ bits 0x34000203 0 4 = 3 ∧
    up.load = none ∧ (up.func 0).evWait = [] ∧ 15359 < 15360 ∧ (3 : BitVec 26).toNat % 4 ≠ 0 := by decide +kernel
theorem witness_TickSnapshot : up.trust.sfUp = true ∧ up.ticking = true := by decide +kernel
theorem witness_RestoreDefaults : jobLoaded up = false := by decide +kernel
theorem witness_FaultAck : (0x0010 : BitVec 16).toNat ∈ faultCodes := by decide +kernel
theorem witness_GpioClaim : claimants.contains (0x2E00, 1) = true ∧ (3 : BitVec 8).toNat ≤ 3 ∧ pinHolder up 3 = none := by decide +kernel
/-- The module with its trace on, and a pin that triggers it. -/
def traced (post : Option Nat) : State := { up with dict := { traceOn := true, tracePost := post, regs := [(256 * 0x7E00 + 2, 1)] } }
theorem witness_Trace : (traced none).dict.traceOn = true ∧ (traced none).dict.tracePost = none ∧ (traced none).reg 0x7E00 2 = (1 : BitVec 2).toNat ∧
    (traced (some 0)).dict.tracePost = some 0 := by decide +kernel
/-- The module with a LIVE semaphore of function 0. -/
def semHeld : State := { up with sems := [(6, { value := 3, st := .live })] }
theorem witness_Assign : itemsOk 2 5 3 = true ∧ (∀ n, n < 8 → 5 ≤ n → assigner up .mgmt 2 1 n = true ∧
      ∀ op ∈ [0, 1, 2], ∀ g ∈ losers up 2 op 1 n, itemHeld up (fun g => if ownsJob up g then unitsHeld up g else []) 2 n g = false) ∧
    itemsOk 1 65535 1 = false := by decide +kernel
theorem witness_Assign_held : 0 ∈ losers semHeld 2 0 1 6 ∧ itemHeld semHeld (fun g => if ownsJob semHeld g then unitsHeld semHeld g else []) 2 6 0 = true := by
  decide +kernel
theorem witness_TorusSettings : bytesOk 4 0xFF0F0003 (fun b => decide (b ≤ 15) || b == 0xFF) = true ∧
    bytesOk 4 0x10010204 (fun b => decide (1 ≤ b) && decide (b ≤ 16)) = true := by decide +kernel
/-- Job 1 selected on the management path. -/
def selected : State := { up with jobs := [(1, { layers := [(0, {})] })], paths := [(0, { sel := [(256 * 0x5010 + 1, 1), (256 * 0x5020 + 1, 0)] })] }
theorem witness_LayerWrites : selectedLayer selected .mgmt = some {} ∧ recipeFmtOk {} 0 ({} : Layer).w.toNat (0x4250C % 32) = true ∧
    recipeFmtOk {} 1 ({} : Layer).a.toNat (0x4250C / 2 ^ 5 % 32) = true ∧ recipeFmtOk {} 2 ({} : Layer).g.toNat (0x4250C / 2 ^ 10 % 32) = true ∧
    recipeFmtOk {} 3 ({} : Layer).kv.toNat (0x4250C / 2 ^ 15 % 32) = true ∧ (15 : BitVec 8).toNat ≤ 15 ∧ (selectedJob selected .mgmt 0x5010 1).isSome = true := by
  decide +kernel
theorem witness_InvalRequest : ∀ d ∈ [List.replicate 16 (0 : Byte), 127 :: 3 :: List.replicate 14 0], d.length = 16 ∧ byteField d 0 1 < 128 ∧ byteField d 1 1 ≤ 3 ∧
    byteField d 2 6 = 0 ∧ byteField d 8 8 = 0 := by decide +kernel
theorem witness_InvalRequest_busy : up.msys.inval = none ∧ (invalidating []).msys.inval ≠ none ∧ pathFunc .mgmt = none := by decide +kernel
theorem witness_Servicing : (32767 : BitVec 32).toNat / 64 < 512 ∧ (up.array (32767 / 64)).spare ≠ 3 ∧ (0x31F : BitVec 16).toNat < 1024 ∧ bits 0x31F 5 3 = 0 ∧
    (up.trust.repl.any fun r => r.core.toNat == 0x31F / 256 * 32 + 0x31F % 32) = false ∧ inDev (hbmEnd - 1) 1 = true ∧ inDev lpBase 1 = true := by decide +kernel

/-- Logical core 5 under replacement. -/
def replacing (r : CoreRepl) (gone : BitVec 2) : State := { up with trust := { up.trust with repl := [r], sparesGone := [gone, 0, 0, 0] } }
theorem witness_Replacement :
    (replacing { core := 5, spare := 32 } 0).trust.repl.find? (fun r => r.core.toNat / 32 == 0 && !r.passed) = some { core := 5, spare := 32 } ∧
    freeSpare (spendSpare (replacing { core := 5, spare := 32 } 0) 0 32) 0 = some 33 ∧ freeSpare (spendSpare (replacing { core := 5, spare := 33 } 1) 0 33) 0 = none ∧
    (List.range 8).all (engineQuiet (replacing { core := 5, spare := 32 } 0) 5) = true := by decide +kernel
theorem witness_CoreCopy :
    let r : CoreRepl := { core := 5, spare := 32, passed := true, quiet := true }
    (replacing r 0).trust.repl.find? (fun r => r.core == 5 && r.quiet && r.passed) = some r := by decide +kernel
theorem witness_MemRepair :
    let s : State := { up with msys := { rowRepair := some 7, rowQueue := [9] } }
    s.msys.rowRepair = some 7 ∧ s.trust.handover = none ∧ ({ s with trust := { s.trust with handover := some (0, true) } } : State).trust.handover ≠ none := by
  decide +kernel

/-! ### Queues, descriptors, jobs -/

/-- QUEUE_CREATE records: of queue 4096 for the command processor, and of queue 6 of core 0 for job 1, with 65,536 places and vector 2047. -/
def createRec : List Byte := leBytes 2 4096 ++ [0, 4] ++ leBytes 4 0 ++ leBytes 2 0xFFFF ++ leBytes 2 1 ++ leBytes 4 0 ++ leBytes 8 0x1000 ++ leBytes 8 0x8000 ++ leBytes 16 0
def createEngine : List Byte := leBytes 2 6 ++ [0, 16] ++ leBytes 4 1 ++ leBytes 2 0 ++ leBytes 2 2047 ++ leBytes 4 0 ++ leBytes 8 0x1000 ++ leBytes 8 0x8000 ++ leBytes 16 0
theorem witness_QueueCreate : createRec.length = 48 ∧ createReserved createRec = true ∧ (up.queue 4096).st = .free ∧ up.assignedTo 1 4096 0 = true ∧
    engineOk (byteField createRec 8 2) = true ∧ byteField createRec 4 4 = 0 ∧ byteField createRec 3 1 = 4 ∧ byteField createRec 0x0A 2 = 1 := by decide +kernel
theorem witness_QueueCreate_engine :
    let s : State := { up with jobs := [(1, {})] }
    createEngine.length = 48 ∧ createReserved createEngine = true ∧ (s.queue 6).st = .free ∧ jobOf s 0 1 = true ∧ byteField createEngine 4 4 = 1 ∧
      byteField createEngine 8 2 = 0 ∧ 6 % 16 < 8 ∧ coreSplit s 6 1 = false ∧ byteField createEngine 3 1 = 16 ∧ byteField createEngine 0x0A 2 = 2047 ∧
      pathFunc (.window 0) = some 0 := by decide +kernel
/-- A halted submission queue with one command unstarted. -/
def halted : State := { up with queues := [(4096, { q0 1 with st := .halted, engine := 0xFFFF, job := 0 })] }
theorem witness_QueueResume : (halted.queue 4096).st = .halted ∧ (halted.queue 4096).destroying = false ∧ (halted.queue 4096).flushing = false ∧
    pathReachesQueue halted .mgmt 4096 = true ∧ stoppedQueue halted 4096 = false ∧ pathReachesQueue halted (.window 0) 4096 = true := by decide +kernel
theorem witness_QueueDestroy : (halted.queue 4096).st ≠ .free ∧ (halted.queue 4096).started = [] ∧ ((finishing (finished 0 none)).queue 6).st = .active ∧
    ((finishing (finished 0 none)).queue 6).started ≠ [] ∧ pathReachesQueue (finishing (finished 0 none)) .mgmt 6 = true := by decide +kernel
theorem witness_QueueDestroyDrained : ∀ ws ∈ [[], [finished 0 none]],
    let s : State := { up with queues := [(6, { q0 0 with destroying := true, started := ws })] }
    (s.queue 6).destroying = true ∧ (s.queue 6).started = ws := by decide +kernel
/-- That queue with another completion ring and commands started, and what a flush of it comes to. -/
def haltedAt (comp : Nat) (mem : List Host.Cell) (ws : List Started) : State :=
  { halted with mem := mem, queues := [(4096, { q0 1 with st := .halted, engine := 0xFFFF, job := 0, comp := BitVec.ofNat 64 comp, started := ws })] }
def flushOf (s : State) : Option FlushStop :=
  (flushFrom { s.setQueue 4096 { s.queue 4096 with markers := [], unarmed := [], flushing := true, hold := .none } with masks := [] } 4096 (s.queue 4096).waiting).2
theorem witness_QueueFlush : flushOf halted = none ∧ flushOf (haltedAt 0x8000 mem0 [finished 0 none]) = none ∧
    flushOf (haltedAt (2 ^ 40) mem0 []) = some (.lost 20 0) ∧ flushOf (haltedAt (2 ^ 30) asking.mem []) = some .page := by decide +kernel
/-- A DESC_CREATE record: job, handle, and the bytes of a descriptor. -/
def descRec (h : Nat) (d : Desc) : List Byte := leBytes 4 1 ++ leBytes 4 h ++ leBytes 128 d.raw.toNat
/-- The module with job 1 and no descriptor, or one under handle 1. -/
def described (descs : List (Nat × Desc)) : State := { up with jobs := [(1, { descs := descs })] }
theorem witness_DescCreate :
    let d := mkDesc 0 0 2 1 1 0 0x100000 64 0 [4, 4] [1, 4]
    pathReaches (described []) .mgmt 1 = true ∧ tfind ((described []).job 1).descs 1048575 = none ∧ (descRec 1048575 d).length = 136 ∧
      (∃ x, (validate (described []) 0 1 ((described []).job 1) d.raw).1 = .good x) ∧ BitVec.ofNat 1024 (byteField (descRec 1 d) 8 128) = d.raw :=
  ⟨by decide +kernel, rfl, by decide +kernel, ⟨_, rfl⟩, by decide +kernel⟩
theorem witness_DescCreate_refused : (validate (described []) 0 1 ((described []).job 1) (mkDesc 0 0 9 1 1 0 0x100000 64 0 [4, 4] [1, 4]).raw).1 = .bad 16 1 := by
  decide +kernel
/-- A descriptor whose ragged table, under handle 2, lies in a page of host memory that the host has not answered. -/
def ragged : Desc := ⟨(mkDesc 0 0 1 1 1 0 0x100000 64 0 [4] [1]).raw + BitVec.ofNat 1024 (12 * 2 ^ (8 * 0x70) + 2 * 2 ^ (8 * 0x74)), false, []⟩
def raggedIn : State := { asking with jobs := [(1, { p := [2, 1, 1, 1], descs := [(2, mkDesc 0x19 0 1 4 0 0 (2 ^ 30) 64 0 [2] [1])] })] }
theorem witness_DescCreate_waits : (validate raggedIn 0 1 (raggedIn.job 1) ragged.raw).1 = .page (2 ^ 14) := by decide +kernel
theorem witness_DescDestroy :
    let s := described [(1, mkDesc 0 0 2 1 1 0 0x100000 64 0 [4, 4] [1, 4])]
    pathReaches s .mgmt 1 = true ∧ (tfind (s.job 1).descs 1).isSome = true := by decide +kernel
theorem witness_EventRing : ∀ d ∈ [leBytes 8 0x1000 ++ leBytes 8 4, leBytes 8 0x1000 ++ leBytes 8 16, List.replicate 16 0],
    d.length = 16 ∧ byteField d 9 7 = 0 ∧ byteField d 0 8 % 256 = 0 ∧ (byteField d 8 1 = 0 ∨ 4 ≤ byteField d 8 1 ∧ byteField d 8 1 ≤ 16) := by decide +kernel
theorem witness_JobAbort : (described []).job? 1 = some {} ∧ pathFunc .mgmt = none ∧ pathFunc (.window 0) = some 0 ∧ ({} : Job).aborting = false := by decide +kernel
/-- Job 1 being loaded. -/
def loading : State := { up with load := some ⟨.mgmt, 0, 1, leBytes 4 1 ++ leBytes 36 0⟩ }
theorem witness_JobAbort_loading : loading.job? 1 = none ∧ loading.load = some ⟨.mgmt, 0, 1, leBytes 4 1 ++ leBytes 36 0⟩ ∧
    (⟨.mgmt, 0, 1, leBytes 4 1 ++ leBytes 36 0⟩ : LoadWait).job = 1 := by decide +kernel
theorem witness_FunctionAbort : functionExists up 0 = true ∧ functionExists up 64 = true ∧ pathFunc .mgmt = none ∧ mayAbort 0 63 = true := by decide +kernel
/-- An abort under way. -/
def aborting (ofF : Bool) : State :=
  { up with aborts := [⟨ofF, 1, false⟩], jobs := [(1, { aborting := true })], funcs := [(1, { ats := [(5, .requested)] }), (0, { ats := [(5, .requested)] })] }
theorem witness_AbortEnds : ((aborting true).aborts.any fun a => a.ofFunction == true && a.target == 1) = true ∧
    ((aborting false).aborts.any fun a => a.ofFunction == false && a.target == 1) = true ∧ (aborting false).job? 1 = some { aborting := true } := by decide +kernel

/-! ### Loads -/

/-- A directory entry of an empty section, and an image with the three sections that one must have. -/
def emptySect (t : Nat) : List Byte := leBytes 2 t ++ leBytes 6 0 ++ leBytes 8 256 ++ leBytes 16 0
def image : List Byte :=
  leBytes 4 0x49525653 ++ [1, 0, 3, 0] ++ leBytes 24 0 ++ [16, 0, 0, 0] ++ leBytes 4 0 ++ [1, 1, 1, 1] ++ leBytes 20 0 ++ emptySect 1 ++ emptySect 3 ++ emptySect 4
/-- The request to load 256 bytes at an address as job 1, its load on a state, and how that ends. -/
def loadRec (a : Nat) : List Byte := leBytes 4 1 ++ leBytes 4 0 ++ leBytes 8 a ++ leBytes 8 256 ++ leBytes 16 0
def loadOf (s : State) (a : Nat) : Load := { s := s, path := .mgmt, f := 0, job := 1, red := 0, image := a, imageLen := 256, bind := 0, bindCount := 0 }
def loadEnd (s : State) (a : Nat) : Option LoadStop := match ((ExceptT.run allStages).run (loadOf s a)).1 with | .ok _ => none | .error e => some e
/-- A READY module with that image in its memory. -/
def imaged : State := { up with mem := memPut 0x1000 image mem0, power := { state := .ready } }
theorem witness_LoadRequest : (loadRec 0x1000).length = 40 ∧ byteField (loadRec 0x1000) 0 4 = 1 ∧ byteField (loadRec 0x1000) 4 2 < 1024 ∧
    byteField (loadRec 0x1000) 7 1 = 0 ∧ byteField (loadRec 0x1000) 8 8 = 0x1000 ∧ byteField (loadRec 0x1000) 0x18 8 % 8 = 0 ∧ byteField (loadRec 0x1000) 0x24 4 = 0 ∧
    imaged.load = none ∧ imaged.power.state = .ready ∧ loading.load ≠ none := by decide +kernel
theorem witness_LoadRequest_ends : loadEnd imaged 0x1000 = none ∧ (∃ e, loadEnd up 0x1000 = some (.fail e)) ∧ loadEnd asking (2 ^ 30) = some (.page (2 ^ 14) 1) :=
  ⟨by decide +kernel, ⟨_, rfl⟩, by decide +kernel⟩

end Sys2Proof.Tests
end

