-- ==== Sys2Proof/Tests/WitnessEngines.lean ====
section
/-! SUPPORT. States and operands that meet the hypotheses of the statements on moves, reduction and training commands. -/

set_option maxRecDepth 100000
set_option Elab.async false

namespace Sys2Proof.Tests
open Sys2Proof.Machine

/-! ### Moves -/

/-- Two FP32 elements of near memory and their copies; 3 a descriptor with an index dimension, 4 its indices, 5 gathered slices. -/
def moves : State :=
  let idx := fun (d : Desc) (h dim : Nat) => { d with raw := d.raw ||| BitVec.ofNat 1024 (h * 2 ^ (8 * 0x78) + (8 + dim) * 2 ^ (8 * 0x7C)) }
  st0 [(6, q0 9), (2048, q0 9)] [(1, mkDesc 0 0 2 0 1 7 nb 0x2000 0 [2, 1] [1, 2]), (2, mkDesc 0 0 2 0 1 9 (nb + 0x20000) 0x2000 0 [2, 1] [1, 2]),
    (3, idx (mkDesc 0 0 2 0 1 7 nb 0x2000 0 [2, 3] [1, 2]) 4 1), (4, mkDesc 0x18 0 1 0 0 0 (nb + 0x30000) 0x8000 0 [2] [1]),
    (5, mkDesc 0 0 2 0 1 9 (nb + 0x40000) 0x2000 0 [2, 2] [1, 2])] mem0
def copyCmd : Cmd := mk 0x50 [(8, 4, 1), (0xC, 4, 2), (0x18, 4, 0xFFFFFFFF)]
theorem witness_MoveCommands : ∃ s1 r, Starts moves 6 copyCmd dmaReserved dmaHandles s1 ∧ Ends (dmaBody false) moves s1 6 copyCmd r ∧ true = true :=
  ran_starts_ends (p := fun _ _ => true) (by decide +kernel)
def compareCmd : Cmd := mk 0x52 [(8, 4, 1), (0xC, 4, 0), (0x10, 8, 0), (0x18, 4, 0xFFFFFFFF)]
/-- The hypotheses of the statement of DMA commands. -/
def dmaReady (c : Cmd) (s1 : State) : Bool :=
  let j := s1.job 1
  let e := exeOf 6 (moves.queue 6)
  let o : DmaOps := ⟨optOperand [] j (cmdField c 8 4), optOperand [] j (cmdField c 0x0C 4), optOperand [] j (cmdField c 0x20 4)⟩
  quietNear s1 && dmaOk c e o && cmdField c 0x2C 4 == 0 && ((o.src.toList ++ o.dst.toList).all fun t => flat t && (fmtOf t.fmt).isSome) &&
    cmdField c 0x18 4 == 0xFFFFFFFF && !(cmdField c 0x30 1).testBit 7 && !bufferHeld s1 0
theorem witness_Copy_completes : ∃ s1, Starts moves 6 copyCmd dmaReserved dmaHandles s1 ∧ dmaReady copyCmd s1 = true := starts_start (p := dmaReady copyCmd) (by decide +kernel)
theorem witness_Compare_completes : ∃ s1, Starts moves 6 compareCmd dmaReserved dmaHandles s1 ∧ dmaReady compareCmd s1 = true :=
  starts_start (p := dmaReady compareCmd) (by decide +kernel)
def fillCmd : Cmd := mk 0x51 [(0xC, 4, 2), (0x10, 8, 7), (0x18, 4, 0xFFFFFFFF)]
theorem witness_Fill_completes : ∃ s1, Starts moves 6 fillCmd dmaReserved dmaHandles s1 ∧ dmaReady fillCmd s1 = true :=
  starts_start (p := dmaReady fillCmd) (by decide +kernel)
def transposeCmd : Cmd := mk 0x53 [(8, 4, 3), (0xC, 4, 5), (0x18, 4, 0xFFFFFFFF)]
/-- Matrices of two rows and of two columns. -/
def turned : State := { moves with jobs := [(1, { moves.job 1 with descs := [(3, mkDesc 0 0 2 0 1 7 nb 0x2000 0 [2, 3] [1, 2]), (5, mkDesc 0 0 2 0 1 9 (nb + 0x40000) 0x2000 0 [3, 2] [1, 3])] })] }
theorem witness_TransposeCopy_completes : ∃ s1, Starts turned 6 transposeCmd dmaReserved dmaHandles s1 ∧ dmaReady transposeCmd s1 = true :=
  starts_start (p := dmaReady transposeCmd) (by decide +kernel)
/-- The last row of both matrices, completing on a LIVE semaphore. -/
def rowCmd : Cmd := mk 0x50 [(8, 4, 3), (0xC, 4, 6), (0x18, 4, 5), (0x24, 4, 2), (0x28, 4, 2), (0x2C, 4, 1)]
def rows : State := { moves with
  sems := [(5, { value := 3, st := .live })]
  jobs := [(1, { moves.job 1 with descs := [(3, mkDesc 0 0 2 0 1 7 nb 0x2000 0 [2, 3] [1, 2]), (6, mkDesc 0 0 2 0 1 9 (nb + 0x40000) 0x2000 0 [2, 3] [1, 2])] })] }
theorem witness_Copy_selects : ∃ s1, Starts rows 6 rowCmd dmaReserved dmaHandles s1 ∧ (selInside (optOperand [] (s1.job 1) 3) 2 1 && selInside (optOperand [] (s1.job 1) 6) 2 1 &&
    semCheck s1 0 5 == stOk && dmaOk rowCmd (exeOf 6 (rows.queue 6)) ⟨optOperand [] (s1.job 1) 3, optOperand [] (s1.job 1) 6, none⟩) = true :=
  starts_start (p := fun s1 => selInside (optOperand [] (s1.job 1) 3) 2 1 && selInside (optOperand [] (s1.job 1) 6) 2 1 &&
    semCheck s1 0 5 == stOk && dmaOk rowCmd (exeOf 6 (rows.queue 6)) ⟨optOperand [] (s1.job 1) 3, optOperand [] (s1.job 1) 6, none⟩) (by decide +kernel)
def gathCmd (op a b : Nat) : Cmd := mk op [(8, 4, a), (0xC, 4, b), (0x14, 4, 2), (0x18, 4, 0xFFFFFFFF)]
/-- The hypotheses of the statement of GATHER and SCATTER. -/
def gathReady (c : Cmd) (sc : Bool) (s1 : State) : Bool :=
  let j := s1.job 1
  let src := operandOf [] j (cmdField c 8 4)
  let dst := operandOf [] j (cmdField c 0x0C 4)
  let side := if sc then dst else src
  let o : GOps := ⟨src, dst, operandOf [] j side.indexH⟩
  quietNear s1 && side.idxEn && namable [] j side.indexH && gatherOk c (exeOf 2048 (moves.queue 2048)) sc o && pairOk src dst &&
    decide (cmdField c 0x10 4 + cmdField c 0x14 4 ≤ o.idx.count) && side.ext.all (0 < ·) && flat src && flat dst && flat o.idx && (fmtOf src.fmt).isSome && (fmtOf dst.fmt).isSome &&
    !o.dst.oobFault && cmdField c 0x18 4 == 0xFFFFFFFF && !(cmdField c 0x20 1).testBit 6
theorem witness_Gather_completes : ∃ s1, Starts moves 2048 (gathCmd 0x60 3 5) gatherReserved gatherHandles s1 ∧ gathReady (gathCmd 0x60 3 5) false s1 = true :=
  starts_start (p := gathReady (gathCmd 0x60 3 5) false) (by decide +kernel)
theorem witness_Scatter_completes : ∃ s1, Starts moves 2048 (gathCmd 0x61 5 3) gatherReserved gatherHandles s1 ∧ gathReady (gathCmd 0x61 5 3) true s1 = true :=
  starts_start (p := gathReady (gathCmd 0x61 5 3) true) (by decide +kernel)

/-! ### Reduction and training commands -/

/-- A context queue on a ring of two modules: descriptors 1 and 2 of a GATHER, 3 to 5 of a SUM of 1 MiB with its accumulator. -/
def reducing : State := { st0 [(ctxQ.toNat, { q0 9 with job := 1 }), (5, q0 9)] [] mem0 with jobs := [(1, { ringJob with
  descs := ringJob.descs.take 2 ++ [(3, mkDesc 0 0 1 0 0 0 nearBase 0x100000 0 [0x40000] [1]), (4, mkDesc 0 0 1 0 1 0 (nearBase + 0x400000) 0x80000 0 [0x20000] [1]),
    (5, mkDesc 0 0 1 0 1 0 (nearBase + 0x800000) 0x100000 0 [0x40000] [1])] })] }
/-- A SUM of two steps. -/
def twoSteps : Cmd := mk 0x70 [(8, 4, 3), (0xC, 4, 4), (0x10, 4, 5), (0x18, 4, 0xFFFFFFFF), (0x20, 4, 0xFFFFFFFF), (0x35, 1, 1)]
theorem witness_RedBucket : ∃ s1 r, Starts reducing ctxQ gatherCmd bucketReserved bucketHandles s1 ∧ Ends bucketBody reducing s1 ctxQ gatherCmd r ∧
    ((s1.queue ctxQ).started.isEmpty && !r.w.done) = true := ran_starts_ends (p := fun s1 r => (s1.queue ctxQ).started.isEmpty && !r.w.done) (by decide +kernel)
/-- The hypotheses of the statement of RED_BUCKET. -/
def bucketReady (c : Cmd) (sending : Bool) (s1 : State) : Bool :=
  let j := s1.job 1
  let o : BucketOps := ⟨operandOf [] j (cmdField c 8 4), operandOf [] j (cmdField c 0x0C 4), optOperand [] j (cmdField c 0x10 4), optOperand [] j (cmdField c 0x14 4)⟩
  quietNear s1 && bucketOk c (exeOf ctxQ (reducing.queue ctxQ)) j o && cmdField c 0x18 4 == 0xFFFFFFFF && cmdField c 0x20 4 == 0xFFFFFFFF && (s1.ctx ctxQ).cur.isNone &&
    (s1.ctx ctxQ).round.isNone && j.reshard.isNone && j.verdict.isNone && (s1.queue ctxQ).started.isEmpty && sends c j.step == sending &&
    (sending || (readable o.src && o.acc.toList.all readable))
theorem witness_RedBucket_launched : ∃ s1, Starts reducing ctxQ gatherCmd bucketReserved bucketHandles s1 ∧ bucketReady gatherCmd true s1 = true :=
  starts_start (p := bucketReady gatherCmd true) (by decide +kernel)
theorem witness_RedBucket_accumulates : ∃ s1, Starts reducing ctxQ twoSteps bucketReserved bucketHandles s1 ∧ bucketReady twoSteps false s1 = true :=
  starts_start (p := bucketReady twoSteps false) (by decide +kernel)
def flushCmd : Cmd := mk 0x71 [(8, 1, 0), (0x0A, 2, 3)]
theorem witness_RedFlush : ∃ s1 r, Starts reducing ctxQ flushCmd flushOk (fun _ => []) s1 ∧ Ends flushBody reducing s1 ctxQ flushCmd r ∧ (exeOf ctxQ (reducing.queue ctxQ) == .re 0 0 0 &&
    (s1.queue (ctxQueue 0 0 (cmdField flushCmd 8 1 % 64))).st != .free && (s1.queue (ctxQueue 0 0 (cmdField flushCmd 8 1 % 64))).job.toNat == (reducing.queue ctxQ).job.toNat) = true :=
  ran_starts_ends (p := fun s1 _ => exeOf ctxQ (reducing.queue ctxQ) == .re 0 0 0 &&
    (s1.queue (ctxQueue 0 0 (cmdField flushCmd 8 1 % 64))).st != .free && (s1.queue (ctxQueue 0 0 (cmdField flushCmd 8 1 % 64))).job.toNat == (reducing.queue ctxQ).job.toNat)
    (by decide +kernel)
def reshardCmd : Cmd := mk 0x72 [(8, 1, 1)]
theorem witness_Reshard : ∃ s1, Starts reducing ctxQ reshardCmd reshardOk (fun _ => []) s1 ∧ (match s1.job? 1 with
    | some j => j.reshard.isNone && cmdField reshardCmd 8 1 == (j.epoch + 1).toNat
    | none => false) = true := starts_start (p := fun s1 => match s1.job? 1 with
    | some j => j.reshard.isNone && cmdField reshardCmd 8 1 == (j.epoch + 1).toNat
    | none => false) (by decide +kernel)
/-- A vector unit with one element of a master, momenta, a gradient, a working copy and the hyperparameters, in a closed step. -/
def training : State :=
  let s := st0 [(4, q0 9)] [(1, mkDesc 5 1 1 0 1 7 nb 0x1000 (nb + 0x100) [1] [1]), (2, mkDesc 5 1 1 0 1 8 (nb + 0x2000) 0x1000 (nb + 0x2100) [1] [1]),
    (3, mkDesc 5 1 1 0 1 9 (nb + 0x3000) 0x1000 (nb + 0x3100) [1] [1]), (4, mkDesc 2 0 1 0 0 10 (nb + 0x4000) 0x1000 0 [1] [1]),
    (5, mkDesc 0x0C 1 1 0 1 11 (nb + 0x6000) 0x1000 (nb + 0x6100) [1] [1]), (6, mkDesc 0 0 1 0 0 0 (nb + 0x5000) 64 0 [16] [1])]
    (memPut (nb + 0x5000) ([0x3B800000, 0x3F600000, 0x3F7E0000, 0x2B800000, 0x3E000000, 0x3F800000, 0x3F800000, 0x3F800000].flatMap (leBytes 4)) mem0)
  s.setJob 1 { s.job 1 with closed := true, lStep := 16 }
/-- The same in a step that overflowed. -/
def overflown : State := training.setJob 1 { training.job 1 with overflowed := true }
def optCmd : Cmd := mk 0x80 [(8, 4, 1), (0xC, 4, 2), (0x10, 4, 3), (0x14, 4, 4), (0x18, 4, 5), (0x1C, 4, 6), (0x24, 1, 0x40)]
theorem witness_OptUpdate : ∃ s1 r, Starts overflown 4 optCmd optReserved optHandles s1 ∧ Ends optBody overflown s1 4 optCmd r ∧ true = true :=
  ran_starts_ends (p := fun _ _ => true) (by decide +kernel)
/-- The hypotheses of the statement of OPT_UPDATE: the block of hyperparameters reads with its reserved bytes zero. -/
def optReady (s1 : State) : Bool :=
  let j := s1.job 1
  let o : OptOps := ⟨operandOf [] j (cmdField optCmd 8 4), operandOf [] j (cmdField optCmd 0x0C 4), optOperand [] j (cmdField optCmd 0x10 4), operandOf [] j (cmdField optCmd 0x14 4),
      optOperand [] j (cmdField optCmd 0x18 4), operandOf [] j (cmdField optCmd 0x1C 4)⟩
  quietNear s1 && optOps s1 optCmd (exeOf 4 (training.queue 4)) j o && (match (ExceptT.run (hyperM o.hyper)).run (headRun s1 4 (training.queue 4) optCmd) with
    | (.ok (h, z), _) => z && h.ok (bits (cmdField optCmd 0x24 1) 6 2)
    | _ => false) && o.work.toList.all fun t => (fmtOf t.fmt).isSome && t.layout != 3
theorem witness_OptUpdate_completes : ∃ s1, Starts training 4 optCmd optReserved optHandles s1 ∧ optReady s1 = true := starts_start (p := optReady) (by decide +kernel)
def closeCmd : Cmd := mk 0x81 []
/-- A vector unit in an open step. -/
def openStep : State := training.setJob 1 { training.job 1 with closed := false }
theorem witness_Open : ∃ s1, Starts training 4 (mk 0x81 [(8, 1, 1)]) lossReserved lossHandles s1 ∧ (match s1.job? 1 with
    | some j => j.closed
    | none => false) = true := starts_start (p := fun s1 => match s1.job? 1 with
    | some j => j.closed
    | none => false) (by decide +kernel)
theorem witness_Close : ∃ s1 r, Starts openStep 4 closeCmd lossReserved lossHandles s1 ∧ Ends closeBody openStep s1 4 closeCmd r ∧
    (quietNear s1 && (s1.job 1).verdict.isNone && !(s1.job 1).closed && cmdField closeCmd 0x10 8 == 0) = true :=
  ran_starts_ends (p := fun s1 _ => quietNear s1 && (s1.job 1).verdict.isNone && !(s1.job 1).closed && cmdField closeCmd 0x10 8 == 0) (by decide +kernel)
/-- CLOSE of an open step with a verdict round on axis A, its overflow report and its histogram written. -/
def roundCmd : Cmd := mk 0x81 [(9, 1, 1), (0xC, 4, ctxQ.toNat), (0x10, 4, 7), (0x14, 4, 8)]
def openRing : State :=
  { st0 [(4, q0 9), (ctxQ.toNat, q0 9)] [] mem0 with
    jobs := [(1, { ringJob with lStep := 16, descs := [(7, mkDesc 0 0 1 0 1 0 nb 64 0 [2] [1]), (8, mkDesc 0x19 0 1 0 1 0 (nb + 256) 64 0 [8] [1])] })] }
theorem witness_Close_round : ∃ s1, Starts openRing 4 roundCmd lossReserved lossHandles s1 ∧ (quietNear s1 && (s1.job 1).verdict.isNone && !(s1.job 1).closed &&
    cmdField roundCmd 9 1 % 16 == 1 && decide (2 ≤ (s1.job 1).p.getD 0 1) && axesOf 1 == [0] && chainQueueOk s1 (cmdField roundCmd 0x0C 4) 1 &&
    nearDst (exeOf 4 (openRing.queue 4)) (operandOf [] (s1.job 1) 7) && (operandOf [] (s1.job 1) 7).fmt == 0 && (operandOf [] (s1.job 1) 7).count == 2 &&
    nearDst (exeOf 4 (openRing.queue 4)) (operandOf [] (s1.job 1) 8) && reportOk (operandOf [] (s1.job 1) 8)) = true :=
  starts_start (p := fun s1 => quietNear s1 && (s1.job 1).verdict.isNone && !(s1.job 1).closed &&
    cmdField roundCmd 9 1 % 16 == 1 && decide (2 ≤ (s1.job 1).p.getD 0 1) && axesOf 1 == [0] && chainQueueOk s1 (cmdField roundCmd 0x0C 4) 1 &&
    nearDst (exeOf 4 (openRing.queue 4)) (operandOf [] (s1.job 1) 7) && (operandOf [] (s1.job 1) 7).fmt == 0 && (operandOf [] (s1.job 1) 7).count == 2 &&
    nearDst (exeOf 4 (openRing.queue 4)) (operandOf [] (s1.job 1) 8) && reportOk (operandOf [] (s1.job 1) 8)) (by decide +kernel)

end Sys2Proof.Tests
end

