-- ==== Sys2Proof/Tests/WitnessMasks.lean ====
section
/-! SUPPORT. States and operands that meet the hypotheses of the statements on mask commands and PREDICT. -/

set_option maxRecDepth 100000
set_option Elab.async false

namespace Sys2Proof.Tests
open Sys2Proof.Machine

/-! ### Mask commands -/

/-- The mask unit of core 0: 1 a weight of one tile whose quads are empty, 2 a score or gradient, 4 proposals, 5 a report, 6 a companion. -/
def masks : State := { st0 [(5, q0 9)]
  [(1, mkDesc 0x0C 3 2 0 1 0x123 nb 0x6000 0 [8, 4] []), (2, mkDesc 0 0 2 0 1 0 (nb + 0x10000) 0x2000 0 [8, 4] [1, 8]),
   (3, mkDesc 0 0 2 0 1 0 (nb + 0x11000) 0x2000 0 [8, 4] [1, 8]), (4, mkDesc 0x19 0 1 0 1 0 (nb + 0x20000) 0x10000 0 [4096] [1]),
   (5, mkDesc 0x1B 0 1 0 1 0 (nb + 0x40000) 32 0 [32] [1]), (6, mkDesc 0 0 1 0 1 0 (nb + 0x80000) 0x20000 0 [32768] [1])]
  (memPut nb (hdrBytes 4 0x0C 0x20 41 0 0x123) mem0) with masks := [(0x123, { job := 1, epoch := 41 })] }
/-- The same in an overflowed step, whose mask work is skipped where a command asks. -/
def masksOver : State := masks.setJob 1 { masks.job 1 with overflowed := true }
def pruneSkip : Cmd := mk 0x41 [(8, 4, 1), (0x10, 4, 1), (0x14, 4, 2), (0x18, 4, 4), (0x1C, 4, 5), (0x30, 1, 0x80)]
theorem witness_MaskCommands : ∃ s1 r, Starts masksOver 5 pruneSkip selectOk selectHandles s1 ∧ Ends pruneBody masksOver s1 5 pruneSkip r ∧ true = true :=
  ran_starts_ends (p := fun _ _ => true) (by decide +kernel)

/-- The weight. -/
def weight : TDesc := operandOf [] (masks.job 1) 1
/-- A run of the mask unit. -/
def maskRun (s1 : State) (c : Cmd) : Run := headRun s1 5 (masks.queue 5) c
/-- Bytes beyond the header of the weight's tile, which nothing has written. -/
theorem zeros_read {s : State} (hm : s.mem = masks.mem) {a : Nat} (ha : nb + 16 ≤ a) (n : Nat) : physRead s a n = List.replicate n 0 := by
  have low : ∀ d ∈ masks.mem, d.1 < nb + 16 := by decide +kernel
  have zero : ∀ (l : List Host.Cell) x, (∀ d ∈ l, d.1 < nb + 16) → nb + 16 ≤ x → memGet l x = 0 := by
    intro l x h hx
    induction l with
    | nil => rfl
    | cons d r ih =>
      have := h d (List.mem_cons_self ..)
      unfold memGet
      rw [if_neg (by omega)]
      exact ih fun e he => h e (List.mem_cons_of_mem _ he)
  rw [physRead, hm, rangeFrom, List.map_map]
  refine List.eq_replicate_iff.mpr ⟨by simp, fun b hb => ?_⟩
  obtain ⟨i, -, rfl⟩ := List.mem_map.mp hb
  exact zero _ _ low (show nb + 16 ≤ a + i by omega)
/-- A run that sees the small state's memory and registry, with nothing to wait for. -/
def Sees (r : Run) : Prop :=
  (r.s.poison = [] ∧ ∀ g, pendingWrites r.s r.q r.w.idx g = 0) ∧ r.s.mem = masks.mem ∧ (tfind r.s.masks 0x123).isSome = true
theorem reads_zeros {r : Run} (hr : Sees r) {t a : Nat} (ht : t = 0) (ha : nb + 16 ≤ a) (n : Nat) : Reads (readM t a n) r (List.replicate n 0) := by
  subst ht
  have h := reads_readM hr.1 a n
  rwa [zeros_read hr.2.1 ha] at h
theorem reads_mapEach {α β : Type} {r : Run} {g : α → M β} {b : β} (l : List α) (h : ∀ a ∈ l, Reads (g a) r b) : Reads (mapEach l g) r (l.map fun _ => b) := by
  induction l with
  | nil => rfl
  | cons a l ih => exact reads_bind (h a (List.mem_cons_self ..)) (reads_bind (ih fun x hx => h x (List.mem_cons_of_mem _ hx)) rfl)
/-- Every quad of the weight's tile is empty. -/
theorem quad_reads : ∃ x, ∀ r, Sees r → ∀ q, Reads (readQuad weight nb q) r x := by
  have h : ((List.range 4).mapM (quadPositions weight.twKind (if weight.twKind then (List.range 128).map (fun i => bits (leNat (List.replicate weight.patBytes 0)) (3 * i) 3)
      else (List.range 32).map fun i => bits (leNat (List.replicate weight.patBytes 0)) (7 * i) 7))).isSome = true := by decide +kernel
  obtain ⟨k, hk⟩ := Option.isSome_iff_exists.mp h
  let sc := if isBlockFmt weight.fmt then 8 else 0
  refine ⟨⟨k, (List.range 4).map (fun c => (List.range 64).map fun j => bits (leNat (List.replicate (32 * weight.width) 0)) (64 * weight.width * c + j * weight.width) weight.width),
    if sc = 0 then List.replicate 8 0 else (List.replicate sc (0 : Byte)).map (·.toNat), if weight.twKind then (List.range 128).map (fun i => bits (leNat (List.replicate weight.patBytes 0)) (3 * i) 3)
      else (List.range 32).map fun i => bits (leNat (List.replicate weight.patBytes 0)) (7 * i) 7⟩, fun r hr q => ?_⟩
  unfold readQuad
  refine reads_bind (reads_zeros hr (by decide +kernel) (by omega) _) (reads_bind (reads_zeros hr (by decide +kernel) (by omega) _) (reads_bind (reads_zeros hr (by decide +kernel) (by omega) _) ?_))
  dsimp only
  rw [hk]
  exact rfl
/-- The weight's tile reads well in every run that sees the small state. -/
theorem tile_reads : ∃ t, t.num = 0 ∧ ∀ r, Sees r → Reads (readWTile weight 41 0) r t := by
  obtain ⟨x, hx⟩ := quad_reads
  have ht : weight.tier = 0 := by decide +kernel
  have hb : weight.base + 0 * weight.wtileSize = nb := by decide +kernel
  have hh : (let h := parseHdr (physRead masks nb 16)
      kindAllowed weight h.kind && h.level == 1 && h.fmt == weight.fmt && h.rsvd == 0 && h.flags % 32 == 0 && (!h.escape || h.kind == 1) && h.tid == 0x123 &&
        (h.masked && h.tid == weight.tid) && h.epoch == 41) = true := by decide +kernel
  simp only [Bool.and_eq_true, beq_iff_eq] at hh
  refine ⟨⟨0, nb, parseHdr (physRead masks nb 16), (List.range 128).map fun _ => x⟩, rfl, fun r hr => ?_⟩
  unfold readWTile
  rw [hb, ht]
  have hd : physRead r.s nb 16 = physRead masks nb 16 := by rw [physRead, hr.2.1]; rfl
  refine reads_bind (hd ▸ reads_readM hr.1 nb 16) (reads_bind (a := ()) ?_ ?_)
  · unfold checkHdr
    refine reads_bind (a := r.s) rfl ?_
    rw [hh.1.1.2, if_pos (by simp [hh.1.1.1, hr.2.2])]
    exact rfl
  · rw [if_pos (by simp [hh.1.2])]
    refine reads_bind (reads_mapEach _ fun q _ => hx r hr q) (reads_bind (a := ()) ?_ rfl)
    unfold epochCheck
    rw [if_pos hh.2]
    exact rfl
theorem maskRun_sees {s1 : State} (c : Cmd) (hp : quietNear s1 = true) (hm : s1.mem = masks.mem) (hk : s1.masks = masks.masks) : Sees (maskRun s1 c) :=
  ⟨nearClear_of_quiet hp 5 _, hm, by show (tfind s1.masks 0x123).isSome = true; rw [hk]; decide +kernel⟩
theorem weight_reads {s1 : State} {c : Cmd} (hp : quietNear s1 = true) (hm : s1.mem = masks.mem) (hk : s1.masks = masks.masks) :
    ∃ t, Reads (readWTile weight 41 0) (maskRun s1 c) t := by
  obtain ⟨t, -, h⟩ := tile_reads
  exact ⟨t, h _ (maskRun_sees c hp hm hk)⟩
/-- The hypotheses that the statements of mask commands share, tile 0 being named. -/
def maskReady (s1 : State) (c : Cmd) (more : Exe → TDesc → (Nat → TDesc) → Bool) : Bool :=
  let j := s1.job 1
  let e := exeOf 5 (masks.queue 5)
  quietNear s1 && s1.mem == masks.mem && s1.masks == masks.masks && operandOf [] j (cmdField c 8 4) == weight && weight.tier == 0 && srcOk e weight &&
    weight.layout == 3 && (match tfind s1.masks weight.tid with
      | some m => m.st == .idle && m.refs == 0 && m.epoch == 41
      | none => false) && weight.wTiles == 1 && more e weight (fun k => operandOf [] j (maskArg c k))
theorem mask_starts {c : Cmd} {resv : Cmd → Bool} {handles : Cmd → List Nat} {more : Exe → TDesc → (Nat → TDesc) → Bool}
    (h : starts masks 5 c resv handles (fun s1 => maskReady s1 c more) = true) :
    ∃ s1, Starts masks 5 c resv handles s1 ∧ (∃ t, Reads (readWTile weight 41 0) (maskRun s1 c) t) ∧ maskReady s1 c more = true := by
  obtain ⟨s1, h1, h2⟩ := starts_start h
  refine ⟨s1, h1, ?_, h2⟩
  unfold maskReady at h2
  simp only [Bool.and_eq_true, beq_iff_eq] at h2
  exact weight_reads h2.1.1.1.1.1.1.1.1.1 h2.1.1.1.1.1.1.1.1.2 h2.1.1.1.1.1.1.1.2
def scoreCmd : Cmd := mk 0x40 [(8, 4, 1), (0x10, 4, 1), (0x14, 4, 2), (0x18, 4, 3), (0x1C, 4, 0x3F800000), (0x30, 1, 0x40)]
def scoreReady (e : Exe) (w : TDesc) (x : Nat → TDesc) : Bool :=
  readable (x 0) && srcOk e (x 0) && writable e (x 1) && flat (x 1) && scoreOk w (x 1) && denseOk w (x 0)
theorem witness_MaskScore_completes : ∃ s1, Starts masks 5 scoreCmd (maskOk true [3, 4, 5, 6]) scoreHandles s1 ∧
    (∃ t, Reads (readWTile weight 41 0) (maskRun s1 scoreCmd) t) ∧ maskReady s1 scoreCmd scoreReady = true := mask_starts (by decide +kernel)
def pruneCmd : Cmd := mk 0x41 [(8, 4, 1), (0x10, 4, 1), (0x14, 4, 2), (0x18, 4, 4), (0x1C, 4, 5)]
def pruneReady (e : Exe) (w : TDesc) (x : Nat → TDesc) : Bool :=
  readable (x 0) && srcOk e (x 0) && scoreOk w (x 0) && flat (x 1) && dstOk e (x 1) && proposalOk w (x 1) && (x 2).tier == 0 && dstOk e (x 2) && reportOk (x 2)
theorem witness_Prune_completes : ∃ s1, Starts masks 5 pruneCmd selectOk selectHandles s1 ∧
    (∃ t, Reads (readWTile weight 41 0) (maskRun s1 pruneCmd) t) ∧ maskReady s1 pruneCmd pruneReady = true := mask_starts (by decide +kernel)
def regrowCmd : Cmd := mk 0x42 [(8, 4, 1), (0x10, 4, 1), (0x14, 4, 2), (0x18, 4, 4), (0x1C, 4, 5)]
theorem witness_Regrow_completes : ∃ s1, Starts masks 5 regrowCmd selectOk selectHandles s1 ∧
    (∃ t, Reads (readWTile weight 41 0) (maskRun s1 regrowCmd) t) ∧ maskReady s1 regrowCmd pruneReady = true := mask_starts (by decide +kernel)
/-- MASK_SCORE from a companion. -/
def companionCmd : Cmd := mk 0x40 [(8, 4, 1), (0x10, 4, 1), (0x14, 4, 6), (0x18, 4, 3)]
def companionReady (e : Exe) (w : TDesc) (x : Nat → TDesc) : Bool :=
  readable (x 0) && srcOk e (x 0) && writable e (x 1) && flat (x 1) && scoreOk w (x 1) && companionOk w (x 0) && maskArg companionCmd 2 == 0
theorem witness_MaskScore_companion : ∃ s1, Starts masks 5 companionCmd (maskOk true [3, 4, 5, 6]) scoreHandles s1 ∧
    (∃ t, Reads (readWTile weight 41 0) (maskRun s1 companionCmd) t) ∧ maskReady s1 companionCmd companionReady = true := mask_starts (by decide +kernel)
def maskGatherCmd : Cmd := mk 0x45 [(8, 4, 1), (0x10, 4, 1), (0x14, 4, 2), (0x18, 4, 6)]
def maskGatherReady (e : Exe) (w : TDesc) (x : Nat → TDesc) : Bool :=
  readable (x 0) && srcOk e (x 0) && denseOk w (x 0) && writable e (x 1) && companionOk w (x 1) && (x 1).fmt != 5
theorem witness_MaskGather_completes : ∃ s1, Starts masks 5 maskGatherCmd (maskOk false [2, 3, 4, 5, 6]) scoreHandles s1 ∧
    (∃ t, Reads (readWTile weight 41 0) (maskRun s1 maskGatherCmd) t) ∧ maskReady s1 maskGatherCmd maskGatherReady = true := mask_starts (by decide +kernel)
/-- A commit of that weight, its proposals, its companion and its report. -/
def commitCmd : Cmd := mk 0x43 [(8, 4, 1), (0x14, 4, 4), (0x18, 4, 6), (0x2C, 4, 5)]
/-- The proposals. -/
def proposed : TDesc := operandOf [] (masks.job 1) 4
theorem leNat_zeros (n : Nat) : leNat (List.replicate n 0) = 0 := by
  induction n with
  | zero => rfl
  | succ n ih => rw [List.replicate_succ, leNat, show leNat (List.replicate n 0) = 0 from ih]; rfl
/-- The proposals read as zeros, none of which is faulty. -/
theorem proposals_read {s1 : State} (hp : quietNear s1 = true) (hm : s1.mem = masks.mem) (hk : s1.masks = masks.masks) :
    ∃ t ps, Reads (readWTile weight 41 0) (maskRun s1 commitCmd) t ∧ Reads (proposalsM weight proposed t.num) (maskRun s1 commitCmd) ps ∧
      ((unitsOf weight t).zip ps).all (fun u => !entryBad weight.twKind u.2 u.1.pat) = true := by
  obtain ⟨t, ht, h⟩ := tile_reads
  have hs := maskRun_sees commitCmd hp hm hk
  have hl : proposed.layout = 0 ∧ proposed.tier = 0 ∧ proposed.block = 1 ∧ proposed.width = 32 ∧ proposed.base = nb + 0x20000 ∧ proposed.stride = [1] := by decide +kernel
  have hr : ∀ c, Reads (readBits proposed.tier (proposed.bitAddr 0 c) proposed.width) (maskRun s1 commitCmd) 0 := by
    intro c
    have ha : proposed.bitAddr 0 c = 8 * (nb + 0x20000) + 32 * c := by
      unfold TDesc.bitAddr TDesc.offset
      rw [hl.1, hl.2.2.2.1, hl.2.2.2.2.1, hl.2.2.2.2.2]
      simp only [strideOff]
      split <;> omega
    unfold readBits
    refine reads_bind (reads_zeros hs hl.2.1 (by omega) _) ?_
    rw [leNat_zeros]
    simp only [bits, Nat.zero_mod, Nat.zero_shiftRight]
    exact rfl
  have hc : Reads (readCodes proposed 0 (weight.wUnits * t.num) weight.wUnits) (maskRun s1 commitCmd) ((rangeFrom (weight.wUnits * t.num) weight.wUnits).map fun _ => (0, 0)) := by
    unfold readCodes
    rw [if_neg (by rw [hl.1]; decide), if_neg (by rw [hl.1]; decide)]
    refine reads_mapEach _ fun c _ => reads_bind (hr c) ?_
    dsimp only
    rw [if_pos hl.2.2.1]
    rfl
  refine ⟨t, _, h _ hs, reads_bind hc rfl, ?_⟩
  refine List.all_eq_true.mpr fun u hu => ?_
  have h2 : u.2 = 0 := by
    obtain ⟨e, he, hv⟩ := List.mem_map.mp (List.of_mem_zip (show (u.1, u.2) ∈ _ from hu)).2
    obtain ⟨-, -, rfl⟩ := List.mem_map.mp he
    exact hv.symm
  rw [h2]
  have : weight.twKind = false := by decide +kernel
  rw [this]
  simp [entryBad, bits]
theorem witness_MaskCommit_tiles : ∃ s1, Starts masks 5 commitCmd (maskOk false []) commitHandles s1 ∧
    (∃ t ps, Reads (readWTile weight 41 0) (maskRun s1 commitCmd) t ∧ Reads (proposalsM weight proposed t.num) (maskRun s1 commitCmd) ps ∧
      ((unitsOf weight t).zip ps).all (fun u => !entryBad weight.twKind u.2 u.1.pat) = true) ∧
    maskReady s1 commitCmd (fun e w x => w.access == 1 && flat (x 0) && dstOk e (x 0) && proposalOk w (x 0) && (x 1).tier == 0 && dstOk e (x 1) && companionOk w (x 1) &&
      (x 6).tier == 0 && dstOk e (x 6) && reportOk (x 6)) = true := by
  obtain ⟨s1, h1, h2⟩ := starts_start (p := fun s1 => maskReady s1 commitCmd (fun e w x => w.access == 1 && flat (x 0) && dstOk e (x 0) && proposalOk w (x 0) &&
    (x 1).tier == 0 && dstOk e (x 1) && companionOk w (x 1) && (x 6).tier == 0 && dstOk e (x 6) && reportOk (x 6)))
    (show starts masks 5 commitCmd (maskOk false []) commitHandles _ = true by decide +kernel)
  refine ⟨s1, h1, ?_, h2⟩
  unfold maskReady at h2
  simp only [Bool.and_eq_true, beq_iff_eq] at h2
  exact proposals_read h2.1.1.1.1.1.1.1.1.1 h2.1.1.1.1.1.1.1.1.2 h2.1.1.1.1.1.1.1.2
/-- The same with a weight without tiles, whose commit may be waiting already. -/
def bare (st : RegState) (commit : Option (QNum × Cmd)) : State := { st0 [(5, q0 9)]
  [(1, mkDesc 0x0C 3 2 0 1 0x123 nb 0x6000 0 [8, 0] []), (4, mkDesc 0x19 0 1 0 1 0 (nb + 0x20000) 0x10000 0 [0] [1]),
   (5, mkDesc 0x1B 0 1 0 1 0 (nb + 0x40000) 32 0 [32] [1]), (6, mkDesc 0 0 1 0 1 0 (nb + 0x80000) 0x20000 0 [0] [1])] mem0 with
  masks := [(0x123, { job := 1, epoch := 41, st := st, commit := commit })] }
def commitReady (s1 : State) (m : MaskEntry) : Bool :=
  let j := s1.job 1
  let e := exeOf 5 (s1.queue 5)
  let w := operandOf [] j (cmdField commitCmd 8 4)
  let x := operandOf [] j (maskArg commitCmd 0)
  let y := operandOf [] j (maskArg commitCmd 1)
  let z := operandOf [] j (maskArg commitCmd 6)
  quietNear s1 && w.tier == 0 && srcOk e w && w.layout == 3 && tfind s1.masks w.tid == some m && m.refs == 0 && cmdField commitCmd 0x0C 8 == 0 && w.access == 1 &&
    flat x && dstOk e x && proposalOk w x && y.tier == 0 && dstOk e y && companionOk w y && z.tier == 0 && dstOk e z && reportOk z && w.wTiles == 0
theorem witness_MaskCommit_completes : ∃ s1, Starts (bare .idle none) 5 commitCmd (maskOk false []) commitHandles s1 ∧
    commitReady s1 { job := 1, epoch := 41, st := .idle, commit := none } = true :=
  starts_start (p := fun s1 => commitReady s1 { job := 1, epoch := 41, st := .idle, commit := none }) (by decide +kernel)
theorem witness_MaskRefsReleased_completes : ∃ s1, Starts (bare .commitWait (some (5, commitCmd))) 5 commitCmd (maskOk false []) commitHandles s1 ∧
    commitReady s1 { job := 1, epoch := 41, st := .commitWait, commit := some (5, commitCmd) } = true :=
  starts_start (p := fun s1 => commitReady s1 { job := 1, epoch := 41, st := .commitWait, commit := some (5, commitCmd) }) (by decide +kernel)
theorem witness_MaskRefsReleased : tfind (bare .commitWait (some (5, commitCmd))).masks (0x123#32).toNat =
    some { job := 1, epoch := 41, st := .commitWait, commit := some (5, commitCmd) } := by decide +kernel

/-- A predictor of 32 neurons over one token of one channel: 1 the token, 2 and 3 the factors, 4 a bitmap, 5 the weight whose rows the audit reads. -/
def predictor : State := st0 [(5, q0 9)] [(1, mkDesc 0 0 2 0 1 0 nb 0x2000 0 [1, 1] [1, 1]), (2, mkDesc 3 0 2 0 1 0 (nb + 0x10000) 0x2000 0 [1, 1] [1, 1]),
  (3, mkDesc 3 0 2 0 1 0 (nb + 0x20000) 0x2000 0 [32, 1] [1, 32]), (4, mkDesc 0x1B 0 2 0 1 0 (nb + 0x30000) 0x2000 0 [4, 1] [1, 4]),
  (5, mkDesc 0 0 2 0 1 0 (nb + 0x40000) 0x2000 0 [1, 32] [1, 1])] mem0
def predictCmd : Cmd := mk 0x44 [(8, 4, 1), (0x0C, 4, 2), (0x10, 4, 3), (0x18, 4, 5), (0x20, 4, 4), (0x2C, 4, 32), (0x38, 4, 1)]
def predictReady (s1 : State) : Bool :=
  let j := s1.job 1
  let o : PredOps := ⟨operandOf [] j (cmdField predictCmd 8 4), operandOf [] j (cmdField predictCmd 0x0C 4), operandOf [] j (cmdField predictCmd 0x10 4), optOperand [] j (cmdField predictCmd 0x14 4),
      optOperand [] j (cmdField predictCmd 0x18 4), optOperand [] j (cmdField predictCmd 0x1C 4), operandOf [] j (cmdField predictCmd 0x20 4), optOperand [] j (cmdField predictCmd 0x24 4),
      optOperand [] j (cmdField predictCmd 0x28 4)⟩
  quietNear s1 && predictOk j predictCmd (exeOf 5 (s1.queue 5)) o && (([o.x, o.p, o.q] ++ o.w1.toList ++ o.sbias.toList ++ o.b1.toList).all readable) &&
    decide (cmdField predictCmd 0x34 4 + cmdField predictCmd 0x38 4 ≤ o.x.rows) && s1.masks.isEmpty
theorem witness_Predict_completes : ∃ s1, Starts predictor 5 predictCmd predictReserved predictHandles s1 ∧ predictReady s1 = true :=
  starts_start (p := predictReady) (by decide +kernel)

end Sys2Proof.Tests
end

