-- ==== Sys2Proof/Tests/WitnessQueues.lean ====
section
/-! SUPPORT. States and operands that meet the hypotheses of the statements on queue heads, arrays and vectors. -/

set_option maxRecDepth 100000
set_option Elab.async false

namespace Sys2Proof.Tests
open Sys2Proof.Machine

/-! ### The start of queue commands -/

/-- A module with queue 0 of an array, queue 4 of a vector unit, and submission queue 4096 of the command processor. -/
def ready : State := st0 [(0, q0 9), (4, q0 9), (4096, { q0 9 with engine := 0xFFFF })] [] mem0
/-- The head of a queue is read and its early checks fail with a status. -/
def earlyFails (s : State) (q : QNum) (c : Cmd) (st : Nat) : Bool :=
  headReady s q c &&
  match fetchHead s q c with
  | .ok (_, s1) =>
    unitOk s1 (exeOf q (s.queue q)) && match earlyChecks (s1.job (s.queue q).job.toNat) (exeOf q (s.queue q)) c ((s.queue q).hold.copies.map (·.1.toNat)) productOk productHandles with
      | some e => e.1 == st
      | none => false
  | _ => false
theorem witness_EarlyChecks : earlyFails ready 0 (BitVec.ofNat 512 0x2010) stLevel = true ∧ earlyFails ready 0 (mk 0x20 []) stOpcode = true ∧
    earlyFails ready 4 (mk 0x10 []) stCmdInvalid = true ∧ earlyFails ready 0 (mk 0x10 [(0x3C, 4, 1)]) stReserved = true ∧
    earlyFails ready 0 (mk 0x10 [(8, 4, 1)]) stDescInvalid = true ∧ opByte (mk 0x20 []) ∉ assignedOpcodes := by decide +kernel
theorem witness_ClosedHead : headOpen State.reset (State.reset.queue 0) (exeOf 0 (State.reset.queue 0)) = false ∧
    headOpen { ready with time := { ready.time with st := .unlocked } } (ready.queue 0) (exeOf 0 (ready.queue 0)) = false := by decide +kernel
theorem witness_Nop : ∃ s1, Starts ready 0 (mk 0 []) nopOk (fun _ => []) s1 := by
  obtain ⟨s1, h, -⟩ := starts_start (show starts ready 0 (mk 0 []) nopOk (fun _ => []) (fun _ => true) = true by decide +kernel)
  exact ⟨s1, h⟩
theorem witness_Fence : ∃ s1, Starts ready 0 (mk 3 [(8, 1, 1)]) fenceOk (fun _ => []) s1 ∧
    ((s1.queue 0).started == [] && jobStarted s1 1 0 == []) = true := starts_start (by decide +kernel)
theorem witness_SetBase : ∃ s1, Starts ready 0 (mk 4 [(8, 1, 2), (0xC, 4, 0x500)]) beatAlignOk (fun _ => []) s1 ∧
    (cmdField (mk 4 [(8, 1, 2), (0xC, 4, 0x500)]) 8 1 % 4 == 2) = true :=
  starts_start (p := fun _ => cmdField (mk 4 [(8, 1, 2), (0xC, 4, 0x500)]) 8 1 % 4 == 2) (by decide +kernel)
/-- BEAT_ALIGN that waits for slot 232 of schedule beat 3. -/
def alignCmd : Cmd := mk 4 [(0xC, 4, 3 * 256 + 232)]
theorem witness_BeatAlign : ∃ s1, Starts ready 0 alignCmd beatAlignOk (fun _ => []) s1 ∧
    (cmdField alignCmd 8 1 % 4 == 0 && whenIs s1 false ((s1.queue 0).target (alignBeat alignCmd)) (cmdField alignCmd 0x0C 1) == .due) = true :=
  starts_start (p := fun s1 => cmdField alignCmd 8 1 % 4 == 0 && whenIs s1 false ((s1.queue 0).target (alignBeat alignCmd)) (cmdField alignCmd 0x0C 1) == .due)
    (by decide +kernel)
theorem witness_BeatAlign_late : ∃ s1, Starts { ready with time := { ready.time with tick := 1028 } } 0 alignCmd beatAlignOk (fun _ => []) s1 ∧
    (whenIs s1 false ((s1.queue 0).target (alignBeat alignCmd)) (cmdField alignCmd 0x0C 1) == .late) = true :=
  starts_start (p := fun s1 => whenIs s1 false ((s1.queue 0).target (alignBeat alignCmd)) (cmdField alignCmd 0x0C 1) == .late) (by decide +kernel)
/-- A queue that has come to its deadline marker of schedule beat 5. -/
def deadlineCmd : Cmd := mk 4 [(8, 1, 1), (0xC, 4, 0x500)]
def atMarker : State := { ready with queues := [(0, { q0 9 with markers := [⟨0, 5⟩] })] }
theorem witness_Deadline : headOpen atMarker (atMarker.queue 0) (exeOf 0 (atMarker.queue 0)) = true ∧ cmdField deadlineCmd 8 1 % 4 = 1 ∧
    ∃ s1, Starts (reachMarker atMarker 0 (atMarker.queue 0).next) 0 deadlineCmd beatAlignOk (fun _ => []) s1 ∧ true = true :=
  ⟨by decide +kernel, by decide +kernel, starts_start (p := fun _ => true) (by decide +kernel)⟩
/-- The module with semaphore 5 LIVE. -/
def semReady : State := { ready with sems := [(5, { value := 3, st := .live })] }
theorem witness_Wait : ∃ s1, Starts semReady 0 (mk 1 [(8, 4, 5), (0x10, 8, 4)]) waitOk (fun _ => []) s1 ∧ (semCheck s1 0 5 == stOk) = true :=
  starts_start (p := fun s1 => semCheck s1 0 5 == stOk) (by decide +kernel)
theorem witness_Signal : ∃ s1, Starts semReady 0 (mk 2 [(8, 1, 1), (0xC, 4, 5), (0x10, 8, 7)]) signalOk (fun _ => []) s1 ∧
    ((s1.queue 0).started == [] && semCheck s1 0 5 == stOk) = true :=
  starts_start (p := fun s1 => (s1.queue 0).started == [] && semCheck s1 0 5 == stOk) (by decide +kernel)
/-- The module with a granted page of host memory, whose function may make atomic requests. -/
def farReady : State :=
  { ready with
    mem := memPut 0x10010008 (leBytes 8 (2 ^ 30 + 64 + 7)) mem0
    funcs := [(0, { root := BitVec.ofNat 64 (rootPa + 1), ats := [(2 ^ 14, .granted 0)], atomicEnable := true })] }
/-- SIGNAL of a word in host memory, as SET or as ADD. -/
def signalFar (add : Bool) : Cmd := mk 2 [(8, 1, if add then 3 else 2), (0x10, 8, 7), (0x18, 8, 2 ^ 30)]
/-- The write of that word goes through, whatever an atomic request found there. -/
def farWritten (c : Cmd) (add : Bool) (s1 : State) : Bool :=
  let (old, u) := if add then drawWord s1 else (0, s1)
  (s1.queue 0).started.isEmpty && cmdField c 0x18 8 % 8 == 0 && (!add || atomicOn s1 0) &&
    match (ExceptT.run (writeM 4 (cmdField c 0x18 8) (leBytes 8 (old.toNat + cmdField c 0x10 8)))).run (headRun u 0 (farReady.queue 0) c) with
    | (.ok _, _) => true
    | _ => false
theorem witness_Signal_far : ∃ s1, Starts farReady 0 (signalFar false) signalOk (fun _ => []) s1 ∧ farWritten (signalFar false) false s1 = true :=
  starts_start (p := farWritten (signalFar false) false) (by decide +kernel)
theorem witness_Signal_atomic : ∃ s1, Starts farReady 0 (signalFar true) signalOk (fun _ => []) s1 ∧ farWritten (signalFar true) true s1 = true :=
  starts_start (p := farWritten (signalFar true) true) (by decide +kernel)
theorem witness_SemCreate : ∃ s1, Starts semReady 4096 (mk 0xF0 [(8, 4, 65535), (0x10, 8, 7)]) semCreateOk (fun _ => []) s1 ∧
    (s1.assignedTo 2 65535 0 && (s1.sem 65535).st != .live) = true :=
  starts_start (p := fun s1 => s1.assignedTo 2 65535 0 && (s1.sem 65535).st != .live) (by decide +kernel)
theorem witness_SemDestroy : ∃ s1, Starts semReady 4096 (mk 0xF1 [(8, 4, 5)]) semDestroyOk (fun _ => []) s1 ∧
    (s1.assignedTo 2 5 0 && (s1.sem 5).st == .live && (s1.sem 5).owner == 0) = true :=
  starts_start (p := fun s1 => s1.assignedTo 2 5 0 && (s1.sem 5).st == .live && (s1.sem 5).owner == 0) (by decide +kernel)

theorem witness_SemDestroy_orphaned : ∃ s1, Starts { ready with sems := [(5, { value := 3, st := .orphaned })] } 4096 (mk 0xF1 [(8, 4, 5)]) semDestroyOk (fun _ => []) s1 ∧
    (s1.assignedTo 2 5 0 && (s1.sem 5).st == .orphaned) = true :=
  starts_start (p := fun s1 => s1.assignedTo 2 5 0 && (s1.sem 5).st == .orphaned) (by decide +kernel)

/-! ### Engine commands -/

/-- Core 0 with its queues and descriptors: 1 a weight of one element, 2 an operand row, 3 a destination row, all in CV32. -/
def core (descs : List (Nat × Desc)) : State := st0 [(0, q0 9), (4, q0 9), (5, q0 9), (6, q0 9)] descs mem0
/-- One operand of an array: BF16, one row of one channel, and its destination in FP32. -/
def arrays : State := core [(1, mkDesc 2 1 2 0 1 0 nb 0x2000 0 [1, 1] [1, 64]), (2, mkDesc 2 1 2 0 1 9 (nb + 0x10000) 0x2000 0 [1, 1] [1, 64]),
  (3, mkDesc 0 1 2 0 1 0 (nb + 0x20000) 0x8000 0 [1, 1] [1, 64]), (4, mkDesc 0x1B 0 1 0 1 0 (nb + 0x30000) 64 0 [64] [1])]
/-- A loaded tile of one element, and rows of one orientation resident. -/
def loaded (tr : Bool) (res : Tab Bool) : State :=
  { arrays with arrays := [(0, {
      tile := some ⟨0, 1, 1, 2, 0, 0, false, false, false, mkDesc 2 1 2 0 1 0 nb 0x2000 0 [1, 1] [1, 64], 0, 0⟩
      resident := res, valid := res, set := if res.isEmpty then none else some (tr, false) })] }
theorem witness_LoadStat : ∃ s1 r, Starts arrays 0 (mk 0x12 [(8, 4, 1), (0x14, 1, 1), (0x15, 1, 1)]) loadStatOk loadStatHandles s1 ∧
    Ends (loadStatBody none) arrays s1 0 (mk 0x12 [(8, 4, 1), (0x14, 1, 1), (0x15, 1, 1)]) r ∧ true = true :=
  ran_starts_ends (p := fun _ _ => true) (by decide +kernel)
/-- A product of one row: operand 2, with LAST into descriptor 3 under the parameters of descriptor 4. -/
def product (op : Nat) (last : Bool) : Cmd := mk op ([(8, 4, 2), (0x1C, 4, 1), (0x2C, 1, if last then 0x18 else 0x10)] ++ if last then [(0xC, 4, 3), (0x10, 4, 4)] else [])
theorem witness_Mmul : ∃ s1 r, Starts (loaded false []) 0 (product 0x10 true) productOk productHandles s1 ∧
    Ends (productBody false none) (loaded false []) s1 0 (product 0x10 true) r ∧ true = true := ran_starts_ends (p := fun _ _ => true) (by decide +kernel)
theorem witness_MmulT : ∃ s1 r, Starts (loaded true []) 0 (product 0x11 false) productOk productHandles s1 ∧
    Ends (productBody true none) (loaded true []) s1 0 (product 0x11 false) r ∧ true = true := ran_starts_ends (p := fun _ _ => true) (by decide +kernel)
theorem witness_PreloadAcc : ∃ s1 r, Starts (loaded false []) 0 (mk 0x13 [(0x18, 1, 255), (0x1A, 2, 1)]) preloadOk preloadHandles s1 ∧
    Ends preloadBody (loaded false []) s1 0 (mk 0x13 [(0x18, 1, 255), (0x1A, 2, 1)]) r ∧ true = true := ran_starts_ends (p := fun _ _ => true) (by decide +kernel)
theorem witness_Drain : ∃ s1 r, Starts (loaded false [(0, true)]) 0 (mk 0x14 [(8, 4, 3), (0x1A, 2, 1), (0x1C, 1, 1)]) drainOk drainHandles s1 ∧
    Ends drainBody (loaded false [(0, true)]) s1 0 (mk 0x14 [(8, 4, 3), (0x1A, 2, 1), (0x1C, 1, 1)]) r ∧ true = true :=
  ran_starts_ends (p := fun _ _ => true) (by decide +kernel)

/-- Core 0 with FP32 vectors of one element, a BF16 one, and one of two elements. -/
def vectors : State := core [(1, mkDesc 0 0 1 0 1 7 (nb + 0x10000) 64 0 [1] [1]), (2, mkDesc 0 0 1 0 1 8 (nb + 0x20000) 64 0 [1] [1]),
  (3, mkDesc 2 0 1 0 1 9 (nb + 0x30000) 64 0 [1] [1]), (4, mkDesc 0x0C 1 1 0 1 9 (nb + 0x40000) 64 (nb + 0x41000) [1] [1])]
/-- A vector command from descriptor 1 to descriptor 2. -/
def vecCmd (op : Nat) (fs : List (Nat × Nat × Nat)) : Cmd := mk op ([(8, 4, 1), (0x14, 4, 2)] ++ fs)
theorem witness_VecChain : ∃ s1 r, Starts vectors 4 (vecCmd 0x30 [(0x38, 1, 1)]) chainOk chainHandles s1 ∧
    Ends vecChainBody vectors s1 4 (vecCmd 0x30 [(0x38, 1, 1)]) r ∧ true = true := ran_starts_ends (p := fun _ _ => true) (by decide +kernel)
theorem witness_VecReduce : ∃ s1 r, Starts vectors 4 (vecCmd 0x31 []) vecReduceOk vecHandles s1 ∧
    Ends vecReduceBody vectors s1 4 (vecCmd 0x31 []) r ∧ true = true := ran_starts_ends (p := fun _ _ => true) (by decide +kernel)
theorem witness_Dropout : ∃ s1 r, Starts vectors 4 (vecCmd 0x34 [(0x18, 2, 0x8000)]) dropoutOk statHandles s1 ∧
    Ends dropoutBody vectors s1 4 (vecCmd 0x34 [(0x18, 2, 0x8000)]) r ∧ true = true := ran_starts_ends (p := fun _ _ => true) (by decide +kernel)
theorem witness_Quantise : ∃ s1 r, Starts vectors 4 (mk 0x35 [(8, 4, 1), (0x14, 4, 4)]) quantiseOk quantiseHandles s1 ∧
    Ends quantiseBody vectors s1 4 (mk 0x35 [(8, 4, 1), (0x14, 4, 4)]) r ∧ true = true := ran_starts_ends (p := fun _ _ => true) (by decide +kernel)
theorem witness_Dequantise : ∃ s1 r, Starts vectors 4 (mk 0x36 [(8, 4, 3), (0x14, 4, 2)]) dequantiseOk vecHandles s1 ∧
    Ends dequantiseBody vectors s1 4 (mk 0x36 [(8, 4, 3), (0x14, 4, 2)]) r ∧ true = true := ran_starts_ends (p := fun _ _ => true) (by decide +kernel)

/-! ### Completion of engine commands -/

/-- The hypotheses that the statements of vector commands share. -/
def vecReady (s : State) (s1 : State) (q : QNum) (c : Cmd) (more : Exe → TDesc → TDesc → Bool) : Bool :=
  let j := s1.job (s.queue q).job.toNat
  let e := exeOf q (s.queue q)
  let x := operandOf (s.queue q).hold.copies j (cmdField c 8 4)
  let out := operandOf (s.queue q).hold.copies j (cmdField c 0x14 4)
  quietNear s1 && readable x && writable e out && more e x out
theorem witness_VecChain_completes : ∃ s1, Starts vectors 4 (vecCmd 0x30 [(0x38, 1, 1)]) chainOk chainHandles s1 ∧
    vecReady vectors s1 4 (vecCmd 0x30 [(0x38, 1, 1)]) (fun e x out => vecSrc e out.ext x && !chainUses (vecCmd 0x30 [(0x38, 1, 1)]) 1 &&
      !chainUses (vecCmd 0x30 [(0x38, 1, 1)]) 2) = true :=
  starts_start (p := fun s1 => vecReady vectors s1 4 (vecCmd 0x30 [(0x38, 1, 1)]) (fun e x out => vecSrc e out.ext x &&
    !chainUses (vecCmd 0x30 [(0x38, 1, 1)]) 1 && !chainUses (vecCmd 0x30 [(0x38, 1, 1)]) 2)) (by decide +kernel)
theorem witness_VecReduce_completes : ∃ s1, Starts vectors 4 (vecCmd 0x31 []) vecReduceOk vecHandles s1 ∧
    vecReady vectors s1 4 (vecCmd 0x31 []) (fun e x out => srcOk e x && out.ext == 1 :: x.ext.drop 1 && decide (x.chan ≤ 2 ^ 20)) = true :=
  starts_start (p := fun s1 => vecReady vectors s1 4 (vecCmd 0x31 []) (fun e x out => srcOk e x && out.ext == 1 :: x.ext.drop 1 && decide (x.chan ≤ 2 ^ 20)))
    (by decide +kernel)
theorem witness_Softmax_completes : ∃ s1, Starts vectors 4 (vecCmd 0x32 [(0x18, 4, 0x3F800000)]) softmaxOk vecHandles s1 ∧
    vecReady vectors s1 4 (vecCmd 0x32 [(0x18, 4, 0x3F800000)]) (fun e x out => vecSrc e out.ext x && decide (out.chan ≤ 65536)) = true :=
  starts_start (p := fun s1 => vecReady vectors s1 4 (vecCmd 0x32 [(0x18, 4, 0x3F800000)]) (fun e x out => vecSrc e out.ext x && decide (out.chan ≤ 65536)))
    (by decide +kernel)
theorem witness_Norm_completes : ∃ s1, Starts vectors 4 (vecCmd 0x33 [(0x10, 4, 1), (0x1C, 4, 0x3727C5AC)]) normOk statHandles s1 ∧
    vecReady vectors s1 4 (vecCmd 0x33 [(0x10, 4, 1), (0x1C, 4, 0x3727C5AC)]) (fun e x out => vecSrc e out.ext x && decide (out.chan ≤ 65536)) = true :=
  starts_start (p := fun s1 => vecReady vectors s1 4 (vecCmd 0x33 [(0x10, 4, 1), (0x1C, 4, 0x3727C5AC)]) (fun e x out => vecSrc e out.ext x && decide (out.chan ≤ 65536)))
    (by decide +kernel)
theorem witness_Dropout_completes : ∃ s1, Starts vectors 4 (vecCmd 0x34 [(0x18, 2, 0x8000)]) dropoutOk statHandles s1 ∧
    vecReady vectors s1 4 (vecCmd 0x34 [(0x18, 2, 0x8000)]) (fun e x out => vecSrc e out.ext x) = true :=
  starts_start (p := fun s1 => vecReady vectors s1 4 (vecCmd 0x34 [(0x18, 2, 0x8000)]) (fun e x out => vecSrc e out.ext x)) (by decide +kernel)
theorem witness_Quantise_completes : ∃ s1, Starts vectors 4 (mk 0x35 [(8, 4, 1), (0x14, 4, 4)]) quantiseOk quantiseHandles s1 ∧
    vecReady vectors s1 4 (mk 0x35 [(8, 4, 1), (0x14, 4, 4)]) (fun e x out => vecSrc e out.ext x) = true :=
  starts_start (p := fun s1 => vecReady vectors s1 4 (mk 0x35 [(8, 4, 1), (0x14, 4, 4)]) (fun e x out => vecSrc e out.ext x)) (by decide +kernel)
theorem witness_Dequantise_completes : ∃ s1, Starts vectors 4 (mk 0x36 [(8, 4, 3), (0x14, 4, 2)]) dequantiseOk vecHandles s1 ∧
    vecReady vectors s1 4 (mk 0x36 [(8, 4, 3), (0x14, 4, 2)]) (fun e x out => vecSrc e out.ext x && decide (out.fmt ≤ 2)) = true :=
  starts_start (p := fun s1 => vecReady vectors s1 4 (mk 0x36 [(8, 4, 3), (0x14, 4, 2)]) (fun e x out => vecSrc e out.ext x && decide (out.fmt ≤ 2))) (by decide +kernel)

/-- Core 0 with those vectors, a pair for statistics, a bitmap and a scalar. -/
def more : State := core [(1, mkDesc 0 0 1 0 1 7 (nb + 0x10000) 64 0 [1] [1]), (2, mkDesc 0 0 1 0 1 8 (nb + 0x20000) 64 0 [1] [1]),
  (5, mkDesc 0 0 1 0 1 9 (nb + 0x30000) 64 0 [2] [1]), (6, mkDesc 0x1B 0 1 0 1 9 (nb + 0x40000) 64 0 [1] [1]), (7, mkDesc 0 0 1 0 1 9 (nb + 0x50000) 64 0 [1] [1])]
def normMore : Cmd := vecCmd 0x33 [(0xC, 4, 1), (0x10, 4, 1), (0x1C, 4, 0x3727C5AC), (0x20, 4, 5)]
def dropMore : Cmd := vecCmd 0x34 [(0x18, 2, 0x8000), (0x20, 4, 6)]
def quantMore : Cmd := vecCmd 0x35 [(0x18, 1, 1), (0x19, 1, 0x84), (0x1C, 4, 7)]
theorem witness_Norm_more : ∃ s1, Starts more 4 normMore normOk statHandles s1 ∧ vecReady more s1 4 normMore (fun e x out => vecSrc e out.ext x &&
    (optOperand [] (s1.job 1) (cmdField normMore 0x20 4)).all fun y => writable e y && y.fmt == 0 && y.ext == 2 :: out.ext.drop 1) = true :=
  starts_start (p := fun s1 => vecReady more s1 4 normMore (fun e x out => vecSrc e out.ext x &&
    (optOperand [] (s1.job 1) (cmdField normMore 0x20 4)).all fun y => writable e y && y.fmt == 0 && y.ext == 2 :: out.ext.drop 1)) (by decide +kernel)
theorem witness_Dropout_more : ∃ s1, Starts more 4 dropMore dropoutOk statHandles s1 ∧ vecReady more s1 4 dropMore (fun e x out => vecSrc e out.ext x &&
    (optOperand [] (s1.job 1) (cmdField dropMore 0x20 4)).all fun y => y.tier == 0 && dstOk e y && y.fmt == 0x1B && y.rows == out.rows && y.chan == (out.chan + 7) / 8) = true :=
  starts_start (p := fun s1 => vecReady more s1 4 dropMore (fun e x out => vecSrc e out.ext x &&
    (optOperand [] (s1.job 1) (cmdField dropMore 0x20 4)).all fun y => y.tier == 0 && dstOk e y && y.fmt == 0x1B && y.rows == out.rows && y.chan == (out.chan + 7) / 8))
    (by decide +kernel)
theorem witness_Quantise_more : ∃ s1, Starts more 4 quantMore quantiseOk quantiseHandles s1 ∧ vecReady more s1 4 quantMore (fun e x out => vecSrc e out.ext x &&
    decide (sext 8 (cmdField quantMore 0x19 1) = -124) && (optOperand [] (s1.job 1) (cmdField quantMore 0x1C 4)).all fun y => writable e y && scalarOk e y) = true :=
  starts_start (p := fun s1 => vecReady more s1 4 quantMore (fun e x out => vecSrc e out.ext x &&
    decide (sext 8 (cmdField quantMore 0x19 1) = -124) && (optOperand [] (s1.job 1) (cmdField quantMore 0x1C 4)).all fun y => writable e y && scalarOk e y)) (by decide +kernel)

/-- The hypotheses that the statements of array commands share. -/
def arrayReady (s : State) (s1 : State) (c : Cmd) (more : Exe → TDesc → ArrayState → Bool) : Bool :=
  let j := s1.job (s.queue 0).job.toNat
  let e := exeOf 0 (s.queue 0)
  quietNear s1 && e.array? == some 0 && more e (operandOf (s.queue 0).hold.copies j (cmdField c 8 4)) (s1.array 0)
/-- A LOAD_STAT of one element. -/
def loadCmd : Cmd := mk 0x12 [(8, 4, 1), (0x14, 1, 1), (0x15, 1, 1)]
def loadReady (e : Exe) (x : TDesc) (a : ArrayState) : Bool :=
  readable x && srcOk e x && x.layout == 1 && arrayFmt x.fmt && cmdField loadCmd 0x16 1 == 0 && cmdField loadCmd 0x0C 4 % 32 == 0 && cmdField loadCmd 0x10 4 % 4 == 0 &&
    cmdField loadCmd 0x14 1 == 1 && cmdField loadCmd 0x15 1 == 1 && decide (cmdField loadCmd 0x0C 4 + 1 ≤ x.chan) && decide (cmdField loadCmd 0x10 4 + 1 ≤ x.rows) &&
    a.repair.isNone
theorem witness_LoadStat_completes : ∃ s1, Starts arrays 0 loadCmd loadStatOk loadStatHandles s1 ∧ arrayReady arrays s1 loadCmd loadReady = true :=
  starts_start (p := fun s1 => arrayReady arrays s1 loadCmd loadReady) (by decide +kernel)
def productReady (tr : Bool) (s1 : State) (_ : Exe) (x : TDesc) (a : ArrayState) : Bool :=
  match a.tile with
  | some t => decide (t.kExt ≤ 128) && decide (t.nExt ≤ 128) && readable x && bits (cmdField (product (if tr then 0x11 else 0x10) false) 0x2C 1) 4 4 == 1 &&
      !productRejected (headRun s1 0 ((loaded tr []).queue 0) (product (if tr then 0x11 else 0x10) false)) tr a t x none none &&
      decide (cmdField (product (if tr then 0x11 else 0x10) false) 0x18 4 + cmdField (product (if tr then 0x11 else 0x10) false) 0x1C 4 ≤ x.rows)
  | none => false
theorem witness_Mmul_completes : ∃ s1, Starts (loaded false []) 0 (product 0x10 false) productOk productHandles s1 ∧
    arrayReady (loaded false []) s1 (product 0x10 false) (productReady false s1) = true :=
  starts_start (p := fun s1 => arrayReady (loaded false []) s1 (product 0x10 false) (productReady false s1)) (by decide +kernel)
theorem witness_MmulT_completes : ∃ s1, Starts (loaded true []) 0 (product 0x11 false) productOk productHandles s1 ∧
    arrayReady (loaded true []) s1 (product 0x11 false) (productReady true s1) = true :=
  starts_start (p := fun s1 => arrayReady (loaded true []) s1 (product 0x11 false) (productReady true s1)) (by decide +kernel)
/-- A PRELOAD_ACC that zeroes the last row of the output accumulators. -/
def preloadCmd : Cmd := mk 0x13 [(0x18, 1, 255), (0x1A, 2, 1)]
def preloadReady (_ : Exe) (_ : TDesc) (a : ArrayState) : Bool :=
  let set : AccSet := ((cmdField preloadCmd 0x19 1).testBit 5, (cmdField preloadCmd 0x19 1).testBit 4)
  !otherSet a set && !set.2 && decide (1 ≤ racc set) && decide (255 < racc set) && bits (cmdField preloadCmd 0x19 1) 6 2 == 0
theorem witness_PreloadAcc_completes : ∃ s1, Starts (loaded false []) 0 preloadCmd preloadOk preloadHandles s1 ∧ arrayReady (loaded false []) s1 preloadCmd preloadReady = true :=
  starts_start (p := fun s1 => arrayReady (loaded false []) s1 preloadCmd preloadReady) (by decide +kernel)
/-- A PRELOAD_ACC of a vector broadcast to its rows, or of a row of a tensor. -/
def preloadFrom (src : Nat) : Cmd := mk 0x13 [(8, 4, 1), (0x19, 1, 64 * src), (0x1A, 2, 1)]
def wide : State := core [(1, mkDesc 0 1 2 0 1 9 (nb + 0x10000) 0x20000 0 [512, 1] [1, 512])]
def preloadFromReady (src : Nat) (e : Exe) (x : TDesc) (a : ArrayState) : Bool :=
  let c := preloadFrom src
  let set : AccSet := ((cmdField c 0x19 1).testBit 5, (cmdField c 0x19 1).testBit 4)
  !otherSet a set && !set.2 && decide (0 < racc set) && bits (cmdField c 0x19 1) 6 2 == src && readable x && srcOk e x && x.layout == 1 &&
    decide (cmdField c 0x10 4 + setWidth set ≤ x.chan) && x.fmt == 0 && decide (cmdField c 0x0C 4 + 1 ≤ x.rows)
theorem witness_PreloadAcc_from : (∃ s1, Starts wide 0 (preloadFrom 1) preloadOk preloadHandles s1 ∧ arrayReady wide s1 (preloadFrom 1) (preloadFromReady 1) = true) ∧
    ∃ s1, Starts wide 0 (preloadFrom 2) preloadOk preloadHandles s1 ∧ arrayReady wide s1 (preloadFrom 2) (preloadFromReady 2) = true :=
  ⟨starts_start (p := fun s1 => arrayReady wide s1 (preloadFrom 1) (preloadFromReady 1)) (by decide +kernel),
    starts_start (p := fun s1 => arrayReady wide s1 (preloadFrom 2) (preloadFromReady 2)) (by decide +kernel)⟩
/-- A raw DRAIN of one row. -/
def drainCmd : Cmd := mk 0x14 [(8, 4, 3), (0x1A, 2, 1), (0x1C, 1, 1)]
def drainReady (e : Exe) (x : TDesc) (a : ArrayState) : Bool :=
  match a.set with
  | some set => decide (1 ≤ racc set) && decide (cmdField drainCmd 0x18 1 < racc set) && isRes a ((cmdField drainCmd 0x18 1) % racc set) && outDescOk e x && x.tier == 0 && x.fmt == 0 &&
      decide (cmdField drainCmd 0x10 4 + 1 ≤ x.rows)
  | none => false
theorem witness_Drain_completes : ∃ s1, Starts (loaded false [(0, true)]) 0 drainCmd drainOk drainHandles s1 ∧ arrayReady (loaded false [(0, true)]) s1 drainCmd drainReady = true :=
  starts_start (p := fun s1 => arrayReady (loaded false [(0, true)]) s1 drainCmd drainReady) (by decide +kernel)

end Sys2Proof.Tests
end

