-- ==== Sys2Proof/Tests/WitnessTime.lean ====
section
/-! SUPPORT. States and operands that meet the hypotheses of the statements on steps, memory, time and links. -/

set_option maxRecDepth 100000
set_option Elab.async false

namespace Sys2Proof.Tests
open Sys2Proof.Machine

/-! ### Memory, reset and time -/

theorem witness_StepIdles : State.reset.pending = [] ∧ up.pending = [] ∧ up.ticking = true ∧ up.slot < 255 := by decide +kernel
theorem witness_EveryCommandAnswers : ∃ t, exec .inputReversed up = .next t := ⟨_, rfl⟩
theorem witness_MemoryFormKept : Memory.wf up.mem = true ∧ ∃ t, step { up with pending := [.inputReversed] } = .next t := ⟨by decide +kernel, _, rfl⟩
theorem witness_VirtualWriteStores : ∃ t, vWrite up 0 0 0xFFFE [1, 2] none = .ok t := ⟨_, rfl⟩
theorem witness_VirtualWriteStores_dev : xlate up 0 0 0xFFFE true none = .dev 0xFFFE none ∧ 0xFFFE % 65536 + 2 ≤ 65536 := by decide +kernel
theorem witness_VirtualWriteStores_host :
    xlate { up with mem := memPut 0x10010008 (leBytes 8 (2 ^ 30 + 64 + 7)) mem0, funcs := [(0, { root := BitVec.ofNat 64 (rootPa + 1), ats := [(2 ^ 14, .granted 0)] })] }
      0 0 (2 ^ 30) true none = .host 0 0 := by decide +kernel
theorem witness_BeatBoundary : (at_ .aligned 255).ticking = true ∧ (at_ .aligned 255).time.strRun ≠ 7 := by decide +kernel
theorem witness_EpochBoundary : (at_ .aligned 0x1000000).ticking = true ∧ (at_ .aligned 0x1000000).beat.toNat % 65536 = 0 := by decide +kernel
theorem witness_RefPllLock : (at_ .unlocked 0).time.st = .unlocked ∧ (at_ .unlocked 0).power.state ≠ .off ∧ (at_ .unlocked 0).power.resetHeld = false := by
  decide +kernel
theorem witness_TimeRefLoss : ((at_ .locked 0).time.st = .locked ∨ (at_ .locked 0).time.st = .aligned) ∧
    ((at_ .aligned 0).time.st = .locked ∨ (at_ .aligned 0).time.st = .aligned) := by decide +kernel
theorem witness_HoldoverEnds : (at_ .holdover 0).time.st = .holdover := by decide +kernel
theorem witness_TimeFaultRecovery : (at_ .fault 0).time.st = .fault ∧ (at_ .fault 0).time.refPresent = true ∧ (at_ .fault 0).jobs = [] := by decide +kernel

/-- LOCKED with a pulse one epoch before, and NEXT_EPOCH written. -/
def pulsed : State := { up with time := { st := .locked, tick := 0x2000001, lastPulse := some 0x1000000, epochWritten := true } }
theorem witness_PulsePairAligns : pulsed.time.st = .locked ∧ pulsed.time.inverted = false ∧ 2 ≤ 2 ∧ 16 ≤ 16 ∧
    pulsed.time.lastPulse = some ((0x2000000 : BitVec 64) - 0x1000000) ∧ pulsed.time.epochWritten = true := by decide +kernel
theorem witness_MissingPulse : (pulsed.time.st = .locked ∧ pulsed.time.lastPulse.isSome = true) ∧
    ((at_ .aligned 5).time.st = .aligned ∧ (at_ .aligned 5).time.missedAt ≠ some (nearestEpoch (at_ .aligned 5).time.tick)) ∧
    ((at_ .holdover 5).time.st = .holdover ∧ (at_ .holdover 5).time.missedAt ≠ some (nearestEpoch (at_ .holdover 5).time.tick)) := by decide +kernel

/-- A marker of the present schedule beat, 3, on queue 6. -/
def marked : State := { at_ .aligned 896 with queues := [(6, { st := .active, tail := 1, markers := [⟨0, 3⟩] })] }
theorem witness_MissedMarker : marked.ticking = true ∧ marked.time.inStretch = false ∧ marked.slot ≤ 128 := by decide +kernel
theorem witness_MissedMarker_due : ∃ m rest, dueMarkers marked = m :: rest := ⟨_, _, rfl⟩
theorem witness_NoMarker : (at_ .aligned 896).ticking = true ∧ (at_ .aligned 896).time.inStretch = false ∧ (at_ .aligned 896).slot ≤ 128 ∧
    dueMarkers (at_ .aligned 896) = [] := by decide +kernel
theorem witness_StretchLatch : (at_ .aligned 240).ticking = true ∧ (at_ .aligned 240).slot ≤ 240 := by decide +kernel

/-! ### The torus -/

theorem witness_SlotSend : up.ticking = true ∧ ((port0 { st := .active }).port 0).st = .active ∧ ((port0 { st := .identify }).port 0).st = .identify ∧
    ((port0 { st := .held }).port 0).st = .held ∧ ((port0 { st := .active }).port 0).retry.length ≤ 2048 := by decide +kernel

/-- A slot without flits whose header fails its check. -/
def badSlot : RxSlot := ⟨0, [], [], [], [], []⟩
/-- The slot that a fresh port in IDENTIFY sends, as a receiver takes it. -/
def sentSlot : RxSlot :=
  match exec (.slotSend 0) (port0 { st := .identify }) with
  | .next t => match (t.port 0).lastSlot with
    | some sl => ⟨sl.hdr, sl.flits, sl.crcs, sl.parity, [], []⟩
    | none => badSlot
  | _ => badSlot
theorem witness_SlotLost : linked ((port0 { st := .active }).port 0) = true ∧
    headerGood (decodeSlot ((port0 { st := .active }).port 0).hollyhock badSlot).1.hdr.toNat = false := by decide +kernel
/-- That slot, decoded. -/
def takenSlot : RxSlot := (decodeSlot ((port0 { st := .active }).port 0).hollyhock sentSlot).1
theorem witness_SlotTaken : linked ((port0 { st := .active }).port 0) = true ∧ takenSlot.flits.length = 30 ∧ headerGood takenSlot.hdr.toNat = true ∧
    bits takenSlot.hdr.toNat 32 16 = ((port0 { st := .active }).port 0).rxNext.toNat ∧
    ∀ g, g < 8 → groupCrc (bits takenSlot.hdr.toNat 32 16) takenSlot.flits g = (takenSlot.crcs.getD g 0).toNat := by decide +kernel
/-- A slot with two wrong bytes is mended before it is looked at. -/
theorem witness_SlotMended : (decodeSlot false { sentSlot with errs := [(17, 1), (900, 7)] }).1.hdr = sentSlot.hdr := by decide +kernel

/-- An unacknowledged flit. -/
def oldFlit : TxFlit := ⟨5, 0, true, none, false⟩
/-- Port 0 in service with that flit, and replays of it done. -/
def retrying (n : Nat) : State := port0 { st := .active, retry := [oldFlit], replays := n, replayFrom := 5 }
theorem witness_RetryTimeout : ((retrying 0).port 0).retry = oldFlit :: [] ∧ linked ((retrying 0).port 0) = true ∧
    1 = (if ((retrying 0).port 0).replays ≠ 0 ∧ ((retrying 0).port 0).replayFrom = oldFlit.seq then ((retrying 0).port 0).replays + 1 else 1) ∧
    ¬(1 > (retrying 0).reg 0x3400 8) ∧
    201 = (if ((retrying 200).port 0).replays ≠ 0 ∧ ((retrying 200).port 0).replayFrom = oldFlit.seq then ((retrying 200).port 0).replays + 1 else 1) ∧
    201 > (retrying 200).reg 0x3400 8 := by decide +kernel

/-- A port of the running module with a message in its inbox. -/
def got (x : PortState) (m : Msg) : State := port0 { x with inbox := [m] }
/-- An IDENT, PING, PONG, LANE_MOVE, LANE_ACK and RECHECK as a neighbour sends them, and OFFSET with a value from an end in ALIGNED. -/
def identIn : Msg := mgmtMsg 1 (leBytes 8 77 ++ leBytes 10 0x20001)
def pingIn : Msg := mgmtMsg 2 (leBytes 8 998)
def pongIn (tick : Nat) : Msg := mgmtMsg 3 (leBytes 8 tick ++ leBytes 4 1)
def offsetIn (o : Nat) : Msg := mgmtMsg 4 (leBytes 8 o ++ [2])
def moveIn (sub lane target beat : Nat) : Msg := mgmtMsg sub (leBytes 1 lane ++ leBytes 1 target ++ leBytes 1 0 ++ leBytes 8 beat)
theorem witness_Ident : mgmtIs (got { st := .active } identIn) 0 identIn 1 = true ∧ linked ((got { st := .active } identIn).port 0) = true ∧
    mgmtIs (got { st := .held } identIn) 0 identIn 1 = true ∧ ((got { st := .held } identIn).port 0).st = .held ∧
    ((got { st := .identify, measured := true } identIn).port 0).st = .identify ∧ ((got { st := .identify, measured := true } identIn).port 0).measured = true := by
  decide +kernel
theorem witness_Ping : mgmtIs (got { st := .active } pingIn) 0 pingIn 2 = true ∧ linked ((got { st := .active } pingIn).port 0) = true := by decide +kernel
theorem witness_Pong : mgmtIs (got { st := .identify } (pongIn 998)) 0 (pongIn 998) 3 = true ∧ ((got { st := .identify } (pongIn 998)).port 0).st = .identify ∧
    ((up.time.tick - BitVec.ofNat 64 (msgField (pongIn 998) 8 8)).toNat - msgField (pongIn 998) 0x10 4) * 50 ≤ 400 ∧
    ((got { st := .identify, identSeen := true } (pongIn 998)).port 0).identSeen = true ∧
    ((up.time.tick - BitVec.ofNat 64 (msgField (pongIn 900) 8 8)).toNat - msgField (pongIn 900) 0x10 4) * 50 > 950 := by decide +kernel
theorem witness_Offset : mgmtIs (got { st := .active } (offsetIn 0)) 0 (offsetIn 0) 4 = true ∧ BitVec.ofNat 48 (msgField (offsetIn 0) 8 8) = up.time.offset ∧
    mgmtIs (got { st := .active } (offsetIn 7)) 0 (offsetIn 7) 4 = true ∧ BitVec.ofNat 48 (msgField (offsetIn 7) 8 8) ≠ up.time.offset ∧ up.jobs = [] ∧
    (msgField (offsetIn 7) 0x10 1 = 2 ∨ msgField (offsetIn 7) 0x10 1 = 3) ∧ ({ got { st := .active } (offsetIn 7) with jobs := [(1, {})] } : State).jobs ≠ [] ∧
    ((got { st := .active } (offsetIn 7)).port 0).mismatch = false ∧ ((got { st := .active } (offsetIn 7)).port 0).offsetDiffers = false ∧
    ((got { st := .active, offsetDiffers := true } (offsetIn 7)).port 0).offsetDiffers = true := by decide +kernel

/-- A move asked for, of logical lane 1 to physical lane 8 at beat 3. -/
def asked (rx acked : Bool) : LaneMoveSt := ⟨rx, 1, 8, 3, acked, .spare⟩
theorem witness_LaneMove : mgmtIs (got { st := .active } (moveIn 5 1 8 3)) 0 (moveIn 5 1 8 3) 5 = true ∧
    ((got { st := .active } (moveIn 5 1 8 3)).port 0).st = .active := by decide +kernel
theorem witness_LaneAck : mgmtIs (got { st := .active, moveRx := some (asked true false) } (moveIn 6 1 8 3)) 0 (moveIn 6 1 8 3) 6 = true ∧
    (asked true false).lane.toNat = msgField (mgmtMsg 6 (1 :: 1 :: 8 :: leBytes 8 3)) 9 1 ∧
    (asked true false).target.toNat = msgField (mgmtMsg 6 (1 :: 1 :: 8 :: leBytes 8 3)) 10 1 ∧
    (asked true false).beat.toNat = msgField (mgmtMsg 6 (1 :: 1 :: 8 :: leBytes 8 3)) 11 8 := by decide +kernel
theorem witness_Recheck : mgmtIs (got { st := .held } (mgmtMsg 7 [])) 0 (mgmtMsg 7 []) 7 = true ∧ ((got { st := .held } (mgmtMsg 7 [])).port 0).st = .held ∧
    linked ((got { st := .held } (mgmtMsg 7 [])).port 0) = true ∧ linked ((got { st := .active } (mgmtMsg 7 [])).port 0) = true := by decide +kernel
def recordIn : Msg := ⟨mkHead 4 0 0 (leBytes 20 77), []⟩
theorem witness_StretchRecord : ((got { st := .active } recordIn).port 0).inbox.contains recordIn = true ∧ msgKind recordIn = 4 := by decide +kernel

theorem witness_SignalDetect : ((port0 { st := .detect }).port 0).st = .detect ∧ ((port0 {}).port 0).st = .disabled ∧ axisSize (port0 {}) (portAxis 0) = 1 ∧
    ((port0 {}).reg 0x3400 4).testBit (0 : Port).toNat = true := by decide +kernel
/-- With the setting of TORUS_MODE of port 0. -/
def equalising (mode : Nat) : State := { port0 { st := .equalise } with dict := { regs := [(256 * 0x3400 + 5, mode)] } }
theorem witness_EqualiseConverged : ((equalising 1).port 0).st = .equalise ∧ bits ((equalising 1).reg 0x3400 5) 0 8 = 1 ∧
    bits ((equalising 2).reg 0x3400 5) 0 8 = 2 ∧ bits ((equalising 0).reg 0x3400 5) 0 8 = 0 := by decide +kernel
theorem witness_MapDone : ((port0 { st := .map }).port 0).st = .map ∧ LaneOrder.reversed ≠ LaneOrder.other ∧
    8 ≤ ((List.range 9).filter fun n => (0x0FF : BitVec 9).getLsbD n).length := by decide +kernel
theorem witness_PortTimers : ((port0 { st := .lock }).port 0).st = .lock ∧ ((port0 { st := .failed }).port 0).st = .failed ∧ ((port0 { st := .held }).port 0).st = .held ∧
    ((port0 { st := .retrain }).port 0).st = .retrain ∧ ((port0 { st := .map }).port 0).st ≠ .disabled ∧
    ((port0 { st := .map }).port 0).st ≠ .detect ∧ ((port0 { st := .map }).port 0).st ≠ .failed := by decide +kernel
theorem witness_LaneLost : ((port0 { st := .active }).port 0).st = .active ∧ ((port0 { st := .active }).port 0).rxSpareUsed = false ∧
    ((port0 { st := .active }).port 0).moveRx = none ∧ (7 : BitVec 4) ≠ ((port0 { st := .active }).port 0).rxSpare ∧
    ((port0 { st := .active }).port 0).rxMap.findIdx? (· == (7 : BitVec 4)) = some 7 ∧ 2 ^ 40 > (port0 { st := .active }).reg 0x3400 9 ∧
    0 ≤ (port0 { st := .active }).reg 0x3400 9 ∧ (8 : BitVec 4) = ((port0 { st := .active }).port 0).rxSpare ∧
    ((port0 { st := .active, rxSpareUsed := true }).port 0).rxSpareUsed = true := by decide +kernel
theorem witness_RecalTimer : (port0 { st := .active }).reg 0x3400 6 ≠ 0 ∧ ((port0 { st := .active }).port 0).recalBusy = false ∧
    ((port0 { st := .active, recalBusy := true }).port 0).recalBusy = true ∧ ((port0 { st := .active, recalBusy := true }).port 0).moveRx = none := by decide +kernel
theorem witness_LaneSwitch : dueMove (port0 {}) { st := .active, moveRx := some (asked true true) } = some (asked true true) ∧
    dueMove (port0 {}) { st := .active, moveTx := some (asked false true) } = some (asked false true) ∧ (asked true true).acked = true ∧
    (asked false true).acked = true ∧ dueMove (port0 {}) { st := .active, moveTx := some (asked false false) } = some (asked false false) ∧
    (asked false false).acked = false := by decide +kernel

end Sys2Proof.Tests
end

