-- ==== Sys2Proof/Tests/WitnessTrust.lean ====
section
/-! SUPPORT. States and operands that meet the hypotheses of the statements on trust, servicing, power, resets and pins. -/

set_option maxRecDepth 100000
set_option Elab.async false

namespace Sys2Proof.Tests
open Sys2Proof.Machine

/-! ### Trust and servicing -/

/-- A module that updates its target: slots whose security version no minimum exceeds. -/
def updating (target : Nat) (chunks : List (Nat × Nat × List Byte)) : State :=
  { up with trust := { sfUp := true, fwTarget := BitVec.ofNat 8 target, chunks := chunks, slots := List.replicate 5 ⟨true, 1, 1, 0xFFFF, 0⟩ } }
/-- A slot of the highest security version boots under every fused minimum. -/
theorem slotBoots_of_top (s : State) (n : Nat) (h : slotOf s n = ⟨true, 1, 1, 0xFFFF, 0⟩) (h0 : s.trust.svnRaised = [0, 0, 0]) : slotBoots s n = true := by
  have hf := (Config.fusedSvn (targetKind n)).isLt
  have hz : (s.trust.svnRaised.getD (targetKind n - 1) 0).toNat = 0 := by
    rw [h0]; rcases targetKind n - 1 with _ | _ | _ | k <;> rfl
  simp only [slotBoots, h, svnMin, hz]
  simp
  omega
theorem witness_FwChunk : (leBytes 4 0 ++ leBytes 4 1016 ++ List.replicate 1016 9 : List Byte).length = 1024 ∧ writeCheck (updating 3 []) .mgmt 0x6820 2 0 1024 = stOk ∧
    byteField (leBytes 4 0 ++ leBytes 4 1016 ++ List.replicate 1016 9) 4 2 = 1016 ∧ byteField (leBytes 4 0 ++ leBytes 4 1016 ++ List.replicate 1016 9) 6 2 = 0 ∧
    1016 ≤ targetSize 3 ∧ (updating 3 []).trust.chunks.length < 64 := by decide +kernel
theorem witness_FwProgrammed : (updating 3 [(3, 0, [1, 2])]).trust.chunks = (3, 0, [1, 2]) :: [] := by decide +kernel
theorem witness_FwCommit : writeCheck (updating 3 []) .mgmt 0x6820 3 0 1 = stOk ∧ (updating 3 []).trust.fwTarget ≠ 0xFF ∧ targetHeld (updating 3 []) 3 = false ∧
    (updating 3 []).trust.chunks = [] ∧ (updating 3 [(3, 0, [1, 2])]).trust.chunks ≠ [] := by decide +kernel
theorem witness_FwActivateRoot : writeCheck (updating 1 []) .mgmt 0x6820 3 0 1 = stOk ∧ targetHeld (updating 1 []) 1 = false ∧
    (updating 1 []).trust.fwTarget.toNat < 2 ∧ (updating 1 []).trust.recovery = false := by decide +kernel
theorem witness_FwActivateRoot_boots : slotBoots (updating 1 []) 1 = true := slotBoots_of_top _ _ rfl rfl
theorem witness_FwActivateService : 2 ≤ (updating 3 []).trust.fwTarget.toNat ∧ (updating 3 []).trust.fwTarget.toNat < 4 ∧
    (updating 3 []).trust.handover = none := by decide +kernel
theorem witness_FwActivateService_boots : slotBoots (updating 3 []) 3 = true := slotBoots_of_top _ _ rfl rfl
/-- The flash holds an UNLOCK image of this module's serial number and nonce. -/
def unlocking : State :=
  { updating 4 [] with trust := { (updating 4 []).trust with flash := (List.range 48).map fun k => (2 ^ 24 * 4 + 0x1000 + k, (unlockBody up).getD k 0) } }
theorem witness_FwActivateUnlock : unlocking.trust.fwTarget.toNat = 4 ∧ slotBoots unlocking 4 = true ∧ targetHeld unlocking 4 = false ∧
    flashRead unlocking 4 0x1000 48 = unlockBody unlocking := by
  refine ⟨rfl, slotBoots_of_top _ _ rfl rfl, rfl, ?_⟩
  have h : (unlockBody up).length = 48 := by simp [unlockBody, leBytes]
  have e : flashRead unlocking 4 0x1000 48 = (List.range 48).map fun k => (unlockBody up).getD k 0 := rfl
  rw [e]
  show _ = unlockBody up
  apply List.ext_getElem
  · simp [h]
  · intro i h1 h2
    simp [h2]
theorem witness_Handover :
    let s : State := { up with trust := { handover := some (1, true) } }
    s.trust.handover = some (1, true) ∧ s.trust.rootUp = true ∧ s.ticking = true := by decide +kernel
theorem witness_SvnRaise : standingSvn (updating 3 []) 1 = some 0xFFFF ∧ (updating 3 []).trust.svnRaised.length = 3 := by decide +kernel
theorem witness_SvnRaise_below : svnMin (updating 3 []) 1 < 0xFFFF := by
  have hf := (Config.fusedSvn 1).isLt
  simp only [svnMin, updating]
  simp
  omega
theorem witness_SvnRaise_above : ∃ s : State, standingSvn s 1 = some 0 ∧ 0 ≤ svnMin s 1 ∧ writeCheck s .mgmt 0x6800 3 0 1 = stOk :=
  ⟨up, by decide +kernel, Nat.zero_le _, by decide +kernel⟩
/-- Neither the root monitor nor service firmware runs. -/
def stopped (root : Bool) : State := { up with trust := { rootUp := root, slots := List.replicate 5 ⟨true, 1, 1, 0xFFFF, 0⟩ } }
theorem witness_Boots : (stopped true).trust.rootUp = true ∧ (stopped true).trust.sfUp = false ∧ (stopped true).trust.handover = none ∧
    (stopped true).power.state ≠ .off ∧ (stopped true).ticking = true ∧ (stopped false).trust.rootUp = false ∧ (stopped false).trust.recovery = false ∧
    (stopped false).power.resetHeld = false := by decide +kernel
theorem witness_Boots_service : bootSlot (stopped true) 2 0 = some (0, ⟨true, 1, 1, 0xFFFF, 0⟩) := by
  have h : slotBoots (stopped true) 2 = true := slotBoots_of_top _ _ rfl rfl
  have v : (slotOf (stopped true) 2).valid = true := rfl
  show (match bootImage (stopped true) 2 with | some x => some ((0 : BitVec 1), x) | none => _) = _
  rw [bootImage, if_pos v, if_pos h]
  rfl
theorem witness_Boots_root : bootSlot (stopped false) 0 0 = some (0, ⟨true, 1, 1, 0xFFFF, 0⟩) := by
  have h : slotBoots (stopped false) 0 = true := slotBoots_of_top _ _ rfl rfl
  have v : (slotOf (stopped false) 0).valid = true := rfl
  show (match bootImage (stopped false) 0 with | some x => some ((0 : BitVec 1), x) | none => _) = _
  rw [bootImage, if_pos v, if_pos h]
  rfl
/-- A requester that has negotiated. -/
def negotiated (n : Nat) : State := setStage up .mgmt n
theorem witness_Spdm : up.trust.rootUp = true ∧ up.ticking = true ∧ 1 ≤ spdmStage (negotiated 1) .mgmt ∧ 2 ≤ spdmStage (negotiated 2) .mgmt ∧ 3 ≤ spdmStage (negotiated 3) .mgmt ∧
    (negotiated 3).trust.rootUp = true ∧ measured (negotiated 3) 0 = some [5] := by decide +kernel
/-- A certificate chain is not empty where the module has one, and its first byte can be asked for. -/
theorem witness_Spdm_certificate (h : Config.certChain ≠ []) : (0 : BitVec 16).toNat < Config.certChain.length := List.length_pos_iff.mpr h

/-! ### Power, modes, reset -/

/-- The module in a state. -/
def inState (x : ModState) : State := { up with power := { state := x } }
theorem witness_PowerOn : (inState .off).power.state = .off ∧ (inState .off).power.enableMated = true := by decide +kernel
theorem witness_LinkedReached : (inState .managed).power.state = .managed ∧ (inState .managed).trust.rootUp = true ∧ (inState .managed).ticking = true ∧
    (inState .managed).power.resetHeld = false := by decide +kernel
/-- A LINKED module that may go on, in a mode, with jobs. -/
def linkedUp (mode : BitVec 8) (jobs : Tab Job) : State := { up with jobs := jobs, power := { state := .linked, tested := true, pwrGood := true, mode := mode } }
theorem witness_Ready : ∀ m ∈ [(0 : BitVec 8), 3], ∀ js ∈ [([] : Tab Job), [(1, {})]],
    (linkedUp m js).power.state = .linked ∧ readyOk (linkedUp m js) = true ∧ (linkedUp m js).jobs = js ∧ (linkedUp m js).power.mode = m := by decide +kernel
theorem witness_Input : (35999 : BitVec 16).toNat < 36000 ∧ (39999 : BitVec 16).toNat < 40000 ∧ 60000 < (60001 : BitVec 16).toNat ∧ up.power.state ≠ .off ∧
    up.power.state ≠ .faulted ∧ up.trust.rootUp = true ∧ (inState .faulted).trust.rootUp = true ∧ (inState .faulted).power.state = .faulted ∧
    (stopped false).trust.rootUp = false ∧ (stopped false).power.state ≠ .off := by decide +kernel
theorem witness_Governor : (at_ .aligned 240).ticking = true ∧ (at_ .aligned 240).slot ≤ 240 ∧ (at_ .aligned 240).power.governed = false ∧
    (at_ .aligned 240).power.s ≤ 240 := by decide +kernel
theorem witness_Temperatures : [(30 : BitVec 8), 30, 30, 30, 104].length = 5 ∧ warnC up ≤ (104 : BitVec 8).toNat ∧
    (∃ x ∈ ({ up with power := { tj := [104, 0, 0, 0, 0] } } : State).power.tj, warnC { up with power := { tj := [104, 0, 0, 0, 0] } } ≤ x.toNat) := by
  decide +kernel
/-- All dies cool again for a millisecond. -/
def cooled : State := { up with power := { warm := true, coolSince := some 0, envelope := 2000, thermalCap := some 30000 }, time := { up.time with tick := 100000 } }
theorem witness_Cooled : (∀ x ∈ cooled.power.tj, x.toNat < warnC cooled) ∧ cooled.power.coolSince = some 0 ∧ 100000 ≤ (cooled.time.tick - 0).toNat := by decide +kernel
theorem witness_Modes : up.jobs = [] ∧ up.power.mode = 0 ∧ (1 : BitVec 8) ≠ up.power.mode ∧ up.power.mode.toNat < 3 ∧
    ({ up with power := { mode := 2 } } : State).power.mode.toNat < 3 ∧ (inState .ready).power.state = .ready ∧
    writeCheck (inState .ready) .mgmt 0x2000 1 0 1 = stOk ∧ 1200 ≤ (1200 : BitVec 16).toNat ∧ (2800 : BitVec 16).toNat ≤ 2800 ∧
    ({ up with power := { relock := true } } : State).power.relock = true ∧ (inState .running).power.state = .running := by decide +kernel
theorem witness_Modes_standby :
    let s : State := { up with power := { state := .standby, mode := 3 } }
    writeCheck s .mgmt 0x2000 1 0 1 = stOk ∧ s.jobs = [] ∧ s.power.mode = 3 ∧ s.power.state = .standby := by decide +kernel
theorem witness_Modes_loaded :
    let s : State := { up with jobs := [(1, {})] }
    writeCheck s .mgmt 0x2000 1 0 1 = stOk ∧ (2 : BitVec 8) ≠ 1 ∧ s.power.mode ≠ 1 ∧ s.power.mode ≠ 2 ∧ writeCheck s .mgmt 0x2010 2 0 1 = stOk := by decide +kernel
theorem witness_Resets : up.power.resetHeld = false ∧ ({ up with power := { resetHeld := true } } : State).power.resetHeld = true ∧
    functionExists up 0 = true ∧ functionExists { up with hosts := [(0, { numVfs := 63 })] } 63 = true := by decide +kernel
theorem witness_Pins :
    let s : State := { up with dict := { regs := [(256 * 0x2E00 + 1, 0)] } }
    15 ≤ (15 : BitVec 5).toNat ∧ (18 : BitVec 5).toNat ≤ 18 ∧ s.power.state ≠ .off ∧ gpioDriven s (15 - 15) = true ∧
      faultLine (inState .faulted) = true ∧ (inState .faulted).power.state ≠ .off := by decide +kernel

end Sys2Proof.Tests
end

section
/-! Deadline markers and stretch beats (02 R40, R45 to R47): how a tick within a beat is reached, and what the parts of the deadline check and of the stretch latch do. -/

namespace Sys2Proof.Machine

/-! ### The ticks of a beat -/

theorem beatStart_toNat (s : State) : (beatStart s).toNat = 256 * (s.time.tick.toNat / 256) := by
  have := s.time.tick.isLt
  simp only [beatStart, BitVec.toNat_shiftLeft, BitVec.toNat_ushiftRight, Nat.shiftLeft_eq, Nat.shiftRight_eq_div_pow]
  omega

/-- Adding a slot number to the start of a beat carries nothing out of the 64 bits. -/
theorem beatStart_add_toNat (s : State) {k : Nat} (hk : k < 256) :
    (beatStart s + BitVec.ofNat 64 k).toNat = 256 * (s.time.tick.toNat / 256) + k := by
  have := s.time.tick.isLt
  simp only [BitVec.toNat_add, beatStart_toNat, BitVec.toNat_ofNat]
  omega

theorem beat_toNat (s : State) : s.beat.toNat = s.time.tick.toNat / 256 % 2 ^ 48 := by
  simp only [State.beat, BitVec.extractLsb'_toNat, Nat.shiftRight_eq_div_pow]

theorem atSlot_of_slot_le {s : State} {k : Nat} (h : s.slot ≤ k) :
    atSlot s k = { s with time := { s.time with tick := beatStart s + BitVec.ofNat 64 k } } := if_pos h

theorem slot_atSlot {s : State} {k : Nat} (h : s.slot ≤ k) (hk : k < 256) : (atSlot s k).slot = k := by
  have := beatStart_add_toNat s hk
  simp only [atSlot_of_slot_le h, State.slot]
  omega

theorem beat_atSlot {s : State} {k : Nat} (h : s.slot ≤ k) (hk : k < 256) : (atSlot s k).beat = s.beat := by
  have := beatStart_add_toNat s hk
  apply BitVec.eq_of_toNat_eq
  simp only [beat_toNat, atSlot_of_slot_le h]
  omega

theorem schedBeat_atSlot {s : State} {k : Nat} (h : s.slot ≤ k) (hk : k < 256) : (atSlot s k).schedBeat = s.schedBeat := by
  have hoff : (atSlot s k).time.offset = s.time.offset := by rw [atSlot_of_slot_le h]
  rw [State.schedBeat, beat_atSlot h hk, hoff, State.schedBeat]

/-! ### The markers of a beat -/

/-- The state with the armed markers of one schedule beat checked off (R40). -/
def dropMarkers (b : BitVec 48) (s : State) : State :=
  { s with queues := s.queues.map fun e => (e.1, { e.2 with markers := e.2.markers.filter fun k => k.beat != b }) }

theorem dueMarkers_congr {s t : State} (hq : t.queues = s.queues) (hb : t.schedBeat = s.schedBeat) : dueMarkers t = dueMarkers s := by
  simp only [dueMarkers, hq, hb]

theorem dueMarkers_atSlot {s : State} {k : Nat} (h : s.slot ≤ k) (hk : k < 256) : dueMarkers (atSlot s k) = dueMarkers s :=
  dueMarkers_congr (atSlot_queues s k) (schedBeat_atSlot h hk)

theorem dueMarkers_dropMarkers (s : State) : dueMarkers (dropMarkers s.schedBeat s) = [] := by
  have hb : (dropMarkers s.schedBeat s).schedBeat = s.schedBeat := rfl
  rw [dueMarkers, hb, dropMarkers, List.flatMap_map, List.flatMap_eq_nil_iff]
  intro e _
  have hnone : (e.2.markers.filter fun k => k.beat != s.schedBeat).filter (fun k => k.beat == s.schedBeat) = [] := by
    simp [List.filter_eq_nil_iff]
  exact congrArg (List.map _) hnone

/-! ### A stretch request -/

/-- The stretch record goes out on every port in service (R46). -/
def sendStretchRecord (rec20 : List Byte) (s : State) : State :=
  (activePorts s).foldl (fun s p =>
    s.setPort p { s.port p with strRecs := (s.port p).strRecs ++ toFlits ⟨mkHead 4 0 0 rec20, []⟩ none }) s

/-- A stretch of wall beat t is indicated on every port in service, once for each target (R46). -/
def indicateStretch (t : BitVec 48) (s : State) : State :=
  if s.time.strSeen.contains t then s
  else sendStr { s with time := { s.time with strSeen := s.time.strSeen ++ [t] } } (t.extractLsb' 0 4) none

/-- LAST_STRETCH takes the record of a marker (R46, R52). -/
def noteStretch (m : Nat × Marker) (s : State) : State :=
  { s with time := { s.time with lastStretch := BitVec.ofNat 160 (leNat (stretchRecord m)) } }

/-- What the deadline check does of an unreached marker, at slot 128. -/
def requestStretch (m : Nat × Marker) (s : State) : State :=
  indicateStretch (s.beat + 2) (sendStretchRecord (stretchRecord m) (noteStretch m (bump (dropMarkers s.schedBeat s) 5 0 2 1)))

section sendStretchRecord
variable (rec20 : List Byte) (s : State)

/-- Sending the record changes nothing that a port's state leaves alone. -/
theorem sendStretchRecord_keeps {β : Type} (F : State → β) (h : ∀ s p x, F (State.setPort s p x) = F s) : F (sendStretchRecord rec20 s) = F s := by
  unfold sendStretchRecord
  exact foldl_keeps F _ (fun s p => h s p _) _ _

@[simp] theorem sendStretchRecord_time : (sendStretchRecord rec20 s).time = s.time := sendStretchRecord_keeps _ _ State.time State.setPort_time
@[simp] theorem sendStretchRecord_queues : (sendStretchRecord rec20 s).queues = s.queues := sendStretchRecord_keeps _ _ State.queues State.setPort_queues
@[simp] theorem sendStretchRecord_dict : (sendStretchRecord rec20 s).dict = s.dict := sendStretchRecord_keeps _ _ State.dict State.setPort_dict
@[simp] theorem sendStretchRecord_mem : (sendStretchRecord rec20 s).mem = s.mem := sendStretchRecord_keeps _ _ State.mem State.setPort_mem
@[simp] theorem sendStretchRecord_sems : (sendStretchRecord rec20 s).sems = s.sems := sendStretchRecord_keeps _ _ State.sems State.setPort_sems

end sendStretchRecord

@[simp] theorem sendStr_dict (s : State) (tgt : BitVec 4) (except : Option Port) : (sendStr s tgt except).dict = s.dict :=
  foldl_keeps State.dict _ (fun s p => by dsimp only; split <;> rfl) _ _

section indicateStretch
variable (t : BitVec 48) (s : State)

/-- Of time, an indication touches only the targets seen. -/
theorem indicateStretch_time :
    (indicateStretch t s).time = { s.time with strSeen := if s.time.strSeen.contains t then s.time.strSeen else s.time.strSeen ++ [t] } := by
  unfold indicateStretch
  split <;> simp

@[simp] theorem indicateStretch_queues : (indicateStretch t s).queues = s.queues := by unfold indicateStretch; split <;> simp
@[simp] theorem indicateStretch_dict : (indicateStretch t s).dict = s.dict := by unfold indicateStretch; split <;> simp
@[simp] theorem indicateStretch_mem : (indicateStretch t s).mem = s.mem := by unfold indicateStretch; split <;> simp
@[simp] theorem indicateStretch_sems : (indicateStretch t s).sems = s.sems := by unfold indicateStretch; split <;> simp

theorem mem_strSeen_indicateStretch : t ∈ (indicateStretch t s).time.strSeen := by
  rw [indicateStretch_time]
  dsimp only
  split
  · next h => exact List.contains_iff_mem.mp h
  · exact List.mem_append_right _ (List.mem_singleton_self t)

end indicateStretch

section requestStretch
variable (m : Nat × Marker) (s : State)

/-- Of time, a request touches LAST_STRETCH and the targets seen. -/
theorem requestStretch_time :
    (requestStretch m s).time = { s.time with
      lastStretch := BitVec.ofNat 160 (leNat (stretchRecord m))
      strSeen := (requestStretch m s).time.strSeen } := by
  simp only [requestStretch, indicateStretch_time, sendStretchRecord_time, noteStretch, bump_time]
  rfl

@[simp] theorem requestStretch_queues : (requestStretch m s).queues = (dropMarkers s.schedBeat s).queues := by
  simp [requestStretch, noteStretch]
@[simp] theorem requestStretch_mem : (requestStretch m s).mem = s.mem := by simp [requestStretch, noteStretch, dropMarkers]
@[simp] theorem requestStretch_sems : (requestStretch m s).sems = s.sems := by simp [requestStretch, noteStretch, dropMarkers]

theorem requestStretch_beat : (requestStretch m s).beat = s.beat := by rw [State.beat, requestStretch_time]; rfl
theorem requestStretch_slot : (requestStretch m s).slot = s.slot := by rw [State.slot, requestStretch_time]; rfl
theorem requestStretch_schedBeat : (requestStretch m s).schedBeat = s.schedBeat := by
  rw [State.schedBeat, requestStretch_beat, requestStretch_time]; rfl

theorem requestStretch_lastStretch : (requestStretch m s).time.lastStretch = BitVec.ofNat 160 (leNat (stretchRecord m)) := by
  rw [requestStretch_time]

theorem mem_strSeen_requestStretch : s.beat + 2 ∈ (requestStretch m s).time.strSeen := mem_strSeen_indicateStretch _ _

/-- STRETCH_REQUEST counts the request (R53). -/
theorem counter_requestStretch : (requestStretch m s).counter 5 0 2 = (s.counter 5 0 2 + 1) % 2 ^ 64 := by
  have hd : (requestStretch m s).dict = (bump (dropMarkers s.schedBeat s) 5 0 2 1).dict := by simp [requestStretch, noteStretch]
  rw [State.counter, hd]
  exact counter_bump_same (dropMarkers s.schedBeat s) 5 0 2 1 one_ne_zero

theorem dueMarkers_requestStretch : dueMarkers (requestStretch m s) = [] :=
  (dueMarkers_congr (requestStretch_queues m s) (requestStretch_schedBeat m s)).trans (dueMarkers_dropMarkers s)

end requestStretch

/-! ### The latch -/

/-- Wall beat b becomes a stretch beat where an indication for it was seen (R47). -/
def latchStretch (b : BitVec 48) (s : State) : State :=
  if s.time.strSeen.contains b && !s.time.strLatched.contains b then
    { s with time := { s.time with strLatched := s.time.strLatched ++ [b] } }
  else s

section latchStretch
variable (b : BitVec 48) (s : State)

/-- Of the state, the latch touches only the targets latched. -/
theorem latchStretch_eq : latchStretch b s = { s with time := { s.time with strLatched := (latchStretch b s).time.strLatched } } := by
  unfold latchStretch
  split <;> rfl

theorem mem_strLatched_latchStretch (x : BitVec 48) :
    x ∈ (latchStretch b s).time.strLatched ↔ x ∈ s.time.strLatched ∨ x = b ∧ x ∈ s.time.strSeen := by
  unfold latchStretch
  split
  · next h =>
    obtain ⟨hseen, -⟩ : b ∈ s.time.strSeen ∧ b ∉ s.time.strLatched := by simpa using h
    have : x = b → x ∈ s.time.strSeen := fun e => e ▸ hseen
    simp only [List.mem_append, List.mem_singleton]
    tauto
  · next h =>
    have hlatched : b ∈ s.time.strSeen → b ∈ s.time.strLatched := by simpa using h
    constructor
    · exact Or.inl
    · rintro (hx | ⟨rfl, hx⟩)
      · exact hx
      · exact hlatched hx

end latchStretch

/-! ### The two commands -/

/-- The deadline check runs in a beat that is no stretch beat and has not passed slot 128 (R45). -/
theorem exec_deadlineCheck {s : State} (ht : s.ticking = true) (hs : s.time.inStretch = false) (hk : s.slot ≤ 128) :
    exec .deadlineCheck s = .next (match dueMarkers s with
      | [] => atSlot s 128
      | m :: _ => requestStretch m (atSlot s 128)) := by
  have hg : ¬(!s.ticking || s.time.inStretch || decide (128 < s.slot)) = true := by simp [ht, hs, hk]
  change execDeadlineCheck s = _
  rw [execDeadlineCheck, if_neg hg, ← dueMarkers_atSlot hk (by decide)]
  dsimp only
  cases dueMarkers (atSlot s 128) with
  | nil => rfl
  | cons m rest => exact (apply_ite Host.Outcome.next _ _ _).symm

theorem exec_stretchLatch {s : State} (ht : s.ticking = true) (hk : s.slot ≤ 240) :
    exec .stretchLatch s = .next (latchStretch (s.beat + 1) (atSlot s 240)) := by
  have hg : ¬(!s.ticking || decide (240 < s.slot)) = true := by simp [ht, hk]
  change execStretchLatch s = _
  rw [execStretchLatch, if_neg hg, ← beat_atSlot hk (by decide)]
  rfl

/-- Settles O8: the tick moves within its beat, the request is made of its parts, and the latch adds at most the next beat. -/
theorem stretchBeats : Obligations.StretchBeats := by
  unfold Obligations.StretchBeats
  refine ⟨⟨?missed, ?none⟩, ?latch⟩
  case missed =>
    intro s m rest ht hs hk hdue
    have hexec := exec_deadlineCheck ht hs hk
    simp only [hdue] at hexec
    have hbeat : (atSlot s 128).beat = s.beat := beat_atSlot hk (by decide)
    have hctr : (atSlot s 128).counter 5 0 2 = s.counter 5 0 2 := by rw [atSlot_of_slot_le hk]; rfl
    refine ⟨_, hexec, ?_, ?_, ?_, requestStretch_lastStretch _ _, ?_, dueMarkers_requestStretch _ _, ?_, ?_⟩
    · rw [requestStretch_beat, hbeat]
    · rw [requestStretch_slot, slot_atSlot hk (by decide)]
    · exact hbeat ▸ mem_strSeen_requestStretch m (atSlot s 128)
    · rw [counter_requestStretch, hctr]
    · simp
    · simp
  case none =>
    intro s ht hs hk hdue
    rw [exec_deadlineCheck ht hs hk, hdue]
    exact congrArg _ (atSlot_of_slot_le hk)
  case latch =>
    intro s ht hk
    refine ⟨_, exec_stretchLatch ht hk, ?_, ?_, ?_⟩
    · rw [latchStretch_eq]
      exact beat_atSlot hk (by decide)
    · rw [latchStretch_eq]
      exact slot_atSlot hk (by decide)
    · rw [atSlot_of_slot_le hk]
      refine ⟨mem_strLatched_latchStretch _ _, ?_⟩
      rw [latchStretch_eq]
      exact ⟨rfl, rfl, rfl, rfl, rfl⟩

end Sys2Proof.Machine
end

section
/-! BAR2 accesses (17 R469, R470; 10 R273, R304, R306): what each command does in each case of its access, served or not, to devices in service or not. -/

namespace Sys2Proof.Machine

/-- The physical address of an offset into a function's aperture (R469). -/
abbrev apertureAddr (s : State) (f off : Nat) : Nat := (s.func f).aperture.toNat + off

/-! ### The answer of a read -/

/-- A BAR2 read of a function answers its bytes, or none for a poisoned completion. -/
def answerBar2 (f : Nat) (d : Option (List Byte)) (s : State) : State :=
  s.setFunc f { s.func f with bar2Data := d }

section answerBar2
variable (f : Nat) (d : Option (List Byte)) (s : State)

@[simp] theorem answerBar2_bar2Data : ((answerBar2 f d s).func f).bar2Data = d := by simp [answerBar2]
@[simp] theorem answerBar2_mem : (answerBar2 f d s).mem = s.mem := State.setFunc_mem ..
@[simp] theorem answerBar2_queues : (answerBar2 f d s).queues = s.queues := State.setFunc_queues ..
@[simp] theorem answerBar2_counter (cls inst code : Nat) : (answerBar2 f d s).counter cls inst code = s.counter cls inst code := rfl

end answerBar2

theorem length_drawBytes_fst (s : State) (n : Nat) : (drawBytes s n).1.length = n := by simp [drawBytes]

/-! ### BAR2_READ, case by case -/

section bar2Read
variable {f : Func} {off : BitVec 42} {len : Nat} {s : State}

/-- A read that is not served is counted and reads as ones (R470). -/
theorem exec_bar2Read_denied (ho : hostOpen s f.toNat = true) (ha : apertureOk s f.toNat off.toNat len = false) :
    exec (.bar2Read f off len) s = .next (answerBar2 f.toNat (some (List.replicate len 0xFF)) (bump s 0x0B f.toNat 4 1)) := by
  change execBar2Read f off len s = _
  simp only [execBar2Read, ho, ha, Bool.not_true, Bool.not_false, Bool.false_eq_true, if_false, if_true]
  rfl

/-- A served read of a device out of service answers open bytes (R273). -/
theorem exec_bar2Read_outOfService (ho : hostOpen s f.toNat = true) (ha : apertureOk s f.toNat off.toNat len = true)
    (hd : devicesOk s (apertureAddr s f.toNat off.toNat) len = false) :
    exec (.bar2Read f off len) s = .next (answerBar2 f.toNat (some (drawBytes s len).1) (drawBytes s len).2) := by
  change execBar2Read f off len s = _
  simp only [execBar2Read, ho, ha, hd, Bool.not_true, Bool.not_false, Bool.false_eq_true, if_false, if_true]
  rfl

/-- A served read of poison answers no bytes and is recorded in the black box (R306). -/
theorem exec_bar2Read_poisoned {g : Nat} (ho : hostOpen s f.toNat = true) (ha : apertureOk s f.toNat off.toNat len = true)
    (hd : devicesOk s (apertureAddr s f.toNat off.toNat) len = true) (hp : poisonIn s (apertureAddr s f.toNat off.toNat) len = some g) :
    exec (.bar2Read f off len) s = .next (answerBar2 f.toNat none
      (bbWrite (touchPage s (apertureAddr s f.toNat off.toNat) len (leafAt s (apertureAddr s f.toNat off.toNat)))
        0x0008 0 0 (BitVec.ofNat 8 (f.toNat / 64) :: leBytes 8 g))) := by
  change execBar2Read f off len s = _
  simp only [execBar2Read, ho, ha, hd, hp, Bool.not_true, Bool.false_eq_true, if_false]
  rfl

/-- A served read of clean memory in service answers its bytes (R470). -/
theorem exec_bar2Read_clean (ho : hostOpen s f.toNat = true) (ha : apertureOk s f.toNat off.toNat len = true)
    (hd : devicesOk s (apertureAddr s f.toNat off.toNat) len = true) (hp : poisonIn s (apertureAddr s f.toNat off.toNat) len = none) :
    exec (.bar2Read f off len) s = .next (answerBar2 f.toNat (some (physRead s (apertureAddr s f.toNat off.toNat) len))
      (touchPage s (apertureAddr s f.toNat off.toNat) len (leafAt s (apertureAddr s f.toNat off.toNat)))) := by
  change execBar2Read f off len s = _
  simp only [execBar2Read, ho, ha, hd, hp, Bool.not_true, Bool.false_eq_true, if_false]
  rfl

end bar2Read

/-! ### BAR2_WRITE, case by case -/

section bar2Write
variable {f : Func} {off : BitVec 42} {data : List Byte} {s : State}

/-- A write that is not served is dropped and counted (R470). -/
theorem exec_bar2Write_denied (ho : hostOpen s f.toNat = true) (ha : apertureOk s f.toNat off.toNat data.length = false) :
    exec (.bar2Write f off data) s = .next (bump s 0x0B f.toNat 4 1) := by
  change execBar2Write f off data s = _
  simp [execBar2Write, ho, ha]

/-- A write to a device out of service lands nowhere (R273). -/
theorem exec_bar2Write_outOfService (ho : hostOpen s f.toNat = true) (ha : apertureOk s f.toNat off.toNat data.length = true)
    (hd : devicesOk s (apertureAddr s f.toNat off.toNat) data.length = false) :
    exec (.bar2Write f off data) s = .next s := by
  change execBar2Write f off data s = _
  simp [execBar2Write, ho, ha, hd]

/-- A served write to devices in service lands, as a transaction to its page (R300, R470). -/
theorem exec_bar2Write_served (ho : hostOpen s f.toNat = true) (ha : apertureOk s f.toNat off.toNat data.length = true)
    (hd : devicesOk s (apertureAddr s f.toNat off.toNat) data.length = true) :
    exec (.bar2Write f off data) s = .next (touchPage (physWrite s (apertureAddr s f.toNat off.toNat) data)
      (apertureAddr s f.toNat off.toNat) data.length (leafAt s (apertureAddr s f.toNat off.toNat))) := by
  change execBar2Write f off data s = _
  simp [execBar2Write, ho, ha, hd]

end bar2Write

/-- Settles O23: each case of an access is one equation of the command, and what it stores is read back as `memPut` lays it down. -/
theorem apertureReadsAndWrites : Obligations.ApertureReadsAndWrites := by
  unfold Obligations.ApertureReadsAndWrites
  refine ⟨?readServed, ?writeServed, ?readDenied, ?writeDenied⟩
  case readServed =>
    intro f off len s ho ha
    constructor
    · intro hd
      cases hp : poisonIn s (apertureAddr s f.toNat off.toNat) len with
      | some g => exact ⟨_, exec_bar2Read_poisoned ho ha hd hp, by simp, by simp, by simp⟩
      | none => exact ⟨_, exec_bar2Read_clean ho ha hd hp, by simp, by simp, by simp⟩
    · intro hd
      exact ⟨_, _, exec_bar2Read_outOfService ho ha hd, answerBar2_bar2Data .., length_drawBytes_fst s len, by simp, by simp⟩
  case writeServed =>
    intro f off data s ho hwf ha
    refine ⟨fun hd => ⟨_, exec_bar2Write_served ho ha hd, by simp, by simp, fun x => ?_⟩, exec_bar2Write_outOfService ho ha⟩
    rw [touchPage_mem]
    exact memGet_memPut _ x data hwf
  case readDenied =>
    intro f off len s ho ha
    refine ⟨_, exec_bar2Read_denied ho ha, answerBar2_bar2Data .., ?_, by simp⟩
    exact (answerBar2_counter ..).trans (counter_bump_same s 0x0B f.toNat 4 1 one_ne_zero)
  case writeDenied =>
    intro f off data s ho ha
    exact ⟨_, exec_bar2Write_denied ho ha, bump_mem .., counter_bump_same s 0x0B f.toNat 4 1 one_ne_zero⟩

end Sys2Proof.Machine
end

section
/-! Memory keeps its canonical form through the changes of the state that store into it. -/

namespace Sys2Proof.Machine

section
variable {s : State} (h : Memory.wf s.mem = true)
include h

@[simp] theorem wf_postEvent (f code job : Nat) (d : List Byte) : Memory.wf (postEvent s f code job d).mem = true := by
  unfold postEvent
  dsimp only
  split
  · simpa
  · split
    · next hw => 
      have := wf_vWrite hw
      simp_all [apply_ite]
    · split <;> simpa
    · split <;> simpa

theorem wf_foldl {α : Type} (g : State → α → State) (hg : ∀ s a, Memory.wf s.mem = true → Memory.wf (g s a).mem = true) (l : List α) :
    Memory.wf (l.foldl g s).mem = true := by
  induction l generalizing s with
  | nil => exact h
  | cons a r ih => exact ih (hg s a h)

@[simp] theorem wf_postTo (fs : List Nat) (code : Nat) (d : List Byte) : Memory.wf (postTo s fs code d).mem = true :=
  wf_foldl (by simpa) _ (fun _ _ h => by simp [h]) _
@[simp] theorem wf_postAll (code : Nat) (d : List Byte) : Memory.wf (postAll s code d).mem = true := wf_postTo h _ _ _
@[simp] theorem wf_fabricFault (code : Nat) (d : List Byte) : Memory.wf (fabricFault s code d).mem = true :=
  wf_foldl (by simpa) _ (fun _ _ h => by simp [h]) _
@[simp] theorem wf_haltQueue (q : QNum) (st seq : Nat) : Memory.wf (haltQueue s q st seq).mem = true := by
  unfold haltQueue; dsimp only; split <;> simp [h]
@[simp] theorem wf_stopJob (f job a l : Nat) : Memory.wf (stopJob s f job a l).mem = true := by
  unfold stopJob
  dsimp only
  refine wf_postEvent ?_ _ _ _ _
  split
  · rw [noteFault_mem]; exact wf_foldl (by simpa) _ (fun _ _ h => by simp [h]) _
  · simpa
@[simp] theorem wf_linkDown (p : Port) : Memory.wf (linkDown s p).mem = true := by unfold linkDown; simp [h]
@[simp] theorem wf_failPort (p : Port) (r : Nat) : Memory.wf (failPort s p r).mem = true := by unfold failPort; dsimp only; split <;> simp [h]
@[simp] theorem wf_runChecks (p : Port) : Memory.wf (runChecks s p).mem = true := by unfold runChecks; dsimp only; (repeat' split) <;> simp [h]
@[simp] theorem wf_recheckPorts : Memory.wf (recheckPorts s).mem = true := by
  unfold recheckPorts; exact wf_foldl h _ (fun _ _ h => by split <;> simp [h]) _
@[simp] theorem wf_finishCmd (q : QNum) (w : Started) (lost : Option Nat) : Memory.wf (finishCmd s q w lost).mem = true := by
  unfold finishCmd; dsimp only; (repeat' split) <;> simp [h]
end
end Sys2Proof.Machine
end

section
/-! What the changes of the state leave of the queue of waiting commands and of the form of memory. -/

namespace Sys2Proof.Machine

@[simp] theorem wf_ite {m n : List Host.Cell} (c : Prop) [Decidable c] (hm : Memory.wf m = true) (hn : Memory.wf n = true) :
    Memory.wf (if c then m else n) = true := by split <;> assumption

@[simp] theorem leaveTile_pending (s : State) (q : QNum) (a : Nat) : (leaveTile s q a).pending = s.pending := by
  unfold leaveTile; dsimp only; (repeat' split) <;> first | rfl | simp
@[simp] theorem leaveTile_mem (s : State) (q : QNum) (a : Nat) : (leaveTile s q a).mem = s.mem := by
  unfold leaveTile; dsimp only; (repeat' split) <;> first | rfl | simp

@[simp] theorem lateSenders_pending (s : State) : (lateSenders s).pending = s.pending :=
  lateSenders_keeps State.pending (fun _ _ _ => rfl) (fun _ _ _ => rfl) (fun _ _ => bump_pending ..) s
@[simp] theorem lateSenders_mem (s : State) : (lateSenders s).mem = s.mem :=
  lateSenders_keeps State.mem (fun _ _ _ => rfl) (fun _ _ _ => rfl) (fun _ _ => bump_mem ..) s

@[simp] theorem retryEvents_pending (s : State) (f : Nat) : (retryEvents s f).pending = s.pending := by
  refine (foldl_pending _ (fun s e => ?_) _ _).trans (State.setFunc_pending ..)
  split
  · next hw => simp [vWrite_ok_pending hw]
  all_goals simp
@[simp] theorem wf_retryEvents {s : State} (h : Memory.wf s.mem = true) (f : Nat) : Memory.wf (retryEvents s f).mem = true := by
  refine wf_foldl (by simpa) _ (fun s e h => ?_) _
  split
  · next hw => simp [wf_vWrite hw h]
  all_goals simp [h]

@[simp] theorem answerPage_pending (s : State) (f va : Nat) (a : AtsState) : (answerPage s f va a).pending = s.pending := by
  unfold answerPage; split <;> simp
@[simp] theorem wf_answerPage {s : State} (h : Memory.wf s.mem = true) (f va : Nat) (a : AtsState) : Memory.wf (answerPage s f va a).mem = true := by
  unfold answerPage; split <;> simp [h]

@[simp] theorem wf_pointLeaf {s : State} (h : Memory.wf s.mem = true) (leaf fr : Nat) : Memory.wf (pointLeaf s leaf fr).mem = true := by
  exact wf_physWrite _ _ h

@[simp] theorem wf_doMove {s : State} (h : Memory.wf s.mem = true) (m : PageMv) : Memory.wf (doMove s m).mem = true := by
  have hc := wf_copyFrame m.old m.new h
  cases ho : m.other with
  | none =>
    simp only [doMove, ho]
    apply wf_pointLeaf
    exact hc
  | some c =>
    simp only [doMove, ho]
    apply wf_pointLeaf
    apply wf_pointLeaf
    apply wf_foldl_memSet
    apply wf_filter
    exact hc

@[simp] theorem wf_syncSlip {s : State} (h : Memory.wf s.mem = true)  : Memory.wf (syncSlip s).mem = true := by
  exact wf_fabricFault (by simpa) _ _

@[simp] theorem wf_goodPulse {s : State} (h : Memory.wf s.mem = true) (rise : BitVec 64) : Memory.wf (goodPulse s rise).mem = true := by
  unfold goodPulse; dsimp only; (repeat' split) <;> simp [h, moveTime_mem]

@[simp] theorem wf_strIndication {s : State} (h : Memory.wf s.mem = true) (p : Port) (tgt : BitVec 4) : Memory.wf (strIndication s p tgt).mem = true := by
  unfold strIndication; dsimp only; (repeat' split) <;> simp [h]

@[simp] theorem wf_enterState {s : State} (h : Memory.wf s.mem = true) (n : ModState) : Memory.wf (enterState s n).mem = true := by
  unfold enterState; dsimp only; (repeat' split) <;> simp [h]

@[simp] theorem wf_jobsEnded {s : State} (h : Memory.wf s.mem = true)  : Memory.wf (jobsEnded s).mem = true := by
  unfold jobsEnded; split <;> simp [h]

@[simp] theorem wf_blurSpan {s : State} (h : Memory.wf s.mem = true) (f job : Nat) (sp : Span) : Memory.wf (blurSpan f job s sp).mem = true := by
  unfold blurSpan
  dsimp only
  split
  · exact wf_physWrite _ _ (by simpa)
  · split
    · next hw => exact wf_vWrite hw (by simpa)
    · simpa

@[simp] theorem wf_completeStat {s : State} (h : Memory.wf s.mem = true) (f job : Nat) (w : Started) : Memory.wf (completeStat s f job w).1.mem = true := by
  exact completeStat_keeps (fun u => Memory.wf u.mem = true) (fun _ a bs h => wf_physWrite a bs h) (fun _ _ _ _ h => by simpa) (fun _ _ _ _ h => by simpa) (fun _ _ _ _ h => by simpa) s f job w h

@[simp] theorem wf_completeOne {s : State} (h : Memory.wf s.mem = true) (q : QNum) (w : Started) : Memory.wf (completeOne s q w).mem = true := by
  unfold completeOne
  dsimp only
  split
  · simpa
  · split
    · next hw => exact wf_finishCmd (wf_vWrite hw (by simp [h])) _ _ _
    all_goals simp [h]

@[simp] theorem wf_recordAborted {s : State} (h : Memory.wf s.mem = true) (q : QNum) (w : Started) : Memory.wf (recordAborted s q w).mem = true := by
  unfold recordAborted
  dsimp only
  split
  · next hw => exact wf_finishCmd (wf_vWrite hw (wf_completeStat (by simpa using wf_foldl h _ (fun _ _ h => wf_blurSpan h _ _ _) _) _ _ _)) _ _ _
  · exact wf_finishCmd (wf_completeStat (by simpa using wf_foldl h _ (fun _ _ h => wf_blurSpan h _ _ _) _) _ _ _) _ _ _

@[simp] theorem wf_endAborted {s : State} (h : Memory.wf s.mem = true) (q : QNum) : Memory.wf (endAborted s q).mem = true := by
  have := wf_foldl h (fun s w => recordAborted s q w) (fun _ _ h => wf_recordAborted h _ _) (s.queue q).started
  unfold endAborted
  dsimp only
  split <;> exact this

@[simp] theorem endReplays_pending (s : State) (j : Nat) : (endReplays s j).pending = s.pending :=
  foldl_pending _ (fun s t => by (repeat' split) <;> simp) _ _
@[simp] theorem endReplays_mem (s : State) (j : Nat) : (endReplays s j).mem = s.mem :=
  foldl_mem _ (fun s t => by (repeat' split) <;> simp) _ _

@[simp] theorem releaseJob_pending (s : State) (j : Nat) : (releaseJob s j).pending = s.pending := by
  unfold releaseJob
  simp only [jobsEnded_pending, endReplays_pending]
  refine (foldl_pending _ (fun s q => ?_) _ _).trans (foldl_pending _ (fun s q => endAborted_pending s q) _ _)
  dsimp only
  split <;> simp
@[simp] theorem wf_releaseJob {s : State} (h : Memory.wf s.mem = true) (j : Nat) : Memory.wf (releaseJob s j).mem = true := by
  unfold releaseJob
  refine wf_jobsEnded ?_
  dsimp only
  rw [endReplays_mem]
  refine wf_foldl (wf_foldl h _ (fun _ _ h => wf_endAborted h _) _) _ (fun s q h => ?_) _
  dsimp only
  split <;> simpa

@[simp] theorem wf_abortDone {s : State} (h : Memory.wf s.mem = true) (ofF : Bool) (t f us : Nat) : Memory.wf (abortDone s ofF t f us).mem = true := by
  exact wf_postEvent (by simpa) _ _ _ _

@[simp] theorem endMetAbort_pending (s : State) (f : Nat) (j : Nat) : (endMetAbort f s j).pending = s.pending := by
  unfold endMetAbort; simp
@[simp] theorem wf_endMetAbort {s : State} (h : Memory.wf s.mem = true) (f : Nat) (j : Nat) : Memory.wf (endMetAbort f s j).mem = true := by
  unfold endMetAbort; simp [h]

@[simp] theorem completeFunction_pending (s : State) (f us : Nat) : (completeFunction s f us).pending = s.pending := by
  unfold completeFunction
  simp only [abortDone_pending, abandonHost_pending]
  exact (foldl_pending _ (fun s q => endAborted_pending s _) _ _).trans ((foldl_pending _ (fun s q => endMetAbort_pending s _ _) _ _).trans
    (foldl_pending _ (fun s j => releaseJob_pending s j) _ _))
@[simp] theorem wf_completeFunction {s : State} (h : Memory.wf s.mem = true) (f us : Nat) : Memory.wf (completeFunction s f us).mem = true := by
  unfold completeFunction
  refine wf_abortDone ?_ _ _ _ _
  rw [abandonHost_mem]
  exact wf_foldl (wf_foldl (wf_foldl h _ (fun _ _ h => wf_releaseJob h _) _) _ (fun _ _ h => wf_endMetAbort h _ _) _) _ (fun _ _ h => wf_endAborted h _) _

@[simp] theorem abortFunctionNow_pending (s : State) (f : Nat) : (abortFunctionNow s f).pending = s.pending := by
  unfold abortFunctionNow; simp
@[simp] theorem wf_abortFunctionNow {s : State} (h : Memory.wf s.mem = true) (f : Nat) : Memory.wf (abortFunctionNow s f).mem = true := by
  unfold abortFunctionNow; simp [h]

@[simp] theorem wf_abtIndication {s : State} (h : Memory.wf s.mem = true) (p : Port) (r : BitVec 10) : Memory.wf (abtIndication s p r).mem = true := by
  unfold abtIndication; dsimp only; (repeat' split) <;> simp [h]

@[simp] theorem wf_startReplay {s : State} (h : Memory.wf s.mem = true) (p : Port) (from_ : BitVec 16) : Memory.wf (startReplay s p from_).mem = true := by
  unfold startReplay; dsimp only; (repeat' split) <;> simp [h]

@[simp] theorem wf_takeAck {s : State} (h : Memory.wf s.mem = true) (p : Port) (ack : BitVec 16) (nak : Bool) : Memory.wf (takeAck s p ack nak).mem = true := by
  unfold takeAck; dsimp only; (repeat' split) <;> simp [h]

@[simp] theorem wf_checkSkew {s : State} (h : Memory.wf s.mem = true) (p : Port) (beat slot : Nat) : Memory.wf (checkSkew s p beat slot).mem = true := by
  unfold checkSkew; dsimp only; (repeat' split) <;> simp [h]

@[simp] theorem wf_laneFailed {s : State} (h : Memory.wf s.mem = true) (p : Port) (lane : BitVec 4) (ahead : Nat) : Memory.wf (laneFailed s p lane ahead).mem = true := by
  unfold laneFailed; dsimp only; (repeat' split) <;> simp [h]

@[simp] theorem noteAligns_pending (q : QNum) (n : Nat) : ∀ (s : State) (idx : BitVec 16), (noteAligns s q idx n).pending = s.pending := by
  induction n with
  | zero => intros; rfl
  | succ n ih => intro s idx; simp only [noteAligns, ih]; (repeat' split) <;> simp
@[simp] theorem noteAligns_mem (q : QNum) (n : Nat) : ∀ (s : State) (idx : BitVec 16), (noteAligns s q idx n).mem = s.mem := by
  induction n with
  | zero => intros; rfl
  | succ n ih => intro s idx; simp only [noteAligns, ih]; (repeat' split) <;> simp
@[simp] theorem coverTo_pending (s : State) (q : QNum) (t : BitVec 16) : (coverTo s q t).pending = s.pending := by unfold coverTo; simp
@[simp] theorem coverTo_mem (s : State) (q : QNum) (t : BitVec 16) : (coverTo s q t).mem = s.mem := by unfold coverTo; simp

@[simp] theorem wf_flushOne {s : State} (h : Memory.wf s.mem = true) (q : QNum) : Memory.wf (flushOne s q).1.mem = true := by
  unfold flushOne
  dsimp only
  split
  · next hw => simp [wf_vWrite hw (by simpa)]
  all_goals simpa

@[simp] theorem flushFrom_pending (q : QNum) (n : Nat) : ∀ s : State, (flushFrom s q n).1.pending = s.pending := by
  induction n with
  | zero => intro s; rfl
  | succ n ih =>
    intro s
    have h1 := flushOne_pending s q
    simp only [flushFrom]
    split
    · next hf => rw [ih, ← h1, hf]
    · exact h1
@[simp] theorem wf_flushFrom (q : QNum) (n : Nat) : ∀ {s : State}, Memory.wf s.mem = true → Memory.wf (flushFrom s q n).1.mem = true := by
  induction n with
  | zero => exact fun h => h
  | succ n ih =>
    intro s h
    have h1 := wf_flushOne h q
    simp only [flushFrom]
    split
    · next hf => exact ih (by rwa [hf] at h1)
    · exact h1

@[simp] theorem runFlush_pending (s : State) (q : QNum) : (runFlush s q).pending = s.pending := by
  have h1 := flushFrom_pending q (s.queue q).waiting s
  unfold runFlush
  dsimp only
  split <;> next hf => simpa [hf] using h1
@[simp] theorem wf_runFlush {s : State} (h : Memory.wf s.mem = true) (q : QNum) : Memory.wf (runFlush s q).mem = true := by
  have h1 := wf_flushFrom q (s.queue q).waiting h
  unfold runFlush
  dsimp only
  split <;> next hf => rw [hf] at h1; simp [h1]

@[simp] theorem leaveWait_pending (q : QNum) (c : Cmd) (s : State) : (leaveWait q c s).pending = s.pending := rfl
@[simp] theorem leaveWait_mem (q : QNum) (c : Cmd) (s : State) : (leaveWait q c s).mem = s.mem := rfl

@[simp] theorem ringDoorbell_pending (s : State) (f : Nat) (q : QNum) (tail : BitVec 16) : (ringDoorbell s f q tail).pending = s.pending := by
  unfold ringDoorbell; dsimp only; (repeat' split) <;> simp

@[simp] theorem ringDoorbell_mem (s : State) (f : Nat) (q : QNum) (tail : BitVec 16) : (ringDoorbell s f q tail).mem = s.mem := by
  unfold ringDoorbell; dsimp only; (repeat' split) <;> simp

@[simp] theorem flushAs_pending (s : State) (p : Path) (q : QNum) : (flushAs s p q).2.pending = s.pending := by
  unfold flushAs; dsimp only; split <;> simp
@[simp] theorem wf_flushAs {s : State} (h : Memory.wf s.mem = true) (p : Path) (q : QNum) : Memory.wf (flushAs s p q).2.mem = true := by
  unfold flushAs; dsimp only; split <;> simp [h]

@[simp] theorem queueControl_pending (s : State) (p : Path) (v : Nat) : (queueControl s p v).2.pending = s.pending := by
  unfold queueControl; dsimp only; (repeat' split) <;> simp
@[simp] theorem wf_queueControl {s : State} (h : Memory.wf s.mem = true) (p : Path) (v : Nat) : Memory.wf (queueControl s p v).2.mem = true := by
  unfold queueControl; dsimp only; (repeat' split) <;> simp [h]

@[simp] theorem abortLoading_pending (s : State) (w : LoadWait) : (abortLoading s w).pending = s.pending := by
  unfold abortLoading; simp
@[simp] theorem wf_abortLoading {s : State} (h : Memory.wf s.mem = true) (w : LoadWait) : Memory.wf (abortLoading s w).mem = true := by
  unfold abortLoading; simp [h]

@[simp] theorem jobAbortWrite_pending (s : State) (p : Path) (j : Nat) : (jobAbortWrite s p j).2.pending = s.pending := by
  unfold jobAbortWrite; (repeat' split) <;> simp
@[simp] theorem wf_jobAbortWrite {s : State} (h : Memory.wf s.mem = true) (p : Path) (j : Nat) : Memory.wf (jobAbortWrite s p j).2.mem = true := by
  unfold jobAbortWrite; (repeat' split) <;> simp [h]

@[simp] theorem wf_coordEntryWrite {s : State} (h : Memory.wf s.mem = true) (v : Nat) : Memory.wf (coordEntryWrite s v).2.mem = true := by
  unfold coordEntryWrite; split <;> simp [h]

@[simp] theorem wf_axisEntryWrite {s : State} (h : Memory.wf s.mem = true) (v : Nat) : Memory.wf (axisEntryWrite s v).2.mem = true := by
  unfold axisEntryWrite; split <;> simp [h]

@[simp] theorem wf_enterFaulted {s : State} (h : Memory.wf s.mem = true) (cause : Nat) : Memory.wf (enterFaulted s cause).mem = true := by
  unfold enterFaulted; split <;> simp [h]

@[simp] theorem wf_loseCore {s : State} (h : Memory.wf s.mem = true) (core : Nat) : Memory.wf (loseCore s core).mem = true := by
  unfold loseCore; dsimp only; (repeat' split) <;> simp [h]

@[simp] theorem wf_failRepl {s : State} (h : Memory.wf s.mem = true) (r : CoreRepl) (oldWorks : Bool) : Memory.wf (failRepl s r oldWorks).mem = true := by
  unfold failRepl; dsimp only; (repeat' split) <;> simp [h]

@[simp] theorem restarted_mem (s : State) (on : Bool) : (restarted s on).mem = [] := rfl
/-- Giving claims their pins again changes what a step of it leaves alone nowhere. -/
theorem remakeClaims_keeps {β : Type} (F : State → β) (h : ∀ s i k v a b c d, F (bbWrite (persist (State.setReg s i k v) i k v) a b c d) = F s) (s : State) :
    F (remakeClaims s) = F s := by
  unfold remakeClaims
  generalize claimants = l
  suffices ∀ acc : State × List Nat, F (l.foldl _ acc).1 = F acc.1 from this (s, [])
  induction l with
  | nil => exact fun _ => rfl
  | cons e r ih =>
    intro acc
    rw [List.foldl_cons, ih]
    dsimp only
    (repeat' split) <;> first | rfl | exact h ..
@[simp] theorem remakeClaims_pending (s : State) : (remakeClaims s).pending = s.pending := remakeClaims_keeps State.pending (by simp) s
@[simp] theorem remakeClaims_mem (s : State) : (remakeClaims s).mem = s.mem := remakeClaims_keeps State.mem (by simp) s
@[simp] theorem boot_pending (s : State) (on : Bool) : (boot s on).pending = s.pending := by
  unfold boot; simp only [state_ite_pending, bbWrite_pending, ite_self, remakeClaims_pending, bootRoot_pending, applyStore_pending]
@[simp] theorem boot_mem (s : State) (on : Bool) : (boot s on).mem = s.mem := by
  unfold boot; simp only [state_ite_mem, bbWrite_mem, ite_self, remakeClaims_mem, bootRoot_mem, applyStore_mem]

@[simp] theorem mapDie_pending (s : State) (failed : List (Die × BitVec 6)) (d : Die) : (mapDie failed s d).pending = s.pending := by
  unfold mapDie
  dsimp only
  refine (foldl_pending _ (fun s c => ?_) _ _).trans ((foldl_pending _ (fun s c => by simp) _ _).trans rfl)
  split <;> simp
@[simp] theorem wf_mapDie {s : State} (h : Memory.wf s.mem = true) (failed : List (Die × BitVec 6)) (d : Die) : Memory.wf (mapDie failed s d).mem = true := by
  unfold mapDie
  dsimp only
  refine wf_foldl (wf_foldl (by exact h) _ (fun s c h => by simpa) _) _ (fun s c h => ?_) _
  split <;> simp [h]

@[simp] theorem wf_goStandby {s : State} (h : Memory.wf s.mem = true)  : Memory.wf (goStandby s).mem = true := by
  unfold goStandby
  rw [settlePorts_mem]
  exact wf_enterState (wf_filter _ h) _

@[simp] theorem wf_modeWrite {s : State} (h : Memory.wf s.mem = true) (m : Nat) : Memory.wf (modeWrite s m).2.mem = true := by
  unfold modeWrite; dsimp only; (repeat' split) <;> simp [h]

@[simp] theorem wf_drainWrite {s : State} (h : Memory.wf s.mem = true) (v : Nat) : Memory.wf (drainWrite s v).2.mem = true := by
  unfold drainWrite; dsimp only; split <;> simp [h]

@[simp] theorem abortAll_pending (s : State)  : (abortAll s).pending = s.pending := by
  exact foldl_pending _ (fun s f => abortFunctionNow_pending s f) _ _
@[simp] theorem wf_abortAll {s : State} (h : Memory.wf s.mem = true)  : Memory.wf (abortAll s).mem = true := by
  exact wf_foldl h _ (fun _ _ h => wf_abortFunctionNow h _) _

@[simp] theorem resetModule_pending (s : State) (pin : Bool) : (resetModule s pin).pending = s.pending := by unfold resetModule; dsimp only; split <;> simp
@[simp] theorem resetModule_mem (s : State) (pin : Bool) : (resetModule s pin).mem = [] := by unfold resetModule; dsimp only; split <;> simp

@[simp] theorem resetWrite_pending (s : State) (v : Nat) : (resetWrite s v).2.pending = s.pending := by
  unfold resetWrite; (repeat' split) <;> simp
@[simp] theorem wf_resetWrite {s : State} (h : Memory.wf s.mem = true) (v : Nat) : Memory.wf (resetWrite s v).2.mem = true := by
  unfold resetWrite; (repeat' split) <;> simp [h, Memory.wf]

@[simp] theorem apertureWrite_pending (s : State) (p : Path) (d : List Byte) : (apertureWrite s p d).2.pending = s.pending := by
  unfold apertureWrite; dsimp only; split_ifs
  · exact foldl_pending _ (fun _ _ => State.setFunc_pending ..) _ _
  · rfl
@[simp] theorem apertureWrite_mem (s : State) (p : Path) (d : List Byte) : (apertureWrite s p d).2.mem = s.mem := by
  unfold apertureWrite; dsimp only; split_ifs
  · exact foldl_mem _ (fun _ _ => State.setFunc_mem ..) _ _
  · rfl
@[simp] theorem poolWrite_pending (s : State) (v len : Nat) : (poolWrite s v len).2.pending = s.pending := by unfold poolWrite; dsimp only; split <;> simp
@[simp] theorem poolWrite_mem (s : State) (v len : Nat) : (poolWrite s v len).2.mem = s.mem := by unfold poolWrite; dsimp only; split <;> simp

end Sys2Proof.Machine
end

section
/-! A computation that keeps the state, however it ends: one rule for each way to build one. -/

namespace Sys2Proof.Machine

/-- A change of the state that leaves the queue of waiting commands alone and memory in its canonical form. -/
def Keeps (s t : State) : Prop := t.pending = s.pending ∧ (Memory.wf s.mem = true → Memory.wf t.mem = true)

theorem Keeps.refl (s : State) : Keeps s s := ⟨rfl, id⟩
theorem Keeps.trans {s t u : State} (h1 : Keeps s t) (h2 : Keeps t u) : Keeps s u := ⟨h2.1.trans h1.1, h2.2 ∘ h1.2⟩
theorem Keeps.of_eq {s t : State} (hp : t.pending = s.pending) (hm : t.mem = s.mem) : Keeps s t := ⟨hp, fun h => hm ▸ h⟩

/-- A computation over something that holds a state: however it ends, what has come of s0 by such changes has still done so. -/
def Mild {σ ε α : Type} (s0 : State) (st : σ → State) (m : ExceptT ε (StateM σ) α) : Prop :=
  ∀ r, Keeps s0 (st r) → Keeps s0 (st ((ExceptT.run m).run r).2)

section
variable {σ ε α β : Type} {st : σ → State} {s0 : State}

theorem Mild.pure (a : α) : Mild s0 st (Pure.pure a : ExceptT ε (StateM σ) α) := fun _ h => h
theorem Mild.throw (e : ε) : Mild s0 st (MonadExcept.throw e : ExceptT ε (StateM σ) α) := fun _ h => h
theorem Mild.get : Mild s0 st (MonadState.get : ExceptT ε (StateM σ) σ) := fun _ h => h
theorem Mild.modify (g : σ → σ) (h : ∀ r, Keeps s0 (st r) → Keeps s0 (st (g r))) : Mild s0 st (modify g : ExceptT ε (StateM σ) Unit) := h

theorem Mild.bind {m : ExceptT ε (StateM σ) α} {k : α → ExceptT ε (StateM σ) β} (h1 : Mild s0 st m) (h2 : ∀ a, Mild s0 st (k a)) : Mild s0 st (m >>= k) := by
  intro r hr
  have h := h1 r hr
  rw [ExceptT.run_bind, StateT.run_bind]
  generalize (ExceptT.run m).run r = y at h
  obtain ⟨x | a, r1⟩ := y
  · exact h
  · exact h2 a r1 h

/-- A computation that looks at the run first. -/
theorem Mild.got {k : σ → ExceptT ε (StateM σ) β} (h : ∀ r, Keeps s0 (st r) → Mild s0 st (k r)) : Mild s0 st (MonadState.get >>= k) :=
  fun r hr => h r hr r hr

theorem Mild.map {m : ExceptT ε (StateM σ) α} (g : α → β) (h : Mild s0 st m) : Mild s0 st (g <$> m) := by
  rw [map_eq_pure_bind]
  exact h.bind fun _ => Mild.pure _
theorem Mild.ite {c : Prop} [Decidable c] {m n : ExceptT ε (StateM σ) α} (hm : Mild s0 st m) (hn : Mild s0 st n) : Mild s0 st (if c then m else n) := by
  split <;> assumption
theorem Mild.tryCatch {m : ExceptT ε (StateM σ) α} {k : ε → ExceptT ε (StateM σ) α} (hm : Mild s0 st m) (hk : ∀ e, Mild s0 st (k e)) :
    Mild s0 st (MonadExcept.tryCatch m k) := by
  intro r hr
  have h := hm r hr
  have e : (ExceptT.run (MonadExcept.tryCatch m k)).run r = (match ((ExceptT.run m).run r).1 with
    | .ok a => Pure.pure (.ok a)
    | .error e => ExceptT.run (k e) : StateM σ _).run ((ExceptT.run m).run r).2 := rfl
  rw [e]
  generalize (ExceptT.run m).run r = y at h
  obtain ⟨x | a, r1⟩ := y
  · exact hk x r1 h
  · exact h
end

/-! ### The running command -/

section
variable {α β : Type} {s0 : State}

theorem mild_modS {g : State → State} (h : ∀ s, Keeps s0 s → Keeps s0 (g s)) : Mild s0 Run.s (modS g) := fun r hr => h r.s hr
/-- A change of the state that leaves the waiting commands and memory alone. -/
theorem mild_frame {g : State → State} (hp : ∀ s, (g s).pending = s.pending) (hm : ∀ s, (g s).mem = s.mem) : Mild s0 Run.s (modS g) :=
  mild_modS fun s h => h.trans (Keeps.of_eq (hp s) (hm s))
theorem mild_modW (g : Started → Started) : Mild s0 Run.s (modW g) := fun _ h => h
theorem mild_forEach {l : List α} {g : α → M Unit} (h : ∀ a, Mild s0 Run.s (g a)) : Mild s0 Run.s (forEach l g) := by
  induction l with
  | nil => exact Mild.pure ()
  | cons a r ih => exact (h a).bind fun _ => ih
theorem mild_mapEach {l : List α} {g : α → M β} (h : ∀ a, Mild s0 Run.s (g a)) : Mild s0 Run.s (mapEach l g) := by
  induction l with
  | nil => exact Mild.pure _
  | cons a r ih => exact (h a).bind fun _ => ih.bind fun _ => Mild.pure _
theorem mild_stopWith (n : Nat) : Mild s0 Run.s (stopWith n : M α) := Mild.throw _
theorem mild_stopAt (a b c : Nat) : Mild s0 Run.s (stopAt a b c : M α) := Mild.throw _
theorem mild_need (b : Bool) (n : Nat) : Mild s0 Run.s (need b n) := Mild.ite (Mild.pure _) (mild_stopWith _)
theorem mild_getS : Mild s0 Run.s getS := Mild.get.bind fun _ => Mild.pure _
theorem mild_fieldM (o n : Nat) : Mild s0 Run.s (fieldM o n) := Mild.get.bind fun _ => Mild.pure _
theorem mild_jobM : Mild s0 Run.s jobM := Mild.get.bind fun _ => Mild.pure _
theorem mild_countM (c n : Nat) : Mild s0 Run.s (countM c n) := fun _ h => h.trans (Keeps.of_eq (bumpStep_pending ..) (bumpStep_mem ..))
/-- What follows an access that has succeeded. -/
theorem mild_accStop {b : Bool} {x : Acc α} {k : α → M β} (h : ∀ a, x = .ok a → Mild s0 Run.s (k a)) : Mild s0 Run.s (accStop b x >>= k) := by
  cases x with
  | ok a => exact h a rfl
  | _ => exact fun _ h => h
theorem mild_scoreboardM (a n : Nat) : Mild s0 Run.s (scoreboardM a n) := Mild.get.bind fun _ => Mild.ite (Mild.throw _) (Mild.pure _)
theorem mild_tagsM (a n : Nat) : Mild s0 Run.s (tagsM a n) := Mild.get.bind fun _ => Mild.ite (Mild.throw _) (Mild.pure _)

/-- A computation that looks at the state first. -/
theorem mild_gotS {k : State → M β} (h : ∀ s, Keeps s0 s → Mild s0 Run.s (k s)) : Mild s0 Run.s (getS >>= k) := fun r hr => h r.s hr r hr
theorem mild_put {t : State} (h : Keeps s0 t) : Mild s0 Run.s (modS fun _ => t) := fun _ _ => h
theorem keeps_drawWord {s : State} (h : Keeps s0 s) : Keeps s0 (drawWord s).2 := h.trans (Keeps.of_eq (drawWord_pending s) (drawWord_mem s))

theorem mild_readM (tier a n : Nat) : Mild s0 Run.s (readM tier a n) := by
  refine Mild.got fun r hr => Mild.ite ((mild_scoreboardM _ _).bind fun _ => ?_) ((mild_tagsM _ _).bind fun _ => mild_accStop fun x hx => ?_)
  · split
    · exact fun _ h => h
    · exact Mild.pure _
  · have hx : Keeps r.s x.2 := Keeps.of_eq (vRead_ok_pending hx) (vRead_ok_mem hx)
    exact (mild_modS fun _ _ => hr.trans hx).bind fun _ => (mild_modW _).bind fun _ => Mild.pure _
theorem mild_noteSpan (near : Bool) (a n : Nat) : Mild s0 Run.s (noteSpan near a n) := mild_modW _
theorem mild_writeM (tier a : Nat) (bs : List Byte) : Mild s0 Run.s (writeM tier a bs) := by
  unfold writeM
  have rest : ∀ (g : State → State), (∀ s, Keeps s (g s)) → Mild s0 Run.s (do modS g; noteSpan (tier == 0) a bs.length) :=
    fun g hg => (mild_modS fun s h => h.trans (hg s)).bind fun _ => mild_noteSpan _ _ _
  refine Mild.got fun r hr => ?_
  dsimp only
  split
  · exact (mild_modS fun s h => h.trans ⟨physWrite_pending .., wf_physWrite _ _⟩).bind fun _ => rest _ fun s => Keeps.of_eq (unpoison_pending ..) (unpoison_mem ..)
  · refine (mild_tagsM _ _).bind fun _ => mild_accStop fun x hx => ?_
    exact (mild_modS fun _ _ => hr.trans ⟨vWrite_ok_pending hx, wf_vWrite hx⟩).bind fun _ => rest _ fun s => Keeps.of_eq (unpoison_pending ..) (unpoison_mem ..)
theorem mild_peekM (tier a n : Nat) : Mild s0 Run.s (peekM tier a n) := by
  unfold peekM
  refine Mild.ite (mild_getS.bind fun _ => Mild.pure _) ((mild_mapEach fun p => Mild.got fun r hr => ?_).bind fun _ => Mild.pure _)
  split
  · exact Mild.throw _
  · exact mild_stopWith _
  · exact Mild.throw _
  · exact (mild_modS fun _ _ => hr.trans (Keeps.of_eq (drawBytes_pending ..) (drawBytes_mem ..))).bind fun _ => Mild.pure _
  · exact Mild.ite (Mild.pure _) (mild_stopWith _)

end
end Sys2Proof.Machine
end

section
/-! The computations that the bodies of commands are built from keep the state. -/

namespace Sys2Proof.Machine
variable {s0 : State}

theorem mild_readBits (tier bitAddr w : Nat) : Mild s0 Run.s (readBits tier bitAddr w) := by
  unfold readBits
  repeat' with_reducible first | apply mild_readM | apply Mild.pure | apply Mild.map | apply Mild.ite | apply Mild.bind | intro _

theorem mild_writeBits (tier bitAddr w v : Nat) : Mild s0 Run.s (writeBits tier bitAddr w v) := by
  unfold writeBits
  repeat' with_reducible first | apply mild_writeM | apply mild_peekM | apply Mild.pure | apply Mild.map | apply Mild.ite | apply Mild.bind | intro _

theorem mild_descM (h : Nat) : Mild s0 Run.s (descM h) := by
  unfold descM
  repeat' with_reducible first | apply mild_stopAt | apply Mild.got | apply Mild.get | apply Mild.pure | apply Mild.map | apply Mild.ite | apply Mild.bind | intro _ | dsimp only | split

theorem mild_keepDescs (hs : List Nat) : Mild s0 Run.s (keepDescs hs) := by
  unfold keepDescs
  repeat' with_reducible first | apply mild_modW | apply mild_jobM | apply Mild.pure | apply Mild.map | apply Mild.ite | apply Mild.bind | intro _

theorem mild_descOpt (h : Nat) : Mild s0 Run.s (descOpt h) := by
  unfold descOpt
  repeat' with_reducible first | apply mild_descM | apply Mild.pure | apply Mild.map | apply Mild.ite

theorem mild_writerM (t : TDesc) : Mild s0 Run.s (writerM t) := by
  unfold writerM
  repeat' with_reducible first | exact mild_frame (fun s => by simp) (fun s => by simp) | apply mild_modW | apply Mild.pure | apply Mild.map | apply Mild.ite | apply Mild.bind | intro _

theorem mild_tileInvalid {α : Type} (t : TDesc) (a : Nat) : Mild s0 Run.s (tileInvalid t a : M α) := mild_stopAt _ _ _

theorem mild_checkHdr (t : TDesc) (h : Hdr) (addr : Nat) : Mild s0 Run.s (checkHdr t h addr) := by
  unfold checkHdr
  repeat' with_reducible first | apply mild_tileInvalid | apply mild_getS | apply Mild.got | apply Mild.get | apply Mild.pure | apply Mild.map | apply Mild.ite | apply Mild.bind | intro _

theorem mild_readTileA (t : TDesc) (addr : Nat) : Mild s0 Run.s (readTileA t addr) := by
  unfold readTileA
  repeat' with_reducible first | apply mild_readM | apply mild_tileInvalid | apply mild_checkHdr | apply Mild.pure | apply Mild.map | apply Mild.ite | apply Mild.bind | intro _

theorem mild_runAheadM (t : TDesc) : Mild s0 Run.s (runAheadM t) := by
  unfold runAheadM
  refine Mild.ite (Mild.pure _) (Mild.got fun r h => ?_)
  exact (mild_put (keeps_drawWord (keeps_drawWord h))).bind fun _ => Mild.ite (mild_countM _ _) (Mild.pure _)

theorem mild_readQuad (t : TDesc) (tile quad : Nat) : Mild s0 Run.s (readQuad t tile quad) := by
  unfold readQuad
  repeat' with_reducible first | apply mild_readM | apply mild_tileInvalid | apply Mild.pure | apply Mild.map | apply Mild.ite | apply Mild.bind | intro _ | dsimp only | split

theorem mild_countReads (t : TDesc) (c0 : Nat) (l : List (Nat × Nat)) : Mild s0 Run.s (countReads t c0 l) := by
  unfold countReads
  repeat' with_reducible first | apply mild_countM | apply Mild.pure | apply Mild.map | apply Mild.ite | apply Mild.bind | intro _

theorem mild_readCodesW (t : TDesc) (row c0 n : Nat) : Mild s0 Run.s (readCodesW t row c0 n) := by
  unfold readCodesW
  repeat' with_reducible first | apply mild_readM | apply mild_checkHdr | apply mild_readQuad | apply mild_mapEach | apply Mild.got | apply Mild.get | apply Mild.pure | apply Mild.map | apply Mild.ite | apply Mild.bind | intro _

theorem mild_readCodes (t : TDesc) (row c0 n : Nat) : Mild s0 Run.s (readCodes t row c0 n) := by
  unfold readCodes
  repeat' with_reducible first | apply mild_readM | apply mild_readBits | apply mild_readTileA | apply mild_readCodesW | apply mild_mapEach | apply Mild.got | apply Mild.get | apply Mild.pure | apply Mild.map | apply Mild.ite | apply Mild.bind | intro _

theorem mild_readVals (t : TDesc) (row c0 n : Nat) : Mild s0 Run.s (readVals t row c0 n) := by
  unfold readVals
  repeat' with_reducible first | apply mild_stopWith | apply mild_countReads | apply mild_readCodes | apply Mild.pure | apply Mild.map | apply Mild.ite | apply Mild.bind | intro _ | dsimp only | split

theorem mild_readRow (t : TDesc) (row c0 n : Nat) : Mild s0 Run.s (readRow t row c0 n) := by
  unfold readRow
  repeat' with_reducible first | apply mild_readVals | apply Mild.pure | apply Mild.map | apply Mild.ite | apply Mild.bind | intro _

theorem mild_evidenceM (t : TDesc) (bad : Bool) : Mild s0 Run.s (evidenceM t bad) := by
  unfold evidenceM
  repeat' with_reducible first | exact mild_frame (fun s => by simp) (fun s => by simp) | apply Mild.got | apply Mild.get | apply Mild.pure | apply Mild.map | apply Mild.ite | apply Mild.bind | intro _ | dsimp only | split

theorem mild_putCodes (t : TDesc) (row c0 : Nat) (codes : List Nat) (scale : Nat) : Mild s0 Run.s (putCodes t row c0 codes scale) := by
  unfold putCodes
  repeat' with_reducible first | apply mild_writeM | apply mild_writeBits | apply mild_forEach | apply Mild.pure | apply Mild.map | apply Mild.ite | apply Mild.bind | intro _

theorem mild_padRow (t : TDesc) (row last : Nat) : Mild s0 Run.s (padRow t row last) := by
  unfold padRow
  repeat' with_reducible first | apply mild_writeBits | apply mild_forEach | apply Mild.pure | apply Mild.map | apply Mild.ite | apply Mild.bind | intro _

theorem mild_narrowRow (t : TDesc) (k : Fmt) (row c0 : Nat) (vals : List Nat) (site : Option Nat) (fixed : Option Int) (rne : Bool := false) : Mild s0 Run.s (narrowRow t k row c0 vals site fixed rne) := by
  unfold narrowRow
  repeat' with_reducible first | apply mild_countM | apply mild_evidenceM | apply mild_mapEach | apply Mild.got | apply Mild.get | apply Mild.pure | apply Mild.map | apply Mild.ite | apply Mild.bind | intro _

theorem mild_writeRow (t : TDesc) (row c0 : Nat) (vals : List Nat) (site : Option Nat := none) (fixed : Option Int := none) (rne : Bool := false) : Mild s0 Run.s (writeRow t row c0 vals site fixed rne) := by
  unfold writeRow
  repeat' with_reducible first | apply mild_stopWith | apply mild_putCodes | apply mild_padRow | apply mild_narrowRow | apply mild_forEach | apply Mild.pure | apply Mild.map | apply Mild.ite | apply Mild.bind | intro _ | dsimp only | split

theorem mild_readAll (t : TDesc) : Mild s0 Run.s (readAll t) := by
  unfold readAll
  repeat' with_reducible first | apply mild_readRow | apply mild_mapEach | apply Mild.pure | apply Mild.map | apply Mild.ite | apply Mild.bind | intro _

theorem mild_putDenseHdr (t : TDesc) (addr flags epoch tid : Nat) : Mild s0 Run.s (putDenseHdr t addr flags epoch tid) := by
  unfold putDenseHdr
  repeat' with_reducible first | apply mild_writeM | apply mild_peekM | apply Mild.pure | apply Mild.map | apply Mild.ite | apply Mild.bind | intro _

theorem mild_clearTile (t : TDesc) (addr : Nat) : Mild s0 Run.s (clearTile t addr) := by
  unfold clearTile
  repeat' with_reducible apply mild_writeM

theorem mild_writeTensor (t : TDesc) (rows : List (List Nat)) (flags epoch tid : Nat) (site : Option Nat := none) (fixed : Option Int := none) (rne : Bool := false) : Mild s0 Run.s (writeTensor t rows flags epoch tid site fixed rne) := by
  unfold writeTensor
  repeat' with_reducible first | apply mild_writeRow | apply mild_putDenseHdr | apply mild_clearTile | apply mild_forEach | apply mild_mapEach | apply Mild.pure | apply Mild.map | apply Mild.ite | apply Mild.bind | intro _

theorem mild_setSem (sem add : Nat) : Mild s0 Run.s (setSem sem add) := by
  unfold setSem
  repeat' with_reducible apply mild_modW

theorem mild_refMask (id : Nat) : Mild s0 Run.s (refMask id) := by
  unfold refMask
  repeat' with_reducible first | exact mild_frame (fun s => by simp) (fun s => by simp) | apply mild_modW | apply mild_getS | apply Mild.got | apply Mild.get | apply Mild.pure | apply Mild.map | apply Mild.ite | apply Mild.bind | intro _ | dsimp only | split

theorem mild_semM (n : Nat) : Mild s0 Run.s (semM n) := by
  unfold semM
  repeat' with_reducible first | apply mild_stopAt | apply Mild.got | apply Mild.get | apply Mild.pure | apply Mild.map | apply Mild.ite | apply Mild.bind | intro _

theorem mild_waitBody : Mild s0 Run.s (waitBody) := by
  unfold waitBody
  repeat' with_reducible first | apply mild_semM | apply Mild.throw | apply Mild.got | apply Mild.get | apply Mild.pure | apply Mild.map | apply Mild.ite | apply Mild.bind | intro _

theorem mild_earlierDone : Mild s0 Run.s (earlierDone) := by
  unfold earlierDone
  repeat' with_reducible first | apply Mild.throw | apply Mild.got | apply Mild.get | apply Mild.pure | apply Mild.map | apply Mild.ite | apply Mild.bind | intro _

theorem mild_signalBody : Mild s0 Run.s (signalBody) := by
  unfold signalBody
  repeat' with_reducible first | exact mild_put (keeps_drawWord ‹_›) | refine mild_gotS fun _ _ => ?_ | exact mild_frame (fun s => by simp) (fun s => by simp) | apply mild_need | apply mild_writeM | apply mild_semM | apply mild_earlierDone | apply mild_getS | apply Mild.got | apply Mild.get | apply Mild.pure | apply Mild.map | apply Mild.ite | apply Mild.bind | intro _

theorem mild_fenceBody : Mild s0 Run.s (fenceBody) := by
  unfold fenceBody
  repeat' with_reducible first | apply mild_earlierDone | apply Mild.throw | apply Mild.got | apply Mild.get | apply Mild.pure | apply Mild.map | apply Mild.ite | apply Mild.bind | intro _

theorem mild_alignBody : Mild s0 Run.s (alignBody) := by
  unfold alignBody
  repeat' with_reducible first | exact mild_frame (fun s => by simp) (fun s => by simp) | apply Mild.throw | apply Mild.got | apply Mild.get | apply Mild.pure | apply Mild.map | apply Mild.ite | apply Mild.bind | intro _ | dsimp only | split

theorem mild_semOp (g : State → Nat → Nat → Nat × State) (hg : ∀ s f n, Keeps s (g s f n).2) : Mild s0 Run.s (semOp g) := by
  unfold semOp
  refine Mild.got fun r h => Mild.ite (mild_put (h.trans (hg _ _ _))) (Mild.ite (mild_stopAt _ _ _) (mild_stopWith _))

theorem mild_outParams (h : Nat) : Mild s0 Run.s (outParams h) := by
  unfold outParams
  repeat' with_reducible first | apply mild_need | apply mild_readM | apply mild_descM | apply mild_descOpt | apply Mild.got | apply Mild.get | apply Mild.pure | apply Mild.map | apply Mild.ite | apply Mild.bind | intro _

theorem mild_outputCheck (t : TDesc) (p : OutParams) (row col n width : Nat) : Mild s0 Run.s (outputCheck t p row col n width) := by
  unfold outputCheck
  repeat' with_reducible first | apply mild_need | apply Mild.got | apply Mild.get | apply Mild.pure | apply Mild.map | apply Mild.ite | apply Mild.bind | intro _

theorem mild_vectorVals (v : Option TDesc) (col n : Nat) : Mild s0 Run.s (vectorVals v col n) := by
  unfold vectorVals
  repeat' with_reducible first | apply mild_readRow | apply Mild.pure | apply Mild.map | apply Mild.ite | apply Mild.bind | intro _ | dsimp only | split

theorem mild_readVectors (t : TDesc) (p : OutParams) (col width : Nat) : Mild s0 Run.s (readVectors t p col width) := by
  unfold readVectors
  repeat' with_reducible first | apply mild_vectorVals | apply Mild.pure | apply Mild.map | apply Mild.ite | apply Mild.bind | intro _

theorem mild_startOutput (t : TDesc) (h row col n width : Nat) : Mild s0 Run.s (startOutput t h row col n width) := by
  unfold startOutput
  repeat' with_reducible first | apply mild_outParams | apply mild_outputCheck | apply mild_readVectors | apply Mild.pure | apply Mild.map | apply Mild.ite | apply Mild.bind | intro _

theorem mild_putCompressed (t : TDesc) (addr nonfin epoch tid : Nat) (rows : List (List Nat × Nat)) : Mild s0 Run.s (putCompressed t addr nonfin epoch tid rows) := by
  unfold putCompressed
  repeat' with_reducible first | apply mild_countM | apply mild_writeM | apply Mild.pure | apply Mild.map | apply Mild.ite | apply Mild.bind | intro _

theorem mild_compressTile (t : TDesc) (k : Fmt) (row0 col c0 : Nat) (rows : List (Nat × OutRow × List Nat)) : Mild s0 Run.s (compressTile t k row0 col c0 rows) := by
  unfold compressTile
  repeat' with_reducible first | apply mild_narrowRow | apply mild_putCompressed | apply mild_mapEach | apply Mild.got | apply Mild.get | apply Mild.pure | apply Mild.map | apply Mild.ite | apply Mild.bind | intro _ | dsimp only | split

theorem mild_denseTile (t : TDesc) (k : Fmt) (raw : Bool) (row0 col c0 : Nat) (rows : List (Nat × OutRow × List Nat)) : Mild s0 Run.s (denseTile t k raw row0 col c0 rows) := by
  unfold denseTile
  repeat' with_reducible first | apply mild_peekM | apply mild_evidenceM | apply mild_putCodes | apply mild_padRow | apply mild_writeRow | apply mild_putDenseHdr | apply mild_clearTile | apply mild_mapEach | apply Mild.got | apply Mild.get | apply Mild.pure | apply Mild.map | apply Mild.ite | apply Mild.bind | intro _

theorem mild_drainRows (t : TDesc) (p : Option OutParams) (row col width : Nat) (all : List OutRow) : Mild s0 Run.s (drainRows t p row col width all) := by
  unfold drainRows
  repeat' with_reducible first | apply mild_stopWith | apply mild_stopAt | apply mild_countM | apply mild_evidenceM | apply mild_putCodes | apply mild_padRow | apply mild_writeRow | apply mild_compressTile | apply mild_denseTile | apply mild_forEach | apply Mild.got | apply Mild.get | apply Mild.pure | apply Mild.map | apply Mild.ite | apply Mild.bind | intro _ | dsimp only | split

theorem mild_arrayM : Mild s0 Run.s (arrayM) := by
  unfold arrayM
  repeat' with_reducible first | apply mild_stopWith | apply Mild.got | apply Mild.get | apply Mild.pure | apply Mild.map | apply Mild.ite | apply Mild.bind | intro _ | dsimp only | split

theorem mild_modArray (a : Nat) (g : ArrayState → ArrayState) : Mild s0 Run.s (modArray a g) := by
  unfold modArray
  repeat' with_reducible exact mild_frame (fun s => by simp) (fun s => by simp)

theorem mild_denseElems (t : TDesc) (row c0 n : Nat) : Mild s0 Run.s (denseElems t row c0 n) := by
  unfold denseElems
  repeat' with_reducible first | apply mild_readTileA | apply mild_readCodes | apply mild_mapEach | apply Mild.got | apply Mild.get | apply Mild.pure | apply Mild.map | apply Mild.ite | apply Mild.bind | intro _

theorem mild_statHdr (t : TDesc) (form a : Nat) : Mild s0 Run.s (statHdr t form a) := by
  unfold statHdr
  repeat' with_reducible first | apply mild_need | apply mild_readM | apply mild_checkHdr | apply Mild.pure | apply Mild.map | apply Mild.ite | apply Mild.bind | intro _

theorem mild_loadDense (t : TDesc) (ko no kext next : Nat) : Mild s0 Run.s (loadDense t ko no kext next) := by
  unfold loadDense
  repeat' with_reducible first | apply mild_countReads | apply mild_denseElems | apply mild_statHdr | apply mild_mapEach | apply Mild.pure | apply Mild.map | apply Mild.ite | apply Mild.bind | intro _

theorem mild_loadSparse (t : TDesc) (form ko no kext next : Nat) : Mild s0 Run.s (loadSparse t form ko no kext next) := by
  unfold loadSparse
  repeat' with_reducible first | apply mild_countM | apply mild_readQuad | apply mild_statHdr | apply mild_mapEach | apply Mild.got | apply Mild.get | apply Mild.pure | apply Mild.map | apply Mild.ite | apply Mild.bind | intro _

theorem mild_epochCheck (e tile : Nat) : Mild s0 Run.s (epochCheck e tile) := by
  unfold epochCheck
  repeat' with_reducible first | apply mild_modW | apply mild_stopWith | apply Mild.pure | apply Mild.map | apply Mild.ite | apply Mild.bind | intro _

theorem mild_idleMask (id : Nat) : Mild s0 Run.s (idleMask id) := by
  unfold idleMask
  repeat' with_reducible first | apply mild_stopWith | apply mild_getS | apply Mild.throw | apply Mild.got | apply Mild.get | apply Mild.pure | apply Mild.map | apply Mild.ite | apply Mild.bind | intro _ | dsimp only | split

theorem mild_checkFault (a : Nat) (f : CheckFault) : Mild s0 Run.s (checkFault a f) := by
  unfold checkFault
  repeat' with_reducible first | exact mild_put (keeps_drawWord ‹_›) | refine mild_gotS fun _ _ => ?_ | exact mild_frame (fun s => by simp) (fun s => by simp) | apply mild_stopAt | apply mild_getS | apply Mild.got | apply Mild.get | apply Mild.pure | apply Mild.map | apply Mild.ite | apply Mild.bind | intro _

theorem mild_checked (a : Nat) (chk : Option CheckFault) : Mild s0 Run.s (checked a chk) := by
  unfold checked
  repeat' with_reducible first | apply mild_checkFault | apply Mild.pure | apply Mild.map | apply Mild.ite | apply Mild.bind | intro _ | dsimp only | split

theorem mild_maskedOf (t : TDesc) (l : List (Nat × Hdr)) : ∀ x, Mild s0 Run.s (maskedOf t l x) := by
  induction l with
  | nil => exact fun _ => Mild.pure _
  | cons e r ih =>
    intro x
    refine Mild.ite (ih x) ?_
    split
    · exact ih _
    · exact Mild.ite (ih _) (mild_tileInvalid _ _)
theorem mild_loadStatBody (chk : Option CheckFault) : Mild s0 Run.s (loadStatBody chk) := by
  unfold loadStatBody
  repeat' with_reducible first | exact mild_frame (fun s => by simp) (fun s => by simp) | apply mild_need | apply mild_descM | apply mild_arrayM | apply mild_modArray | apply mild_loadDense | apply mild_loadSparse | apply mild_epochCheck | apply mild_idleMask | apply mild_checked | apply mild_maskedOf | apply mild_getS | apply Mild.got | apply Mild.get | apply Mild.pure | apply Mild.map | apply Mild.ite | apply Mild.bind | intro _ | dsimp only | split

theorem mild_fetchRow (t : TDesc) (row k0 n : Nat) : Mild s0 Run.s (fetchRow t row k0 n) := by
  unfold fetchRow
  repeat' with_reducible first | apply mild_countReads | apply mild_readCodes | apply Mild.pure | apply Mild.map | apply Mild.ite | apply Mild.bind | intro _

theorem mild_windowRow (t : TDesc) (c : Cmd) (m n : Nat) : Mild s0 Run.s (windowRow t c m n) := by
  unfold windowRow
  repeat' with_reducible first | apply mild_fetchRow | apply Mild.got | apply Mild.get | apply Mild.pure | apply Mild.map | apply Mild.ite

theorem mild_bitmapRow (t : TDesc) (row k0 n : Nat) : Mild s0 Run.s (bitmapRow t row k0 n) := by
  unfold bitmapRow
  repeat' with_reducible first | apply mild_readCodes | apply Mild.got | apply Mild.get | apply Mild.pure | apply Mild.map | apply Mild.ite | apply Mild.bind | intro _

theorem mild_freeVals (n : Nat) : Mild s0 Run.s (freeVals n) := by
  exact mild_mapEach fun _ => mild_gotS fun s h => (mild_put (keeps_drawWord h)).bind fun _ => Mild.pure _

theorem mild_shadowRead (n : Nat) (act : M (List Nat)) (h_act : Mild s0 Run.s act) : Mild s0 Run.s (shadowRead n act) := by
  exact h_act.tryCatch fun _ => (mild_modW _).bind fun _ => mild_freeVals _

theorem mild_x8Operand (j : Job) (t : TDesc) (row n : Nat) : Mild s0 Run.s (x8Operand j t row n) := by
  unfold x8Operand
  repeat' with_reducible first | apply mild_readRow | apply mild_freeVals | apply mild_shadowRead | apply Mild.pure | apply Mild.map | apply Mild.ite | apply Mild.bind | intro _ | dsimp only | split

theorem mild_x8Masked (j : Job) (t : TDesc) (wid n : Nat) : Mild s0 Run.s (x8Masked j t wid n) := by
  unfold x8Masked
  repeat' with_reducible first | apply mild_readQuad | apply mild_readRow | apply mild_freeVals | apply mild_shadowRead | apply mild_mapEach | apply Mild.got | apply Mild.get | apply Mild.pure | apply Mild.map | apply Mild.ite | apply Mild.bind | intro _ | dsimp only | split

theorem mild_x8Weight (j : Job) (t : TDesc) (masked : Option Nat) (n : Int) : Mild s0 Run.s (x8Weight j t masked n) := by
  unfold x8Weight
  repeat' with_reducible first | apply mild_x8Operand | apply mild_x8Masked | apply Mild.pure | apply Mild.map | apply Mild.ite | apply Mild.bind | intro _ | dsimp only | split

theorem mild_takeSamples (k : KindEntry) (core : Nat) (out a : TDesc) (tl : Tile) (tr : Bool) (rowStart kOff outRow outCol width : Nat) (rows : List OutRow) : Mild s0 Run.s (takeSamples k core out a tl tr rowStart kOff outRow outCol width rows) := by
  unfold takeSamples
  repeat' with_reducible first | exact mild_frame (fun s => by simp) (fun s => by simp) | apply mild_shadowRead | apply mild_x8Operand | apply mild_x8Weight | apply mild_forEach | apply mild_mapEach | apply mild_getS | apply Mild.got | apply Mild.get | apply Mild.pure | apply Mild.map | apply Mild.ite | apply Mild.bind | intro _

theorem mild_operandRow (c : Cmd) (feed kx : Nat) (a : TDesc) (bmap : Option TDesc) (i : Nat) : Mild s0 Run.s (operandRow c feed kx a bmap i) := by
  unfold operandRow
  repeat' with_reducible first | apply mild_fetchRow | apply mild_windowRow | apply mild_bitmapRow | apply Mild.pure | apply Mild.map | apply Mild.ite | apply Mild.bind | intro _ | dsimp only | split

theorem mild_productParams (c : Cmd) (inside : Bool) (out : Option TDesc) (n width : Nat) : Mild s0 Run.s (productParams c inside out n width) := by
  unfold productParams
  repeat' with_reducible first | apply mild_need | apply mild_outParams | apply mild_outputCheck | apply mild_readVectors | apply Mild.pure | apply Mild.map | apply Mild.ite | apply Mild.bind | intro _ | dsimp only | split

theorem mild_updateM (an : Nat) (set : AccSet) (t : Tile) (zero last : Bool) (i k : Nat) (upd : ArrayState → ArrayState) : Mild s0 Run.s (updateM an set t zero last i k upd) := by
  unfold updateM
  repeat' with_reducible first | apply mild_modArray | apply mild_getS | apply Mild.got | apply Mild.get | apply Mild.pure | apply Mild.map | apply Mild.ite | apply Mild.bind | intro _

theorem mild_productBody (tr : Bool) (chk : Option CheckFault) : Mild s0 Run.s (productBody tr chk) := by
  unfold productBody
  repeat' with_reducible first | exact mild_put (keeps_drawWord ‹_›) | refine mild_gotS fun _ _ => ?_ | exact mild_frame (fun s => by simp) (fun s => by simp) | apply mild_modW | apply mild_stopWith | apply mild_need | apply mild_jobM | apply mild_descM | apply mild_descOpt | apply mild_writerM | apply mild_drainRows | apply mild_arrayM | apply mild_modArray | apply mild_checked | apply mild_takeSamples | apply mild_operandRow | apply mild_productParams | apply mild_updateM | apply mild_mapEach | apply mild_getS | apply Mild.got | apply Mild.get | apply Mild.pure | apply Mild.map | apply Mild.ite | apply Mild.bind | intro _ | dsimp only | split

theorem mild_preloadBody : Mild s0 Run.s (preloadBody) := by
  unfold preloadBody
  repeat' with_reducible first | apply mild_need | apply mild_descM | apply mild_readRow | apply mild_arrayM | apply mild_modArray | apply mild_forEach | apply Mild.got | apply Mild.get | apply Mild.pure | apply Mild.map | apply Mild.ite | apply Mild.bind | intro _ | dsimp only | split

theorem mild_drainBody : Mild s0 Run.s (drainBody) := by
  unfold drainBody
  repeat' with_reducible first | apply mild_modW | apply mild_stopWith | apply mild_need | apply mild_descM | apply mild_writerM | apply mild_startOutput | apply mild_drainRows | apply mild_arrayM | apply mild_modArray | apply Mild.got | apply Mild.get | apply Mild.pure | apply Mild.map | apply Mild.ite | apply Mild.bind | intro _ | dsimp only | split

theorem mild_noInts (ts : List TDesc) : Mild s0 Run.s (noInts ts) := by
  unfold noInts
  repeat' with_reducible first | apply mild_stopAt | apply mild_forEach | apply Mild.pure | apply Mild.map | apply Mild.ite | apply Mild.bind | intro _

theorem mild_vecShapes (c : Cmd) (out : TDesc) : Mild s0 Run.s (vecShapes c out) := by
  unfold vecShapes
  repeat' with_reducible first | apply mild_need | apply mild_descM | apply mild_forEach | apply Mild.got | apply Mild.get | apply Mild.pure | apply Mild.map | apply Mild.ite | apply Mild.bind | intro _

theorem mild_rowsOr (t : Option TDesc) (out : TDesc) (v : Nat) : Mild s0 Run.s (rowsOr t out v) := by
  unfold rowsOr
  repeat' with_reducible first | apply mild_readAll | apply Mild.pure | apply Mild.map | apply Mild.ite | apply Mild.bind | intro _ | dsimp only | split

theorem mild_vecChainBody : Mild s0 Run.s (vecChainBody) := by
  unfold vecChainBody
  repeat' with_reducible first | apply mild_need | apply mild_descM | apply mild_writerM | apply mild_writeTensor | apply mild_noInts | apply mild_vecShapes | apply mild_rowsOr | apply Mild.got | apply Mild.get | apply Mild.pure | apply Mild.map | apply Mild.ite | apply Mild.bind | intro _

theorem mild_vecReduceBody : Mild s0 Run.s (vecReduceBody) := by
  unfold vecReduceBody
  repeat' with_reducible first | apply mild_stopWith | apply mild_need | apply mild_descM | apply mild_writerM | apply mild_readAll | apply mild_writeTensor | apply mild_noInts | apply mild_vecShapes | apply Mild.got | apply Mild.get | apply Mild.pure | apply Mild.map | apply Mild.ite | apply Mild.bind | intro _

theorem mild_softmaxBody : Mild s0 Run.s (softmaxBody) := by
  unfold softmaxBody
  repeat' with_reducible first | apply mild_need | apply mild_countM | apply mild_descM | apply mild_descOpt | apply mild_writerM | apply mild_writeTensor | apply mild_noInts | apply mild_vecShapes | apply mild_rowsOr | apply Mild.got | apply Mild.get | apply Mild.pure | apply Mild.map | apply Mild.ite | apply Mild.bind | intro _

theorem mild_normBody : Mild s0 Run.s (normBody) := by
  unfold normBody
  repeat' with_reducible first | apply mild_need | apply mild_descM | apply mild_descOpt | apply mild_writerM | apply mild_writeTensor | apply mild_noInts | apply mild_vecShapes | apply mild_rowsOr | apply Mild.got | apply Mild.get | apply Mild.pure | apply Mild.map | apply Mild.ite | apply Mild.bind | intro _ | dsimp only | split

theorem mild_dropoutBody : Mild s0 Run.s (dropoutBody) := by
  unfold dropoutBody
  repeat' with_reducible first | apply mild_need | apply mild_writeBits | apply mild_descM | apply mild_descOpt | apply mild_writerM | apply mild_writeTensor | apply mild_noInts | apply mild_vecShapes | apply mild_rowsOr | apply mild_forEach | apply Mild.got | apply Mild.get | apply Mild.pure | apply Mild.map | apply Mild.ite | apply Mild.bind | intro _ | dsimp only | split

theorem mild_quantiseBody : Mild s0 Run.s (quantiseBody) := by
  unfold quantiseBody
  repeat' with_reducible first | apply mild_need | apply mild_descM | apply mild_descOpt | apply mild_writerM | apply mild_writeTensor | apply mild_noInts | apply mild_vecShapes | apply mild_rowsOr | apply Mild.got | apply Mild.get | apply Mild.pure | apply Mild.map | apply Mild.ite | apply Mild.bind | intro _ | dsimp only | split

theorem mild_dequantiseBody : Mild s0 Run.s (dequantiseBody) := by
  unfold dequantiseBody
  repeat' with_reducible first | apply mild_need | apply mild_descM | apply mild_writerM | apply mild_writeTensor | apply mild_noInts | apply mild_vecShapes | apply mild_rowsOr | apply Mild.got | apply Mild.get | apply Mild.pure | apply Mild.map | apply Mild.ite | apply Mild.bind | intro _

theorem mild_readWTile (t : TDesc) (epoch i : Nat) : Mild s0 Run.s (readWTile t epoch i) := by
  unfold readWTile
  repeat' with_reducible first | apply mild_readM | apply mild_tileInvalid | apply mild_checkHdr | apply mild_readQuad | apply mild_epochCheck | apply mild_mapEach | apply Mild.pure | apply Mild.map | apply Mild.ite | apply Mild.bind | intro _

theorem mild_weightM (w : TDesc) : Mild s0 Run.s (weightM w) := by
  unfold weightM
  repeat' with_reducible first | apply mild_stopWith | apply Mild.got | apply Mild.get | apply Mild.pure | apply Mild.map | apply Mild.ite | apply Mild.bind | intro _ | dsimp only | split

theorem mild_rangeM (w : TDesc) : Mild s0 Run.s (rangeM w) := by
  unfold rangeM
  repeat' with_reducible first | apply mild_need | apply mild_fieldM | apply Mild.pure | apply Mild.map | apply Mild.ite | apply Mild.bind | intro _

theorem mild_skippedM : Mild s0 Run.s (skippedM) := by
  unfold skippedM
  repeat' with_reducible first | apply Mild.got | apply Mild.get | apply Mild.pure | apply Mild.map | apply Mild.ite | apply Mild.bind | intro _

theorem mild_wordM (skipped : Bool) (n : Nat) : Mild s0 Run.s (wordM skipped n) := by
  unfold wordM
  repeat' with_reducible apply mild_modW

theorem mild_maskWork (w : TDesc) (act : MaskEntry → M Unit) (h_act : ∀ a0, Mild s0 Run.s (act a0)) : Mild s0 Run.s (maskWork w act) := by
  unfold maskWork
  repeat' with_reducible first | exact h_act .. | apply mild_refMask | apply mild_idleMask | apply mild_skippedM | apply mild_wordM | apply Mild.pure | apply Mild.map | apply Mild.ite | apply Mild.bind | intro _

theorem mild_maskCodes (t : TDesc) (row c0 n : Nat) : Mild s0 Run.s (maskCodes t row c0 n) := by
  unfold maskCodes
  repeat' with_reducible first | apply mild_countReads | apply mild_readCodes | apply Mild.pure | apply Mild.map | apply Mild.ite | apply Mild.bind | intro _

theorem mild_maskVals (t : TDesc) (row c0 n : Nat) : Mild s0 Run.s (maskVals t row c0 n) := by
  unfold maskVals
  repeat' with_reducible first | apply mild_stopWith | apply mild_maskCodes | apply Mild.pure | apply Mild.map | apply Mild.ite | apply Mild.bind | intro _ | dsimp only | split

theorem mild_masterScores (m : TDesc) (t : WTile) (n depth : Nat) : Mild s0 Run.s (masterScores m t n depth) := by
  unfold masterScores
  repeat' with_reducible first | apply mild_maskVals | apply Mild.got | apply Mild.get | apply Mild.pure | apply Mild.map | apply Mild.ite | apply Mild.bind | intro _

theorem mild_maskScoreBody : Mild s0 Run.s (maskScoreBody) := by
  unfold maskScoreBody
  repeat' with_reducible first | apply mild_need | apply mild_countM | apply mild_descM | apply mild_writerM | apply mild_readCodes | apply mild_putCodes | apply mild_padRow | apply mild_noInts | apply mild_readWTile | apply mild_weightM | apply mild_rangeM | apply mild_wordM | apply mild_maskWork | apply mild_maskVals | apply mild_masterScores | apply mild_forEach | apply mild_mapEach | apply Mild.got | apply Mild.get | apply Mild.pure | apply Mild.map | apply Mild.ite | apply Mild.bind | intro _

theorem mild_picksM (w sc : TDesc) (t : WTile) (stored : Bool) : Mild s0 Run.s (picksM w sc t stored) := by
  unfold picksM
  repeat' with_reducible first | apply mild_jobM | apply mild_readCodes | apply mild_mapEach | apply Mild.got | apply Mild.get | apply Mild.pure | apply Mild.map | apply Mild.ite | apply Mild.bind | intro _

theorem mild_proposalsM (w p : TDesc) (i : Nat) : Mild s0 Run.s (proposalsM w p i) := by
  unfold proposalsM
  repeat' with_reducible first | apply mild_readCodes | apply Mild.pure | apply Mild.map | apply Mild.ite | apply Mild.bind | intro _

theorem mild_reportM (t : Option TDesc) (words : List Nat) (epoch : Nat) : Mild s0 Run.s (reportM t words epoch) := by
  unfold reportM
  repeat' with_reducible first | apply mild_putCodes | apply Mild.pure | apply Mild.map | apply Mild.ite | apply Mild.bind | intro _ | dsimp only | split

theorem mild_selectM : Mild s0 Run.s (selectM) := by
  unfold selectM
  repeat' with_reducible first | apply mild_need | apply mild_descM | apply mild_descOpt | apply mild_weightM | apply mild_rangeM | apply Mild.got | apply Mild.get | apply Mild.pure | apply Mild.map | apply Mild.ite | apply Mild.bind | intro _

theorem mild_writeSelect (p : TDesc) (rep : Option TDesc) : Mild s0 Run.s (writeSelect p rep) := by
  unfold writeSelect
  repeat' with_reducible first | apply mild_writerM | apply Mild.pure | apply Mild.map | apply Mild.ite | apply Mild.bind | intro _ | dsimp only | split

theorem mild_pruneBody : Mild s0 Run.s (pruneBody) := by
  unfold pruneBody
  repeat' with_reducible first | apply mild_fieldM | apply mild_countM | apply mild_putCodes | apply mild_readWTile | apply mild_wordM | apply mild_maskWork | apply mild_picksM | apply mild_reportM | apply mild_selectM | apply mild_writeSelect | apply mild_forEach | apply mild_mapEach | apply Mild.got | apply Mild.get | apply Mild.pure | apply Mild.map | apply Mild.ite | apply Mild.bind | intro _

theorem mild_regrowBody : Mild s0 Run.s (regrowBody) := by
  unfold regrowBody
  repeat' with_reducible first | apply mild_fieldM | apply mild_countM | apply mild_putCodes | apply mild_readWTile | apply mild_wordM | apply mild_maskWork | apply mild_picksM | apply mild_proposalsM | apply mild_reportM | apply mild_selectM | apply mild_writeSelect | apply mild_forEach | apply mild_mapEach | apply Mild.got | apply Mild.get | apply Mild.pure | apply Mild.map | apply Mild.ite | apply Mild.bind | intro _

theorem mild_changeCompanion (plain : Bool) (t : TDesc) (tile : Nat) (u : MUnit) (new : Nat) : Mild s0 Run.s (changeCompanion plain t tile u new) := by
  unfold changeCompanion
  repeat' with_reducible first | apply mild_readBits | apply mild_writeBits | apply mild_evidenceM | apply mild_forEach | apply mild_mapEach | apply Mild.pure | apply Mild.map | apply Mild.ite | apply Mild.bind | intro _

theorem mild_rewriteTile (w : TDesc) (comps : List TDesc) (t : WTile) (ch : List (MUnit × Nat)) (epoch : Nat) : Mild s0 Run.s (rewriteTile w comps t ch epoch) := by
  unfold rewriteTile
  repeat' with_reducible first | apply mild_writeM | apply mild_changeCompanion | apply mild_forEach | apply Mild.pure | apply Mild.map | apply Mild.ite | apply Mild.bind | intro _

theorem mild_maskCommitBody : Mild s0 Run.s (maskCommitBody) := by
  unfold maskCommitBody
  repeat' with_reducible first | exact mild_frame (fun s => by simp) (fun s => by simp) | apply mild_modW | apply mild_stopWith | apply mild_need | apply mild_writeM | apply mild_descM | apply mild_descOpt | apply mild_writerM | apply mild_putCodes | apply mild_writeTensor | apply mild_readWTile | apply mild_weightM | apply mild_skippedM | apply mild_wordM | apply mild_proposalsM | apply mild_reportM | apply mild_rewriteTile | apply mild_forEach | apply mild_mapEach | apply Mild.throw | apply Mild.got | apply Mild.get | apply Mild.pure | apply Mild.map | apply Mild.ite | apply Mild.bind | intro _ | dsimp only | split

theorem mild_maskGatherBody : Mild s0 Run.s (maskGatherBody) := by
  unfold maskGatherBody
  repeat' with_reducible first | apply mild_need | apply mild_descM | apply mild_writerM | apply mild_writeRow | apply mild_noInts | apply mild_readWTile | apply mild_weightM | apply mild_rangeM | apply mild_wordM | apply mild_maskWork | apply mild_maskVals | apply mild_forEach | apply mild_mapEach | apply Mild.got | apply Mild.get | apply Mild.pure | apply Mild.map | apply Mild.ite | apply Mild.bind | intro _

theorem mild_predOps : Mild s0 Run.s (predOps) := by
  unfold predOps
  repeat' with_reducible first | apply mild_descM | apply mild_descOpt | apply Mild.got | apply Mild.get | apply Mild.pure | apply Mild.map | apply Mild.ite | apply Mild.bind | intro _

theorem mild_writerOpt (t : Option TDesc) : Mild s0 Run.s (writerOpt t) := by
  cases t with
  | none => exact Mild.pure _
  | some t => exact mild_writerM t
theorem mild_rowEpochs (w : TDesc) (row : Nat) : Mild s0 Run.s (rowEpochs w row) := by
  unfold rowEpochs
  repeat' with_reducible first | apply mild_readM | apply mild_checkHdr | apply mild_epochCheck | apply mild_forEach | apply mild_getS | apply Mild.got | apply Mild.get | apply Mild.pure | apply Mild.map | apply Mild.ite | apply Mild.bind | intro _ | dsimp only | split

theorem mild_auditTile (c : Cmd) (w1 : TDesc) (b1 : Option (List Nat)) (xs : List (Nat × List Nat)) (pred : List (Nat × List Bool)) (tile : List Nat × List Nat) : Mild s0 Run.s (auditTile c w1 b1 xs pred tile) := by
  unfold auditTile
  repeat' with_reducible first | apply mild_maskVals | apply mild_rowEpochs | apply mild_mapEach | apply Mild.got | apply Mild.get | apply Mild.pure | apply Mild.map | apply Mild.ite | apply Mild.bind | intro _

/-- A tile header that cannot be read is passed over. -/
theorem mild_readHdr (tier a : Nat) : Mild s0 Run.s (do
    let before := (← get).w
    let r ← tryCatch (Option.some <$> readM tier a 16) fun e => match e with
      | .done _ _ _ _ => pure none
      | e => throw e
    modW fun _ => before
    return r.map parseHdr) := by
  refine Mild.got fun r _ => (((mild_readM _ _ _).map _).tryCatch fun e => ?_).bind fun _ => (mild_modW _).bind fun _ => Mild.pure _
  split
  · exact Mild.pure _
  · exact Mild.throw _
theorem mild_maskedIds (t : TDesc) : Mild s0 Run.s (maskedIds t) := by
  unfold maskedIds
  exact (mild_mapEach fun _ => mild_readHdr _ _).bind fun _ => mild_getS.bind fun _ => Mild.pure _

theorem mild_predictBody : Mild s0 Run.s (predictBody) := by
  unfold predictBody
  repeat' with_reducible first | apply mild_modW | apply mild_stopWith | apply mild_need | apply mild_jobM | apply mild_countM | apply mild_writerM | apply mild_putCodes | apply mild_refMask | apply mild_idleMask | apply mild_noInts | apply mild_maskVals | apply mild_predOps | apply mild_auditTile | apply mild_maskedIds | apply mild_writerOpt | apply mild_forEach | apply mild_mapEach | apply Mild.got | apply Mild.get | apply Mild.pure | apply Mild.map | apply Mild.ite | apply Mild.bind | intro _ | dsimp only | split

theorem mild_tryStop (act : M Bool) (h_act : Mild s0 Run.s act) : Mild s0 Run.s (tryStop act) := by
  unfold tryStop
  refine (h_act.map _).tryCatch fun e => ?_
  split
  · exact Mild.pure _
  · exact Mild.throw _

theorem mild_asOf {α : Type} (z : State) (act : M α) (hz : Keeps s0 z) (h_act : Mild s0 Run.s act) : Mild s0 Run.s (asOf z act) := by
  unfold asOf
  refine mild_gotS fun now hn => Mild.bind (mild_modS fun s h => ⟨h.1, hz.2⟩) fun _ => ?_
  refine ((h_act.map _).tryCatch fun _ => Mild.pure _).bind fun x => Mild.bind (mild_modS fun s h => ⟨h.1, hn.2⟩) fun _ => ?_
  split
  · exact Mild.pure _
  · exact Mild.throw _

theorem mild_codeAt (t : TDesc) (x : List Nat) : Mild s0 Run.s (codeAt t x) := by
  unfold codeAt
  repeat' with_reducible first | apply mild_readM | apply mild_readBits | apply Mild.pure | apply Mild.map | apply Mild.ite | apply Mild.bind | intro _

theorem mild_sameEpoch (t : TDesc) (x : List Nat) (epoch : Option (Nat × Nat)) : Mild s0 Run.s (sameEpoch t x epoch) := by
  unfold sameEpoch
  repeat' with_reducible first | apply mild_readM | apply mild_epochCheck | apply mild_getS | apply Mild.got | apply Mild.get | apply Mild.pure | apply Mild.map | apply Mild.ite | apply Mild.bind | intro _ | dsimp only | split

theorem mild_valueAt (t : TDesc) (epoch : Option (Nat × Nat)) (first : Bool) (x : List Nat) : Mild s0 Run.s (valueAt t epoch first x) := by
  unfold valueAt
  repeat' with_reducible first | apply mild_stopWith | apply mild_countM | apply mild_readCodes | apply mild_codeAt | apply mild_sameEpoch | apply Mild.pure | apply Mild.map | apply Mild.ite | apply Mild.bind | intro _ | dsimp only | split

theorem mild_storeCode (t : TDesc) (x : List Nat) (code : Nat) (scale : Option Nat) : Mild s0 Run.s (storeCode t x code scale) := by
  unfold storeCode
  repeat' with_reducible first | apply mild_writeM | apply mild_writeBits | apply mild_evidenceM | apply mild_padRow | apply Mild.got | apply Mild.get | apply Mild.pure | apply Mild.map | apply Mild.ite | apply Mild.bind | intro _ | dsimp only | split

theorem mild_addAt (t : TDesc) (x : List Nat) (v : Nat) : Mild s0 Run.s (addAt t x v) := by
  unfold addAt
  repeat' with_reducible first | apply mild_peekM | apply mild_writeBits | apply mild_writeRow | apply Mild.pure | apply Mild.map | apply Mild.ite | apply Mild.bind | intro _ | dsimp only | split

theorem mild_freeOverlap (s d : TDesc) (first count : Nat) : Mild s0 Run.s (freeOverlap s d first count) := by
  unfold freeOverlap
  exact Mild.got fun _ _ => mild_forEach fun a => mild_modS fun s h => h.trans ⟨drawBytes_pending s 1, wf_memPut a _⟩

theorem mild_slotBad (t : TDesc) (addr : Nat) : Mild s0 Run.s (slotBad t addr) := by
  unfold slotBad
  repeat' with_reducible first | apply mild_peekM | apply Mild.got | apply Mild.get | apply Mild.pure | apply Mild.map | apply Mild.ite | apply Mild.bind | intro _

theorem mild_sourceMask (s : TDesc) (first count : Nat) : Mild s0 Run.s (sourceMask s first count) := by
  unfold sourceMask
  refine Mild.ite (Mild.pure _) ?_
  split
  · exact Mild.pure _
  · exact (mild_mapEach fun _ => mild_readHdr _ _).bind fun _ => Mild.pure _

theorem mild_trackM (src dst : TDesc) : Mild s0 Run.s (trackM src dst) := by
  unfold trackM
  repeat' with_reducible first | exact mild_frame (fun s => by simp) (fun s => by simp) | apply mild_modW | apply Mild.throw | apply Mild.got | apply Mild.get | apply Mild.pure | apply Mild.map | apply Mild.ite | apply Mild.bind | intro _

end Sys2Proof.Machine
end

section
/-! The bodies of the DMA commands keep the state. -/

namespace Sys2Proof.Machine
variable {s0 : State}
theorem mild_runUnits {l : List DUnit} (h : ∀ u ∈ l, Mild s0 Run.s u.act) : Mild s0 Run.s (runUnits l) := by
  induction l with
  | nil => exact Mild.pure _
  | cons u r ih =>
    refine (mild_tryStop _ (h u List.mem_cons_self)).bind fun x => ?_
    split
    · exact (ih fun v hv => h v (List.mem_cons_of_mem _ hv)).bind fun _ => Mild.pure _
    · exact Mild.pure _

theorem elemUnits_mild {shape : List Nat} {w : Nat} {src dst : List Nat → Nat} {body : List Nat → Bool → M Bool} (h : ∀ x b, Mild s0 Run.s (body x b)) :
    ∀ u ∈ elemUnits shape w src dst body, Mild s0 Run.s u.act := by
  intro u hu
  obtain ⟨i, -, rfl⟩ := List.mem_map.1 hu
  exact h _ _

theorem pieceUnits_mild {shape : List Nat} {d : TDesc} {df : Nat} {src : List Nat → Nat} {val : List Nat → Bool → M Nat} {rne : Bool} (h : ∀ x b, Mild s0 Run.s (val x b)) :
    ∀ u ∈ pieceUnits shape d df src val rne, Mild s0 Run.s u.act := by
  intro u hu
  obtain ⟨i, -, hu⟩ := List.mem_flatMap.1 hu
  obtain ⟨p, -, rfl⟩ := List.mem_map.1 hu
  exact (mild_mapEach fun _ => h _ _).bind fun _ => (mild_writeRow _ _ _ _ _ _ _).bind fun _ => Mild.pure _

theorem units_ite {c : Prop} [Decidable c] {l k : List DUnit} (hl : ∀ u ∈ l, Mild s0 Run.s u.act) (hk : ¬ c → ∀ u ∈ k, Mild s0 Run.s u.act) :
    ∀ u ∈ if c then l else k, Mild s0 Run.s u.act := by
  split
  · exact hl
  · exact hk ‹_›

theorem slotUnits_mild {z : State} {s d : TDesc} {a b c e : Nat} (hz : Keeps s0 z) : ∀ u ∈ slotUnits z s d a b c e, Mild s0 Run.s u.act := by
  intro u hu
  obtain ⟨i, -, rfl⟩ := List.mem_map.1 hu
  repeat' with_reducible first | apply mild_writeM | exact mild_asOf _ _ hz (mild_readM _ _ _) | apply mild_evidenceM | apply mild_slotBad | apply Mild.pure | apply Mild.bind | apply Mild.ite | intro _

theorem tileUnits_mild {z : State} {s d : TDesc} {a b c e : Nat} {epoch : Option (Nat × Nat)} (hz : Keeps s0 z) : ∀ u ∈ tileUnits z s d a b c e epoch, Mild s0 Run.s u.act := by
  intro u hu
  obtain ⟨i, -, rfl⟩ := List.mem_map.1 hu
  refine (mild_mapEach fun _ => mild_mapEach fun _ => mild_asOf _ _ hz (mild_valueAt _ _ _ _)).bind fun _ => ?_
  exact (mild_clearTile _ _).bind fun _ => (mild_mapEach fun _ => mild_writeRow _ _ _ _ _ _ _).bind fun _ => (mild_putDenseHdr _ _ _ _ _).bind fun _ => Mild.pure _

theorem dmaUnits_mild {z : State} (hz : Keeps s0 z) (c : Cmd) (o : DmaOps) (epoch : Option (Nat × Nat)) : ∀ u ∈ dmaUnits z c o epoch, Mild s0 Run.s u.act := by
  unfold dmaUnits
  split
  · refine elemUnits_mild fun _ _ => ?_
    exact (mild_storeCode _ _ _ _).bind fun _ => Mild.pure _
  · refine elemUnits_mild fun _ _ => (mild_codeAt _ _).bind fun _ => ?_
    split
    · exact (mild_codeAt _ _).bind fun _ => Mild.pure _
    · exact Mild.pure _
  · refine units_ite ?_ fun _ => ?_
    · split
      · exact slotUnits_mild hz
      · exact fun _ h => nomatch h
    refine units_ite (elemUnits_mild fun _ _ => ?_) fun _ => units_ite (elemUnits_mild fun _ _ => ?_) fun _ => pieceUnits_mild fun _ _ => mild_asOf _ _ hz (mild_valueAt _ _ _ _)
    · exact Mild.ite ((mild_asOf _ _ hz (mild_codeAt _ _)).bind fun _ => (mild_addAt _ _ _).bind fun _ => Mild.pure _)
        ((mild_asOf _ _ hz (mild_valueAt _ _ _ _)).bind fun _ => (mild_addAt _ _ _).bind fun _ => Mild.pure _)
    · exact (mild_asOf _ _ hz (mild_codeAt _ _)).bind fun _ => (mild_storeCode _ _ _ _).bind fun _ => Mild.pure _
  · refine units_ite ?_ fun _ => units_ite (elemUnits_mild fun _ _ => ?_) fun _ => pieceUnits_mild fun _ _ => mild_asOf _ _ hz (mild_valueAt _ _ _ _)
    · split
      · exact tileUnits_mild hz
      · exact fun _ h => nomatch h
    · exact (mild_asOf _ _ hz (mild_codeAt _ _)).bind fun _ => (mild_storeCode _ _ _ _).bind fun _ => Mild.pure _
  · exact fun _ h => nomatch h

theorem mild_dmaBody (replay : Bool) : Mild s0 Run.s (dmaBody replay) := by
  unfold dmaBody
  refine Mild.got fun r _ => (mild_descOpt _).bind fun _ => (mild_descOpt _).bind fun _ => (mild_descOpt _).bind fun _ => (mild_need _ _).bind fun _ => (mild_need _ _).bind fun _ => ?_
  extract_lets sem fromEpoch start
  have hepoch : ∀ e, Mild s0 Run.s (fromEpoch e) := by
    intro e
    dsimp -zeta only [fromEpoch]
    extract_lets tail writes posts prefetch take buffer
    have htail : ∀ x, Mild s0 Run.s (tail x) := fun _ => by
      refine (mild_writerOpt _).bind fun _ => (mild_forEach fun _ => mild_runAheadM _).bind fun _ => mild_gotS fun s hs => (mild_runUnits (dmaUnits_mild hs _ _ _)).bind fun _ => ?_
      repeat' with_reducible first | apply mild_freeOverlap | apply mild_modW | apply Mild.throw | apply Mild.pure | apply Mild.bind | intro _ | dsimp only | split
    have hwrites : ∀ x, Mild s0 Run.s (writes x) := fun _ => Mild.ite ((mild_writerOpt _).bind htail) (htail ())
    have hposts : ∀ x, Mild s0 Run.s (posts x) := fun _ => (mild_setSem _ _).bind hwrites
    have hprefetch : ∀ x, Mild s0 Run.s (prefetch x) := fun _ => by
      refine Mild.ite ?_ (hwrites ())
      split
      · exact Mild.ite ((mild_trackM _ _).bind hposts) (hposts ())
      · exact hposts ()
    have htake : ∀ x, Mild s0 Run.s (take x) := fun _ => (mild_modW _).bind hprefetch
    have hbuffer : ∀ x, Mild s0 Run.s (buffer x) := fun _ => by
      dsimp -zeta only [buffer]
      split
      · exact mild_getS.bind fun _ => Mild.ite ((Mild.throw _).bind htake) (htake ())
      · exact hprefetch ()
    split
    · exact mild_getS.bind fun _ => Mild.ite ((mild_idleMask _).bind fun _ => Mild.ite ((mild_refMask _).bind hbuffer) (hbuffer ())) (hbuffer ())
    · exact hbuffer ()
  have hstart : ∀ x, Mild s0 Run.s (start x) := by
    intro x
    dsimp only [start]
    split
    · exact (mild_sourceMask _ _ _).bind hepoch
    · exact (Mild.pure _).bind hepoch
  exact Mild.ite ((mild_semM _).bind hstart) (hstart ())
end Sys2Proof.Machine
end

section
/-! The bodies of the gather, training and reduction commands keep the state. -/

namespace Sys2Proof.Machine
variable {s0 : State}


theorem mild_lookupM (t : TDesc) (alloc : Bool) (bytes : List Nat) : Mild s0 Run.s (lookupM t alloc bytes) := by
  unfold lookupM
  refine Mild.got fun r _ => ?_
  split
  · refine Mild.ite (Mild.pure _) (mild_forEach fun l => mild_frame (fun s => ?_) (fun s => ?_)) <;> split <;> simp
  · exact Mild.pure _

theorem mild_indexM (t : TDesc) (i : Nat) : Mild s0 Run.s (indexM t i) := by
  unfold indexM
  repeat' with_reducible first | apply mild_readBits | apply Mild.pure | apply Mild.bind | intro _

theorem mild_moveSlice (o : GOps) (scatter : Bool) (src dst : List Nat → List Nat) : Mild s0 Run.s (moveSlice o scatter src dst) := by
  unfold moveSlice
  repeat' with_reducible first | apply mild_writeRow | apply mild_codeAt | apply mild_valueAt | apply mild_storeCode | apply mild_addAt | apply mild_forEach | apply mild_mapEach | apply Mild.pure | apply Mild.map | apply Mild.ite | apply Mild.bind | intro _

theorem mild_fetchSlice (o : GOps) (scatter alloc : Bool) (src : List Nat → List Nat) : Mild s0 Run.s (fetchSlice o scatter alloc src) := by
  unfold fetchSlice
  repeat' with_reducible apply mild_lookupM

theorem mild_gatherAt (o : GOps) (alloc : Bool) (first p : Nat) : Mild s0 Run.s (gatherAt o alloc first p) := by
  unfold gatherAt
  repeat' with_reducible first | apply mild_countM | apply mild_indexM | apply mild_moveSlice | apply mild_fetchSlice | apply Mild.ite | apply Mild.bind | intro _

theorem mild_gatherBlock (o : GOps) (alloc : Bool) (first : Nat) (piece : Nat × Nat) : Mild s0 Run.s (gatherBlock o alloc first piece) := by
  unfold gatherBlock
  repeat' with_reducible first | apply mild_countM | apply mild_writeRow | apply mild_valueAt | apply mild_indexM | apply mild_fetchSlice | apply mild_mapEach | apply Mild.pure | apply Mild.ite | apply Mild.bind | intro _

theorem mild_scatterAt (o : GOps) (alloc : Bool) (first p : Nat) : Mild s0 Run.s (scatterAt o alloc first p) := by
  unfold scatterAt
  repeat' with_reducible first | apply mild_stopAt | apply mild_countM | apply mild_indexM | apply mild_moveSlice | apply mild_fetchSlice | apply Mild.ite | apply Mild.bind | intro _

theorem mild_gatherBody (scatter replay : Bool) : Mild s0 Run.s (gatherBody scatter replay) := by
  unfold gatherBody
  repeat' with_reducible first | apply mild_stopAt | apply mild_need | apply mild_descM | apply mild_writerM | apply mild_runAheadM | apply mild_setSem | apply mild_semM | apply mild_trackM | apply mild_gatherAt | apply mild_gatherBlock | apply mild_scatterAt | apply mild_forEach | apply Mild.got | apply Mild.ite | apply Mild.bind | intro _

theorem mild_replayBody (op : Nat) : Mild s0 Run.s (replayBody op) := by
  unfold replayBody
  repeat' with_reducible first | apply mild_dmaBody | apply mild_gatherBody | apply Mild.ite

theorem mild_finishClose (word : List Byte) (own : Bool) : Mild s0 Run.s (finishClose word own) := by
  unfold finishClose
  repeat' with_reducible first | exact mild_frame (fun s => by simp) (fun s => by simp) | apply mild_modW | apply mild_descOpt | apply mild_putCodes | apply mild_writeTensor | apply Mild.got | apply Mild.bind | intro _ | split

theorem mild_closeBody : Mild s0 Run.s (closeBody) := by
  unfold closeBody
  repeat' with_reducible first | exact mild_frame (fun s => by simp) (fun s => by simp) | apply mild_modW | apply mild_need | apply mild_keepDescs | apply mild_descOpt | apply mild_finishClose | apply mild_writerOpt | apply Mild.throw | apply Mild.got | apply Mild.ite | apply Mild.bind | intro _

theorem mild_openBody : Mild s0 Run.s (openBody) := by
  unfold openBody
  repeat' with_reducible first | exact mild_frame (fun s => by simp) (fun s => by simp) | apply mild_modW | apply mild_need | apply Mild.got | apply Mild.bind | intro _

theorem mild_writeKept (t : TDesc) (vals : Kept) (site : Option Nat) (rne : Bool) : Mild s0 Run.s (writeKept t vals site rne) := by
  unfold writeKept
  repeat' with_reducible first | apply mild_stopWith | apply mild_readCodes | apply mild_putCodes | apply mild_padRow | apply mild_narrowRow | apply mild_forEach | apply Mild.bind | intro _ | split

theorem mild_linear (t : TDesc) : Mild s0 Run.s (linear t) := by
  unfold linear
  repeat' with_reducible first | apply mild_readAll | apply Mild.pure | apply Mild.bind | intro _

theorem mild_linearKept (t : TDesc) (vals : Kept) : Mild s0 Run.s (linearKept t vals) := by
  unfold linearKept
  repeat' with_reducible first | apply mild_stopWith | apply mild_countReads | apply mild_readCodes | apply mild_mapEach | apply Mild.pure | apply Mild.ite | apply Mild.bind | intro _ | split

theorem mild_readWork (j : Job) (t : TDesc) : Mild s0 Run.s (readWork j t) := by
  unfold readWork
  repeat' with_reducible first | apply mild_readM | apply mild_checkHdr | apply mild_readQuad | apply mild_epochCheck | apply mild_mapEach | apply mild_getS | apply Mild.pure | apply Mild.bind | intro _ | split

theorem mild_writeWorkTile (t0 t : TDesc) (w : WTile) (vals : Kept) : Mild s0 Run.s (writeWorkTile t0 t w vals) := by
  unfold writeWorkTile
  repeat' with_reducible first | apply mild_stopWith | apply mild_writeM | apply mild_countReads | apply mild_narrowRow | apply mild_forEach | apply mild_mapEach | apply Mild.pure | apply Mild.bind | intro _ | split

theorem mild_hyperM (t : TDesc) : Mild s0 Run.s (hyperM t) := by
  unfold hyperM
  repeat' with_reducible first | apply mild_readCodes | apply Mild.pure | apply Mild.bind | intro _

theorem mild_optBody : Mild s0 Run.s (optBody) := by
  unfold optBody
  repeat' with_reducible first | exact mild_frame (fun s => by simp) (fun s => by simp) | apply mild_modW | apply mild_stopWith | apply mild_need | apply mild_countM | apply mild_descM | apply mild_descOpt | apply mild_writerM | apply mild_refMask | apply mild_idleMask | apply mild_writeKept | apply mild_linear | apply mild_linearKept | apply mild_readWork | apply mild_writeWorkTile | apply mild_hyperM | apply mild_writerOpt | apply mild_forEach | apply Mild.got | apply Mild.pure | apply Mild.map | apply Mild.bind | intro _ | split

theorem mild_chainM : Mild s0 Run.s (chainM) := by
  unfold chainM
  repeat' with_reducible first | apply mild_descM | apply Mild.got | apply Mild.pure | apply Mild.bind | intro _

theorem mild_ctxM : Mild s0 Run.s (ctxM) := by
  unfold ctxM
  repeat' with_reducible first | apply Mild.got | apply Mild.pure | intro _

theorem mild_modCtx (g : Ctx → Ctx) : Mild s0 Run.s (modCtx g) := by
  exact fun _ h => h.trans (Keeps.of_eq rfl rfl)

theorem mild_noteEvidence : Mild s0 Run.s (noteEvidence) := by
  exact fun _ h => h.trans (Keeps.of_eq rfl rfl)

theorem mild_localVals (a n : Nat) : Mild s0 Run.s (localVals a n) := by
  unfold localVals
  repeat' with_reducible first | apply mild_descM | apply mild_readRow | apply Mild.got | apply Mild.pure | apply Mild.ite | apply Mild.bind | intro _

theorem mild_chainMode (j a : Nat) : Mild s0 Run.s (chainMode j a) := by
  unfold chainMode
  repeat' with_reducible first | apply mild_descM | apply Mild.got | apply Mild.pure | apply Mild.ite | apply Mild.bind | intro _

theorem mild_toWire (wire j a : Nat) (xs : List Nat) : Mild s0 Run.s (toWire wire j a xs) := by
  unfold toWire
  repeat' with_reducible first | apply mild_countM | apply mild_chainMode | apply Mild.pure | apply Mild.bind | intro _ | split

theorem mild_sendSeg (shard pos k n wire : Nat) (ovf : Bool) (bs : List Byte) : Mild s0 Run.s (sendSeg shard pos k n wire ovf bs) := by
  unfold sendSeg
  repeat' with_reducible first | apply mild_countM | apply mild_modCtx | apply Mild.got | apply Mild.pure | apply Mild.ite | apply Mild.bind | intro _

theorem mild_storeOwned (h : Chain) (a : Nat) (xs : List Nat) : Mild s0 Run.s (storeOwned h a xs) := by
  unfold storeOwned
  repeat' with_reducible first | apply mild_stopWith | apply mild_countM | apply mild_descM | apply mild_evidenceM | apply mild_putCodes | apply mild_padRow | apply mild_writeRow | apply mild_chainMode | apply mild_forEach | apply Mild.got | apply Mild.pure | apply Mild.bind | intro _ | split

theorem mild_sumSeg (h : Chain) (s k : Nat) (vin : Option (List Nat)) (ovfIn : Bool) : Mild s0 Run.s (sumSeg h s k vin ovfIn) := by
  unfold sumSeg
  repeat' with_reducible first | apply mild_countM | apply mild_modCtx | apply mild_noteEvidence | apply mild_localVals | apply mild_toWire | apply mild_sendSeg | apply mild_storeOwned | apply Mild.got | apply Mild.ite | apply Mild.bind | intro _

theorem mild_storeBytes (a : Nat) (bs : List Byte) : Mild s0 Run.s (storeBytes a bs) := by
  unfold storeBytes
  repeat' with_reducible first | apply mild_fieldM | apply mild_descM | apply mild_putCodes | apply Mild.bind | intro _

theorem mild_arriveSeg (m : Msg) : Mild s0 Run.s (arriveSeg m) := by
  unfold arriveSeg
  repeat' with_reducible first | exact mild_frame (fun s => by simp) (fun s => by simp) | apply mild_chainM | apply mild_ctxM | apply mild_modCtx | apply mild_noteEvidence | apply mild_sendSeg | apply mild_sumSeg | apply mild_storeBytes | apply Mild.got | apply Mild.ite | apply Mild.bind | intro _

theorem mild_accumulate : Mild s0 Run.s (accumulate) := by
  unfold accumulate
  repeat' with_reducible first | exact mild_frame (fun s => by simp) (fun s => by simp) | apply mild_modW | apply mild_descM | apply mild_readRow | apply mild_putCodes | apply mild_noteEvidence | apply Mild.got | apply Mild.pure | apply Mild.ite | apply Mild.bind | intro _ | split

theorem mild_drainIn (l : List Msg) : Mild s0 Run.s (drainIn l) := by
  induction l with
  | nil => exact Mild.pure _
  | cons m r ih =>
    refine mild_chainM.bind fun _ => Mild.got fun _ _ => mild_ctxM.bind fun _ => Mild.ite ?_ ?_
    · exact (mild_arriveSeg _).bind fun _ => ih
    · exact (mild_frame (fun s => unmatched_pending s) (fun s => unmatched_mem s)).bind fun _ => ih
theorem mild_startBody : Mild s0 Run.s (startBody) := by
  unfold startBody
  repeat' with_reducible first | apply mild_stopWith | apply mild_descM | apply mild_readCodes | apply mild_chainM | apply mild_modCtx | apply mild_localVals | apply mild_sendSeg | apply mild_sumSeg | apply mild_storeBytes | apply mild_accumulate | apply mild_drainIn | apply mild_forEach | apply Mild.got | apply Mild.pure | apply Mild.ite | apply Mild.bind | intro _

theorem mild_bucketBody : Mild s0 Run.s (bucketBody) := by
  unfold bucketBody
  repeat' with_reducible first | apply mild_modW | apply mild_need | apply mild_descM | apply mild_keepDescs | apply mild_descOpt | apply mild_writerM | apply mild_setSem | apply mild_semM | apply mild_accumulate | apply Mild.throw | apply Mild.got | apply Mild.ite | apply Mild.bind | intro _

theorem mild_endChain : Mild s0 Run.s (endChain) := by
  unfold endChain
  repeat' with_reducible first | exact mild_frame (fun s => by simp) (fun s => by simp) | apply mild_modW | apply mild_writeM | apply mild_descOpt | apply mild_putCodes | apply mild_chainM | apply mild_forEach | apply Mild.got | apply Mild.pure | apply Mild.bind | intro _ | split

theorem keeps_forgetRefusals (s : State) (f n : Nat) : Keeps s (forgetRefusals s f n) := Keeps.of_eq (forgetRefusals_pending ..) (forgetRefusals_mem ..)
theorem keeps_requestPage (s : State) (f n : Nat) : Keeps s (requestPage s f n) := Keeps.of_eq (requestPage_pending ..) (requestPage_mem ..)
theorem keeps_setQueue (s : State) (q : QNum) (x : Queue) : Keeps s (s.setQueue q x) := Keeps.of_eq rfl rfl
/-- Work on a started command keeps the state where its computation does. -/
theorem keeps_runStarted {s : State} {q : QNum} {idx : BitVec 16} {act : M Unit} (h : Mild s Run.s act) : Keeps s (runStarted s q idx act).2 := by
  unfold runStarted
  dsimp only
  split
  · exact Keeps.refl s
  · next w _ =>
    have hr := h { s := s, w := w, q := q, exe := exeOf q (s.queue q), f := (s.queue q).func.toNat, job := (s.queue q).job.toNat, c := w.cmd, step := drawnStep s q idx } (Keeps.refl s)
    split
    · next hx =>
      rw [hx] at hr
      exact hr.trans (keeps_setQueue _ _ _)
    · next hx =>
      rw [hx] at hr
      exact (hr.trans (keeps_forgetRefusals _ _ _)).trans (keeps_setQueue _ _ _)
    · exact keeps_requestPage _ _ _
    · exact Keeps.refl s
theorem keeps_startChain (s : State) (q : QNum) : Keeps s (startChain s q) := by
  have h := fun idx => keeps_runStarted (s := s) (q := q) (idx := idx) mild_startBody
  unfold startChain
  split
  · next idx c _ =>
    have h := h idx
    dsimp only
    split
    · next hx =>
      rw [hx] at h
      exact h.trans (keeps_setQueue _ _ _)
    · next hx =>
      rw [hx] at h
      exact (h.trans (Keeps.of_eq (dropCtx_pending ..) (dropCtx_mem ..))).trans (keeps_setQueue _ _ _)
    · next hx =>
      rw [hx] at h
      exact h
  · exact Keeps.refl s
theorem mild_flushBody : Mild s0 Run.s (flushBody) := by
  unfold flushBody
  repeat' with_reducible first | exact mild_modS fun s h => (h.trans (keeps_setQueue _ _ _)).trans (keeps_startChain _ _) | exact mild_frame (fun s => by simp) (fun s => by simp) | apply mild_stopWith | apply mild_need | apply Mild.got | apply Mild.bind | intro _ | dsimp only | split

theorem mild_reshardBody : Mild s0 Run.s (reshardBody) := by
  unfold reshardBody
  repeat' with_reducible first | exact mild_frame (fun s => by simp) (fun s => by simp) | apply mild_modW | apply mild_need | apply Mild.throw | apply Mild.got | apply Mild.ite | apply Mild.bind | intro _

end Sys2Proof.Machine
end

section
/-! The start of a command, the waits and the chains keep the state. -/

namespace Sys2Proof.Machine

/-! ### Commands of queues -/

theorem keeps_ite {c : Prop} [Decidable c] {s t u : State} (h1 : c → Keeps s t) (h2 : ¬ c → Keeps s u) : Keeps s (if c then t else u) := by
  split
  · exact h1 ‹_›
  · exact h2 ‹_›

/-- A change that by its rules leaves the waiting commands alone and keeps memory's form. -/
theorem Keeps.step {s t u : State} (h : Keeps s t) (hp : u.pending = t.pending) (hm : u.mem = t.mem) : Keeps s u := h.trans (Keeps.of_eq hp hm)

theorem keeps_afterBody {s s1 : State} {q : QNum} {x : Queue} {c : Cmd} {hs : List Nat} {e : Except Stop Unit × Run} (h1 : Keeps s s1) (he : Keeps s e.2.s) :
    Keeps s (afterBody s1 q x c hs e) := by
  obtain ⟨e, r⟩ := e
  unfold afterBody
  split
  · next hx =>
    cases hx
    exact he.step (by simp) (by simp)
  · next hx =>
    cases hx
    exact he.step (by simp) (by simp)
  · refine h1.trans (Keeps.of_eq ?_ ?_) <;> dsimp only <;> (repeat' split) <;> simp
  · exact h1.step (by simp) (by simp)

theorem fetchHead_ok {s s1 : State} {q : QNum} {c : Cmd} {bs : List Byte} (h : fetchHead s q c = .ok (bs, s1)) : s1.pending = s.pending ∧ s1.mem = s.mem :=
  ⟨(vRead_ok_pending h).trans (by simp), (vRead_ok_mem h).trans (by simp)⟩

theorem keeps_present {s : State} {q : QNum} {c : Cmd} {resv : Cmd → Bool} {handles : Cmd → List Nat} {body : M Unit} (hb : Mild s Run.s body) :
    Keeps s (present q c resv handles body s) := by
  unfold present
  dsimp only
  split
  · exact Keeps.of_eq (by simp) (by simp)
  · exact Keeps.of_eq (by simp) (by simp)
  · exact Keeps.of_eq (by simp) (by simp)
  · exact Keeps.of_eq (by simp) (by simp)
  · next s1 h1 =>
    obtain ⟨hp, hm⟩ := fetchHead_ok h1
    refine keeps_ite (fun _ => Keeps.of_eq (by simp [hp]) (by simp [hm])) fun _ => ?_
    split
    · exact Keeps.of_eq (by simp [hp]) (by simp [hm])
    · exact keeps_afterBody (Keeps.of_eq hp hm) (hb _ (Keeps.of_eq hp hm))

/-- A command answers a next state, leaves the waiting commands alone and keeps memory's form. -/
def Answers (s : State) (o : Out) : Prop := ∃ t, o = .next t ∧ Keeps s t

theorem Answers.next {s t : State} (h : Keeps s t) : Answers s (.next t) := ⟨t, rfl, h⟩
theorem Answers.ite {c : Prop} [Decidable c] {s : State} {o p : Out} (h1 : Answers s o) (h2 : Answers s p) : Answers s (if c then o else p) := by
  split <;> assumption

/-- A command whose body keeps the state. -/
theorem answers_startCmd {s : State} {q : QNum} {c : Cmd} {resv : Cmd → Bool} {handles : Cmd → List Nat} {body : M Unit} (hb : Mild s Run.s body) :
    Answers s (startCmd q c resv handles body s) := by
  refine .next (keeps_ite (fun _ => .refl s) fun _ => keeps_ite (fun _ => keeps_ite (fun _ => Keeps.of_eq (by simp) (by simp)) fun _ => .refl s) fun _ => ?_)
  exact keeps_ite (fun _ => Keeps.of_eq (by simp) (by simp)) fun _ => keeps_ite (fun _ => .refl s) fun _ => keeps_present hb

theorem keeps_foldl {α : Type} {f : State → α → State} (h : ∀ s a, Keeps s (f s a)) (l : List α) (s : State) : Keeps s (l.foldl f s) := by
  induction l generalizing s with
  | nil => exact .refl s
  | cons a l ih => exact (h s a).trans (ih _)

theorem keeps_startRefetch (s : State) (q : QNum) (t : Track) : Keeps s (startRefetch s q t) := by
  unfold startRefetch
  dsimp only
  have h := mild_replayBody (s0 := s) (opByte t.cmd).toNat { s := s, w := { idx := 0, op := opByte t.cmd, cmd := t.cmd }, q := t.queue, exe := exeOf t.queue (s.queue t.queue), f := (s.queue t.queue).func.toNat, job := t.job.toNat, c := t.cmd } (.refl s)
  split
  · next hx =>
    rw [hx] at h
    exact h.step (by simp) (by simp)
  · next hx =>
    rw [hx] at h
    exact h.step (by simp) (by simp)
  · exact Keeps.of_eq (by simp) (by simp)
  · exact .refl s

theorem keeps_settleWait (s : State) (q : QNum) : Keeps s (settleWait s q) := by
  unfold settleWait
  split
  · refine keeps_ite (fun _ => Keeps.of_eq (by simp) (by simp)) fun _ => ?_
    exact keeps_foldl (fun s t => keeps_startRefetch s q t) _ s
  · exact .refl s

/-! ### Chains -/

theorem keeps_launchBucket (s : State) (q : QNum) (idx : BitVec 16) (c : Cmd) : Keeps s (launchBucket s q idx c) := by
  unfold launchBucket
  dsimp only
  refine keeps_ite (fun _ => Keeps.of_eq (by simp) (by simp)) fun _ => ?_
  exact keeps_ite (fun _ => Keeps.trans (Keeps.of_eq (by simp) (by simp)) (keeps_startChain _ q)) fun _ => Keeps.of_eq (by simp) (by simp)

theorem keeps_takeSegment (p : Port) (m : Msg) (s : State) : Keeps s (takeSegment p m s) := by
  unfold takeSegment
  dsimp only
  split
  · exact Keeps.of_eq (by simp) (by simp)
  · split
    · exact Keeps.of_eq (by simp) (by simp)
    · next q _ _ _ idx _ _ =>
      refine keeps_ite (fun _ => Keeps.of_eq (by simp) (by simp)) fun _ => keeps_ite (fun _ => Keeps.of_eq (by simp) (by simp)) fun _ => ?_
      have h := (Keeps.of_eq (takeMsg_pending s p m) (takeMsg_mem s p m)).trans (keeps_runStarted (s := takeMsg s p m) (q := q) (idx := idx) (mild_drainIn [m]))
      split
      all_goals
        next hx =>
        rw [hx] at h
        exact h.step (by simp) (by simp)

theorem keeps_nextAxis (s : State) (q : QNum) (jid : Nat) : Keeps s (nextAxis s q jid) := by
  unfold nextAxis
  dsimp only
  split
  · exact .refl s
  · split
    · exact Keeps.of_eq (by simp) (by simp)
    · exact (Keeps.of_eq (by simp) (by simp) : Keeps s (s.setCtx q (s.ctx q).idle)).trans (keeps_runStarted ((mild_finishClose _ _).bind fun _ => mild_modW _))

theorem keeps_settleRound (s : State) (q : QNum) : Keeps s (settleRound s q) := by
  unfold settleRound
  dsimp only
  split
  · split
    · exact keeps_ite (fun _ => Keeps.trans (Keeps.of_eq (by simp) (by simp)) (keeps_nextAxis _ q _)) fun _ => .refl s
    · exact .refl s
  · exact .refl s

theorem keeps_takeWord (s : State) (q : QNum) (x : Ctx) (jid : BitVec 32) (a : BitVec 2) (n : Nat) (m : Msg) : Keeps s (takeWord s q x jid a n m) := by
  unfold takeWord
  dsimp only
  split
  · exact .refl s
  · exact Keeps.trans (Keeps.of_eq (by simp) (by simp)) (keeps_settleRound _ q)

theorem keeps_settleChain (s : State) (q : QNum) : Keeps s (settleChain s q) := by
  unfold settleChain
  dsimp only
  split
  · refine keeps_ite (fun _ => .refl s) fun _ => ?_
    next _ idx c _ _ =>
    have h := keeps_runStarted (s := s) (q := q) (idx := idx) (act := do
      let h ← chainM
      if h.handled (s.ctx q).segs then endChain else throw (.hold .other)) (mild_chainM.bind fun _ => Mild.ite mild_endChain (Mild.throw _))
    split
    · next hx =>
      rw [hx] at h
      exact h
    · next hx =>
      rw [hx] at h
      exact h.step (by simp) (by simp)
  · exact .refl s

end Sys2Proof.Machine
end

section
/-! Descriptors and the loader keep the state. -/

namespace Sys2Proof.Machine

/-! ### Descriptors -/

theorem readNow_ok {s t : State} {f job tier a n : Nat} {b : List Byte} (h : readNow s f job tier a n = .ok (b, t)) : t.pending = s.pending ∧ t.mem = s.mem := by
  unfold readNow at h
  split at h
  · split at h
    · cases h
    · split at h <;> cases h
      exact ⟨rfl, rfl⟩
  · exact ⟨vRead_ok_pending h, vRead_ok_mem h⟩

theorem readTable_ok {f job : Nat} {r : TDesc} {n k : Nat} {l m : List Nat} {s u : State} (h : readTable f job r n k l s = .ok (m, u)) :
    u.pending = s.pending ∧ u.mem = s.mem := by
  induction n generalizing k l s with
  | zero => cases h; exact ⟨rfl, rfl⟩
  | succ n ih =>
    unfold readTable at h
    split at h <;> try cases h
    next hr =>
    obtain ⟨h1, h2⟩ := readNow_ok hr
    obtain ⟨h3, h4⟩ := ih h
    exact ⟨h3.trans h1, h4.trans h2⟩

theorem readRagged_ok {s u : State} {f job : Nat} {j : Job} {t : TDesc} {l : Option (List Nat)} (h : readRagged s f job j t = .ok (l, u)) :
    u.pending = s.pending ∧ u.mem = s.mem := by
  unfold readRagged at h
  split at h
  · cases h; exact ⟨rfl, rfl⟩
  · dsimp only at h
    split at h
    · cases h; exact ⟨rfl, rfl⟩
    · split at h
      · cases h; exact ⟨rfl, rfl⟩
      · split at h
        · next hr => cases h; exact readTable_ok hr
        · cases h
        · cases h; exact ⟨forgetRefusals_pending .., forgetRefusals_mem ..⟩
        · cases h; exact ⟨rfl, rfl⟩

theorem keeps_validate (s : State) (f job : Nat) (j : Job) (raw : BitVec 1024) : Keeps s (validate s f job j raw).2 := by
  unfold validate
  dsimp only
  split
  · exact .refl s
  · split
    · exact .refl s
    · split
      · exact .refl s
      · next hr =>
        have h : Keeps s _ := Keeps.of_eq (readRagged_ok hr).1 (readRagged_ok hr).2
        (repeat' split) <;> exact h

theorem keeps_descCreate (s : State) (p : Path) (data : List Byte) : Keeps s (descCreate s p data).2 := by
  unfold descCreate
  dsimp only
  split
  · exact Keeps.of_eq (by simp) (by simp)
  · split
    · exact Keeps.of_eq (by simp) (by simp)
    · have h := keeps_validate s (s.job (byteField data 0 4)).func.toNat (byteField data 0 4) (s.job (byteField data 0 4)) (BitVec.ofNat 1024 (byteField data 8 128))
      split
      · next hx =>
        rw [hx] at h
        exact h.step (by simp) (by simp)
      · next hx =>
        rw [hx] at h
        exact h.step (by simp) (by simp)
      · exact Keeps.of_eq (by simp) (by simp)

/-! ### The loader -/

section
variable {α : Type} {s0 : State}

theorem mild_failL (e : LoadFail) : Mild s0 Load.s (failL e : LM α) := Mild.throw _
theorem mild_needL (b : Bool) (e : LoadFail) : Mild s0 Load.s (needL b e) := Mild.ite (Mild.pure _) (mild_failL _)
theorem mild_modL {g : State → State} (h : ∀ s, Keeps s0 s → Keeps s0 (g s)) : Mild s0 Load.s (modL g) := fun r hr => h r.s hr
/-- A change of the state that leaves the waiting commands and memory alone. -/
theorem mild_frameL {g : State → State} (hp : ∀ s, (g s).pending = s.pending) (hm : ∀ s, (g s).mem = s.mem) : Mild s0 Load.s (modL g) :=
  mild_modL fun s h => h.step (hp s) (hm s)
/-- A change of what the loader holds beside the state. -/
theorem mild_note {g : Load → Load} (h : ∀ r, (g r).s = r.s := by exact fun _ => rfl) : Mild s0 Load.s (modify g : LM Unit) := fun r hr => by
  change Keeps s0 (g r).s
  rwa [h r]
theorem mild_eachL {l : List α} {g : α → LM Unit} (h : ∀ a, Mild s0 Load.s (g a)) : Mild s0 Load.s (eachL l g) := by
  induction l with
  | nil => exact Mild.pure ()
  | cons a r ih => exact (h a).bind fun _ => ih
/-- What follows an access of the loader that has succeeded. -/
theorem mild_accL {β : Type} {x : Acc α} {e : LoadFail} {k : α → LM β} (h : ∀ a, x = .ok a → Mild s0 Load.s (k a)) : Mild s0 Load.s (accL x e >>= k) := by
  cases x with
  | ok a => exact h a rfl
  | fault r n => exact fun q hq => hq.step (forgetRefusals_pending q.s q.f r) (forgetRefusals_mem q.s q.f r)
  | _ => exact fun _ h => h

theorem mild_loadRead (a n : Nat) (e : LoadFail) : Mild s0 Load.s (loadRead a n e) :=
  Mild.got fun _ hr => mild_accL fun _ hx => (mild_modL fun _ _ => hr.step (vRead_ok_pending hx) (vRead_ok_mem hx)).bind fun _ => Mild.pure _
theorem mild_loadWrite (tier : Option Nat) (a : Nat) (bs : List Byte) (e : LoadFail) : Mild s0 Load.s (loadWrite tier a bs e) := by
  refine Mild.got fun r hr => Mild.ite (mild_modL fun s h => h.trans ⟨physWrite_pending .., wf_physWrite _ _⟩) ?_
  exact mild_accL fun t ht => mild_modL fun _ _ => hr.trans ⟨vWrite_ok_pending ht, wf_vWrite ht⟩

theorem mild_dirEntry (k : Nat) : Mild s0 Load.s (dirEntry k) := by
  refine Mild.get.bind fun r => ?_
  dsimp only
  split
  · exact mild_failL _
  · exact mild_note
theorem mild_varOk (n : Nat) : Mild s0 Load.s (varOk n) := by
  refine Mild.get.bind fun r => mild_eachL fun t => ?_
  split
  · exact mild_failL _
  · exact Mild.pure _
theorem mild_stage1 : Mild s0 Load.s stage1 := by
  refine Mild.get.bind fun q => (mild_loadRead _ _ _).bind fun img => (mild_note).bind fun _ => (mild_needL _ _).bind fun _ => ?_
  have rest : Mild s0 Load.s (do
      eachL (List.range (byteField img 6 2)) dirEntry
      let r ← get
      needL ([1, 3, 4].all fun t => (sectIdx r.sects t).isSome) { status := stDescInvalid, stage := 1, field := 6 }
      varOk 1) := (mild_eachL fun _ => mild_dirEntry _).bind fun _ => Mild.get.bind fun _ => (mild_needL _ _).bind fun _ => mild_varOk 1
  dsimp only
  split
  · exact (mild_failL _).bind fun _ => rest
  · exact rest
theorem mild_stage2 : Mild s0 Load.s stage2 := Mild.get.bind fun _ => (mild_needL _ _).bind fun _ => mild_needL _ _
theorem mild_stage3 : Mild s0 Load.s stage3 := by
  refine Mild.get.bind fun r => mild_eachL fun x => ?_
  dsimp only
  split
  · exact mild_failL _
  · exact (mild_needL _ _).bind fun _ => (mild_needL _ _).bind fun _ => Mild.ite mild_note (Mild.pure _)
theorem mild_stage4 : Mild s0 Load.s stage4 := by
  refine Mild.get.bind fun r => (mild_needL _ _).bind fun _ => (mild_loadRead _ _ _).bind fun b => (mild_eachL fun x => ?_).bind fun _ => (mild_needL _ _).bind fun _ => ?_
  · dsimp only
    split
    · exact (mild_failL _).bind fun _ => mild_note
    · exact (mild_needL _ _).bind fun _ => mild_note
  · exact Mild.modify _ fun r hr => hr.step rfl rfl
theorem mild_reloc (i k : Nat) (d : List Byte) (done : List (Nat × Nat)) : Mild s0 Load.s (reloc i k d done) := by
  refine Mild.get.bind fun r => ?_
  dsimp only
  split
  · exact mild_failL _
  · exact (mild_note).bind fun _ => Mild.pure _
theorem mild_relocs (l : List (Nat × Nat × List Byte)) (done : List (Nat × Nat)) : Mild s0 Load.s (relocs l done) := by
  induction l generalizing done with
  | nil => exact Mild.pure _
  | cons x l ih => exact (mild_reloc _ _ _ _).bind fun _ => ih _
theorem mild_stage5 : Mild s0 Load.s stage5 := Mild.get.bind fun _ => (mild_relocs _ _).bind fun _ => mild_varOk 5
theorem mild_stage6 : Mild s0 Load.s stage6 := by
  refine Mild.get.bind fun r => (mild_eachL fun x => (mild_needL _ _).bind fun _ => mild_needL _ _).bind fun _ => mild_eachL fun x => ?_
  exact Mild.got fun r hr => (mild_needL _ _).bind fun _ => mild_modL fun _ _ => hr.step (semCreateAs_pending ..) (semCreateAs_mem ..)
theorem mild_loadKinds (r : Load) : Mild s0 Load.s (loadKinds r) := by
  refine mild_eachL fun x => ?_
  dsimp only
  split
  · exact mild_failL _
  · exact mild_frameL (fun _ => by simp) fun _ => by simp
theorem mild_loadRecipes (r : Load) : Mild s0 Load.s (loadRecipes r) := by
  refine mild_eachL fun x => ?_
  dsimp only
  split
  · exact mild_failL _
  · exact mild_frameL (fun _ => by simp) fun _ => by simp
theorem mild_loadCrimal (r : Load) : Mild s0 Load.s (loadCrimal r) := by
  refine mild_eachL fun x => ?_
  dsimp only
  split
  · exact mild_failL _
  · exact mild_frameL (fun _ => by simp) fun _ => by simp
theorem mild_loadMasks (r : Load) : Mild s0 Load.s (loadMasks r) := by
  refine mild_eachL fun x => Mild.get.bind fun q => ?_
  dsimp only
  split
  · exact mild_needL _ _
  · exact (mild_needL _ _).bind fun _ => mild_frameL (fun _ => by simp) fun _ => by simp
theorem mild_atMostItems (r : Load) (type n : Nat) : Mild s0 Load.s (atMostItems r type n) := by
  unfold atMostItems
  split
  · exact mild_needL _ _
  · exact Mild.pure _
theorem mild_stage7 : Mild s0 Load.s stage7 :=
  Mild.get.bind fun _ => (mild_atMostItems _ _ _).bind fun _ => (mild_loadKinds _).bind fun _ => (mild_loadRecipes _).bind fun _ => (mild_atMostItems _ _ _).bind fun _ =>
    (mild_frameL (fun _ => by simp) fun _ => by simp).bind fun _ => (mild_loadCrimal _).bind fun _ => mild_loadMasks _
theorem mild_stage8 : Mild s0 Load.s stage8 := by
  refine Mild.get.bind fun r => mild_eachL fun x => Mild.got fun q hq => (mild_needL _ _).bind fun _ => ?_
  have h := keeps_validate q.s r.f r.job (q.s.job r.job) (BitVec.ofNat 1024 (byteField x.2.2 8 128))
  split
  · exact mild_failL _
  · exact Mild.throw _
  · next t hx =>
    rw [hx] at h
    split
    · exact mild_failL _
    · exact mild_modL fun _ _ => (hq.trans h).step (installDesc_pending ..) (installDesc_mem ..)
theorem mild_copyData (r : Load) : Mild s0 Load.s (copyData r) := mild_eachL fun _ => (mild_needL _ _).bind fun _ => mild_loadWrite _ _ _ _
theorem mild_stage9 : Mild s0 Load.s stage9 := by
  refine Mild.get.bind fun r => (mild_copyData r).bind fun _ => mild_eachL fun x => mild_eachL fun y => ?_
  dsimp only
  split
  · exact mild_failL _
  · exact Mild.pure _
theorem mild_fillRing (ring : Nat) (e : LoadFail) (l : List (Cmd × Nat)) : Mild s0 Load.s (fillRing ring e l) := by
  induction l with
  | nil => exact Mild.pure _
  | cons x l ih => exact (mild_loadWrite _ _ _ _).bind fun _ => ih
theorem mild_stage10 : Mild s0 Load.s stage10 := by
  refine Mild.get.bind fun r => (mild_eachL fun x => Mild.got fun q hq => (mild_needL _ _).bind fun _ => ?_).bind fun _ => mild_eachL fun x => ?_
  · exact (mild_modL fun _ _ => hq.step (queueCreateAs_pending ..) (queueCreateAs_mem ..)).bind fun _ => mild_fillRing _ _ _
  · exact mild_frameL (fun s => by simp) fun s => by simp
theorem mild_allStages : Mild s0 Load.s allStages :=
  mild_stage1.bind fun _ => mild_stage2.bind fun _ => mild_stage3.bind fun _ => mild_stage4.bind fun _ => mild_stage5.bind fun _ => mild_stage6.bind fun _ =>
    mild_stage7.bind fun _ => mild_stage8.bind fun _ => mild_stage9.bind fun _ => mild_stage10
end

theorem keeps_undoLoad {s t : State} (h : Keeps s t) : Keeps s (undoLoad s t) := ⟨rfl, h.2⟩

/-- What the loader starts from. -/
def loadOf (s : State) (p : Path) (f : Nat) (d : List Byte) : Load :=
  ⟨s, p, f, byteField d 0 4, byteField d 4 2, byteField d 8 8, byteField d 0x10 8, byteField d 0x18 8, byteField d 0x20 4, [], [], [], false⟩

theorem keeps_runLoad (s : State) (p : Path) (f : Nat) (d : List Byte) : Keeps s (runLoad s p f d) := by
  have h := mild_allStages (s0 := s) (loadOf s p f d) (.refl s)
  unfold loadOf at h
  unfold runLoad
  extract_lets
  split
  · next r hx =>
    rw [hx] at h
    have e : Keeps s (if r.s.power.state = .ready then enterState r.s .running else r.s) := keeps_ite (fun _ => h.trans ⟨enterState_pending _ _, fun h => wf_enterState h _⟩) fun _ => h
    exact e.step rfl rfl
  · next hx =>
    rw [hx] at h
    exact (keeps_undoLoad h).step rfl rfl
  · next r k g hx => exact (Keeps.of_eq (requestPage_pending s f k) (requestPage_mem s f k)).step rfl rfl

end Sys2Proof.Machine
end

section
/-! The dictionary, the registers and the module keep the state. -/

namespace Sys2Proof.Machine

/-! ### The rules as rewrites -/

@[simp] theorem startRefetch_pending (s : State) (q : QNum) (t : Track) : (startRefetch s q t).pending = s.pending := (keeps_startRefetch s q t).1
@[simp] theorem settleWait_pending (s : State) (q : QNum) : (settleWait s q).pending = s.pending := (keeps_settleWait s q).1
@[simp] theorem wf_settleWait {s : State} (h : Memory.wf s.mem = true) (q : QNum) : Memory.wf (settleWait s q).mem = true := (keeps_settleWait s q).2 h
@[simp] theorem startChain_pending (s : State) (q : QNum) : (startChain s q).pending = s.pending := (keeps_startChain s q).1
@[simp] theorem wf_startChain {s : State} (h : Memory.wf s.mem = true) (q : QNum) : Memory.wf (startChain s q).mem = true := (keeps_startChain s q).2 h
@[simp] theorem launchBucket_pending (s : State) (q : QNum) (i : BitVec 16) (c : Cmd) : (launchBucket s q i c).pending = s.pending := (keeps_launchBucket s q i c).1
@[simp] theorem wf_launchBucket {s : State} (h : Memory.wf s.mem = true) (q : QNum) (i : BitVec 16) (c : Cmd) : Memory.wf (launchBucket s q i c).mem = true :=
  (keeps_launchBucket s q i c).2 h
@[simp] theorem takeSegment_pending (p : Port) (m : Msg) (s : State) : (takeSegment p m s).pending = s.pending := (keeps_takeSegment p m s).1
@[simp] theorem wf_takeSegment {s : State} (h : Memory.wf s.mem = true) (p : Port) (m : Msg) : Memory.wf (takeSegment p m s).mem = true := (keeps_takeSegment p m s).2 h
@[simp] theorem nextAxis_pending (s : State) (q : QNum) (n : Nat) : (nextAxis s q n).pending = s.pending := (keeps_nextAxis s q n).1
@[simp] theorem wf_nextAxis {s : State} (h : Memory.wf s.mem = true) (q : QNum) (n : Nat) : Memory.wf (nextAxis s q n).mem = true := (keeps_nextAxis s q n).2 h
@[simp] theorem settleRound_pending (s : State) (q : QNum) : (settleRound s q).pending = s.pending := (keeps_settleRound s q).1
@[simp] theorem wf_settleRound {s : State} (h : Memory.wf s.mem = true) (q : QNum) : Memory.wf (settleRound s q).mem = true := (keeps_settleRound s q).2 h
@[simp] theorem takeWord_pending (s : State) (q : QNum) (x : Ctx) (j : BitVec 32) (a : BitVec 2) (n : Nat) (m : Msg) : (takeWord s q x j a n m).pending = s.pending :=
  (keeps_takeWord s q x j a n m).1
@[simp] theorem wf_takeWord {s : State} (h : Memory.wf s.mem = true) (q : QNum) (x : Ctx) (j : BitVec 32) (a : BitVec 2) (n : Nat) (m : Msg) :
    Memory.wf (takeWord s q x j a n m).mem = true := (keeps_takeWord s q x j a n m).2 h
@[simp] theorem settleChain_pending (s : State) (q : QNum) : (settleChain s q).pending = s.pending := (keeps_settleChain s q).1
@[simp] theorem wf_settleChain {s : State} (h : Memory.wf s.mem = true) (q : QNum) : Memory.wf (settleChain s q).mem = true := (keeps_settleChain s q).2 h
@[simp] theorem descCreate_pending (s : State) (p : Path) (d : List Byte) : (descCreate s p d).2.pending = s.pending := (keeps_descCreate s p d).1
@[simp] theorem wf_descCreate {s : State} (h : Memory.wf s.mem = true) (p : Path) (d : List Byte) : Memory.wf (descCreate s p d).2.mem = true := (keeps_descCreate s p d).2 h
@[simp] theorem runLoad_pending (s : State) (p : Path) (f : Nat) (d : List Byte) : (runLoad s p f d).pending = s.pending := (keeps_runLoad s p f d).1
@[simp] theorem wf_runLoad {s : State} (h : Memory.wf s.mem = true) (p : Path) (f : Nat) (d : List Byte) : Memory.wf (runLoad s p f d).mem = true := (keeps_runLoad s p f d).2 h
@[simp] theorem loadRequestWrite_pending (s : State) (p : Path) (d : List Byte) : (loadRequestWrite s p d).2.pending = s.pending := by
  unfold loadRequestWrite; dsimp only; (repeat' split) <;> simp
@[simp] theorem wf_loadRequestWrite {s : State} (h : Memory.wf s.mem = true) (p : Path) (d : List Byte) : Memory.wf (loadRequestWrite s p d).2.mem = true := by
  unfold loadRequestWrite; dsimp only; (repeat' split) <;> simp [h]

@[simp] theorem wf_nil : Memory.wf [] = true := rfl

/-! ### The dictionary -/

theorem keeps_boolWrite {s : State} {v : Nat} {act : Nat × State} (h : Keeps s act.2) : Keeps s (boolWrite v s act).2 := by
  unfold boolWrite
  split
  · exact .refl s
  · exact h

theorem keeps_lowAction {s : State} {p : Path} {index sub v : Nat} {d : List Byte} {x : Nat × State} (h : lowAction s p index sub v d = some x) : Keeps s x.2 := by
  unfold lowAction at h
  split at h
  case h_6 =>
    obtain rfl := Option.some.inj h
    exact keeps_boolWrite ⟨by simp, fun h => by simp [h]⟩
  case h_17 => cases h
  all_goals
    obtain rfl := Option.some.inj h
    exact ⟨by simp, fun h => by simp [h]⟩

theorem keeps_highAction {s : State} {p : Path} {index sub off v : Nat} {d : List Byte} {x : Nat × State} (h : highAction s p index sub off v d = some x) : Keeps s x.2 := by
  unfold highAction at h
  split at h
  case h_24 =>
    obtain rfl := Option.some.inj h
    exact keeps_boolWrite ⟨by simp, fun h => by simp [h]⟩
  case h_27 =>
    split at h
    · obtain rfl := Option.some.inj h
      exact ⟨by simp, fun h => by simp [h]⟩
    · split at h
      · obtain rfl := Option.some.inj h
        exact ⟨by simp, fun h => by simp [h]⟩
      · cases h
  all_goals
    obtain rfl := Option.some.inj h
    exact ⟨by simp, fun h => by simp [h]⟩

theorem keeps_writeEffect (s : State) (p : Path) (index sub off : Nat) (d : List Byte) : Keeps s (writeEffect s p index sub off d).2.2 := by
  unfold writeEffect
  dsimp only
  split
  · exact ⟨by simp, fun h => by simp [h]⟩
  · split
    · next h =>
      split at h
      · exact keeps_lowAction h
      · exact keeps_highAction h
    · (repeat' split) <;> exact ⟨by simp, fun h => by simp [h]⟩

theorem keeps_writeEntry (s : State) (p : Path) (index sub off : Nat) (d : List Byte) : Keeps s (writeEntry s p index sub off d) := by
  unfold writeEntry
  have h := keeps_writeEffect s p index sub off d
  refine keeps_ite (fun _ => Keeps.of_eq (by simp) (by simp)) fun _ => ?_
  split
  next hx =>
  rw [hx] at h
  refine keeps_ite (fun _ => h) fun _ => h.step ?_ ?_ <;> split <;> simp

theorem readValue_ok {s t : State} {p : Path} {e : Entry} {sub off : Nat} {v : List Byte} (h : readValue s p e sub off = .ok (v, t)) : t.pending = s.pending ∧ t.mem = s.mem := by
  unfold readValue at h
  dsimp only at h
  split at h
  · cases h; exact ⟨rfl, rfl⟩
  · split at h
    · cases h
    · cases h; exact ⟨by simp, by simp⟩

theorem keeps_readEntry (s : State) (p : Path) (index sub off len : Nat) : Keeps s (readEntry s p index sub off len) := by
  unfold readEntry
  refine keeps_ite (fun _ => Keeps.of_eq (by simp) (by simp)) fun _ => ?_
  split
  · exact Keeps.of_eq (by simp) (by simp)
  · refine keeps_ite (fun _ => Keeps.of_eq (by simp) (by simp)) fun _ => ?_
    split
    · exact Keeps.of_eq (by simp) (by simp)
    · next hx =>
      obtain ⟨hp, hm⟩ := readValue_ok hx
      exact keeps_ite (fun _ => Keeps.of_eq (by simp [hp]) (by simp [hm])) fun _ => Keeps.of_eq (by simp) (by simp)

theorem keeps_infoEntry (s : State) (p : Path) (index sub : Nat) : Keeps s (infoEntry s p index sub) := Keeps.of_eq (by simp) (by simp)

/-! ### Registers of BAR0 -/

theorem keeps_windowCmd (s : State) (f : Func) (v : Nat) : Keeps s (windowCmd s f v) := by
  unfold windowCmd
  extract_lets p x index sub len padded fill
  have hf : ∀ t, Keeps s t → Keeps s (fill t) := fun t h => h.step rfl rfl
  refine keeps_ite (fun _ => .refl s) fun _ => keeps_ite (fun _ => Keeps.of_eq (by simp) (by simp)) fun _ => ?_
  split
  · exact hf _ (keeps_readEntry ..)
  · exact keeps_ite (fun _ => Keeps.of_eq (by simp) (by simp)) fun _ => keeps_writeEntry ..
  · exact hf _ (keeps_infoEntry ..)
  · exact Keeps.of_eq (by simp) (by simp)

theorem keeps_windowWord (s : State) (f : Func) (off v : Nat) : Keeps s (windowWord s f off v) := by
  unfold windowWord
  dsimp only
  split
  · exact keeps_windowCmd ..
  · exact .of_eq rfl rfl
  · exact .of_eq rfl rfl
  · exact keeps_ite (fun _ => .refl s) fun _ => .of_eq rfl rfl

theorem keeps_words {act : State → Nat → Nat → State} (h : ∀ s o w, Keeps s (act s o w)) (size : Nat) (v : BitVec 64) (s : State) (off : Nat) : Keeps s (words size v act s off) := by
  have h1 : Keeps s (if size = 4 ∨ size = 8 then act s off (bits v.toNat 0 32) else s) := keeps_ite (fun _ => h _ _ _) fun _ => .refl s
  exact keeps_ite (fun _ => h1.trans (h _ _ _)) fun _ => h1

/-- A change of the machine that by its rewrites leaves the waiting commands alone and keeps memory's form. -/
theorem Answers.of {s t : State} (hp : t.pending = s.pending) (hm : Memory.wf s.mem = true → Memory.wf t.mem = true) : Answers s (.next t) := .next ⟨hp, hm⟩

theorem answers_execDoorbellWrite (f : Func) (q : QNum) (size : Nat) (v : BitVec 64) (s : State) : Answers s (execDoorbellWrite f q size v s) := by
  unfold execDoorbellWrite
  (repeat' split) <;> exact .of (by simp) fun h => by simp [h]

theorem answers_execSemWindowSet (f : Func) (n : SemNum) (size : Nat) (v : BitVec 64) (s : State) : Answers s (execSemWindowSet f n size v s) := by
  unfold execSemWindowSet semWindow
  (repeat' split) <;> exact .of (by simp) fun h => by simp [h]

theorem answers_execSemWindowAdd (f : Func) (n : SemNum) (size : Nat) (v : BitVec 64) (s : State) : Answers s (execSemWindowAdd f n size v s) := by
  unfold execSemWindowAdd semWindow
  (repeat' split) <;> exact .of (by simp) fun h => by simp [h]

theorem answers_bar0Write (f : Func) (off size : Nat) (v : BitVec 64) (s : State) : Answers s (bar0Write f off size v s) := by
  unfold bar0Write
  dsimp only
  refine .ite (.next (.refl s)) (.ite (.next (keeps_words (fun s o w => .of_eq (by simp) (by simp)) ..)) (.ite (.next (keeps_words (fun s o w => keeps_windowWord ..) ..)) ?_))
  refine .ite (.ite (answers_execDoorbellWrite ..) (.next (.of_eq (by simp) (by simp)))) (.ite ?_ (.ite (.next (keeps_words (fun s o w => .of_eq (by simp) (by simp)) ..)) (.next (.refl s))))
  split
  · exact answers_execSemWindowSet ..
  · exact answers_execSemWindowAdd ..
  · exact answers_execSemWindowSet ..

theorem keeps_retryRequests (s : State) : Keeps s (retryRequests s) := by
  unfold retryRequests
  dsimp only
  refine Keeps.trans ?_ (keeps_foldl (fun s e => ?_) _ _)
  · split
    · exact keeps_runLoad ..
    · exact .refl s
  · split
    · exact Keeps.trans (.of_eq rfl rfl) (keeps_writeEntry ..)
    · exact .refl s
@[simp] theorem retryRequests_pending (s : State) : (retryRequests s).pending = s.pending := (keeps_retryRequests s).1
@[simp] theorem wf_retryRequests {s : State} (h : Memory.wf s.mem = true) : Memory.wf (retryRequests s).mem = true := (keeps_retryRequests s).2 h

theorem keeps_setNumVfs (s : State) (h : HPort) (n : BitVec 8) : Keeps s (setNumVfs s h n) := by
  unfold setNumVfs
  refine keeps_ite (fun _ => .refl s) fun _ => ?_
  dsimp only
  refine (keeps_foldl (fun s f => ?_) _ s).step rfl rfl
  unfold dropFunction
  exact ⟨by simp, fun h => by simp [h]⟩

theorem keeps_pcieWrite (s : State) (f : Func) (r : PcieReg) : Keeps s (pcieWrite s f r) := by
  unfold pcieWrite
  refine keeps_ite (fun _ => .refl s) fun _ => ?_
  cases r with
  | msixEnable b => exact .of_eq rfl rfl
  | atomicEnable b => exact .of_eq rfl rfl
  | pageRequests n => exact ⟨by simp, fun h => by simp [h]⟩
  | numVfs n => exact keeps_ite (fun _ => keeps_setNumVfs ..) fun _ => .refl s

@[simp] theorem writeEntry_pending (s : State) (p : Path) (i k o : Nat) (d : List Byte) : (writeEntry s p i k o d).pending = s.pending := (keeps_writeEntry s p i k o d).1
@[simp] theorem wf_writeEntry {s : State} (h : Memory.wf s.mem = true) (p : Path) (i k o : Nat) (d : List Byte) : Memory.wf (writeEntry s p i k o d).mem = true :=
  (keeps_writeEntry s p i k o d).2 h
@[simp] theorem readEntry_pending (s : State) (p : Path) (i k o n : Nat) : (readEntry s p i k o n).pending = s.pending := (keeps_readEntry s p i k o n).1
@[simp] theorem wf_readEntry {s : State} (h : Memory.wf s.mem = true) (p : Path) (i k o n : Nat) : Memory.wf (readEntry s p i k o n).mem = true := (keeps_readEntry s p i k o n).2 h
@[simp] theorem pcieWrite_pending (s : State) (f : Func) (r : PcieReg) : (pcieWrite s f r).pending = s.pending := (keeps_pcieWrite s f r).1
@[simp] theorem wf_pcieWrite {s : State} (h : Memory.wf s.mem = true) (f : Func) (r : PcieReg) : Memory.wf (pcieWrite s f r).mem = true := (keeps_pcieWrite s f r).2 h

/-! ### Slots, and requests of SPDM -/

theorem keeps_fillScheduled (s : State) (p : Port) : Keeps s (fillScheduled s p).s := by
  unfold fillScheduled
  extract_lets x want l
  split
  · exact .refl s
  · next q _ =>
    have h : ∀ (k : List Nat) (a : State × List TxFlit), Keeps s a.1 →
        Keeps s (k.foldl (fun (a : State × List TxFlit) l => ((bump (takeFrom a.1 l 30).1 0x0A p.toNat 16 1), a.2 ++ (takeFrom a.1 l 30).2)) a).1 := by
      intro k
      induction k with
      | nil => exact fun _ h => h
      | cons l k ih => exact fun a ha => ih _ (ha.step (by simp) (by simp))
    exact h _ ((takeFrom s q want).1, []) (.of_eq (by simp) (by simp))

theorem keeps_fillOf (s : State) (p : Port) : Keeps s (fillOf s p).s := by
  unfold fillOf
  dsimp only
  split
  · split <;> exact .refl s
  · split
    · exact keeps_fillScheduled s p
    · exact .refl s

theorem keeps_needStage {s : State} {p : SpdmPath} {n : Nat} {act : State → State} (h : Keeps s (act s)) : Keeps s (needStage p n act s) :=
  keeps_ite (fun _ => .of_eq (by simp) (by simp)) fun _ => h
theorem answers_answering {s : State} {p : SpdmPath} {act : State → State} (h : Keeps s (act s)) : Answers s (answering s p act) :=
  .next (keeps_ite (fun _ => h) fun _ => .of_eq (by simp) (by simp))

/-! ### Power -/

@[simp] theorem wf_mapDies {s : State} (h : Memory.wf s.mem = true) (failed : List (Die × BitVec 6)) (l : List Die) : Memory.wf (l.foldl (mapDie failed) s).mem = true :=
  wf_foldl h _ (fun _ _ h => wf_mapDie h _ _) _

theorem keeps_orPost {s t : State} (h : Keeps s t) (c : Bool) (code : Nat) (d : List Byte) : Keeps s (if c then t else postAll t code d) :=
  keeps_ite (fun _ => h) fun _ => h.trans ⟨by simp, fun h => by simp [h]⟩

/-- The aborts of every job, and the event that every function is told. -/
theorem keeps_abortAndPost {s t : State} (h : Keeps s t) (l : List Nat) (code : Nat) (d : List Byte) : Keeps s (postAll (l.foldl (fun s j => abortJob s j) t) code d) :=
  ⟨by simp [h.1], fun hs => wf_postAll (by simpa using h.2 hs) code d⟩

theorem keeps_header {s t : State} (h : Keeps s t) (p : Port) (a b : Nat) : Keeps s (checkSkew t p a b) := h.trans ⟨checkSkew_pending _ _ _ _, fun h => wf_checkSkew h _ _ _⟩

theorem keeps_posts {s t : State} (h : Keeps s t) (l : List (List Nat × Nat × List Byte)) : Keeps s (l.foldl (fun s e => postTo s e.1 e.2.1 e.2.2) t) :=
  h.trans (keeps_foldl (fun s e => ⟨by simp, fun h => by simp [h]⟩) l t)
theorem keeps_rootNew {s t : State} (h : Keeps s t) :
    Keeps s (if t.trust.rootNew then postAll { t with trust := { t.trust with rootNew := false } } 0x0200 (1 :: leBytes 4 (slotOf t t.trust.rootRun.toNat).version.toNat) else t) :=
  keeps_ite (fun _ => h.trans ⟨by simp, fun h => by simp [h]⟩) fun _ => h
theorem keeps_faultHeld {s t : State} (h : Keeps s t) :
    Keeps s (if t.power.faultHeld then enterFaulted { t with power := { t.power with faultHeld := false } } 2 else t) :=
  keeps_ite (fun _ => h.trans ⟨by simp, fun h => by simp [h]⟩) fun _ => h

end Sys2Proof.Machine
end

section
/-! Every command answers a next state and keeps the state: a lemma for each. -/

namespace Sys2Proof.Machine

theorem answers_execBeatBoundary (s : State) : Answers s (execBeatBoundary s) := by
  unfold execBeatBoundary
  dsimp only
  (repeat' split) <;> exact .of (by simp) fun h => by simp [h]

theorem answers_execEpochBoundary (s : State) : Answers s (execEpochBoundary s) := by
  unfold execEpochBoundary
  refine .ite (.next (.refl s)) (.next ?_)
  exact ((keeps_foldl (fun s p => .of_eq (sendMgmt_pending ..) (sendMgmt_mem ..)) _ s).trans (keeps_foldl (by exact fun s p => .of_eq rfl rfl) _ _)).step rfl rfl

theorem answers_execTimeSyncPulse (rise : BitVec 64) (high low : Nat) (s : State) : Answers s (execTimeSyncPulse rise high low s) := by
  unfold execTimeSyncPulse
  dsimp only
  (repeat' split) <;> exact .of (by simp) fun h => by simp [h]

theorem answers_execSyncPulseMissing (s : State) : Answers s (execSyncPulseMissing s) := by
  unfold execSyncPulseMissing
  (repeat' split) <;> exact .of (by simp) fun h => by simp [h]

theorem answers_execRefPllLock (s : State) : Answers s (execRefPllLock s) := by
  unfold execRefPllLock
  (repeat' split) <;> exact .of (by simp) fun h => by simp [h]

theorem answers_execTimeRefLoss (s : State) : Answers s (execTimeRefLoss s) := by
  unfold execTimeRefLoss
  dsimp only
  (repeat' split) <;> exact .of (by simp) fun h => by simp [h]

theorem answers_execTimeRefReturn (s : State) : Answers s (execTimeRefReturn s) := by
  unfold execTimeRefReturn
  dsimp only
  (repeat' split) <;> exact .of (by simp) fun h => by simp [h]

theorem answers_execHoldoverExpiry (s : State) : Answers s (execHoldoverExpiry s) := by
  unfold execHoldoverExpiry
  (repeat' split) <;> exact .of (by simp) fun h => by simp [h]

theorem answers_execTimeFaultRecovery (s : State) : Answers s (execTimeFaultRecovery s) := by
  unfold execTimeFaultRecovery
  (repeat' split) <;> exact .of (by simp) fun h => by simp [h]

theorem answers_execDeadlineCheck (s : State) : Answers s (execDeadlineCheck s) := by
  unfold execDeadlineCheck
  refine .ite (.next (.refl s)) ?_
  dsimp only
  split
  · exact .next (.of_eq (by simp) (by simp))
  · next m _ _ =>
    have h := fun t (ht : Keeps s t) => ht.trans (keeps_foldl (f := fun s p => s.setPort p { s.port p with strRecs := (s.port p).strRecs ++ toFlits ⟨mkHead 4 0 0 (stretchRecord m), []⟩ none })
      (fun s p => .of_eq rfl rfl) (activePorts t) t)
    have hs := h _ (.of_eq (s := s) (t := { bump { atSlot s 128 with queues := (atSlot s 128).queues.map fun e => (e.1, { e.2 with markers := e.2.markers.filter fun k => k.beat != (atSlot s 128).schedBeat }) } 5 0 2 1 with
      time := { (bump { atSlot s 128 with queues := (atSlot s 128).queues.map fun e => (e.1, { e.2 with markers := e.2.markers.filter fun k => k.beat != (atSlot s 128).schedBeat }) } 5 0 2 1).time with
        lastStretch := BitVec.ofNat 160 (leNat (stretchRecord m)) } }) (by simp) (by simp))
    exact .ite (.next hs) (.next (hs.step (by simp) (by simp)))

theorem answers_execStretchLatch (s : State) : Answers s (execStretchLatch s) := by
  unfold execStretchLatch
  dsimp only
  (repeat' split) <;> exact .of (by simp) fun h => by simp [h]

theorem answers_execTickSnapshot (p : Path) (s : State) : Answers s (execTickSnapshot p s) := by
  exact .next (keeps_readEntry ..)

theorem answers_execSlotSend (p : Port) (s : State) : Answers s (execSlotSend p s) := by
  unfold execSlotSend
  refine .ite (.next (.refl s)) (.next ?_)
  have h : Keeps s (fillOf (noteRequests s p s.slot) p).s := Keeps.trans (.of_eq (by simp) (by simp)) (keeps_fillOf _ p)
  dsimp only
  exact h.step (by simp) (by simp)

theorem answers_execSlotReceived (p : Port) (slot : RxSlot) (s : State) : Answers s (execSlotReceived p slot s) := by
  have str : ∀ {c : Bool} {t : State} (r : BitVec 4), Keeps s t → Keeps s (if c then strIndication t p r else t) := fun r h =>
    keeps_ite (fun _ => h.trans ⟨strIndication_pending _ _ _, fun h => wf_strIndication h _ _⟩) fun _ => h
  have abt : ∀ {c : Bool} {t : State} (r : BitVec 10), Keeps s t → Keeps s (if c then abtIndication t p r else t) := fun r h =>
    keeps_ite (fun _ => h.trans ⟨abtIndication_pending _ _ _, fun h => wf_abtIndication h _ _⟩) fun _ => h
  have ack : ∀ {t : State} (a : BitVec 16) (n : Bool), Keeps s t → Keeps s (takeAck t p a n) := fun a n h => h.trans ⟨takeAck_pending _ _ _ _, fun h => wf_takeAck h _ _ _⟩
  unfold execSlotReceived
  dsimp only
  refine .ite (.next (.refl s)) (.ite (.next (.of_eq (by simp) (by simp))) (.next ?_))
  refine Keeps.step ?_ (takeFlits_pending _ _ _ _ _) (takeFlits_mem _ _ _ _ _)
  refine Keeps.step ?_ (bump_pending _ _ _ _ _) (bump_mem _ _ _ _ _)
  refine ack _ _ (abt _ (str _ (keeps_header ?_ _ _ _)))
  exact .of_eq (by simp) (by simp)

theorem answers_execRetryTimeout (p : Port) (s : State) : Answers s (execRetryTimeout p s) := by
  unfold execRetryTimeout
  dsimp only
  (repeat' split) <;> exact .of (by simp) fun h => by simp [h]

theorem answers_execChainSegmentReceived (p : Port) (m : Msg) (s : State) : Answers s (execChainSegmentReceived p m s) := by
  unfold execChainSegmentReceived
  (repeat' split) <;> exact .of (by simp) fun h => by simp [h]

theorem answers_execTransferSegmentReceived (p : Port) (m : Msg) (s : State) : Answers s (execTransferSegmentReceived p m s) := by
  unfold execTransferSegmentReceived
  (repeat' split) <;> exact .of (by simp) fun h => by simp [h]

theorem answers_execCreditGrantReceived (p : Port) (m : Msg) (s : State) : Answers s (execCreditGrantReceived p m s) := by
  unfold execCreditGrantReceived
  dsimp only
  (repeat' split) <;> exact .of (by simp) fun h => by simp [h]

theorem answers_execVerdictMessageReceived (p : Port) (m : Msg) (s : State) : Answers s (execVerdictMessageReceived p m s) := by
  unfold execVerdictMessageReceived
  dsimp only
  (repeat' split) <;> exact .of (by simp) fun h => by simp [h]

theorem answers_execIdent (p : Port) (m : Msg) (s : State) : Answers s (execIdent p m s) := by
  unfold execIdent
  dsimp only
  (repeat' split) <;> exact .of (by simp) fun h => by simp [h]

theorem answers_execPing (p : Port) (m : Msg) (s : State) : Answers s (execPing p m s) := by
  unfold execPing
  dsimp only
  (repeat' split) <;> exact .of (by simp) fun h => by simp [h]

theorem answers_execPong (p : Port) (m : Msg) (s : State) : Answers s (execPong p m s) := by
  unfold execPong
  dsimp only
  (repeat' split) <;> exact .of (by simp) fun h => by simp [h]

theorem answers_execOffset (p : Port) (m : Msg) (s : State) : Answers s (execOffset p m s) := by
  unfold execOffset
  dsimp only
  (repeat' split) <;> exact .of (by simp) fun h => by simp [h]

theorem answers_execLaneMove (p : Port) (m : Msg) (s : State) : Answers s (execLaneMove p m s) := by
  unfold execLaneMove
  dsimp only
  (repeat' split) <;> exact .of (by simp) fun h => by simp [h]

theorem answers_execLaneAck (p : Port) (m : Msg) (s : State) : Answers s (execLaneAck p m s) := by
  unfold execLaneAck
  dsimp only
  (repeat' split) <;> exact .of (by simp) fun h => by simp [h]

theorem answers_execRecheck (p : Port) (m : Msg) (s : State) : Answers s (execRecheck p m s) := by
  unfold execRecheck
  dsimp only
  (repeat' split) <;> exact .of (by simp) fun h => by simp [h]

theorem answers_execStretchRecord (p : Port) (m : Msg) (s : State) : Answers s (execStretchRecord p m s) := by
  unfold execStretchRecord
  dsimp only
  (repeat' split) <;> exact .of (by simp) fun h => by simp [h]

theorem answers_execSignalDetect (p : Port) (s : State) : Answers s (execSignalDetect p s) := by
  unfold execSignalDetect
  dsimp only
  (repeat' split) <;> exact .of (by simp) fun h => by simp [h]

theorem answers_execEqualiseConverged (p : Port) (lowError : Bool) (farSetting : BitVec 2) (farHolly : Bool) (s : State) : Answers s (execEqualiseConverged p lowError farSetting farHolly s) := by
  unfold execEqualiseConverged
  dsimp only
  (repeat' split) <;> exact .of (by simp) fun h => by simp [h]

theorem answers_execEqualiseTimeout (p : Port) (s : State) : Answers s (execEqualiseTimeout p s) := by
  unfold execEqualiseTimeout
  (repeat' split) <;> exact .of (by simp) fun h => by simp [h]

theorem answers_execMapDone (p : Port) (order : LaneOrder) (usable inverted : BitVec 9) (txFailed : Option (BitVec 4)) (s : State) : Answers s (execMapDone p order usable inverted txFailed s) := by
  unfold execMapDone
  dsimp only
  (repeat' split) <;> exact .of (by simp) fun h => by simp [h]

theorem answers_execLockAchieved (p : Port) (s : State) : Answers s (execLockAchieved p s) := by
  unfold execLockAchieved
  dsimp only
  (repeat' split) <;> exact .of (by simp) fun h => by simp [h]

theorem answers_execLockTimeout (p : Port) (s : State) : Answers s (execLockTimeout p s) := by
  unfold execLockTimeout
  (repeat' split) <;> exact .of (by simp) fun h => by simp [h]

theorem answers_execFailedRetryTimer (p : Port) (s : State) : Answers s (execFailedRetryTimer p s) := by
  unfold execFailedRetryTimer
  (repeat' split) <;> exact .of (by simp) fun h => by simp [h]

theorem answers_execHeldIdentTimer (p : Port) (s : State) : Answers s (execHeldIdentTimer p s) := by
  unfold execHeldIdentTimer
  (repeat' split) <;> exact .of (by simp) fun h => by simp [h]

theorem answers_execRetrainDone (p : Port) (s : State) : Answers s (execRetrainDone p s) := by
  unfold execRetrainDone
  dsimp only
  (repeat' split) <;> exact .of (by simp) fun h => by simp [h]

theorem answers_execRetrainTimeout (p : Port) (s : State) : Answers s (execRetrainTimeout p s) := by
  unfold execRetrainTimeout
  (repeat' split) <;> exact .of (by simp) fun h => by simp [h]

theorem answers_execLinkLoss (p : Port) (s : State) : Answers s (execLinkLoss p s) := by
  unfold execLinkLoss
  dsimp only
  (repeat' split) <;> exact .of (by simp) fun h => by simp [h]

theorem answers_execLaneSignalLoss (p : Port) (lane : BitVec 4) (s : State) : Answers s (execLaneSignalLoss p lane s) := by
  unfold execLaneSignalLoss
  exact .of (by simp) fun h => by simp [h]

theorem answers_execLaneErrorWindow (p : Port) (lane : BitVec 4) (corrections : Nat) (s : State) : Answers s (execLaneErrorWindow p lane corrections s) := by
  unfold execLaneErrorWindow
  dsimp only
  (repeat' split) <;> exact .of (by simp) fun h => by simp [h]

theorem answers_execLaneSwitch (p : Port) (agreed : Bool) (s : State) : Answers s (execLaneSwitch p agreed s) := by
  unfold execLaneSwitch
  dsimp only
  (repeat' split) <;> exact .of (by simp) fun h => by simp [h]

theorem answers_execRecalTimer (p : Port) (s : State) : Answers s (execRecalTimer p s) := by
  unfold execRecalTimer
  dsimp only
  (repeat' split) <;> exact .of (by simp) fun h => by simp [h]

theorem answers_execRecalReadaptDone (p : Port) (s : State) : Answers s (execRecalReadaptDone p s) := by
  unfold execRecalReadaptDone
  dsimp only
  (repeat' split) <;> exact .of (by simp) fun h => by simp [h]

theorem answers_execPortDetectIdle (p : Port) (s : State) : Answers s (execPortDetectIdle p s) := by
  unfold execPortDetectIdle
  dsimp only
  (repeat' split) <;> exact .of (by simp) fun h => by simp [h]

theorem answers_execTorusSupplyOvercurrent (p : Port) (tenthAmps : BitVec 16) (s : State) : Answers s (execTorusSupplyOvercurrent p tenthAmps s) := by
  unfold execTorusSupplyOvercurrent
  dsimp only
  exact .of (by simp) fun h => by simp [h]

theorem answers_execModPrsChange (p : Port) (present : Bool) (s : State) : Answers s (execModPrsChange p present s) := by
  unfold execModPrsChange
  exact .of (by simp) fun h => by simp [h]

theorem answers_execNop (q : QNum) (c : Cmd) (s : State) : Answers s (execNop q c s) := by
  exact answers_startCmd (Mild.pure ())

theorem answers_execWait (q : QNum) (c : Cmd) (s : State) : Answers s (execWait q c s) := answers_startCmd mild_waitBody

theorem answers_execWaitSatisfied (q : QNum) (s : State) : Answers s (execWaitSatisfied q s) := by
  unfold execWaitSatisfied
  dsimp only
  (repeat' split) <;> exact .of (by simp) fun h => by simp [h]

/-- How a replay ends, once its writes are over. -/
theorem answers_endReplay {s u : State} (h : Keeps s u) (q : QNum) (t t1 t2 : Track) (w : Started) :
    Answers s (if isError w.status.toNat then .next (endWait (putTrack u t (some t1)) q w.status.toNat w.dkind.toNat w.reason.toNat w.detail.toNat)
      else if t.valid u then .next (settleWait (putTrack u t (some t2)) q)
      else if t.replays ≥ u.reg 0x4030 3 then .next (endWait (putTrack u t none) q stRefetch 0 0 0)
      else .next (startRefetch (putTrack u t (some t1)) q t1)) := by
  refine .ite (.next (h.step (by simp) (by simp))) (.ite (.next (.trans (h.step rfl rfl) (keeps_settleWait _ q))) ?_)
  exact .ite (.next (h.step (by simp) (by simp))) (.next (.trans (h.step rfl rfl) (keeps_startRefetch _ q _)))

theorem answers_execPrefetchReplayDone (q : QNum) (s : State) : Answers s (execPrefetchReplayDone q s) := by
  unfold execPrefetchReplayDone
  split
  · exact .next (.refl s)
  · next t w _ =>
    have h0 : Keeps s (completeStat s (s.queue t.queue).func.toNat t.job.toNat w).1 := ⟨by simp, fun h => by simp [h]⟩
    have hg := fun (l : List (BitVec 32)) => h0.trans (keeps_foldl (f := fun s (i : BitVec 32) => genEnd s i.toNat) (fun s i => .of_eq (by simp) (by simp)) l _)
    dsimp only
    split
    · exact .next (h0.step (by simp) (by simp))
    · refine answers_endReplay ?_ q t _ _ _
      split
      · exact (hg _).trans ⟨by simp, fun h => wf_stopJob h _ _ _ _⟩
      · exact hg _

theorem answers_execSignal (q : QNum) (c : Cmd) (s : State) : Answers s (execSignal q c s) := answers_startCmd mild_signalBody

theorem answers_execFence (q : QNum) (c : Cmd) (s : State) : Answers s (execFence q c s) := answers_startCmd mild_fenceBody

theorem answers_execBeatAlign (q : QNum) (c : Cmd) (s : State) : Answers s (execBeatAlign q c s) := by
  obtain ⟨t, ht, h⟩ := answers_startCmd (q := q) (c := c) (resv := beatAlignOk) (handles := fun _ => []) (body := alignBody)
    (s := if headOpen s (s.queue q) (exeOf q (s.queue q)) && cmdField c 8 1 % 4 == 1 then reachMarker s q (s.queue q).next else s) mild_alignBody
  have h0 : Keeps s (if headOpen s (s.queue q) (exeOf q (s.queue q)) && cmdField c 8 1 % 4 == 1 then reachMarker s q (s.queue q).next else s) :=
    keeps_ite (fun _ => .of_eq (by simp) (by simp)) fun _ => .refl s
  exact ⟨t, ht, h0.trans h⟩

theorem answers_execUnassignedOpcode (q : QNum) (c : Cmd) (s : State) : Answers s (execUnassignedOpcode q c s) := by
  exact answers_startCmd (mild_stopWith _)

theorem answers_execMmul (q : QNum) (c : Cmd) (chk : Option CheckFault) (s : State) : Answers s (execMmul q c chk s) := answers_startCmd (mild_productBody _ _)

theorem answers_execMmulT (q : QNum) (c : Cmd) (chk : Option CheckFault) (s : State) : Answers s (execMmulT q c chk s) := answers_startCmd (mild_productBody _ _)

theorem answers_execLoadStat (q : QNum) (c : Cmd) (chk : Option CheckFault) (s : State) : Answers s (execLoadStat q c chk s) := answers_startCmd (mild_loadStatBody _)

theorem answers_execPreloadAcc (q : QNum) (c : Cmd) (s : State) : Answers s (execPreloadAcc q c s) := answers_startCmd mild_preloadBody

theorem answers_execDrain (q : QNum) (c : Cmd) (s : State) : Answers s (execDrain q c s) := answers_startCmd mild_drainBody

theorem answers_execVecChain (q : QNum) (c : Cmd) (s : State) : Answers s (execVecChain q c s) := answers_startCmd mild_vecChainBody

theorem answers_execVecReduce (q : QNum) (c : Cmd) (s : State) : Answers s (execVecReduce q c s) := answers_startCmd mild_vecReduceBody

theorem answers_execSoftmax (q : QNum) (c : Cmd) (s : State) : Answers s (execSoftmax q c s) := answers_startCmd mild_softmaxBody

theorem answers_execNorm (q : QNum) (c : Cmd) (s : State) : Answers s (execNorm q c s) := answers_startCmd mild_normBody

theorem answers_execDropout (q : QNum) (c : Cmd) (s : State) : Answers s (execDropout q c s) := answers_startCmd mild_dropoutBody

theorem answers_execQuantise (q : QNum) (c : Cmd) (s : State) : Answers s (execQuantise q c s) := answers_startCmd mild_quantiseBody

theorem answers_execDequantise (q : QNum) (c : Cmd) (s : State) : Answers s (execDequantise q c s) := answers_startCmd mild_dequantiseBody

theorem answers_execMaskScore (q : QNum) (c : Cmd) (s : State) : Answers s (execMaskScore q c s) := answers_startCmd mild_maskScoreBody

theorem answers_execPrune (q : QNum) (c : Cmd) (s : State) : Answers s (execPrune q c s) := answers_startCmd mild_pruneBody

theorem answers_execRegrow (q : QNum) (c : Cmd) (s : State) : Answers s (execRegrow q c s) := answers_startCmd mild_regrowBody

theorem answers_execMaskCommit (q : QNum) (c : Cmd) (s : State) : Answers s (execMaskCommit q c s) := by
  obtain ⟨t, ht, h⟩ := answers_startCmd (q := q) (c := c) (resv := maskOk false []) (handles := commitHandles) (s := s) mild_maskCommitBody
  unfold execMaskCommit
  rw [ht]
  dsimp only
  split
  · split
    · exact .ite (.next h) (.next h)
    · exact .next h
  · exact .next (keeps_ite (fun _ => h) fun _ => h.step (by simp) (by simp))

theorem answers_execMaskRefsReleased (id : BitVec 32) (s : State) : Answers s (execMaskRefsReleased id s) := by
  unfold execMaskRefsReleased
  split
  · split
    · exact .ite (answers_execMaskCommit ..) (.next (.refl s))
    · exact .next (.refl s)
  · exact .next (.refl s)

theorem answers_execPredict (q : QNum) (c : Cmd) (s : State) : Answers s (execPredict q c s) := answers_startCmd mild_predictBody

theorem answers_execMaskGather (q : QNum) (c : Cmd) (s : State) : Answers s (execMaskGather q c s) := answers_startCmd mild_maskGatherBody

theorem answers_execCopy (q : QNum) (c : Cmd) (s : State) : Answers s (execCopy q c s) := answers_startCmd (mild_dmaBody _)

theorem answers_execFill (q : QNum) (c : Cmd) (s : State) : Answers s (execFill q c s) := answers_startCmd (mild_dmaBody _)

theorem answers_execCompare (q : QNum) (c : Cmd) (s : State) : Answers s (execCompare q c s) := answers_startCmd (mild_dmaBody _)

theorem answers_execTransposeCopy (q : QNum) (c : Cmd) (s : State) : Answers s (execTransposeCopy q c s) := answers_startCmd (mild_dmaBody _)

theorem answers_execGather (q : QNum) (c : Cmd) (s : State) : Answers s (execGather q c s) := answers_startCmd (mild_gatherBody _ _)

theorem answers_execScatter (q : QNum) (c : Cmd) (s : State) : Answers s (execScatter q c s) := answers_startCmd (mild_gatherBody _ _)

theorem answers_execRedBucket (q : QNum) (c : Cmd) (s : State) : Answers s (execRedBucket q c s) := by
  obtain ⟨t, ht, h⟩ := answers_startCmd (q := q) (c := c) (resv := bucketReserved) (handles := bucketHandles) (s := s) mild_bucketBody
  unfold execRedBucket
  rw [ht]
  dsimp only
  split
  · exact .ite (.next (h.trans (keeps_launchBucket ..))) (.next h)
  · exact .next h

theorem answers_execChainStart (q : QNum) (s : State) : Answers s (execChainStart q s) := by
  unfold execChainStart
  (repeat' split) <;> exact .of (by simp) fun h => by simp [h]

theorem answers_execRedFlush (q : QNum) (c : Cmd) (s : State) : Answers s (execRedFlush q c s) := answers_startCmd mild_flushBody

theorem answers_execReshard (q : QNum) (c : Cmd) (s : State) : Answers s (execReshard q c s) := answers_startCmd mild_reshardBody

theorem answers_execReshardInstall (job : BitVec 32) (s : State) : Answers s (execReshardInstall job s) := by
  unfold execReshardInstall
  dsimp only
  (repeat' split) <;> exact .of (by simp) fun h => by simp [h]

theorem answers_execOptUpdate (q : QNum) (c : Cmd) (s : State) : Answers s (execOptUpdate q c s) := answers_startCmd mild_optBody

theorem answers_execLossScaleCheck (q : QNum) (c : Cmd) (s : State) : Answers s (execLossScaleCheck q c s) := by
  exact answers_startCmd (Mild.ite mild_openBody mild_closeBody)

theorem answers_execVerdictRoundStart (q : QNum) (s : State) : Answers s (execVerdictRoundStart q s) := by
  unfold execVerdictRoundStart
  dsimp only
  (repeat' split) <;> exact .of (by simp) fun h => by simp [h]

theorem answers_execSemCreate (q : QNum) (c : Cmd) (s : State) : Answers s (execSemCreate q c s) := by
  exact answers_startCmd (mild_semOp _ fun _ _ _ => .of_eq (semCreateAs_pending ..) (semCreateAs_mem ..))

theorem answers_execSemDestroy (q : QNum) (c : Cmd) (s : State) : Answers s (execSemDestroy q c s) := by
  exact answers_startCmd (mild_semOp _ fun _ _ _ => .of_eq (semDestroyAs_pending ..) (semDestroyAs_mem ..))

theorem answers_execCommandComplete (q : QNum) (idx : BitVec 16) (s : State) : Answers s (execCommandComplete q idx s) := by
  unfold execCommandComplete
  dsimp only
  (repeat' split) <;> exact .of (by simp) fun h => by simp [h]

theorem answers_execDeadlockTimeout (job : BitVec 32) (s : State) : Answers s (execDeadlockTimeout job s) := by
  unfold execDeadlockTimeout
  dsimp only
  (repeat' split) <;> exact .of (by simp) fun h => by simp [h]

theorem answers_execBar2Read (f : Func) (off : BitVec 42) (len : Nat) (s : State) : Answers s (execBar2Read f off len s) := by
  unfold execBar2Read
  dsimp only
  (repeat' split) <;> exact .of (by simp) fun h => by simp [h]

theorem answers_execBar2Write (f : Func) (off : BitVec 42) (data : List Byte) (s : State) : Answers s (execBar2Write f off data s) := by
  unfold execBar2Write
  refine .ite (.next (.refl s)) (.ite (.next (.of_eq (by simp) (by simp))) (.ite (.next (.refl s)) (.next ?_)))
  exact ⟨by simp, fun h => by simpa using wf_physWrite _ _ h⟩

theorem answers_execLevelWrite (f : Func) (v : BitVec 32) (s : State) : Answers s (execLevelWrite f v s) := by
  unfold execLevelWrite
  exact .of (by simp) fun h => by simp [h]

theorem answers_execMsixVectorUnmask (f : Func) (v : BitVec 11) (s : State) : Answers s (execMsixVectorUnmask f v s) := by
  unfold execMsixVectorUnmask
  (repeat' split) <;> exact .of (by simp) fun h => by simp [h]

theorem answers_execHostPageResponse (f : Func) (va : BitVec 56) (granted : Bool) (hpa : BitVec 64) (s : State) : Answers s (execHostPageResponse f va granted hpa s) := by
  unfold execHostPageResponse
  (repeat' split) <;> exact .of (by simp) fun h => by simp [h]

theorem answers_execHostPageTimeout (f : Func) (va : BitVec 56) (s : State) : Answers s (execHostPageTimeout f va s) := by
  unfold execHostPageTimeout
  exact .of (by simp) fun h => by simp [h]

theorem answers_execAtsInvalidationRequest (f : Func) (va len : BitVec 64) (s : State) : Answers s (execAtsInvalidationRequest f va len s) := by
  unfold execAtsInvalidationRequest
  dsimp only
  (repeat' split) <;> exact .of (by simp) fun h => by simp [h]

theorem answers_execInvalidationComplete (s : State) : Answers s (execInvalidationComplete s) := by
  unfold execInvalidationComplete
  dsimp only
  (repeat' split) <;> exact .of (by simp) fun h => by simp [h]

theorem answers_execPageMove (d : Die) (written : Bool) (s : State) : Answers s (execPageMove d written s) := by
  unfold execPageMove
  dsimp only
  (repeat' split) <;> exact .of (by simp) fun h => by simp [h]

theorem answers_execScrubPatrol (found : List MemError) (s : State) : Answers s (execScrubPatrol found s) := by
  unfold execScrubPatrol
  (repeat' split) <;> exact .of (by simp) fun h => by simp [h]

theorem answers_execCeSummaryMinute (s : State) : Answers s (execCeSummaryMinute s) := by
  unfold execCeSummaryMinute
  dsimp only
  exact .of (by simp) fun h => by simp [h]

theorem answers_execShadowSampleDone (c : CoreNum) (s : State) : Answers s (execShadowSampleDone c s) := by
  unfold execShadowSampleDone
  dsimp only
  (repeat' split) <;> exact .of (by simp) fun h => by simp [h]

theorem answers_execRepairRequest (p : Path) (v : BitVec 32) (s : State) : Answers s (execRepairRequest p v s) := by
  unfold execRepairRequest
  exact .of (by simp) fun h => by simp [h]

theorem answers_execRowTestTimer (a : ArrayNum) (row : Option (BitVec 6)) (s : State) : Answers s (execRowTestTimer a row s) := by
  unfold execRowTestTimer
  (repeat' split) <;> exact .of (by simp) fun h => by simp [h]

theorem answers_execRepairQuietPoint (a : ArrayNum) (sparePass : Bool) (s : State) : Answers s (execRepairQuietPoint a sparePass s) := by
  unfold execRepairQuietPoint
  dsimp only
  (repeat' split) <;> exact .of (by simp) fun h => by simp [h]

theorem answers_execQueueCreate (p : Path) (data : List Byte) (s : State) : Answers s (execQueueCreate p data s) := by
  unfold execQueueCreate
  exact .of (by simp) fun h => by simp [h]

theorem answers_execQueueResume (p : Path) (q : QNum) (s : State) : Answers s (execQueueResume p q s) := by
  unfold execQueueResume
  exact .of (by simp) fun h => by simp [h]

theorem answers_execQueueFlush (p : Path) (q : QNum) (s : State) : Answers s (execQueueFlush p q s) := by
  unfold execQueueFlush
  exact .of (by simp) fun h => by simp [h]

theorem answers_execQueueDestroy (p : Path) (q : QNum) (s : State) : Answers s (execQueueDestroy p q s) := by
  unfold execQueueDestroy
  exact .of (by simp) fun h => by simp [h]

theorem answers_execQueueDestroyDrained (q : QNum) (s : State) : Answers s (execQueueDestroyDrained q s) := by
  unfold execQueueDestroyDrained
  exact .of (by simp) fun h => by simp [h]

theorem answers_execDescCreate (p : Path) (data : List Byte) (s : State) : Answers s (execDescCreate p data s) := by
  unfold execDescCreate
  exact .of (by simp) fun h => by simp [h]

theorem answers_execDescDestroy (p : Path) (data : List Byte) (s : State) : Answers s (execDescDestroy p data s) := by
  unfold execDescDestroy
  exact .of (by simp) fun h => by simp [h]

theorem answers_execEventRingSetup (p : Path) (f : Func) (data : List Byte) (s : State) : Answers s (execEventRingSetup p f data s) := by
  unfold execEventRingSetup
  exact .of (by simp) fun h => by simp [h]

theorem answers_execJobAbort (p : Path) (job : BitVec 32) (s : State) : Answers s (execJobAbort p job s) := by
  unfold execJobAbort
  exact .of (by simp) fun h => by simp [h]

theorem answers_execFunctionAbort (p : Path) (f : BitVec 8) (s : State) : Answers s (execFunctionAbort p f s) := by
  unfold execFunctionAbort
  exact .of (by simp) fun h => by simp [h]

theorem answers_execAbortAbandonDeadline (ofFunction : Bool) (target : BitVec 32) (s : State) : Answers s (execAbortAbandonDeadline ofFunction target s) := by
  unfold execAbortAbandonDeadline
  dsimp only
  (repeat' split) <;> exact .of (by simp) fun h => by simp [h]

theorem answers_execAbortComplete (ofFunction : Bool) (target : BitVec 32) (elapsedUs : BitVec 24) (s : State) : Answers s (execAbortComplete ofFunction target elapsedUs s) := by
  unfold execAbortComplete
  dsimp only
  (repeat' split) <;> exact .of (by simp) fun h => by simp [h]

theorem answers_execLoadRequest (p : Path) (data : List Byte) (s : State) : Answers s (execLoadRequest p data s) := by
  unfold execLoadRequest
  exact .of (by simp) fun h => by simp [h]

theorem answers_execRedJobDrained (r : BitVec 10) (s : State) : Answers s (execRedJobDrained r s) := by
  unfold execRedJobDrained
  (repeat' split) <;> exact .of (by simp) fun h => by simp [h]

theorem answers_execRedJobHoldExpiry (r : BitVec 10) (s : State) : Answers s (execRedJobHoldExpiry r s) := by
  unfold execRedJobHoldExpiry
  (repeat' split) <;> exact .of (by simp) fun h => by simp [h]

theorem answers_execAssignSet (p : Path) (kind f : BitVec 8) (first count : BitVec 32) (s : State) : Answers s (execAssignSet p kind f first count s) := by
  unfold execAssignSet
  exact .of (by simp) fun h => by simp [h]

theorem answers_execAssignShare (p : Path) (kind f : BitVec 8) (first count : BitVec 32) (s : State) : Answers s (execAssignShare p kind f first count s) := by
  unfold execAssignShare
  exact .of (by simp) fun h => by simp [h]

theorem answers_execAssignRemove (p : Path) (kind f : BitVec 8) (first count : BitVec 32) (s : State) : Answers s (execAssignRemove p kind f first count s) := by
  unfold execAssignRemove
  exact .of (by simp) fun h => by simp [h]

theorem answers_execInvalRequest (p : Path) (data : List Byte) (s : State) : Answers s (execInvalRequest p data s) := by
  unfold execInvalRequest
  exact .of (by simp) fun h => by simp [h]

theorem answers_execRecipeWrite (p : Path) (v : BitVec 32) (s : State) : Answers s (execRecipeWrite p v s) := by
  unfold execRecipeWrite
  exact .of (by simp) fun h => by simp [h]

theorem answers_execCrimalScaleWrite (p : Path) (v : BitVec 8) (s : State) : Answers s (execCrimalScaleWrite p v s) := by
  unfold execCrimalScaleWrite
  exact .of (by simp) fun h => by simp [h]

theorem answers_execCoordWrite (p : Path) (v : BitVec 32) (s : State) : Answers s (execCoordWrite p v s) := by
  unfold execCoordWrite
  exact .of (by simp) fun h => by simp [h]

theorem answers_execAxisSizeWrite (p : Path) (v : BitVec 32) (s : State) : Answers s (execAxisSizeWrite p v s) := by
  unfold execAxisSizeWrite
  exact .of (by simp) fun h => by simp [h]

theorem answers_execPortEnableWrite (p : Path) (v : BitVec 8) (s : State) : Answers s (execPortEnableWrite p v s) := by
  unfold execPortEnableWrite
  exact .of (by simp) fun h => by simp [h]

theorem answers_execCoreReplace (p : Path) (v : BitVec 16) (s : State) : Answers s (execCoreReplace p v s) := by
  unfold execCoreReplace
  exact .of (by simp) fun h => by simp [h]

theorem answers_execCoreSelfTestDone (d : Die) (pass oldWorks : Bool) (s : State) : Answers s (execCoreSelfTestDone d pass oldWorks s) := by
  unfold execCoreSelfTestDone
  dsimp only
  (repeat' split) <;> exact .of (by simp) fun h => by simp [h]

theorem answers_execCoreQuietPoint (c : CoreNum) (s : State) : Answers s (execCoreQuietPoint c s) := by
  unfold execCoreQuietPoint
  (repeat' split) <;> exact .of (by simp) fun h => by simp [h]

theorem answers_execCoreCopyDone (c : CoreNum) (s : State) : Answers s (execCoreCopyDone c s) := by
  unfold execCoreCopyDone
  dsimp only
  (repeat' split) <;> exact .of (by simp) fun h => by simp [h]

theorem answers_execMemRepair (p : Path) (addr : BitVec 64) (s : State) : Answers s (execMemRepair p addr s) := by
  unfold execMemRepair
  exact .of (by simp) fun h => by simp [h]

theorem answers_execMemRepairDone (resource : Bool) (s : State) : Answers s (execMemRepairDone resource s) := by
  unfold execMemRepairDone
  dsimp only
  (repeat' split) <;> exact .of (by simp) fun h => by simp [h]

theorem answers_execDictRead (p : Path) (index : BitVec 16) (sub : BitVec 8) (off len : BitVec 32) (s : State) : Answers s (execDictRead p index sub off len s) := by
  unfold execDictRead
  exact .of (by simp) fun h => by simp [h]

theorem answers_execDictWrite (p : Path) (index : BitVec 16) (sub : BitVec 8) (off : BitVec 32) (data : List Byte) (s : State) : Answers s (execDictWrite p index sub off data s) := by
  unfold execDictWrite
  exact .of (by simp) fun h => by simp [h]

theorem answers_execDictInfo (p : Path) (index : BitVec 16) (sub : BitVec 8) (s : State) : Answers s (execDictInfo p index sub s) := by
  unfold execDictInfo
  exact .of (by simp) fun h => by simp [h]

theorem answers_execRegisterWrite (t : RegTarget) (s : State) : Answers s (execRegisterWrite t s) := by
  cases t with
  | dict p index sub data => exact .next (keeps_writeEntry ..)
  | bar0 f off size v => exact answers_bar0Write ..
  | pcie f r => exact .next (keeps_pcieWrite ..)

theorem answers_execCounterRead (p : Path) (snapshot : Bool) (s : State) : Answers s (execCounterRead p snapshot s) := by
  unfold execCounterRead
  (repeat' split) <;> exact .of (by simp) fun h => by simp [h]

theorem answers_execFaultAck (p : Path) (code : BitVec 16) (s : State) : Answers s (execFaultAck p code s) := by
  unfold execFaultAck
  exact .of (by simp) fun h => by simp [h]

theorem answers_execGpioClaim (p : Path) (index : BitVec 16) (sub : BitVec 8) (pin : BitVec 8) (s : State) : Answers s (execGpioClaim p index sub pin s) := by
  unfold execGpioClaim
  exact .of (by simp) fun h => by simp [h]

theorem answers_execRestoreDefaults (p : Path) (v : BitVec 32) (s : State) : Answers s (execRestoreDefaults p v s) := by
  unfold execRestoreDefaults
  exact .of (by simp) fun h => by simp [h]

theorem answers_execTraceEn (p : Path) (v : BitVec 8) (s : State) : Answers s (execTraceEn p v s) := by
  unfold execTraceEn
  exact .of (by simp) fun h => by simp [h]

theorem answers_execTraceTrigger (p : Path) (v : BitVec 8) (s : State) : Answers s (execTraceTrigger p v s) := by
  unfold execTraceTrigger
  exact .of (by simp) fun h => by simp [h]

theorem answers_execTraceGpioEdge (pin : BitVec 2) (s : State) : Answers s (execTraceGpioEdge pin s) := by
  unfold execTraceGpioEdge
  (repeat' split) <;> exact .of (by simp) fun h => by simp [h]

theorem answers_execTracePostExpiry (s : State) : Answers s (execTracePostExpiry s) := by
  unfold execTracePostExpiry
  (repeat' split) <;> exact .of (by simp) fun h => by simp [h]

theorem answers_execFwChunk (p : Path) (data : List Byte) (s : State) : Answers s (execFwChunk p data s) := by
  unfold execFwChunk
  exact .of (by simp) fun h => by simp [h]

theorem answers_execFwChunkProgrammed (s : State) : Answers s (execFwChunkProgrammed s) := by
  unfold execFwChunkProgrammed
  dsimp only
  (repeat' split) <;> exact .of (by simp) fun h => by simp [h]

theorem answers_execFwCommit (p : Path) (s : State) : Answers s (execFwCommit p s) := by
  unfold execFwCommit
  exact .of (by simp) fun h => by simp [h]

theorem answers_execFwActivate (p : Path) (s : State) : Answers s (execFwActivate p s) := by
  unfold execFwActivate
  exact .of (by simp) fun h => by simp [h]

theorem answers_execHandoverReady (s : State) : Answers s (execHandoverReady s) := by
  unfold execHandoverReady
  dsimp only
  (repeat' split) <;> exact .of (by simp) fun h => by simp [h]

theorem answers_execHandoverTimeout (s : State) : Answers s (execHandoverTimeout s) := by
  unfold execHandoverTimeout
  dsimp only
  (repeat' split) <;> exact .of (by simp) fun h => by simp [h]

theorem answers_execSvnRaise (p : Path) (kind : BitVec 8) (s : State) : Answers s (execSvnRaise p kind s) := by
  unfold execSvnRaise
  exact .of (by simp) fun h => by simp [h]

theorem answers_execGetVersion (p : SpdmPath) (s : State) : Answers s (execGetVersion p s) := by
  unfold execGetVersion
  exact .of (by simp) fun h => by simp [h]

theorem answers_execGetCapabilities (p : SpdmPath) (s : State) : Answers s (execGetCapabilities p s) := by
  exact answers_answering (keeps_needStage (.of_eq (by simp) (by simp)))

theorem answers_execNegotiateAlgorithms (p : SpdmPath) (offersSha3 offersMldsa : Bool) (s : State) : Answers s (execNegotiateAlgorithms p offersSha3 offersMldsa s) := by
  exact answers_answering (keeps_needStage (keeps_ite (fun _ => .of_eq (by simp) (by simp)) fun _ => .of_eq (by simp) (by simp)))

theorem answers_execGetDigests (p : SpdmPath) (s : State) : Answers s (execGetDigests p s) := by
  exact answers_answering (keeps_needStage (.of_eq (by simp) (by simp)))

theorem answers_execGetCertificate (p : SpdmPath) (slot : BitVec 8) (off len : BitVec 16) (s : State) : Answers s (execGetCertificate p slot off len s) := by
  exact answers_answering (keeps_needStage (keeps_ite (fun _ => .of_eq (by simp) (by simp)) fun _ => .of_eq (by simp) (by simp)))

theorem answers_execChallenge (p : SpdmPath) (slot : BitVec 8) (nonce : BitVec 256) (s : State) : Answers s (execChallenge p slot nonce s) := by
  exact answers_answering (keeps_needStage (keeps_ite (fun _ => .of_eq (by simp) (by simp)) fun _ => .of_eq (by simp) (by simp)))

theorem answers_execGetMeasurements (p : SpdmPath) (index : BitVec 8) (sign : Bool) (nonce : BitVec 256) (s : State) : Answers s (execGetMeasurements p index sign nonce s) := by
  refine answers_answering (keeps_needStage ?_)
  split
  · exact .of_eq (by simp) (by simp)
  · exact keeps_ite (fun _ => .of_eq (by simp) (by simp)) fun _ => .of_eq (by simp) (by simp)

theorem answers_execPowerOn (s : State) : Answers s (execPowerOn s) := by
  unfold execPowerOn
  dsimp only
  (repeat' split) <;> exact .of (by simp) fun h => by simp [h]

theorem answers_execLinkedReached (pBase : BitVec 16) (devices : BitVec 32) (coresFailed : List (Die × BitVec 6)) (arrays : List (ArrayNum × Option (BitVec 6) × Bool)) (s : State) : Answers s (execLinkedReached pBase devices coresFailed arrays s) := by
  unfold execLinkedReached
  refine .ite (.next (.refl s)) (.next (keeps_orPost ⟨by simp -implicitDefEqProofs, fun h => ?_⟩ _ _ _))
  simp [h, -List.foldl_cons]

theorem answers_execReadyConditionsMet (s : State) : Answers s (execReadyConditionsMet s) := by
  unfold execReadyConditionsMet
  dsimp only
  (repeat' split) <;> exact .of (by simp) fun h => by simp [h]

theorem answers_execInputLoss (mv : BitVec 16) (s : State) : Answers s (execInputLoss mv s) := by
  unfold execInputLoss
  dsimp only
  (repeat' split) <;> exact .of (by simp) fun h => by simp [h]

theorem answers_execInputOutOfRange (mv : BitVec 16) (s : State) : Answers s (execInputOutOfRange mv s) := by
  unfold execInputOutOfRange
  refine .ite (.next (.refl s)) (.next ?_)
  have h := keeps_abortAndPost (s := s) (t := { s with power := { s.power with
      inputMv := mv, inRange := false, overvolt := s.power.overvolt || decide (60000 < mv.toNat), undervolt := s.power.undervolt || decide (mv.toNat < 40000) } })
    (.of_eq rfl rfl) (s.jobs.map (·.1)) 0x0302 (leBytes 2 mv.toNat)
  exact keeps_ite (fun _ => h.trans ⟨enterFaulted_pending _ _, fun h => wf_enterFaulted h _⟩) fun _ => h.step rfl rfl

theorem answers_execOvervoltageCut (s : State) : Answers s (execOvervoltageCut s) := by
  unfold execOvervoltageCut
  (repeat' split) <;> exact .of (by simp) fun h => by simp [h]

theorem answers_execGovernorUpdate (watts : BitVec 16) (s : State) : Answers s (execGovernorUpdate watts s) := by
  unfold execGovernorUpdate
  dsimp only
  (repeat' split) <;> exact .of (by simp) fun h => by simp [h]

theorem answers_execTemperatureReport (tj : List (BitVec 8)) (coolant : BitVec 8) (s : State) : Answers s (execTemperatureReport tj coolant s) := by
  unfold execTemperatureReport
  dsimp only
  (repeat' split) <;> exact .of (by simp) fun h => by simp [h]

theorem answers_execThermalCapStep (s : State) : Answers s (execThermalCapStep s) := by
  unfold execThermalCapStep
  dsimp only
  (repeat' split) <;> exact .of (by simp) fun h => by simp [h]

theorem answers_execThermalComparatorTrip (d : Die) (celsius : BitVec 8) (s : State) : Answers s (execThermalComparatorTrip d celsius s) := by
  unfold execThermalComparatorTrip
  (repeat' split) <;> exact .of (by simp) fun h => by simp [h]

theorem answers_execSetModeDahlia (p : Path) (s : State) : Answers s (execSetModeDahlia p s) := by
  unfold execSetModeDahlia
  exact .of (by simp) fun h => by simp [h]

theorem answers_execSetModeAster (p : Path) (s : State) : Answers s (execSetModeAster p s) := by
  unfold execSetModeAster
  exact .of (by simp) fun h => by simp [h]

theorem answers_execSetModeLavender (p : Path) (s : State) : Answers s (execSetModeLavender p s) := by
  unfold execSetModeLavender
  exact .of (by simp) fun h => by simp [h]

theorem answers_execSetModeSnowdrop (p : Path) (s : State) : Answers s (execSetModeSnowdrop p s) := by
  unfold execSetModeSnowdrop
  exact .of (by simp) fun h => by simp [h]

theorem answers_execLavenderCapWrite (p : Path) (w : BitVec 16) (s : State) : Answers s (execLavenderCapWrite p w s) := by
  unfold execLavenderCapWrite
  exact .of (by simp) fun h => by simp [h]

theorem answers_execDrainRequest (p : Path) (v : BitVec 8) (s : State) : Answers s (execDrainRequest p v s) := by
  unfold execDrainRequest
  exact .of (by simp) fun h => by simp [h]

theorem answers_execModuleReset (request : Option Path) (s : State) : Answers s (execModuleReset request s) := by
  unfold execModuleReset
  (repeat' split) <;> exact .of (by simp) fun h => by simp [h]

theorem answers_execMgmtOnlyReset (p : Path) (s : State) : Answers s (execMgmtOnlyReset p s) := by
  unfold execMgmtOnlyReset
  exact .of (by simp) fun h => by simp [h]

theorem answers_execPortReset (h : HPort) (kind : PortResetKind) (s : State) : Answers s (execPortReset h kind s) := by
  have hs := keeps_foldl (f := fun s f => resizeBar2 38 (resetFunction (abortFunctionNow s f) f) f) (fun s f => ⟨by simp, fun h => by simp [h]⟩) (portFunctions s h) s
  unfold execPortReset
  dsimp only
  split
  all_goals exact .next (hs.step (by simp) (by simp))

theorem answers_execPerstDeassert (h : HPort) (s : State) : Answers s (execPerstDeassert h s) := by
  unfold execPerstDeassert
  exact .of (by simp) fun h => by simp [h]

theorem answers_execFunctionLevelReset (f : Func) (s : State) : Answers s (execFunctionLevelReset f s) := by
  unfold execFunctionLevelReset
  (repeat' split) <;> exact .of (by simp) fun h => by simp [h]

theorem answers_execSidebandMismatchCount (pin : BitVec 5) (s : State) : Answers s (execSidebandMismatchCount pin s) := by
  unfold execSidebandMismatchCount
  dsimp only
  (repeat' split) <;> exact .of (by simp) fun h => by simp [h]

theorem answers_execGpioShortClear (p : Path) (bits : BitVec 4) (s : State) : Answers s (execGpioShortClear p bits s) := by
  unfold execGpioShortClear
  exact .of (by simp) fun h => by simp [h]

theorem answers_execTorusSupplyRestore (p : Path) (bits : BitVec 8) (s : State) : Answers s (execTorusSupplyRestore p bits s) := by
  unfold execTorusSupplyRestore
  exact .of (by simp) fun h => by simp [h]

theorem answers_execResetRelease (s : State) : Answers s (execResetRelease s) := by
  unfold execResetRelease
  (repeat' split) <;> exact .of (by simp) fun h => by simp [h]

theorem answers_execPowerStageFault (s : State) : Answers s (execPowerStageFault s) := by
  unfold execPowerStageFault
  exact .of (by simp) fun h => by simp [h]

theorem answers_execInputReversed (s : State) : Answers s (execInputReversed s) := by
  unfold execInputReversed
  exact .of (by simp) fun h => by simp [h]

theorem answers_execBar2Resize (f : Func) (log2 : BitVec 6) (s : State) : Answers s (execBar2Resize f log2 s) := by
  unfold execBar2Resize
  (repeat' split) <;> exact .of (by simp) fun h => by simp [h]

theorem answers_execServiceFirmwareStart (s : State) : Answers s (execServiceFirmwareStart s) := by
  unfold execServiceFirmwareStart
  dsimp only
  (repeat' split) <;> exact .of (by simp) fun h => by simp [h]

theorem answers_execRootMonitorReturn (s : State) : Answers s (execRootMonitorReturn s) := by
  unfold execRootMonitorReturn
  have hb : Keeps s (bootRoot s 2) := .of_eq (by simp) (by simp)
  refine .ite (.next (.refl s)) (.ite (.next hb) (.next (keeps_faultHeld (keeps_rootNew (keeps_posts ?_ _)))))
  exact hb.step (by simp) (by simp)

theorem answers_execArithPllRelock (s : State) : Answers s (execArithPllRelock s) := by
  unfold execArithPllRelock
  (repeat' split) <;> exact .of (by simp) fun h => by simp [h]

end Sys2Proof.Machine
end

section
/-! O2 and O4, from the lemma of each command. -/

namespace Sys2Proof.Machine

/-- Every command answers a next state, and keeps the state so: by its own lemma. -/
theorem answers_exec : ∀ (i : Instr) (s : State), Answers s (exec i s)
  | .beatBoundary, s => answers_execBeatBoundary s
  | .epochBoundary, s => answers_execEpochBoundary s
  | .timeSyncPulse _ _ _, s => answers_execTimeSyncPulse _ _ _ s
  | .syncPulseMissing, s => answers_execSyncPulseMissing s
  | .refPllLock, s => answers_execRefPllLock s
  | .timeRefLoss, s => answers_execTimeRefLoss s
  | .timeRefReturn, s => answers_execTimeRefReturn s
  | .holdoverExpiry, s => answers_execHoldoverExpiry s
  | .timeFaultRecovery, s => answers_execTimeFaultRecovery s
  | .deadlineCheck, s => answers_execDeadlineCheck s
  | .stretchLatch, s => answers_execStretchLatch s
  | .tickSnapshot _, s => answers_execTickSnapshot _ s
  | .slotSend _, s => answers_execSlotSend _ s
  | .slotReceived _ _, s => answers_execSlotReceived _ _ s
  | .retryTimeout _, s => answers_execRetryTimeout _ s
  | .chainSegmentReceived _ _, s => answers_execChainSegmentReceived _ _ s
  | .transferSegmentReceived _ _, s => answers_execTransferSegmentReceived _ _ s
  | .creditGrantReceived _ _, s => answers_execCreditGrantReceived _ _ s
  | .verdictMessageReceived _ _, s => answers_execVerdictMessageReceived _ _ s
  | .ident _ _, s => answers_execIdent _ _ s
  | .ping _ _, s => answers_execPing _ _ s
  | .pong _ _, s => answers_execPong _ _ s
  | .offset _ _, s => answers_execOffset _ _ s
  | .laneMove _ _, s => answers_execLaneMove _ _ s
  | .laneAck _ _, s => answers_execLaneAck _ _ s
  | .recheck _ _, s => answers_execRecheck _ _ s
  | .stretchRecord _ _, s => answers_execStretchRecord _ _ s
  | .signalDetect _, s => answers_execSignalDetect _ s
  | .equaliseConverged _ _ _ _, s => answers_execEqualiseConverged _ _ _ _ s
  | .equaliseTimeout _, s => answers_execEqualiseTimeout _ s
  | .mapDone _ _ _ _ _, s => answers_execMapDone _ _ _ _ _ s
  | .lockAchieved _, s => answers_execLockAchieved _ s
  | .lockTimeout _, s => answers_execLockTimeout _ s
  | .failedRetryTimer _, s => answers_execFailedRetryTimer _ s
  | .heldIdentTimer _, s => answers_execHeldIdentTimer _ s
  | .retrainDone _, s => answers_execRetrainDone _ s
  | .retrainTimeout _, s => answers_execRetrainTimeout _ s
  | .linkLoss _, s => answers_execLinkLoss _ s
  | .laneSignalLoss _ _, s => answers_execLaneSignalLoss _ _ s
  | .laneErrorWindow _ _ _, s => answers_execLaneErrorWindow _ _ _ s
  | .laneSwitch _ _, s => answers_execLaneSwitch _ _ s
  | .recalTimer _, s => answers_execRecalTimer _ s
  | .recalReadaptDone _, s => answers_execRecalReadaptDone _ s
  | .portDetectIdle _, s => answers_execPortDetectIdle _ s
  | .torusSupplyOvercurrent _ _, s => answers_execTorusSupplyOvercurrent _ _ s
  | .modPrsChange _ _, s => answers_execModPrsChange _ _ s
  | .nop _ _, s => answers_execNop _ _ s
  | .wait _ _, s => answers_execWait _ _ s
  | .waitSatisfied _, s => answers_execWaitSatisfied _ s
  | .prefetchReplayDone _, s => answers_execPrefetchReplayDone _ s
  | .signal _ _, s => answers_execSignal _ _ s
  | .fence _ _, s => answers_execFence _ _ s
  | .beatAlign _ _, s => answers_execBeatAlign _ _ s
  | .unassignedOpcode _ _, s => answers_execUnassignedOpcode _ _ s
  | .mmul _ _ _, s => answers_execMmul _ _ _ s
  | .mmulT _ _ _, s => answers_execMmulT _ _ _ s
  | .loadStat _ _ _, s => answers_execLoadStat _ _ _ s
  | .preloadAcc _ _, s => answers_execPreloadAcc _ _ s
  | .drain _ _, s => answers_execDrain _ _ s
  | .vecChain _ _, s => answers_execVecChain _ _ s
  | .vecReduce _ _, s => answers_execVecReduce _ _ s
  | .softmax _ _, s => answers_execSoftmax _ _ s
  | .norm _ _, s => answers_execNorm _ _ s
  | .dropout _ _, s => answers_execDropout _ _ s
  | .quantise _ _, s => answers_execQuantise _ _ s
  | .dequantise _ _, s => answers_execDequantise _ _ s
  | .maskScore _ _, s => answers_execMaskScore _ _ s
  | .prune _ _, s => answers_execPrune _ _ s
  | .regrow _ _, s => answers_execRegrow _ _ s
  | .maskCommit _ _, s => answers_execMaskCommit _ _ s
  | .maskRefsReleased _, s => answers_execMaskRefsReleased _ s
  | .predict _ _, s => answers_execPredict _ _ s
  | .maskGather _ _, s => answers_execMaskGather _ _ s
  | .copy _ _, s => answers_execCopy _ _ s
  | .fill _ _, s => answers_execFill _ _ s
  | .compare _ _, s => answers_execCompare _ _ s
  | .transposeCopy _ _, s => answers_execTransposeCopy _ _ s
  | .gather _ _, s => answers_execGather _ _ s
  | .scatter _ _, s => answers_execScatter _ _ s
  | .redBucket _ _, s => answers_execRedBucket _ _ s
  | .chainStart _, s => answers_execChainStart _ s
  | .redFlush _ _, s => answers_execRedFlush _ _ s
  | .reshard _ _, s => answers_execReshard _ _ s
  | .reshardInstall _, s => answers_execReshardInstall _ s
  | .optUpdate _ _, s => answers_execOptUpdate _ _ s
  | .lossScaleCheck _ _, s => answers_execLossScaleCheck _ _ s
  | .verdictRoundStart _, s => answers_execVerdictRoundStart _ s
  | .semCreate _ _, s => answers_execSemCreate _ _ s
  | .semDestroy _ _, s => answers_execSemDestroy _ _ s
  | .commandComplete _ _, s => answers_execCommandComplete _ _ s
  | .deadlockTimeout _, s => answers_execDeadlockTimeout _ s
  | .doorbellWrite _ _ _ _, s => answers_execDoorbellWrite _ _ _ _ s
  | .semWindowSet _ _ _ _, s => answers_execSemWindowSet _ _ _ _ s
  | .semWindowAdd _ _ _ _, s => answers_execSemWindowAdd _ _ _ _ s
  | .bar2Read _ _ _, s => answers_execBar2Read _ _ _ s
  | .bar2Write _ _ _, s => answers_execBar2Write _ _ _ s
  | .levelWrite _ _, s => answers_execLevelWrite _ _ s
  | .msixVectorUnmask _ _, s => answers_execMsixVectorUnmask _ _ s
  | .hostPageResponse _ _ _ _, s => answers_execHostPageResponse _ _ _ _ s
  | .hostPageTimeout _ _, s => answers_execHostPageTimeout _ _ s
  | .atsInvalidationRequest _ _ _, s => answers_execAtsInvalidationRequest _ _ _ s
  | .invalidationComplete, s => answers_execInvalidationComplete s
  | .pageMove _ _, s => answers_execPageMove _ _ s
  | .scrubPatrol _, s => answers_execScrubPatrol _ s
  | .ceSummaryMinute, s => answers_execCeSummaryMinute s
  | .shadowSampleDone _, s => answers_execShadowSampleDone _ s
  | .repairRequest _ _, s => answers_execRepairRequest _ _ s
  | .rowTestTimer _ _, s => answers_execRowTestTimer _ _ s
  | .repairQuietPoint _ _, s => answers_execRepairQuietPoint _ _ s
  | .queueCreate _ _, s => answers_execQueueCreate _ _ s
  | .queueResume _ _, s => answers_execQueueResume _ _ s
  | .queueFlush _ _, s => answers_execQueueFlush _ _ s
  | .queueDestroy _ _, s => answers_execQueueDestroy _ _ s
  | .queueDestroyDrained _, s => answers_execQueueDestroyDrained _ s
  | .descCreate _ _, s => answers_execDescCreate _ _ s
  | .descDestroy _ _, s => answers_execDescDestroy _ _ s
  | .eventRingSetup _ _ _, s => answers_execEventRingSetup _ _ _ s
  | .jobAbort _ _, s => answers_execJobAbort _ _ s
  | .functionAbort _ _, s => answers_execFunctionAbort _ _ s
  | .abortAbandonDeadline _ _, s => answers_execAbortAbandonDeadline _ _ s
  | .abortComplete _ _ _, s => answers_execAbortComplete _ _ _ s
  | .loadRequest _ _, s => answers_execLoadRequest _ _ s
  | .redJobDrained _, s => answers_execRedJobDrained _ s
  | .redJobHoldExpiry _, s => answers_execRedJobHoldExpiry _ s
  | .assignSet _ _ _ _ _, s => answers_execAssignSet _ _ _ _ _ s
  | .assignShare _ _ _ _ _, s => answers_execAssignShare _ _ _ _ _ s
  | .assignRemove _ _ _ _ _, s => answers_execAssignRemove _ _ _ _ _ s
  | .invalRequest _ _, s => answers_execInvalRequest _ _ s
  | .recipeWrite _ _, s => answers_execRecipeWrite _ _ s
  | .crimalScaleWrite _ _, s => answers_execCrimalScaleWrite _ _ s
  | .coordWrite _ _, s => answers_execCoordWrite _ _ s
  | .axisSizeWrite _ _, s => answers_execAxisSizeWrite _ _ s
  | .portEnableWrite _ _, s => answers_execPortEnableWrite _ _ s
  | .coreReplace _ _, s => answers_execCoreReplace _ _ s
  | .coreSelfTestDone _ _ _, s => answers_execCoreSelfTestDone _ _ _ s
  | .coreQuietPoint _, s => answers_execCoreQuietPoint _ s
  | .coreCopyDone _, s => answers_execCoreCopyDone _ s
  | .memRepair _ _, s => answers_execMemRepair _ _ s
  | .memRepairDone _, s => answers_execMemRepairDone _ s
  | .dictRead _ _ _ _ _, s => answers_execDictRead _ _ _ _ _ s
  | .dictWrite _ _ _ _ _, s => answers_execDictWrite _ _ _ _ _ s
  | .dictInfo _ _ _, s => answers_execDictInfo _ _ _ s
  | .registerWrite _, s => answers_execRegisterWrite _ s
  | .counterRead _ _, s => answers_execCounterRead _ _ s
  | .faultAck _ _, s => answers_execFaultAck _ _ s
  | .gpioClaim _ _ _ _, s => answers_execGpioClaim _ _ _ _ s
  | .restoreDefaults _ _, s => answers_execRestoreDefaults _ _ s
  | .traceEn _ _, s => answers_execTraceEn _ _ s
  | .traceTrigger _ _, s => answers_execTraceTrigger _ _ s
  | .traceGpioEdge _, s => answers_execTraceGpioEdge _ s
  | .tracePostExpiry, s => answers_execTracePostExpiry s
  | .fwChunk _ _, s => answers_execFwChunk _ _ s
  | .fwChunkProgrammed, s => answers_execFwChunkProgrammed s
  | .fwCommit _, s => answers_execFwCommit _ s
  | .fwActivate _, s => answers_execFwActivate _ s
  | .handoverReady, s => answers_execHandoverReady s
  | .handoverTimeout, s => answers_execHandoverTimeout s
  | .svnRaise _ _, s => answers_execSvnRaise _ _ s
  | .getVersion _, s => answers_execGetVersion _ s
  | .getCapabilities _, s => answers_execGetCapabilities _ s
  | .negotiateAlgorithms _ _ _, s => answers_execNegotiateAlgorithms _ _ _ s
  | .getDigests _, s => answers_execGetDigests _ s
  | .getCertificate _ _ _ _, s => answers_execGetCertificate _ _ _ _ s
  | .challenge _ _ _, s => answers_execChallenge _ _ _ s
  | .getMeasurements _ _ _ _, s => answers_execGetMeasurements _ _ _ _ s
  | .powerOn, s => answers_execPowerOn s
  | .linkedReached _ _ _ _, s => answers_execLinkedReached _ _ _ _ s
  | .readyConditionsMet, s => answers_execReadyConditionsMet s
  | .inputLoss _, s => answers_execInputLoss _ s
  | .inputOutOfRange _, s => answers_execInputOutOfRange _ s
  | .overvoltageCut, s => answers_execOvervoltageCut s
  | .governorUpdate _, s => answers_execGovernorUpdate _ s
  | .temperatureReport _ _, s => answers_execTemperatureReport _ _ s
  | .thermalCapStep, s => answers_execThermalCapStep s
  | .thermalComparatorTrip _ _, s => answers_execThermalComparatorTrip _ _ s
  | .setModeDahlia _, s => answers_execSetModeDahlia _ s
  | .setModeAster _, s => answers_execSetModeAster _ s
  | .setModeLavender _, s => answers_execSetModeLavender _ s
  | .setModeSnowdrop _, s => answers_execSetModeSnowdrop _ s
  | .lavenderCapWrite _ _, s => answers_execLavenderCapWrite _ _ s
  | .drainRequest _ _, s => answers_execDrainRequest _ _ s
  | .moduleReset _, s => answers_execModuleReset _ s
  | .mgmtOnlyReset _, s => answers_execMgmtOnlyReset _ s
  | .portReset _ _, s => answers_execPortReset _ _ s
  | .perstDeassert _, s => answers_execPerstDeassert _ s
  | .functionLevelReset _, s => answers_execFunctionLevelReset _ s
  | .sidebandMismatchCount _, s => answers_execSidebandMismatchCount _ s
  | .gpioShortClear _ _, s => answers_execGpioShortClear _ _ s
  | .torusSupplyRestore _ _, s => answers_execTorusSupplyRestore _ _ s
  | .resetRelease, s => answers_execResetRelease s
  | .powerStageFault, s => answers_execPowerStageFault s
  | .inputReversed, s => answers_execInputReversed s
  | .bar2Resize _ _, s => answers_execBar2Resize _ _ s
  | .serviceFirmwareStart, s => answers_execServiceFirmwareStart s
  | .rootMonitorReturn, s => answers_execRootMonitorReturn s
  | .arithPllRelock, s => answers_execArithPllRelock s

theorem keeps_idle (s : State) : Keeps s (idle s) := keeps_ite (fun _ => .of_eq rfl rfl) fun _ => .refl s

/-- Settles O2: every command answers a next state that keeps the queue of waiting commands. -/
theorem everyCommandAnswers : Obligations.EveryCommandAnswers := by
  unfold Obligations.EveryCommandAnswers
  refine ⟨fun c s => ?_, fun c s t h => ?_⟩
  · obtain ⟨t, ht, -⟩ := answers_exec c s
    exact ⟨t, ht⟩
  · obtain ⟨u, hu, hk⟩ := answers_exec c s
    obtain rfl := Host.Outcome.next.inj (hu.symm.trans h)
    exact hk.1

/-- Settles O4: a step is a command's run or the idle tick, and each keeps memory's form. -/
theorem memoryFormKept : Obligations.MemoryFormKept := by
  unfold Obligations.MemoryFormKept
  intro s t hs h
  unfold step at h
  split at h
  · obtain rfl := Host.Outcome.next.inj h
    exact (keeps_idle s).2 hs
  · next c r _ =>
    obtain ⟨u, hu, hk⟩ := answers_exec c { s with pending := r }
    obtain rfl := Host.Outcome.next.inj (hu.symm.trans h)
    exact hk.2 hs

end Sys2Proof.Machine
end

section
/-! Bytes, the memory they are stored in, and the first statements: O18, O5, O1 and O3. -/

namespace Sys2Proof.Machine

/-! ### Bytes -/

@[simp] theorem length_leBytes (n v : Nat) : (leBytes n v).length = n := by
  induction n generalizing v with
  | zero => rfl
  | succ n ih => simp [leBytes, ih]

theorem leNat_append (a b : List Byte) : leNat (a ++ b) = leNat a + 256 ^ a.length * leNat b := by
  induction a with
  | nil => simp [leNat]
  | cons x a ih => simp only [List.cons_append, leNat, ih, List.length_cons, pow_succ]; ring

/-- The bytes of a number spell the number, cut to their count. -/
theorem leNat_leBytes (n v : Nat) : leNat (leBytes n v) = v % 256 ^ n := by
  induction n generalizing v with
  | zero => simp [leBytes, leNat, Nat.mod_one]
  | succ n ih =>
    simp only [leBytes, leNat, ih, BitVec.toNat_ofNat]
    rw [pow_succ' 256 n, Nat.mod_mul]

theorem leNat_lt (l : List Byte) : leNat l < 256 ^ l.length := by
  induction l with
  | nil => simp [leNat]
  | cons b l ih => simp only [leNat, List.length_cons, pow_succ]; have := b.isLt; omega

/-- The bytes of a list's number are the list. -/
theorem leBytes_leNat (l : List Byte) : leBytes l.length (leNat l) = l := by
  induction l with
  | nil => rfl
  | cons b l ih =>
    have h1 : (b.toNat + 256 * leNat l) / 256 = leNat l := by have := b.isLt; omega
    simp only [leNat, List.length_cons, leBytes, h1, ih, List.cons.injEq, and_true]
    apply BitVec.eq_of_toNat_eq
    have := b.isLt
    simp only [BitVec.toNat_ofNat]
    omega

theorem byteField_append_left {a b : List Byte} {o n : Nat} (h : o + n ≤ a.length) : byteField (a ++ b) o n = byteField a o n := by
  unfold byteField
  rw [List.drop_append_of_le_length (by omega), List.take_append_of_le_length (by rw [List.length_drop]; omega)]
theorem byteField_append_right {a b : List Byte} {o n : Nat} (h : a.length ≤ o) : byteField (a ++ b) o n = byteField b (o - a.length) n := by
  unfold byteField
  rw [List.drop_append, List.drop_eq_nil_of_le h, List.nil_append]
/-- A field of a number's bytes is the number's part there. -/
theorem byteField_leBytes {m o n : Nat} (v : Nat) (h : o + n ≤ m) : byteField (leBytes m v) o n = v / 256 ^ o % 256 ^ n := by
  unfold byteField
  induction o generalizing m v with
  | zero =>
    have : (leBytes m v).take n = leBytes n v := by
      induction n generalizing m v with
      | zero => rfl
      | succ n ih =>
        obtain ⟨m, rfl⟩ : ∃ k, m = k + 1 := ⟨m - 1, by omega⟩
        simp only [leBytes, List.take_succ_cons, ih _ (show 0 + n ≤ m by omega)]
    rw [List.drop_zero, this, leNat_leBytes]
    simp
  | succ o ih =>
    obtain ⟨m, rfl⟩ : ∃ k, m = k + 1 := ⟨m - 1, by omega⟩
    simp only [leBytes, List.drop_succ_cons]
    rw [ih _ (by omega), Nat.div_div_eq_div_mul, pow_succ']

/-- Settles O18: the record is four numbers' bytes in a row, of 2, 2, 4 and 8 bytes. -/
theorem completionRecordLayout : Obligations.CompletionRecordLayout := by
  unfold Obligations.CompletionRecordLayout
  intro w
  have hst := w.status.isLt
  have hop := w.opspec.isLt
  have hde := w.detail.isLt
  have hre := w.reason.isLt
  have hdk := w.dkind.isLt
  have hsq : cmdField w.cmd 2 2 < 65536 := Nat.mod_lt _ (by norm_num)
  unfold recordBytes
  refine ⟨by simp, ?_, ?_, ?_, ?_, ?_⟩
  · rw [byteField_append_left (by simp), byteField_append_left (by simp), byteField_append_left (by simp), byteField_leBytes _ (by omega)]
    omega
  · rw [byteField_append_left (by simp), byteField_append_left (by simp), byteField_append_right (by simp), byteField_leBytes _ (by simp)]
    simp only [length_leBytes]
    omega
  · rw [byteField_append_left (by simp), byteField_append_right (by simp), byteField_leBytes _ (by simp)]
    simp only [List.length_append, length_leBytes]
    omega
  all_goals
    rw [byteField_append_right (by simp), byteField_leBytes _ (by simp)]
    simp only [List.length_append, length_leBytes]
    split <;> omega

/-! ### Memory -/

/-- Bytes within one page are one piece. -/
theorem piecesOf_page {va n : Nat} (h0 : n ≠ 0) (h : va % 65536 + n ≤ 65536) : piecesOf va n = [(va, n)] := by
  have hm : min n (65536 - va % 65536) = n := by omega
  unfold piecesOf
  generalize n / 65536 + 1 = k
  simp only [pieces, h0, if_false, hm, Nat.sub_self, List.cons.injEq, true_and]
  cases k <;> simp

theorem vWrite_page {s : State} {f job va : Nat} {bs : List Byte} {tier : Option Nat} (h0 : bs ≠ []) (h : va % 65536 + bs.length ≤ 65536) :
    vWrite s f job va bs tier = writePiece s f job va bs tier := by
  unfold vWrite
  rw [piecesOf_page (by simpa using h0) h]
  simp only [writePieces, List.take_length]
  cases writePiece s f job va bs tier <;> rfl

/-- The granules that a write replaces whole. -/
theorem mem_wholeGranules {a n g : Nat} : g ∈ wholeGranules a n ↔ a ≤ 32 * g ∧ 32 * g + 32 ≤ a + n := by
  simp only [wholeGranules, rangeFrom, List.mem_map, List.mem_range]
  constructor
  · rintro ⟨i, hi, rfl⟩
    omega
  · rintro ⟨h1, h2⟩
    exact ⟨g - (a + 31) / 32, by omega, by omega⟩

theorem mem_physWrite_poison {s : State} {a g : Nat} {bs : List Byte} :
    g ∈ (physWrite s a bs).poison ↔ g ∈ s.poison ∧ ¬(a ≤ 32 * g ∧ 32 * g + 32 ≤ a + bs.length) := by
  simp only [physWrite, List.mem_filter, Bool.not_eq_true', List.contains_eq_mem, decide_eq_false_iff_not, mem_wholeGranules]

/-- Settles O5, from the laws of memory and the one piece that a write within a page is. -/
theorem physicalWriteThenRead : Obligations.PhysicalWriteThenRead := by
  unfold Obligations.PhysicalWriteThenRead
  refine ⟨fun s a bs x h => memGet_memPut a x bs h, fun s t f job va bs tier x h h0 hp hw => ?_, fun _ _ _ _ => mem_physWrite_poison⟩
  rw [vWrite_page h0 hp] at hw
  unfold writePiece at hw
  refine ⟨fun a leaf hx => ?_, fun p a hx => ?_⟩
  · rw [hx] at hw
    dsimp only at hw
    split at hw
    · cases hw
    · obtain rfl := Acc.ok.inj hw
      rw [touchPage_mem]
      exact (memGet_memPut a x bs (by simpa using h)).trans (by rw [cacheXl_mem])
  · rw [hx] at hw
    obtain rfl := Acc.ok.inj hw
    simp

/-! ### The step and the reset state -/

/-- Settles O1: the step's two branches. -/
theorem stepRunsTheFrontCommand : Obligations.StepRunsTheFrontCommand := by
  unfold Obligations.StepRunsTheFrontCommand
  refine ⟨fun c r s => rfl, fun s h => ?_⟩
  simp only [step, h, idle, Bool.and_eq_true, decide_eq_true_eq]

/-- Settles O3: the reset state's tables are empty. -/
theorem resetState : Obligations.ResetState := by
  unfold Obligations.ResetState
  exact ⟨⟨rfl, rfl, rfl, rfl, rfl, rfl, rfl, rfl, fun _ => rfl, fun _ => rfl, fun _ => rfl, fun _ => rfl, fun _ => ⟨rfl, rfl⟩⟩, rfl⟩

end Sys2Proof.Machine
end

section
/-! What the posting of an event and a fabric fault leave alone. -/

namespace Sys2Proof.Machine

/-! ### What the posting of an event leaves alone -/

/-- A view of the state that the posting of an event does not change: it stores into memory and host memory, counts, and touches its function. -/
structure EventFree {β : Type} (F : State → β) : Prop where
  func : ∀ s f x, F (State.setFunc s f x) = F s
  count : ∀ s f, F (bump s 0x0B f 3 1) = F s
  phys : ∀ s a bs, F (physWrite s a bs) = F s
  host : ∀ s p a bs, F (hostWrite s p a bs) = F s
  touch : ∀ s a n l, F (touchPage s a n l) = F s
  cache : ∀ s f j v, F (cacheXl s f j v) = F s

namespace EventFree
variable {β : Type} {F : State → β} (h : EventFree F)
include h

theorem vWrite {s t : State} {f job va : Nat} {bs : List Byte} {tier : Option Nat} (hw : vWrite s f job va bs tier = .ok t) : F t = F s :=
  vWrite_ok_keeps (fun u => F u = F s) (fun _ _ _ e => (h.phys ..).trans e) (fun _ _ _ _ e => (h.host ..).trans e) (fun _ _ _ _ e => (h.touch ..).trans e)
    (fun _ _ _ _ e => (h.cache ..).trans e) hw rfl
theorem raiseMsix (s : State) (f v : Nat) : F (raiseMsix s f v) = F s := by
  unfold Machine.raiseMsix
  dsimp only
  (repeat' split)
  · rfl
  · exact h.func ..
  · exact h.func ..
theorem postEvent (s : State) (f code job : Nat) (d : List Byte) : F (postEvent s f code job d) = F s := by
  unfold Machine.postEvent
  dsimp only
  split
  · exact h.count ..
  · have h1 : ∀ (c : Prop) [Decidable c] x, F (State.setFunc (if c then bump s 0x0B f 3 1 else s) f x) = F s := fun c _ x => by
      rw [h.func]
      split
      · exact h.count ..
      · rfl
    split
    · next hw => rw [h.raiseMsix, h.vWrite hw, h1]
    · rw [h.func, requestPage, h.func, h1]
    · rw [h.count, h1]
theorem postAllEvents (s : State) {α : Type} (l : List α) (f code job : α → Nat) (d : α → List Byte) :
    F (l.foldl (fun s e => Machine.postEvent s (f e) (code e) (job e) (d e)) s) = F s :=
  foldl_keeps F _ (fun _ _ => h.postEvent ..) l s
theorem postTo (hn : ∀ s c, F (noteFault s c) = F s) (s : State) (l : List Nat) (code : Nat) (d : List Byte) : F (postTo s l code d) = F s :=
  (h.postAllEvents (noteFault s code) l id (fun _ => code) (fun _ => 0) fun _ => d).trans (hn s code)
end EventFree

theorem eventFree_dict {β : Type} (G : Dict → β) (hc : ∀ d x, G { d with ctr := x } = G d) : EventFree fun s => G s.dict where
  func _ _ _ := rfl
  count s f := hc s.dict _
  phys _ _ _ := rfl
  host s p a bs := by rw [hostWrite_dict]
  touch s a n l := by rw [touchPage_dict]
  cache s f j v := by rw [cacheXl_dict]

theorem eventFree_faults : EventFree fun s => s.dict.faults := eventFree_dict Dict.faults fun _ _ => rfl

/-- Counters of the classes below that of the functions. -/
theorem eventFree_counter {cls inst code : Nat} (hc : cls < 0x0B) (hi : inst < 2 ^ 32) (hd : code < 2 ^ 16) : EventFree fun s => s.counter cls inst code where
  func _ _ _ := rfl
  count s f := counter_bump_ne s (by unfold ctrKey; omega)
  phys _ _ _ := rfl
  host s p a bs := by simp only [State.counter, hostWrite_dict]
  touch s a n l := by simp only [State.counter, touchPage_dict]
  cache s f j v := by simp only [State.counter, cacheXl_dict]

theorem bbWrite_faults (s : State) (a b c : Nat) (d : List Byte) (n : Nat) (x : Bool) : (bbWrite s a b c d n x).dict.faults = s.dict.faults := by
  unfold bbWrite bbAppend
  dsimp only
  (repeat' split) <;> rfl
theorem bbWrite_ctr (s : State) (a b c : Nat) (d : List Byte) (n : Nat) (x : Bool) : (bbWrite s a b c d n x).dict.ctr = s.dict.ctr := by
  unfold bbWrite bbAppend
  dsimp only
  (repeat' split) <;> rfl
theorem noteFault_ctr (s : State) (c : Nat) : (noteFault s c).dict.ctr = s.dict.ctr := by
  unfold noteFault
  split <;> rfl

/-- A fabric fault whose code is one is noted. -/
theorem fabricFault_faults {s : State} {code : Nat} (d : List Byte) (h : faultCodes.contains code = true) :
    (fabricFault s code d).dict.faults = s.dict.faults ++ [BitVec.ofNat 16 code] := by
  have e := eventFree_faults.postAllEvents (bbWrite (noteFault s code) (0x1000 + code) 0 0 d) (bbWrite (noteFault s code) (0x1000 + code) 0 0 d).jobs
    (fun j => j.2.func.toNat) (fun _ => code) (·.1) (fun _ => d)
  rw [bbWrite_faults] at e
  refine e.trans ?_
  rw [noteFault, if_pos h]
/-- A fabric fault counts only with the functions. -/
theorem fabricFault_counter {cls inst code : Nat} (hc : cls < 0x0B) (hi : inst < 2 ^ 32) (hd : code < 2 ^ 16) (s : State) (c : Nat) (d : List Byte) :
    (fabricFault s c d).counter cls inst code = s.counter cls inst code := by
  have e := (eventFree_counter hc hi hd).postAllEvents (bbWrite (noteFault s c) (0x1000 + c) 0 0 d) (bbWrite (noteFault s c) (0x1000 + c) 0 0 d).jobs
    (fun j => j.2.func.toNat) (fun _ => c) (·.1) (fun _ => d)
  refine e.trans ?_
  rw [State.counter, bbWrite_ctr, noteFault_ctr, State.counter]

end Sys2Proof.Machine
end

section
/-! The boundaries of time (O6): how a beat is entered, a stretch beat counted, and an epoch opened. -/

namespace Sys2Proof.Machine

/-! ### The boundary of a beat -/

section
variable (s : State)
theorem lateSenders_time : (lateSenders s).time = s.time := lateSenders_keeps State.time (fun _ _ _ => rfl) (fun _ _ _ => rfl) (fun _ _ => bump_time ..) s
theorem lateSenders_power : (lateSenders s).power = s.power := lateSenders_keeps State.power (fun _ _ _ => rfl) (fun _ _ _ => rfl) (fun _ _ => bump_power ..) s
theorem lateSenders_queues : (lateSenders s).queues = s.queues := lateSenders_keeps State.queues (fun _ _ _ => rfl) (fun _ _ _ => rfl) (fun _ _ => bump_queues ..) s
theorem lateSenders_sems : (lateSenders s).sems = s.sems := lateSenders_keeps State.sems (fun _ _ _ => rfl) (fun _ _ _ => rfl) (fun _ _ => bump_sems ..) s
theorem lateSenders_jobs : (lateSenders s).jobs = s.jobs := lateSenders_keeps State.jobs (fun _ _ _ => rfl) (fun _ _ _ => rfl) (fun _ _ => bump_jobs ..) s
theorem lateSenders_arrays : (lateSenders s).arrays = s.arrays := lateSenders_keeps State.arrays (fun _ _ _ => rfl) (fun _ _ _ => rfl) (fun _ _ => bump_arrays ..) s
theorem bump_faults (a b c n : Nat) : (bump s a b c n).dict.faults = s.dict.faults := by
  unfold bump
  split <;> rfl
theorem lateSenders_faults : (lateSenders s).dict.faults = s.dict.faults :=
  lateSenders_keeps (fun s => s.dict.faults) (fun _ _ _ => rfl) (fun _ _ _ => rfl) (fun _ _ => bump_faults ..) s
theorem lateSenders_counter : (lateSenders s).counter 5 0 3 = s.counter 5 0 3 :=
  lateSenders_keeps (fun s => s.counter 5 0 3) (fun _ _ _ => rfl) (fun _ _ _ => rfl) (fun s p => counter_bump_ne s (by unfold ctrKey; omega)) s
end

/-- The state at the first tick of the next beat, before a stretch beat is counted (R24, R49, R534). -/
def enterBeat (s : State) (str : Bool) : State :=
  let b := s.beat + 1
  let t := s.time
  { s with
    time := { t with
      tick := beatStart s + 256
      offset := if str then t.offset + 1 else t.offset
      inStretch := str
      strRun := if str then t.strRun + 1 else 0
      strLatched := t.strLatched.filter (· != b)
      strSeen := t.strSeen.filter fun x => decide ((b - x).toNat ≤ 13) || decide ((x - b).toNat ≤ 2)
      strLate := t.strLate.filter fun x => decide ((b - x).toNat ≤ 13) || decide ((x - b).toNat ≤ 2)
      stretchTotal := if str then t.stretchTotal + 1 else t.stretchTotal
      stopIssue := t.st == .fault }
    power := { s.power with
      sPrev := s.power.s
      s := s.power.sNext
      runTicks := s.power.runTicks + (256 - s.power.s) * arithRatio s
      throttled := s.power.throttled + s.power.s * arithRatio s
      envelope := s.power.envelopeNext.getD s.power.envelope
      envelopeNext := none
      padPower := s.power.envelopeNext.getD s.power.padPower
      watts := if s.power.envelopeNext.isSome then [] else s.power.watts
      restart := if s.power.envelopeNext.isSome then 2 else s.power.restart
      governed := false } }

/-- A stretch beat is counted, and the eighth in a row is a fault (R49, R50). -/
def countStretch (str : Bool) (run : Nat) (s : State) : State :=
  if str && run == 8 then fabricFault (if str then bump s 5 0 3 1 else s) 0x0014 [] else if str then bump s 5 0 3 1 else s

theorem exec_beatBoundary {s : State} (h : s.ticking = true) :
    exec .beatBoundary s = .next (countStretch (s.time.strLatched.contains (s.beat + 1))
      (if s.time.strLatched.contains (s.beat + 1) then s.time.strRun + 1 else 0) (enterBeat (lateSenders s) (s.time.strLatched.contains (s.beat + 1)))) := by
  have hb : (lateSenders s).beat = s.beat := by rw [State.beat, lateSenders_time]; rfl
  rw [← hb, ← lateSenders_time s]
  change execBeatBoundary s = _
  rw [execBeatBoundary, if_neg (by simp [h])]
  rfl

theorem enterBeat_beat (s : State) (str : Bool) : (enterBeat s str).beat = s.beat + 1 := by
  have := s.time.tick.isLt
  apply BitVec.eq_of_toNat_eq
  have h : (enterBeat s str).time.tick = beatStart s + 256 := rfl
  rw [beat_toNat, h]
  simp only [BitVec.toNat_add, beatStart_toNat, beat_toNat, show (256 : BitVec 64).toNat = 256 from rfl, show (1 : BitVec 48).toNat = 1 from rfl]
  omega
theorem enterBeat_counter (s : State) (str : Bool) (a b c : Nat) : (enterBeat s str).counter a b c = s.counter a b c := rfl
theorem enterBeat_ratio (s : State) (str : Bool) : (enterBeat s str).power.s = s.power.sNext := rfl
theorem enterBeat_sPrev (s : State) (str : Bool) : (enterBeat s str).power.sPrev = s.power.s := rfl
theorem enterBeat_queues (s : State) (str : Bool) : (enterBeat s str).queues = s.queues := rfl
theorem enterBeat_sems (s : State) (str : Bool) : (enterBeat s str).sems = s.sems := rfl
theorem enterBeat_jobs (s : State) (str : Bool) : (enterBeat s str).jobs = s.jobs := rfl
theorem enterBeat_arrays (s : State) (str : Bool) : (enterBeat s str).arrays = s.arrays := rfl
theorem enterBeat_mem (s : State) (str : Bool) : (enterBeat s str).mem = s.mem := rfl
theorem enterBeat_faults (s : State) (str : Bool) : (enterBeat s str).dict.faults = s.dict.faults := rfl
theorem enterBeat_inStretch (s : State) (str : Bool) : (enterBeat s str).time.inStretch = str := rfl
theorem enterBeat_slot (s : State) (str : Bool) : (enterBeat s str).slot = 0 := by
  have := s.time.tick.isLt
  have h : (enterBeat s str).time.tick = beatStart s + 256 := rfl
  rw [State.slot, h]
  simp only [BitVec.toNat_add, beatStart_toNat, show (256 : BitVec 64).toNat = 256 from rfl]
  omega
theorem enterBeat_schedBeat (s : State) (str : Bool) : (enterBeat s str).schedBeat = if str then s.schedBeat else s.schedBeat + 1 := by
  have h : (enterBeat s str).time.offset = if str then s.time.offset + 1 else s.time.offset := rfl
  rw [State.schedBeat, enterBeat_beat, h, State.schedBeat]
  cases str
  · simp only [Bool.false_eq_true, if_false]
    bv_omega
  · simp only [if_true]
    bv_omega

section
variable (str : Bool) (run : Nat) (s : State)
theorem countStretch_time : (countStretch str run s).time = s.time := by unfold countStretch; (repeat' split) <;> simp
theorem countStretch_power : (countStretch str run s).power = s.power := by unfold countStretch; (repeat' split) <;> simp
theorem countStretch_queues : (countStretch str run s).queues = s.queues := by unfold countStretch; (repeat' split) <;> simp
theorem countStretch_sems : (countStretch str run s).sems = s.sems := by unfold countStretch; (repeat' split) <;> simp
theorem countStretch_jobs : (countStretch str run s).jobs = s.jobs := by unfold countStretch; (repeat' split) <;> simp
theorem countStretch_arrays : (countStretch str run s).arrays = s.arrays := by unfold countStretch; (repeat' split) <;> simp
theorem countStretch_counter : (countStretch str run s).counter 5 0 3 = if str then (s.counter 5 0 3 + 1) % 2 ^ 64 else s.counter 5 0 3 := by
  have h : (if str then bump s 5 0 3 1 else s).counter 5 0 3 = if str then (s.counter 5 0 3 + 1) % 2 ^ 64 else s.counter 5 0 3 := by
    cases str
    · rfl
    · exact counter_bump_same s 5 0 3 1 one_ne_zero
  unfold countStretch
  split
  · exact (fabricFault_counter (by omega) (by omega) (by omega) _ _ _).trans h
  · exact h
theorem countStretch_faults (h : str = true) (h8 : run = 8) : 0x0014 ∈ (countStretch str run s).dict.faults := by
  rw [countStretch, if_pos (by simp [h, h8]), fabricFault_faults _ (by decide)]
  simp
theorem countStretch_quiet (h : ¬(str = true ∧ run = 8)) : (countStretch str run s).mem = s.mem ∧ (countStretch str run s).dict.faults = s.dict.faults := by
  rw [countStretch, if_neg (by simpa using h)]
  split
  · exact ⟨bump_mem .., bump_faults ..⟩
  · exact ⟨rfl, rfl⟩
end

/-! ### The boundary of an epoch -/

theorem foldl_setPorts {α : Type} {f : State → α → State} (h : ∀ s a, f s a = { s with ports := (f s a).ports }) (l : List α) (s : State) :
    l.foldl f s = { s with ports := (l.foldl f s).ports } := by
  induction l generalizing s with
  | nil => rfl
  | cons a l ih => rw [List.foldl_cons, ih, h s a]

/-- Every port of a list without repetition queues the message that the time makes (R35). -/
theorem mgmt_foldl_sendMgmt {s : State} {l : List Port} (hl : l.Nodup) (q : Port) (t : State) (ht : t.time = s.time) :
    ((l.foldl (fun s p => sendMgmt s p (offsetMsg s)) t).port q).mgmt = if q ∈ l then (t.port q).mgmt ++ toFlits (offsetMsg s) none else (t.port q).mgmt := by
  induction l generalizing t with
  | nil => simp
  | cons p l ih =>
    obtain ⟨hp, hl⟩ := List.nodup_cons.1 hl
    have hm : offsetMsg t = offsetMsg s := by simp only [offsetMsg, ht]
    rw [List.foldl_cons, hm, ih hl (sendMgmt t p (offsetMsg s)) ht]
    by_cases hq : q = p
    · subst hq
      simp [hp, sendMgmt]
    · simp [hq, sendMgmt, port_setPort_ne]

theorem nodup_activePorts (s : State) : (activePorts s).Nodup := (List.Nodup.filter _ (by decide))
theorem mem_activePorts {s : State} {p : Port} (h : (s.port p).st = .active) : p ∈ activePorts s := by
  have hall : ∀ p : Port, p ∈ (List.range 8).map fun n => BitVec.ofNat 3 n := by decide
  exact List.mem_filter.2 ⟨hall p, by simp [h]⟩

/-- The ports as the new epoch finds them: the messages queued, and the wait for them settled (R35). -/
def openEpoch (s : State) : State :=
  let s := (activePorts s).foldl (fun s p => sendMgmt s p (offsetMsg s)) s
  (activePorts s).foldl (fun s p => let x := s.port p; s.setPort p { x with awaitEpoch := x.awaitEpoch && !x.offsetAgreed }) s

theorem setPorts_trans {s t u : State} {x : Tab PortState} (h1 : t = { s with ports := x }) (h2 : u = { t with ports := u.ports }) : u = { s with ports := u.ports } := by
  subst h1
  exact h2

theorem openEpoch_eq (s : State) : openEpoch s = { s with ports := (openEpoch s).ports } :=
  setPorts_trans (foldl_setPorts (f := fun s p => sendMgmt s p (offsetMsg s)) (fun _ _ => rfl) (activePorts s) s) (foldl_setPorts (by exact fun _ _ => rfl) _ _)

theorem openEpoch_mgmt {s : State} {p : Port} (h : (s.port p).st = .active) : ((openEpoch s).port p).mgmt = (s.port p).mgmt ++ toFlits (offsetMsg s) none := by
  have h2 : ∀ (l : List Port) (t : State), ((l.foldl (fun s p => let x := s.port p; s.setPort p { x with awaitEpoch := x.awaitEpoch && !x.offsetAgreed }) t).port p).mgmt =
      (t.port p).mgmt := foldl_keeps (fun s => (s.port p).mgmt) _ fun s q => by
    by_cases hq : p = q
    · subst hq
      simp
    · simp [port_setPort_ne _ _ hq]
  exact (h2 _ _).trans ((mgmt_foldl_sendMgmt (nodup_activePorts s) p s rfl).trans (if_pos (mem_activePorts h)))

theorem hotOf_decayHot (s t : State) (leaf : Nat) (h : t.msys.hot = decayHot s) : hotOf t leaf = hotOf s leaf >>> s.reg 0x4040 5 := by
  simp only [hotOf, h, decayHot, tget_eq_tfind]
  rw [tfind_map (fun _ (v : BitVec 16) => v.ushiftRight (s.reg 0x4040 5))]
  cases tfind s.msys.hot leaf
  · simp
  · rfl

/-- What the new epoch draws up from the one that ended (R300, R301, R547). -/
def drawUp (s : State) : State :=
  { s with
    msys := { s.msys with moves := decideMoves s, hot := decayHot s }
    power := { s.power with
      windowPosted := false
      meanW := BitVec.ofNat 16 (s.power.epochW / 65536)
      epochW := 0
      mhz := BitVec.ofNat 16 (s.power.runTicks * 100 / epochTicks)
      runTicks := 0 } }

section
variable (s : State) (x : Tab PortState)
theorem reg_setPorts (i k : Nat) : State.reg { s with ports := x } i k = s.reg i k := rfl
theorem managedLeaves_setPorts : managedLeaves { s with ports := x } = managedLeaves s := rfl
theorem insertHot_setPorts (e : Nat × Nat) (l : List (Nat × Nat)) : insertHot { s with ports := x } e l = insertHot s e l := by
  induction l with
  | nil => rfl
  | cons a l ih =>
    simp only [insertHot, hotOf, ih]
    rfl
theorem chooseMoves_setPorts (d : Nat) (l : List (Nat × Nat)) (free : List Nat) (mine : List (Nat × Nat)) (left : Nat) :
    chooseMoves { s with ports := x } d l free mine left = chooseMoves s d l free mine left := by
  induction l generalizing free mine left with
  | nil => rfl
  | cons a l ih =>
    cases free with
    | nil =>
      simp only [chooseMoves, hotOf, ih]
      rfl
    | cons n free => simp only [chooseMoves, ih]
/-- The migrations do not depend on the ports. -/
theorem decideMoves_setPorts : decideMoves { s with ports := x } = decideMoves s := by
  simp only [decideMoves, managedLeaves_setPorts, insertHot_setPorts, chooseMoves_setPorts, reg_setPorts]
end

theorem drawUp_moves (s : State) : (drawUp s).msys.moves = decideMoves s := rfl
theorem drawUp_hot (s : State) : (drawUp s).msys.hot = decayHot s := rfl

theorem exec_epochBoundary {s : State} (ht : s.ticking = true) (hb : s.beat.toNat % 65536 = 0) :
    exec .epochBoundary s = .next (drawUp (openEpoch s)) := by
  change execEpochBoundary s = _
  rw [execEpochBoundary, if_neg (by simp [ht, hb])]
  rfl

/-- Settles O6: the beat's boundary by its two parts, the epoch's by what its ports and its sums become. -/
theorem boundariesOfTime : Obligations.BoundariesOfTime := by
  unfold Obligations.BoundariesOfTime
  refine ⟨fun s => ?counters, fun s ht => ?beat, fun s ht hb => ?epoch⟩
  case counters =>
    refine ⟨beat_toNat s, rfl, BitVec.sub_add_cancel _ _, ?_⟩
    have := s.time.tick.isLt
    rw [beat_toNat]
    omega
  case beat =>
    refine ⟨_, exec_beatBoundary ht, ?_⟩
    have htime := lateSenders_time s
    have hbeat : (lateSenders s).beat = s.beat := by rw [State.beat, htime]; rfl
    have hsched : (lateSenders s).schedBeat = s.schedBeat := by rw [State.schedBeat, hbeat, htime]; rfl
    have hmem : s.time.strLatched.contains (s.beat + 1) = true ↔ s.beat + 1 ∈ s.time.strLatched := by simp
    generalize s.time.strLatched.contains (s.beat + 1) = str at hmem
    simp only [← hmem]
    have hfold : ∀ u : State, u.time = (enterBeat (lateSenders s) str).time → u.beat = s.beat + 1 ∧ u.slot = 0 ∧
        u.schedBeat = if str then s.schedBeat else s.schedBeat + 1 := fun u hu => by
      have h1 := enterBeat_beat (lateSenders s) str
      have h2 := enterBeat_slot (lateSenders s) str
      have h3 := enterBeat_schedBeat (lateSenders s) str
      rw [hbeat] at h1
      rw [hsched] at h3
      simp only [State.beat, State.slot, State.schedBeat, hu] at h1 h2 h3 ⊢
      exact ⟨h1, h2, h3⟩
    obtain ⟨h1, h2, h3⟩ := hfold _ (countStretch_time str _ _)
    have hc := countStretch_counter str (if str then s.time.strRun + 1 else 0) (enterBeat (lateSenders s) str)
    have h0 : (enterBeat (lateSenders s) str).counter 5 0 3 = s.counter 5 0 3 := (enterBeat_counter ..).trans (lateSenders_counter s)
    rw [h0] at hc
    have hp := countStretch_power str (if str then s.time.strRun + 1 else 0) (enterBeat (lateSenders s) str)
    have hrun : (str = true ∧ s.time.strRun = 7) ↔ (str = true ∧ (if str then s.time.strRun + 1 else 0) = 8) := by cases str <;> simp
    refine ⟨h1, h2, h3, ?_, hc, ?_, ?_, ?_, ?_, ?_, ?_, fun h => ?_, fun h => ?_⟩
    · rw [countStretch_time, enterBeat_inStretch]
    · rw [hp, enterBeat_ratio, lateSenders_power]
    · rw [hp, enterBeat_sPrev, lateSenders_power]
    · rw [countStretch_queues, enterBeat_queues, lateSenders_queues]
    · rw [countStretch_sems, enterBeat_sems, lateSenders_sems]
    · rw [countStretch_jobs, enterBeat_jobs, lateSenders_jobs]
    · rw [countStretch_arrays, enterBeat_arrays, lateSenders_arrays]
    · exact countStretch_faults _ _ _ h.1 (hrun.1 h).2
    · rw [hrun] at h
      obtain ⟨hm, hf⟩ := countStretch_quiet _ _ (enterBeat (lateSenders s) str) h
      exact ⟨by rw [hm, enterBeat_mem, lateSenders_mem], by rw [hf, enterBeat_faults, lateSenders_faults]⟩
  case epoch =>
    have hx := exec_epochBoundary ht hb
    have hm := fun p (hp : (s.port p).st = .active) => openEpoch_mgmt hp
    have he := openEpoch_eq s
    generalize openEpoch s = u at hx hm he
    generalize u.ports = x at he
    subst he
    exact ⟨_, hx, hm, fun leaf => hotOf_decayHot s _ leaf ((drawUp_hot _).trans rfl), (drawUp_moves _).trans (decideMoves_setPorts s x), rfl, rfl, rfl, rfl, rfl, rfl, rfl, rfl, rfl⟩

end Sys2Proof.Machine
end

section
/-! The time unit and the pulses of TIME_SYNC (O7). -/

namespace Sys2Proof.Machine

/-! ### The time unit -/

theorem exec_refPllLock {s : State} (h : s.time.st = .unlocked) (hp : s.power.state ≠ .off) (hr : s.power.resetHeld = false) :
    exec .refPllLock s = .next (settlePorts (lockTime s)) := by
  change execRefPllLock s = _
  rw [execRefPllLock, if_pos ⟨h, hp, by simp [hr]⟩]

theorem exec_timeFaultRecovery {s : State} (h : s.time.st = .fault) (hp : s.time.refPresent = true) (hj : s.jobs = []) :
    exec .timeFaultRecovery s = .next (settlePorts (lockTime s)) := by
  change execTimeFaultRecovery s = _
  rw [execTimeFaultRecovery, if_pos (by simp [h, hp, hj])]

/-- The rise of a pulse is kept (R28). -/
def seePulse (s : State) (rise : BitVec 64) : State := { s with time := { s.time with pulseSeen := some rise } }

/-- A well-formed pulse that is not inverted (R29, R30). -/
theorem exec_timeSyncPulse {s : State} {rise : BitVec 64} {high low : Nat} (h : s.time.st ≠ .unlocked) (hi : s.time.inverted = false) (h2 : 2 ≤ high) (h16 : high ≤ 16) :
    exec (.timeSyncPulse rise high low) s = .next (goodPulse (seePulse s rise) rise) := by
  change execTimeSyncPulse rise high low s = _
  rw [execTimeSyncPulse, if_neg h]
  simp [seePulse, hi, h2, h16]

/-- The second pulse of a pair, an epoch after the first, with the epoch's number written (R31, R32). -/
theorem goodPulse_aligns {s : State} {rise : BitVec 64} (h : s.time.st = .locked) (hl : s.time.lastPulse = some (rise - 0x1000000)) (hw : s.time.epochWritten = true) :
    goodPulse s rise =
      let u := moveTime { s with time := { s.time with epochWritten := false, missingRun := 0, lastPulse := some rise } } rise s.time.nextEpoch
      { u with time := { u.time with st := .aligned, alignedOnce := true, pairEpoch := none } } := by
  simp only [goodPulse, h, hl, hw, reduceCtorEq, or_self, if_false, if_true, Option.getD_some]

/-- A missing pulse of an epoch that none was counted for yet, or after the first of a pair (R28, R53). -/
theorem exec_syncPulseMissing {s : State} (h : (s.time.st = .aligned ∨ s.time.st = .holdover) ∧ s.time.missedAt ≠ some (nearestEpoch s.time.tick) ∨
      s.time.st = .locked ∧ s.time.lastPulse.isSome = true) :
    exec .syncPulseMissing s = .next (countMissing { s with time := if s.time.st = .locked then { s.time with lastPulse := none } else
      { s.time with missedAt := some (nearestEpoch s.time.tick) } }) := by
  change execSyncPulseMissing s = _
  unfold execSyncPulseMissing
  rcases h with ⟨hst | hst, hm⟩ | ⟨hst, hl⟩
  · simp [hst, hm]
  · simp [hst, hm]
  · simp [hst, hl]

/-- Settles O7: each input by its equation. -/
theorem timeUnitAndPulses : Obligations.TimeUnitAndPulses := by
  unfold Obligations.TimeUnitAndPulses
  refine ⟨⟨fun s h hp hr => ?lock, fun s h => ?loss, fun s h => ?back, fun s h => ?expiry, fun s h hp hj => ?recovery⟩, fun s rise high low h hi h2 h16 hl hw => ?pulse,
    fun s h => ?missing⟩
  case lock =>
    refine ⟨_, exec_refPllLock h hp hr, ?_⟩
    simp only [settlePorts_time, settlePorts_mem, settlePorts_sems, lockTime, and_self]
  case loss =>
    change execTimeRefLoss s = _
    rw [execTimeRefLoss, if_pos h]
  case back =>
    refine ⟨_, (if_pos h : execTimeRefReturn s = _), ?_, counter_bump_same _ 5 0 8 1 one_ne_zero, ?_, ?_⟩ <;> simp
  case expiry =>
    refine ⟨_, (if_pos h : execHoldoverExpiry s = _), ?_, ?_, ?_⟩
    · simp
    · simp
    · rw [fabricFault_faults _ (by decide)]
      simp
  case recovery =>
    refine ⟨_, exec_timeFaultRecovery h hp hj, ?_⟩
    simp only [settlePorts_time, settlePorts_mem, settlePorts_sems, lockTime, and_self]
  case pulse =>
    refine ⟨_, exec_timeSyncPulse (by simp [h]) hi h2 h16, ?_⟩
    rw [goodPulse_aligns (s := seePulse s rise) h hl hw]
    simp only [moveTime, seePulse, and_self, and_true, true_and]
    bv_omega
  case missing =>
    refine ⟨_, exec_syncPulseMissing h, counter_bump_same _ 5 0 5 1 one_ne_zero, ?_⟩
    simp only [countMissing, bump_time, bump_mem, bump_queues]
    split
    · simp
    · next hn => simp [hn]

end Sys2Proof.Machine
end

section
/-! The scrubber and the minute's summary (O25), and the registers of a function (O22). -/

namespace Sys2Proof.Machine

/-! ### The scrubber and the minute's summary -/

@[simp] theorem noteCe_poison (s : State) (cls inst n loc : Nat) : (noteCe s cls inst n loc).poison = s.poison := by
  unfold noteCe; split <;> rfl
@[simp] theorem offerRow_poison (s : State) (a : Nat) : (offerRow s a).poison = s.poison := by
  unfold offerRow; dsimp only; (repeat' split) <;> rfl

/-- A granule that is poisoned joins the poisoned ones (R304). -/
theorem mem_poisonGranule (s : State) (k g : Nat) : g ∈ (poisonGranule s k).poison ↔ g ∈ s.poison ∨ g = k := by
  unfold poisonGranule
  split
  · next h => exact ⟨.inl, fun hg => hg.elim id fun e => e ▸ List.contains_iff_mem.mp h⟩
  · simp [or_comm]

/-- A finding of the scrubber poisons its granule where it is uncorrectable, and no other (R306, R307). -/
theorem mem_scrubOne_poison (s : State) (e : MemError) (g : Nat) :
    g ∈ (scrubOne s e).poison ↔ g ∈ s.poison ∨ (e.fixable = false ∧ inDev e.addr.toNat 1 = true ∧ g = e.addr.toNat / 32) := by
  unfold scrubOne
  dsimp only
  split
  · next h => simp [show inDev e.addr.toNat 1 = false by simpa using h]
  · next hd =>
    have hd : inDev e.addr.toNat 1 = true := by simpa using hd
    split
    · next hf => (repeat' split) <;> simp [hf]
    · next hf =>
      have hf : e.fixable = false := by simpa using hf
      split <;> simp [mem_poisonGranule, hf, hd]

theorem mem_scrub_poison (found : List MemError) (s : State) (g : Nat) :
    g ∈ (found.foldl scrubOne s).poison ↔
      g ∈ s.poison ∨ ∃ e ∈ found, e.fixable = false ∧ inDev e.addr.toNat 1 = true ∧ g = e.addr.toNat / 32 := by
  induction found generalizing s with
  | nil => simp
  | cons e r ih => simp [ih, mem_scrubOne_poison, or_assoc]

@[simp] theorem bbWrite_ce (s : State) (type src inst : Nat) (d : List Byte) (c : Nat) (b : Bool) :
    (bbWrite s type src inst d c b).dict.ce = s.dict.ce := by unfold bbWrite bbAppend; dsimp only; (repeat' split) <;> rfl

/-- One record enters the black box, where the root monitor runs (R506). -/
theorem bbWrite_head {s : State} (h : s.trust.rootUp = true) (type src inst : Nat) (d : List Byte) (c : Nat) (b : Bool) :
    (bbWrite s type src inst d c b).dict.bbHead = s.dict.bbHead + 1 := by unfold bbWrite bbAppend; dsimp only; rw [if_pos h]
/-- One record is held, where the root monitor does not run and there is room (R521). -/
theorem bbWrite_held {s : State} (h : s.trust.rootUp = false) (hl : s.dict.bbHeld.length < 256) (type src inst : Nat) (d : List Byte) (c : Nat) (b : Bool) :
    (bbWrite s type src inst d c b).dict.bbHeld.length = s.dict.bbHeld.length + 1 := by
  unfold bbWrite; dsimp only; rw [if_neg (by simp [h]), if_pos hl]; simp

/-- The record of one source of correctable events (R506). -/
def summarise (s : State) (e : Nat × Nat × BitVec 64) : State :=
  bbWrite s 0x0002 (e.1 / 2 ^ 48) (e.1 / 2 ^ 16 % 2 ^ 32) (BitVec.ofNat 8 (e.1 / 2 ^ 16 % 2 ^ 32) :: leBytes 8 e.2.2.toNat) e.2.1 true

theorem exec_ceSummaryMinute (s : State) :
    exec .ceSummaryMinute s = .next (s.dict.ce.foldl summarise { s with dict := { s.dict with ce := [] } }) := rfl

theorem summarise_head (l : List (Nat × Nat × BitVec 64)) {s : State} (h : s.trust.rootUp = true) :
    (l.foldl summarise s).dict.bbHead = s.dict.bbHead + l.length := by
  induction l generalizing s with
  | nil => rfl
  | cons e r ih =>
    rw [List.foldl_cons, ih (by simpa [summarise] using h), summarise, bbWrite_head h, List.length_cons]
    omega
theorem summarise_held (l : List (Nat × Nat × BitVec 64)) {s : State} (h : s.trust.rootUp = false) (hl : s.dict.bbHeld.length + l.length ≤ 256) :
    (l.foldl summarise s).dict.bbHeld.length = s.dict.bbHeld.length + l.length := by
  induction l generalizing s with
  | nil => rfl
  | cons e r ih =>
    rw [List.length_cons] at hl
    have he : (summarise s e).dict.bbHeld.length = s.dict.bbHeld.length + 1 := bbWrite_held h (by omega) ..
    rw [List.foldl_cons, ih (by simpa [summarise] using h) (by omega), he, List.length_cons]
    omega

/-- Settles O25: a finding poisons its granule, and the minute's summary writes one record for each source. -/
theorem scrubberPoisons : Obligations.ScrubberPoisons := by
  unfold Obligations.ScrubberPoisons
  refine ⟨fun found s h => ⟨_, congrArg Host.Outcome.next (if_neg h), mem_scrub_poison found s, ?_, ?_, ?_, ?_⟩,
    fun s => ⟨_, exec_ceSummaryMinute s, ?_, fun h => summarise_head _ h, fun h hl => summarise_held _ h hl, ?_, ?_, ?_⟩⟩
  · exact foldl_keeps State.mem scrubOne scrubOne_mem found s
  · exact foldl_keeps State.queues scrubOne scrubOne_queues found s
  · exact foldl_keeps State.sems scrubOne scrubOne_sems found s
  · exact foldl_keeps State.time scrubOne scrubOne_time found s
  · exact foldl_keeps (fun s => s.dict.ce) summarise (fun s e => bbWrite_ce ..) _ _
  · exact foldl_keeps State.mem summarise (fun s e => by simp [summarise]) _ _
  · exact foldl_keeps State.queues summarise (fun s e => by simp [summarise]) _ _
  · exact foldl_keeps State.time summarise (fun s e => by simp [summarise]) _ _

/-! ### The registers of a function -/

/-- A mask bit that is cleared reads 0. -/
theorem getLsbD_clear (m : BitVec 2048) (v : Nat) : (m &&& ~~~ BitVec.ofNat 2048 (2 ^ v)).getLsbD v = false := by
  simp only [BitVec.getLsbD_and, BitVec.getLsbD_not, BitVec.getLsbD_ofNat, Nat.testBit_two_pow_self]
  by_cases h : v < 2048 <;> simp [h]

theorem raiseMsix_func_ne (s : State) (f v : Nat) {g : Nat} (h : g ≠ f) : (raiseMsix s f v).func g = s.func g := by
  unfold raiseMsix
  dsimp only
  (repeat' split) <;> simp [func_setFunc_ne, h]
/-- A message of a vector that is not masked leaves, where MSI-X is enabled (R464). -/
theorem raiseMsix_func {s : State} {f v : Nat} (h : (s.func f).msixMask.getLsbD v = false) :
    (raiseMsix s f v).func f = if (s.func f).msixEnabled then { s.func f with msixSent := tput v (tget 0 (s.func f).msixSent v + 1) (s.func f).msixSent } else s.func f := by
  unfold raiseMsix
  dsimp only
  by_cases he : (s.func f).msixEnabled = true <;> simp [he, h]

/-- A vector whose mask bit and pending bit are cleared (R464). -/
def clearVector (x : FuncState) (v : Nat) : FuncState :=
  { x with msixMask := x.msixMask &&& ~~~ BitVec.ofNat 2048 (2 ^ v), msixPending := x.msixPending &&& ~~~ BitVec.ofNat 2048 (2 ^ v) }

theorem unmaskVector_eq (s : State) (f v : Nat) :
    unmaskVector s f v = if (s.func f).msixPending.getLsbD v then raiseMsix (s.setFunc f (clearVector (s.func f) v)) f v
      else s.setFunc f (clearVector (s.func f) v) := rfl

theorem unmaskVector_func (s : State) (f v : Nat) :
    (unmaskVector s f v).func f =
      if (s.func f).msixPending.getLsbD v = true ∧ (s.func f).msixEnabled = true then
        { clearVector (s.func f) v with msixSent := tput v (tget 0 (s.func f).msixSent v + 1) (s.func f).msixSent }
      else clearVector (s.func f) v := by
  rw [unmaskVector_eq]
  by_cases hp : (s.func f).msixPending.getLsbD v = true
  · rw [if_pos hp, raiseMsix_func (by rw [func_setFunc_same]; exact getLsbD_clear _ v), func_setFunc_same]
    by_cases he : (s.func f).msixEnabled = true <;> simp [hp, he, clearVector]
  · simp [hp]

theorem unmaskVector_func_ne (s : State) (f v : Nat) {g : Nat} (h : g ≠ f) : (unmaskVector s f v).func g = s.func g := by
  rw [unmaskVector_eq]
  split <;> simp [raiseMsix_func_ne, func_setFunc_ne, h]

/-- The registers of a function whose BAR2 has a new size (R463, R469). -/
def withBar2 (log2 : BitVec 6) (x : FuncState) : FuncState :=
  { x with bar2Log2 := log2, aperture := if baseOk x.aperture.toNat log2.toNat then x.aperture else 0 }

theorem func_resizeBar2 (log2 : BitVec 6) (s : State) (f g : Nat) :
    (resizeBar2 log2 s f).func g = if g = f then withBar2 log2 (s.func g) else s.func g := by
  by_cases h : g = f
  · subst h; simp [resizeBar2, withBar2]
  · simp [resizeBar2, func_setFunc_ne, h]

theorem withBar2_withBar2 (log2 : BitVec 6) (x : FuncState) : withBar2 log2 (withBar2 log2 x) = withBar2 log2 x := by
  unfold withBar2
  by_cases h : baseOk x.aperture.toNat log2.toNat <;> simp [h]

/-- Every function of a list takes the size, and no other. -/
theorem func_resizeAll (log2 : BitVec 6) (l : List Nat) (s : State) (g : Nat) :
    (l.foldl (resizeBar2 log2) s).func g = if g ∈ l then withBar2 log2 (s.func g) else s.func g := by
  induction l generalizing s with
  | nil => simp
  | cons f r ih =>
    rw [List.foldl_cons, ih, func_resizeBar2]
    by_cases h : g = f <;> by_cases hr : g ∈ r <;> simp [h, hr, withBar2_withBar2]

theorem mem_rangeFrom {lo n g : Nat} : g ∈ rangeFrom lo n ↔ lo ≤ g ∧ g < lo + n := by
  simp only [rangeFrom, List.mem_map, List.mem_range]
  exact ⟨fun ⟨a, ha, e⟩ => by omega, fun h => ⟨g - lo, by omega, by omega⟩⟩

/-- The functions whose BAR2 a resize of f changes: f alone where f is physical, and else every virtual function of its port (R463). -/
def resized (f : Nat) : List Nat := if f % 64 = 0 then [f] else rangeFrom (f / 64 * 64 + 1) 63

theorem mem_resized {f g : Nat} (h : g ∈ resized f) : g / 64 = f / 64 := by
  unfold resized at h
  split at h
  · rw [List.mem_singleton.mp h]
  · have := mem_rangeFrom.mp h; omega
theorem self_mem_resized (f : Nat) : f ∈ resized f := by
  unfold resized
  split
  · simp
  · exact mem_rangeFrom.mpr (by omega)
theorem virtual_mem_resized {f g : Nat} (h : f % 64 ≠ 0) (hg : g / 64 = f / 64) (hv : g % 64 ≠ 0) : g ∈ resized f := by
  rw [resized, if_neg h]
  exact mem_rangeFrom.mpr (by omega)

theorem exec_bar2Resize {f : Func} {l : BitVec 6} {s : State} (h : hostOpen s f.toNat = true) (h1 : 30 ≤ l.toNat) (h2 : l.toNat ≤ 42) :
    exec (.bar2Resize f l) s = .next ((resized f.toNat).foldl (resizeBar2 l) s) := by
  change execBar2Resize f l s = _
  rw [execBar2Resize, if_neg (by simp [h]; omega), resized]
  split <;> rfl

/-- Settles O22: what LEVEL, the unmasking of a vector and the resizing of BAR2 do to the registers of a function. -/
theorem functionRegisters : Obligations.FunctionRegisters := by
  unfold Obligations.FunctionRegisters
  refine ⟨fun f v s h => ?_, fun f v s h => ?_, fun f l s h h1 h2 => ?_⟩
  · change (_ → execLevelWrite f v s = _) ∧ (_ → _ → execLevelWrite f v s = _)
    simp only [execLevelWrite, levelSet, h, Bool.not_true, Bool.false_eq_true, if_false, Bool.and_eq_true, bne_iff_ne]
    exact ⟨fun hk => congrArg Host.Outcome.next (if_neg fun hc => hk.elim hc.1 fun e => by simp [e] at hc),
      fun hn ho => congrArg Host.Outcome.next (if_pos ⟨hn, ho⟩)⟩
  · refine ⟨_, congrArg Host.Outcome.next (if_pos h), ?_, ?_, ?_, by simp, by simp, fun g hg => unmaskVector_func_ne _ _ _ hg⟩
    all_goals rw [unmaskVector_func]
    · split <;> exact getLsbD_clear _ _
    · split <;> exact getLsbD_clear _ _
    · split
      · exact tget_tput_same ..
      · rfl
  · have hf := fun g => func_resizeAll l (resized f.toNat) s g
    refine ⟨_, exec_bar2Resize h h1 h2, ?_, ?_, fun hv g hg hg' => ?_, fun g hg => ?_, ?_, ?_⟩
    · rw [hf, if_pos (self_mem_resized _)]; rfl
    · rw [hf, if_pos (self_mem_resized _)]; rfl
    · rw [hf, if_pos (virtual_mem_resized hv hg hg')]; rfl
    · rw [hf, if_neg fun hm => hg (mem_resized hm)]
    · exact foldl_keeps State.mem (resizeBar2 l) (fun _ _ => rfl) _ _
    · exact foldl_keeps State.queues (resizeBar2 l) (fun _ _ => rfl) _ _

end Sys2Proof.Machine
end

section
/-! Doorbells and the semaphore window (O21). -/

namespace Sys2Proof.Machine

/-! ### Doorbells -/

/-- The place of queue q in its ring is the same in t as in s, and every other queue is the same. -/
structure PlaceKept (q : QNum) (s t : State) : Prop where
  others : ∀ q', q' ≠ q → t.queue q' = s.queue q'
  tail : (t.queue q).tail = (s.queue q).tail
  head : (t.queue q).head = (s.queue q).head
  next : (t.queue q).next = (s.queue q).next
  started : (t.queue q).started = (s.queue q).started

theorem PlaceKept.refl (q : QNum) (s : State) : PlaceKept q s s := ⟨fun _ _ => rfl, rfl, rfl, rfl, rfl⟩
theorem PlaceKept.trans {q : QNum} {s t u : State} (h : PlaceKept q s t) (h' : PlaceKept q t u) : PlaceKept q s u :=
  ⟨fun q' n => (h'.others q' n).trans (h.others q' n), h'.tail.trans h.tail, h'.head.trans h.head, h'.next.trans h.next,
    h'.started.trans h.started⟩

theorem queue_congr {s t : State} (h : t.queues = s.queues) (q : QNum) : t.queue q = s.queue q := by rw [State.queue, h]; rfl

theorem PlaceKept.of_queues {q : QNum} {s t : State} (h : t.queues = s.queues) : PlaceKept q s t := by
  have e := queue_congr h
  constructor <;> simp [e]
/-- Marking a queue's markers and those not yet armed leaves its place. -/
theorem PlaceKept.setQueue (q : QNum) (s : State) (m : List Marker) (u : List (BitVec 16 × Cmd)) :
    PlaceKept q s (s.setQueue q { s.queue q with markers := m, unarmed := u }) :=
  ⟨fun _ n => queue_setQueue_ne s _ n, by simp, by simp, by simp, by simp⟩

theorem placeKept_armMarker (s : State) (q : QNum) (idx : BitVec 16) (c : Cmd) : PlaceKept q s (armMarker s q idx c) := by
  unfold armMarker
  dsimp only
  split
  · exact .setQueue q s _ (s.queue q).unarmed
  · exact .refl q s
theorem placeKept_armList (s : State) (q : QNum) (l : List (BitVec 16 × Cmd)) : PlaceKept q s (armList s q l) := by
  induction l generalizing s with
  | nil => exact .setQueue q s (s.queue q).markers _
  | cons e r ih =>
    obtain ⟨i, c⟩ := e
    unfold armList
    split
    · exact .setQueue q s (s.queue q).markers _
    · exact (placeKept_armMarker s q i c).trans (ih _)

theorem placeKept_noteAligns (q : QNum) (n : Nat) : ∀ (s : State) (idx : BitVec 16), PlaceKept q s (noteAligns s q idx n) := by
  induction n with
  | zero => exact fun s _ => .refl q s
  | succ n ih =>
    intro s idx
    rw [noteAligns]
    have hr : PlaceKept q s (ringEntry s (s.queue q) idx).2 := .of_queues (ringEntry_queues s (s.queue q) idx)
    generalize ringEntry s (s.queue q) idx = r at hr
    obtain ⟨b, u⟩ := r
    refine hr.trans (.trans ?_ (ih ..))
    cases b with
    | none => exact .refl q u
    | some l =>
      dsimp only
      split
      · exact .setQueue q u (u.queue q).markers _
      · exact .refl q u

@[simp] theorem noteAligns_sems (q : QNum) (n : Nat) : ∀ (s : State) (idx : BitVec 16), (noteAligns s q idx n).sems = s.sems := by
  induction n with
  | zero => intros; rfl
  | succ n ih => intro s idx; simp only [noteAligns, ih]; (repeat' split) <;> simp
@[simp] theorem noteAligns_time (q : QNum) (n : Nat) : ∀ (s : State) (idx : BitVec 16), (noteAligns s q idx n).time = s.time := by
  induction n with
  | zero => intros; rfl
  | succ n ih => intro s idx; simp only [noteAligns, ih]; (repeat' split) <;> simp

/-- The queue whose TAIL is moved: where it was empty, its head has just come (R352). -/
def tailMoved (s : State) (q : QNum) (tail : BitVec 16) : State :=
  s.setQueue q (if (s.queue q).next = (s.queue q).tail then atHead s q { s.queue q with tail := tail } else { s.queue q with tail := tail })

theorem coverTo_eq (s : State) (q : QNum) (tail : BitVec 16) :
    coverTo s q tail = armReady (noteAligns (tailMoved (latchQuiet s q) q tail) q ((latchQuiet s q).queue q).tail
      (tail - ((latchQuiet s q).queue q).tail).toNat) q := rfl

theorem queue_tailMoved (s : State) (q : QNum) (tail : BitVec 16) :
    ∃ b k, (tailMoved s q tail).queue q = { s.queue q with tail := tail, headBeat := b, headSlot := k } := by
  rw [tailMoved, queue_setQueue_same]
  split
  · exact ⟨_, _, rfl⟩
  · exact ⟨(s.queue q).headBeat, (s.queue q).headSlot, rfl⟩

theorem placeKept_coverTo (s : State) (q : QNum) (tail : BitVec 16) : PlaceKept q (tailMoved (latchQuiet s q) q tail) (coverTo s q tail) := by
  rw [coverTo_eq, armReady]
  exact (placeKept_noteAligns ..).trans (placeKept_armList ..)

/-- What a doorbell leaves of its queue: TAIL takes the value and nothing else of its place moves (R352). -/
theorem queue_coverTo (s : State) (q : QNum) (tail : BitVec 16) :
    ((coverTo s q tail).queue q).tail = tail ∧ ((coverTo s q tail).queue q).head = (s.queue q).head ∧
      ((coverTo s q tail).queue q).next = (s.queue q).next ∧ ((coverTo s q tail).queue q).started = (s.queue q).started ∧
      ∀ q', q' ≠ q → (coverTo s q tail).queue q' = s.queue q' := by
  obtain ⟨others, htail, hhead, hnext, hstarted⟩ := placeKept_coverTo s q tail
  obtain ⟨b, k, hm⟩ := queue_tailMoved (latchQuiet s q) q tail
  have hl := fun p => queue_congr (latchQuiet_queues s q) p
  rw [hm] at htail hhead hnext hstarted
  rw [hl] at hhead hnext hstarted
  exact ⟨htail, hhead, hnext, hstarted, fun q' n => by rw [others q' n, tailMoved, queue_setQueue_ne _ _ n, hl]⟩

@[simp] theorem coverTo_sems (s : State) (q : QNum) (t : BitVec 16) : (coverTo s q t).sems = s.sems := by simp [coverTo_eq, tailMoved]
@[simp] theorem coverTo_time (s : State) (q : QNum) (t : BitVec 16) : (coverTo s q t).time = s.time := by simp [coverTo_eq, tailMoved]


/-- What makes a doorbell of 4 or 8 bytes one to drop (R467, R468). -/
theorem exec_doorbellWrite {f : Func} {q : QNum} {size : Nat} {v : BitVec 64} {s : State} (h : hostOpen s f.toNat = true) :
    exec (.doorbellWrite f q size v) s =
      if (size ≠ 4 ∧ size ≠ 8) ∨ 65536 ≤ sized size v ∨ (s.func f.toNat).agreed = 0 ∨ reachesQueue s f.toNat q = false then
        .next (bump s 0x0B f.toNat 5 1)
      else .next (ringDoorbell s f.toNat q (BitVec.ofNat 16 v.toNat)) := by
  change execDoorbellWrite f q size v s = _
  rw [execDoorbellWrite, if_neg (by simp [h])]
  simp [or_assoc]

theorem ringDoorbell_covers {s : State} {f : Nat} {q : QNum} {tail : BitVec 16} (h1 : (s.queue q).st ≠ .free) (h2 : (s.queue q).st ≠ .aborted)
    (h3 : (s.queue q).destroying = false) (hn : (tail - (s.queue q).head).toNat < (s.queue q).n)
    (ht : ((s.queue q).tail - (s.queue q).head).toNat ≤ (tail - (s.queue q).head).toNat) :
    ringDoorbell s f q tail = coverTo (jobDoorbell s (s.queue q).job.toNat) q tail := by
  rw [ringDoorbell]
  dsimp only
  rw [if_neg (by simp [h1, h2, h3]), if_neg (by simp only [Bool.or_eq_true, decide_eq_true_eq]; omega)]

theorem bump_eq (s : State) (cls inst code n : Nat) : bump s cls inst code n = { s with dict := (bump s cls inst code n).dict } := by
  unfold bump; split <;> rfl

/-! ### The semaphore window -/

theorem sem_semStore_same (s : State) (n : Nat) (v : BitVec 64) : (semStore s n v).sem n = { s.sem n with value := v } := by
  simp [semStore, State.sem]
theorem sem_semStore_ne (s : State) {n k : Nat} (v : BitVec 64) (h : k ≠ n) : (semStore s n v).sem k = s.sem k := by
  unfold semStore
  dsimp only
  rw [State.sem, tget_tput_ne _ _ _ h]
  split
  · rfl
  · rw [undeadlock_sems]; rfl

theorem semWindow_acts {s : State} {f n : Nat} {act : State → State} (h : hostOpen s f = true) (ha : functionAborting s f = false)
    (hg : (s.func f).agreed ≠ 0) (hs : s.assignedTo 2 n f = true) (hl : (s.sem n).st = .live) : semWindow s f n 8 act = act s := by
  rw [semWindow, if_neg (by simp [h, ha]), if_neg (by simp [hs, hl]; exact hg)]
theorem semWindow_drops {s : State} {f n size : Nat} {act : State → State} (h : hostOpen s f = true) (ha : functionAborting s f = false)
    (hd : size ≠ 8 ∨ (s.func f).agreed = 0 ∨ s.assignedTo 2 n f = false ∨ (s.sem n).st ≠ .live) :
    semWindow s f n size act = bump s 0x0B f 2 1 := by
  rw [semWindow, if_neg (by simp [h, ha]), if_pos (by simpa [or_assoc] using hd)]

/-- Before TIME_REF has locked no function is open (R20, R542). -/
theorem hostOpen_of_not_ticking {s : State} (h : s.ticking = false) (f : Nat) : hostOpen s f = false := by simp [hostOpen, h]

/-- Settles O21: what a doorbell and a write of the semaphore window change, and what makes one dropped. -/
theorem doorbellsAndSemaphoreWindow : Obligations.DoorbellsAndSemaphoreWindow := by
  unfold Obligations.DoorbellsAndSemaphoreWindow
  refine ⟨fun f q size v s h hz hv hg hr h1 h2 h3 hn ht => ?_, fun f q size v s h hd => ?_, fun f n v s h ha hg hs hl => ⟨?_, ?_⟩,
    fun f n size v s i hi h ha hd => ?_, fun f q n size v s i hi h => ?_⟩
  · obtain ⟨htail, hhead, hnext, hstarted, others⟩ :=
      queue_coverTo (jobDoorbell s (s.queue q).job.toNat) q (BitVec.ofNat 16 v.toNat)
    have hj := fun p => queue_congr (jobDoorbell_queues s (s.queue q).job.toNat) p
    rw [hj] at hhead hnext hstarted
    refine ⟨_, ?_, htail, hhead, hnext, hstarted, ?_, ?_, ?_, fun q' n => (others q' n).trans (hj q')⟩
    · have hok : ¬((size ≠ 4 ∧ size ≠ 8) ∨ 65536 ≤ sized size v ∨ (s.func f.toNat).agreed = 0 ∨ reachesQueue s f.toNat q = false) := by
        rintro (hd | hd | hd | hd)
        · omega
        · omega
        · exact hg hd
        · simp [hr] at hd
      rw [exec_doorbellWrite h, if_neg hok, ringDoorbell_covers h1 h2 h3 hn ht]
    all_goals simp
  · refine ⟨_, (exec_doorbellWrite h).trans (if_pos hd), counter_bump_same s _ _ _ _ (by decide), bump_eq s _ _ _ _⟩
  · exact ⟨_, congrArg Host.Outcome.next (semWindow_acts h ha hg hs hl), sem_semStore_same s _ v, by simp, by simp,
      fun k hk => sem_semStore_ne s v hk⟩
  · exact ⟨_, congrArg Host.Outcome.next (semWindow_acts h ha hg hs hl), sem_semStore_same s _ _, by simp, by simp,
      fun k hk => sem_semStore_ne s _ hk⟩
  · rcases hi with rfl | rfl
    · exact congrArg Host.Outcome.next (semWindow_drops h ha hd)
    · exact congrArg Host.Outcome.next (semWindow_drops h ha hd)
  · have hc := hostOpen_of_not_ticking h f.toNat
    simp only [List.mem_cons, List.not_mem_nil, or_false] at hi
    rcases hi with rfl | rfl | rfl
    · exact if_pos (by simp [hc])
    · exact congrArg Host.Outcome.next (if_pos (by simp [hc]))
    · exact congrArg Host.Outcome.next (if_pos (by simp [hc]))

end Sys2Proof.Machine
end

section
/-! The dictionary server: READ, INFO, counters and ticks (O28). -/

namespace Sys2Proof.Machine

/-! ### The dictionary server -/

theorem served_of_serving {s : State} {p : Path} (h : Serving s p) (w : Bool) (i : Nat) : served s p w i = true := by
  cases p with
  | mgmt => simp [served, h.on, h.noReset, h.noRecovery, h.root, h.service]
  | mctp x => simp [served, h.on, h.noReset, h.noRecovery, h.root, h.service, h.mctp x rfl]
  | window f => simp [served, h.on, h.noReset, h.noRecovery, h.root, h.service, h.window f rfl]

/-- Only the roots and the event rings hide entries from a path (R309, R384). -/
theorem visible_eq {i : Nat} (h1 : i ≠ 0x4020) (h2 : i ≠ 0x6020) (p : Path) (k : Nat) : visible p i k = findEntry i k := by
  simp [visible, h1, h2]

/-! #### Responses -/

@[simp] theorem path_answer_same (s : State) (p : Path) (st : Nat) (d : List Byte) :
    (answer s p st d).path p = { s.path p with resp := BitVec.ofNat 16 st, respData := d } := path_setPath_same ..
theorem path_answer_ne (s : State) {p q : Path} (st : Nat) (d : List Byte) (h : q ≠ p) : (answer s p st d).path q = s.path q :=
  path_setPath_ne s _ h

/-! #### READ -/

/-- A path keeps the value that its READ took (R488). -/
def takeSnap (s : State) (p : Path) (key : Nat) (v : List Byte) : State := s.setPath p { s.path p with readSnap := some (key, v) }

/-- A READ at offset 0 of a value that is there and of a length that suits it (R488). -/
theorem readEntry_value {s : State} {p : Path} {i k len : Nat} {e : Entry} {v : List Byte} (hs : served s p false i = true)
    (hv : visible p i k = some e) (ha : e.acc ≠ .wo) (he : entryBytes s p e k = .ok v) (hl : readShape p e k 0 len v = true) :
    readEntry s p i k 0 len = answer (takeSnap (readEffect s p e.index k) p (256 * e.index + k) v) p stOk (sliceBytes v 0 len) := by
  have hr : readValue s p e k 0 = .ok (v, takeSnap (readEffect s p e.index k) p (256 * e.index + k) v) := by
    rw [readValue, if_pos rfl, he]; rfl
  rw [readEntry, if_neg (by simp [hs]), hv]
  dsimp only
  rw [if_neg ha, hr]
  exact if_pos hl
/-- A READ of an entry whose value cannot be given answers why (R488). -/
theorem readEntry_error {s : State} {p : Path} {i k len st : Nat} {e : Entry} (hs : served s p false i = true)
    (hv : visible p i k = some e) (ha : e.acc ≠ .wo) (he : entryBytes s p e k = .error st) :
    readEntry s p i k 0 len = answer s p st [] := by
  have hr : readValue s p e k 0 = .error st := by rw [readValue, if_pos rfl, he]
  rw [readEntry, if_neg (by simp [hs]), hv]
  dsimp only
  rw [if_neg ha, hr]

/-- The response of a path that reads is its own alone. -/
theorem path_read_ne {s t : State} {p q : Path} {key : Nat} {v d : List Byte} {st : Nat} (h : q ≠ p) (ht : t.path q = s.path q) :
    (answer (takeSnap t p key v) p st d).path q = s.path q := by
  rw [path_answer_ne _ _ _ h, takeSnap, path_setPath_ne _ _ h, ht]

theorem sliceBytes_all {v : List Byte} {n : Nat} (h : v.length = n) : sliceBytes v 0 n = v := by simp [sliceBytes, ← h]

/-! #### INFO, counters and ticks (R52, R486, R497) -/

theorem length_infoBytes (s : State) (p : Path) (e : Entry) (k : Nat) : (infoBytes s p e k).length = 16 := by
  simp [infoBytes, length_leBytes]

theorem exec_dictInfo {p : Path} {i : BitVec 16} {k : BitVec 8} {s : State} {e : Entry} (h : Serving s p) (hv : visible p i.toNat k.toNat = some e) :
    exec (.dictInfo p i k) s = .next (answer s p stOk (infoBytes s p e k.toNat)) := by
  change execDictInfo p i k s = _
  rw [execDictInfo, infoEntry, if_neg (by simp [served_of_serving h, h.service]), hv]

/-- CNT_VALUE and STALL_SNAPSHOT (R497). -/
def cntEntry : Entry := ⟨0x7000, 2, 2, .u64, .ro, false, false, 0⟩
def stallEntry : Entry := ⟨0x7000, 3, 3, .arr .u64 16, .ro, false, false, 0⟩
def tickEntry : Entry := ⟨0x3000, 2, 2, .u64, .ro, false, false, 0⟩

theorem visible_cnt (p : Path) : visible p 0x7000 2 = some cntEntry := (visible_eq (by decide) (by decide) p 2).trans rfl
theorem visible_stall (p : Path) : visible p 0x7000 3 = some stallEntry := (visible_eq (by decide) (by decide) p 3).trans rfl
theorem visible_tick (p : Path) : visible p 0x3000 2 = some tickEntry := (visible_eq (by decide) (by decide) p 2).trans rfl

theorem entryBytes_cnt (s : State) (p : Path) :
    entryBytes s p cntEntry 2 = match cntValue s p with | .ok v => .ok (leBytes 8 v) | .error st => .error st := by
  have hd : dynValue s p 0x7000 2 = some (match cntValue s p with | .ok v => .num v | .error st => .bad st) := rfl
  rw [entryBytes, if_neg (by decide), show cntEntry.index = 0x7000 from rfl, hd]
  cases cntValue s p <;> rfl
theorem entryBytes_stall (s : State) (p : Path) : entryBytes s p stallEntry 3 = stallSnapshot s p := by
  have hd : dynValue s p 0x7000 3 = some (Val.of (stallSnapshot s p)) := rfl
  rw [entryBytes, if_neg (by decide), show stallEntry.index = 0x7000 from rfl, hd]
  cases stallSnapshot s p <;> rfl
theorem entryBytes_tick (s : State) (p : Path) : entryBytes s p tickEntry 2 = .ok (leBytes 8 s.time.tick.toNat) := rfl

/-- A read of a counter or of a stall snapshot is counted (log entry 8). -/
def countStallRead (s : State) : State := { s with dict := { s.dict with stallReads := s.dict.stallReads + 1 } }

theorem exec_counterRead {s : State} {p : Path} {n : Nat} (h : Serving s p) (hc : cntValue s p = .ok n) :
    exec (.counterRead p false) s = .next (answer (takeSnap (countStallRead s) p 0x700002 (leBytes 8 n)) p stOk (leBytes 8 n)) := by
  have he : entryBytes s p cntEntry 2 = .ok (leBytes 8 n) := by rw [entryBytes_cnt, hc]
  refine congrArg Host.Outcome.next ((readEntry_value (served_of_serving h _ _) (visible_cnt p) (by decide) he rfl).trans ?_)
  rw [sliceBytes_all (length_leBytes 8 n)]
  rfl
theorem exec_counterRead_error {s : State} {p : Path} {st : Nat} (h : Serving s p) (hc : cntValue s p = .error st) :
    exec (.counterRead p false) s = .next (answer s p st []) :=
  congrArg Host.Outcome.next (readEntry_error (served_of_serving h _ _) (visible_cnt p) (by decide) (by rw [entryBytes_cnt, hc]))
theorem exec_stallRead {s : State} {p : Path} {v : List Byte} (h : Serving s p) (hc : stallSnapshot s p = .ok v) :
    exec (.counterRead p true) s = .next (answer (takeSnap (countStallRead s) p 0x700003 v) p stOk (sliceBytes v 0 128)) :=
  congrArg Host.Outcome.next (readEntry_value (served_of_serving h _ _) (visible_stall p) (by decide) ((entryBytes_stall s p).trans hc) (by cases p <;> rfl))
theorem exec_stallRead_error {s : State} {p : Path} {st : Nat} (h : Serving s p) (hc : stallSnapshot s p = .error st) :
    exec (.counterRead p true) s = .next (answer s p st []) :=
  congrArg Host.Outcome.next (readEntry_error (served_of_serving h _ _) (visible_stall p) (by decide) ((entryBytes_stall s p).trans hc))

theorem length_sliceBytes (v : List Byte) (off n : Nat) : (sliceBytes v off n).length = n := by
  simp [sliceBytes]

/-- The snapshot of the tick, beat and schedule-beat counters (R52). -/
def takeTicks (s : State) (p : Path) : State := s.setPath p { s.path p with snap := some (s.time.tick, s.beat, s.schedBeat) }

theorem exec_tickSnapshot {s : State} {p : Path} (h : Serving s p) :
    exec (.tickSnapshot p) s =
      .next (answer (takeSnap (takeTicks s p) p 0x300002 (leBytes 8 s.time.tick.toNat)) p stOk (leBytes 8 s.time.tick.toNat)) := by
  refine congrArg Host.Outcome.next ((readEntry_value (served_of_serving h _ _) (visible_tick p) (by decide) (entryBytes_tick s p) rfl).trans ?_)
  rw [sliceBytes_all (length_leBytes 8 _)]
  rfl

theorem dynValue_snapBeat (s : State) (p : Path) : dynValue s p 0x3000 3 = some (.num (match (s.path p).snap with | some (_, b, _) => b.toNat | none => 0)) := rfl
theorem dynValue_snapSchedBeat (s : State) (p : Path) : dynValue s p 0x3000 4 = some (.num (match (s.path p).snap with | some (_, _, b) => b.toNat | none => 0)) := rfl

/-- Settles O28: INFO answers the entry's 16 bytes, a counter read its counter, and a read of the ticks keeps all three counters. -/
theorem infoCountersAndTicks : Obligations.InfoCountersAndTicks := by
  unfold Obligations.InfoCountersAndTicks
  refine ⟨fun p i k s e h hv => ?_, fun p s cls inst code h hsel => ⟨fun hc => ?_, fun hc => ?_, fun hc hi => ?_, fun hc => ?_⟩, fun p s h => ?_⟩
  · exact ⟨_, exec_dictInfo h hv, by simp [stOk], by simp, by simp [length_infoBytes], rfl, fun p' hp => path_answer_ne s _ _ hp⟩
  · have hv : ∃ n, cntValue s p = .ok n ∧
        (cls ≠ 1 → n = if 2 ≤ cls ∧ cls ≤ 4 ∧ inst ≠ 0 ∧ (s.job? inst).isNone then 0 else s.counter cls inst code) := by
      rw [cntValue, hsel]
      dsimp only
      rw [if_neg (by simp [hc])]
      split
      · exact ⟨_, rfl, fun hn => absurd ‹cls = 1› hn⟩
      · split
        · exact ⟨_, rfl, fun _ => by simp_all⟩
        · exact ⟨_, rfl, fun _ => by simp_all⟩
    obtain ⟨n, hn, hval⟩ := hv
    exact ⟨_, exec_counterRead h hn, by simp [stOk], by simp [length_leBytes], fun h1 => by rw [← hval h1]; simp, rfl, rfl, rfl, rfl,
      fun p' hp => path_read_ne hp rfl⟩
  · exact ⟨_, exec_counterRead_error h (by rw [cntValue, hsel]; exact if_pos (by simp [hc])), by simp, rfl⟩
  · exact ⟨_, exec_stallRead h (by rw [stallSnapshot, hsel]; exact if_neg (by simp [hc, hi])), by simp [stOk], by simp [length_sliceBytes], rfl, rfl, rfl, rfl⟩
  · exact ⟨_, exec_stallRead_error h (by rw [stallSnapshot, hsel]; exact if_pos (by simpa using hc)), by simp, rfl⟩
  · have hsnap : ((answer (takeSnap (takeTicks s p) p 0x300002 (leBytes 8 s.time.tick.toNat)) p stOk (leBytes 8 s.time.tick.toNat)).path p).snap =
        some (s.time.tick, s.beat, s.schedBeat) := by simp [takeSnap, takeTicks]
    exact ⟨_, exec_tickSnapshot h, by simp [stOk], by simp, hsnap, by rw [dynValue_snapBeat, hsnap], by rw [dynValue_snapSchedBeat, hsnap], rfl,
      fun p' hp => path_read_ne hp (path_setPath_ne s _ hp)⟩

end Sys2Proof.Machine
end

section
/-! The dictionary server: WRITE and its frame; the store, the faults, the pins and the trace (O30). -/

namespace Sys2Proof.Machine

/-! #### WRITE -/

/-- A write that a check refuses changes nothing but the response (R488). -/
theorem writeEntry_refused {s : State} {p : Path} {i k off : Nat} {d : List Byte} (hc : writeCheck s p i k off d.length ≠ stOk) :
    writeEntry s p i k off d = answer s p (writeCheck s p i k off d.length) [] := by
  rw [writeEntry, if_pos (by simpa using hc)]
/-- A write that is carried out: it is stored where its entry is persistent, and answered. -/
theorem writeEntry_done {s t : State} {p : Path} {i k off : Nat} {d r : List Byte} (hc : writeCheck s p i k off d.length = stOk)
    (he : writeEffect s p i k off d = (stOk, r, t)) : writeEntry s p i k off d = answer (keepWrite t i k (leNat d)) p stOk r := by
  rw [writeEntry, if_neg (by simp [hc]), he]
  exact if_neg (by decide)
/-- A write whose action answers another status, and is not left in progress. -/
theorem writeEntry_failed {s t : State} {p : Path} {i k off st : Nat} {d r : List Byte} (hc : writeCheck s p i k off d.length = stOk)
    (he : writeEffect s p i k off d = (st, r, t)) (h : st ≠ stOk) (hw : st ≠ stWait) : writeEntry s p i k off d = answer t p st r := by
  rw [writeEntry, if_neg (by simp [hc]), he]
  dsimp only
  rw [if_neg hw, if_neg h]
/-- A write whose action is left in progress is not answered. -/
theorem writeEntry_waits {s t : State} {p : Path} {i k off : Nat} {d r : List Byte} (hc : writeCheck s p i k off d.length = stOk)
    (he : writeEffect s p i k off d = (stWait, r, t)) : writeEntry s p i k off d = t := by
  rw [writeEntry, if_neg (by simp [hc]), he]
  rfl

theorem writeEffect_low {s t : State} {p : Path} {i k off st : Nat} {d : List Byte} (hn : claimants.contains (i, k) = false) (hi : i < 0x4000)
    (ha : lowAction s p i k (leNat d) d = some (st, t)) : writeEffect s p i k off d = (st, [], t) := by
  rw [writeEffect]; rw [if_neg (by simpa using hn), if_pos hi, ha]
theorem writeEffect_high {s t : State} {p : Path} {i k off st : Nat} {d : List Byte} (hn : claimants.contains (i, k) = false) (hi : ¬ i < 0x4000)
    (ha : highAction s p i k off (leNat d) d = some (st, t)) : writeEffect s p i k off d = (st, [], t) := by
  rw [writeEffect]; rw [if_neg (by simpa using hn), if_neg hi, ha]
theorem writeEffect_claim {s : State} {p : Path} {i k off : Nat} {d : List Byte} (hn : claimants.contains (i, k) = true) :
    writeEffect s p i k off d = claimWrite s i k (leNat d) := by rw [writeEffect]; exact if_pos hn

/-- Two dictionaries differ in the store's banks and the count of its records alone. -/
def BanksOnly (d e : Dict) : Prop := ∃ b c j, e = { d with bank0 := b, bank1 := c, journal := j }

theorem BanksOnly.refl (d : Dict) : BanksOnly d d := ⟨d.bank0, d.bank1, d.journal, rfl⟩
theorem BanksOnly.trans {d e f : Dict} : BanksOnly d e → BanksOnly e f → BanksOnly d f := by
  rintro ⟨b, c, j, rfl⟩ ⟨b', c', j', rfl⟩
  exact ⟨b', c', j', rfl⟩

theorem banksOnly_setBank (d : Dict) (one : Bool) (x : Bank) : BanksOnly d (setBank d one x) := by
  cases one
  · exact ⟨x, d.bank1, d.journal, rfl⟩
  · exact ⟨d.bank0, x, d.journal, rfl⟩
theorem banksOnly_renewStore (d : Dict) (l : List StoreRec) : BanksOnly d (renewStore d l) := by
  unfold renewStore
  split
  · exact (banksOnly_setBank ..).trans (banksOnly_setBank ..)
  · exact ⟨_, _, d.journal, rfl⟩

/-- The dictionary with room in its store for a journal record (R491). -/
def roomFor (d : Dict) (r : StoreRec) : Dict :=
  match activeBank d with
  | some (_, b, _) => if bankSize < b.used + 8 + r.value.length then renewStore d (latestRecs d) else d
  | none => renewStore d []

theorem banksOnly_roomFor (d : Dict) (r : StoreRec) : BanksOnly d (roomFor d r) := by
  unfold roomFor
  split
  · split
    · exact banksOnly_renewStore ..
    · exact .refl d
  · exact banksOnly_renewStore ..
theorem storeAppend_eq (d : Dict) (r : StoreRec) : storeAppend d r =
    match activeBank (roomFor d r) with
    | some (one, b, _) => setBank (roomFor d r) one { b with journal := b.journal ++ [r] }
    | none => roomFor d r := rfl
/-- A journal record changes the banks alone (R491). -/
theorem banksOnly_storeAppend (d : Dict) (r : StoreRec) : BanksOnly d (storeAppend d r) := by
  rw [storeAppend_eq]
  split
  · exact (banksOnly_roomFor d r).trans (banksOnly_setBank ..)
  · exact banksOnly_roomFor d r

theorem persist_eq (s : State) (i k v : Nat) : ∃ d, BanksOnly s.dict d ∧ persist s i k v = { s with dict := d } :=
  ⟨_, (banksOnly_storeAppend s.dict _).trans ⟨_, _, _, rfl⟩, rfl⟩

theorem keepWrite_banks (s : State) (i k v : Nat) :
    ∃ b c j, keepWrite s i k v = { s with dict := { s.dict with bank0 := b, bank1 := c, journal := j } } := by
  have hid : ∃ b c j, s = { s with dict := { s.dict with bank0 := b, bank1 := c, journal := j } } :=
    ⟨s.dict.bank0, s.dict.bank1, s.dict.journal, rfl⟩
  obtain ⟨_, ⟨b, c, j, rfl⟩, hp⟩ := persist_eq s i k v
  unfold keepWrite
  split
  · split
    · exact ⟨b, c, j, hp⟩
    · exact hid
  · exact hid

/-- A write that is carried out, as the state that its action leaves: only the store's banks and the path's response may differ from it. -/
theorem writeEntry_answers {s t : State} {p : Path} {i k off : Nat} {d r : List Byte} (hc : writeCheck s p i k off d.length = stOk)
    (he : writeEffect s p i k off d = (stOk, r, t)) :
    ∃ b c j, writeEntry s p i k off d = answer { t with dict := { t.dict with bank0 := b, bank1 := c, journal := j } } p stOk r := by
  obtain ⟨b, c, j, e⟩ := keepWrite_banks t i k (leNat d)
  exact ⟨b, c, j, by rw [writeEntry_done hc he, e]⟩

theorem keepWrite_of_not_pers {i k : Nat} {e : Entry} (h : findEntry i k = some e) (hp : e.pers = false) (s : State) (v : Nat) : keepWrite s i k v = s := by
  rw [keepWrite, h]; simp [hp]

/-! ### Actions on the store, the faults, the pins and the trace -/

theorem gen?_newBank (g : BitVec 32) (l : List StoreRec) : (newBank g l).gen? = some g := if_pos rfl

/-- A bank that begins anew with no record holds no value, and the old one is erased (R489, R491). -/
theorem storeOf_emptyStore (s : State) : storeOf (emptyStore s).dict = [] := by
  have hv : ∀ g, (newBank g []).values = [] := fun g => rfl
  unfold emptyStore renewStore storeOf
  cases activeBank s.dict with
  | none => simp [activeBank, gen?_newBank, show Bank.gen? {} = none from rfl, hv]
  | some a =>
    obtain ⟨one, b, g⟩ := a
    cases one <;> simp [setBank, activeBank, gen?_newBank, show Bank.gen? {} = none from rfl, hv]

theorem emptyStore_regs (s : State) : (emptyStore s).dict.regs = s.dict.regs := by
  obtain ⟨b, c, j, e⟩ := banksOnly_renewStore s.dict []
  exact (congrArg Dict.regs e :)

theorem exec_restoreDefaults {p : Path} {s : State} (hc : writeCheck s p 0x1200 4 0 4 = stOk) (hj : jobLoaded s = false) :
    exec (.restoreDefaults p 0x0D5F) s = .next (answer (emptyStore s) p stOk []) := by
  have ha : lowAction s p 0x1200 4 (leNat (leBytes 4 (0x0D5F : BitVec 32).toNat)) (leBytes 4 (0x0D5F : BitVec 32).toNat) = some (stOk, emptyStore s) :=
    congrArg some ((if_neg (by decide) : restoreWrite s _ = _).trans (if_neg (by simp [hj])))
  refine congrArg Host.Outcome.next ((writeEntry_done hc (writeEffect_low rfl (by decide) ha)).trans ?_)
  rw [keepWrite_of_not_pers (i := 0x1200) (k := 4) rfl rfl]

/-- The faults that an acknowledgement leaves (R494). -/
def faultsAfter (code : BitVec 16) (l : List (BitVec 16)) : List (BitVec 16) := if code = 0xFFFF then [] else l.filter (· != code)

theorem mem_faultsAfter (code c : BitVec 16) (l : List (BitVec 16)) : c ∈ faultsAfter code l ↔ c ∈ l ∧ code ≠ 0xFFFF ∧ c ≠ code := by
  unfold faultsAfter
  split
  · next h => simp [h]
  · next h => simpa using fun _ _ => h

theorem faultAckWrite_eq {s : State} {code : BitVec 16} (h : code = 0xFFFF ∨ code.toNat ∈ faultCodes) :
    faultAckWrite s code.toNat = (stOk, { s with dict := { s.dict with faults := faultsAfter code s.dict.faults } }) := by
  have hk : code.toNat = 0xFFFF ↔ code = 0xFFFF := ⟨fun e => BitVec.eq_of_toNat_eq e, fun e => by rw [e]; rfl⟩
  have hf : (fun x : BitVec 16 => x.toNat != code.toNat) = fun x => x != code := by
    funext x
    rw [Bool.eq_iff_iff]
    simp [BitVec.toNat_inj]
  unfold faultAckWrite faultsAfter
  by_cases hc : code = 0xFFFF
  · simp [hc]
  · rw [if_neg (mt hk.mp hc), if_pos (List.contains_iff_mem.mpr (h.resolve_left hc)), if_neg hc, hf]

theorem leNat_byte (b : Byte) : leNat [b] = b.toNat := by simp [leNat]

theorem exec_faultAck {p : Path} {code : BitVec 16} {s : State} (hc : writeCheck s p 0x2E00 2 0 2 = stOk) (h : code = 0xFFFF ∨ code.toNat ∈ faultCodes) :
    exec (.faultAck p code) s = .next (answer { s with dict := { s.dict with faults := faultsAfter code s.dict.faults } } p stOk []) := by
  have hv : leNat (leBytes 2 code.toNat) = code.toNat := by rw [leNat_leBytes]; exact Nat.mod_eq_of_lt code.isLt
  have ha : lowAction s p 0x2E00 2 (leNat (leBytes 2 code.toNat)) (leBytes 2 code.toNat) =
      some (stOk, { s with dict := { s.dict with faults := faultsAfter code s.dict.faults } }) := by
    rw [hv]
    exact congrArg some (faultAckWrite_eq h)
  refine congrArg Host.Outcome.next ((writeEntry_done hc (writeEffect_low rfl (by decide) ha)).trans ?_)
  rw [keepWrite_of_not_pers (i := 0x2E00) (k := 2) rfl rfl]

theorem reg_setReg (s : State) (i k v i' k' : Nat) : (s.setReg i k v).reg i' k' = if 256 * i' + k' = 256 * i + k then v else s.reg i' k' := by
  simp only [State.reg, State.setReg, tfind_tput]
  by_cases h : 256 * i' + k' = 256 * i + k <;> simp [h]

/-- A pin that no other claimant holds, or none, is kept (R493). -/
theorem claimWrite_free {s : State} {i k : Nat} {pin : BitVec 8} (h : pin = 0xFF ∨ pin.toNat ≤ 3 ∧ pinHolder s pin.toNat = none) :
    claimWrite s i k pin.toNat = (stOk, [], s.setReg i k pin.toNat) := by
  have hk : pin = 0xFF → pin.toNat = 0xFF := fun e => by rw [e]; rfl
  rw [claimWrite, if_neg (by rintro ⟨h1, h2⟩; exact h.elim (fun e => h1 (hk e)) fun e => by omega)]
  rcases h with h | ⟨h1, h2⟩
  · rw [if_pos (hk h)]
  · rw [if_neg (by omega), h2]

/-- TRACE_EN 1 records anew and 0 stops (R502). -/
def traceSet (s : State) (on : Bool) : State :=
  { s with dict := if on then { s.dict with traceOn := true, tracePost := none, traceWraps := 0 } else { s.dict with traceOn := false } }

theorem exec_traceEn {p : Path} {s : State} (hc : writeCheck s p 0x7E00 1 0 1 = stOk) (on : Bool) :
    exec (.traceEn p (if on then 1 else 0)) s = .next (answer (traceSet s on) p stOk []) := by
  cases on
  · exact congrArg Host.Outcome.next ((writeEntry_done hc (writeEffect_high (t := traceSet s false) rfl (by decide) rfl)).trans
      (by rw [keepWrite_of_not_pers (i := 0x7E00) (k := 1) rfl rfl]))
  · exact congrArg Host.Outcome.next ((writeEntry_done hc (writeEffect_high (t := traceSet s true) rfl (by decide) rfl)).trans
      (by rw [keepWrite_of_not_pers (i := 0x7E00) (k := 1) rfl rfl]))

theorem triggerTrace_eq {s : State} (h : s.dict.traceOn = true) (hp : s.dict.tracePost = none) :
    triggerTrace s = { s with dict := { s.dict with tracePost := some (s.reg 0x7E00 4) } } := if_pos (by simp [h, hp])

theorem exec_traceTrigger {p : Path} {s : State} (hc : writeCheck s p 0x7E00 6 0 1 = stOk) :
    exec (.traceTrigger p 1) s = .next (answer (triggerTrace s) p stOk []) :=
  congrArg Host.Outcome.next ((writeEntry_done hc (writeEffect_high (t := triggerTrace s) rfl (by decide) rfl)).trans
    (by rw [keepWrite_of_not_pers (i := 0x7E00) (k := 6) rfl rfl]))

/-- Settles O30: the default values, the acknowledgement of faults, the claims of pins, and the trace. -/
theorem dictionaryActionsAndTrace : Obligations.DictionaryActionsAndTrace := by
  unfold Obligations.DictionaryActionsAndTrace
  refine ⟨⟨fun p s hc hj => ?_, fun p code s hc h => ?_, fun p i k pin s hc hn h => ?_⟩,
    fun p s hc => ⟨?_, ?_⟩, fun p s hc h hp => ?_, fun pin s hr h hp => ?_, fun s h => ?_⟩
  · exact ⟨_, exec_restoreDefaults hc hj, by simp [stOk], storeOf_emptyStore s, emptyStore_regs s, by simp, by simp⟩
  · exact ⟨_, exec_faultAck hc h, by simp [stOk], fun c => mem_faultsAfter code c s.dict.faults, rfl, rfl⟩
  · obtain ⟨b, c, j, e⟩ := writeEntry_answers (d := [pin]) hc ((writeEffect_claim hn).trans (by rw [leNat_byte]; exact claimWrite_free h))
    have hreg := reg_setReg s i.toNat k.toNat pin.toNat
    exact ⟨_, congrArg Host.Outcome.next e, by simp [stOk], (hreg _ _).trans (if_pos rfl), fun i' k' hne => (hreg _ _).trans (if_neg hne), rfl, rfl⟩
  · exact ⟨_, exec_traceEn hc true, rfl, rfl, rfl, rfl, rfl, rfl⟩
  · exact ⟨_, exec_traceEn hc false, rfl, rfl, rfl, rfl⟩
  · exact ⟨_, exec_traceTrigger hc, by rw [triggerTrace_eq h hp]; rfl, by rw [triggerTrace_eq h hp]; exact h,
      by rw [triggerTrace_eq h hp]; rfl, by rw [triggerTrace_eq h hp]; rfl⟩
  · exact congrArg Host.Outcome.next ((if_pos hr).trans (triggerTrace_eq h hp))
  · exact congrArg Host.Outcome.next (if_pos h)

end Sys2Proof.Machine
end

section
/-! WRITE and READ of any entry of the dictionary (O27). -/

namespace Sys2Proof.Machine

/-! ### WRITE and READ of any entry (O27) -/

theorem reg_congr {s t : State} (h : t.dict.regs = s.dict.regs) (i k : Nat) : t.reg i k = s.reg i k := by rw [State.reg, h, State.reg]
theorem selector_congr {s t : State} {p : Path} (h : (t.path p).sel = (s.path p).sel) (i k : Nat) : t.selector p i k = s.selector p i k := by
  rw [State.selector, h, State.selector]

/-- What the write of an entry without an action of its own leaves: the path's own copy of a selector, or the entry's value (R483). -/
def keepValue (s : State) (p : Path) (i k v : Nat) : State := if isSelector i k then selectWrite s p i k v else s.setReg i k v

theorem writeEffect_plain {s : State} {p : Path} {i k off : Nat} {d : List Byte} (hn : claimants.contains (i, k) = false)
    (ha : (if i < 0x4000 then lowAction s p i k (leNat d) d else highAction s p i k off (leNat d) d) = none) (hr : rangeOk i k (leNat d) = true) :
    writeEffect s p i k off d = (stOk, [], keepValue s p i k (leNat d)) := by
  rw [writeEffect, if_neg (by simpa using hn), ha]
  dsimp only
  rw [if_neg (by simp [hr]), keepValue]
  split <;> rfl

theorem selector_selectWrite (s : State) (p : Path) (i k v i' k' : Nat) :
    (selectWrite s p i k v).selector p i' k' = if 256 * i' + k' = 256 * i + k then v else s.selector p i' k' := by
  simp only [State.selector, selectWrite, path_setPath_same, tget_tput]

/-- A READ at a later offset returns bytes of the value that the path's last READ took (R488). -/
theorem readEntry_snap {s : State} {p : Path} {i k off len : Nat} {e : Entry} {v : List Byte} (hs : served s p false i = true)
    (hv : visible p i k = some e) (ha : e.acc ≠ .wo) (ho : off ≠ 0) (hr : (s.path p).readSnap = some (256 * e.index + k, v))
    (hl : readShape p e k off len v = true) : readEntry s p i k off len = answer s p stOk (sliceBytes v off len) := by
  have hval : readValue s p e k off = .ok (v, s) := by simp [readValue, ho, hr, Option.filter]
  rw [readEntry, if_neg (by simp [hs]), hv]
  dsimp only
  rw [if_neg ha, hval]
  exact if_pos hl

/-- What taking a value does besides touches the path, the power and the counts of reads (R52, R497, R547). -/
theorem readEffect_frame (s : State) (p : Path) (i k : Nat) :
    (readEffect s p i k).mem = s.mem ∧ (readEffect s p i k).queues = s.queues ∧ (readEffect s p i k).jobs = s.jobs ∧
      (readEffect s p i k).time = s.time ∧ ∀ q, q ≠ p → (readEffect s p i k).path q = s.path q := by
  unfold readEffect
  split
  · exact ⟨rfl, rfl, rfl, rfl, fun q hq => path_setPath_ne s _ hq⟩
  · exact ⟨rfl, rfl, rfl, rfl, fun _ _ => rfl⟩
  · exact ⟨rfl, rfl, rfl, rfl, fun _ _ => rfl⟩
  · exact ⟨rfl, rfl, rfl, rfl, fun _ _ => rfl⟩
  · split <;> exact ⟨rfl, rfl, rfl, rfl, fun _ _ => rfl⟩
  · exact ⟨rfl, rfl, rfl, rfl, fun _ _ => rfl⟩

/-- Settles O27: a refused write changes its response alone, another its entry alone, and a READ takes the value that later READs return from. -/
theorem dictionaryWritesAndReads : Obligations.DictionaryWritesAndReads := by
  unfold Obligations.DictionaryWritesAndReads
  refine ⟨fun p i k off d s hc => ?_, fun p i k off d s hc hn ha hr => ?_, fun p i k len s e v hs hv ha he hl => ?_, fun p i k off len s e v hs hv ha ho hr hl => ?_⟩
  · exact ⟨_, congrArg Host.Outcome.next (writeEntry_refused hc), rfl, path_answer_same .., fun p' hp => path_answer_ne s _ _ hp⟩
  · obtain ⟨b, c, j, e⟩ := writeEntry_answers hc (writeEffect_plain hn ha hr)
    refine ⟨_, congrArg Host.Outcome.next e, by simp [stOk], ?_, ?_, ?_, fun p' hp => (path_answer_ne _ _ _ hp).trans ?_, ?_, ?_, ?_, ?_⟩
    all_goals rw [keepValue]
    · intro hsel
      rw [if_pos hsel]
      exact ⟨(selector_congr (by rw [path_answer_same]; rfl) _ _).trans ((selector_selectWrite ..).trans (if_pos rfl)), rfl⟩
    · intro hsel
      rw [if_neg (by simp [hsel])]
      exact (reg_setReg ..).trans (if_pos rfl)
    · intro i' k' hne
      split
      · exact ⟨rfl, (selector_congr (by rw [path_answer_same]; rfl) _ _).trans ((selector_selectWrite ..).trans (if_neg hne))⟩
      · exact ⟨(reg_setReg ..).trans (if_neg hne), selector_congr (by rw [path_answer_same]; rfl) _ _⟩
    · split
      · exact path_setPath_ne s _ hp
      · rfl
    all_goals split <;> rfl
  · obtain ⟨hmem, hqueues, hjobs, htime, hpaths⟩ := readEffect_frame s p e.index k.toNat
    exact ⟨_, congrArg Host.Outcome.next (readEntry_value hs hv ha he hl), by simp [stOk], by simp, by simp [takeSnap], hmem, hqueues, hjobs, htime,
      fun p' hp => path_read_ne hp (hpaths p' hp)⟩
  · exact ⟨_, congrArg Host.Outcome.next (readEntry_snap hs hv ha (fun h => ho (BitVec.eq_of_toNat_eq h)) hr hl), by simp [stOk], by simp, rfl⟩

end Sys2Proof.Machine
end

section
/-! Writes of registers (O29). -/

namespace Sys2Proof.Machine

/-! ### Writes of registers (O29) -/

theorem bits_zero (x n : Nat) : bits x 0 n = x % 2 ^ n := by simp [bits]
theorem bits_lt (x lo n : Nat) : bits x lo n < 2 ^ n := Nat.mod_lt _ (by positivity)
/-- A field of the low word of a number is that field of the number. -/
theorem bits_low {x lo n m : Nat} (h : lo + n ≤ m) : bits (bits x 0 m) lo n = bits x lo n := by
  rw [bits_zero]
  simp only [bits, Nat.shiftRight_eq_div_pow]
  rw [← Nat.add_sub_of_le (show lo ≤ m by omega), pow_add, Nat.mod_mul_right_div_self, Nat.mod_mod_of_dvd _ (Nat.pow_dvd_pow 2 (by omega))]
theorem ofNat_low (x n : Nat) : BitVec.ofNat n (bits x 0 n) = BitVec.ofNat n x := by
  apply BitVec.eq_of_toNat_eq
  simp [bits_zero]
theorem toNat_ofNat_bits (x lo n : Nat) : (BitVec.ofNat n (bits x lo n)).toNat = bits x lo n := by
  rw [BitVec.toNat_ofNat, Nat.mod_eq_of_lt (bits_lt x lo n)]

theorem words_four (v : BitVec 64) (act : State → Nat → Nat → State) (s : State) (off : Nat) : words 4 v act s off = act s off (bits v.toNat 0 32) := rfl

section
variable {f : Func} {s : State} {off size : Nat} {v : BitVec 64} (h : hostOpen s f.toNat = true) (ho : off % 4 = 0)
include h ho

theorem bar0Write_aligned : bar0Write f off size v s =
    if off < 0x10000 then .next (words size v (functionWord f.toNat) s off)
    else if off < 0x20000 then .next (words size v (fun s o w => windowWord s f o w) s (off - 0x10000))
    else if 0x100000 ≤ off ∧ off < 0x140000 then
      if off % 8 = 0 then execDoorbellWrite f (BitVec.ofNat 15 ((off - 0x100000) / 8)) size v s else .next (bump s 0x0B f.toNat 5 1)
    else if 0x200000 ≤ off ∧ off < 0x300000 then
      match off % 16 with
      | 0 => execSemWindowSet f (BitVec.ofNat 16 ((off - 0x200000) / 16)) size v s
      | 8 => execSemWindowAdd f (BitVec.ofNat 16 ((off - 0x200000) / 16)) size v s
      | _ => execSemWindowSet f (BitVec.ofNat 16 ((off - 0x200000) / 16)) 4 v s
    else if 0x300000 ≤ off ∧ off < 0x308000 then .next (words size v (fun s o w => msixWord s f.toNat o w) s (off - 0x300000))
    else .next s := by
  rw [bar0Write]
  dsimp only
  rw [if_neg (by simp [h, ho])] <;> rfl

theorem bar0Write_function (hlt : off < 0x10000) : bar0Write f off 4 v s = .next (functionWord f.toNat s off (bits v.toNat 0 32)) := by
  rw [bar0Write_aligned h ho, if_pos hlt, words_four]
theorem bar0Write_window (hge : 0x10000 ≤ off) (hlt : off < 0x20000) :
    bar0Write f off 4 v s = .next (windowWord s f (off - 0x10000) (bits v.toNat 0 32)) := by
  rw [bar0Write_aligned h ho, if_neg (by omega), if_pos hlt, words_four]
theorem bar0Write_msix (hge : 0x300000 ≤ off) (hlt : off < 0x308000) :
    bar0Write f off 4 v s = .next (msixWord s f.toNat (off - 0x300000) (bits v.toNat 0 32)) := by
  rw [bar0Write_aligned h ho, if_neg (by omega), if_neg (by omega), if_neg (by omega), if_neg (by omega), if_pos ⟨hge, hlt⟩, words_four]
end

/-- A write elsewhere, an unaligned one, or one of a function that is not open, changes nothing (R466). -/
theorem bar0Write_none {f : Func} {s : State} {off size : Nat} {v : BitVec 64}
    (h : hostOpen s f.toNat = false ∨ off % 4 ≠ 0 ∨ 0x308000 ≤ off ∨ (0x20000 ≤ off ∧ off < 0x100000) ∨ (0x140000 ≤ off ∧ off < 0x200000)) :
    bar0Write f off size v s = .next s := by
  by_cases hk : off % 4 ≠ 0 ∨ hostOpen s f.toNat = false
  · rw [bar0Write]
    exact if_pos (by simpa using hk)
  · obtain ⟨ho, hs⟩ := not_or.mp hk
    rw [bar0Write_aligned (by simpa using hs) (by omega)]
    have : 0x308000 ≤ off ∨ (0x20000 ≤ off ∧ off < 0x100000) ∨ (0x140000 ≤ off ∧ off < 0x200000) := by
      rcases h with h | h | h
      · exact absurd h hs
      · exact absurd h ho
      · exact h
    rw [if_neg (by omega), if_neg (by omega), if_neg (by omega), if_neg (by omega), if_neg (by omega)]

/-- What a request of the dictionary window returned is put into its DATA (R487). -/
def fillWindow (f : Func) (padded : List Byte) (t : State) : State :=
  t.setPath (.window f) { t.path (.window f) with winData := (t.path (.window f)).respData ++ padded.drop (t.path (.window f)).respData.length }

theorem fillWindow_spec (f : Func) (padded : List Byte) (t : State) :
    ((fillWindow f padded t).path (.window f)).resp = (t.path (.window f)).resp ∧
      ((fillWindow f padded t).path (.window f)).winData.take (t.path (.window f)).respData.length = (t.path (.window f)).respData ∧
      fillWindow f padded t = { t with paths := (fillWindow f padded t).paths } := by
  refine ⟨by simp [fillWindow], by simp [fillWindow], rfl⟩

/-- DATA of the window as a request sees it (R487). -/
def windowData (s : State) (f : Func) : List Byte :=
  (s.path (.window f)).winData ++ List.replicate (61440 - (s.path (.window f)).winData.length) 0

theorem windowCmd_eq {s : State} {f : Func} {v : Nat} (hd : (s.path (.window f)).descWait = none) (hv : bits v 4 4 = 0) :
    windowCmd s f v = match bits v 0 4 with
      | 1 => fillWindow f (windowData s f) (readEntry s (.window f) (bits v 16 16) (bits v 8 8) (s.path (.window f)).winOff.toNat (s.path (.window f)).winLen.toNat)
      | 2 => if 1024 < (s.path (.window f)).winLen.toNat then answer s (.window f) stCmdInvalid []
          else writeEntry s (.window f) (bits v 16 16) (bits v 8 8) (s.path (.window f)).winOff.toNat ((windowData s f).take (s.path (.window f)).winLen.toNat)
      | 3 => fillWindow f (windowData s f) (infoEntry s (.window f) (bits v 16 16) (bits v 8 8))
      | _ => answer s (.window f) stCmdInvalid [] := by
  rw [windowCmd]
  dsimp only
  rw [if_neg (by simp [hd]), if_neg (by simp [hv])]
  rfl

/-- Bytes with a word put at an offset. -/
def putWord (d : List Byte) (o v : Nat) : List Byte :=
  let d := d ++ List.replicate (o - d.length) 0
  d.take o ++ leBytes 4 v ++ d.drop (o + 4)

/-- A word put at an offset reads back. -/
theorem take_drop_putWord (d : List Byte) (o v : Nat) : ((putWord d o v).drop o).take 4 = leBytes 4 v := by
  have hl : ((d ++ List.replicate (o - d.length) 0).take o).length = o := by simp; omega
  rw [putWord, List.append_assoc, List.drop_left' hl, List.take_left' (length_leBytes ..)]

/-- DATA takes a word (R487). -/
theorem windowWord_data {s : State} {f : Func} {o v : Nat} (h : o + 4 ≤ 61440) :
    windowWord s f (0x1000 + o) v = s.setPath (.window f) { s.path (.window f) with winData := putWord (s.path (.window f)).winData o v } := by
  have ho : 0x1000 + o - 0x1000 = o := by omega
  unfold windowWord
  split
  · omega
  · omega
  · omega
  · dsimp only
    rw [if_neg (by omega), ho]
    rfl

theorem windowWord_winOff (s : State) (f : Func) (v : Nat) :
    windowWord s f 8 v = s.setPath (.window f) { s.path (.window f) with winOff := BitVec.ofNat 32 v } := rfl
theorem windowWord_winLen (s : State) (f : Func) (v : Nat) :
    windowWord s f 0xC v = s.setPath (.window f) { s.path (.window f) with winLen := BitVec.ofNat 32 v } := rfl

/-- The word of a vector's entry in the MSI-X table (R464). -/
theorem msixWord_table (s : State) (f k v : Nat) {w : Nat} (hw : w < 3) : msixWord s f (16 * k + 4 * w) v =
    s.setFunc f { s.func f with msixTable := tput (4 * k + w) (BitVec.ofNat 32 v) (s.func f).msixTable } := by
  rw [msixWord]
  dsimp only
  rw [if_neg (by omega), show 4 * ((16 * k + 4 * w) / 16) + (16 * k + 4 * w) % 16 / 4 = 4 * k + w by omega]
theorem msixWord_mask (s : State) (f k v : Nat) : msixWord s f (16 * k + 12) v = if v.testBit 0 then maskVector s f k else unmaskVector s f k := by
  rw [msixWord]
  dsimp only
  rw [if_pos (by omega), show (16 * k + 12) / 16 = k by omega]
theorem testBit_low (x : Nat) : (bits x 0 32).testBit 0 = x.testBit 0 := by simp [bits_zero]

section
variable {f : Func} {s : State} {v : BitVec 64} (h : hostOpen s f.toNat = true)
include h

theorem bar0Write_doorbell (q : QNum) {off : Nat} (ho : off = 0x100000 + 8 * q.toNat) : bar0Write f off 4 v s = execDoorbellWrite f q 4 v s := by
  rw [bar0Write_aligned h (by omega), if_neg (by omega), if_neg (by omega), if_pos (by omega), if_pos (by omega),
    show (off - 0x100000) / 8 = q.toNat by omega, BitVec.ofNat_toNat, BitVec.setWidth_eq]
theorem bar0Write_semSet (n : SemNum) {off : Nat} (ho : off = 0x200000 + 16 * n.toNat) : bar0Write f off 8 v s = execSemWindowSet f n 8 v s := by
  rw [bar0Write_aligned h (by omega), if_neg (by omega), if_neg (by omega), if_neg (by omega), if_pos (by omega), show off % 16 = 0 by omega,
    show (off - 0x200000) / 16 = n.toNat by omega, BitVec.ofNat_toNat, BitVec.setWidth_eq]
  rfl
theorem bar0Write_semAdd (n : SemNum) {off : Nat} (ho : off = 0x200008 + 16 * n.toNat) : bar0Write f off 8 v s = execSemWindowAdd f n 8 v s := by
  rw [bar0Write_aligned h (by omega), if_neg (by omega), if_neg (by omega), if_neg (by omega), if_pos (by omega), show off % 16 = 8 by omega,
    show (off - 0x200000) / 16 = n.toNat by omega, BitVec.ofNat_toNat, BitVec.setWidth_eq]
  rfl

/-- CMD of the window starts a request (R487). -/
theorem bar0Write_cmd (hd : (s.path (.window f)).descWait = none) (hv : bits v.toNat 4 4 = 0) :
    exec (.registerWrite (.bar0 f 0x10000 4 v)) s = .next (match bits v.toNat 0 4 with
      | 1 => fillWindow f (windowData s f) (readEntry s (.window f) (bits v.toNat 16 16) (bits v.toNat 8 8) (s.path (.window f)).winOff.toNat (s.path (.window f)).winLen.toNat)
      | 2 => if 1024 < (s.path (.window f)).winLen.toNat then answer s (.window f) stCmdInvalid []
          else writeEntry s (.window f) (bits v.toNat 16 16) (bits v.toNat 8 8) (s.path (.window f)).winOff.toNat ((windowData s f).take (s.path (.window f)).winLen.toNat)
      | 3 => fillWindow f (windowData s f) (infoEntry s (.window f) (bits v.toNat 16 16) (bits v.toNat 8 8))
      | _ => answer s (.window f) stCmdInvalid []) := by
  have hw : windowWord s f 0 (bits v.toNat 0 32) = windowCmd s f (bits v.toNat 0 32) := rfl
  refine (bar0Write_window h (by decide) (by decide) (by decide)).trans (congrArg Host.Outcome.next (hw.trans ?_))
  rw [windowCmd_eq hd (by rw [bits_low (by omega), hv])]
  simp only [bits_low (show 0 + 4 ≤ 32 by omega), bits_low (show 8 + 8 ≤ 32 by omega), bits_low (show 16 + 16 ≤ 32 by omega)]
end

/-- Where nothing waits for a host page, nothing is presented again (R283). -/
theorem retryRequests_idle {s : State} (hl : s.load = none) (hp : ∀ e ∈ s.paths, e.2.descWait = none) : retryRequests s = s := by
  have hfold : ∀ (l : List (Nat × PathState)) (t : State), (∀ e ∈ l, e.2.descWait = none) → l.foldl (fun s e =>
      match e.2.descWait with
      | some d => writeEntry (s.setPath (pathAt e.1) { s.path (pathAt e.1) with descWait := none }) (pathAt e.1) 0x4060 2 0 d
      | none => s) t = t := by
    intro l t hl
    induction l with
    | nil => rfl
    | cons e r ih => rw [List.foldl_cons, hl e (by simp)]; exact ih fun x hx => hl x (by simp [hx])
  unfold retryRequests
  rw [hl]
  exact hfold s.paths s hp
theorem retryEvents_idle {s : State} {f : Nat} (h : (s.func f).evWait = []) : retryEvents s f = s.setFunc f (s.func f) := by
  rw [retryEvents]
  dsimp only
  rw [h, List.foldl_nil, ← h]

/-- Settles O29: what a write of each register does, by the command that does the same. -/
theorem registerWriteReachesItsRegister : Obligations.RegisterWriteReachesItsRegister := by
  unfold Obligations.RegisterWriteReachesItsRegister
  refine ⟨fun p i k d s => rfl, fun f s h => ⟨fun off size v => bar0Write_none (.inl h), fun r => congrArg Host.Outcome.next (if_pos (by simp [h]))⟩,
    fun f v s h => ⟨?_, ?_, fun q => ?_, fun n => ⟨?_, ?_⟩, fun k => ⟨fun hk => ?_, fun hk => ?_, fun w hw => ?_⟩, ?_, ?_, fun k hk => ?_, fun off ho => ?_⟩,
    fun f v s h hd hv => ⟨fun hc => ?_, fun hc hl => ?_, fun hc => ?_⟩, fun f s h => ⟨fun b => ⟨?_, ?_⟩, fun n hf hn => ?_, fun n hl hp he => ?_⟩⟩
  · refine (bar0Write_function h (by decide) (by decide)).trans (congrArg Host.Outcome.next ?_)
    rw [← ofNat_low]; rfl
  · refine (bar0Write_function h (by decide) (by decide)).trans (congrArg Host.Outcome.next ?_)
    rw [BitVec.toNat_ofNat, ← bits_zero]; rfl
  · exact bar0Write_doorbell h q (by rw [BitVec.toNat_ofNat]; omega)
  · exact bar0Write_semSet h n (by rw [BitVec.toNat_ofNat]; omega)
  · exact bar0Write_semAdd h n (by rw [BitVec.toNat_ofNat]; omega)
  · have ho : (BitVec.ofNat 26 (0x30000C + 16 * k.toNat)).toNat = 0x300000 + (16 * k.toNat + 12) := by rw [BitVec.toNat_ofNat]; omega
    refine (bar0Write_msix h (by omega) (by omega) (by omega)).trans ?_
    rw [ho, Nat.add_sub_cancel_left, msixWord_mask, testBit_low, if_neg (by simp [hk])]
    exact congrArg Host.Outcome.next (if_pos h).symm
  · have ho : (BitVec.ofNat 26 (0x30000C + 16 * k.toNat)).toNat = 0x300000 + (16 * k.toNat + 12) := by rw [BitVec.toNat_ofNat]; omega
    refine (bar0Write_msix h (by omega) (by omega) (by omega)).trans ?_
    rw [ho, Nat.add_sub_cancel_left, msixWord_mask, testBit_low, if_pos hk]
    rfl
  · have ho : (BitVec.ofNat 26 (0x300000 + 16 * k.toNat + 4 * w)).toNat = 0x300000 + (16 * k.toNat + 4 * w) := by rw [BitVec.toNat_ofNat]; omega
    refine (bar0Write_msix h (by omega) (by omega) (by omega)).trans ?_
    rw [ho, Nat.add_sub_cancel_left, msixWord_table _ _ _ _ hw, ofNat_low]
  · refine (bar0Write_window h (by decide) (by decide) (by decide)).trans (congrArg Host.Outcome.next ?_)
    rw [show (0x10008 : BitVec 26).toNat - 0x10000 = 8 from rfl, windowWord_winOff, ofNat_low]
  · refine (bar0Write_window h (by decide) (by decide) (by decide)).trans (congrArg Host.Outcome.next ?_)
    rw [show (0x1000C : BitVec 26).toNat - 0x10000 = 0xC from rfl, windowWord_winLen, ofNat_low]
  · have ho : (BitVec.ofNat 26 (0x11000 + 4 * k)).toNat = 0x10000 + (0x1000 + 4 * k) := by rw [BitVec.toNat_ofNat]; omega
    have he := bar0Write_window (v := v) h (off := (BitVec.ofNat 26 (0x11000 + 4 * k)).toNat) (by omega) (by omega) (by omega)
    rw [ho, Nat.add_sub_cancel_left, windowWord_data (by omega), ← ho] at he
    refine ⟨_, he, ?_, rfl⟩
    rw [path_setPath_same, ← bits_zero]
    exact take_drop_putWord ..
  · exact bar0Write_none (.inr ho)
  · obtain ⟨hresp, hdata, hframe⟩ := fillWindow_spec f (windowData s f) (readEntry s (.window f) (bits v.toNat 16 16) (bits v.toNat 8 8)
      (s.path (.window f)).winOff.toNat (s.path (.window f)).winLen.toNat)
    refine ⟨_, _, (bar0Write_cmd h hd hv).trans (by rw [hc]), rfl, ?_⟩
    rw [toNat_ofNat_bits, toNat_ofNat_bits]
    exact ⟨hresp, hdata, hframe⟩
  · rw [bar0Write_cmd h hd hv, hc]
    refine congrArg Host.Outcome.next ((if_neg (by omega)).trans ?_)
    rw [toNat_ofNat_bits, toNat_ofNat_bits]; rfl
  · obtain ⟨hresp, hdata, hframe⟩ := fillWindow_spec f (windowData s f) (infoEntry s (.window f) (bits v.toNat 16 16) (bits v.toNat 8 8))
    refine ⟨_, _, (bar0Write_cmd h hd hv).trans (by rw [hc]), rfl, ?_⟩
    rw [toNat_ofNat_bits, toNat_ofNat_bits]
    exact ⟨hresp, hdata, hframe⟩
  · exact congrArg Host.Outcome.next (if_neg (by simp [h]))
  · exact congrArg Host.Outcome.next (if_neg (by simp [h]))
  · refine ⟨_, congrArg Host.Outcome.next ((if_neg (by simp [h])).trans ((if_pos hf).trans (if_neg (by omega)))), ?_⟩
    rw [hport_setHport_same]
  · have hw : pcieWrite s f (.pageRequests n) =
        retryRequests (retryEvents (s.setFunc f.toNat { s.func f.toNat with priAlloc := n }) f.toNat) := if_neg (by simp [h])
    refine congrArg Host.Outcome.next (hw.trans ?_)
    rw [retryEvents_idle (by rw [func_setFunc_same]; exact he), func_setFunc_same, setFunc_setFunc]
    exact retryRequests_idle hl hp

end Sys2Proof.Machine
end

section
/-! Settings of the torus, of layers, and invalidation requests (O32). -/

namespace Sys2Proof.Machine

/-- A state whose store holds other banks. -/
def withBanks (s : State) (b c : Bank) (j : Nat) : State := { s with dict := { s.dict with bank0 := b, bank1 := c, journal := j } }

@[simp] theorem withBanks_time (s : State) (b c : Bank) (j : Nat) : (withBanks s b c j).time = s.time := rfl
@[simp] theorem withBanks_ports (s : State) (b c : Bank) (j : Nat) : (withBanks s b c j).ports = s.ports := rfl
@[simp] theorem withBanks_hosts (s : State) (b c : Bank) (j : Nat) : (withBanks s b c j).hosts = s.hosts := rfl
@[simp] theorem withBanks_funcs (s : State) (b c : Bank) (j : Nat) : (withBanks s b c j).funcs = s.funcs := rfl
@[simp] theorem withBanks_assign (s : State) (b c : Bank) (j : Nat) : (withBanks s b c j).assign = s.assign := rfl
@[simp] theorem withBanks_queues (s : State) (b c : Bank) (j : Nat) : (withBanks s b c j).queues = s.queues := rfl
@[simp] theorem withBanks_turns (s : State) (b c : Bank) (j : Nat) : (withBanks s b c j).turns = s.turns := rfl
@[simp] theorem withBanks_sems (s : State) (b c : Bank) (j : Nat) : (withBanks s b c j).sems = s.sems := rfl
@[simp] theorem withBanks_jobs (s : State) (b c : Bank) (j : Nat) : (withBanks s b c j).jobs = s.jobs := rfl
@[simp] theorem withBanks_redJobs (s : State) (b c : Bank) (j : Nat) : (withBanks s b c j).redJobs = s.redJobs := rfl
@[simp] theorem withBanks_ctxs (s : State) (b c : Bank) (j : Nat) : (withBanks s b c j).ctxs = s.ctxs := rfl
@[simp] theorem withBanks_aborts (s : State) (b c : Bank) (j : Nat) : (withBanks s b c j).aborts = s.aborts := rfl
@[simp] theorem withBanks_abortStatus (s : State) (b c : Bank) (j : Nat) : (withBanks s b c j).abortStatus = s.abortStatus := rfl
@[simp] theorem withBanks_load (s : State) (b c : Bank) (j : Nat) : (withBanks s b c j).load = s.load := rfl
@[simp] theorem withBanks_arrays (s : State) (b c : Bank) (j : Nat) : (withBanks s b c j).arrays = s.arrays := rfl
@[simp] theorem withBanks_repairStatus (s : State) (b c : Bank) (j : Nat) : (withBanks s b c j).repairStatus = s.repairStatus := rfl
@[simp] theorem withBanks_samples (s : State) (b c : Bank) (j : Nat) : (withBanks s b c j).samples = s.samples := rfl
@[simp] theorem withBanks_masks (s : State) (b c : Bank) (j : Nat) : (withBanks s b c j).masks = s.masks := rfl
@[simp] theorem withBanks_mem (s : State) (b c : Bank) (j : Nat) : (withBanks s b c j).mem = s.mem := rfl
@[simp] theorem withBanks_poison (s : State) (b c : Bank) (j : Nat) : (withBanks s b c j).poison = s.poison := rfl
@[simp] theorem withBanks_hostMem (s : State) (b c : Bank) (j : Nat) : (withBanks s b c j).hostMem = s.hostMem := rfl
@[simp] theorem withBanks_msys (s : State) (b c : Bank) (j : Nat) : (withBanks s b c j).msys = s.msys := rfl
@[simp] theorem withBanks_trust (s : State) (b c : Bank) (j : Nat) : (withBanks s b c j).trust = s.trust := rfl
@[simp] theorem withBanks_power (s : State) (b c : Bank) (j : Nat) : (withBanks s b c j).power = s.power := rfl
@[simp] theorem withBanks_path (s : State) (b c : Bank) (j : Nat) (p : Path) : (withBanks s b c j).path p = s.path p := rfl
@[simp] theorem withBanks_reg (s : State) (b c : Bank) (j i k : Nat) : (withBanks s b c j).reg i k = s.reg i k := rfl
@[simp] theorem withBanks_array (s : State) (b c : Bank) (j a : Nat) : (withBanks s b c j).array a = s.array a := rfl
@[simp] theorem withBanks_port (s : State) (b c : Bank) (j : Nat) (p : Port) : (withBanks s b c j).port p = s.port p := rfl
@[simp] theorem withBanks_queue (s : State) (b c : Bank) (j : Nat) (q : QNum) : (withBanks s b c j).queue q = s.queue q := rfl
@[simp] theorem withBanks_sem (s : State) (b c : Bank) (j n : Nat) : (withBanks s b c j).sem n = s.sem n := rfl
@[simp] theorem withBanks_func (s : State) (b c : Bank) (j n : Nat) : (withBanks s b c j).func n = s.func n := rfl
@[simp] theorem withBanks_job? (s : State) (b c : Bank) (j n : Nat) : (withBanks s b c j).job? n = s.job? n := rfl
@[simp] theorem withBanks_assigned (s : State) (b c : Bank) (j k n : Nat) : (withBanks s b c j).assigned k n = s.assigned k n := rfl

@[simp] theorem answer_hosts (s : State) (p : Path) (st : Nat) (d : List Byte) : (answer s p st d).hosts = s.hosts := rfl
@[simp] theorem answer_funcs (s : State) (p : Path) (st : Nat) (d : List Byte) : (answer s p st d).funcs = s.funcs := rfl
@[simp] theorem answer_assign (s : State) (p : Path) (st : Nat) (d : List Byte) : (answer s p st d).assign = s.assign := rfl
@[simp] theorem answer_turns (s : State) (p : Path) (st : Nat) (d : List Byte) : (answer s p st d).turns = s.turns := rfl
@[simp] theorem answer_redJobs (s : State) (p : Path) (st : Nat) (d : List Byte) : (answer s p st d).redJobs = s.redJobs := rfl
@[simp] theorem answer_ctxs (s : State) (p : Path) (st : Nat) (d : List Byte) : (answer s p st d).ctxs = s.ctxs := rfl
@[simp] theorem answer_aborts (s : State) (p : Path) (st : Nat) (d : List Byte) : (answer s p st d).aborts = s.aborts := rfl
@[simp] theorem answer_abortStatus (s : State) (p : Path) (st : Nat) (d : List Byte) : (answer s p st d).abortStatus = s.abortStatus := rfl
@[simp] theorem answer_load (s : State) (p : Path) (st : Nat) (d : List Byte) : (answer s p st d).load = s.load := rfl
@[simp] theorem answer_repairStatus (s : State) (p : Path) (st : Nat) (d : List Byte) : (answer s p st d).repairStatus = s.repairStatus := rfl
@[simp] theorem answer_samples (s : State) (p : Path) (st : Nat) (d : List Byte) : (answer s p st d).samples = s.samples := rfl
@[simp] theorem answer_masks (s : State) (p : Path) (st : Nat) (d : List Byte) : (answer s p st d).masks = s.masks := rfl
@[simp] theorem answer_poison (s : State) (p : Path) (st : Nat) (d : List Byte) : (answer s p st d).poison = s.poison := rfl
@[simp] theorem answer_hostMem (s : State) (p : Path) (st : Nat) (d : List Byte) : (answer s p st d).hostMem = s.hostMem := rfl
@[simp] theorem answer_msys (s : State) (p : Path) (st : Nat) (d : List Byte) : (answer s p st d).msys = s.msys := rfl
@[simp] theorem answer_reg (s : State) (p : Path) (st : Nat) (d : List Byte) (i k : Nat) : (answer s p st d).reg i k = s.reg i k := rfl
@[simp] theorem answer_array (s : State) (p : Path) (st : Nat) (d : List Byte) (a : Nat) : (answer s p st d).array a = s.array a := rfl
@[simp] theorem answer_port (s : State) (p : Path) (st : Nat) (d : List Byte) (n : Port) : (answer s p st d).port n = s.port n := rfl
@[simp] theorem answer_queue (s : State) (p : Path) (st : Nat) (d : List Byte) (q : QNum) : (answer s p st d).queue q = s.queue q := rfl
@[simp] theorem answer_sem (s : State) (p : Path) (st : Nat) (d : List Byte) (n : Nat) : (answer s p st d).sem n = s.sem n := rfl
@[simp] theorem answer_func (s : State) (p : Path) (st : Nat) (d : List Byte) (n : Nat) : (answer s p st d).func n = s.func n := rfl
@[simp] theorem answer_job? (s : State) (p : Path) (st : Nat) (d : List Byte) (n : Nat) : (answer s p st d).job? n = s.job? n := rfl
@[simp] theorem answer_assigned (s : State) (p : Path) (st : Nat) (d : List Byte) (k n : Nat) : (answer s p st d).assigned k n = s.assigned k n := rfl

/-- A write of an entry with an action of its own that passes: the state that the action leaves, but for the store's banks and the response. -/
theorem writeEntry_low {s t : State} {p : Path} {d : List Byte} (i k : Nat) (hc : writeCheck s p i k 0 d.length = stOk)
    (ha : lowAction s p i k (leNat d) d = some (stOk, t)) (hn : claimants.contains (i, k) = false := by rfl) (hi : i < 0x4000 := by decide) :
    ∃ b c j, writeEntry s p i k 0 d = answer (withBanks t b c j) p stOk [] :=
  writeEntry_answers hc (writeEffect_low hn hi ha)
theorem writeEntry_high {s t : State} {p : Path} {d : List Byte} (i k : Nat) (hc : writeCheck s p i k 0 d.length = stOk)
    (ha : highAction s p i k 0 (leNat d) d = some (stOk, t)) (hn : claimants.contains (i, k) = false := by rfl) (hi : ¬ i < 0x4000 := by decide) :
    ∃ b c j, writeEntry s p i k 0 d = answer (withBanks t b c j) p stOk [] :=
  writeEntry_answers hc (writeEffect_high hn hi ha)

/-! ### Settings of the torus, of layers, and invalidation requests (O32) -/

theorem eventFree_regs : EventFree fun s => s.dict.regs := eventFree_dict Dict.regs fun _ _ => rfl

@[simp] theorem noteFault_regs (s : State) (c : Nat) : (noteFault s c).dict.regs = s.dict.regs := by unfold noteFault; split <;> rfl
@[simp] theorem bbWrite_regs (s : State) (a b c : Nat) (d : List Byte) (n : Nat) (x : Bool) : (bbWrite s a b c d n x).dict.regs = s.dict.regs := by
  unfold bbWrite bbAppend; dsimp only; (repeat' split) <;> rfl
@[simp] theorem postAll_regs (s : State) (c : Nat) (d : List Byte) : (postAll s c d).dict.regs = s.dict.regs :=
  eventFree_regs.postTo (fun s c => noteFault_regs s c) s _ c d
@[simp] theorem runChecks_regs (s : State) (p : Port) : (runChecks s p).dict.regs = s.dict.regs := by
  unfold runChecks; dsimp only; (repeat' split) <;> simp
/-- One port of recheckPorts: a held one checks again (R424). -/
def recheckPort (s : State) (p : Port) : State :=
  if (s.port p).st = .held then sendMgmt (sendMgmt (runChecks s p) p (identMsg s p)) p (mgmtMsg 7 []) else s
theorem recheckPorts_eq (s : State) : recheckPorts s = ((List.range 8).map fun n => BitVec.ofNat 3 n).foldl recheckPort s := rfl

@[simp] theorem recheckPorts_regs (s : State) : (recheckPorts s).dict.regs = s.dict.regs := by
  rw [recheckPorts_eq]
  refine foldl_keeps (fun s : State => s.dict.regs) recheckPort (fun s p => ?_) _ s
  unfold recheckPort
  split
  · rw [sendMgmt, State.setPort_dict, sendMgmt, State.setPort_dict, runChecks_regs]
  · rfl

@[simp] theorem markDone_dict (s : State) (q : QNum) (i : BitVec 16) (st : Nat) : (markDone s q i st).dict = s.dict := rfl
@[simp] theorem stopChain_dict (s : State) (q : QNum) (st : Nat) : (stopChain s q st).dict = s.dict := by
  unfold stopChain
  dsimp only
  (repeat' split) <;> simp
@[simp] theorem stopChainsOn_dict (s : State) (p : Port) : (stopChainsOn s p).dict = s.dict :=
  foldl_keeps State.dict (fun s (e : Nat × Ctx) => stopChain s (BitVec.ofNat 15 e.1) stOffline) (fun _ _ => stopChain_dict ..) _ s
@[simp] theorem disablePort_dict (s : State) (p : Port) : (disablePort s p).dict = s.dict := by
  unfold disablePort
  dsimp only
  split <;> simp

/-- One port of settlePorts: it follows whether it may train (R421). -/
def settlePort (s : State) (p : Port) : State :=
  if mayTrain s p then
    (if (s.port p).st = .disabled then s.setPort p ((s.port p).cleared .detect 0) else s)
  else if (s.port p).st = .disabled then s else disablePort s p
theorem settlePorts_eq (s : State) : settlePorts s = ((List.range 8).map fun n => BitVec.ofNat 3 n).foldl settlePort s := rfl

@[simp] theorem settlePort_dict (s : State) (p : Port) : (settlePort s p).dict = s.dict := by
  unfold settlePort
  (repeat' split) <;> simp
@[simp] theorem settlePorts_dict (s : State) : (settlePorts s).dict = s.dict := by
  rw [settlePorts_eq]
  exact foldl_keeps State.dict settlePort settlePort_dict _ s
@[simp] theorem settlePorts_reg (s : State) (i k : Nat) : (settlePorts s).reg i k = s.reg i k := reg_congr (by rw [settlePorts_dict]) i k
@[simp] theorem recheckPorts_reg (s : State) (i k : Nat) : (recheckPorts s).reg i k = s.reg i k := reg_congr (recheckPorts_regs s) i k

theorem port_congr {s t : State} (h : t.ports = s.ports) (p : Port) : t.port p = s.port p := by rw [State.port, h]; rfl

theorem port_disablePort (s : State) (p q : Port) :
    (disablePort s p).port q = if q = p then (s.port p).cleared .disabled (s.port p).reason else s.port q := by
  have hs : ∀ (t : State), (stopChainsOn t p).port q = t.port q := fun t => port_congr (stopChainsOn_ports t p) q
  unfold disablePort
  dsimp only
  by_cases h : q = p
  · subst h; split <;> simp [hs]
  · split <;> simp [hs, h, port_setPort_ne]

theorem port_settlePort_ne (s : State) {p q : Port} (h : q ≠ p) : (settlePort s p).port q = s.port q := by
  unfold settlePort
  (repeat' split) <;> simp [port_disablePort, port_setPort_ne, h]
/-- A port that is not enabled does not train (R421). -/
theorem settlePort_disabled {s : State} {p : Port} (h : (s.reg 0x3400 4).testBit p.toNat = false) : ((settlePort s p).port p).st = .disabled := by
  unfold settlePort
  rw [if_neg (by simp [mayTrain, h])]
  split
  · next hd => exact hd
  · simp [port_disablePort, PortState.cleared]
theorem settleAll_disabled (l : List Port) (s : State) {p : Port} (h : (s.reg 0x3400 4).testBit p.toNat = false)
    (hp : p ∈ l ∨ (s.port p).st = .disabled) : ((l.foldl settlePort s).port p).st = .disabled := by
  induction l generalizing s with
  | nil => simpa using hp
  | cons q r ih =>
    have hr : ((settlePort s q).reg 0x3400 4).testBit p.toNat = false := (congrArg (fun x : Nat => x.testBit p.toNat) (reg_congr (by rw [settlePort_dict]) _ _)).trans h
    refine ih _ hr ?_
    by_cases hq : p = q
    · subst hq; exact .inr (settlePort_disabled h)
    · rw [port_settlePort_ne s hq]
      simpa [hq] using hp
theorem mem_allPorts (p : Port) : p ∈ (List.range 8).map fun n => BitVec.ofNat 3 n :=
  List.mem_map.mpr ⟨p.toNat, List.mem_range.mpr p.isLt, by simp⟩
theorem settlePorts_disabled {s : State} {p : Port} (h : (s.reg 0x3400 4).testBit p.toNat = false) : ((settlePorts s).port p).st = .disabled := by
  rw [settlePorts_eq]
  exact settleAll_disabled _ s h (.inl (mem_allPorts p))

theorem leNat_leBytes_word (v : BitVec 32) : leNat (leBytes 4 v.toNat) = v.toNat := by rw [leNat_leBytes]; exact Nat.mod_eq_of_lt v.isLt

theorem bits_eq (x lo n : Nat) : bits x lo n = x / 2 ^ lo % 2 ^ n := by rw [bits, Nat.shiftRight_eq_div_pow]

/-- A write of a layer's field that waits or is in force at once (R237, R243). -/
theorem layerWrite_eq {s : State} {p : Path} {j : Job} (g : Job → Layer → Layer) (h : selectedJob s p 0x5010 1 = some j) :
    layerWrite s p g = (stOk, s.setJob (s.selector p 0x5010 1) { j with layers := tput (s.selector p 0x5020 1) (g j (j.layer (s.selector p 0x5020 1))) j.layers }) := by
  rw [layerWrite, h]
theorem layer_put (j : Job) (k : Nat) (x : Layer) : ({ j with layers := tput k x j.layers } : Job).layer k = x := tget_tput_same ..

theorem selectedJob_of_layer {s : State} {p : Path} {x : Layer} (h : selectedLayer s p = some x) :
    ∃ j, selectedJob s p 0x5010 1 = some j ∧ j.layer (s.selector p 0x5020 1) = x := by
  rw [selectedLayer, Option.map_eq_some_iff] at h
  exact h

theorem startInval_spec (s : State) (f : Func) (scope va : Nat) :
    (s.msys.inval = none → (startInval s f scope va).msys.inval = some (f, BitVec.ofNat 8 scope, BitVec.ofNat 64 va)) ∧
      (s.msys.inval ≠ none → (startInval s f scope va).msys.inval = s.msys.inval ∧
        (startInval s f scope va).msys.invalQ = s.msys.invalQ ++ [(f, BitVec.ofNat 8 scope, BitVec.ofNat 64 va)]) := by
  unfold startInval
  cases h : s.msys.inval <;> simp [h]

/-- What R311 asks of an invalidation request. -/
theorem invalWrite_eq {s : State} {p : Path} {d : List Byte} (hf : byteField d 0 1 < 128) (hp : ∀ g, pathFunc p = some g → byteField d 0 1 = g)
    (hs : byteField d 1 1 ≤ 3) (hr : byteField d 2 6 = 0)
    (ha : byteField d 1 1 = 3 ∨ byteField d 8 8 % (if byteField d 1 1 = 0 then 2 ^ 16 else if byteField d 1 1 = 1 then 2 ^ 21 else 2 ^ 30) = 0) :
    invalWrite s p d = (stOk, startInval s (BitVec.ofNat 7 (byteField d 0 1)) (byteField d 1 1) (byteField d 8 8)) := by
  have hpath : (match pathFunc p with | some g => byteField d 0 1 != g | none => false) = false := by
    cases h : pathFunc p with
    | none => rfl
    | some g => simp [hp g h]
  have hal : byteField d 1 1 ≠ 3 → byteField d 8 8 % [2 ^ 16, 2 ^ 21, 2 ^ 30].getD (byteField d 1 1) 1 = 0 := fun h3 => by
    have h := ha.resolve_left h3
    have : byteField d 1 1 = 0 ∨ byteField d 1 1 = 1 ∨ byteField d 1 1 = 2 := by omega
    rcases this with e | e | e <;> rw [e] at h ⊢ <;> simpa using h
  rw [invalWrite]
  rw [if_neg (by rw [Bool.not_eq_true]; exact hpath), if_neg]
  rintro (h | h | h | ⟨h, h'⟩)
  · omega
  · omega
  · omega
  · exact h' (hal h)

/-- Settles O32: what the writes of the torus and of layers and the invalidation requests change. -/
theorem torusAndLayerSettings : Obligations.TorusAndLayerSettings := by
  unfold Obligations.TorusAndLayerSettings
  refine ⟨⟨fun p v s hc hb => ?_, fun p v s hc hb => ?_, fun p v s hc => ?_⟩, fun p v s x hc hx h0 h1 h2 h3 => ?_, fun p v s j hc hv hj => ?_,
    fun p d s hc hl hf hp hs hr ha => ?_⟩
  · obtain ⟨b, c, j, e⟩ := writeEntry_low (d := leBytes 4 v.toNat) (t := recheckPorts (s.setReg 0x3400 2 v.toNat)) 0x3400 2 hc
      (by rw [leNat_leBytes_word]; exact congrArg some (if_pos hb))
    refine ⟨_, congrArg Host.Outcome.next e, by simp [stOk], ?_, by simp, by simp⟩
    rw [answer_reg, withBanks_reg, recheckPorts_reg, reg_setReg, if_pos rfl]
  · obtain ⟨b, c, j, e⟩ := writeEntry_low (d := leBytes 4 v.toNat) (t := recheckPorts (settlePorts (s.setReg 0x3400 3 v.toNat))) 0x3400 3 hc
      (by rw [leNat_leBytes_word]; exact congrArg some (if_pos hb))
    refine ⟨_, congrArg Host.Outcome.next e, by simp [stOk], ?_, by simp⟩
    rw [answer_reg, withBanks_reg, recheckPorts_reg, settlePorts_reg, reg_setReg, if_pos rfl]
  · obtain ⟨b, c, j, e⟩ := writeEntry_low (d := [v]) (t := settlePorts (s.setReg 0x3400 4 v.toNat)) 0x3400 4 hc (by rw [leNat_byte]; rfl)
    have hreg : (s.setReg 0x3400 4 v.toNat).reg 0x3400 4 = v.toNat := (reg_setReg ..).trans (if_pos rfl)
    refine ⟨_, congrArg Host.Outcome.next e, by simp [stOk], ?_, fun n hn => ?_, by simp, by simp⟩
    · rw [answer_reg, withBanks_reg, settlePorts_reg, hreg]
    · rw [answer_port, withBanks_port]
      exact settlePorts_disabled (by rw [hreg]; exact hn)
  · obtain ⟨j, hj, rfl⟩ := selectedJob_of_layer hx
    have ha : recipeEntryWrite s p v.toNat = layerWrite s p fun _ x => { x with pending := some (BitVec.ofNat 32 (v.toNat % 2 ^ 20)) } := by
      rw [recipeEntryWrite, hx]
      dsimp only
      rw [if_pos]
      simp only [bits_eq, pow_zero, Nat.div_one, show (2 : Nat) ^ 5 = 32 from rfl] at h1 h2 h3 ⊢
      simp only [h0, h1, h2, h3, Bool.and_self]
    rw [layerWrite_eq _ hj] at ha
    obtain ⟨b, c, n, e⟩ := writeEntry_high (d := leBytes 4 v.toNat) 0x5020 2 hc (by rw [leNat_leBytes_word]; exact congrArg some ha)
    exact ⟨_, _, congrArg Host.Outcome.next e, by simp [stOk], job?_setJob_same .., by rw [layer_put], rfl, rfl⟩
  · have ha : crimalWrite s p v.toNat = _ := (if_neg (by omega)).trans (layerWrite_eq _ hj)
    obtain ⟨b, c, n, e⟩ := writeEntry_high (d := [v]) 0x5020 7 hc (by rw [leNat_byte]; exact congrArg some ha)
    refine ⟨_, _, congrArg Host.Outcome.next e, by simp [stOk], job?_setJob_same .., ?_, rfl, rfl⟩
    rw [layer_put, BitVec.ofNat_toNat, BitVec.setWidth_eq]
  · obtain ⟨b, c, n, e⟩ := writeEntry_high 0x4021 1 (by rw [hl]; exact hc) (congrArg some (invalWrite_eq hf hp hs hr ha))
    obtain ⟨hnone, hsome⟩ := startInval_spec s (BitVec.ofNat 7 (byteField d 0 1)) (byteField d 1 1) (byteField d 8 8)
    exact ⟨_, congrArg Host.Outcome.next e, by simp [stOk], hnone, hsome, by simp, by simp⟩

end Sys2Proof.Machine
end

section
/-! Assignments (O31). -/

namespace Sys2Proof.Machine

/-! ### Assignments (O31) -/

section
variable (kind f : BitVec 8) (op : Byte) (first count : BitVec 32)

theorem assignBytes_eq : assignBytes kind op f first count =
    [kind, op, f, 0] ++ (leBytes 4 first.toNat ++ (leBytes 4 count.toNat ++ [0, 0, 0, 0])) := by simp [assignBytes]
theorem length_assignBytes : (assignBytes kind op f first count).length = 16 := by simp [assignBytes, length_leBytes]
theorem assignBytes_kind : byteField (assignBytes kind op f first count) 0 1 = kind.toNat := by simp [assignBytes, byteField, leNat]
theorem assignBytes_op : byteField (assignBytes kind op f first count) 1 1 = op.toNat := by simp [assignBytes, byteField, leNat]
theorem assignBytes_func : byteField (assignBytes kind op f first count) 2 1 = f.toNat := by simp [assignBytes, byteField, leNat]
theorem assignBytes_pad : byteField (assignBytes kind op f first count) 3 1 = 0 := by simp [assignBytes, byteField, leNat]
theorem assignBytes_first : byteField (assignBytes kind op f first count) 4 4 = first.toNat := by
  rw [assignBytes_eq, byteField, List.drop_left' (show [kind, op, f, 0].length = 4 from rfl), List.take_left' (length_leBytes ..), leNat_leBytes_word]
theorem assignBytes_count : byteField (assignBytes kind op f first count) 8 4 = count.toNat := by
  rw [assignBytes_eq, ← List.append_assoc, byteField, List.drop_left' (by simp [length_leBytes]), List.take_left' (length_leBytes ..), leNat_leBytes_word]
theorem assignBytes_end : byteField (assignBytes kind op f first count) 12 4 = 0 := by
  rw [assignBytes_eq, ← List.append_assoc, ← List.append_assoc, byteField, List.drop_left' (by simp [length_leBytes])]
  rfl
end

/-- The items of an assignment cannot be reassigned: the path's function may not assign one, or a function that would lose one holds it (R473, R474). -/
def assignHeld (s : State) (p : Path) (kind op f first count : Nat) : Prop :=
  ∃ n, first ≤ n ∧ n < first + count ∧ (assigner s p kind f n = false ∨
    ∃ g ∈ losers s kind op f n, itemHeld s (fun g => if ownsJob s g then unitsHeld s g else []) kind n g = true)

theorem lt_of_mem_losers {s : State} {kind op f n g : Nat} (h : g ∈ losers s kind op f n) : g < 128 :=
  List.mem_range.mp (List.mem_filter.mp h).1

/-- The table of the units that each function's jobs hold serves the items of kind 3 alone. -/
theorem itemHeld_tab {s : State} {kind n g : Nat} (hk : kind = 1 ∨ kind = 2 ∨ kind = 3) (hg : g < 128) :
    itemHeld s (fun g => (if kind = 3 then (List.range 128).map fun g => if ownsJob s g then unitsHeld s g else [] else []).getD g []) kind n g =
      itemHeld s (fun g => if ownsJob s g then unitsHeld s g else []) kind n g := by
  rcases hk with rfl | rfl | rfl
  · rfl
  · rfl
  · simp [itemHeld, List.getD, List.getElem?_map, List.getElem?_range hg]

theorem kind_of_itemsOk {kind first count : Nat} (h : itemsOk kind first count = true) : (kind = 1 ∨ kind = 2 ∨ kind = 3) ∧ first + count ≤ 65536 := by
  unfold itemsOk at h
  rw [Bool.and_eq_true] at h
  obtain ⟨_, h⟩ := h
  split at h
  · simp at h; omega
  · simp at h; omega
  · simp at h; omega
  · simp at h

theorem assignWrite_eq {s : State} {p : Path} {kind f : BitVec 8} {op : Byte} {first count : BitVec 32} (hop : op.toNat ≤ 2) (hf : f.toNat < 128)
    (hi : itemsOk kind.toNat first.toNat count.toNat = true) (hs : kind = 1 → op ≠ 1) :
    (assignHeld s p kind.toNat op.toNat f.toNat first.toNat count.toNat → assignWrite s p (assignBytes kind op f first count) = (stHeld, s)) ∧
      (¬ assignHeld s p kind.toNat op.toNat f.toNat first.toNat count.toNat → assignWrite s p (assignBytes kind op f first count) =
        (stOk, (rangeFrom first.toNat count.toNat).foldl (reassign kind.toNat op.toNat f.toNat) s)) := by
  obtain ⟨hk, _⟩ := kind_of_itemsOk hi
  have hs' : ¬ (kind.toNat = 1 ∧ op.toNat = 1) := fun ⟨h1, h2⟩ => hs (BitVec.eq_of_toNat_eq h1) (BitVec.eq_of_toNat_eq h2)
  have hany : ((rangeFrom first.toNat count.toNat).any fun i => !assigner s p kind.toNat f.toNat i || (losers s kind.toNat op.toNat f.toNat i).any fun g =>
      itemHeld s (fun g => (if kind.toNat = 3 then (List.range 128).map fun g => if ownsJob s g then unitsHeld s g else [] else []).getD g []) kind.toNat i g) = true ↔
      assignHeld s p kind.toNat op.toNat f.toNat first.toNat count.toNat := by
    simp only [List.any_eq_true, mem_rangeFrom, Bool.or_eq_true, Bool.not_eq_true', assignHeld, and_assoc]
    refine exists_congr fun n => and_congr_right fun _ => and_congr_right fun _ => or_congr_right (exists_congr fun g => and_congr_right fun hg => ?_)
    rw [itemHeld_tab hk (lt_of_mem_losers hg)]
  have hbad : ¬ ((0 : Nat) ≠ 0 ∨ (0 : Nat) ≠ 0 ∨ 2 < op.toNat ∨ 127 < f.toNat ∨ (!itemsOk kind.toNat first.toNat count.toNat) = true ∨ (kind.toNat = 1 ∧ op.toNat = 1)) := by
    rintro (h | h | h | h | h | h)
    · exact h rfl
    · exact h rfl
    · omega
    · omega
    · simp [hi] at h
    · exact hs' h
  simp only [assignWrite, assignBytes_kind, assignBytes_op, assignBytes_func, assignBytes_pad, assignBytes_first, assignBytes_count, assignBytes_end]
  rw [if_neg hbad]
  exact ⟨fun h => if_pos (hany.mpr h), fun h => if_neg (mt hany.mp h)⟩

/-- The functions of an item after an assignment of it (R473). -/
def reassigned (op f : Nat) (x : BitVec 128) : BitVec 128 :=
  match op with
  | 0 => BitVec.ofNat 128 (2 ^ f)
  | 1 => x ||| BitVec.ofNat 128 (2 ^ f)
  | _ => x &&& ~~~ BitVec.ofNat 128 (2 ^ f)

theorem assigned_reassign {s : State} {kind op f i k n : Nat} (hi : i < 2 ^ 32) (hn : n < 2 ^ 32) :
    (reassign kind op f s i).assigned k n = if k = kind ∧ n = i then reassigned op f (s.assigned k n) else s.assigned k n := by
  have hkey : 2 ^ 32 * k + n = 2 ^ 32 * kind + i ↔ k = kind ∧ n = i := by omega
  have he : (reassign kind op f s i).assigned k n =
      if 2 ^ 32 * k + n = 2 ^ 32 * kind + i then reassigned op f (s.assigned kind i) else s.assigned k n := tget_tput ..
  rw [he]
  by_cases h : k = kind ∧ n = i
  · rw [if_pos (hkey.mpr h), if_pos h, h.1, h.2]
  · rw [if_neg (mt hkey.mp h), if_neg h]

theorem assigned_reassignAll {kind op f : Nat} {l : List Nat} (hl : ∀ i ∈ l, i < 2 ^ 32) (hd : l.Nodup) (s : State) {k n : Nat} (hn : n < 2 ^ 32) :
    (l.foldl (reassign kind op f) s).assigned k n = if k = kind ∧ n ∈ l then reassigned op f (s.assigned k n) else s.assigned k n := by
  induction l generalizing s with
  | nil => simp
  | cons i r ih =>
    obtain ⟨hi, hr⟩ := List.nodup_cons.mp hd
    rw [List.foldl_cons, ih (fun j hj => hl j (by simp [hj])) hr, assigned_reassign (hl i (by simp)) hn]
    by_cases hk : k = kind ∧ n = i
    · rw [if_pos hk, hk.2, if_neg (fun h => hi h.2), if_pos ⟨hk.1, by simp⟩]
    · rw [if_neg hk]
      refine if_congr (and_congr_right fun e => ?_) rfl rfl
      simp [show n ≠ i from fun h => hk ⟨e, h⟩]

theorem nodup_rangeFrom (lo n : Nat) : (rangeFrom lo n).Nodup := List.nodup_range.map fun _ _ h => by simpa using h

/-- Settles O31: an assignment gives each item its functions, and one that may not be made changes nothing. -/
theorem assignmentsChange : Obligations.AssignmentsChange := by
  unfold Obligations.AssignmentsChange
  intro p kind f first count s op i hop hc hf hi hs
  have hop2 : op.toNat ≤ 2 := by rcases hop with ⟨rfl, _⟩ | ⟨rfl, _⟩ | ⟨rfl, _⟩ <;> decide
  have he : exec i s = .next (writeEntry s p 0x1100 5 0 (assignBytes kind op f first count)) := by
    rcases hop with ⟨rfl, rfl⟩ | ⟨rfl, rfl⟩ | ⟨rfl, rfl⟩ <;> rfl
  have hc' : writeCheck s p 0x1100 5 0 (assignBytes kind op f first count).length = stOk := by rw [length_assignBytes]; exact hc
  obtain ⟨hheld, hdone⟩ := assignWrite_eq (s := s) (p := p) hop2 hf hi hs
  refine ⟨fun h => ?_, fun h => ?_⟩
  · have hnot : ¬ assignHeld s p kind.toNat op.toNat f.toNat first.toNat count.toNat := by
      rintro ⟨n, h1, h2, hn⟩
      obtain ⟨ha, hg⟩ := h n h1 h2
      rcases hn with hn | ⟨g, hg', hn⟩
      · rw [ha] at hn; exact absurd hn (by decide)
      · rw [hg g hg'] at hn; exact absurd hn (by decide)
    obtain ⟨b, c, j, e⟩ := writeEntry_low 0x1100 5 hc' (congrArg some (hdone hnot))
    have hlt := (kind_of_itemsOk hi).2
    refine ⟨_, he.trans (congrArg Host.Outcome.next e), by simp [stOk], fun k n hn => ?_, ?_, ?_, ?_, ?_⟩
    · rw [answer_assigned, withBanks_assigned, assigned_reassignAll (fun i hi => by have := mem_rangeFrom.mp hi; omega) (nodup_rangeFrom ..) s hn]
      refine if_congr (and_congr_right fun _ => mem_rangeFrom) ?_ rfl
      rcases hop with ⟨rfl, _⟩ | ⟨rfl, _⟩ | ⟨rfl, _⟩ <;> rfl
    · simp
    · simp
    · simp
    · simp
  · have e := writeEntry_failed hc' (writeEffect_low rfl (by decide) (congrArg some (hheld h))) (by decide) (by decide)
    exact ⟨_, he.trans (congrArg Host.Outcome.next e), by simp, rfl⟩

end Sys2Proof.Machine
end

section
/-! Repairs and core replacement (O33). -/

namespace Sys2Proof.Machine

/-! ### Repairs and core replacement (O33) -/

theorem array_congr {s t : State} (h : t.arrays = s.arrays) (a : Nat) : t.array a = s.array a := by rw [State.array, h]; rfl
theorem freeSpare_congr {s t : State} (h : t.trust = s.trust) (d : Nat) : freeSpare t d = freeSpare s d := by rw [freeSpare, h]; rfl

/-- A raised request for a spare row is pending (R107). -/
theorem array_raiseRepair (s : State) (a row : Nat) :
    ((raiseRepair s a row 1).array a).repair = some (BitVec.ofNat 6 row, 1) ∧ ((raiseRepair s a row 1).array a).recorded = false := by
  have h := array_congr (noteRepair_arrays (s.setArray a { s.array a with repair := some (BitVec.ofNat 6 row, 1), recorded := false, held := false }) a row 1 1 false) a
  have e : raiseRepair s a row 1 = noteRepair (s.setArray a { s.array a with repair := some (BitVec.ofNat 6 row, 1), recorded := false, held := false }) a row 1 1 false := rfl
  rw [e, h, array_setArray_same]
  exact ⟨rfl, rfl⟩

theorem freeSpare_cases {s : State} {d k : Nat} (h : freeSpare s d = some k) : k = 32 ∨ k = 33 := by
  simpa using List.mem_of_find?_eq_some h

/-- A row offered for repair is in progress or waits (R526). -/
theorem offerRow_offered (s : State) (a : Nat) :
    (offerRow s a).msys.rowRepair = some (BitVec.ofNat 44 a) ∨ BitVec.ofNat 44 a ∈ (offerRow s a).msys.rowQueue := by
  unfold offerRow
  dsimp only
  split
  · next h => simpa using h
  · split
    · exact .inl rfl
    · exact .inr (by simp)

/-- A core that is lost is vacant (R525). -/
theorem vacantCore_loseCore (s : State) {core : Nat} (h : core < 128) : (loseCore s core).vacantCore core = true := by
  unfold loseCore
  dsimp only
  rw [State.vacantCore, postAll_trust, bbWrite_trust]
  split
  · assumption
  · simp [Nat.mod_eq_of_lt h]
theorem loseCore_repl (s : State) (core : Nat) : (loseCore s core).trust.repl = s.trust.repl := by
  unfold loseCore
  dsimp only
  rw [postAll_trust, bbWrite_trust]
  split <;> rfl

/-- The state in which a logical core runs on its spare, before the change is recorded and posted (R525). -/
def coreCopied (s : State) (c : CoreNum) (r : CoreRepl) : State :=
  let old := (s.physCore c.toNat).toNat
  let s := (List.range 4).foldl (fun s k => freshArray s (4 * c.toNat + k)) s
  let s := spendSpare s (c.toNat / 32) r.spare.toNat
  let s := { s with trust := { s.trust with
    coreMap := tput c.toNat r.spare s.trust.coreMap, vacant := s.trust.vacant.filter (· != c), repl := s.trust.repl.filter (·.core != c),
    record := s.trust.record ++ [RepairRec.core (c.toNat / 32) (c.toNat % 32) (BitVec.ofNat 6 old) r.spare] } }
  { s with trust := { s.trust with coreStatus := coreStatusOf s 2 (c.toNat / 32) (coreReq c.toNat) } }

/-- Posts of a replacement, held while the root monitor does not run (R521). -/
def postReplaced (s : State) (owners : List Nat) (d : List Byte) : State :=
  if s.trust.rootUp then postTo s owners 0x0202 d
  else { s with trust := { s.trust with heldPosts := s.trust.heldPosts ++ [(owners, 0x0202, d)] } }

theorem exec_coreCopyDone {c : CoreNum} {s : State} {r : CoreRepl} (h : (s.trust.repl.find? fun r => r.core == c && r.quiet && r.passed) = some r) :
    ∃ owners d, exec (.coreCopyDone c) s = .next (postReplaced (bbWrite (coreCopied s c r) 0x1202 0 0 d) owners d) := by
  refine ⟨((s.queues.filter fun e => e.1 / 16 == c.toNat && e.2.st != .free).map fun e => e.2.func.toNat).dedup,
    [BitVec.ofNat 8 (c.toNat / 32), BitVec.ofNat 8 (c.toNat % 32), BitVec.ofNat 8 (s.physCore c.toNat).toNat, BitVec.ofNat 8 r.spare.toNat], ?_⟩
  change execCoreCopyDone c s = _
  rw [execCoreCopyDone, h]
  rfl

section
variable (s : State) (owners : List Nat) (d : List Byte)
theorem postReplaced_physCore (k : Nat) : (postReplaced s owners d).physCore k = s.physCore k := by
  unfold postReplaced
  split
  · rw [State.physCore, postTo_trust, State.physCore]
  · rfl
theorem postReplaced_vacantCore (k : Nat) : (postReplaced s owners d).vacantCore k = s.vacantCore k := by
  unfold postReplaced
  split
  · rw [State.vacantCore, postTo_trust, State.vacantCore]
  · rfl
theorem postReplaced_repl : (postReplaced s owners d).trust.repl = s.trust.repl := by unfold postReplaced; split <;> simp
theorem postReplaced_queues : (postReplaced s owners d).queues = s.queues := by unfold postReplaced; split <;> simp
theorem postReplaced_sems : (postReplaced s owners d).sems = s.sems := by unfold postReplaced; split <;> simp
theorem postReplaced_time : (postReplaced s owners d).time = s.time := by unfold postReplaced; split <;> simp
end

theorem coreCopied_physCore (s : State) (c : CoreNum) (r : CoreRepl) : (coreCopied s c r).physCore c.toNat = r.spare := tget_tput_same ..
theorem coreCopied_vacantCore (s : State) (c : CoreNum) (r : CoreRepl) : (coreCopied s c r).vacantCore c.toNat = false := by
  have h : (coreCopied s c r).trust.vacant = (spendSpare ((List.range 4).foldl (fun s k => freshArray s (4 * c.toNat + k)) s) (c.toNat / 32) r.spare.toNat).trust.vacant.filter (· != c) := rfl
  rw [State.vacantCore, h]
  simp [BitVec.toNat_inj]
theorem coreCopied_repl (s : State) (c : CoreNum) (r : CoreRepl) : ∀ x ∈ (coreCopied s c r).trust.repl, x.core ≠ c := by
  have h : (coreCopied s c r).trust.repl = (spendSpare ((List.range 4).foldl (fun s k => freshArray s (4 * c.toNat + k)) s) (c.toNat / 32) r.spare.toNat).trust.repl.filter (·.core != c) := rfl
  rw [h]
  simp
theorem coreCopied_frame (s : State) (c : CoreNum) (r : CoreRepl) :
    (coreCopied s c r).queues = s.queues ∧ (coreCopied s c r).sems = s.sems ∧ (coreCopied s c r).time = s.time := by
  unfold coreCopied
  simp

theorem hostWrite_msys (s : State) (p a : Nat) (bs : List Byte) : (hostWrite s p a bs).msys = s.msys := by
  induction bs generalizing s a with
  | nil => rfl
  | cons b r ih => exact (ih ..).trans rfl

/-- The rows to repair are out of reach of events. -/
theorem eventFree_rows : EventFree fun s => (s.msys.rowRepair, s.msys.rowQueue) where
  func _ _ _ := rfl
  count s f := rfl
  phys _ _ _ := rfl
  host s p a bs := by rw [hostWrite_msys]
  touch s a n l := by unfold touchPage; split <;> rfl
  cache s f j v := rfl

theorem noteFault_msys (s : State) (c : Nat) : (noteFault s c).msys = s.msys := by unfold noteFault; split <;> rfl
theorem postAll_rows (s : State) (c : Nat) (d : List Byte) :
    (postAll s c d).msys.rowRepair = s.msys.rowRepair ∧ (postAll s c d).msys.rowQueue = s.msys.rowQueue := by
  have h := eventFree_rows.postTo (fun s c => by rw [noteFault_msys]) s (ringFuncs s) c d
  rw [Prod.mk.injEq] at h
  exact h

theorem exec_coreSelfTestDone {d : Die} {pass old : Bool} {s : State} {r : CoreRepl} (h : (s.trust.repl.find? fun r => r.core.toNat / 32 == d.toNat && !r.passed) = some r) :
    exec (.coreSelfTestDone d pass old) s =
      if pass && r.spare != 63 then .next (setRepl s { r with passed := true })
      else match freeSpare (spendSpare s d.toNat r.spare.toNat) d.toNat with
        | some p => .next (setRepl (spendSpare s d.toNat r.spare.toNat) { r with spare := BitVec.ofNat 6 p })
        | none => .next (failRepl (spendSpare s d.toNat r.spare.toNat) r old) := by
  change execCoreSelfTestDone d pass old s = _
  rw [execCoreSelfTestDone, h] <;> rfl

theorem failRepl_repl (s : State) (r : CoreRepl) (old : Bool) : ∀ x ∈ (failRepl s r old).trust.repl, x.core ≠ r.core := by
  unfold failRepl
  dsimp only
  split
  · simp
  · rw [loseCore_repl]; simp

theorem coreReplaceWrite_eq {s : State} {v : Nat} (h : v < 1024) (hb : bits v 5 3 = 0)
    (hr : (s.trust.repl.any fun r => r.core.toNat == v / 256 * 32 + v % 32) = false) :
    coreReplaceWrite s v = (stOk, startRepl s (v / 256 * 32 + v % 32)) := by
  rw [coreReplaceWrite, if_neg (by omega)]
  dsimp only
  rw [if_neg (by simp [hr])]
/-- The replacement of a core as it starts (R525). -/
def newRepl (s : State) (core : Nat) : CoreRepl := { core := BitVec.ofNat 7 core, spare := BitVec.ofNat 6 ((freeSpare s (core / 32)).getD 63) }
theorem startRepl_repl (s : State) (core : Nat) : (startRepl s core).trust.repl = s.trust.repl ++ [newRepl s core] := by
  rw [newRepl, ← freeSpare_congr (unholdCore_trust s core), ← unholdCore_trust s core]
  rfl

/-- Settles O33: the writes that ask for a repair, and how the replacement of a core and the repair of a row go on. -/
theorem servicingAndReplacement : Obligations.ServicingAndReplacement := by
  unfold Obligations.ServicingAndReplacement
  refine ⟨⟨fun p v s hc hv hs => ?_, fun p v s hc hv hb hr => ?_, fun p a s hc ha => ?_⟩, fun d old s r h => ⟨fun hk => ?_, fun k hk => ?_, fun hk => ?_⟩,
    fun c s r h hq => ?_, fun c s r h => ?_, fun ok s a h => ⟨fun hh => ?_, fun hh => ?_⟩⟩
  · obtain ⟨b, c, j, e⟩ := writeEntry_high (d := leBytes 4 v.toNat) 0x4820 1 hc (by
      rw [leNat_leBytes_word]
      exact congrArg some ((if_neg (by omega)).trans ((if_neg (by omega)).trans (if_neg hs))))
    obtain ⟨hrep, hrec⟩ := array_raiseRepair s (v.toNat / 64) (v.toNat % 64)
    exact ⟨_, congrArg Host.Outcome.next e, by simp [stOk], by rw [answer_array, withBanks_array, hrep], by rw [answer_array, withBanks_array, hrec],
      by simp, by simp⟩
  · have hv' : leNat (leBytes 2 v.toNat) = v.toNat := by rw [leNat_leBytes]; exact Nat.mod_eq_of_lt v.isLt
    obtain ⟨b, c, j, e⟩ := writeEntry_high (d := leBytes 2 v.toNat) 0x6840 1 hc (by rw [hv']; exact congrArg some (coreReplaceWrite_eq hv hb hr))
    refine ⟨_, newRepl s (v.toNat / 256 * 32 + v.toNat % 32), congrArg Host.Outcome.next e, by simp [stOk],
      by rw [answer_trust, withBanks_trust, startRepl_repl], rfl, rfl, rfl, fun k hk => ?_, by simp, by simp⟩
    have hk' : k = 32 ∨ k = 33 := freeSpare_cases hk
    rw [newRepl, show (v.toNat / 256 * 32 + v.toNat % 32) / 32 = v.toNat / 256 by omega, hk, Option.getD_some, BitVec.toNat_ofNat]
    omega
  · have hv' : leNat (leBytes 8 a.toNat) = a.toNat := by rw [leNat_leBytes]; exact Nat.mod_eq_of_lt a.isLt
    obtain ⟨b, c, j, e⟩ := writeEntry_high (d := leBytes 8 a.toNat) 0x6840 4 hc (by rw [hv']; exact congrArg some (if_pos ha))
    exact ⟨_, congrArg Host.Outcome.next e, by simp [stOk], by rw [answer_msys, withBanks_msys]; exact offerRow_offered s a.toNat, by simp, by simp⟩
  · rw [exec_coreSelfTestDone h, if_pos (by simpa using hk)]
  · rw [exec_coreSelfTestDone h, if_neg (by simp), hk]
  · refine ⟨_, (exec_coreSelfTestDone h).trans ((if_neg (by simp)).trans (by rw [hk])), failRepl_repl _ r old, fun ho => ?_, by simp, by simp⟩
    subst ho
    exact vacantCore_loseCore _ r.core.isLt
  · change execCoreQuietPoint c s = _
    rw [execCoreQuietPoint, h]
    exact if_pos hq
  · obtain ⟨owners, d, e⟩ := exec_coreCopyDone h
    obtain ⟨hqueues, hsems, htime⟩ := coreCopied_frame s c r
    refine ⟨_, e, ?_, ?_, ?_, ?_, ?_, ?_⟩
    · rw [postReplaced_physCore, State.physCore, bbWrite_trust]; exact coreCopied_physCore s c r
    · rw [postReplaced_vacantCore, State.vacantCore, bbWrite_trust]; exact coreCopied_vacantCore s c r
    · rw [postReplaced_repl, bbWrite_trust]; exact coreCopied_repl s c r
    · rw [postReplaced_queues, bbWrite_queues, hqueues]
    · rw [postReplaced_sems, bbWrite_sems, hsems]
    · rw [postReplaced_time, bbWrite_time, htime]
  · have e : exec (.memRepairDone ok) s = .next (postAll { s with msys := { s.msys with rowRepair := s.msys.rowQueue.head?, rowQueue := s.msys.rowQueue.tail } }
        (if ok then 0x0204 else 0x0205) (leBytes 8 a.toNat)) := by
      change execMemRepairDone ok s = _
      rw [execMemRepairDone, h]
      exact if_neg (by simp [hh])
    obtain ⟨h1, h2⟩ := postAll_rows { s with msys := { s.msys with rowRepair := s.msys.rowQueue.head?, rowQueue := s.msys.rowQueue.tail } }
      (if ok then 0x0204 else 0x0205) (leBytes 8 a.toNat)
    exact ⟨_, e, h1, h2, by simp, by simp⟩
  · change execMemRepairDone ok s = _
    rw [execMemRepairDone, h]
    exact if_pos (by simpa [Option.isSome_iff_ne_none] using hh)

end Sys2Proof.Machine
end

section
/-! Queues are created (O34). -/

namespace Sys2Proof.Machine

/-! ### Queues are created (O34) -/

theorem byteField_lt (l : List Byte) (off n : Nat) : byteField l off n < 256 ^ n := by
  rw [byteField]
  exact (leNat_lt _).trans_le (Nat.pow_le_pow_right (by omega) (by simp))

/-- The queue that a record describes (R349). -/
def recordQueue (s : State) (f : Nat) (d : List Byte) : Queue :=
  { st := .active, func := BitVec.ofNat 7 f, log2N := BitVec.ofNat 8 (byteField d 3 1), job := BitVec.ofNat 32 (byteField d 4 4),
    engine := BitVec.ofNat 16 (byteField d 8 2), vector := BitVec.ofNat 16 (byteField d 0x0A 2), irqMode := BitVec.ofNat 2 (byteField d 0x0C 1),
    ring := BitVec.ofNat 64 (byteField d 0x10 8), comp := BitVec.ofNat 64 (byteField d 0x18 8), createdBase := BitVec.ofNat 64 (byteField d 0x20 8),
    base := BitVec.ofNat 48 (byteField d 0x20 8), since := s.time.tick }

/-- A record that meets R349, R350 and R384 of a queue that is FREE makes it. -/
theorem queueCreateAs_eq {d : List Byte} {s : State} {q : QNum} {f job : Nat} (hq : byteField d 0 2 = q.toNat) (hf : byteField d 2 1 = f)
    (hj : byteField d 4 4 = job) (hfree : (s.queue q).st = .free)
    (hk : if 4096 ≤ q.toNat then s.assignedTo 1 q.toNat f = true ∧ engineOk (byteField d 8 2) = true ∧ (job = 0 ∨ jobOf s f job = true)
      else jobOf s f job = true ∧ job ≠ 0 ∧ byteField d 8 2 = 0 ∧ (q.toNat < 2048 → q.toNat % 16 < 8 ∧ coreSplit s q.toNat job = false))
    (hr : createReserved d = true) (hn1 : 4 ≤ byteField d 3 1) (hn2 : byteField d 3 1 ≤ 16) (hv1 : 1 ≤ byteField d 0x0A 2) (hv2 : byteField d 0x0A 2 < 2048)
    (hring : byteField d 0x10 8 % 256 = 0) (hcomp : byteField d 0x18 8 % 256 = 0) :
    queueCreateAs s f false d = (stOk, s.setQueue q (recordQueue s f d)) := by
  have hqlt := q.isLt
  have hqq : BitVec.ofNat 15 q.toNat = q := by rw [BitVec.ofNat_toNat, BitVec.setWidth_eq]
  rw [queueCreateAs]
  simp only [hq, hf, hj, hqq, Bool.false_or]
  by_cases hsub : 4096 ≤ q.toNat
  · rw [if_pos hsub] at hk
    obtain ⟨ha, he, hjob⟩ := hk
    have hjob' : (job == 0 || jobOf s f job) = true := by simpa using hjob
    rw [if_neg (by simp; omega), if_neg (by simp [hsub, ha]; omega), if_neg (by simp [hfree]), if_neg (by simp; omega), if_neg]
    · rw [recordQueue, hj]
    · simp only [if_pos hsub, he, hjob', hr, hring, hcomp]
      simp
      omega
  · rw [if_neg hsub] at hk
    obtain ⟨ha, hj0, he, hcore⟩ := hk
    rw [if_neg (by simp; omega), if_neg (by simp [hsub, ha]; omega), if_neg (by simp [hfree]), if_neg (by simp; intro h; exact (hcore h).2), if_neg]
    · rw [recordQueue, hj]
    · simp only [if_neg hsub, he, hr, hring, hcomp]
      simp
      omega

/-- Settles O34: a record of a FREE queue that passes makes the queue it describes. -/
theorem queueIsCreated : Obligations.QueueIsCreated := by
  unfold Obligations.QueueIsCreated
  intro p d s q f job hc hl hq hf hf7 hp hj hfree hk hr hn1 hn2 hv1 hv2 hring hcomp
  have hw : queueCreateWrite s p d = (stOk, s.setQueue q (recordQueue s f d)) := by
    rw [queueCreateWrite, hf]
    cases h : pathFunc p with
    | none => exact (if_neg (by omega)).trans (queueCreateAs_eq hq hf hj hfree hk hr hn1 hn2 hv1 hv2 hring hcomp)
    | some g =>
      rw [hp g h]
      exact (if_pos rfl).trans (queueCreateAs_eq hq hf hj hfree hk hr hn1 hn2 hv1 hv2 hring hcomp)
  obtain ⟨b, c, j, e⟩ := writeEntry_high 0x6000 4 (by rw [hl]; exact hc) (congrArg some hw)
  have hirq : byteField d 0x0C 1 < 4 := by
    rw [createReserved] at hr
    simp only [Bool.and_eq_true, beq_iff_eq] at hr
    obtain ⟨⟨⟨h, _⟩, _⟩, _⟩ := hr
    omega
  have hb := byteField_lt d
  refine ⟨_, recordQueue s f d, congrArg Host.Outcome.next e, by simp [stOk], by rw [answer_queue, withBanks_queue, queue_setQueue_same], rfl, rfl, rfl, rfl,
    ?_, ?_, ?_, ?_, ?_, ?_, ?_, ?_, rfl, by simp, by simp, by simp, fun q' hq' => by rw [answer_queue, withBanks_queue, queue_setQueue_ne _ _ hq']⟩
  all_goals simp only [recordQueue, BitVec.toNat_ofNat]
  · omega
  · have := hb 3 1; omega
  · have := hb 4 4; omega
  · have := hb 8 2; omega
  · omega
  · omega
  · have := hb 0x10 8; omega
  · have := hb 0x18 8; omega

end Sys2Proof.Machine
end

section
/-! RESUME, FLUSH and DESTROY of a queue (O35). -/

namespace Sys2Proof.Machine

/-! ### RESUME, FLUSH and DESTROY (O35) -/

/-- A write of 0x6000:05 names the queue in its low bits and the operation above them (R384). -/
theorem queueControl_eq (s : State) (p : Path) (q : QNum) {k : Nat} : 1 ≤ k → k ≤ 3 →
    queueControl s p (q.toNat + k * 2 ^ 16) = match k with
      | 1 => resumeAs s p q
      | 2 => flushAs s p q
      | _ => destroyAs s p q := by
  intro h1 h3
  have hq := q.isLt
  have hb : bits (q.toNat + k * 2 ^ 16) 16 2 = k := by rw [bits_eq]; omega
  have ht : (q.toNat + k * 2 ^ 16).testBit 15 = false := by
    rw [Nat.testBit_eq_decide_div_mod_eq, decide_eq_false_iff_not]; omega
  have hn : BitVec.ofNat 15 (q.toNat + k * 2 ^ 16) = q := BitVec.eq_of_toNat_eq (by rw [BitVec.toNat_ofNat]; omega)
  have hfields : ¬((q.toNat + k * 2 ^ 16) / 2 ^ 18 ≠ 0 ∨ false = true ∨ k = 0) := by
    simp only [Bool.false_eq_true, false_or, not_or]
    omega
  rw [queueControl, hb, ht, hn, if_neg hfields] <;> rfl

/-- A write of 0x6000:05 that passes the checks and whose operation is carried out. -/
theorem queueControl_done {s t : State} {p : Path} {q : QNum} {k : Nat} (h1 : 1 ≤ k) (h3 : k ≤ 3) (hc : writeCheck s p 0x6000 5 0 4 = stOk)
    (ha : queueControl s p (q.toNat + k * 2 ^ 16) = (stOk, t)) :
    ∃ b c j, writeEntry s p 0x6000 5 0 (leBytes 4 (q.toNat + k * 2 ^ 16)) = answer (withBanks t b c j) p stOk [] := by
  have hv : leNat (leBytes 4 (q.toNat + k * 2 ^ 16)) = q.toNat + k * 2 ^ 16 := by
    have := q.isLt
    rw [leNat_leBytes]; omega
  exact writeEntry_high 0x6000 5 hc (by rw [hv]; exact congrArg some ha)

/-- The masks, with the commits of a queue ended (log entry 57). -/
def endCommits (s : State) (q : QNum) : Tab MaskEntry :=
  s.masks.map fun e => match e.2.commit with
    | some (k, _) => if k = q then (e.1, { e.2 with st := .idle, commit := none }) else e
    | none => e
/-- A hold that outlives the queue's own commands: that of a pending fill. -/
def fillHold (x : Queue) : Hold :=
  match x.hold with
  | .fill i n t b => .fill i n t b
  | _ => .none

/-- The state in which a FLUSH starts (R356). -/
def flushState (s : State) (q : QNum) : State :=
  { s.setQueue q { s.queue q with markers := [], unarmed := [], flushing := true, hold := fillHold (s.queue q) } with masks := endCommits s q }

theorem flushState_queue (s : State) (q : QNum) :
    (flushState s q).queue q = { s.queue q with markers := [], unarmed := [], flushing := true, hold := fillHold (s.queue q) } := queue_setQueue_same ..

theorem flushAs_eq {s : State} {p : Path} {q : QNum} (h : (s.queue q).st = .halted) (hd : (s.queue q).destroying = false)
    (hf : (s.queue q).flushing = false) (hr : pathReachesQueue s p q = true) : flushAs s p q = (stOk, runFlush (flushState s q) q) := by
  unfold flushAs
  dsimp only
  rw [if_neg (by simp [h, hd, hf, hr])]
  rfl

/-- What a flush keeps of its queue: the state, TAIL, the started commands, and that it is under way (R356). -/
structure FlushKept (q : QNum) (s t : State) : Prop where
  st : (t.queue q).st = (s.queue q).st
  tail : (t.queue q).tail = (s.queue q).tail
  started : (t.queue q).started = (s.queue q).started
  flushing : (t.queue q).flushing = (s.queue q).flushing

theorem FlushKept.trans {q : QNum} {s t u : State} (h : FlushKept q s t) (h' : FlushKept q t u) : FlushKept q s u :=
  ⟨h'.st.trans h.st, h'.tail.trans h.tail, h'.started.trans h.started, h'.flushing.trans h.flushing⟩
theorem FlushKept.of_queues {q : QNum} {s t : State} (h : t.queues = s.queues) : FlushKept q s t := by
  have e := queue_congr h q
  constructor <;> rw [e]
theorem FlushKept.setQueue {q : QNum} {s : State} {x : Queue} (h1 : x.st = (s.queue q).st) (h2 : x.tail = (s.queue q).tail)
    (h3 : x.started = (s.queue q).started) (h4 : x.flushing = (s.queue q).flushing) : FlushKept q s (s.setQueue q x) := by
  constructor <;> rw [queue_setQueue_same] <;> assumption

/-- The queue as the record of its next command is written: it moves past it (R356). -/
theorem flushKept_noteWritten {s : State} {q : QNum} (e : BitVec 16) (i : BitVec 16) :
    FlushKept q s (s.setQueue q (noteWritten { bumpNext (s.queue q) with lastErr := e } i)) ∧
      ((s.setQueue q (noteWritten { bumpNext (s.queue q) with lastErr := e } i)).queue q).next = (s.queue q).next + 1 :=
  ⟨.setQueue rfl rfl rfl rfl, by rw [queue_setQueue_same]; rfl⟩

/-- One record of a flush: the queue moves past its command where it is written (R356). -/
theorem flushOne_kept (s : State) (q : QNum) :
    FlushKept q s (flushOne s q).1 ∧ ((flushOne s q).2 = none → ((flushOne s q).1.queue q).next = (s.queue q).next + 1) := by
  unfold flushOne
  dsimp only
  have hq := ringEntry_queues s (s.queue q) (s.queue q).next
  generalize ringEntry s (s.queue q) (s.queue q).next = r at hq ⊢
  obtain ⟨b, u⟩ := r
  have hk : FlushKept q s u := .of_queues hq
  have hlost : ∀ (v : State) (e : BitVec 16), v.queues = u.queues → FlushKept q s (v.setQueue q { bumpNext (v.queue q) with lastErr := e }) :=
    fun v e h => hk.trans ((FlushKept.of_queues h).trans (.setQueue rfl rfl rfl rfl))
  split
  · next s1 hw =>
    have hv := vWrite_ok_queues hw
    obtain ⟨hn1, hn2⟩ := flushKept_noteWritten (s := s1) (q := q) (BitVec.ofNat 16 stFlushed) (s.queue q).next
    refine ⟨(hk.trans (.of_queues hv)).trans (hn1.trans (.of_queues (traceRec_queues ..))), fun _ => ?_⟩
    rw [queue_congr (traceRec_queues ..), hn2, queue_congr hv, queue_congr hq]
  · exact ⟨hk.trans (.of_queues (requestPage_queues ..)), fun h => nomatch h⟩
  · exact ⟨hlost u _ rfl, fun h => nomatch h⟩
  · exact ⟨hlost _ _ (forgetRefusals_queues ..), fun h => nomatch h⟩
  · exact ⟨hlost u _ rfl, fun h => nomatch h⟩

theorem flushFrom_kept (q : QNum) (n : Nat) : ∀ s : State, FlushKept q s (flushFrom s q n).1 ∧
    ((flushFrom s q n).2 = none → ((flushFrom s q n).1.queue q).next = (s.queue q).next + BitVec.ofNat 16 n) := by
  induction n with
  | zero => exact fun s => ⟨.of_queues rfl, fun _ => (BitVec.add_zero _).symm⟩
  | succ n ih =>
    intro s
    obtain ⟨h1, h2⟩ := flushOne_kept s q
    unfold flushFrom
    generalize flushOne s q = r at h1 h2 ⊢
    obtain ⟨t, o⟩ := r
    cases o with
    | none =>
      obtain ⟨h3, h4⟩ := ih t
      refine ⟨h1.trans h3, fun h => ?_⟩
      rw [h4 h, h2 rfl]
      bv_omega
    | some stop => exact ⟨h1, fun h => nomatch h⟩

theorem waiting_end (x : Queue) : x.next + BitVec.ofNat 16 x.waiting = x.tail := by
  unfold Queue.waiting
  bv_omega

/-- A flush that wrote every record ends, at once or when the started commands have (R356). -/
theorem queue_settleFlush {s : State} {q : QNum} (h : (s.queue q).st = .halted) (hf : (s.queue q).flushing = true) (hn : (s.queue q).next = (s.queue q).tail) :
    ((s.queue q).started = [] → (settleFlush s q).queue q = { s.queue q with st := .active, flushing := false, head := (s.queue q).tail, written := [], since := s.time.tick }) ∧
      ((s.queue q).started ≠ [] → settleFlush s q = s) := by
  unfold settleFlush
  dsimp only
  refine ⟨fun he => ?_, fun he => ?_⟩
  · rw [if_pos (by simp [h, hf, hn, he]), queue_setQueue_same]
  · rw [if_neg (by simp [he])]

/-- What the run of a flush leaves, by how it stopped (R356). -/
theorem runFlush_spec {s u : State} {q : QNum} {stop : Option FlushStop} (h : (s.queue q).st = .halted) (hf : (s.queue q).flushing = true)
    (hr : flushFrom s q (s.queue q).waiting = (u, stop)) :
    ((runFlush s q).queue q).started = (s.queue q).started ∧
      (stop = none → ((runFlush s q).queue q).next = (s.queue q).tail ∧ (runFlush s q).mem = u.mem ∧
        ((s.queue q).started = [] → ((runFlush s q).queue q).st = .active ∧ ((runFlush s q).queue q).head = (s.queue q).tail ∧ ((runFlush s q).queue q).flushing = false) ∧
        ((s.queue q).started ≠ [] → ((runFlush s q).queue q).st = .halted ∧ ((runFlush s q).queue q).flushing = true)) ∧
      (∀ st k, stop = some (.lost st k) → ((runFlush s q).queue q).st = .halted ∧ ((runFlush s q).queue q).flushing = false) ∧
      (stop = some .page → ((runFlush s q).queue q).st = .halted ∧ ((runFlush s q).queue q).flushing = true) := by
  obtain ⟨⟨hst, htail, hstarted, hflushing⟩, hnext⟩ := flushFrom_kept q (s.queue q).waiting s
  rw [hr] at hst htail hstarted hflushing hnext
  rw [h] at hst
  rw [hf] at hflushing
  dsimp only at hst htail hstarted hflushing hnext
  rw [waiting_end] at hnext
  unfold runFlush
  dsimp only
  rw [hr]
  cases stop with
  | none =>
    dsimp only
    have hn := hnext rfl
    generalize hv : (if (s.queue q).irqMode = 0 then u else raiseMsix u (s.queue q).func.toNat (s.queue q).vector.toNat) = v
    have hvq : v.queue q = u.queue q := by
      subst hv
      split
      · rfl
      · exact queue_congr (raiseMsix_queues ..) q
    have hvm : v.mem = u.mem := by subst hv; split <;> simp
    obtain ⟨hdone, hwait⟩ := queue_settleFlush (s := v) (q := q) (by rw [hvq, hst]) (by rw [hvq, hflushing]) (by rw [hvq, hn, htail])
    rw [hvq] at hdone hwait
    rw [hstarted] at hdone hwait
    by_cases he : (s.queue q).started = []
    · rw [hdone he]
      refine ⟨hstarted, fun _ => ⟨hn, ?_, fun _ => ⟨rfl, htail, rfl⟩, fun hne => absurd he hne⟩, fun _ _ h => (nomatch h), fun h => nomatch h⟩
      rw [← hvm, settleFlush_mem]
    · rw [hwait he, hvq]
      exact ⟨hstarted, fun _ => ⟨hn, hvm, fun h0 => absurd h0 he, fun _ => ⟨hst, hflushing⟩⟩, fun _ _ h => (nomatch h), fun h => nomatch h⟩
  | some stop =>
    cases stop with
    | lost st seq =>
      dsimp only
      rw [queue_congr (postEvent_queues ..), queue_setQueue_same]
      exact ⟨hstarted, fun h => (nomatch h), fun _ _ _ => ⟨hst, rfl⟩, fun h => nomatch h⟩
    | page => exact ⟨hstarted, fun h => (nomatch h), fun _ _ h => (nomatch h), fun _ => ⟨hst, hflushing⟩⟩

/-- What DESTROY leaves of a queue (R355). -/
theorem destroyAs_eq {s : State} {p : Path} {q : QNum} (h : (s.queue q).st ≠ .free) (hr : pathReachesQueue s p q = true) :
    destroyAs s p q = (stOk, { s with masks := endCommits s q }.setQueue q (if (s.queue q).started = [] then {} else
      { s.queue q with destroying := true, head := (s.queue q).tail, next := (s.queue q).tail, written := [], markers := [], unarmed := [], hold := fillHold (s.queue q) })) := by
  unfold destroyAs
  dsimp only
  rw [if_neg (by simp [h, hr])]
  by_cases he : (s.queue q).started = []
  · rw [if_neg (by simp [he]), if_pos he]; rfl
  · rw [if_pos (by simp [he]), if_neg he]; rfl

/-- Settles O35: what RESUME, FLUSH and DESTROY leave of their queue. -/
theorem queuesResumeFlushAndEnd : Obligations.QueuesResumeFlushAndEnd := by
  unfold Obligations.QueuesResumeFlushAndEnd
  refine ⟨⟨fun p q s hc h hd hf hr hs => ?_, fun p q s hc h hr => ?_, fun q s hd => ⟨fun he => ?_, fun he => ?_⟩⟩,
    fun p q s u x stop hc hx h hd hf hr hrun => ?_⟩
  · have ha : queueControl s p (q.toNat + 1 * 2 ^ 16) = (stOk, s.setQueue q { s.queue q with st := .active }) :=
      (queueControl_eq s p q (by omega) (by omega)).trans (if_neg (by simp [h, hd, hf, hr, hs]))
    obtain ⟨b, c, j, e⟩ := queueControl_done (by omega) (by omega) hc ha
    rw [one_mul] at e
    exact ⟨_, congrArg Host.Outcome.next e, by simp [stOk], by rw [answer_queue, withBanks_queue, queue_setQueue_same], by simp, by simp,
      fun q' hq => by rw [answer_queue, withBanks_queue, queue_setQueue_ne _ _ hq]⟩
  · have ha := (queueControl_eq s p q (k := 3) (by omega) (by omega)).trans (destroyAs_eq h hr)
    obtain ⟨b, c, j, e⟩ := queueControl_done (by omega) (by omega) hc ha
    refine ⟨_, congrArg Host.Outcome.next e, by simp [stOk], fun he => ?_, fun he => ?_, by simp, by simp, fun q' hq => ?_⟩
    · rw [answer_queue, withBanks_queue, queue_setQueue_same, if_neg he]
      exact ⟨rfl, rfl, rfl, rfl⟩
    · rw [answer_queue, withBanks_queue, queue_setQueue_same, if_pos he]
    · rw [answer_queue, withBanks_queue, queue_setQueue_ne _ _ hq]; rfl
  · exact congrArg Host.Outcome.next (if_pos (by simp [hd, he]))
  · exact congrArg Host.Outcome.next (if_neg (by simp [he]))
  · subst hx
    have ha := (queueControl_eq s p q (k := 2) (by omega) (by omega)).trans (flushAs_eq h hd hf hr)
    obtain ⟨b, c, j, e⟩ := queueControl_done (by omega) (by omega) hc ha
    have hq := flushState_queue s q
    have hw : ((flushState s q).queue q).waiting = (s.queue q).waiting := by rw [hq]; rfl
    have hrun' : flushFrom (flushState s q) q ((flushState s q).queue q).waiting = (u, stop) := by
      rw [hw, ← hrun]
      rfl
    obtain ⟨hstarted, hnone, hlost, hpage⟩ := runFlush_spec (by rw [hq]; exact h) (by rw [hq]) hrun'
    rw [hq] at hstarted hnone
    refine ⟨_, congrArg Host.Outcome.next e, by simp [stOk], ?_⟩
    simp only [answer_queue, withBanks_queue, answer_mem, withBanks_mem]
    exact ⟨hstarted, hnone, hlost, hpage⟩

end Sys2Proof.Machine
end

section
/-! Descriptors and event rings (O36). -/

namespace Sys2Proof.Machine

/-! ### Descriptors and event rings (O36) -/

/-- A view of the state that reads of virtual memory do not change: they draw open values, count transactions, cache translations and forget refusals. -/
structure ReadFree {β : Type} (F : State → β) : Prop where
  draw : ∀ s n, F (drawBytes s n).2 = F s
  touch : ∀ s a n l, F (touchPage s a n l) = F s
  cache : ∀ s f j v, F (cacheXl s f j v) = F s
  func : ∀ s f x, F (State.setFunc s f x) = F s

namespace ReadFree
variable {β : Type} {F : State → β} (hF : ReadFree F)
include hF

theorem vRead {s t : State} {f job va n : Nat} {b : List Byte} {tier : Option Nat} (h : vRead s f job va n tier = .ok (b, t)) : F t = F s :=
  vRead_ok_keeps (fun u => F u = F s) (fun _ _ e => (hF.draw ..).trans e) (fun _ _ _ _ e => (hF.touch ..).trans e) (fun _ _ _ _ e => (hF.cache ..).trans e) h rfl
theorem forgetRefusals (s : State) (f r : Nat) : F (forgetRefusals s f r) = F s := by
  unfold Machine.forgetRefusals
  dsimp only
  split
  · exact hF.func ..
  · rfl
theorem readNow {s t : State} {f job tier a n : Nat} {b : List Byte} (h : readNow s f job tier a n = .ok (b, t)) : F t = F s := by
  unfold Machine.readNow at h
  split at h
  · split at h
    · cases h
    · split at h <;> cases h
      rfl
  · exact hF.vRead h
theorem readTable {f job : Nat} {r : TDesc} {n k : Nat} {l m : List Nat} {s u : State} (h : readTable f job r n k l s = .ok (m, u)) : F u = F s := by
  induction n generalizing k l s with
  | zero => cases h; rfl
  | succ n ih =>
    unfold Machine.readTable at h
    split at h <;> try cases h
    next hr => exact (ih h).trans (hF.readNow hr)
theorem readRagged {s u : State} {f job : Nat} {j : Job} {t : TDesc} {l : Option (List Nat)} (h : readRagged s f job j t = .ok (l, u)) : F u = F s := by
  unfold Machine.readRagged at h
  split at h
  · cases h; rfl
  · dsimp only at h
    split at h
    · cases h; rfl
    · split at h
      · cases h; rfl
      · split at h
        · next hr => cases h; exact hF.readTable hr
        · cases h
        · cases h; exact hF.forgetRefusals ..
        · cases h; rfl
theorem validate (s : State) (f job : Nat) (j : Job) (raw : BitVec 1024) : F (validate s f job j raw).2 = F s := by
  unfold Machine.validate
  dsimp only
  split
  · rfl
  · split
    · rfl
    · split
      · rfl
      · next hr =>
        have h := hF.readRagged hr
        (repeat' split) <;> exact h
end ReadFree

theorem readFree_lists : ReadFree fun s => (s.jobs, s.queues, s.sems, s.mem) where
  draw _ _ := rfl
  touch s a n l := by unfold touchPage; split <;> rfl
  cache _ _ _ _ := rfl
  func _ _ _ := rfl

theorem validate_frame (s : State) (f job : Nat) (j : Job) (raw : BitVec 1024) :
    (validate s f job j raw).2.jobs = s.jobs ∧ (validate s f job j raw).2.queues = s.queues ∧ (validate s f job j raw).2.sems = s.sems ∧
      (validate s f job j raw).2.mem = s.mem := by
  have h := readFree_lists.validate s f job j raw
  simp only [Prod.mk.injEq] at h
  exact h

/-- A descriptor that fails is refused with one of two statuses (R328). -/
theorem validate_bad {s : State} {f job : Nat} {j : Job} {raw : BitVec 1024} {st k : Nat} (h : (validate s f job j raw).1 = .bad st k) :
    st = stDescInvalid ∨ st = stDescOob := by
  unfold validate at h
  dsimp only at h
  (repeat' split at h)
  all_goals first | (cases h; exact .inl rfl) | (cases h; exact .inr rfl) | cases h

/-- What DESC_CREATE of a free handle answers, by what the checks of R328 make of the descriptor. -/
theorem descCreate_eq {s : State} {p : Path} {d : List Byte} {job h : Nat} (hj : byteField d 0 4 = job) (hh : byteField d 4 4 = h)
    (hp : pathReaches s p job = true) (h0 : h ≠ 0) (h1 : h ≤ 1048575) (hf : tfind (s.job job).descs h = none) :
    descCreate s p d = match validate s (s.job job).func.toNat job (s.job job) (BitVec.ofNat 1024 (byteField d 8 128)) with
      | (.bad st field, t) => descOutcome t p st field false
      | (.good x, t) => descOutcome (installDesc t job h x) p stOk 0xFF x.mayAlias
      | (.page k, _) => (stWait, (requestPage s (s.job job).func.toNat k).setPath p { (requestPage s (s.job job).func.toNat k).path p with descWait := some d }) := by
  rw [descCreate, hj, hh]
  dsimp only
  rw [if_neg (by simp [hp]), if_neg (by simp [h0, hf]; omega)] <;> rfl

theorem installDesc_job? (s : State) (job h : Nat) (x : Desc) :
    (installDesc s job h x).job? job = some { s.job job with descs := tput h x (s.job job).descs } := by
  unfold installDesc
  dsimp only
  split
  · rw [State.job?, genEnter_jobs]
    exact job?_setJob_same ..
  · exact job?_setJob_same ..

/-- DESC_STATUS of a descriptor that is taken (R335). -/
theorem descStatus_good (b : Bool) : bits (BitVec.ofNat 32 (stOk * 2 ^ 16 + (if b then 256 else 0) + 0xFF)).toNat 16 16 = 0 ∧
    bits (BitVec.ofNat 32 (stOk * 2 ^ 16 + (if b then 256 else 0) + 0xFF)).toNat 0 8 = 0xFF := by cases b <;> decide

/-- The event ring's entry of a function (R374). -/
theorem highAction_eventRing (s : State) (p : Path) {f : Nat} (hf : f < 128) (off v : Nat) (d : List Byte) :
    highAction s p 0x6020 (f + 1) off v d = some (eventRingWrite s f d) := by
  unfold highAction
  split
  case h_27 => rfl
  all_goals omega

/-- Settles O36: descriptors enter and leave the table of their job, and an event ring is set up. -/
theorem descriptorsAndEventRing : Obligations.DescriptorsAndEventRing := by
  unfold Obligations.DescriptorsAndEventRing
  refine ⟨⟨fun p d s job h hc hj hh hp h0 h1 hf => ?_, fun p d s hc hp h0 h1 hf => ?_⟩, fun p f d s hc hl hr hb hn => ?_⟩
  · have hw := descCreate_eq hj hh hp h0 h1 hf
    obtain ⟨hjobs, hqueues, hsems, hmem⟩ := validate_frame s (s.job job).func.toNat job (s.job job) (BitVec.ofNat 1024 (byteField d 8 128))
    have hbad := @validate_bad s (s.job job).func.toNat job (s.job job) (BitVec.ofNat 1024 (byteField d 8 128))
    generalize validate s (s.job job).func.toNat job (s.job job) (BitVec.ofNat 1024 (byteField d 8 128)) = r at hw hjobs hqueues hsems hmem hbad ⊢
    obtain ⟨o, u⟩ := r
    refine ⟨fun x hx => ?_, fun st k hx => ?_, fun k hx => ?_⟩
    all_goals dsimp only at hx; subst hx; dsimp only at hw hjobs hqueues hsems hmem
    · obtain ⟨b, c, n, e⟩ := writeEntry_high 0x4060 2 hc (congrArg some hw)
      have hju : u.job job = s.job job := by rw [State.job, hjobs]; rfl
      obtain ⟨hs1, hs2⟩ := descStatus_good x.mayAlias
      refine ⟨_, { s.job job with descs := tput h x (s.job job).descs }, congrArg Host.Outcome.next e, by simp [stOk], ?_, tfind_tput_same .., fun k hk => tfind_tput_ne _ _ hk, ?_, ?_, ?_, ?_, ?_⟩
      · rw [answer_job?, withBanks_job?, ← hju]
        exact installDesc_job? u job h x
      · rw [path_answer_same, withBanks_path]
        dsimp only
        rw [path_setPath_same]
        exact hs1
      · rw [path_answer_same, withBanks_path]
        dsimp only
        rw [path_setPath_same]
        exact hs2
      · simp [hmem]
      · simp [hqueues]
      · simp [hsems]
    · have hst := hbad rfl
      have e := writeEntry_failed hc (writeEffect_high rfl (by decide) (congrArg some hw)) (by rcases hst with rfl | rfl <;> decide) (by rcases hst with rfl | rfl <;> decide)
      refine ⟨_, congrArg Host.Outcome.next e, by simp, ?_, hjobs, hmem, hqueues, hsems⟩
      rw [path_answer_same, path_setPath_same]
      simp
    · have e := writeEntry_waits hc (writeEffect_high rfl (by decide) (congrArg some hw))
      exact ⟨_, congrArg Host.Outcome.next e, by rw [path_setPath_same], rfl, rfl, rfl⟩
  · have hsome : (tfind (s.job (byteField d 0 4)).descs (byteField d 4 4)).isNone = false := by rw [← Option.not_isSome, hf]; rfl
    have hw : descDestroy s p d = _ := (if_neg (by simp [hp])).trans (if_neg (by rw [hsome]; simp [h0]; omega))
    obtain ⟨b, c, n, e⟩ := writeEntry_high 0x4060 3 hc (congrArg some hw)
    exact ⟨_, congrArg Host.Outcome.next e, by simp [stOk], job?_setJob_same .., rfl, rfl, rfl⟩
  · have hw : eventRingWrite s f.toNat d = _ := if_neg (by omega)
    obtain ⟨b, c, n, e⟩ := writeEntry_high 0x6020 (f.toNat + 1) (by rw [hl]; exact hc) ((highAction_eventRing s p f.isLt ..).trans (congrArg some hw)) (by simp [claimants])
    exact ⟨_, congrArg Host.Outcome.next e, by simp [stOk], by rw [answer_func, withBanks_func, func_setFunc_same], rfl, rfl,
      fun g hg => by rw [answer_func, withBanks_func, func_setFunc_ne _ _ hg]⟩

end Sys2Proof.Machine
end

section
/-! What the end of a command, of a queue and of a job keeps. -/

namespace Sys2Proof.Machine

/-! ### What the end of an abort keeps (O37) -/

/-- From s to t no job and no queue appears, no queue changes its job, and ABORT_STATUS stays. -/
structure Fading (s t : State) : Prop where
  status : t.abortStatus = s.abortStatus
  jobs : ∀ j, s.job? j = none → t.job? j = none
  queues : ∀ q, (t.queue q).st ≠ .free → (s.queue q).st ≠ .free ∧ (t.queue q).job = (s.queue q).job

namespace Fading
theorem refl (s : State) : Fading s s := ⟨rfl, fun _ h => h, fun _ h => ⟨h, rfl⟩⟩
theorem trans {s t u : State} (h : Fading s t) (h' : Fading t u) : Fading s u :=
  ⟨h'.status.trans h.status, fun j hj => h'.jobs j (h.jobs j hj), fun q hq => by
    obtain ⟨h1, e1⟩ := h'.queues q hq
    obtain ⟨h2, e2⟩ := h.queues q h1
    exact ⟨h2, e1.trans e2⟩⟩
theorem of_view {s t : State} (h : (t.abortStatus, t.jobs, t.queues) = (s.abortStatus, s.jobs, s.queues)) : Fading s t := by
  simp only [Prod.mk.injEq] at h
  obtain ⟨h1, h2, h3⟩ := h
  exact ⟨h1, fun j hj => by rwa [State.job?, h2], fun q hq => by rw [queue_congr h3] at hq ⊢; exact ⟨hq, rfl⟩⟩
theorem setQueue {s : State} {q : QNum} {x : Queue} (h : x.st ≠ .free → (s.queue q).st ≠ .free ∧ x.job = (s.queue q).job) : Fading s (s.setQueue q x) :=
  ⟨rfl, fun _ hj => hj, fun p hp => by
    by_cases e : p = q
    · subst e; rw [queue_setQueue_same] at hp ⊢; exact h hp
    · rw [queue_setQueue_ne _ _ e] at hp ⊢; exact ⟨hp, rfl⟩⟩
/-- A queue whose state and job stay. -/
theorem setQueue_same {s : State} {q : QNum} {x : Queue} (h1 : x.st = (s.queue q).st) (h2 : x.job = (s.queue q).job) : Fading s (s.setQueue q x) :=
  setQueue fun h => ⟨h1 ▸ h, h2⟩
theorem foldl {α : Type} {g : State → α → State} (h : ∀ s a, Fading s (g s a)) (l : List α) (s : State) : Fading s (l.foldl g s) := by
  induction l generalizing s with
  | nil => exact refl s
  | cons a r ih => exact (h s a).trans (ih _)
end Fading

theorem eventFree_view : EventFree fun s => (s.abortStatus, s.jobs, s.queues) where
  func _ _ _ := rfl
  count _ _ := rfl
  phys _ _ _ := rfl
  host s p a bs := by simp
  touch s a n l := by simp
  cache s f j v := rfl

theorem fading_postEvent (s : State) (f code job : Nat) (d : List Byte) : Fading s (postEvent s f code job d) := .of_view (eventFree_view.postEvent ..)
theorem fading_postAll (s : State) (c : Nat) (d : List Byte) : Fading s (postAll s c d) :=
  .of_view (eventFree_view.postTo (fun s c => by unfold noteFault; split <;> rfl) s (ringFuncs s) c d)
theorem fading_raiseMsix (s : State) (f v : Nat) : Fading s (raiseMsix s f v) := .of_view (eventFree_view.raiseMsix ..)
theorem fading_vWrite {s t : State} {f job va : Nat} {bs : List Byte} {tier : Option Nat} (h : vWrite s f job va bs tier = .ok t) : Fading s t :=
  .of_view (eventFree_view.vWrite h)
theorem fading_bbWrite (s : State) (a b c : Nat) (d : List Byte) (n : Nat) (x : Bool) : Fading s (bbWrite s a b c d n x) :=
  .of_view (by unfold bbWrite; dsimp only; (repeat' split) <;> rfl)
theorem fading_noteFault (s : State) (c : Nat) : Fading s (noteFault s c) := .of_view (by unfold noteFault; split <;> rfl)
theorem fading_bump (s : State) (a b c n : Nat) : Fading s (bump s a b c n) := .of_view (by unfold bump; split <;> rfl)
theorem fading_traceRec (s : State) (q : QNum) (op : BitVec 8) (b : Bool) (st k : Nat) : Fading s (traceRec s q op b st k) :=
  .of_view (by unfold traceRec; split <;> rfl)

theorem fading_haltQueue (s : State) (q : QNum) (st k : Nat) : Fading s (haltQueue s q st k) := by
  unfold haltQueue
  dsimp only
  split
  · next h =>
    refine .trans ?_ (fading_postEvent ..)
    exact .setQueue fun _ => ⟨by rw [h]; decide, rfl⟩
  · exact .refl s

theorem fading_setJob {s : State} {j : Nat} {x y : Job} (h : s.job? j = some y) : Fading s (s.setJob j x) :=
  ⟨rfl, fun i hi => by
    rw [job?_setJob_ne _ _ fun e => by rw [e, h] at hi; cases hi]
    exact hi, fun _ hq => ⟨hq, rfl⟩⟩

theorem fading_stopJob (s : State) (f job a level : Nat) : Fading s (stopJob s f job a level) := by
  unfold stopJob
  dsimp only
  refine .trans ?_ (fading_postEvent ..)
  refine .trans ?_ (fading_noteFault ..)
  have h0 : Fading s (bbWrite (bump { s with msys := { s.msys with lastUe := ueBytes s a level } } 5 0 16 1) 0x0003 7 level (ueBytes s a level)) := by
    refine .trans ?_ (fading_bbWrite ..)
    refine .trans ?_ (fading_bump ..)
    exact .of_view rfl
  split
  · next h =>
    refine .trans ?_ (.foldl (fun s q => fading_haltQueue s q _ _) _ _)
    exact h0.trans (fading_setJob h)
  · exact h0

/-- Jobs may be freed of a deadlock by the end of a reference, and none appears (R377). -/
theorem fading_undeadlock (p : Hold → Bool) (s : State) : Fading s (undeadlock p s) :=
  ⟨rfl, fun j hj => by
    have h := tfind_map (fun k (x : Job) => if x.deadlocked && s.queues.any (fun q => q.2.job.toNat == k && q.2.st != .free && p q.2.hold) then { x with deadlocked := false } else x) s.jobs j
    have he : (undeadlock p s).jobs = s.jobs.map fun e => (e.1, if e.2.deadlocked && s.queues.any (fun q => q.2.job.toNat == e.1 && q.2.st != .free && p q.2.hold) then { e.2 with deadlocked := false } else e.2) := by
      unfold undeadlock
      refine List.map_congr_left fun e _ => ?_
      split <;> rfl
    rw [State.job?, he, h]
    simp only [State.job?] at hj
    rw [hj]; rfl, fun q hq => ⟨hq, rfl⟩⟩

theorem fading_dropRef (s : State) (id : Nat) : Fading s (dropRef s id) := by
  unfold dropRef
  split
  · exact .refl s
  · refine .trans (fading_undeadlock (· == .maskRef (BitVec.ofNat 32 id)) s) ?_
    exact .of_view rfl
theorem fading_genEnd (s : State) (t : Nat) : Fading s (genEnd s t) := .of_view (by unfold genEnd; split <;> rfl)
theorem fading_endCommit (s : State) (w : Started) : Fading s (endCommit s w) := .of_view (by unfold endCommit; (repeat' split) <;> rfl)
theorem fading_dropTileRef (s : State) (a : Nat) : Fading s (dropTileRef s a) := by
  unfold dropTileRef
  dsimp only
  (repeat' split)
  · refine .trans ?_ (fading_dropRef ..)
    exact .of_view rfl
  · exact .refl s
  · exact .refl s
theorem fading_trackDone (s : State) (q : QNum) (w : Started) : Fading s (trackDone s q w) := .of_view (by unfold trackDone; split <;> rfl)
theorem fading_dropHeld (s : State) (e : Exe) (w : Started) : Fading s (dropHeld s e w) := by
  unfold dropHeld
  dsimp only
  have h0 : Fading s (w.writes.foldl (fun s i => genEnd s i.toNat) (w.refs.foldl (fun s i => dropRef s i.toNat) (endCommit s w))) := by
    refine .trans ?_ (.foldl (fun _ _ => fading_genEnd ..) _ _)
    refine .trans ?_ (.foldl (fun _ _ => fading_dropRef ..) _ _)
    exact fading_endCommit ..
  have h1 := fun a => h0.trans (fading_dropTileRef _ a)
  split
  · split
    · exact (h1 _).trans (.of_view rfl)
    · exact h1 _
  · exact h0

theorem fading_settleDestroy (s : State) (q : QNum) : Fading s (settleDestroy s q) := by
  unfold settleDestroy
  dsimp only
  split
  · exact .setQueue fun h => absurd rfl h
  · exact .refl s
theorem fading_settleFlush (s : State) (q : QNum) : Fading s (settleFlush s q) := by
  unfold settleFlush
  dsimp only
  split
  · next h =>
    simp only [Bool.and_eq_true, beq_iff_eq] at h
    exact .setQueue fun _ => ⟨by rw [h.1.1.2]; decide, rfl⟩
  · exact .refl s

theorem fading_settleAts (s : State) (f : Nat) : Fading s (settleAts s f) := .of_view rfl

/-- The end of a started command takes it from its queue and may halt or end queues (R355). -/
theorem fading_finishCmd (s : State) (q : QNum) (w : Started) (lost : Option Nat) : Fading s (finishCmd s q w lost) := by
  unfold finishCmd
  extract_lets x e seq left x1 x2 s1 s2 poison s3 s4 s5
  have h1 : Fading s s1 := by
    refine .trans ?_ (fading_traceRec ..)
    have hx : x2.st = x.st ∧ x2.job = x.job := by
      simp only [x2]
      split <;> exact ⟨rfl, rfl⟩
    exact .setQueue_same hx.1 hx.2
  have h2 : Fading s s2 := by
    refine .trans ?_ (fading_dropHeld ..)
    exact h1.trans (fading_trackDone ..)
  have h3 : Fading s s3 := by
    simp only [s3]
    split
    · exact h2.trans (fading_haltQueue ..)
    · split
      · exact h2.trans (fading_haltQueue ..)
      · exact h2
  have h4 : Fading s s4 := by
    simp only [s4]
    split
    · split
      · exact h3.trans (fading_stopJob ..)
      · exact h3
    · exact h3
  have h5 : Fading s s5 := by
    simp only [s5]
    split
    · exact h4.trans (fading_raiseMsix ..)
    · exact h4
  refine .trans ?_ (fading_settleAts ..)
  refine .trans ?_ (fading_settleFlush ..)
  exact h5.trans (fading_settleDestroy ..)

theorem fading_blurSpan (f job : Nat) (s : State) (sp : Span) : Fading s (blurSpan f job s sp) := by
  have hd : Fading s (drawBytes s sp.len).2 := .of_view rfl
  unfold blurSpan
  generalize drawBytes s sp.len = r at hd ⊢
  dsimp only
  split
  · exact hd.trans (.of_view rfl)
  · split
    · next hw => exact hd.trans (fading_vWrite hw)
    · exact hd
theorem fading_abortedDma (s : State) (w : Started) : Fading s (abortedDma s w).1 := by
  unfold abortedDma
  have hd : Fading s (drawWord s).2 := .of_view rfl
  generalize drawWord s = r at hd ⊢
  dsimp only
  split
  · exact hd
  · exact .refl s
theorem fading_completeStat (s : State) (f job : Nat) (w : Started) : Fading s (completeStat s f job w).1 :=
  completeStat_keeps (Fading s) (fun _ _ _ h => h.trans (.of_view rfl)) (fun _ _ _ _ h => h.trans (.of_view (by simp)))
    (fun _ _ _ _ h => h.trans (.of_view (by simp))) (fun _ _ _ _ h => h.trans (.of_view rfl)) s f job w (.refl s)

theorem fading_recordAborted (s : State) (q : QNum) (w : Started) : Fading s (recordAborted s q w) := by
  unfold recordAborted
  extract_lets x f s1
  have h1 : Fading s s1 := .foldl (fun s sp => fading_blurSpan _ _ s sp) _ _
  have h2 := h1.trans (fading_abortedDma s1 w)
  generalize abortedDma s1 w = r at h2 ⊢
  obtain ⟨s2, w2⟩ := r
  have h3 := h2.trans (fading_completeStat s2 f x.job.toNat w2)
  dsimp only
  generalize (completeStat s2 f x.job.toNat w2).1 = s3 at h3 ⊢
  split
  · next hw => exact (h3.trans (fading_vWrite hw)).trans (fading_finishCmd ..)
  · exact h3.trans (fading_finishCmd ..)

theorem fading_endAborted (s : State) (q : QNum) : Fading s (endAborted s q) := by
  unfold endAborted
  have h : Fading s ((s.queue q).started.foldl (fun s w => recordAborted s q w) s) := .foldl (fun s w => fading_recordAborted s q w) _ _
  dsimp only
  generalize (s.queue q).started.foldl (fun s w => recordAborted s q w) s = t at h ⊢
  split
  · exact h
  · exact h.trans (.setQueue_same rfl rfl)

theorem fading_freeTile (s : State) (a : Nat) : Fading s (freeTile s a) := (fading_dropTileRef s a).trans (.of_view rfl)
theorem fading_endReplays (s : State) (j : Nat) : Fading s (endReplays s j) := by
  refine .foldl (fun s t => ?_) _ _
  split
  · split
    · exact .foldl (fun _ _ => fading_genEnd ..) _ _
    · exact .refl s
  · exact .refl s
theorem fading_jobsEnded (s : State) : Fading s (jobsEnded s) := by
  unfold jobsEnded enterState
  dsimp only
  split
  · split
    · exact .of_view rfl
    · refine .trans ?_ (fading_postAll ..)
      exact .of_view rfl
  · exact .refl s

/-- One queue of a job that ends (R355). -/
def dropQueue (s : State) (q : QNum) : State :=
  let s := match (exeOf q (s.queue q)).array? with
    | some a => freeTile s a
    | none => s
  { s.setQueue q {} with ctxs := tdel q.toNat s.ctxs }

theorem fading_dropQueue (s : State) (q : QNum) : Fading s (dropQueue s q) := by
  unfold dropQueue
  dsimp only
  refine .trans (t := match (exeOf q (s.queue q)).array? with | some a => freeTile s a | none => s) ?_ ?_
  · split
    · exact fading_freeTile ..
    · exact .refl s
  · generalize (match (exeOf q (s.queue q)).array? with | some a => freeTile s a | none => s) = t
    exact (Fading.setQueue (q := q) (x := {}) fun h => absurd rfl h).trans (.of_view rfl)

/-- A job without its queues, as its end leaves the state (R355, R380). -/
def forgetJob (s : State) (j : Nat) : State :=
  { s with
    jobs := tdel j s.jobs
    paths := s.paths.map fun e => (e.1, dropDescWait j e.2)
    masks := s.masks.filter fun e => e.2.job.toNat != j
    samples := s.samples.map fun e => (e.1, e.2.filter fun x => x.job.toNat != j)
    msys := { s.msys with
      gens := s.msys.gens.map fun e => if e.2.entered && e.2.job.toNat == j then (e.1, { e.2 with entered := false, gen := 0 }) else e
      trackers := s.msys.trackers.map fun e => (e.1, e.2.filter fun t => t.job.toNat != j) } }

theorem releaseJob_eq (s : State) (j : Nat) :
    releaseJob s j = jobsEnded (forgetJob (endReplays ((queuesOf s j).foldl dropQueue ((queuesOf s j).foldl endAborted s)) j) j) := rfl

theorem fading_forgetJob (s : State) (j : Nat) : Fading s (forgetJob s j) :=
  ⟨rfl, fun i hi => by
    have h : (forgetJob s j).job? i = if i = j then none else s.job? i := tfind_tdel ..
    rw [h]
    split
    · rfl
    · exact hi, fun q hq => ⟨hq, rfl⟩⟩

theorem fading_releaseJob (s : State) (j : Nat) : Fading s (releaseJob s j) := by
  rw [releaseJob_eq]
  refine .trans ?_ (fading_jobsEnded ..)
  refine .trans ?_ (fading_forgetJob ..)
  refine .trans ?_ (fading_endReplays ..)
  refine .trans ?_ (.foldl fading_dropQueue _ _)
  exact .foldl fading_endAborted _ _

theorem releaseJob_job? (s : State) (j : Nat) : (releaseJob s j).job? j = none := by
  rw [releaseJob_eq]
  exact (fading_jobsEnded _).jobs j (tfind_tdel_same ..)

theorem Fading.free {s t : State} (h : Fading s t) {q : QNum} (hq : (s.queue q).st = .free) : (t.queue q).st = .free := by
  by_contra hn
  exact (h.queues q hn).1 hq

theorem dropQueue_queue (s : State) (q : QNum) : ((dropQueue s q).queue q).st = .free := congrArg Queue.st (queue_setQueue_same ..)
theorem dropQueues_free (l : List QNum) (s : State) {q : QNum} (h : q ∈ l) : ((l.foldl dropQueue s).queue q).st = .free := by
  induction l generalizing s with
  | nil => simp at h
  | cons p r ih =>
    rcases List.mem_cons.mp h with rfl | h
    · exact (Fading.foldl fading_dropQueue r (dropQueue s q)).free (dropQueue_queue s q)
    · exact ih _ h

theorem mem_of_tfind {α : Type} {t : Tab α} {k : Nat} {v : α} (h : tfind t k = some v) : (k, v) ∈ t := by
  induction t with
  | nil => simp [tfind] at h
  | cons e r ih =>
    obtain ⟨k', v'⟩ := e
    simp only [tfind] at h
    split at h
    · next hk => cases h; subst hk; exact List.mem_cons_self
    · exact List.mem_cons_of_mem _ (ih h)

/-- A queue that is not FREE stands in the table. -/
theorem mem_queues {s : State} {q : QNum} (h : (s.queue q).st ≠ .free) : (q.toNat, s.queue q) ∈ s.queues := by
  have he : s.queue q = (tfind s.queues q.toNat).getD {} := tget_eq_tfind ..
  cases hf : tfind s.queues q.toNat with
  | none => rw [he, hf] at h; exact absurd rfl h
  | some x => rw [he, hf]; exact mem_of_tfind hf

theorem mem_queuesOf {s : State} {q : QNum} {j : Nat} (hj : j ≠ 0) (h : (s.queue q).st ≠ .free) (hq : (s.queue q).job.toNat = j) : q ∈ queuesOf s j := by
  rw [queuesOf, if_neg hj]
  refine List.mem_map.mpr ⟨_, List.mem_filter.mpr ⟨mem_queues h, ?_⟩, ?_⟩
  · simp [h, hq]
  · simp

/-- No queue of a job outlives it (R380). -/
theorem releaseJob_queues {s : State} {j : Nat} (hj : j ≠ 0) (q : QNum) (h : ((releaseJob s j).queue q).st ≠ .free) :
    ((releaseJob s j).queue q).job.toNat ≠ j := by
  obtain ⟨hs, he⟩ := (fading_releaseJob s j).queues q h
  rw [he]
  intro hq
  refine h ?_
  rw [releaseJob_eq]
  refine Fading.free ?_ (dropQueues_free (queuesOf s j) ((queuesOf s j).foldl endAborted s) (mem_queuesOf hj hs hq))
  refine .trans ?_ (fading_jobsEnded ..)
  refine .trans ?_ (fading_forgetJob ..)
  exact fading_endReplays ..

/-! #### The report of an abort -/

/-- The report of an abort that is over, before it is written and posted (R384). -/
def reportAbort (s : State) (ofF : Bool) (t us : Nat) : State :=
  { s with
    aborts := s.aborts.filter fun a => !(a.ofFunction == ofF && a.target.toNat == t)
    abortStatus := BitVec.ofNat 32 (bits s.abortStatus.toNat 30 1 * 2 ^ 30 + us % 2 ^ 24) }

/-- A view of what an abort's report changes, that its record and its post do not. -/
theorem eventFree_report : EventFree fun s => (s.abortStatus, s.aborts, s.jobs, s.queues, s.load, s.sems, s.paths) where
  func _ _ _ := rfl
  count _ _ := rfl
  phys _ _ _ := rfl
  host s p a bs := by simp
  touch s a n l := by simp
  cache s f j v := rfl

theorem abortDone_view (s : State) (ofF : Bool) (t f us : Nat) :
    (abortDone s ofF t f us).abortStatus = (reportAbort s ofF t us).abortStatus ∧ (abortDone s ofF t f us).aborts = (reportAbort s ofF t us).aborts ∧
      (abortDone s ofF t f us).jobs = s.jobs ∧ (abortDone s ofF t f us).queues = s.queues ∧ (abortDone s ofF t f us).load = s.load ∧
      (abortDone s ofF t f us).sems = s.sems ∧ (abortDone s ofF t f us).paths = s.paths := by
  have hb : ∀ d, (fun s : State => (s.abortStatus, s.aborts, s.jobs, s.queues, s.load, s.sems, s.paths)) (bbWrite (reportAbort s ofF t us) 0x0006 0 0 d) =
      ((reportAbort s ofF t us).abortStatus, (reportAbort s ofF t us).aborts, s.jobs, s.queues, s.load, s.sems, s.paths) := by
    intro d
    unfold bbWrite
    dsimp only
    (repeat' split) <;> rfl
  have h := (eventFree_report.postEvent (bbWrite (reportAbort s ofF t us) 0x0006 0 0 (leBytes 4 (reportAbort s ofF t us).abortStatus.toNat ++ leBytes 4 t)) f 0x0004
    (if ofF then 0 else t) (BitVec.ofNat 8 (if ofF then 1 else 0) :: leBytes 4 t ++ leBytes 4 us)).trans (hb _)
  simp only [Prod.mk.injEq] at h
  exact h

theorem reportAbort_status {s : State} {ofF : Bool} {t us : Nat} (h : us < 2 ^ 24) :
    (reportAbort s ofF t us).abortStatus.toNat = bits s.abortStatus.toNat 30 1 * 2 ^ 30 + us := by
  have hb := bits_lt s.abortStatus.toNat 30 1
  have he : (reportAbort s ofF t us).abortStatus = BitVec.ofNat 32 (bits s.abortStatus.toNat 30 1 * 2 ^ 30 + us % 2 ^ 24) := rfl
  rw [he, BitVec.toNat_ofNat]
  omega

/-- The kind of the latest abort begun, as a report keeps it (R384). -/
theorem abortDone_kind (s : State) (ofF : Bool) (t f us : Nat) :
    bits (abortDone s ofF t f us).abortStatus.toNat 30 1 = bits s.abortStatus.toNat 30 1 := by
  have hb := bits_lt s.abortStatus.toNat 30 1
  have he : (abortDone s ofF t f us).abortStatus = BitVec.ofNat 32 (bits s.abortStatus.toNat 30 1 * 2 ^ 30 + us % 2 ^ 24) := (abortDone_view s ofF t f us).1
  rw [he, BitVec.toNat_ofNat, bits_eq _ 30 1]
  omega

/-! #### Aborts end -/

theorem fading_abandonHost (s : State) (f : Nat) (events : Bool) : Fading s (abandonHost s f events) := by
  unfold abandonHost
  dsimp only
  refine .trans ?_ (fading_bump ..)
  exact .of_view rfl

/-- From s to t no job appears and the kind of the latest abort stays. -/
def Ending (s t : State) : Prop := bits t.abortStatus.toNat 30 1 = bits s.abortStatus.toNat 30 1 ∧ ∀ j, s.job? j = none → t.job? j = none

theorem Fading.ending {s t : State} (h : Fading s t) : Ending s t := ⟨by rw [h.status], h.jobs⟩
theorem Ending.trans {s t u : State} (h : Ending s t) (h' : Ending t u) : Ending s u := ⟨h'.1.trans h.1, fun j hj => h'.2 j (h.2 j hj)⟩
theorem Ending.foldl {α : Type} {g : State → α → State} (h : ∀ s a, Ending s (g s a)) (l : List α) (s : State) : Ending s (l.foldl g s) := by
  induction l generalizing s with
  | nil => exact ⟨rfl, fun _ h => h⟩
  | cons a r ih => exact (h s a).trans (ih _)
theorem ending_abortDone (s : State) (ofF : Bool) (t f us : Nat) : Ending s (abortDone s ofF t f us) :=
  ⟨abortDone_kind .., fun j hj => by rwa [State.job?, (abortDone_view s ofF t f us).2.2.1]⟩
theorem ending_endMetAbort (f : Nat) (s : State) (j : Nat) : Ending s (endMetAbort f s j) :=
  (Fading.ending (.of_view rfl : Fading s (drawWord s).2)).trans (ending_abortDone ..)

theorem releaseAll_job? (l : List Nat) (s : State) {j : Nat} (h : j ∈ l) : (l.foldl releaseJob s).job? j = none := by
  induction l generalizing s with
  | nil => simp at h
  | cons i r ih =>
    rcases List.mem_cons.mp h with rfl | h
    · exact (Fading.foldl fading_releaseJob r (releaseJob s j)).jobs j (releaseJob_job? s j)
    · exact ih _ h

theorem mem_jobs {s : State} {j : Nat} {x : Job} (h : s.job? j = some x) : (j, x) ∈ s.jobs := mem_of_tfind h

/-- What the end of a function's abort leaves: its report, and none of its jobs (R380, R384). -/
theorem completeFunction_spec (s : State) (f us : Nat) : ∃ u, Ending s u ∧ completeFunction s f us = abortDone u true f f us ∧
    ∀ j x, s.job? j = some x → x.func.toNat = f → u.job? j = none := by
  unfold completeFunction
  dsimp only
  generalize hjs : (s.jobs.filter fun e => e.2.func.toNat == f).map (·.1) = js
  have h1 : Ending s (js.foldl releaseJob s) := (Fading.foldl fading_releaseJob js s).ending
  have hnone : ∀ j x, s.job? j = some x → x.func.toNat = f → (js.foldl releaseJob s).job? j = none := fun j x hx hf =>
    releaseAll_job? js s (hjs ▸ List.mem_map.mpr ⟨_, List.mem_filter.mpr ⟨mem_jobs hx, by simp [hf]⟩, rfl⟩)
  generalize js.foldl releaseJob s = s1 at h1 hnone ⊢
  have h2 := Ending.foldl (ending_endMetAbort f) ((s1.aborts.filter fun a => !a.ofFunction && js.contains a.target.toNat).map (·.target.toNat)) s1
  generalize ((s1.aborts.filter fun a => !a.ofFunction && js.contains a.target.toNat).map (·.target.toNat)).foldl (endMetAbort f) s1 = s2 at h2 ⊢
  have h3 : ∀ l : List Nat, Ending s2 (abandonHost (l.foldl (fun s q => endAborted s (BitVec.ofNat 15 q)) s2) f true) := fun l =>
    ((Fading.foldl (fun s q => fading_endAborted s (BitVec.ofNat 15 q)) l s2).trans (fading_abandonHost ..)).ending
  exact ⟨_, (h1.trans h2).trans (h3 _), rfl, fun j x hx hf => (h3 _).2 j (h2.2 j (hnone j x hx hf))⟩

theorem mem_reportAborts {s : State} {ofF : Bool} {t us : Nat} {a : Abort} (h : a ∈ (reportAbort s ofF t us).aborts) : ¬(a.ofFunction = ofF ∧ a.target.toNat = t) := by
  have h : a ∈ s.aborts.filter fun a => !(a.ofFunction == ofF && a.target.toNat == t) := h
  rintro ⟨h1, h2⟩
  have hb := (List.mem_filter.mp h).2
  simp [h1, h2] at hb

end Sys2Proof.Machine
end

section
/-! Aborts of jobs and functions (O37). -/

namespace Sys2Proof.Machine

/-! ### Aborts begin (O37) -/

/-- An aborted queue keeps its function and its job, and every started command is due a record of ABORTED (R380). -/
theorem abortQueue_spec {x : Queue} (h : x.st ≠ .free) (c : Option Cmd) :
    (abortQueue c x).st = .aborted ∧ (abortQueue c x).func = x.func ∧ (abortQueue c x).job = x.job ∧
      ∀ w ∈ (abortQueue c x).started, w.done = true ∧ w.status = 1 := by
  unfold abortQueue
  rw [if_neg h]
  extract_lets y
  have hy : y.func = x.func ∧ y.job = x.job := by
    simp only [y]
    split <;> exact ⟨rfl, rfl⟩
  refine ⟨rfl, hy.1, hy.2, fun w hw => ?_⟩
  obtain ⟨v, _, rfl⟩ := List.mem_map.mp hw
  exact ⟨rfl, rfl⟩

theorem queue_of_map {s t : State} {g : Nat → Queue → Queue} (h : t.queues = s.queues.map fun e => (e.1, g e.1 e.2)) {q : QNum}
    (hd : g q.toNat {} = {}) : t.queue q = g q.toNat (s.queue q) := by
  have e1 : t.queue q = (tfind t.queues q.toNat).getD {} := tget_eq_tfind ..
  have e2 : s.queue q = (tfind s.queues q.toNat).getD {} := tget_eq_tfind ..
  rw [e1, e2, h, tfind_map]
  cases tfind s.queues q.toNat with
  | none => exact hd.symm
  | some x => rfl

theorem queue_abortQueues (s : State) (p : Nat → Queue → Bool) (q : QNum) :
    (abortQueues s p).queue q = if (s.queue q).st ≠ .free ∧ p q.toNat (s.queue q) = true then abortQueue (commitWaits s q.toNat) (s.queue q) else s.queue q := by
  refine queue_of_map (g := fun k x => if x.st ≠ .free ∧ p k x = true then abortQueue (commitWaits s k) x else x) (List.map_congr_left fun e _ => ?_) (if_neg (by simp))
  by_cases h : e.2.st ≠ .free ∧ p e.1 e.2 = true
  · simp [h.1, h.2]
  · rw [if_neg (by simpa using h), if_neg h]

theorem enterAbort_entered (s : State) (ofF : Bool) (t : Nat) : ∃ a ∈ (enterAbort s ofF t).aborts, a.ofFunction = ofF ∧ a.target = BitVec.ofNat 32 t := by
  unfold enterAbort
  dsimp only
  split
  · next h => simpa using h
  · exact ⟨⟨ofF, BitVec.ofNat 32 t, false⟩, by simp, rfl, rfl⟩

/-- What the beginning of a job's abort makes of a queue (R380). -/
theorem queue_beginJobAbort {s : State} {j : Nat} {x : Job} (h : s.job? j = some x) (ha : x.aborting = false) (e : Option Port) (q : QNum) :
    (beginJobAbort s j e).queue q = if (s.queue q).st ≠ .free ∧ (s.queue q).job.toNat = j then abortQueue (commitWaits s q.toNat) (s.queue q) else s.queue q := by
  unfold beginJobAbort
  rw [h]
  dsimp only
  rw [if_neg (by simp [ha]), queue_congr (drainRed_queues ..), queue_congr (sendAbt_queues ..), queue_abortQueues]
  have hc : ∀ y, commitWaits (s.setJob j y) q.toNat = commitWaits s q.toNat := fun y => rfl
  have hq : ∀ y, (s.setJob j y).queue q = s.queue q := fun y => rfl
  rw [hc, hq]
  exact if_congr (by simp) rfl rfl

/-- A queue in use stays in use and with its function. -/
def InUse (q : QNum) (f : Nat) (s : State) : Prop := (s.queue q).st ≠ .free ∧ (s.queue q).func.toNat = f

theorem inUse_beginJobAbort {q : QNum} {f : Nat} {s : State} (h : InUse q f s) (j : Nat) (e : Option Port) : InUse q f (beginJobAbort s j e) := by
  cases hj : s.job? j with
  | none => unfold beginJobAbort; rw [hj]; exact h
  | some x =>
    cases ha : x.aborting with
    | true => unfold beginJobAbort; rw [hj]; dsimp only; rw [if_pos ha]; exact h
    | false =>
      unfold InUse
      rw [queue_beginJobAbort hj ha]
      split
      · obtain ⟨hst, hf, _⟩ := abortQueue_spec h.1 (commitWaits s q.toNat)
        exact ⟨by rw [hst]; decide, by rw [hf]; exact h.2⟩
      · exact h

/-- A failed wait of a queue (R372). -/
def failWait (s : State) (n status k : Nat) (x : Queue) : Queue :=
  match x.hold with
  | .wait i c m _ _ _ => if m.toNat = n then atHead s (BitVec.ofNat 15 k) (endBlocked x i c status 6 n) else x
  | .fill i m _ _ => if m.toNat = n then endFill x i status n else x
  | _ => x

theorem failWaits_st (s : State) (n status : Nat) (q : QNum) : ((failWaits s n status).queue q).st = (s.queue q).st := by
  have h : (failWaits s n status).queue q = failWait s n status q.toNat (s.queue q) := by
    refine queue_of_map (List.map_congr_left fun e _ => ?_) rfl
    obtain ⟨k, x⟩ := e
    unfold failWait
    dsimp only
    cases hx : x.hold <;> simp only
    all_goals split <;> rfl
  rw [h]
  unfold failWait
  (repeat' split) <;> rfl

/-- A semaphore whose owner ends (R372). -/
def orphan (s : State) (n : Nat) : State := failWaits (s.setSem n { s.sem n with st := .orphaned }) n stOrphaned

theorem sem_congr {s t : State} (h : t.sems = s.sems) (n : Nat) : t.sem n = s.sem n := by rw [State.sem, h]; rfl
theorem sem_orphan (s : State) (n k : Nat) : (orphan s n).sem k = if k = n then { s.sem k with st := .orphaned } else s.sem k := by
  rw [orphan, sem_congr (failWaits_sems ..)]
  by_cases h : k = n
  · subst h; simp
  · rw [sem_setSem_ne _ _ h, if_neg h]
theorem sem_orphanAll (l : List Nat) (s : State) (k : Nat) : (l.foldl orphan s).sem k = if k ∈ l then { s.sem k with st := .orphaned } else s.sem k := by
  induction l generalizing s with
  | nil => simp
  | cons n r ih =>
    rw [List.foldl_cons, ih, sem_orphan]
    by_cases h : k = n <;> by_cases hr : k ∈ r <;> simp [h, hr]
theorem orphanAll_st (l : List Nat) (s : State) (q : QNum) : ((l.foldl orphan s).queue q).st = (s.queue q).st := by
  induction l generalizing s with
  | nil => rfl
  | cons n r ih => exact (ih _).trans (failWaits_st ..)

theorem sem_orphanSems {s : State} {f n : Nat} (h : (s.sem n).st = .live) (ho : (s.sem n).owner.toNat = f) :
    (orphanSems s f).sem n = { s.sem n with st := .orphaned } := by
  have he : s.sem n = (tfind s.sems n).getD {} := tget_eq_tfind ..
  have hm : (n, s.sem n) ∈ s.sems := by
    cases hf : tfind s.sems n with
    | none => rw [he, hf] at h; exact absurd h (by decide)
    | some x => rw [he, hf]; exact mem_of_tfind hf
  refine (sem_orphanAll _ s n).trans (if_pos ?_)
  exact List.mem_map.mpr ⟨_, List.mem_filter.mpr ⟨hm, by simp [h, ho]⟩, rfl⟩

theorem abortFunction_queue {s : State} {f : Nat} {q : QNum} (hq : 4096 ≤ q.toNat) (h : InUse q f s) : ((abortFunction s f).queue q).st = .aborted := by
  unfold abortFunction
  dsimp only
  rw [queue_congr (enterAbort_queues ..)]
  refine (orphanAll_st _ _ q).trans ?_
  have h1 : InUse q f (stopLoad s fun w => w.func.toNat == f) := by unfold InUse; rw [queue_congr (stopLoad_queues ..)]; exact h
  generalize stopLoad s (fun w => w.func.toNat == f) = s1 at h1 ⊢
  have h2 : ∀ (l : List (Nat × Job)) (s : State), InUse q f s → InUse q f (l.foldl (fun s e => beginJobAbort s e.1 none) s) := fun l => by
    induction l with
    | nil => exact fun s hs => hs
    | cons e r ih => exact fun s hs => ih _ (inUse_beginJobAbort hs e.1 none)
  have h3 := h2 (s1.jobs.filter fun e => e.2.func.toNat == f) s1 h1
  generalize (s1.jobs.filter fun e => e.2.func.toNat == f).foldl (fun s e => beginJobAbort s e.1 none) s1 = s2 at h3 ⊢
  rw [queue_abortQueues]
  split
  · exact (abortQueue_spec h3.1 _).1
  · next hn => simpa [h3.1, h3.2, hq] using hn

theorem abortFunction_sem {s : State} {f n : Nat} (h : (s.sem n).st = .live) (ho : (s.sem n).owner.toNat = f) :
    (abortFunction s f).sem n = { s.sem n with st := .orphaned } := by
  unfold abortFunction
  dsimp only
  rw [sem_congr (enterAbort_sems ..)]
  have h1 := sem_congr (stopLoad_sems s fun w => w.func.toNat == f) n
  generalize stopLoad s (fun w => w.func.toNat == f) = s1 at h1 ⊢
  have h2 := sem_congr (foldl_keeps State.sems (fun s (e : Nat × Job) => beginJobAbort s e.1 none) (fun _ _ => beginJobAbort_sems ..)
    (s1.jobs.filter fun e => e.2.func.toNat == f) s1) n
  generalize (s1.jobs.filter fun e => e.2.func.toNat == f).foldl (fun s e => beginJobAbort s e.1 none) s1 = s2 at h2 ⊢
  have h3 := sem_congr (abortQueues_sems s2 fun k q => decide (4096 ≤ k) && q.func.toNat == f && q.st != .aborted) n
  generalize abortQueues s2 (fun k q => decide (4096 ≤ k) && q.func.toNat == f && q.st != .aborted) = s3 at h3 ⊢
  have he : s3.sem n = s.sem n := h3.trans (h2.trans h1)
  rw [sem_orphanSems (by rw [he]; exact h) (by rw [he]; exact ho), he]

theorem abortFunction_entered (s : State) (f : Nat) : ∃ a ∈ (abortFunction s f).aborts, a.ofFunction = true ∧ a.target = BitVec.ofNat 32 f := by
  unfold abortFunction
  exact enterAbort_entered _ true f

theorem sendAbt_view (s : State) (r : BitVec 10) (e : Option Port) : (sendAbt s r e).load = s.load := by
  unfold sendAbt
  split
  · rfl
  · dsimp only
    refine foldl_keeps State.load (fun s p => if some p = e then s else s.setPort p { s.port p with abtOut := (s.port p).abtOut ++ [r] }) (fun s p => ?_) _ s
    split <;> rfl

/-- The abort of the job being loaded stops the load and is over at once (R401). -/
theorem abortLoading_spec {s : State} {w : LoadWait} (h : s.load = some w) :
    (abortLoading s w).load = none ∧ ((abortLoading s w).path w.path).loadStatus.take 2 = leBytes 2 stAborted ∧
      (∀ a ∈ (abortLoading s w).aborts, ¬(a.ofFunction = false ∧ a.target.toNat = w.job)) ∧
      (abortLoading s w).queues = s.queues ∧ (abortLoading s w).jobs = s.jobs ∧ (abortLoading s w).sems = s.sems := by
  have hs : stopLoad s (fun _ => true) = { s with load := none }.setPath w.path { s.path w.path with
      loadStatus := loadStatusBytes { status := stAborted, stage := w.stage.toNat } false false 0 w.job } := by
    rw [stopLoad, h]; rfl
  unfold abortLoading
  dsimp only
  rw [hs]
  generalize hu : { s with load := none }.setPath w.path { s.path w.path with
      loadStatus := loadStatusBytes { status := stAborted, stage := w.stage.toNat } false false 0 w.job } = u
  have hpath : (u.path w.path).loadStatus.take 2 = leBytes 2 stAborted := by
    rw [← hu, path_setPath_same]
    simp only [loadStatusBytes, List.append_assoc]
    exact List.take_left' (length_leBytes ..)
  have hload : u.load = none := by rw [← hu]; rfl
  have hq : u.queues = s.queues := by rw [← hu]; rfl
  have hj : u.jobs = s.jobs := by rw [← hu]; rfl
  have hsem : u.sems = s.sems := by rw [← hu]; rfl
  clear hu hs
  generalize hv : enterAbort (sendAbt u (BitVec.ofNat 10 (byteField w.data 4 2)) none) false w.job = v
  have hvl : v.load = u.load := by
    rw [← hv, ← sendAbt_view u (BitVec.ofNat 10 (byteField w.data 4 2)) none]
    unfold enterAbort
    dsimp only
    split <;> rfl
  have hvp : v.paths = u.paths := by
    rw [← hv, ← sendAbt_paths u (BitVec.ofNat 10 (byteField w.data 4 2)) none]
    unfold enterAbort
    dsimp only
    split <;> rfl
  have hvq : v.queues = u.queues := by rw [← hv, enterAbort_queues, sendAbt_queues]
  have hvj : v.jobs = u.jobs := by rw [← hv, enterAbort_jobs, sendAbt_jobs]
  have hvs : v.sems = u.sems := by rw [← hv, enterAbort_sems, sendAbt_sems]
  unfold endMetAbort
  dsimp only
  obtain ⟨_, haborts, hjobs, hqueues, hload', hsems, hpaths⟩ := abortDone_view (drawWord v).2 false w.job w.func.toNat ((drawWord v).1.toNat % 2 ^ 24)
  have hpath' : ∀ t : State, t.paths = u.paths → t.path w.path = u.path w.path := fun t h => by rw [State.path, h]; rfl
  refine ⟨hload'.trans (hvl.trans hload), ?_, fun a ha => ?_, hqueues.trans (hvq.trans hq), hjobs.trans (hvj.trans hj), hsems.trans (hvs.trans hsem)⟩
  · rw [hpath' _ (hpaths.trans hvp)]; exact hpath
  · rw [haborts] at ha
    exact mem_reportAborts ha

/-! #### Aborts are given up and end -/

/-- The aborts of a target are abandoned (R380). -/
def abandoned (s : State) (ofF : Bool) (n : BitVec 32) : State :=
  { s with aborts := s.aborts.map fun a => if a.ofFunction = ofF ∧ a.target = n then { a with abandoned := true } else a }

theorem bump_view (s : State) (a b c n : Nat) : ((bump s a b c n).aborts, (bump s a b c n).mem, (bump s a b c n).queues, (bump s a b c n).funcs) = (s.aborts, s.mem, s.queues, s.funcs) := by
  unfold bump
  split <;> rfl

theorem abandonHost_spec (s : State) (f : Nat) (events : Bool) :
    (abandonHost s f events).aborts = s.aborts ∧ (abandonHost s f events).mem = s.mem ∧ (abandonHost s f events).queues = s.queues ∧
      (∀ e ∈ ((abandonHost s f events).func f).ats, e.2 ≠ .requested) ∧ (events = true → ((abandonHost s f events).func f).evWait = []) := by
  unfold abandonHost
  extract_lets x n
  generalize hu : s.setFunc f { x with ats := x.ats.filter fun e => e.2 != .requested, evWait := if events then [] else x.evWait } = u
  have hv := bump_view u 0x0B f 3 n
  simp only [Prod.mk.injEq] at hv
  obtain ⟨h1, h2, h3, h4⟩ := hv
  have hf : (bump u 0x0B f 3 n).func f = { x with ats := x.ats.filter fun e => e.2 != .requested, evWait := if events then [] else x.evWait } := by
    rw [State.func, h4, ← hu]
    exact func_setFunc_same ..
  rw [hf, h1, h2, h3, ← hu]
  refine ⟨rfl, rfl, rfl, fun e he => ?_, fun he => if_pos he⟩
  simpa using (List.mem_filter.mp he).2

/-- Settles O37: how aborts begin, are given up, and end. -/
theorem abortsRun : Obligations.AbortsRun := by
  unfold Obligations.AbortsRun
  refine ⟨⟨fun p job s j hc hj hp h0 ha => ?_, fun p job s w hc hj hl hw hp => ?_, fun p f s hc hf hp => ?_⟩,
    fun ofF n s h => ?_, fun job us s h h0 => ?_, fun f us s h => ?_⟩
  · have hm : mayAbortJob p j.func.toNat = true := by rcases hp with hp | hp <;> simp [mayAbortJob, hp]
    have hw : jobAbortWrite s p job.toNat = (stOk, abortJob s job.toNat) := by rw [jobAbortWrite, hj]; exact if_pos hm
    obtain ⟨b, c, n, e⟩ := writeEntry_high (d := leBytes 4 job.toNat) 0x6040 1 hc (by rw [leNat_leBytes_word]; exact congrArg some hw)
    refine ⟨_, congrArg Host.Outcome.next e, by simp [stOk], fun q hq hqj => ?_, ?_, by simp, by simp⟩
    · rw [answer_queue, withBanks_queue, abortJob, queue_congr (enterAbort_queues ..), queue_beginJobAbort hj ha, if_pos ⟨hq, by rw [hqj]⟩]
      obtain ⟨hst, _, _, hall⟩ := abortQueue_spec hq (commitWaits s q.toNat)
      exact ⟨hst, hall⟩
    · rw [answer_aborts, withBanks_aborts, abortJob]
      simpa using enterAbort_entered (beginJobAbort s job.toNat none) false job.toNat
  · have hm : mayAbortJob p w.func.toNat = true := by rcases hp with hp | hp <;> simp [mayAbortJob, hp]
    have hw' : jobAbortWrite s p job.toNat = (stOk, abortLoading s w) := by rw [jobAbortWrite, hj, hl]; exact if_pos (by simp [hw, hm])
    obtain ⟨b, c, n, e⟩ := writeEntry_high (d := leBytes 4 job.toNat) 0x6040 1 hc (by rw [leNat_leBytes_word]; exact congrArg some hw')
    obtain ⟨hload, hpath, haborts, hqueues, hjobs, hsems⟩ := abortLoading_spec hl
    refine ⟨_, congrArg Host.Outcome.next e, by simp [stOk], by simpa using hload, ?_, fun a ha hn => haborts a (by simpa using ha) ⟨hn.1, by rw [hn.2, hw]⟩,
      by simpa using hqueues, by simpa using hjobs, by simpa using hsems⟩
    by_cases hpp : w.path = p
    · subst hpp
      rw [path_answer_same]
      exact hpath
    · rw [path_answer_ne _ _ _ hpp]
      exact hpath
  · have hm : (functionExists s f.toNat && match pathFunc p with | some g => mayAbort g f.toNat | none => true) = true := by
      rw [hf, Bool.true_and]
      cases h : pathFunc p with
      | none => rfl
      | some g => exact hp g h
    have hw : functionAbortWrite s p f.toNat = (stOk, abortFunction s f.toNat) := if_pos hm
    obtain ⟨b, c, n, e⟩ := writeEntry_high (d := [f]) 0x6040 2 hc (by rw [leNat_byte]; exact congrArg some hw)
    refine ⟨_, congrArg Host.Outcome.next e, by simp [stOk], fun q hq h1 h2 => ?_, fun n h1 h2 => ?_, ?_, by simp⟩
    · rw [answer_queue, withBanks_queue]
      exact abortFunction_queue hq ⟨h1, h2⟩
    · rw [answer_sem, withBanks_sem]
      exact abortFunction_sem h1 h2
    rw [answer_aborts, withBanks_aborts]
    obtain ⟨a, ha, h1, h2⟩ := abortFunction_entered s f.toNat
    refine ⟨a, ha, h1, ?_⟩
    have := f.isLt
    rw [h2, BitVec.toNat_ofNat]
    omega
  · have hmap : ∀ a ∈ (abandoned s ofF n).aborts, a.ofFunction = ofF → a.target = n → a.abandoned = true := fun a ha h1 h2 => by
      obtain ⟨b, _, rfl⟩ := List.mem_map.mp ha
      split at h1 <;> simp_all
    cases ofF with
    | true =>
      obtain ⟨haborts, hmem, hqueues, hats, hwait⟩ := abandonHost_spec (abandoned s true n) n.toNat true
      exact ⟨_, if_pos h, fun a ha => hmap a (haborts ▸ ha), fun _ => ⟨hats, hwait rfl⟩, fun _ hf => (nomatch hf), hmem, hqueues⟩
    | false =>
      have hexec : exec (.abortAbandonDeadline false n) s = .next (match s.job? n.toNat with
        | some j => abandonHost (abandoned s false n) j.func.toNat false
        | none => abandoned s false n) := if_pos h
      cases hj : s.job? n.toNat with
      | none =>
        rw [hj] at hexec
        exact ⟨_, hexec, hmap, (nomatch ·), fun _ _ hk => (nomatch hk), rfl, rfl⟩
      | some j =>
        rw [hj] at hexec
        obtain ⟨haborts, hmem, hqueues, hats, _⟩ := abandonHost_spec (abandoned s false n) j.func.toNat false
        exact ⟨_, hexec, fun a ha => hmap a (haborts ▸ ha), (nomatch ·), fun _ _ hk => Option.some.inj hk ▸ hats, hmem, hqueues⟩
  · refine ⟨_, if_pos h, ?_⟩
    have hne : job.toNat ≠ 0 := fun e => h0 (BitVec.eq_of_toNat_eq e)
    have hfade := fading_releaseJob s job.toNat
    have hjob := releaseJob_job? s job.toNat
    have hqueue := releaseJob_queues (s := s) hne
    generalize releaseJob s job.toNat = t at hfade hjob hqueue ⊢
    obtain ⟨hstatus, haborts, hjobs, hqueues, _⟩ := abortDone_view t false job.toNat (s.job job.toNat).func.toNat us.toNat
    refine ⟨?_, fun a ha hn => ?_, ?_, fun q hq e => ?_⟩
    · rw [hstatus, reportAbort_status us.isLt, hfade.status]
    · exact mem_reportAborts (haborts ▸ ha) ⟨hn.1, by rw [hn.2]⟩
    · rw [State.job?, hjobs]; exact hjob
    · rw [queue_congr hqueues] at hq e
      exact hqueue q hq (by rw [e])
  · obtain ⟨u, hend, he, hgone⟩ := completeFunction_spec s f.toNat us.toNat
    refine ⟨_, (if_pos h).trans (congrArg Host.Outcome.next he), ?_⟩
    obtain ⟨hstatus, haborts, hjobs, _⟩ := abortDone_view u true f.toNat f.toNat us.toNat
    refine ⟨?_, fun a ha hn => ?_, fun j x hx hf => ?_⟩
    · rw [hstatus, reportAbort_status us.isLt, hend.1]
    · exact mem_reportAborts (haborts ▸ ha) ⟨hn.1, by rw [hn.2]⟩
    · rw [State.job?, hjobs]; exact hgone j x hx hf

end Sys2Proof.Machine
end

section
/-! Answers over SPDM (O41). -/

namespace Sys2Proof.Machine

/-- A running responder answers (R517). -/
theorem answering_of_up {p : SpdmPath} {s : State} (hup : s.trust.rootUp = true) (hp : p = .mgmt ∨ s.ticking = true) (act : State → State) :
    answering s p act = .next (act s) :=
  congrArg Host.Outcome.next (if_pos (by rcases hp with hp | hp <;> simp [hup, hp]))

/-- A requester that has reached the stage is served. -/
theorem needStage_of_le {p : SpdmPath} {n : Nat} {s : State} (h : n ≤ spdmStage s p) (act : State → State) : needStage p n act s = act s :=
  if_neg (by omega)

theorem answering_needStage {p : SpdmPath} {s : State} (hup : s.trust.rootUp = true) (hp : p = .mgmt ∨ s.ticking = true) {n : Nat}
    (h : n ≤ spdmStage s p) (act : State → State) : answering s p (needStage p n act) = .next (act s) :=
  (answering_of_up hup hp _).trans (congrArg Host.Outcome.next (needStage_of_le h act))

theorem length_chainDigest : chainDigest.length = 32 := length_leBytes ..

/-- Settles O41: every request of a running responder, from the stage that it needs. -/
theorem spdmAnswers : Obligations.SpdmAnswers := by
  unfold Obligations.SpdmAnswers
  intro p s hup hp
  have served := fun {n : Nat} (h : n ≤ spdmStage s p) (act : State → State) => answering_needStage hup hp h act
  refine ⟨answering_of_up hup hp fun s => respond (setStage s p 1) [0x04, 0x00, 0x13], fun h => served h _, fun h => ⟨served h _, fun a b hab => (served h _).trans ?_⟩,
    fun h => ⟨served h _, fun off len hoff => ?_, fun nonce => ?_, fun i sg nonce m hm => ?_⟩⟩
  · rw [hab]; rfl
  · refine ⟨_, (served h _).trans (congrArg Host.Outcome.next (if_neg (by simpa using hoff))), ?_, rfl⟩
    exact List.drop_left' (by simp [length_leBytes])
  · refine ⟨_, _, (served h _).trans (congrArg Host.Outcome.next (if_neg (by simp))), rfl, ?_, rfl, rfl, rfl⟩
    simp only [List.cons_append, List.nil_append, List.drop_succ_cons, List.drop_zero]
    exact List.take_left' length_chainDigest
  · have hexec : exec (.getMeasurements p i sg nonce) s = .next (if sg then
        respond (drawBytes s 32).2 (signed nonce ([0x60, 0x00] ++ m ++ (drawBytes s 32).1)) else respond s ([0x60, 0x00] ++ m)) := by
      refine (served h _).trans ?_
      rw [hm]
    refine ⟨_, hexec, ?_, fun hsg => ?_, ?_⟩
    · cases sg <;> simp [respond, signed]
    · subst hsg; exact ⟨_, rfl⟩
    · cases sg <;> exact ⟨rfl, rfl, rfl⟩
end Sys2Proof.Machine
end

section
/-! A load whose event ring lies in device memory (O38). -/

namespace Sys2Proof.Machine

/-! #### A load that ends while an event ring lies in device memory (O38)

The load of a READY module takes it to RUNNING, which posts MODULE_STATE (R384, R539); the record goes into the event ring of each function that has one. -/

/-- A directory entry of an empty section. -/
def emptySection (type : Nat) : List Byte := leBytes 2 type ++ leBytes 6 0 ++ leBytes 8 256 ++ leBytes 16 0

/-- An image with the three sections that one must have, all empty (R391). -/
def emptyImage : List Byte :=
  leBytes 4 0x49525653 ++ [1, 0, 3, 0] ++ leBytes 24 0 ++ [16, 0, 0, 0] ++ leBytes 4 0 ++ [1, 1, 1, 1] ++ leBytes 20 0 ++
    emptySection 1 ++ emptySection 3 ++ emptySection 4

/-- A READY module. Its function 0 has a page table at 0x10000000 that maps the first GiB of device memory onto itself, the image at 0x1000 and an event ring at 0x2000. -/
def ringed : State :=
  { time := { st := .aligned, tick := 1000, refPresent := true }, trust := { sfUp := true }, power := { state := .ready }
    funcs := [(0, { agreed := 1, levelHost := 1, root := 0x10000001, ringBase := 0x2000, ringN := 4 })]
    mem := memPut 0x1000 emptyImage (memPut 0x10000000 (leBytes 8 0x10010001) (memPut 0x10010000 (leBytes 8 7) [])) }

/-- The request to load that image as job 1. -/
def ringedRequest : List Byte := leBytes 4 1 ++ leBytes 4 0 ++ leBytes 8 0x1000 ++ leBytes 8 256 ++ leBytes 16 0

/-- Its load. -/
def ringedLoad : Load := { s := ringed, path := .mgmt, f := 0, job := 1, red := 0, image := 0x1000, imageLen := 256, bind := 0, bindCount := 0 }

/-- The ten stages succeed, and the first byte of the event ring is still 0. -/
theorem ringedLoad_runs : ∃ r, (ExceptT.run allStages).run ringedLoad = (.ok (), r) ∧ physRead r.s 0x2000 1 = [0] := by
  have hok : (match ((ExceptT.run allStages).run ringedLoad).1 with | .ok _ => true | .error _ => false) = true := by decide +kernel
  have hbyte : physRead ((ExceptT.run allStages).run ringedLoad).2.s 0x2000 1 = [0] := by decide +kernel
  generalize (ExceptT.run allStages).run ringedLoad = x at hok hbyte
  obtain ⟨e | u, r⟩ := x
  · exact absurd hok (by simp)
  · exact ⟨r, rfl, hbyte⟩

/-- The request leaves the first byte of MODULE_STATE's code in the event ring. -/
theorem ringedRequest_byte : (match exec (.loadRequest .mgmt ringedRequest) ringed with
    | .next t => physRead t 0x2000 1
    | _ => []) = [3] := by decide +kernel

theorem ringedLoad_fields :
    ringedLoad = { s := ringed, path := .mgmt, f := 0, job := byteField ringedRequest 0 4, red := byteField ringedRequest 4 2, image := byteField ringedRequest 8 8,
                   imageLen := byteField ringedRequest 0x10 8, bind := byteField ringedRequest 0x18 8, bindCount := byteField ringedRequest 0x20 4 } := by
  have hfields : ∀ e ∈ [(0, 4, 1), (4, 2, 0), (8, 8, 0x1000), (0x10, 8, 256), (0x18, 8, 0), (0x20, 4, 0)], byteField ringedRequest e.1 e.2.1 = e.2.2 := by
    decide +kernel
  simp only [List.forall_mem_cons] at hfields
  obtain ⟨hjob, hred, himage, hlen, hbind, hcount, _⟩ := hfields
  rw [hjob, hred, himage, hlen, hbind, hcount]
  rfl

/-- Refutes O38: a load that succeeds takes the READY module to RUNNING, and the record of that event goes into the event ring, so memory is not what the stages left. -/
theorem not_loadRunsOrIsUndone : ¬ Obligations.LoadRunsOrIsUndone := by
  unfold Obligations.LoadRunsOrIsUndone
  intro h
  obtain ⟨hruns, _⟩ := h .mgmt ringedRequest ringed 0 ringedLoad (by decide +kernel) (by decide +kernel) (by decide) (by decide +kernel) (by decide +kernel)
    (by decide +kernel) (by decide +kernel) (by decide +kernel) (by decide +kernel) ringedLoad_fields
  obtain ⟨hsuccess, _, _⟩ := hruns rfl (by decide) (by decide)
  obtain ⟨r, hr, hbefore⟩ := ringedLoad_runs
  obtain ⟨t, ht, _, _, _, _, _, _, _, hmem, _⟩ := hsuccess r hr
  have hafter := ringedRequest_byte
  rw [ht] at hafter
  dsimp only at hafter
  have hsame : physRead t 0x2000 1 = physRead r.s 0x2000 1 := by rw [physRead, hmem]; rfl
  rw [hafter, hbefore] at hsame
  exact absurd hsame (by decide)

end Sys2Proof.Machine
end

section
/-! A mode chosen in Snowdrop (O45). -/

namespace Sys2Proof.Machine

/-! #### A mode chosen in Snowdrop while an event ring lies in device memory (O45) -/

/-- A module in STANDBY whose function 0 has its event ring at 0x2000 of device memory. -/
def standbyRinged : State := { ringed with power := { state := .standby, mode := 3 } }

theorem standbyRinged_check : writeCheck standbyRinged .mgmt 0x2000 1 0 1 = stOk := by decide +kernel

/-- Dahlia takes the module to READY, and the first byte of MODULE_STATE's code stands in the event ring. -/
theorem standbyRinged_byte : (match exec (.setModeDahlia .mgmt) standbyRinged with
    | .next t => physRead t 0x2000 1
    | _ => []) = [3] := by decide +kernel

/-- Refutes O45: a mode chosen in Snowdrop takes STANDBY to READY, and the record of that event goes into the event ring, so memory does not stay. -/
theorem not_temperaturesAndModes : ¬ Obligations.TemperaturesAndModes := by
  unfold Obligations.TemperaturesAndModes
  intro h
  obtain ⟨_, ⟨_, hwake, _⟩, _⟩ := h
  obtain ⟨t, ht, _, _, _, _, _, hmem, _⟩ := hwake .mgmt standbyRinged (.setModeDahlia .mgmt) 0 (.inl ⟨rfl, rfl⟩) standbyRinged_check rfl rfl rfl
  have hafter := standbyRinged_byte
  rw [ht] at hafter
  dsimp only at hafter
  have hsame : physRead t 0x2000 1 = physRead standbyRinged 0x2000 1 := by rw [physRead, hmem]; rfl
  have hbefore : physRead standbyRinged 0x2000 1 = [0] := by decide +kernel
  rw [hafter, hbefore] at hsame
  exact absurd hsame (by decide)

end Sys2Proof.Machine
end

section
/-! Start-up in Snowdrop (O42). -/

namespace Sys2Proof.Machine

/-! #### Start-up in Snowdrop while a chain uses a torus port (O42) -/

/-- A LINKED module of stored Snowdrop, ready for READY, without a job: a chain of queue 6 uses port 0, which is in service. -/
def chainedLinked : State :=
  { time := { st := .aligned, tick := 1000, refPresent := true }, power := { state := .linked, tested := true, pwrGood := true, mode := 3 }
    ports := [(0, { st := .active })]
    queues := [(6, { st := .active, started := [{ idx := 0, op := 0x70, cmd := 0x70, done := false }] })]
    ctxs := [(6, { cur := some (0, 0x70), running := true })] }

/-- STANDBY disables the port, which ends the chain and with it the command of queue 6 (R421, R532). -/
theorem chainedLinked_done : (match exec .readyConditionsMet chainedLinked with
    | .next t => t.queues.map fun e => e.2.started.map (·.done)
    | _ => []) = [[true]] := by decide +kernel

/-- Refutes O42: start-up in Snowdrop disables the torus ports, and a chain on one of them ends, which marks its command in its queue; so the queues do not stay. -/
theorem not_powerOnAndStartUp : ¬ Obligations.PowerOnAndStartUp := by
  unfold Obligations.PowerOnAndStartUp
  intro h
  obtain ⟨_, _, _, _, hstandby⟩ := h
  obtain ⟨t, ht, _, _, hqueues, _⟩ := hstandby chainedLinked rfl (by decide +kernel) rfl rfl
  have hafter := chainedLinked_done
  rw [ht] at hafter
  dsimp only at hafter
  rw [hqueues] at hafter
  exact absurd hafter (by decide)

end Sys2Proof.Machine
end

section
/-! Resets (O46). -/

namespace Sys2Proof.Machine

/-! ### What a boot keeps, and what a change of state does to power -/

/-- A boot reads the store into the module's settings, and keeps the rest of the module as the reset left it (R492, R543). -/
theorem boot_keeps {β : Type} (F : State → β) (hstore : ∀ s, F (applyStore s) = F s) (hrepair : ∀ (s : State) d, F { s with dict := d } = F s)
    (hslot : ∀ (s : State) t, F { s with trust := t } = F s) (hstate : ∀ s : State, F { s with power := { s.power with state := .managed } } = F s)
    (s : State) (on : Bool) : F (boot s on) = F s := by
  have hbb : ∀ s a b c d n x, F (bbWrite s a b c d n x) = F s := fun s a b c d n x => by
    unfold bbWrite
    dsimp only
    (repeat' split) <;> exact hrepair ..
  have hset : ∀ s n x, F (setSlot s n x) = F s := fun s n x => hslot ..
  have hroot : ∀ s k, F (bootRoot s k) = F s := fun s k => by
    unfold bootRoot
    split
    · exact hslot ..
    · rw [hbb, hslot, hset]
  have hclaims : ∀ s, F (remakeClaims s) = F s := remakeClaims_keeps F fun s i k v a b c d => by
    obtain ⟨e, _, he⟩ := persist_eq (s.setReg i k v) i k v
    rw [hbb, he, hrepair]
    exact hrepair ..
  unfold boot
  extract_lets s1 s2 s3
  rw [hstate]
  have h3 : F s3 = F s2 := by
    simp only [s3]
    split
    · exact hbb ..
    · rfl
  rw [h3]
  simp only [s2, s1]
  rw [hclaims, hroot, hstore]
  split
  · exact hrepair ..
  · rfl

theorem boot_view (s : State) (on : Bool) :
    (boot s on).jobs = s.jobs ∧ (boot s on).queues = s.queues ∧ (boot s on).sems = s.sems ∧ (boot s on).time = s.time ∧
      (boot s on).power.resetHeld = s.power.resetHeld ∧ (boot s on).power.state = .managed := by
  have h := boot_keeps (fun s => (s.jobs, s.queues, s.sems, s.time, s.power.resetHeld)) (fun _ => rfl) (fun _ _ => rfl) (fun _ _ => rfl) (fun _ => rfl) s on
  simp only [Prod.mk.injEq] at h
  obtain ⟨h1, h2, h3, h4, h5⟩ := h
  exact ⟨h1, h2, h3, h4, h5, rfl⟩

/-! ### Resets (O46) -/

/-- A module reset ends every job, queue and semaphore, and the time unit is UNLOCKED (R541). -/
theorem resetModule_view (s : State) (pin : Bool) :
    (resetModule s pin).jobs = [] ∧ (resetModule s pin).queues = [] ∧ (resetModule s pin).sems = [] ∧ (resetModule s pin).time.st = .unlocked ∧
      (resetModule s pin).power.state = .managed := by
  cases pin with
  | true => exact ⟨rfl, rfl, rfl, rfl, rfl⟩
  | false =>
    obtain ⟨hjobs, hqueues, hsems, htime, _, hstate⟩ := boot_view (restarted (abortAll s) false) false
    exact ⟨hjobs, hqueues, hsems, congrArg TimeUnit.st htime, hstate⟩

theorem withBanks_pending (s : State) (b c : Bank) (j : Nat) : (withBanks s b c j).pending = s.pending := rfl

theorem resetWrite_module (s : State) : resetWrite s (leNat (leBytes 4 0x0A5A)) = (stOk, resetModule s false) := if_pos (by decide)
theorem resetWrite_mgmt (s : State) : resetWrite s (leNat (leBytes 4 0x0A5B)) = (stOk, mgmtReset s) := (if_neg (by decide)).trans (if_pos (by decide))

/-- Settles O46: resets from the pin, on request and of the management island. -/
theorem resetsRestart : Obligations.ResetsRestart := by
  unfold Obligations.ResetsRestart
  refine ⟨fun s hs hr => ?_, fun p s hc => ?_, fun s hr => ?_, fun p s hc => ?_⟩
  · obtain ⟨hjobs, hqueues, hsems, htime, _⟩ := resetModule_view s true
    have hexec : exec (.moduleReset none) s = .next (resetModule s true) := congrArg Host.Outcome.next (if_neg (by simp [hs, hr]))
    exact ⟨_, hexec, rfl, hjobs, hqueues, hsems, htime, rfl, resetModule_pending s true⟩
  · obtain ⟨hjobs, hqueues, hsems, htime, hstate⟩ := resetModule_view s false
    obtain ⟨b, c, j, e⟩ := writeEntry_low (d := leBytes 4 0x0A5A) (t := resetModule s false) 0x2010 3 hc (congrArg some (resetWrite_module s))
    refine ⟨_, congrArg Host.Outcome.next e, ?_, ?_, ?_, ?_, ?_, ?_⟩
    · rw [answer_jobs, withBanks_jobs, hjobs]
    · rw [answer_queues, withBanks_queues, hqueues]
    · rw [answer_sems, withBanks_sems, hsems]
    · rw [answer_time, withBanks_time, htime]
    · rw [answer_power, withBanks_power, hstate]
    · rw [answer_pending, withBanks_pending, resetModule_pending]
  · obtain ⟨hjobs, _, _, _, hheld, hstate⟩ := boot_view { s with power := { s.power with resetHeld := false } } false
    exact ⟨_, if_pos hr, hheld, hstate, boot_mem .., hjobs⟩
  · obtain ⟨b, c, j, e⟩ := writeEntry_low (d := leBytes 4 0x0A5B) (t := mgmtReset s) 0x2010 3 hc (congrArg some (resetWrite_mgmt s))
    exact ⟨_, congrArg Host.Outcome.next e, by simp [stOk], rfl, rfl, rfl, rfl, rfl, rfl, rfl⟩

end Sys2Proof.Machine
end

section
/-! Faults of the input (O43). -/

namespace Sys2Proof.Machine

/-! ### Faults of the input (O43) -/

theorem enterState_power (s : State) (n : ModState) : (enterState s n).power = { s.power with state := n } := by
  unfold enterState
  dsimp only
  split
  · next h => rw [← h]
  · rw [postAll_power]

/-- A module that is neither OFF nor FAULTED takes the fault (R538, R539). -/
theorem enterFaulted_power {s : State} (h1 : s.power.state ≠ .off) (h2 : s.power.state ≠ .faulted) (cause : Nat) :
    (enterFaulted s cause).power = { s.power with state := .faulted, faultCause := BitVec.ofNat 8 cause } := by
  unfold enterFaulted
  rw [if_neg (by simp [h1, h2]), enterState_power]

theorem enterFaulted_of_faulted {s : State} (h : s.power.state = .faulted) (cause : Nat) : enterFaulted s cause = s := if_pos (.inl h)

/-- The abort of a job marks it and leaves the other jobs (R380). -/
theorem job?_abortJob_same {s : State} {j : Nat} {x : Job} (h : (abortJob s j).job? j = some x) : x.aborting = true := by
  rw [abortJob, State.job?, enterAbort_jobs, ← State.job?] at h
  unfold beginJobAbort at h
  split at h
  · next hn => rw [hn] at h; cases h
  · next y hy =>
    split at h
    · next ha => rw [hy] at h; rw [← Option.some.inj h]; exact ha
    · dsimp only at h
      rw [State.job?, drainRed_jobs, sendAbt_jobs, abortQueues_jobs, ← State.job?, job?_setJob_same] at h
      rw [← Option.some.inj h]

theorem job?_abortJob_ne (s : State) {i j : Nat} (h : i ≠ j) : (abortJob s j).job? i = s.job? i := by
  rw [abortJob, State.job?, enterAbort_jobs, ← State.job?]
  unfold beginJobAbort
  split
  · rfl
  · split
    · rfl
    · dsimp only
      rw [State.job?, drainRed_jobs, sendAbt_jobs, abortQueues_jobs, ← State.job?, job?_setJob_ne _ _ h]

/-- Once the aborts of a list of jobs have begun, every one of them aborts, and the others stay. -/
theorem job?_abortJobs (l : List Nat) (s : State) (i : Nat) (x : Job) (h : (l.foldl (fun s j => abortJob s j) s).job? i = some x) :
    x.aborting = true ∨ i ∉ l ∧ s.job? i = some x := by
  induction l generalizing s with
  | nil => exact .inr ⟨by simp, h⟩
  | cons j r ih =>
    rcases ih _ h with ha | ⟨hr, hx⟩
    · exact .inl ha
    · by_cases hi : i = j
      · subst hi; exact .inl (job?_abortJob_same hx)
      · exact .inr ⟨by simp [hi, hr], by rwa [job?_abortJob_ne s hi] at hx⟩

/-- INPUT_MV and the latches of an input outside its range (R538). -/
def inputOut (s : State) (mv : BitVec 16) : State :=
  { s with power := { s.power with
      inputMv := mv, inRange := false, overvolt := s.power.overvolt || decide (60000 < mv.toNat), undervolt := s.power.undervolt || decide (mv.toNat < 40000) } }

/-- The jobs abort and INPUT_RANGE is posted. -/
def inputAborted (s : State) (mv : BitVec 16) : State :=
  postAll (((inputOut s mv).jobs.map (·.1)).foldl (fun s j => abortJob s j) (inputOut s mv)) 0x0302 (leBytes 2 mv.toNat)

theorem inputAborted_view (s : State) (mv : BitVec 16) :
    (inputAborted s mv).power = (inputOut s mv).power ∧ (inputAborted s mv).trust = s.trust ∧
      ∀ j x, (inputAborted s mv).job? j = some x → x.aborting = true := by
  refine ⟨?_, ?_, fun j x h => ?_⟩
  · rw [inputAborted, postAll_power]
    exact foldl_keeps State.power (fun s (j : Nat) => abortJob s j) (fun _ _ => abortJob_power ..) _ _
  · rw [inputAborted, postAll_trust]
    exact foldl_keeps State.trust (fun s (j : Nat) => abortJob s j) (fun _ _ => abortJob_trust ..) _ _
  · rw [inputAborted, State.job?, postAll_jobs, ← State.job?] at h
    rcases job?_abortJobs _ _ j x h with ha | ⟨hn, hx⟩
    · exact ha
    · exact absurd (List.mem_map.mpr ⟨_, mem_jobs hx, rfl⟩) hn

/-- Settles O43: loss and faults of the input. -/
theorem inputFaults : Obligations.InputFaults := by
  unfold Obligations.InputFaults
  refine ⟨fun mv s h => ⟨_, if_neg (by omega), rfl, rfl, rfl, rfl, rfl⟩, fun mv s h hoff => ?_, fun s h => if_neg h, fun s => rfl, fun s h1 h2 => ?_⟩
  · obtain ⟨hpower, htrust, hjobs⟩ := inputAborted_view s mv
    have hexec : exec (.inputOutOfRange mv) s = .next (if (inputAborted s mv).trust.rootUp then enterFaulted (inputAborted s mv) 2
        else { inputAborted s mv with power := { (inputAborted s mv).power with faultHeld := true } }) :=
      if_neg (by rintro (⟨h1, h2⟩ | h1) <;> [omega; exact hoff h1])
    rw [htrust] at hexec
    generalize inputAborted s mv = u at hpower htrust hjobs hexec
    have hst : u.power.state = s.power.state := by rw [hpower]; rfl
    cases hup : s.trust.rootUp with
    | false =>
      rw [hup, if_neg Bool.false_ne_true] at hexec
      exact ⟨_, hexec, by rw [hpower]; rfl, (nomatch ·), (nomatch ·), fun _ => ⟨rfl, hst⟩, fun j x hx _ => hjobs j x hx⟩
    | true =>
      rw [hup, if_pos rfl] at hexec
      have hj : ∀ j, (enterFaulted u 2).job? j = u.job? j := fun j => by rw [State.job?, enterFaulted_jobs]; rfl
      by_cases hf : s.power.state = .faulted
      · have he := enterFaulted_of_faulted (hst.trans hf) 2
        exact ⟨_, hexec, by rw [he, hpower]; rfl, fun _ hn => absurd hf hn, fun _ _ => by rw [he, hpower]; exact ⟨hf, rfl⟩, (nomatch ·),
          fun j x hx _ => hjobs j x (by rw [← hj j]; exact hx)⟩
      · have he := enterFaulted_power (s := u) (by rwa [hst]) (by rwa [hst]) 2
        exact ⟨_, hexec, by rw [he, hpower]; rfl, fun _ _ => by rw [he]; exact ⟨rfl, rfl⟩, fun _ hf' => absurd hf' hf, (nomatch ·),
          fun j x hx _ => hjobs j x (by rw [← hj j]; exact hx)⟩
  · refine ⟨_, rfl, ?_, ?_, enterFaulted_queues .., enterFaulted_jobs ..⟩ <;> rw [enterFaulted_power h1 h2]; rfl

end Sys2Proof.Machine
end

section
/-! Firmware update and activation (O39). -/

namespace Sys2Proof.Machine

/-! ### Flash and slots -/

theorem slotOf_setSlot_empty (s : State) (n : Nat) : (slotOf (setSlot s n {}) n).valid = false := by
  have h : slotOf (setSlot s n {}) n = (s.trust.slots.set n {}).getD n {} := rfl
  rw [h, List.getD_eq_getElem?_getD, List.getElem?_set_self']
  cases s.trust.slots[n]? <;> rfl

/-- What the flash holds after bytes have been programmed. -/
theorem tfind_flashPut (n off : Nat) (bs : List Byte) (f : Tab Byte) (k : Nat) :
    tfind (flashPut n off bs f) k =
      if 2 ^ 24 * n + off ≤ k ∧ k < 2 ^ 24 * n + off + bs.length then some (bs.getD (k - (2 ^ 24 * n + off)) 0) else tfind f k := by
  induction bs generalizing off f with
  | nil => rw [if_neg (by simp only [List.length_nil]; omega)]; rfl
  | cons b r ih =>
    have hlen : (b :: r).length = r.length + 1 := rfl
    rw [flashPut, ih, hlen]
    by_cases h : 2 ^ 24 * n + (off + 1) ≤ k ∧ k < 2 ^ 24 * n + (off + 1) + r.length
    · have he : k - (2 ^ 24 * n + off) = k - (2 ^ 24 * n + (off + 1)) + 1 := by omega
      rw [if_pos h, if_pos (by omega), he, List.getD_cons_succ]
    · rw [if_neg h]
      by_cases hk : k = 2 ^ 24 * n + off
      · rw [if_pos (by omega), hk, tfind_tput_same, Nat.sub_self, List.getD_cons_zero]
      · rw [if_neg (by omega), tfind_tput_ne _ _ hk]

theorem flashGet_congr {s t : State} (h : t.trust.flash = s.trust.flash) (n k : Nat) : flashGet t n k = flashGet s n k := by
  rw [flashGet, h]; rfl

/-- The oldest chunk is in the flash (R519). -/
def programmed (s : State) (n off : Nat) (bs : List Byte) (rest : List (Nat × Nat × List Byte)) : State :=
  { s with trust := { s.trust with
      chunks := rest, flash := flashPut n off bs s.trust.flash, writtenBytes := s.trust.writtenBytes + (if n = s.trust.fwTarget.toNat then bs.length else 0) } }

theorem flashGet_programmed (s : State) (n off : Nat) (bs : List Byte) (rest : List (Nat × Nat × List Byte)) (m k : Nat) :
    flashGet (programmed s n off bs rest) m k =
      if 2 ^ 24 * n + off ≤ 2 ^ 24 * m + k ∧ 2 ^ 24 * m + k < 2 ^ 24 * n + off + bs.length then bs.getD (2 ^ 24 * m + k - (2 ^ 24 * n + off)) 0 else flashGet s m k := by
  have h : (programmed s n off bs rest).trust.flash = flashPut n off bs s.trust.flash := rfl
  rw [flashGet, h, tfind_flashPut]
  by_cases hk : 2 ^ 24 * n + off ≤ 2 ^ 24 * m + k ∧ 2 ^ 24 * m + k < 2 ^ 24 * n + off + bs.length
  · rw [if_pos hk, if_pos hk]
  · rw [if_neg hk, if_neg hk, flashGet]

/-- A COMMIT verifies the target's image and leaves the flash (R513). -/
theorem doCommit_view (s : State) :
    (doCommit s).trust.verdict = some (verifyImage s s.trust.fwTarget.toNat).2 ∧ (doCommit s).trust.commitWait = false ∧
      (doCommit s).trust.flash = s.trust.flash ∧ (doCommit s).trust.chunks = s.trust.chunks ∧ (doCommit s).mem = s.mem ∧ (doCommit s).queues = s.queues := by
  unfold doCommit
  dsimp only
  generalize verifyImage s s.trust.fwTarget.toNat = v
  exact ⟨rfl, rfl, rfl, rfl, rfl, rfl⟩

/-! ### Firmware update (O39) -/

theorem fwChunkWrite_accepted {s : State} {d : List Byte} (h1 : 1 ≤ byteField d 4 2) (h2 : byteField d 4 2 ≤ 1016) (h3 : byteField d 6 2 = 0)
    (ht : s.trust.fwTarget ≠ 0xFF) (hs : byteField d 0 4 + byteField d 4 2 ≤ targetSize s.trust.fwTarget.toNat)
    (hh : targetHeld s s.trust.fwTarget.toNat = false) (hl : s.trust.chunks.length < 64) :
    fwChunkWrite s d = (stOk, { setSlot s s.trust.fwTarget.toNat {} with trust := { (setSlot s s.trust.fwTarget.toNat {}).trust with
      chunks := s.trust.chunks ++ [(s.trust.fwTarget.toNat, byteField d 0 4, (d.drop 8).take (byteField d 4 2))], verdict := none } }) := by
  have ht' : s.trust.fwTarget.toNat ≠ 0xFF := fun e => ht (BitVec.eq_of_toNat_eq e)
  rw [fwChunkWrite]
  dsimp only
  rw [if_neg (by omega), if_neg ht', if_neg (by omega), if_neg (by simp [hh, hl])]
  rfl

theorem fwCommitWrite_accepted {s : State} (ht : s.trust.fwTarget ≠ 0xFF) (hh : targetHeld s s.trust.fwTarget.toNat = false) :
    fwCommitWrite s = (stOk, if s.trust.chunks.isEmpty then doCommit s else { s with trust := { s.trust with commitWait := true } }) := by
  have ht' : s.trust.fwTarget.toNat ≠ 0xFF := fun e => ht (BitVec.eq_of_toNat_eq e)
  rw [fwCommitWrite]
  dsimp only
  rw [if_neg ht', if_neg (by simp [hh])]
  split <;> rfl


theorem exec_fwChunkProgrammed {s : State} {n off : Nat} {bs : List Byte} {rest : List (Nat × Nat × List Byte)} (h : s.trust.chunks = (n, off, bs) :: rest) :
    exec .fwChunkProgrammed s = .next (if rest.isEmpty && s.trust.commitWait then doCommit (programmed s n off bs rest) else programmed s n off bs rest) := by
  change execFwChunkProgrammed s = _
  rw [execFwChunkProgrammed, h] <;> rfl

/-! #### Activation -/

/-- A root monitor image is activated: ROOT_SLOT names it, and a management-only reset follows, or in recovery the boot (R520, R521). -/
theorem fwActivateWrite_root {s : State} (hh : targetHeld s s.trust.fwTarget.toNat = false) (hb : slotBoots s s.trust.fwTarget.toNat = true)
    (ht : s.trust.fwTarget.toNat < 2) : ∃ t, fwActivateWrite s = (stOk, t) ∧ t.trust.rootSlot = BitVec.ofNat 1 s.trust.fwTarget.toNat ∧
      (s.trust.recovery = false → t.trust.rootUp = false) ∧ t.trust.recovery = false ∧ t.mem = s.mem ∧ t.queues = s.queues ∧ t.jobs = s.jobs := by
  rw [fwActivateWrite]
  dsimp only
  rw [if_neg (by omega), if_neg (by simp [hh]), if_neg (by simp [hb]), if_pos ht]
  obtain ⟨d, _, he⟩ := persist_eq s 0x6810 1 s.trust.fwTarget.toNat
  rw [he]
  refine ⟨_, rfl, ?_⟩
  dsimp only
  cases hr : s.trust.recovery with
  | true => exact ⟨rfl, (nomatch ·), rfl, rfl, rfl, rfl⟩
  | false => exact ⟨rfl, fun _ => rfl, rfl, rfl, rfl, rfl⟩

/-- A service firmware image starts a live handover (R520). -/
theorem fwActivateWrite_service {s : State} (hh : targetHeld s s.trust.fwTarget.toNat = false) (hb : slotBoots s s.trust.fwTarget.toNat = true)
    (h2 : 2 ≤ s.trust.fwTarget.toNat) (h4 : s.trust.fwTarget.toNat < 4) (hn : s.trust.handover = none) :
    fwActivateWrite s = (stOk, { s with trust := { s.trust with handover := some (BitVec.ofNat 1 (s.trust.fwTarget.toNat - 2), s.trust.sfUp), sfUp := false } }) := by
  rw [fwActivateWrite]
  dsimp only
  rw [if_neg (by omega), if_neg (by simp [hh]), if_neg (by simp [hb]), if_neg (by omega), if_pos h4, if_neg (by simp [hn])]

/-- An UNLOCK image of this module and nonce unlocks it (R522). -/
theorem fwActivateWrite_unlock {s : State} (hh : targetHeld s s.trust.fwTarget.toNat = false) (hb : slotBoots s s.trust.fwTarget.toNat = true)
    (h4 : s.trust.fwTarget.toNat = 4) (hu : flashRead s 4 0x1000 48 = unlockBody s) : fwActivateWrite s = (stOk, acceptUnlock s) := by
  rw [fwActivateWrite]
  dsimp only
  rw [if_neg (by omega), if_neg (by simp [hh]), if_neg (by simp [hb]), if_neg (by omega), if_neg (by omega), if_pos hu]

theorem acceptUnlock_view (s : State) :
    (acceptUnlock s).trust.unlocked = true ∧ (acceptUnlock s).trust.unlockSvn = some (slotOf s 4).svn ∧ (acceptUnlock s).trust.nonces = s.trust.nonces + 1 ∧
      (acceptUnlock s).mem = s.mem ∧ (acceptUnlock s).queues = s.queues := by
  unfold acceptUnlock
  dsimp only
  rw [bbWrite_trust, bbWrite_mem, bbWrite_queues]
  exact ⟨rfl, rfl, rfl, rfl, rfl⟩

theorem exec_fwActivate {s t : State} {p : Path} (hc : writeCheck s p 0x6820 3 0 1 = stOk) (hw : fwActivateWrite s = (stOk, t)) :
    ∃ b c j, exec (.fwActivate p) s = .next (answer (withBanks t b c j) p stOk []) := by
  obtain ⟨b, c, j, e⟩ := writeEntry_high (d := [2]) (t := t) 0x6820 3 hc (congrArg some hw)
  exact ⟨b, c, j, congrArg Host.Outcome.next e⟩

/-! #### The end of a handover -/

/-- The new service firmware has taken over (R520). -/
def tookOver (s : State) (n : BitVec 1) : State :=
  { persist s 0x6810 2 n.toNat with trust := { (persist s 0x6810 2 n.toNat).trust with handover := none, sfUp := true, sfSlot := n, sfRun := n } }

theorem exec_handoverReady {s : State} {n : BitVec 1} {old : Bool} (h : s.trust.handover = some (n, old)) (hup : s.trust.rootUp = true) (ht : s.ticking = true) :
    exec .handoverReady s = .next (postAll (tookOver s n) 0x0200 (2 :: leBytes 4 (slotOf (tookOver s n) (2 + n.toNat)).version.toNat)) := by
  change execHandoverReady s = _
  rw [execHandoverReady, h]
  dsimp only
  rw [if_neg (by simp [hup, ht])] <;> rfl

/-- The old service firmware runs again. -/
def fellBack (s : State) (old : Bool) : State := { s with trust := { s.trust with handover := none, sfUp := old } }

theorem exec_handoverTimeout {s : State} {n : BitVec 1} {old : Bool} (h : s.trust.handover = some (n, old)) (hup : s.trust.rootUp = true) :
    exec .handoverTimeout s = .next (postAll (fellBack s old) 0x0201 (leBytes 4 (slotOf s (2 + n.toNat)).version.toNat)) := by
  change execHandoverTimeout s = _
  rw [execHandoverTimeout, h]
  dsimp only
  rw [if_neg (by simp [hup])] <;> rfl

/-- Settles O39: chunks, their programming, COMMIT, ACTIVATE and the end of a handover. -/
theorem firmwareIsUpdated : Obligations.FirmwareIsUpdated := by
  unfold Obligations.FirmwareIsUpdated
  refine ⟨⟨fun p d s hc h1 h2 h3 ht hs hh hl => ?_, fun s n off bs rest h => ?_, fun p s hc ht hh => ?_⟩,
    fun p s hc hh hb => ⟨fun ht => ?_, fun h2 h4 hn => ?_, fun h4 hu => ?_⟩, fun s n old h hup => ⟨fun htick => ?_, ?_⟩⟩
  · obtain ⟨b, c, j, e⟩ := writeEntry_high (d := d) 0x6820 2 hc (congrArg some (fwChunkWrite_accepted h1 h2 h3 ht hs hh hl))
    exact ⟨_, congrArg Host.Outcome.next e, by simp [stOk], rfl, slotOf_setSlot_empty s _, rfl, rfl⟩
  · have hexec := exec_fwChunkProgrammed h
    have hbytes : ∀ t : State, t.trust.flash = (programmed s n off bs rest).trust.flash →
        (∀ k, k < bs.length → flashGet t n (off + k) = bs.getD k 0) ∧
        (∀ m k, 2 ^ 24 * m + k < 2 ^ 24 * n + off ∨ 2 ^ 24 * n + off + bs.length ≤ 2 ^ 24 * m + k → flashGet t m k = flashGet s m k) := fun t ht => by
      refine ⟨fun k hk => ?_, fun m k hk => ?_⟩ <;> rw [flashGet_congr ht, flashGet_programmed]
      · rw [if_pos (by omega)]
        exact congrArg (bs.getD · 0) (by omega)
      · exact if_neg (by omega)
    by_cases hc : rest.isEmpty && s.trust.commitWait
    · obtain ⟨hverdict, hwait, hflash, hchunks, hmem, hqueues⟩ := doCommit_view (programmed s n off bs rest)
      obtain ⟨hin, hout⟩ := hbytes _ hflash
      rw [if_pos hc] at hexec
      simp only [Bool.and_eq_true, List.isEmpty_iff] at hc
      exact ⟨_, hexec, hchunks, hin, hout, fun _ => ⟨fun _ => ⟨by rw [hverdict]; exact Option.some_ne_none _, hwait⟩, fun hn => absurd hc.1 hn⟩, hmem, hqueues⟩
    · obtain ⟨hin, hout⟩ := hbytes _ rfl
      rw [if_neg hc] at hexec
      simp only [Bool.and_eq_true, List.isEmpty_iff] at hc
      exact ⟨_, hexec, rfl, hin, hout, fun hw => ⟨fun hr => absurd ⟨hr, hw⟩ hc, fun _ => hw⟩, rfl, rfl⟩
  · obtain ⟨b, c, j, e⟩ := writeEntry_high (d := [1]) 0x6820 3 hc (congrArg some (fwCommitWrite_accepted ht hh))
    refine ⟨_, congrArg Host.Outcome.next e, by simp [stOk], ?_⟩
    obtain ⟨hverdict, _, _, _, hmem, hqueues⟩ := doCommit_view s
    rw [answer_trust, withBanks_trust, answer_mem, withBanks_mem, answer_queues, withBanks_queues]
    by_cases he : s.trust.chunks = []
    · rw [if_pos (by simp [he])]
      exact ⟨fun _ => hverdict, fun hn => absurd he hn, hmem, hqueues⟩
    · rw [if_neg (by simp [he])]
      exact ⟨fun hn => absurd hn he, fun _ => rfl, rfl, rfl⟩
  · obtain ⟨t, hw, hslot, hup, hrec, hmem, hqueues, hjobs⟩ := fwActivateWrite_root hh hb ht
    obtain ⟨b, c, j, e⟩ := exec_fwActivate hc hw
    exact ⟨_, e, by simp [stOk], by simpa using hslot, by simpa using hup, by simpa using hrec, by simpa using hmem, by simpa using hqueues, by simpa using hjobs⟩
  · obtain ⟨b, c, j, e⟩ := exec_fwActivate hc (fwActivateWrite_service hh hb h2 h4 hn)
    exact ⟨_, e, by simp [stOk], rfl, rfl, rfl, rfl⟩
  · obtain ⟨hun, hsvn, hnonce, hmem, hqueues⟩ := acceptUnlock_view s
    obtain ⟨b, c, j, e⟩ := exec_fwActivate hc (fwActivateWrite_unlock hh hb h4 hu)
    exact ⟨_, e, by simp [stOk], by simpa using hun, by simpa using hsvn, by simpa using hnonce, hmem, hqueues⟩
  · refine ⟨_, exec_handoverReady h hup htick, ?_⟩
    rw [postAll_trust, postAll_queues, postAll_jobs]
    exact ⟨rfl, rfl, rfl, rfl, persist_queues s 0x6810 2 n.toNat, persist_jobs s 0x6810 2 n.toNat⟩
  · refine ⟨_, exec_handoverTimeout h hup, ?_⟩
    rw [postAll_trust, postAll_queues, postAll_jobs]
    exact ⟨rfl, rfl, rfl, rfl, rfl⟩
end Sys2Proof.Machine
end

section
/-! Training of a port (O12). -/

namespace Sys2Proof.Machine

/-! ### What becomes of the ports -/

theorem port_failPort (s : State) (p q : Port) (r : Nat) :
    (failPort s p r).port q = if q = p then (s.port p).cleared .failed (BitVec.ofNat 4 r) else s.port q := by
  unfold failPort
  extract_lets was s1 s2
  have h : s2.ports = s1.ports := by
    simp only [s2]
    split
    · exact stopChainsOn_ports ..
    · rfl
  rw [port_congr ((postAll_ports ..).trans h)]
  by_cases e : q = p
  · rw [if_pos e, e]; exact port_setPort_same ..
  · rw [if_neg e]; exact port_setPort_ne _ _ e

theorem port_linkDown (s : State) (p q : Port) : (linkDown s p).port q = if q = p then (s.port p).cleared .detect 0 else s.port q := by
  unfold linkDown
  dsimp only
  rw [port_congr ((postTo_ports ..).trans (stopChainsOn_ports ..))]
  by_cases e : q = p
  · rw [if_pos e, e]; exact port_setPort_same ..
  · rw [if_neg e]; exact port_setPort_ne _ _ e

/-- A port that fails stands in FAILED with the reason (R421). -/
theorem port_failPort_same (s : State) (p : Port) (r : Nat) : ((failPort s p r).port p).st = .failed ∧ ((failPort s p r).port p).reason = BitVec.ofNat 4 r := by
  rw [port_failPort, if_pos rfl]
  exact ⟨rfl, rfl⟩

theorem port_sendMgmt_same (s : State) (p : Port) (m : Msg) :
    (sendMgmt s p m).port p = { s.port p with mgmt := (s.port p).mgmt ++ toFlits m none } := port_setPort_same ..
theorem port_sendMgmt_ne (s : State) {p q : Port} (m : Msg) (h : q ≠ p) : (sendMgmt s p m).port q = s.port q := port_setPort_ne _ _ h

/-- A port that starts to identify itself sends IDENT, PING and OFFSET (R423). -/
theorem port_sendTrio_same (s : State) (p : Port) : (sendTrio s p).port p = { s.port p with
    mgmt := (s.port p).mgmt ++ toFlits (identMsg s p) none ++ toFlits (pingMsg s) none ++ toFlits (offsetMsg s) none } := by
  unfold sendTrio
  rw [port_sendMgmt_same, port_sendMgmt_same, port_sendMgmt_same]
theorem port_sendTrio_ne (s : State) {p q : Port} (h : q ≠ p) : (sendTrio s p).port q = s.port q := by
  unfold sendTrio
  rw [port_sendMgmt_ne _ _ h, port_sendMgmt_ne _ _ h, port_sendMgmt_ne _ _ h]

/-! ### Training (O12) -/

/-- The lanes of the map are among the nine, in either order. -/
theorem laneAt_lt {rev : Bool} {n : Nat} (h : n < 9) : laneAt rev n < 9 := by
  unfold laneAt
  split <;> omega

/-- The usable lanes are as many in either order. -/
theorem usable_laneAt (rev : Bool) (f : Nat → Bool) : ((List.range 9).filter fun n => f (laneAt rev n)).length = ((List.range 9).filter f).length := by
  have hperm : ((List.range 9).map (laneAt rev)).Perm (List.range 9) := by cases rev <;> decide
  have h := (hperm.filter f).length_eq
  rw [List.filter_map, List.length_map] at h
  exact h

/-- Settles O12: how training advances from each of its states. -/
theorem trainingAdvances : Obligations.TrainingAdvances := by
  unfold Obligations.TrainingAdvances
  refine ⟨fun p s h => if_pos h, fun p s h ha he => ?_, fun p low farH far s own holly h ho hh => ?_, fun p o usable inverted tx s h ho hu => ?_, fun p s h => ?_⟩
  · exact (if_neg (by rw [h]; decide)).trans (if_pos (by simp [h, ha, he]))
  · have hexec : exec (.equaliseConverged p low far farH) s =
        if (!(if own = 2 then !low else own == 1) && !(if far.toNat = 2 then farH else far.toNat == 1)) = true then
          .next (s.setPort p { s.port p with st := .map, hollyhock := false })
        else if own = 0 ∨ far.toNat = 0 then .next (failPort s p 8) else .next (s.setPort p { s.port p with st := .map, hollyhock := true }) := by
      rw [ho]
      exact if_neg (by simp [h])
    have hcond : (!(if own = 2 then !low else own == 1) && !(if far.toNat = 2 then farH else far.toNat == 1)) = true ↔ ¬holly := by
      have h1 : far.toNat = 1 ↔ far = 1 := ⟨fun e => BitVec.eq_of_toNat_eq e, fun e => by rw [e]; rfl⟩
      have h2 : far.toNat = 2 ↔ far = 2 := ⟨fun e => BitVec.eq_of_toNat_eq e, fun e => by rw [e]; rfl⟩
      rw [hh, ← h1, ← h2]
      by_cases hown : own = 2 <;> by_cases hfar : far.toNat = 2 <;> simp [hown, hfar]
    have hfar : far.toNat = 0 ↔ far = 0 := ⟨fun e => BitVec.eq_of_toNat_eq e, fun e => by rw [e]; rfl⟩
    refine ⟨fun hn => hexec.trans (if_pos (hcond.mpr hn)), fun hy h1 h2 => ?_, fun hy hf => ?_⟩
    · exact hexec.trans ((if_neg (by rw [hcond]; exact not_not_intro hy)).trans (if_neg (by rw [hfar]; tauto)))
    · obtain ⟨h1, h2⟩ := port_failPort_same s p 8
      exact ⟨_, hexec.trans ((if_neg (by rw [hcond]; exact not_not_intro hy)).trans (if_pos (by rw [hfar]; exact hf))), h1, h2⟩
  · have hgood : ¬((List.range 9).filter fun n => usable.getLsbD (laneAt (o == .reversed) n)).length < 8 := by
      rw [usable_laneAt _ usable.getLsbD]
      exact Nat.not_lt.mpr hu
    refine ⟨_, (if_neg (by simp [h])).trans ((if_neg ho).trans (if_neg hgood)), ?_⟩
    rw [port_setPort_same]
    refine ⟨rfl, rfl, rfl, ?_, fun l hl => ?_, rfl, rfl, rfl, fun q hq => port_setPort_ne _ _ hq⟩
    · simp only [List.length_map, List.length_take]
      omega
    · obtain ⟨n, hn, rfl⟩ := List.mem_map.mp hl
      have hm := List.mem_filter.mp (List.mem_of_mem_take hn)
      have hlt := laneAt_lt (rev := o == .reversed) (List.mem_range.mp hm.1)
      rw [BitVec.toNat_ofNat, Nat.mod_eq_of_lt (by omega)]
      exact hm.2
  · refine ⟨_, if_neg (by simp [h]), ?_⟩
    rw [port_sendTrio_same, port_setPort_same]
    exact ⟨rfl, rfl, rfl, rfl, rfl, rfl, rfl, fun q hq => (port_sendTrio_ne _ hq).trans (port_setPort_ne _ _ hq)⟩

end Sys2Proof.Machine
end

section
/-! Timers of a port (O13). -/

namespace Sys2Proof.Machine

/-- Settles O13: the timers of a port and the loss of its link. -/
theorem portTimersMove : Obligations.PortTimersMove := by
  unfold Obligations.PortTimersMove
  refine ⟨fun p s h => ?_, fun p s h => ?_, fun p s h => ?_, fun p s h => if_pos h, fun p s h => if_pos h, fun p s h => ?_, fun p s h1 h2 h3 => ?_, fun p s h => if_pos h⟩
  · obtain ⟨hst, hr⟩ := port_failPort_same s p 10
    exact ⟨_, if_pos h, hst, hr⟩
  · obtain ⟨hst, hr⟩ := port_failPort_same s p 10
    exact ⟨_, if_pos h, hst, hr⟩
  · refine ⟨_, if_pos h, ?_, rfl, rfl, fun q hq => port_setPort_ne _ _ hq⟩
    rw [port_setPort_same]; rfl
  · refine ⟨_, if_pos h, ?_⟩
    rw [port_linkDown, if_pos rfl]
    exact ⟨rfl, rfl, rfl⟩
  · have hexec : exec (.linkLoss p) s = match (s.port p).st with
      | .active | .retrain => .next (linkDown s p)
      | .equalise | .map | .lock | .identify | .held => .next (s.setPort p ((s.port p).cleared .detect 0))
      | .disabled | .detect | .failed => .next s := rfl
    have hdown : ((linkDown s p).port p).st = .detect ∧ ((linkDown s p).port p).retry = [] ∧ ((linkDown s p).port p).neighbour = (s.port p).neighbour := by
      rw [port_linkDown, if_pos rfl]
      exact ⟨rfl, rfl, rfl⟩
    have hclear : ((s.setPort p ((s.port p).cleared .detect 0)).port p).st = .detect ∧ ((s.setPort p ((s.port p).cleared .detect 0)).port p).retry = [] ∧
        ((s.setPort p ((s.port p).cleared .detect 0)).port p).neighbour = (s.port p).neighbour := by
      rw [port_setPort_same]
      exact ⟨rfl, rfl, rfl⟩
    cases hst : (s.port p).st with
    | disabled => exact absurd hst h1
    | detect => exact absurd hst h2
    | failed => exact absurd hst h3
    | active => rw [hst] at hexec; exact ⟨_, hexec, hdown⟩
    | retrain => rw [hst] at hexec; exact ⟨_, hexec, hdown⟩
    | equalise => rw [hst] at hexec; exact ⟨_, hexec, hclear⟩
    | map => rw [hst] at hexec; exact ⟨_, hexec, hclear⟩
    | lock => rw [hst] at hexec; exact ⟨_, hexec, hclear⟩
    | identify => rw [hst] at hexec; exact ⟨_, hexec, hclear⟩
    | held => rw [hst] at hexec; exact ⟨_, hexec, hclear⟩

end Sys2Proof.Machine
end

section
/-! Lanes, plugs and their supply (O14). -/

namespace Sys2Proof.Machine

/-! ### Lanes and plugs (O14) -/

/-- A request of a lane move stands at the port that receives (R425). -/
theorem port_askMove (s : State) (p : Port) (lane target : BitVec 4) (ahead : Nat) (k : MoveKind) :
    ((askMove s p lane target ahead k).port p).moveRx = some ⟨true, lane, target, s.beat + BitVec.ofNat 48 ahead, false, k⟩ ∧
      ((askMove s p lane target ahead k).port p).recalBusy = (k != .spare) := by
  unfold askMove
  dsimp only
  rw [port_sendMgmt_same, port_setPort_same]
  exact ⟨rfl, rfl⟩


/-- A failed lane of a port in service that is not its spare. -/
theorem laneFailed_mapped {s : State} {p : Port} {lane : BitVec 4} {k : Nat} (ahead : Nat) (hst : (s.port p).st = .active) (hl : lane ≠ (s.port p).rxSpare)
    (hk : (s.port p).rxMap.findIdx? (· == lane) = some k) :
    ((s.port p).rxSpareUsed = true → laneFailed s p lane ahead = linkDown s p) ∧
      ((s.port p).rxSpareUsed = false → (s.port p).moveRx = none → laneFailed s p lane ahead = askMove s p (BitVec.ofNat 4 k) (s.port p).rxSpare ahead .spare) := by
  refine ⟨fun hu => ?_, fun hu hm => ?_⟩ <;> rw [laneFailed] <;> dsimp only <;> rw [if_neg (by simp [hst]), if_neg hl, hk] <;> dsimp only
  · rw [if_pos (by simp [hu])]
  · rw [if_neg (by simp [hu, hm])]

/-- A failed lane that is the spare uses the spare up. -/
theorem laneFailed_spare {s : State} {p : Port} (ahead : Nat) (hst : (s.port p).st = .active) :
    laneFailed s p (s.port p).rxSpare ahead = s.setPort p { s.port p with rxSpareUsed := true } := by
  rw [laneFailed]
  dsimp only
  rw [if_neg (by simp [hst]), if_pos rfl]

theorem noteCe_reg (s : State) (c i n l a b : Nat) : (noteCe s c i n l).reg a b = s.reg a b := by
  unfold noteCe
  split <;> rfl

theorem noteCe_beat (s : State) (c i n l : Nat) : (noteCe s c i n l).beat = s.beat := by
  unfold noteCe
  split <;> rfl

theorem bump_counter_13 (s : State) (p : Port) : (bump s 0x0A p.toNat 13 1).counter 0x0A p.toNat 13 = (s.counter 0x0A p.toNat 13 + 1) % 2 ^ 64 :=
  counter_bump_same s 0x0A p.toNat 13 1 one_ne_zero

/-- The post of LANE_SPARED counts nothing of a port. -/
theorem postAll_counter_13 (s : State) (p : Port) (c : Nat) (d : List Byte) : (postAll s c d).counter 0x0A p.toNat 13 = s.counter 0x0A p.toNat 13 :=
  (eventFree_counter (by decide) (by have := p.isLt; omega) (by decide)).postTo (fun s c => by rw [State.counter, noteFault_ctr]; rfl) s (ringFuncs s) c d

/-- An agreed move switches the map of its direction and is counted (R425, R426). -/
theorem laneSwitch_agreed {s : State} {p : Port} {v : LaneMoveSt} (h : dueMove s (s.port p) = some v) (ha : v.acked = true) :
    ∃ t, exec (.laneSwitch p true) s = .next t ∧ t.counter 0x0A p.toNat 13 = (s.counter 0x0A p.toNat 13 + 1) % 2 ^ 64 ∧
      (v.rx = true → (t.port p).moveRx = none ∧ (t.port p).rxMap = (s.port p).rxMap.set v.lane.toNat v.target ∧ (t.port p).txMap = (s.port p).txMap ∧
        (t.port p).rxSpare = (s.port p).rxMap.getD v.lane.toNat 0) ∧
      (v.rx = false → (t.port p).moveTx = none ∧ (t.port p).txMap = (s.port p).txMap.set v.lane.toNat v.target ∧ (t.port p).rxMap = (s.port p).rxMap) := by
  change ∃ t, execLaneSwitch p true s = .next t ∧ _
  rw [execLaneSwitch]
  dsimp only
  rw [h]
  dsimp only
  rw [if_neg (by simp [ha])]
  cases hrx : v.rx with
  | true =>
    have hend : endMove (s.port p) v = { s.port p with moveRx := none } := if_pos hrx
    rw [if_pos rfl, hend]
    cases v.kind with
    | spare =>
      refine ⟨_, rfl, ?_, fun _ => ?_, (nomatch ·)⟩
      · rw [postAll_counter_13]; exact bump_counter_13 s p
      · rw [port_congr (postAll_ports ..), port_setPort_same]; exact ⟨rfl, rfl, rfl, rfl⟩
    | recalOut =>
      refine ⟨_, rfl, bump_counter_13 s p, fun _ => ?_, (nomatch ·)⟩
      rw [port_setPort_same]; exact ⟨rfl, rfl, rfl, rfl⟩
    | recalBack =>
      refine ⟨_, rfl, bump_counter_13 s p, fun _ => ?_, (nomatch ·)⟩
      rw [port_setPort_same]; exact ⟨rfl, rfl, rfl, rfl⟩
  | false =>
    have hend : endMove (s.port p) v = { s.port p with moveTx := none } := if_neg (by simp [hrx])
    rw [if_neg Bool.false_ne_true, hend]
    refine ⟨_, rfl, counter_bump_same _ 0x0A p.toNat 13 1 one_ne_zero, (nomatch ·), fun _ => ?_⟩
    rw [port_congr (bump_ports ..), port_setPort_same]; exact ⟨rfl, rfl, rfl⟩

/-- A move that is not agreed or not acknowledged keeps the maps, which is counted. -/
theorem laneSwitch_kept {s : State} {p : Port} {v : LaneMoveSt} {agreed : Bool} (h : dueMove s (s.port p) = some v) (ha : agreed = false ∨ v.acked = false) :
    exec (.laneSwitch p agreed) s =
      .next (bump (s.setPort p { endMove (s.port p) v with recalBusy := (s.port p).recalBusy && !v.rx }) 0x0A p.toNat 14 1) := by
  change execLaneSwitch p agreed s = _
  rw [execLaneSwitch]
  dsimp only
  rw [h]
  exact if_pos (by rcases ha with ha | ha <;> simp [ha])

theorem endMove_view (x : PortState) (v : LaneMoveSt) :
    (v.rx = true → (endMove x v).moveRx = none) ∧ (v.rx = false → (endMove x v).moveTx = none) ∧ (endMove x v).rxMap = x.rxMap ∧ (endMove x v).txMap = x.txMap := by
  unfold endMove
  cases v.rx
  · exact ⟨(nomatch ·), fun _ => rfl, rfl, rfl⟩
  · exact ⟨fun _ => rfl, (nomatch ·), rfl, rfl⟩

/-- Settles O14: lane moves, the plug and its supply. -/
theorem lanesAndPlugs : Obligations.LanesAndPlugs := by
  unfold Obligations.LanesAndPlugs
  refine ⟨⟨fun p lane k s hst hu hm hl hk => ⟨?_, fun n hn => ?_⟩, fun p lane k s hst => ⟨fun hl => ?_, fun hl hk hu => ?_⟩, fun p lane n s hn => ?_,
      fun p s hst hr hu hb hm => ?_, fun p s hst hb hm => ?_⟩,
    ⟨fun p v s h ha => laneSwitch_agreed h ha, fun p v agreed s h ha => ?_⟩, fun p i s => ?_, fun p b s => rfl⟩
  · exact congrArg Host.Outcome.next ((laneFailed_mapped 2 hst hl hk).2 hu hm)
  · have hp : (noteCe s 0x0A p.toNat n lane.toNat).port p = s.port p := port_congr (noteCe_ports ..) p
    have hfail := (laneFailed_mapped (s := noteCe s 0x0A p.toNat n lane.toNat) 4 (by rwa [hp]) (by rwa [hp]) (by rwa [hp])).2 (by rwa [hp]) (by rwa [hp])
    refine ⟨_, congrArg Host.Outcome.next ((if_pos (by rwa [noteCe_reg])).trans hfail), ?_, ?_, ?_⟩
    · rw [(port_askMove ..).1, hp, noteCe_beat]
      rfl
    · rw [askMove_mem, noteCe_mem]
    · rw [askMove_queues, noteCe_queues]
  · subst hl
    exact congrArg Host.Outcome.next (laneFailed_spare 2 hst)
  · refine ⟨_, congrArg Host.Outcome.next ((laneFailed_mapped 2 hst hl hk).1 hu), ?_⟩
    rw [port_linkDown, if_pos rfl]
    rfl
  · exact ⟨_, congrArg Host.Outcome.next (if_neg (by rw [noteCe_reg]; omega)), noteCe_ports .., noteCe_mem .., noteCe_queues ..⟩
  · obtain ⟨hmove, hbusy⟩ := port_askMove s p (s.port p).recalNext (s.port p).rxSpare 4 .recalOut
    exact ⟨_, if_pos (by simp [hst, hr, hu, hb, hm]), hbusy, hmove, rfl, rfl⟩
  · obtain ⟨hmove, _⟩ := port_askMove s p (s.port p).recalNext (s.port p).rxSpare 4 .recalBack
    exact ⟨_, if_pos (by simp [hst, hb, hm]), hmove, rfl, rfl⟩
  · obtain ⟨hrx, htx, hrmap, htmap⟩ := endMove_view (s.port p) v
    refine ⟨_, laneSwitch_kept h ha, ?_⟩
    rw [port_congr (bump_ports ..), port_setPort_same]
    exact ⟨hrx, htx, hrmap, htmap, counter_bump_same _ 0x0A p.toNat 14 1 one_ne_zero⟩
  · refine ⟨_, rfl, ?_⟩
    have hp : (postAll ((disablePort s p).setPort p { (disablePort s p).port p with supplyCut := true }) 0x0307 (BitVec.ofNat 8 p.toNat :: leBytes 2 i.toNat)).port p =
        { (s.port p).cleared .disabled (s.port p).reason with supplyCut := true } := by
      rw [port_congr (postAll_ports ..), port_setPort_same, port_disablePort, if_pos rfl]
    refine ⟨by rw [hp]; rfl, by rw [hp], ?_⟩
    unfold mayTrain
    rw [hp]
    simp

end Sys2Proof.Machine
end

section
/-! Link-management messages (O11). -/

namespace Sys2Proof.Machine

/-! ### A message taken, and the port's checks (R420, R423) -/

theorem port_takeMsg (s : State) (p : Port) (m : Msg) : (takeMsg s p m).port p = { s.port p with inbox := (s.port p).inbox.erase m } := port_setPort_same ..
theorem setPort_takeMsg (s : State) (p : Port) (m : Msg) (x : PortState) : (takeMsg s p m).setPort p x = s.setPort p x := setPort_setPort ..

/-- The checks of a port read of it only the far end's fields. -/
theorem identReason_setPort {s : State} {p : Port} {x : PortState} (h : x.neighbour = (s.port p).neighbour) : identReason (s.setPort p x) p = identReason s p := by
  unfold identReason
  rw [port_setPort_same, h]
  rfl
theorem identReason_setPort_congr {s : State} {p : Port} {x y : PortState} (h : x.neighbour = y.neighbour) :
    identReason (s.setPort p x) p = identReason (s.setPort p y) p := by
  rw [← setPort_setPort s p y x]
  exact identReason_setPort (by rw [port_setPort_same, h])

theorem identReason_takeMsg (s : State) (p : Port) (m : Msg) : identReason (takeMsg s p m) p = identReason s p := identReason_setPort rfl
theorem identReason_sendMgmt (s : State) (p : Port) (m : Msg) : identReason (sendMgmt s p m) p = identReason s p := identReason_setPort rfl

theorem port_runChecks (s : State) (p q : Port) : (runChecks s p).port q =
    if q = p then (if identReason s p = 0 then { s.port p with st := .active, reason := 0, awaitEpoch := !s.jobs.isEmpty }
      else { s.port p with st := .held, reason := BitVec.ofNat 4 (identReason s p) }) else s.port q := by
  have hset : ∀ (x : PortState) (t : State), t.ports = (s.setPort p x).ports → t.port q = if q = p then x else s.port q := fun x t ht => by
    rw [port_congr ht]
    by_cases e : q = p
    · rw [if_pos e, e]; exact port_setPort_same ..
    · rw [if_neg e]; exact port_setPort_ne _ _ e
  unfold runChecks
  dsimp only
  by_cases hr : identReason s p = 0
  · rw [if_pos hr, if_pos hr]
    exact hset _ _ (postAll_ports ..)
  · rw [if_neg hr, if_neg hr]
    split
    · exact hset _ _ rfl
    · exact hset _ _ ((postAll_ports ..).trans (bbWrite_ports ..))

/-- A port whose checks pass goes into service; one that fails is held with the reason (R423). -/
theorem runChecks_spec (s : State) (p : Port) :
    (identReason s p = 0 → ((runChecks s p).port p).st = .active ∧ ((runChecks s p).port p).reason = 0) ∧
      (identReason s p ≠ 0 → ((runChecks s p).port p).st = .held ∧ ((runChecks s p).port p).reason = BitVec.ofNat 4 (identReason s p)) ∧
      ((runChecks s p).port p).inbox = (s.port p).inbox ∧ ((runChecks s p).port p).mgmt = (s.port p).mgmt ∧
      ((runChecks s p).port p).neighbour = (s.port p).neighbour ∧ ((runChecks s p).port p).hopLatency = (s.port p).hopLatency ∧
      ∀ q, q ≠ p → (runChecks s p).port q = s.port q := by
  have hne : ∀ q, q ≠ p → (runChecks s p).port q = s.port q := fun q hq => by rw [port_runChecks, if_neg hq]
  have hp := port_runChecks s p p
  rw [if_pos rfl] at hp
  by_cases hr : identReason s p = 0
  · rw [if_pos hr] at hp
    rw [hp]
    exact ⟨fun _ => ⟨rfl, rfl⟩, fun h => absurd hr h, rfl, rfl, rfl, rfl, hne⟩
  · rw [if_neg hr] at hp
    rw [hp]
    exact ⟨fun h => absurd h hr, fun _ => ⟨rfl, rfl⟩, rfl, rfl, rfl, rfl, hne⟩

/-! ### Link-management messages (O11) -/

theorem not_unlinked {s : State} {p : Port} (hl : linked (s.port p) = true) (m : Msg) : ¬(!linked { s.port p with inbox := (s.port p).inbox.erase m }) = true := by
  change ¬(!linked (s.port p)) = true
  simp [hl]

/-- A port with the far end's fields that IDENT brings. -/
def identified (x : PortState) (m : Msg) : PortState := { x with inbox := x.inbox.erase m, neighbour := BitVec.ofNat 160 (msgField m 8 18), identSeen := true }

theorem exec_ident {s : State} {p : Port} {m : Msg} (h : mgmtIs s p m 1 = true) (hl : linked (s.port p) = true) :
    exec (.ident p m) s = .next (if ((s.port p).st = .held || ((s.port p).st = .identify && (s.port p).measured)) = true then runChecks (s.setPort p (identified (s.port p) m)) p
      else s.setPort p (identified (s.port p) m)) := by
  change execIdent p m s = _
  rw [execIdent]
  dsimp only
  rw [if_neg (by simp [h]), port_takeMsg, if_neg (not_unlinked hl m), setPort_takeMsg]
  rfl

theorem exec_ping {s : State} {p : Port} {m : Msg} (h : mgmtIs s p m 2 = true) (hl : linked (s.port p) = true) :
    exec (.ping p m) s = .next (sendMgmt (takeMsg s p m) p (mgmtMsg 3 (leBytes 8 (msgField m 8 8) ++ leBytes 4 s.time.tick.toNat))) := by
  change execPing p m s = _
  rw [execPing]
  dsimp only
  rw [if_neg (by simp [h]), port_takeMsg, if_neg (not_unlinked hl m)]
  rfl

/-- A port whose hop latency PONG has measured. -/
def measuredBy (x : PortState) (m : Msg) (lat : Nat) : PortState := { x with inbox := x.inbox.erase m, hopLatency := BitVec.ofNat 16 (min lat 0xFFFF), measured := true }

theorem exec_pong {s : State} {p : Port} {m : Msg} {lat : Nat} (h : mgmtIs s p m 3 = true) (hst : (s.port p).st = .identify)
    (hlat : lat = ((s.time.tick - BitVec.ofNat 64 (msgField m 8 8)).toNat - msgField m 0x10 4) * 50) :
    exec (.pong p m) s = .next (if lat > (if (s.port p).hollyhock then 950 else 400) then failPort (s.setPort p (measuredBy (s.port p) m lat)) p 11
      else if (s.port p).identSeen then runChecks (s.setPort p (measuredBy (s.port p) m lat)) p else s.setPort p (measuredBy (s.port p) m lat)) := by
  subst hlat
  change execPong p m s = _
  rw [execPong]
  dsimp only
  rw [if_neg (by simp [h]), port_takeMsg, if_neg (by simp [hst]), setPort_takeMsg]
  rfl

/-- A port whose far end agrees about the offset (R35). -/
def agreed (x : PortState) (m : Msg) : PortState := { x with inbox := x.inbox.erase m, offsetAgreed := true, offsetDiffers := false, mismatch := false }

/-- A module without a job adopts the far end's offset (R35). -/
def adopted (s : State) (p : Port) (m : Msg) : State :=
  { s.setPort p (agreed (s.port p) m) with time := { s.time with offset := BitVec.ofNat 48 (msgField m 8 8) } }

theorem port_adopted (s : State) (p : Port) (m : Msg) : (adopted s p m).port p = agreed (s.port p) m := 
  (port_congr (s := s.setPort p (agreed (s.port p) m)) (t := adopted s p m) rfl p).trans (port_setPort_same ..)

/-- The answer to an OFFSET that is taken. -/
theorem exec_offset {s : State} {p : Port} {m : Msg} (h : mgmtIs s p m 4 = true) (hl : linked (s.port p) = true) :
    exec (.offset p m) s =
      let x := { s.port p with inbox := (s.port p).inbox.erase m }
      let o := BitVec.ofNat 48 (msgField m 8 8)
      if o = s.time.offset then .next (s.setPort p (agreed (s.port p) m))
      else if s.jobs.isEmpty then
        if msgField m 0x10 1 = 2 ∨ msgField m 0x10 1 = 3 then
          .next (sendMgmt (adopted s p m) p (offsetMsg (adopted s p m)))
        else .next (takeMsg s p m)
      else if (s.port p).mismatch then .next (takeMsg s p m)
      else if !(s.port p).offsetDiffers then
        .next (sendMgmt (s.setPort p { x with offsetDiffers := true, offsetAgreed := false }) p (offsetMsg s))
      else .next (fabricFault (s.setPort p { x with mismatch := true }) 0x0012 [BitVec.ofNat 8 p.toNat]) := by
  change execOffset p m s = _
  rw [execOffset]
  dsimp only
  rw [if_neg (by simp [h]), port_takeMsg, if_neg (not_unlinked hl m), setPort_takeMsg, setPort_takeMsg, setPort_takeMsg]
  rfl

theorem exec_laneMove {s : State} {p : Port} {m : Msg} (h : mgmtIs s p m 5 = true) (hst : (s.port p).st = .active) :
    exec (.laneMove p m) s = .next (sendMgmt (s.setPort p { s.port p with
        inbox := (s.port p).inbox.erase m
        moveTx := some ⟨false, BitVec.ofNat 4 (msgField m 9 1), BitVec.ofNat 4 (msgField m 10 1), BitVec.ofNat 48 (msgField m 11 8), true, .spare⟩ })
      p (mgmtMsg 6 (leBytes 11 (msgField m 8 11)))) := by
  change execLaneMove p m s = _
  rw [execLaneMove]
  dsimp only
  rw [if_neg (by simp [h]), port_takeMsg, if_neg (by simp [hst]), setPort_takeMsg]

theorem exec_laneAck {s : State} {p : Port} {m : Msg} {v : LaneMoveSt} (h : mgmtIs s p m 6 = true) (hv : (s.port p).moveRx = some v)
    (h1 : v.lane.toNat = msgField m 9 1) (h2 : v.target.toNat = msgField m 10 1) (h3 : v.beat.toNat = msgField m 11 8) :
    exec (.laneAck p m) s = .next (s.setPort p { s.port p with inbox := (s.port p).inbox.erase m, moveRx := some { v with acked := true } }) := by
  change execLaneAck p m s = _
  rw [execLaneAck]
  dsimp only
  rw [if_neg (by simp [h]), port_takeMsg]
  dsimp only
  rw [hv]
  dsimp only
  rw [if_pos (by simp [h1, h2, h3]), setPort_takeMsg]

theorem exec_recheck {s : State} {p : Port} {m : Msg} (h : mgmtIs s p m 7 = true) (hl : linked (s.port p) = true) :
    exec (.recheck p m) s = .next (if (s.port p).st = .held then runChecks (sendMgmt (takeMsg s p m) p (identMsg s p)) p
      else sendMgmt (takeMsg s p m) p (identMsg s p)) := by
  change execRecheck p m s = _
  rw [execRecheck]
  dsimp only
  rw [if_neg (by simp [h]), port_takeMsg, if_neg (not_unlinked hl m), port_sendMgmt_same, port_takeMsg]
  rfl

/-- Settles O11: each link-management message that waits at a linked port. -/
theorem managementMessages : Obligations.ManagementMessages := by
  unfold Obligations.ManagementMessages
  refine ⟨⟨fun p m s h hl hnh hni => ?_, fun p m s r h hst hr => ?_⟩, ⟨fun p m s h hl => ?_, fun p m s lat h hst hlat => ⟨fun hle hi => ?_, fun hle hi => ?_, fun hgt => ?_⟩,
      fun p m s h hl => ⟨fun ho => ?_, fun ho hj hf => ?_, fun ho hj hm hd => ?_, fun ho hj hm hd => ?_⟩⟩,
    fun p m s h hst => ?_, fun p m s v h hv h1 h2 h3 => ?_, fun p m s h hl => ?_, fun p m s h1 h2 => ?_⟩
  · exact (exec_ident h hl).trans (congrArg Host.Outcome.next (if_neg (by simpa [hnh] using hni)))
  · have hl : linked (s.port p) = true := by rcases hst with hst | ⟨hst, _⟩ <;> simp [linked, hst]
    have hexec := (exec_ident h hl).trans (congrArg Host.Outcome.next (if_pos (by rcases hst with hst | ⟨hst, hme⟩ <;> simp [*])))
    obtain ⟨hpass, hfail, hinbox, _, hneigh, _, hne⟩ := runChecks_spec (s.setPort p (identified (s.port p) m)) p
    have he : identReason (s.setPort p (identified (s.port p) m)) p = r := hr ▸ identReason_setPort_congr rfl
    rw [he] at hpass hfail
    rw [port_setPort_same] at hinbox hneigh
    exact ⟨_, hexec, hneigh, hinbox, hpass, hfail, fun q hq => (hne q hq).trans (port_setPort_ne _ _ hq)⟩
  · rw [exec_ping h hl, sendMgmt, port_takeMsg, setPort_takeMsg]
  · have hmin : min lat 0xFFFF = lat := by split at hle <;> omega
    rw [exec_pong h hst hlat, if_neg (Nat.not_lt.mpr hle), hi, measuredBy, hmin]
    rfl
  · have hmin : min lat 0xFFFF = lat := by split at hle <;> omega
    have hexec := exec_pong h hst hlat
    rw [if_neg (Nat.not_lt.mpr hle), if_pos hi] at hexec
    obtain ⟨hpass, hfail, _, _, _, hhop, _⟩ := runChecks_spec (s.setPort p (measuredBy (s.port p) m lat)) p
    have he : identReason (s.setPort p (measuredBy (s.port p) m lat)) p = identReason s p := identReason_setPort rfl
    rw [he] at hpass hfail
    rw [port_setPort_same] at hhop
    exact ⟨_, hexec, by rw [hhop, measuredBy, hmin], fun hr => (hpass hr).1, hfail⟩
  · have hexec := exec_pong h hst hlat
    rw [if_pos hgt] at hexec
    exact ⟨_, hexec, port_failPort_same _ p 11⟩
  · exact (exec_offset h hl).trans (if_pos ho)
  · refine ⟨_, (exec_offset h hl).trans ((if_neg ho).trans ((if_pos (by simp [hj])).trans (if_pos hf))), rfl, ?_, rfl, rfl⟩
    rw [port_sendMgmt_same, port_adopted]
    rfl
  · refine (exec_offset h hl).trans ((if_neg ho).trans ((if_neg (by simp [hj])).trans ((if_neg (by simp [hm])).trans ((if_pos (by simp [hd])).trans ?_))))
    rw [sendMgmt, port_setPort_same, setPort_setPort]
  · refine ⟨_, (exec_offset h hl).trans ((if_neg ho).trans ((if_neg (by simp [hj])).trans ((if_neg (by simp [hm])).trans (if_neg (by simp [hd]))))), ?_, ?_,
      fabricFault_time .., fabricFault_queues ..⟩
    · rw [port_congr (fabricFault_ports ..), port_setPort_same]
    · rw [fabricFault_faults _ (by decide)]
      exact List.mem_append_right _ (List.mem_singleton.mpr rfl)
  · refine ⟨_, ⟨false, BitVec.ofNat 4 (msgField m 9 1), BitVec.ofNat 4 (msgField m 10 1), BitVec.ofNat 48 (msgField m 11 8), true, .spare⟩,
      exec_laneMove h hst, ?_, rfl, rfl, rfl, rfl, rfl, ?_, ?_, rfl, rfl, fun q hq => (port_sendMgmt_ne _ _ hq).trans (port_setPort_ne _ _ hq)⟩ <;>
      rw [port_sendMgmt_same, port_setPort_same]
  · exact exec_laneAck h hv h1 h2 h3
  · obtain ⟨hpass, hfail, hinbox, hmgmt, _, _, _⟩ := runChecks_spec (sendMgmt (takeMsg s p m) p (identMsg s p)) p
    have hport : (sendMgmt (takeMsg s p m) p (identMsg s p)).port p =
        { s.port p with inbox := (s.port p).inbox.erase m, mgmt := (s.port p).mgmt ++ toFlits (identMsg s p) none } := by
      rw [port_sendMgmt_same, port_takeMsg]
    have he : identReason (sendMgmt (takeMsg s p m) p (identMsg s p)) p = identReason s p := by
      rw [identReason_sendMgmt, identReason_takeMsg]
    rw [he] at hpass hfail
    rw [hport] at hinbox hmgmt
    have hexec := exec_recheck h hl
    by_cases hst : (s.port p).st = .held
    · rw [if_pos hst] at hexec
      exact ⟨_, hexec, hmgmt, hinbox, fun hn => absurd hst hn, fun _ => ⟨fun hr => (hpass hr).1, hfail⟩⟩
    · rw [if_neg hst] at hexec
      refine ⟨_, hexec, ?_, ?_, fun _ => ⟨?_, rfl⟩, fun hn => absurd hn hst⟩ <;> rw [hport]
  · exact ⟨_, if_neg (by rw [h1, h2]; decide), rfl, congrArg PortState.inbox ((port_congr (s := takeMsg s p m) rfl p).trans (port_takeMsg ..)), rfl, rfl, rfl⟩

end Sys2Proof.Machine
end

section
/-! The slot that a port sends (O9). -/

namespace Sys2Proof.Machine

/-! ### Checksums and the header of a slot (R412, R414) -/

theorem crc16Bits_lt (k c : Nat) (h : c < 2 ^ 16) : crc16Bits k c < 2 ^ 16 := by
  induction k generalizing c with
  | zero => exact h
  | succ k ih =>
    refine ih _ ?_
    split
    · exact Nat.xor_lt_two_pow (Nat.mod_lt _ (by decide)) (by decide)
    · next hn =>
      have hlt : c < 2 ^ 15 := Nat.lt_of_testBit 15 (by simpa using hn) (by decide) fun j hj => by
        rw [Nat.testBit_lt_two_pow (Nat.lt_of_lt_of_le h (Nat.pow_le_pow_right (by decide) hj))]
        exact (Nat.testBit_two_pow_of_ne (by omega)).symm
      omega

theorem crc16_lt (bs : List Byte) : crc16 bs < 2 ^ 16 := by
  unfold crc16
  suffices ∀ c, c < 2 ^ 16 → bs.foldl (fun c b => crc16Bits 8 (c ^^^ (b.toNat * 256))) c < 2 ^ 16 from this _ (by decide)
  induction bs with
  | nil => exact fun c h => h
  | cons b r ih => exact fun c h => ih _ (crc16Bits_lt 8 _ (Nat.xor_lt_two_pow h (by have := b.isLt; omega)))

theorem crc32Bits_lt (k c : Nat) (h : c < 2 ^ 32) : crc32Bits k c < 2 ^ 32 := by
  induction k generalizing c with
  | zero => exact h
  | succ k ih =>
    refine ih _ ?_
    split
    · exact Nat.xor_lt_two_pow (by omega) (by decide)
    · omega

theorem crc32_lt (bs : List Byte) : crc32 bs < 2 ^ 32 := by
  unfold crc32
  suffices ∀ c, c < 2 ^ 32 → bs.foldl (fun c b => crc32Bits 8 (c ^^^ b.toNat)) c < 2 ^ 32 from Nat.xor_lt_two_pow (this _ (by decide)) (by decide)
  induction bs with
  | nil => exact fun c h => h
  | cons b r ih => exact fun c h => ih _ (crc32Bits_lt 8 _ (Nat.xor_lt_two_pow h (by have := b.isLt; omega)))

theorem headBits_lt (l : List TxFlit) : headBits l < 2 ^ l.length := by
  induction l with
  | nil => decide
  | cons f r ih =>
    rw [headBits, List.length_cons, Nat.pow_succ]
    split <;> omega

/-- The bytes of a number whose lowest bytes are a list. -/
theorem leBytes_of_low (a : List Byte) (c : Nat) : leBytes a.length (leNat a + 256 ^ a.length * c) = a := by
  have h : leNat (leBytes a.length (leNat a + 256 ^ a.length * c)) = leNat a := by
    rw [leNat_leBytes, Nat.add_mul_mod_self_left, Nat.mod_eq_of_lt (leNat_lt a)]
  have e := leBytes_leNat (leBytes a.length (leNat a + 256 ^ a.length * c))
  rw [length_leBytes, h, leBytes_leNat] at e
  exact e.symm

/-- The 14 bytes of a header before its CRC. -/
def headerBytes (b0 b1 b2 b3 seq ack heads beat : Nat) : List Byte :=
  [BitVec.ofNat 8 b0, BitVec.ofNat 8 b1, BitVec.ofNat 8 b2, BitVec.ofNat 8 b3] ++ leBytes 2 seq ++ leBytes 2 ack ++ leBytes 4 heads ++ leBytes 2 beat

theorem length_headerBytes (b0 b1 b2 b3 seq ack heads beat : Nat) : (headerBytes b0 b1 b2 b3 seq ack heads beat).length = 14 := by
  simp [headerBytes]

theorem leNat_headerBytes (b0 b1 b2 b3 seq ack heads beat : Nat) : leNat (headerBytes b0 b1 b2 b3 seq ack heads beat) =
    b0 % 256 + 256 * (b1 % 256) + 2 ^ 16 * (b2 % 256) + 2 ^ 24 * (b3 % 256) + 2 ^ 32 * (seq % 2 ^ 16) + 2 ^ 48 * (ack % 2 ^ 16) + 2 ^ 64 * (heads % 2 ^ 32) +
      2 ^ 96 * (beat % 2 ^ 16) := by
  simp only [headerBytes, leNat_append, leNat_leBytes, length_leBytes, List.length_append, List.length_cons, List.length_nil, leNat, BitVec.toNat_ofNat]
  omega

/-- The parts of a header with its CRC: the slot it names, the flit it acknowledges, its sequence number, and what a receiver checks (R414). -/
theorem headerBytes_good {b0 b2 b3 seq ack heads : Nat} (b1 beat : Nat) (h0 : b0 < 256) (h0' : b0 % 2 = 0) (h2 : b2 < 256) (h2' : b2 % 64 ≤ 30) (h3 : b3 < 256)
    (hs : seq < 2 ^ 16) (ha : ack < 2 ^ 16) (hh : heads < 2 ^ 30) {h : Nat}
    (he : h = leNat (headerBytes b0 b1 b2 b3 seq ack heads beat ++ leBytes 2 (crc16 (headerBytes b0 b1 b2 b3 seq ack heads beat)))) :
    headerGood h = true ∧ bits h 24 8 = b3 ∧ bits h 48 16 = ack ∧ bits h 32 16 = seq ∧ h < 2 ^ 128 := by
  have hlen := length_headerBytes b0 b1 b2 b3 seq ack heads beat
  have hnat := leNat_headerBytes b0 b1 b2 b3 seq ack heads beat
  have hbytes := leBytes_of_low (headerBytes b0 b1 b2 b3 seq ack heads beat) (crc16 (headerBytes b0 b1 b2 b3 seq ack heads beat) % 2 ^ 16)
  have hcrc := crc16_lt (headerBytes b0 b1 b2 b3 seq ack heads beat)
  rw [leNat_append, leNat_leBytes, hlen] at he
  rw [hlen] at hbytes
  generalize headerBytes b0 b1 b2 b3 seq ack heads beat = l at *
  have he' : h = leNat l + 256 ^ 14 * (crc16 l % 2 ^ 16) := he
  rw [← he'] at hbytes
  unfold headerGood
  rw [hbytes]
  generalize crc16 l = c at *
  rw [hnat] at he'
  simp only [bits_eq, Nat.testBit_eq_decide_div_mod_eq]
  refine ⟨?_, ?_, ?_, ?_, ?_⟩
  · simp only [Bool.and_eq_true, beq_iff_eq, Bool.not_eq_true', decide_eq_false_iff_not, decide_eq_true_eq]
    refine ⟨⟨⟨⟨?_, ?_⟩, ?_⟩, ?_⟩, ?_⟩ <;> omega
  all_goals omega

/-! ### What a slot is filled from (R415) -/

/-- What filling a slot leaves alone: all but the chain contexts and the counters. -/
def Unfilled (s t : State) : Prop := t.ports = s.ports ∧ t.time = s.time ∧ t.mem = s.mem ∧ t.queues = s.queues ∧ t.sems = s.sems

theorem Unfilled.refl (s : State) : Unfilled s s := ⟨rfl, rfl, rfl, rfl, rfl⟩
theorem Unfilled.trans {s t u : State} (h : Unfilled s t) (h' : Unfilled t u) : Unfilled s u := by
  obtain ⟨h1, h2, h3, h4, h5⟩ := h
  obtain ⟨g1, g2, g3, g4, g5⟩ := h'
  exact ⟨g1.trans h1, g2.trans h2, g3.trans h3, g4.trans h4, g5.trans h5⟩

theorem unfilled_bump (s : State) (a b c n : Nat) : Unfilled s (bump s a b c n) := ⟨bump_ports .., bump_time .., bump_mem .., bump_queues .., bump_sems ..⟩
theorem unfilled_takeFrom (s : State) (q n : Nat) : Unfilled s (takeFrom s q n).1 := ⟨rfl, rfl, rfl, rfl, rfl⟩

theorem unfilled_fillScheduled (s : State) (p : Port) : Unfilled s (fillScheduled s p).s := by
  unfold fillScheduled
  extract_lets x want l
  split
  · exact .refl s
  · next q _ =>
    have h : ∀ (k : List Nat) (a : State × List TxFlit), Unfilled s a.1 →
        Unfilled s (k.foldl (fun (a : State × List TxFlit) l => ((bump (takeFrom a.1 l 30).1 0x0A p.toNat 16 1), a.2 ++ (takeFrom a.1 l 30).2)) a).1 := by
      intro k
      induction k with
      | nil => exact fun _ h => h
      | cons l k ih => exact fun a ha => ih _ ((ha.trans (unfilled_takeFrom a.1 l 30)).trans (unfilled_bump ..))
    exact h _ ((takeFrom s q want).1, []) (unfilled_takeFrom ..)

theorem unfilled_fillOf (s : State) (p : Port) : Unfilled s (fillOf s p).s := by
  unfold fillOf
  dsimp only
  split
  · split <;> exact .refl s
  · split
    · exact unfilled_fillScheduled s p
    · exact .refl s

/-! ### New flits -/

theorem length_number (seq : BitVec 16) (l : List TxFlit) : (number seq l).length = l.length := by
  induction l generalizing seq with
  | nil => rfl
  | cons f r ih => rw [number, List.length_cons, List.length_cons, ih]

theorem number_seq (seq : BitVec 16) (l : List TxFlit) {i : Nat} {f : TxFlit} (h : (number seq l)[i]? = some f) : f.seq = seq + BitVec.ofNat 16 i := by
  induction l generalizing seq i with
  | nil => simp [number] at h
  | cons g r ih =>
    rw [number] at h
    cases i with
    | zero =>
      rw [List.getElem?_cons_zero] at h
      rw [← Option.some.inj h]
      simp
    | succ i =>
      rw [List.getElem?_cons_succ] at h
      rw [ih _ h]
      have hone : (1 : BitVec 16).toNat = 1 := rfl
      apply BitVec.eq_of_toNat_eq
      simp only [BitVec.toNat_add, BitVec.toNat_ofNat, hone]
      omega

theorem stampMgmt_seq (t : BitVec 64) (f : TxFlit) : (stampMgmt t f).seq = f.seq := by
  unfold stampMgmt
  dsimp only
  (repeat' split) <;> rfl

/-- The flits newly sent take consecutive sequence numbers (R416). -/
theorem stamped_seq (tick : BitVec 64) (seq : BitVec 16) (l : List TxFlit) {i : Nat} {f : TxFlit} (h : ((number seq l).map (stampMgmt tick))[i]? = some f) :
    f.seq = seq + BitVec.ofNat 16 i := by
  rw [List.getElem?_map] at h
  obtain ⟨g, hg, rfl⟩ := Option.map_eq_some_iff.mp h
  rw [stampMgmt_seq]
  exact number_seq seq l hg

/-! ### The slot (O9) -/

/-- The bytes of a header: its indications, then the counts and numbers (R412). -/
theorem slotHeader_eq (s : State) (x : PortState) (n : Nat) (seq : BitVec 16) (heads : Nat) : ∃ sv st av aj, sv ≤ 1 ∧ st < 16 ∧ av ≤ 1 ∧ aj < 1024 ∧
    slotHeader s x n seq heads =
      headerBytes (sv * 128 + st * 8 + av * 4 + (if x.nakOwed then 2 else 0)) aj (aj / 256 * 64 + n) s.slot seq.toNat x.rxNext.toNat heads s.beat.toNat ++
        leBytes 2 (crc16 (headerBytes (sv * 128 + st * 8 + av * 4 + (if x.nakOwed then 2 else 0)) aj (aj / 256 * 64 + n) s.slot seq.toNat x.rxNext.toNat heads s.beat.toNat)) := by
  unfold slotHeader
  cases x.strOut with
  | nil =>
    cases x.abtOut with
    | nil => exact ⟨0, 0, 0, 0, by decide, by decide, by decide, by decide, rfl⟩
    | cons j _ => exact ⟨0, 0, 1, j.toNat, by decide, by decide, by decide, j.isLt, rfl⟩
  | cons t _ =>
    cases x.abtOut with
    | nil => exact ⟨1, t.toNat, 0, 0, by decide, t.isLt, by decide, by decide, rfl⟩
    | cons j _ => exact ⟨1, t.toNat, 1, j.toNat, by decide, t.isLt, by decide, j.isLt, rfl⟩

theorem slotHeader_good (s : State) (x : PortState) {n : Nat} (seq : BitVec 16) {heads : Nat} (hn : n ≤ 30) (hh : heads < 2 ^ 30) :
    headerGood (leNat (slotHeader s x n seq heads)) = true ∧ bits (leNat (slotHeader s x n seq heads)) 24 8 = s.slot ∧
      bits (leNat (slotHeader s x n seq heads)) 48 16 = x.rxNext.toNat ∧ bits (leNat (slotHeader s x n seq heads)) 32 16 = seq.toNat ∧
      leNat (slotHeader s x n seq heads) < 2 ^ 128 := by
  have hslot : s.slot < 256 := Nat.mod_lt _ (by decide)
  obtain ⟨sv, st, av, aj, h1, h2, h3, h4, he⟩ := slotHeader_eq s x n seq heads
  have hnak : (if x.nakOwed then 2 else 0) = 2 ∨ (if x.nakOwed then 2 else 0) = 0 := by split <;> simp
  rw [he]
  generalize (if x.nakOwed then 2 else 0) = nak at *
  exact headerBytes_good aj s.beat.toNat (by omega) (by omega) (by omega) (by omega) hslot seq.isLt x.rxNext.isLt hh rfl

theorem length_flatMap_const {α : Type} {g : α → List Byte} {n : Nat} (h : ∀ a, (g a).length = n) (l : List α) : (l.flatMap g).length = l.length * n := by
  simp [List.length_flatMap, h]

theorem length_slotBody (hdr : BitVec 128) (fl : List Flit) (crcs : List (BitVec 32)) : (slotBody hdr fl crcs).length = 16 + fl.length * 64 + crcs.length * 4 := by
  have hflits : ∀ f : Flit, (bytes64 f).length = 64 := fun f => length_leBytes ..
  have hcrcs : ∀ c : BitVec 32, (leBytes 4 c.toNat).length = 4 := fun c => length_leBytes ..
  rw [slotBody, List.length_append, List.length_append, length_leBytes, length_flatMap_const hflits, length_flatMap_const hcrcs]

theorem length_lightParity (body : List Byte) : (lightParity body).length = 32 := by simp [lightParity]

/-- The slot that a port sends from the flits it has chosen, of which the first numbers it (R412). -/
def builtSlot (s : State) (x : PortState) (flits : List TxFlit) : TxSlot :=
  let seq := match flits with
    | t :: _ => t.seq
    | [] => x.txSeq
  let pos := flits.map (·.flit) ++ List.replicate (30 - flits.length) 0
  let h := BitVec.ofNat 128 (leNat (slotHeader s x flits.length seq (headBits flits)))
  let cs := ((List.range 8).map (groupCrc seq.toNat pos)).map (BitVec.ofNat 32)
  ⟨h, pos, cs, lightParity (slotBody h pos cs)⟩

theorem builtSlot_good (s : State) (x : PortState) {flits : List TxFlit} (h : flits.length ≤ 30) :
    headerGood (builtSlot s x flits).hdr.toNat = true ∧ bits (builtSlot s x flits).hdr.toNat 24 8 = s.slot ∧ bits (builtSlot s x flits).hdr.toNat 48 16 = x.rxNext.toNat ∧
      (builtSlot s x flits).flits.length = 30 ∧ (builtSlot s x flits).crcs.length = 8 ∧
      (builtSlot s x flits).parity = lightParity (slotBody (builtSlot s x flits).hdr (builtSlot s x flits).flits (builtSlot s x flits).crcs) ∧
      (slotBody (builtSlot s x flits).hdr (builtSlot s x flits).flits (builtSlot s x flits).crcs ++ (builtSlot s x flits).parity).length = 2000 ∧
      ∀ g, g < 8 → ((builtSlot s x flits).crcs.getD g 0).toNat = groupCrc (bits (builtSlot s x flits).hdr.toNat 32 16) (builtSlot s x flits).flits g := by
  unfold builtSlot
  extract_lets seq pos hdr cs
  have hheads : headBits flits < 2 ^ 30 := Nat.lt_of_lt_of_le (headBits_lt flits) (Nat.pow_le_pow_right (by decide) h)
  obtain ⟨hgood, hslot, hack, hseq, hlt⟩ := slotHeader_good s x seq h hheads
  have hhdr : hdr.toNat = leNat (slotHeader s x flits.length seq (headBits flits)) := by
    rw [BitVec.toNat_ofNat, Nat.mod_eq_of_lt hlt]
  have hpos : pos.length = 30 := by
    simp only [pos, List.length_append, List.length_map, List.length_replicate]
    omega
  have hcs : cs.length = 8 := by simp [cs]
  dsimp only
  rw [hhdr]
  refine ⟨hgood, hslot, hack, hpos, hcs, rfl, ?_, fun g hg => ?_⟩
  · rw [List.length_append, length_slotBody, length_lightParity, hpos, hcs]
  · rw [hseq, List.getD_eq_getElem?_getD]
    have hcrc : (groupCrc seq.toNat pos g) < 2 ^ 32 := crc32_lt _
    simp only [cs, List.map_map, List.getElem?_map, List.getElem?_range hg, Option.map_some, Option.getD_some, Function.comp]
    rw [BitVec.toNat_ofNat, Nat.mod_eq_of_lt hcrc]

/-- Replayed flits come first; while the module's time is not aligned they wait for the slack slots (R33, R416). -/
def slotReplay (s : State) (p : Port) : List TxFlit := if decide (s.slot < 224) && !timeAligned s then [] else (s.port p).replay.take 30

/-- What the slot is filled from, and the flits it may carry, in their order (R415). -/
def slotFill (s : State) (p : Port) : Fill := fillOf (noteRequests s p s.slot) p
def slotOffer (s : State) (p : Port) : List TxFlit :=
  (slotFill s p).backlog.take (s.port p).begun ++ (slotFill s p).first ++ (slotFill s p).backlog.drop (s.port p).begun ++ (slotFill s p).last

/-- How many of them are sent: as many as the slot and the retry buffer have room for (R416, R417). -/
def sentCount (s : State) (p : Port) : Nat :=
  min (if decide (s.slot < 224) && !(s.time.inStretch && timeAligned s) && !scheduled s (s.port p) then 0 else min (30 - (slotReplay s p).length) (slotOffer s p).length)
    (2048 - (s.port p).retry.length)

/-- The flits newly sent. -/
def slotNew (s : State) (p : Port) : List TxFlit :=
  (number (s.port p).txSeq ((slotOffer s p).take (sentCount s p))).map (stampMgmt (slotFill s p).s.time.tick)

theorem sentCount_le (s : State) (p : Port) :
    sentCount s p ≤ (slotOffer s p).length ∧ sentCount s p ≤ 30 - (slotReplay s p).length ∧ sentCount s p ≤ 2048 - (s.port p).retry.length := by
  unfold sentCount
  split <;> omega

theorem length_slotReplay (s : State) (p : Port) : (slotReplay s p).length ≤ 30 := by
  unfold slotReplay
  split
  · exact Nat.zero_le _
  · exact List.length_take_le ..

theorem length_slotNew (s : State) (p : Port) : (slotNew s p).length = sentCount s p := by
  have h := (sentCount_le s p).1
  rw [slotNew, List.length_map, length_number, List.length_take]
  omega

/-- SLOT_SEND of a linked port: the slot is built from the replayed and the new flits, and the port keeps the new ones for a replay. -/
theorem exec_slotSend {s : State} {p : Port} (ht : s.ticking = true) (hst : (s.port p).st = .active ∨ (s.port p).st = .identify ∨ (s.port p).st = .held) :
    ∃ x a b, exec (.slotSend p) s = .next (bump (bump ((slotFill s p).s.setPort p x) 0x0A p.toNat 7 a) 0x0A p.toNat 8 b) ∧
      x.lastSlot = some (builtSlot (slotFill s p).s (s.port p) (slotReplay s p ++ slotNew s p)) ∧ x.retry = (s.port p).retry ++ slotNew s p ∧
      x.txSeq = (s.port p).txSeq + BitVec.ofNat 16 (sentCount s p) ∧ x.rxNext = (s.port p).rxNext :=
  ⟨_, _, _, if_neg (by simp [ht, hst]), rfl, rfl, rfl, rfl⟩

/-- Settles O9: the slot that a linked port sends while time runs. -/
theorem slotSendBuildsAGoodSlot : Obligations.SlotSendBuildsAGoodSlot := by
  unfold Obligations.SlotSendBuildsAGoodSlot
  intro p s ht hst hretry
  obtain ⟨x, a, b, hexec, hlast, hxr, hxs, hxn⟩ := exec_slotSend ht hst
  have hfill : Unfilled s (slotFill s p).s := Unfilled.trans ⟨noteRequests_ports .., noteRequests_time .., noteRequests_mem .., noteRequests_queues .., noteRequests_sems ..⟩ (unfilled_fillOf (noteRequests s p s.slot) p)
  obtain ⟨hports, htime, hmem, hqueues, hsems⟩ := hfill
  have hslot : (slotFill s p).s.slot = s.slot := by rw [State.slot, htime]; rfl
  obtain ⟨hk1, hk2, hk3⟩ := sentCount_le s p
  have hlen := length_slotNew s p
  have hrep := length_slotReplay s p
  obtain ⟨hgood, hbslot, hack, hflits, hcrcs, hpar, htotal, hgroups⟩ :=
    builtSlot_good (slotFill s p).s (s.port p) (flits := slotReplay s p ++ slotNew s p) (by rw [List.length_append]; omega)
  have hp : ∀ q, (bump (bump ((slotFill s p).s.setPort p x) 0x0A p.toNat 7 a) 0x0A p.toNat 8 b).port q = ((slotFill s p).s.setPort p x).port q :=
    port_congr ((bump_ports ..).trans (bump_ports ..))
  refine ⟨_, _, slotNew s p, hexec, ?_, hgood, hbslot.trans hslot, hack, hflits, hcrcs, hpar, htotal, hgroups, ?_, ?_, fun i f hf => stamped_seq _ _ _ hf, ?_, ?_,
    ?_, ?_, ?_, ?_, fun q hq => ?_⟩
  · rw [hp, port_setPort_same, hlast]
  · rw [hp, port_setPort_same, hxr]
  · rw [hp, port_setPort_same, hxr, List.length_append]
    omega
  · rw [hp, port_setPort_same, hxs, hlen]
  · rw [hp, port_setPort_same, hxn]
  · rw [bump_time, bump_time, State.setPort_time, htime]
  · rw [bump_mem, bump_mem, State.setPort_mem, hmem]
  · rw [bump_queues, bump_queues, State.setPort_queues, hqueues]
  · rw [bump_sems, bump_sems, State.setPort_sems, hsems]
  · rw [hp, port_setPort_ne _ _ hq, port_congr hports]

end Sys2Proof.Machine
end

section
/-! Slots received and replays (O10). -/

namespace Sys2Proof.Machine

/-! ### The flit that a port awaits (R417) -/

/-- From s to t no port changes the flit that it awaits. -/
structure RxSame (s t : State) : Prop where
  next : ∀ p, (t.port p).rxNext = (s.port p).rxNext

namespace RxSame
theorem refl (s : State) : RxSame s s := ⟨fun _ => rfl⟩
theorem trans {s t u : State} (h : RxSame s t) (h' : RxSame t u) : RxSame s u := ⟨fun p => (h'.next p).trans (h.next p)⟩
theorem of_ports {s t : State} (h : t.ports = s.ports) : RxSame s t := ⟨fun p => by rw [port_congr h]⟩
theorem setPort {s : State} {p : Port} {x : PortState} (h : x.rxNext = (s.port p).rxNext) : RxSame s (s.setPort p x) := ⟨fun q => by
  by_cases e : q = p
  · subst e; rw [port_setPort_same, h]
  · rw [port_setPort_ne _ _ e]⟩
theorem foldl {α : Type} {g : State → α → State} (h : ∀ s a, RxSame s (g s a)) (l : List α) (s : State) : RxSame s (l.foldl g s) := by
  induction l generalizing s with
  | nil => exact refl s
  | cons a r ih => exact (h s a).trans (ih _)
theorem ite {s t u : State} {c : Prop} [Decidable c] (ht : RxSame s t) (hu : RxSame s u) : RxSame s (if c then t else u) := by
  split
  · exact ht
  · exact hu
end RxSame

theorem rxSame_bump (s : State) (a b c n : Nat) : RxSame s (bump s a b c n) := .of_ports (bump_ports ..)
theorem rxSame_fabricFault (s : State) (c : Nat) (d : List Byte) : RxSame s (fabricFault s c d) := .of_ports (fabricFault_ports ..)

theorem rxSame_sendStr (s : State) (t : BitVec 4) (e : Option Port) : RxSame s (sendStr s t e) := by
  unfold sendStr
  refine .foldl (fun s p => ?_) _ _
  split
  · exact .refl s
  · exact .setPort rfl

theorem rxSame_sendAbt (s : State) (r : BitVec 10) (e : Option Port) : RxSame s (sendAbt s r e) := by
  unfold sendAbt
  split
  · exact .refl s
  · dsimp only
    refine .trans ?_ (.of_ports (s := (activePorts s).foldl _ s) rfl)
    refine .foldl (fun s p => ?_) _ _
    split
    · exact .refl s
    · exact .setPort rfl

theorem rxSame_beginJobAbort (s : State) (j : Nat) (e : Option Port) : RxSame s (beginJobAbort s j e) := by
  unfold beginJobAbort
  split
  · exact .refl s
  · split
    · exact .refl s
    · dsimp only
      refine .trans ?_ (.of_ports (drainRed_ports ..))
      refine .trans ?_ (rxSame_sendAbt ..)
      exact .of_ports rfl

theorem rxSame_abortJob (s : State) (j : Nat) (e : Option Port) : RxSame s (abortJob s j e) :=
  (rxSame_beginJobAbort s j e).trans (.of_ports (enterAbort_ports ..))

theorem rxSame_strIndication (s : State) (p : Port) (t : BitVec 4) : RxSame s (strIndication s p t) := by
  unfold strIndication
  dsimp only
  split
  · exact .refl s
  · split
    · refine .trans ?_ (rxSame_sendStr ..)
      exact .of_ports rfl
    · refine .trans ?_ (rxSame_fabricFault ..)
      refine .trans ?_ (rxSame_bump ..)
      exact .of_ports rfl

theorem rxSame_abtIndication (s : State) (p : Port) (r : BitVec 10) : RxSame s (abtIndication s p r) := by
  unfold abtIndication
  dsimp only
  split
  · exact ((rxSame_sendAbt ..).trans (rxSame_abortJob ..)).trans (.of_ports (postEvent_ports ..))
  · exact rxSame_sendAbt ..

theorem rxSame_startReplay (s : State) (p : Port) (n : BitVec 16) : RxSame s (startReplay s p n) := by
  unfold startReplay
  extract_lets x n l
  split
  · refine .trans ?_ (.of_ports (postAll_ports ..))
    exact .setPort rfl
  · refine .trans ?_ (rxSame_bump ..)
    exact .setPort rfl

theorem rxSame_takeAck (s : State) (p : Port) (a : BitVec 16) (n : Bool) : RxSame s (takeAck s p a n) := by
  unfold takeAck
  dsimp only
  split
  · refine .trans ?_ (rxSame_startReplay ..)
    exact .setPort rfl
  · exact .setPort rfl

theorem rxSame_checkSkew (s : State) (p : Port) (b k : Nat) : RxSame s (checkSkew s p b k) := by
  unfold checkSkew
  dsimp only
  have hb : RxSame s (bump (s.setPort p { s.port p with skewRun := (s.port p).skewRun + 1 }) 0x0A p.toNat 15 1) := by
    refine .trans ?_ (rxSame_bump ..)
    exact .setPort rfl
  split
  · exact .refl s
  · split
    · exact .ite (hb.trans (rxSame_fabricFault ..)) hb
    · exact .ite (.refl s) (.setPort rfl)

/-! ### Flits taken in order -/

theorem rxSame_deliver (s : State) (p : Port) (m : Msg) : RxSame s (deliver s p m) := by
  unfold deliver
  dsimp only
  split
  · split
    · exact rxSame_bump ..
    · exact .ite (.setPort rfl) (rxSame_bump ..)
  · exact .setPort rfl

theorem rxSame_acceptFlit (s : State) (p : Port) (f : Flit) (h : Bool) : RxSame s (acceptFlit s p f h) := by
  unfold acceptFlit
  dsimp only
  split
  · split
    · refine .trans ?_ (rxSame_bump ..)
      exact .setPort rfl
    · exact .ite (rxSame_deliver ..) (.setPort rfl)
  · split
    · exact .refl s
    · split
      · refine .trans ?_ (rxSame_deliver ..)
        exact .setPort rfl
      · exact .setPort rfl

/-- Flits whose groups are good, from the one awaited on, are all accepted (R417). -/
theorem takeFlits_accepts (p : Port) (seq : BitVec 16) (heads : Nat) (l : List Flit) (k : Nat) (s : State) (h : (s.port p).rxNext = seq + BitVec.ofNat 16 k) :
    ((takeFlits p seq heads ((l.zipIdx k).map fun e => (e.2, e.1, true)) s).port p).rxNext = seq + BitVec.ofNat 16 (k + l.length) := by
  induction l generalizing k s with
  | nil => exact h
  | cons f r ih =>
    rw [List.zipIdx_cons, List.map_cons, takeFlits]
    dsimp only
    rw [if_pos ⟨h.symm, rfl⟩]
    have hnext : ((acceptFlit (s.setPort p { s.port p with rxNext := (s.port p).rxNext + 1, inGap := false }) p f (heads.testBit k)).port p).rxNext =
        seq + BitVec.ofNat 16 (k + 1) := by
      rw [(rxSame_acceptFlit ..).next, port_setPort_same]
      dsimp only
      rw [h]
      have hone : (1 : BitVec 16).toNat = 1 := rfl
      apply BitVec.eq_of_toNat_eq
      simp only [BitVec.toNat_add, BitVec.toNat_ofNat, hone]
      omega
    rw [ih _ _ hnext, List.length_cons]
    congr 2
    omega

/-! ### Slots received (O10) -/

/-- The counts of what the codes of a slot found (R409, R413). -/
def coded (s : State) (p : Port) (corr uncorr miss : Nat) : State :=
  noteCe (bump (bump (bump s 0x0A p.toNat 1 corr) 0x0A p.toNat 2 uncorr) 0x0A p.toNat 3 miss) 0x0A p.toNat corr 0

theorem coded_view (s : State) (p : Port) (a b c : Nat) : (coded s p a b c).ports = s.ports ∧ (coded s p a b c).mem = s.mem ∧ (coded s p a b c).queues = s.queues ∧
    (coded s p a b c).time = s.time ∧ (coded s p a b c).counter 0x0A p.toNat 4 = s.counter 0x0A p.toNat 4 := by
  unfold coded
  refine ⟨by simp, by simp, by simp, by simp, ?_⟩
  have hce : ∀ (s : State) n, (noteCe s 0x0A p.toNat n 0).counter 0x0A p.toNat 4 = s.counter 0x0A p.toNat 4 := fun s n => by
    unfold noteCe
    split <;> rfl
  rw [hce, counter_bump_ne _ (by unfold ctrKey; omega), counter_bump_ne _ (by unfold ctrKey; omega), counter_bump_ne _ (by unfold ctrKey; omega)]

/-- A slot whose header is good, once its indications and its ACK are taken, before its flits are (R414, R418). -/
def acknowledged (s : State) (p : Port) (h : Nat) : State :=
  let s := checkSkew s p (bits h 96 16) (bits h 24 8)
  let s := if h.testBit 7 then strIndication s p (BitVec.ofNat 4 (bits h 3 4)) else s
  let s := if h.testBit 2 then abtIndication s p (BitVec.ofNat 10 (bits h 8 8 + bits h 22 2 * 256)) else s
  takeAck s p (BitVec.ofNat 16 (bits h 48 16)) (h.testBit 1)

theorem rxSame_acknowledged (s : State) (p : Port) (h : Nat) : RxSame s (acknowledged s p h) := by
  unfold acknowledged
  dsimp only
  refine .trans ?_ (rxSame_takeAck ..)
  refine .trans (.trans (rxSame_checkSkew ..) (.ite (rxSame_strIndication ..) (.refl _))) (.ite (rxSame_abtIndication ..) (.refl _))

theorem linked_iff (x : PortState) : linked x = true ↔ x.st = .active ∨ x.st = .identify ∨ x.st = .held := by
  simp [linked, or_assoc]

/-- A slot that a linked port receives, by what its codes leave of it. -/
theorem exec_slotReceived {s : State} {p : Port} {slot d : RxSlot} (hl : linked (s.port p) = true) (hd : d = (decodeSlot (s.port p).hollyhock slot).1) :
    ∃ a b c, exec (.slotReceived p slot) s = .next (if !headerGood d.hdr.toNat then bump (coded s p a b c) 0x0A p.toNat 4 1
      else takeFlits p (BitVec.ofNat 16 (bits d.hdr.toNat 32 16)) (bits d.hdr.toNat 64 30)
        ((d.flits.take (bits d.hdr.toNat 16 5)).zipIdx.map fun e =>
          (e.2, e.1, ((List.range 8).map fun g => groupCrc (BitVec.ofNat 16 (bits d.hdr.toNat 32 16)).toNat d.flits g == (d.crcs.getD g 0).toNat).getD (min (e.2 / 4) 7) false))
        (bump (acknowledged (coded s p a b c) p d.hdr.toNat) 0x0A p.toNat 5
          (((List.range 8).map fun g => groupCrc (BitVec.ofNat 16 (bits d.hdr.toNat 32 16)).toNat d.flits g == (d.crcs.getD g 0).toNat).filter (· == false)).length)) := by
  refine ⟨(decodeSlot (s.port p).hollyhock slot).2.1, (decodeSlot (s.port p).hollyhock slot).2.2.1, (decodeSlot (s.port p).hollyhock slot).2.2.2, ?_⟩
  subst hd
  change execSlotReceived p slot s = _
  rw [execSlotReceived]
  dsimp only
  rw [if_neg (by have h := (linked_iff _).mp hl; simp [h])]
  generalize decodeSlot (s.port p).hollyhock slot = v
  obtain ⟨d, a, b, c⟩ := v
  dsimp only
  cases headerGood d.hdr.toNat <;> rfl

/-- In a slot of good groups every flit that its header counts is good (R413). -/
theorem goodFlits {d : RxSlot} {n m : Nat} (hcrc : ∀ g, g < 8 → groupCrc n d.flits g = (d.crcs.getD g 0).toNat) :
    ((d.flits.take m).zipIdx.map fun e => (e.2, e.1, ((List.range 8).map fun g => groupCrc n d.flits g == (d.crcs.getD g 0).toNat).getD (min (e.2 / 4) 7) false)) =
      ((d.flits.take m).zipIdx 0).map fun e => (e.2, e.1, true) := by
  refine List.map_congr_left fun e he => ?_
  have hg : min (e.2 / 4) 7 < 8 := by omega
  rw [List.getD_eq_getElem?_getD, List.getElem?_map, List.getElem?_range hg]
  simp [hcrc _ hg]

/-- A port in RETRAIN with the flits to replay (R418, R421). -/
def retraining (s : State) (p : Port) (q : BitVec 16) : State :=
  s.setPort p { s.port p with
    st := .retrain, retrainAt := s.time.tick, replays := 0, replay := (s.port p).retry.filter (fun f => !seqBefore f.seq q), replayFrom := q }

/-- How a replay begins: the port goes to RETRAIN after too many from one flit, else the replay is counted (R418, R421). -/
theorem startReplay_eq {s : State} {p : Port} {q : BitVec 16} {n : Nat} (hn : n = if (s.port p).replays ≠ 0 ∧ (s.port p).replayFrom = q then (s.port p).replays + 1 else 1) :
    startReplay s p q = if n > s.reg 0x3400 8 ∧ (s.port p).st = .active then postAll (retraining s p q) 0x0104 (torusDetail (retraining s p q) p 0)
      else bump (s.setPort p { s.port p with replays := n, replayFrom := q, replay := (s.port p).retry.filter fun f => !seqBefore f.seq q }) 0x0A p.toNat 6 1 := by
  subst hn
  unfold startReplay
  dsimp only
  exact if_congr (by simp) rfl rfl

/-- Settles O10: slots received, and the replay of what is not acknowledged. -/
theorem slotsReceived : Obligations.SlotsReceived := by
  unfold Obligations.SlotsReceived
  refine ⟨⟨fun p slot d s hl hd hg => ?_, fun p slot d s hl hd hlen hg hseq hcrc => ?_⟩, fun p s f l n hr hl hn => ?_⟩
  · obtain ⟨a, b, c, hexec⟩ := exec_slotReceived hl hd
    obtain ⟨hports, hmem, hqueues, htime, hctr⟩ := coded_view s p a b c
    rw [if_pos (by simp [hg])] at hexec
    refine ⟨_, hexec, (bump_ports ..).trans hports, ?_, (bump_mem ..).trans hmem, (bump_queues ..).trans hqueues, (bump_time ..).trans htime⟩
    rw [counter_bump_same _ _ _ _ _ one_ne_zero, hctr]
  · obtain ⟨a, b, c, hexec⟩ := exec_slotReceived hl hd
    rw [if_neg (by simp [hg])] at hexec
    refine ⟨_, hexec, ?_⟩
    have hn : bits d.hdr.toNat 16 5 ≤ 30 := by
      simp only [headerGood, Bool.and_eq_true, decide_eq_true_eq] at hg
      exact hg.1.2
    have hlt := bits_lt d.hdr.toNat 32 16
    have hmod : (BitVec.ofNat 16 (bits d.hdr.toNat 32 16)).toNat = bits d.hdr.toNat 32 16 := by rw [BitVec.toNat_ofNat, Nat.mod_eq_of_lt hlt]
    rw [hmod, goodFlits hcrc]
    have hstart : ((bump (acknowledged (coded s p a b c) p d.hdr.toNat) 0x0A p.toNat 5
        (((List.range 8).map fun g => groupCrc (bits d.hdr.toNat 32 16) d.flits g == (d.crcs.getD g 0).toNat).filter (· == false)).length).port p).rxNext =
        BitVec.ofNat 16 (bits d.hdr.toNat 32 16) + BitVec.ofNat 16 0 := by
      rw [(rxSame_bump ..).next, (rxSame_acknowledged ..).next, port_congr (coded_view ..).1, hseq]
      simp
    rw [takeFlits_accepts p _ _ _ 0 _ hstart, List.length_take, hlen, Nat.min_eq_left hn, Nat.zero_add, hseq, BitVec.ofNat_toNat, BitVec.setWidth_eq]
  · have hexec : exec (.retryTimeout p) s = .next (startReplay s p f.seq) := by
      change execRetryTimeout p s = _
      rw [execRetryTimeout, hr]
      exact if_pos ((linked_iff _).mp hl)
    have he := startReplay_eq hn
    rw [← hr]
    by_cases hc : n > s.reg 0x3400 8 ∧ (s.port p).st = .active
    · rw [if_pos hc] at he
      refine ⟨_, hexec.trans (congrArg Host.Outcome.next he), ?_, ?_, ?_, fun _ => ?_, fun hn => absurd hc hn⟩ <;> rw [port_congr (postAll_ports ..), retraining, port_setPort_same]
    · rw [if_neg hc] at he
      refine ⟨_, hexec.trans (congrArg Host.Outcome.next he), ?_, ?_, ?_, fun hn => absurd hn hc, fun _ => ⟨?_, ?_, bump_mem .., counter_bump_same _ _ _ _ _ one_ne_zero⟩⟩ <;>
        rw [port_congr (bump_ports ..), port_setPort_same]

end Sys2Proof.Machine
end

section
/-! Plain commands: NOP, FENCE and BEAT_ALIGN (O49). -/

namespace Sys2Proof.Machine

/-! ### Plain commands (O49) -/

/-- A command that starts has its reserved fields zero (R358). -/
theorem resv_of_starts {s s1 : State} {q : QNum} {c : Cmd} {resv : Cmd → Bool} {handles : Cmd → List Nat} (h : Starts s q c resv handles s1) : resv c = true := by
  obtain ⟨_, _, _, h⟩ := h
  unfold earlyChecks at h
  split at h; · simp at h
  split at h; · simp at h
  split at h; · simp at h
  split at h
  · simp at h
  · next hr =>
    simp only [Bool.or_eq_true, Bool.not_eq_true', not_or, Bool.not_eq_false] at hr
    exact hr.2

/-- A body that always ends in one run ends there. -/
theorem run_of_tot {m : M Unit} {r r' : Run} (h : Tot (· = r) m fun _ x => x = r') : (ExceptT.run m).run r = (.ok (), r') := by
  obtain ⟨_, x, e, rfl⟩ := h r rfl
  exact e

theorem earlierDone_tot {r : Run} (hq : (r.s.queue r.q).started = []) : Tot (· = r) earlierDone fun _ x => x = r := by
  unfold earlierDone
  refine Tot.got fun x hx => ?_
  subst hx
  rw [if_pos (by simp [hq])]
  exact Tot.pure _ fun _ h => h

/-- FENCE of a scope in which nothing has started ends at once (R361). -/
theorem fenceBody_tot {r : Run} (hq : (r.s.queue r.q).started = []) (hj : (cmdField r.c 8 1).testBit 0 = true → jobStarted r.s r.job r.q = []) :
    Tot (· = r) fenceBody fun _ x => x = r := by
  unfold fenceBody
  refine Tot.got fun x hx => ?_
  subst hx
  split
  · next hb =>
    dsimp only
    rw [if_pos]
    · exact Tot.pure _ fun _ h => h
    · simp only [Bool.and_eq_true, List.isEmpty_iff]
      refine ⟨?_, hq⟩
      rw [hj hb]
      split
      · exact List.filter_eq_nil_iff.mpr fun a _ => by simp
      · rfl
  · exact earlierDone_tot hq

/-- SET_BASE sets the queue's beat base from the schedule beat (R39). -/
theorem alignBody_setBase {r : Run} (h : cmdField r.c 8 1 % 4 = 2) :
    Tot (· = r) alignBody fun _ x => x = { r with s := r.s.setQueue r.q { r.s.queue r.q with base := r.s.schedBeat + BitVec.ofNat 48 (alignBeat r.c) } } := by
  unfold alignBody
  refine Tot.got fun x hx => ?_
  subst hx
  rw [h]
  exact Tot.modify _ fun x hx => by rw [hx]

/-- DEADLINE ends in its marker (R40). -/
theorem alignBody_deadline {r : Run} (h : cmdField r.c 8 1 % 4 = 1) : Tot (· = r) alignBody fun _ x => x = r := by
  unfold alignBody
  refine Tot.got fun x hx => ?_
  subst hx
  rw [h]
  exact Tot.pure _ fun _ h => h

/-- WAIT mode lets the queue go on from its slot, counted where it came to the head late (R39). -/
theorem alignBody_wait {r : Run} (h : cmdField r.c 8 1 % 4 = 0) (hw : whenIs r.s false ((r.s.queue r.q).target (alignBeat r.c)) (cmdField r.c 0x0C 1) ≠ .early) :
    Tot (· = r) alignBody fun _ x => x = { r with s := if (r.s.queue r.q).headLate ((r.s.queue r.q).target (alignBeat r.c)) (cmdField r.c 0x0C 1) then bump r.s 5 0 1 1 else r.s } := by
  unfold alignBody
  refine Tot.got fun x hx => ?_
  subst hx
  split
  · by_cases hl : (x.s.queue x.q).headLate ((x.s.queue x.q).target (alignBeat x.c)) (cmdField x.c 0x0C 1) = true
    · dsimp only
      rw [if_pos hl, if_pos hl]
      split
      · next he => exact absurd he hw
      · exact Tot.modify _ fun y hy => by rw [hy]
    · dsimp only
      rw [if_neg hl, if_neg hl]
      split
      · next he => exact absurd he hw
      · exact Tot.pure _ fun y hy => hy
  · next h1 => rw [h] at h1; exact absurd h1 (by decide)
  · next h0 _ => exact absurd h h0

/-- Settles O49: NOP, FENCE and the modes of BEAT_ALIGN. -/
theorem plainCommandsComplete : Obligations.PlainCommandsComplete := by
  unfold Obligations.PlainCommandsComplete
  refine ⟨fun q c s s1 h => ⟨start_ends h rfl, rfl⟩, fun q c s s1 h hq hj => start_ends h (run_of_tot (fenceBody_tot hq fun hb => ?_)), fun q c s s1 h hm => ?_,
    fun q c s u s1 ho hu h hm => ⟨?_, fun m hmem => ?_⟩, fun q c s s1 h hm hw => ?_⟩
  · have hle : cmdField c 8 1 ≤ 1 := by
      have hr := resv_of_starts h
      simp only [fenceOk, Bool.and_eq_true, decide_eq_true_eq] at hr
      exact hr.1
    refine hj ?_
    have hb : (cmdField c 8 1).testBit 0 = true := hb
    rcases Nat.le_one_iff_eq_zero_or_eq_one.mp hle with h0 | h1
    · rw [h0] at hb; exact absurd hb (by decide)
    · exact h1
  · have hexec : exec (.beatAlign q c) s = startCmd q c beatAlignOk (fun _ => []) alignBody s := by
      change execBeatAlign q c s = _
      rw [execBeatAlign]
      rw [if_neg (by simp [hm])]
    exact hexec.trans (start_ends h (run_of_tot (alignBody_setBase hm)))
  · have hexec : exec (.beatAlign q c) s = startCmd q c beatAlignOk (fun _ => []) alignBody u := by
      change execBeatAlign q c s = _
      rw [execBeatAlign]
      rw [if_pos (by simp [hm, ho]), hu]
    exact hexec.trans (start_ends h (run_of_tot (alignBody_deadline hm)))
  · rw [hu, reachMarker] at hmem
    rw [queue_setQueue_same] at hmem
    simpa using (List.mem_filter.mp hmem).2
  · have hexec : exec (.beatAlign q c) s = startCmd q c beatAlignOk (fun _ => []) alignBody s := by
      change execBeatAlign q c s = _
      rw [execBeatAlign]
      rw [if_neg (by simp [hm])]
    exact hexec.trans (start_ends h (run_of_tot (alignBody_wait hm hw)))

end Sys2Proof.Machine
end

section
/-! WAIT, SIGNAL, SEM_CREATE and SEM_DESTROY (O50). -/

namespace Sys2Proof.Machine

/-! ### WAIT, SIGNAL, SEM_CREATE and SEM_DESTROY (O50) -/

/-- A computation goes on from where its first part ends. -/
theorem run_bind_of {α β : Type} {m : M α} {k : α → M β} {r r1 : Run} {a : α} (h : (ExceptT.run m).run r = (.ok a, r1)) :
    (ExceptT.run (m >>= k)).run r = (ExceptT.run (k a)).run r1 := by
  rw [ExceptT.run_bind]
  simp only [StateT.run_bind]
  rw [h]
  rfl

/-- What a command that starts leaves is what its body leaves (R354, R364). -/
theorem startCmd_body {q : QNum} {c : Cmd} {resv : Cmd → Bool} {handles : Cmd → List Nat} {s s1 : State} (body : M Unit) (hs : Starts s q c resv handles s1) :
    startCmd q c resv handles body s =
      .next (afterBody s1 q (s.queue q) c (handles c) ((ExceptT.run body).run (headRun s1 q (s.queue q) c))) := by
  obtain ⟨h3, ⟨b, h4⟩, h5, h6⟩ := hs
  rw [startCmd_ready h3]
  unfold present
  simp only [h4, h5, h6, Bool.not_true, Bool.false_eq_true, if_false]

theorem queue_of_starts {q : QNum} {c : Cmd} {resv : Cmd → Bool} {handles : Cmd → List Nat} {s s1 : State} (hs : Starts s q c resv handles s1) (p : QNum) :
    s1.queue p = s.queue p := by
  obtain ⟨_, ⟨b, h⟩, _⟩ := hs
  exact queue_congr (fetchHead_queues h) p

/-- A wait takes note of a value stored in its semaphore (R368). -/
def notedWait (n : Nat) (v : BitVec 64) (x : Queue) : Queue :=
  match x.hold with
  | .wait i c m eq t sat => { x with hold := .wait i c m eq t (sat || (m.toNat == n && waitMet eq t v)) }
  | .fill i m t sat => { x with hold := .fill i m t (sat || (m.toNat == n && waitMet false t v)) }
  | _ => x

theorem queue_semStore (s : State) (n : Nat) (v : BitVec 64) (q : QNum) : (semStore s n v).queue q = notedWait n v (s.queue q) := by
  have h : (semStore s n v).queues = markWaits n v s.queues := by
    unfold semStore
    dsimp only
    split <;> rfl
  refine queue_of_map (g := fun _ => notedWait n v) (h.trans (List.map_congr_left fun e _ => ?_)) rfl
  obtain ⟨k, x⟩ := e
  unfold notedWait
  dsimp only
  cases hx : x.hold <;> rfl

theorem notedWait_next (n : Nat) (v : BitVec 64) (x : Queue) : (notedWait n v x).next = x.next := by
  unfold notedWait
  split <;> rfl

/-- The state after a command has started has its body's memory and semaphores. -/
theorem started_mem (q : QNum) (r : Run) : (started q r).mem = r.s.mem := pushStarted_mem ..
theorem started_sem (q : QNum) (r : Run) (n : Nat) : (started q r).sem n = r.s.sem n := sem_congr (pushStarted_sems ..) n

/-- The state in which SIGNAL leaves semaphore n: the value of the command stored, or added (R367). -/
def signalled (r : Run) (n : Nat) : State :=
  semStore r.s n ((if (cmdField r.c 8 1).testBit 0 then (r.s.sem n).value else 0) + BitVec.ofNat 64 (cmdField r.c 0x10 8))

/-- SIGNAL of a semaphore stores or adds (R367). -/
theorem signalBody_sem {r : Run} {n : Nat} (hb : (cmdField r.c 8 1).testBit 1 = false) (hq : (r.s.queue r.q).started = []) (hn : n = cmdField r.c 0x0C 4)
    (hc : semCheck r.s r.f n = stOk) : (ExceptT.run signalBody).run r = (.ok (), { r with s := signalled r n }) := by
  subst hn
  refine run_of_tot ?_
  unfold signalBody
  refine tot_getE ?_
  dsimp only
  rw [if_neg (by simp [hb])]
  refine tot_bindE (reads_semM hc) (Tot.bind (earlierDone_tot hq) fun _ => ?_)
  unfold signalled
  by_cases ha : (cmdField r.c 8 1).testBit 0 = true
  · rw [if_pos ha, if_pos ha]
    exact Tot.modify _ fun x hx => by rw [hx]; rfl
  · rw [if_neg ha, if_neg ha, zero_add]
    exact Tot.modify _ fun x hx => by rw [hx]

/-- SIGNAL of a word of host memory ends as the write of that word does (R371). -/
theorem signalBody_host {r r' : Run} {u : State} {old : BitVec 64} (hb : (cmdField r.c 8 1).testBit 1 = true) (hq : (r.s.queue r.q).started = [])
    (ha : cmdField r.c 0x18 8 % 8 = 0)
    (hu : if (cmdField r.c 8 1).testBit 0 then atomicOn r.s r.f = true ∧ (old, u) = drawWord r.s else old = 0 ∧ u = r.s)
    (hw : (ExceptT.run (writeM 4 (cmdField r.c 0x18 8) (leBytes 8 (old.toNat + cmdField r.c 0x10 8)))).run { r with s := u } = (.ok (), r')) :
    (ExceptT.run signalBody).run r = (.ok (), r') := by
  have hwrite : Tot (· = { r with s := u }) (writeM 4 (cmdField r.c 0x18 8) (leBytes 8 (old.toNat + cmdField r.c 0x10 8))) fun _ x => x = r' := by
    rintro x rfl
    exact ⟨(), r', hw, rfl⟩
  refine run_of_tot ?_
  unfold signalBody
  refine tot_getE ?_
  dsimp only
  rw [if_pos hb]
  cases h0 : (cmdField r.c 8 1).testBit 0 with
  | true =>
    rw [h0, if_pos rfl] at hu
    obtain ⟨hat, hd⟩ := hu
    refine tot_needB (by simp [ha, hat]) (Tot.bind (earlierDone_tot hq) fun _ => ?_)
    simp only [if_true]
    refine Tot.bind (Q := fun o x => o = old.toNat ∧ x = { r with s := u }) (tot_bindE (a := r.s) rfl ?_) fun o => Tot.given ?_
    · rw [← hd]
      exact Tot.bind (Q := fun _ x => x = { r with s := u }) (Tot.modify _ fun x hx => by rw [hx]) fun _ => Tot.pure _ fun x hx => ⟨rfl, hx⟩
    · rintro rfl
      exact hwrite
  | false =>
    rw [h0, if_neg (by decide)] at hu
    obtain ⟨rfl, rfl⟩ := hu
    rw [show (0 : BitVec 64).toNat = 0 from rfl] at hwrite
    refine tot_needB (by simp [ha]) (Tot.bind (earlierDone_tot hq) fun _ => ?_)
    rw [if_neg Bool.false_ne_true, pure_bind]
    exact hwrite

theorem accStop_ok {α : Type} {near : Bool} {x : Acc α} {a : α} {r r' : Run} (h : (ExceptT.run (accStop near x)).run r = (.ok a, r')) : x = .ok a ∧ r' = r := by
  cases x with
  | ok y => cases h; exact ⟨rfl, rfl⟩
  | fault _ _ | offline | need _ => cases h
  | poison va a =>
    obtain ⟨_, _, _, h⟩ := bind_ends h
    cases h

theorem tagsM_ok {a n : Nat} {r r' : Run} (h : (ExceptT.run (tagsM a n)).run r = (.ok (), r')) : r' = r := by
  unfold tagsM at h
  obtain ⟨_, r1, h1, h⟩ := bind_ends h
  cases h1
  split at h <;> cases h
  rfl

/-- A write that a body makes leaves its status and every semaphore. -/
theorem writeM_sems {t a : Nat} {bs : List Byte} {r r' : Run} (h : (ExceptT.run (writeM t a bs)).run r = (.ok (), r')) (ht : t ≠ 0) :
    r'.w.status = r.w.status ∧ r'.s.sems = r.s.sems := by
  unfold writeM at h
  obtain ⟨_, r1, h1, h⟩ := bind_ends h
  cases h1
  rw [if_neg ht] at h
  obtain ⟨_, r2, h2, h⟩ := bind_ends h
  obtain ⟨_, r3, h3, h⟩ := bind_ends h
  obtain ⟨_, r4, h4, h⟩ := bind_ends h
  obtain ⟨_, r5, h5, h⟩ := bind_ends h
  cases h4; cases h5; cases h
  obtain ⟨ha, e⟩ := accStop_ok h3
  rw [e, tagsM_ok h2]
  exact ⟨rfl, (unpoison_sems ..).trans (vWrite_ok_sems ha)⟩

theorem run_throw {α : Type} (e : Stop) (r : Run) : (ExceptT.run (throw e : M α)).run r = (.error e, r) := rfl

/-- The hold in which WAIT leaves the head of its queue (R366, R368). -/
def waitHold (r : Run) : Hold :=
  .wait r.w.idx r.c (BitVec.ofNat 16 (cmdField r.c 8 4)) (cmdField r.c 0x0C 1 == 1) (BitVec.ofNat 64 (cmdField r.c 0x10 8))
    (waitMet (cmdField r.c 0x0C 1 == 1) (BitVec.ofNat 64 (cmdField r.c 0x10 8)) (r.s.sem (cmdField r.c 8 4)).value)

theorem waitBody_run (r : Run) : (ExceptT.run waitBody).run r = (ExceptT.run (do semM (cmdField r.c 8 4); throw (.hold (waitHold r)) : M Unit)).run r := by
  unfold waitBody waitHold
  exact run_bind_of (a := r) (r1 := r) rfl

/-- WAIT holds the head of its queue (R368). -/
theorem waitBody_holds {r : Run} (hc : semCheck r.s r.f (cmdField r.c 8 4) = stOk) : (ExceptT.run waitBody).run r = (.error (.hold (waitHold r)), r) :=
  (waitBody_run r).trans ((run_bind_of (reads_semM hc)).trans (run_throw _ _))

/-- A command on a semaphore that its check lets pass changes what that command changes. -/
theorem semOp_ok {g : State → Nat → Nat → Nat × State} {r : Run} {u : State} (h : g r.s r.f (cmdField r.c 8 4) = (stOk, u)) :
    (ExceptT.run (semOp g)).run r = (.ok (), { r with s := u }) := by
  unfold semOp
  refine (run_bind_of (a := r) rfl).trans ?_
  dsimp only
  rw [h]
  rfl

theorem semCreateAs_ok {s : State} {f n : Nat} {v : BitVec 64} (hn : n < 65536) (ha : s.assignedTo 2 n f = true) (hl : (s.sem n).st ≠ .live) :
    semCreateAs s f n v = (stOk, s.setSem n ⟨v, .live, BitVec.ofNat 7 f⟩) := by
  unfold semCreateAs
  rw [if_neg (by simp [ha, hn]), if_neg hl]

/-- SEM_DESTROY of an orphaned semaphore, or by its owner, frees it and moves no other (R372). -/
theorem semDestroyAs_ok {s : State} {f : BitVec 7} {n : Nat} (hn : n < 65536) (ha : s.assignedTo 2 n f.toNat = true)
    (ho : (s.sem n).st = .orphaned ∨ (s.sem n).st = .live ∧ (s.sem n).owner = f) :
    ∃ u, semDestroyAs s (some f.toNat) n = (stOk, u) ∧ u.mem = s.mem ∧ u.sems = (s.setSem n {}).sems := by
  unfold semDestroyAs
  dsimp only
  rw [if_neg (by simp [ha, hn])]
  rcases ho with h | ⟨h, ho⟩ <;> rw [h]
  · exact ⟨_, rfl, rfl, rfl⟩
  · refine ⟨_, if_neg (by simp [ho]), rfl, rfl⟩

/-- A wait that starts holds its queue, and changes neither memory nor semaphores (R368). -/
theorem wait_starts {q : QNum} {c : Cmd} {s s1 : State} (hs : Starts s q c waitOk (fun _ => []) s1)
    (hc : semCheck s1 (s.queue q).func.toNat (cmdField c 8 4) = stOk) :
    exec (.wait q c) s = .next (traceRec (block s1 q (.wait (s.queue q).next c (BitVec.ofNat 16 (cmdField c 8 4)) (cmdField c 0x0C 1 == 1) (BitVec.ofNat 64 (cmdField c 0x10 8))
      (waitMet (cmdField c 0x0C 1 == 1) (BitVec.ofNat 64 (cmdField c 0x10 8)) (s1.sem (cmdField c 8 4)).value))) q (opByte c) false 0 (cmdField c 2 2)) := by
  refine (startCmd_body waitBody hs).trans ?_
  rw [waitBody_holds (r := headRun s1 q (s.queue q) c) hc]
  rfl

/-- Whether a wait is met, as its command gives it (R366). -/
theorem waitMet_cmd (c : Cmd) (v : BitVec 64) : waitMet (cmdField c 0x0C 1 == 1) (BitVec.ofNat 64 (cmdField c 0x10 8)) v =
    if cmdField c 0x0C 1 = 1 then v == BitVec.ofNat 64 (cmdField c 0x10 8) else decide (cmdField c 0x10 8 ≤ v.toNat) := by
  have hlt : cmdField c 0x10 8 < 2 ^ 64 := bits_lt ..
  unfold waitMet
  by_cases h : cmdField c 0x0C 1 = 1
  · simp [h]
  · have e : (BitVec.ofNat 64 (cmdField c 0x10 8)).toNat = cmdField c 0x10 8 := Nat.mod_eq_of_lt hlt
    rw [if_neg h, e, if_neg (by simpa using h)]

theorem queue_traceRec (s : State) (q p : QNum) (op : BitVec 8) (b : Bool) (st sq : Nat) : (traceRec s q op b st sq).queue p = s.queue p :=
  queue_congr (traceRec_queues ..) p

/-- Settles O50: the four commands on semaphores, by what each one's body leaves. -/
theorem waitAndSemaphoreCommands : Obligations.WaitAndSemaphoreCommands := by
  unfold Obligations.WaitAndSemaphoreCommands
  refine ⟨fun q c s s1 hs hc => ⟨_, wait_starts hs hc, ?_, ?_, ?_, ?_, fun q' hq => ?_⟩, fun q c s s1 n hs hb hq hn hc => ?_, fun q c s s1 u r old hs hb hq ha hu he => ?_,
    fun q c s s1 n hs hn hlt has hl => ?_, fun q c s s1 n hs hn hlt has ho => ?_⟩
  · rw [queue_traceRec, block, queue_setQueue_same, waitMet_cmd]
  · rw [queue_traceRec, block, queue_setQueue_same]
  · rw [traceRec_mem, block_mem]
  · rw [traceRec_sems, block_sems]
  · rw [queue_traceRec, block, queue_setQueue_ne _ _ hq]
  · refine ⟨_, start_ends hs (signalBody_sem hb hq hn hc), ?_, ?_, ?_, fun k hk => ?_⟩
    · rw [started_sem]; exact sem_semStore_same ..
    · rw [(started_queue _ _).1]
      refine congrArg (· + 1) ((congrArg Queue.next (queue_semStore ..)).trans ?_)
      exact notedWait_next ..
    · rw [started_mem]; exact semStore_mem ..
    · rw [started_sem]; exact sem_semStore_ne _ _ hk
  · have hw := writeM_sems he (by decide)
    refine ⟨start_ends hs (signalBody_host (r := headRun s1 q (s.queue q) c) hb hq ha hu he), hw.1, hw.2.trans ?_⟩
    split at hu
    · exact congrArg (fun x => x.2.sems) hu.2
    · exact congrArg State.sems hu.2
  · subst hn
    have hb : Ends _ s s1 q c _ := semOp_ok (g := fun s f n => semCreateAs s f n (BitVec.ofNat 64 (cmdField c 0x10 8))) (semCreateAs_ok hlt has hl)
    refine ⟨_, start_ends hs hb, ?_, ?_, ?_, fun k hk => ?_⟩
    · rw [started_sem]; exact sem_setSem_same ..
    · rw [(started_queue _ _).1]; rfl
    · rw [started_mem]; rfl
    · rw [started_sem]; exact sem_setSem_ne _ _ hk
  · subst hn
    obtain ⟨u, hu, hm, hsem⟩ := semDestroyAs_ok hlt has ho
    have hb : Ends _ s s1 q c _ := semOp_ok (g := fun s f n => semDestroyAs s (some f) n) hu
    refine ⟨_, start_ends hs hb, ?_, ?_, fun k hk => ?_⟩
    · rw [started_sem]; exact (sem_congr hsem _).trans (sem_setSem_same ..)
    · rw [started_mem]; exact hm
    · rw [started_sem]; exact (sem_congr hsem k).trans (sem_setSem_ne _ _ hk)

end Sys2Proof.Machine
end

section
/-! The end of a command: status block, semaphore, record (O19). -/

namespace Sys2Proof.Machine

/-! ### The end of a command (O19) -/

/-- A queue as it was, or halted where it was active. -/
structure Halting (x y : Queue) : Prop where
  cases : y = x ∨ x.st = .active ∧ y = { x with st := .halted }

theorem Halting.rfl {x : Queue} : Halting x x := ⟨.inl (Eq.refl _)⟩

theorem Halting.trans {x y z : Queue} (h : Halting x y) (h' : Halting y z) : Halting x z := by
  obtain rfl | ⟨hx, rfl⟩ := h.cases
  · exact h'
  · obtain rfl | ⟨hy, -⟩ := h'.cases
    · exact h
    · cases hy

theorem Halting.started {x y : Queue} (h : Halting x y) : y.started = x.started := by
  obtain rfl | ⟨-, rfl⟩ := h.cases <;> exact Eq.refl _
theorem Halting.flushing {x y : Queue} (h : Halting x y) : y.flushing = x.flushing := by
  obtain rfl | ⟨-, rfl⟩ := h.cases <;> exact Eq.refl _
theorem Halting.destroying {x y : Queue} (h : Halting x y) : y.destroying = x.destroying := by
  obtain rfl | ⟨-, rfl⟩ := h.cases <;> exact Eq.refl _
theorem Halting.halted {x y : Queue} (h : Halting x y) (hx : x.st = .halted) : y.st = .halted := by
  obtain rfl | ⟨-, rfl⟩ := h.cases
  · exact hx
  · exact Eq.refl _

theorem queue_postEvent (s : State) (f code job : Nat) (d : List Byte) (q : QNum) : (postEvent s f code job d).queue q = s.queue q :=
  queue_congr (postEvent_queues ..) q

/-- Halting an active queue halts it, and no other queue moves (R355). -/
theorem queue_haltQueue_same {s : State} {q : QNum} {st seq : Nat} (h : (s.queue q).st = .active) : ((haltQueue s q st seq).queue q).st = .halted := by
  unfold haltQueue
  dsimp only
  rw [if_pos h, queue_postEvent, queue_setQueue_same]

theorem halting_haltQueue (s : State) (p q : QNum) (st seq : Nat) : Halting (s.queue q) ((haltQueue s p st seq).queue q) := by
  unfold haltQueue
  dsimp only
  split
  · next h =>
    rw [queue_postEvent]
    by_cases hq : q = p
    · subst hq; rw [queue_setQueue_same]; exact ⟨.inr ⟨h, rfl⟩⟩
    · rw [queue_setQueue_ne _ _ hq]; exact .rfl
  · exact .rfl

theorem halting_haltAll (l : List QNum) (s : State) (q : QNum) (st seq : Nat) :
    Halting (s.queue q) ((l.foldl (fun s q => haltQueue s q st seq) s).queue q) := by
  induction l generalizing s with
  | nil => exact .rfl
  | cons p r ih => exact (halting_haltQueue s p q st seq).trans (ih _)

/-- Poison that a job consumed halts its queues, and does nothing else to a queue (R305). -/
theorem halting_stopJob (s : State) (f job a level : Nat) (q : QNum) : Halting (s.queue q) ((stopJob s f job a level).queue q) := by
  unfold stopJob
  dsimp only
  rw [queue_postEvent, queue_congr (noteFault_queues ..)]
  have hb : ∀ d, (bbWrite (bump { s with msys := { s.msys with lastUe := d } } 5 0 16 1) 0x0003 7 level d).queue q = s.queue q := fun d =>
    queue_congr ((bbWrite_queues ..).trans (bump_queues ..)) q
  split
  · next j _ =>
    refine .trans (y := (State.setJob _ job { j with stopped := true }).queue q) ?_ (halting_haltAll ..)
    exact ⟨.inl (hb _)⟩
  · exact ⟨.inl (hb _)⟩

/-- Queue x after its command w has its record (R364). -/
def recorded (s : State) (x : Queue) (w : Started) : Queue :=
  noteWritten { x with
    started := x.started.filter (·.idx != w.idx)
    lastErr := if isError w.status.toNat then w.status else x.lastErr
    since := if (x.started.filter (·.idx != w.idx)).isEmpty && x.next == x.tail then s.time.tick else x.since } w.idx

/-- The state in which the command has left its queue and dropped what it held. -/
def leftQueue (s : State) (q : QNum) (w : Started) : State :=
  dropHeld (trackDone (traceRec (s.setQueue q (recorded s (s.queue q) w)) q w.op true w.status.toNat (cmdField w.cmd 2 2)) q w) (exeOf q (s.queue q)) w

/-- The status of a command that consumed poison (R305). -/
def tookPoison (w : Started) : Bool := w.ue.isSome && w.status.toNat == stUncorrectable

/-- The state in which an error has halted the queue (R355). -/
def errorHalts (s : State) (q : QNum) (w : Started) : State :=
  if isError w.status.toNat && (tookPoison w || !(cmdField w.cmd 1 1).testBit 2) then haltQueue (leftQueue s q w) q w.status.toNat (cmdField w.cmd 2 2) else leftQueue s q w

/-- The state in which poison has stopped the job, and the record's interrupt is raised. -/
def endRaised (s : State) (q : QNum) (w : Started) : State :=
  let x := s.queue q
  let s := match w.ue with
    | some (a, l) => if tookPoison w then stopJob (errorHalts s q w) x.func.toNat x.job.toNat a l else errorHalts s q w
    | none => errorHalts s q w
  if irqFor x w then raiseMsix s x.func.toNat x.vector.toNat else s

theorem finishCmd_eq (s : State) (q : QNum) (w : Started) :
    finishCmd s q w none = settleAts (settleFlush (settleDestroy (endRaised s q w) q) q) (s.queue q).func.toNat := by
  unfold finishCmd
  simp only [Option.isNone_none, if_true, Bool.true_and]
  rfl

theorem queue_leftQueue (s : State) (q : QNum) (w : Started) : (leftQueue s q w).queue q = recorded s (s.queue q) w := by
  refine (queue_congr ((dropHeld_queues ..).trans ((trackDone_queues ..).trans (traceRec_queues ..))) q).trans ?_
  exact queue_setQueue_same ..

theorem halting_errorHalts (s : State) (q : QNum) (w : Started) : Halting (recorded s (s.queue q) w) ((errorHalts s q w).queue q) := by
  rw [← queue_leftQueue]
  unfold errorHalts
  split
  · exact halting_haltQueue ..
  · exact .rfl

theorem halting_endRaised (s : State) (q : QNum) (w : Started) : Halting ((errorHalts s q w).queue q) ((endRaised s q w).queue q) := by
  unfold endRaised
  dsimp only
  have hm : ∀ t : State, (if irqFor (s.queue q) w then raiseMsix t (s.queue q).func.toNat (s.queue q).vector.toNat else t).queue q = t.queue q := fun t => by
    split
    · exact queue_congr (raiseMsix_queues ..) q
    · rfl
  rw [hm]
  split
  · split
    · exact halting_stopJob ..
    · exact .rfl
  · exact .rfl

/-- An error without the flag that keeps the queue running halts it (R355). -/
theorem errorHalts_halted {s : State} {q : QNum} {w : Started} (he : isError w.status.toNat = true) (hb : (cmdField w.cmd 1 1).testBit 2 = false)
    (ha : (s.queue q).st = .active) : ((errorHalts s q w).queue q).st = .halted := by
  unfold errorHalts
  rw [if_pos (by simp [he, hb])]
  exact queue_haltQueue_same (by rw [queue_leftQueue]; exact ha)

/-- The queue after the rest of a completion: as it was left, or FREE where its DESTROY waited (R355). -/
theorem finishCmd_queue {s : State} {q : QNum} {w : Started} (hf : (s.queue q).flushing = false) :
    (finishCmd s q w none).queue q = (endRaised s q w).queue q ∨ (s.queue q).destroying = true ∧ (finishCmd s q w none).queue q = {} := by
  have h := (halting_errorHalts s q w).trans (halting_endRaised s q w)
  have hf' : ((endRaised s q w).queue q).flushing = false := h.flushing.trans hf
  have hd' : ((endRaised s q w).queue q).destroying = (s.queue q).destroying := h.destroying
  rw [finishCmd_eq, queue_congr (settleAts_queues ..)]
  generalize endRaised s q w = u at hf' hd'
  have hfl : ∀ v : State, (v.queue q).flushing = false → settleFlush v q = v := fun v hv => by
    unfold settleFlush
    dsimp only
    rw [if_neg (by simp [hv])]
  cases hd : (u.queue q).destroying && (u.queue q).started.isEmpty with
  | true =>
    have e : settleDestroy u q = u.setQueue q {} := if_pos hd
    rw [e, hfl _ (by rw [queue_setQueue_same])]
    rw [Bool.and_eq_true] at hd
    exact .inr ⟨hd'.symm.trans hd.1, queue_setQueue_same ..⟩
  | false =>
    have e : settleDestroy u q = u := if_neg (by simp [hd])
    rw [e, hfl _ hf']
    exact .inl rfl

/-- With OK nothing of memory changes after the record. -/
theorem finishCmd_mem {s : State} {q : QNum} {w : Started} (h : w.status = 0) : (finishCmd s q w none).mem = s.mem := by
  have he : errorHalts s q w = leftQueue s q w := if_neg (by simp [h, isError])
  have hp : tookPoison w = false := by simp [tookPoison, h, stUncorrectable]
  have hr : (endRaised s q w).mem = s.mem := by
    have hl : (leftQueue s q w).mem = s.mem := by
      unfold leftQueue
      rw [dropHeld_mem, trackDone_mem, traceRec_mem]
      rfl
    unfold endRaised
    dsimp only
    rw [he, hp]
    have hm : ∀ t : State, (if irqFor (s.queue q) w then raiseMsix t (s.queue q).func.toNat (s.queue q).vector.toNat else t).mem = t.mem := fun t => by
      split
      · exact raiseMsix_mem ..
      · rfl
    rw [hm]
    split
    · exact hl
    · exact hl
  rw [finishCmd_eq, settleAts_mem, settleFlush_mem, settleDestroy_mem, hr]

/-! #### The record's write -/

/-- Bytes of near memory are always written. -/
theorem putEach_near (s : State) (f job : Nat) (l : List (Nat × Byte)) : ∃ t, putEach s f job 0 l = .ok t := by
  induction l generalizing s with
  | nil => exact ⟨s, rfl⟩
  | cons e r ih => exact ih _

/-- A status block of near memory is written, or there is none (R344). -/
theorem completeStat_near {s : State} {f job : Nat} {w : Started} (h : ∀ x ∈ w.stat, x.1 = 0) :
    completeStat s f job w = ((completeStat s f job w).1, w, none) ∧ (w.stat = none → (completeStat s f job w).1 = s) := by
  unfold completeStat
  cases hs : w.stat with
  | none => exact ⟨rfl, fun _ => rfl⟩
  | some x =>
    obtain ⟨tier, addrs, bs⟩ := x
    obtain rfl : tier = 0 := h _ hs
    obtain ⟨t, ht⟩ := putEach_near s f job (addrs.zip (leBytes 2 w.status.toNat ++ bs.drop 2))
    dsimp only
    rw [ht]
    exact ⟨rfl, by simp⟩

/-- The semaphore of a completion leaves the record's place and command. -/
theorem completeSem_record (s : State) (f : Nat) (w : Started) : (completeSem s f w).2.idx = w.idx := by
  unfold completeSem
  dsimp only
  (repeat' split) <;> rfl

/-- Of a queue, a completion's semaphore moves at most what a held wait has noted. -/
theorem queue_completeSem (s : State) (f : Nat) (w : Started) (q : QNum) :
    (completeSem s f w).1.queue q = s.queue q ∨ ∃ n v, (completeSem s f w).1.queue q = notedWait n v (s.queue q) := by
  unfold completeSem
  split
  · exact .inl rfl
  · next n v _ =>
    split
    · exact .inl rfl
    · dsimp only
      split
      · exact .inr ⟨_, _, queue_semStore ..⟩
      · exact .inl rfl

/-- Two queues alike but for their hold. -/
structure HoldOnly (x y : Queue) : Prop where
  eq : ∃ h, y = { x with hold := h }

theorem holdOnly_notedWait (n : Nat) (v : BitVec 64) (x : Queue) : HoldOnly x (notedWait n v x) := by
  unfold notedWait
  split <;> exact ⟨_, rfl⟩

theorem holdOnly_completeSem (s : State) (f : Nat) (w : Started) (q : QNum) : HoldOnly (s.queue q) ((completeSem s f w).1.queue q) := by
  obtain h | ⟨n, v, h⟩ := queue_completeSem s f w q
  · rw [h]; exact ⟨_, rfl⟩
  · rw [h]; exact holdOnly_notedWait n v _

/-- The write of a record within one page, where it leads to memory in service or to a host, is done: at a device address, memory takes the bytes; at a host's, none changes (R278, R283). -/
theorem vWrite_record {s : State} {f job va : Nat} {bs : List Byte} (h0 : bs ≠ []) (h : va % 65536 + bs.length ≤ 65536)
    (hx : (∃ a leaf, xlate s f job va true = .dev a leaf ∧ devicesOk s a bs.length = true) ∨ ∃ p a, xlate s f job va true = .host p a) :
    ∃ t, vWrite s f job va bs = .ok t ∧ (∀ p a, xlate s f job va true = .host p a → t.mem = s.mem) ∧
      ∀ a leaf, xlate s f job va true = .dev a leaf → t.mem = memPut a bs s.mem := by
  rw [vWrite_page h0 h]
  unfold writePiece
  rcases hx with ⟨a, leaf, hx, hd⟩ | ⟨p, a, hx⟩
  · rw [hx]
    dsimp only
    rw [if_neg (by simp [hd])]
    refine ⟨_, rfl, fun p b e => (by cases e), fun b l e => ?_⟩
    cases e
    rw [touchPage_mem]
    exact congrArg (memPut a bs) (cacheXl_mem ..)
  · rw [hx]
    refine ⟨_, rfl, fun p b e => ?_, fun b l e => (by cases e)⟩
    rw [hostWrite_mem, cacheXl_mem]

theorem length_recordBytes (w : Started) : (recordBytes w).length = 16 := by simp [recordBytes, length_leBytes]

/-- Arming the markers of a queue leaves its state and what it has started. -/
theorem queue_armMarker (s : State) (q : QNum) (i : BitVec 16) (c : Cmd) :
    ((armMarker s q i c).queue q).st = (s.queue q).st ∧ ((armMarker s q i c).queue q).started = (s.queue q).started := by
  unfold armMarker
  dsimp only
  split
  · rw [queue_setQueue_same]; exact ⟨rfl, rfl⟩
  · exact ⟨rfl, rfl⟩

theorem queue_armList (l : List (BitVec 16 × Cmd)) (s : State) (q : QNum) :
    ((armList s q l).queue q).st = (s.queue q).st ∧ ((armList s q l).queue q).started = (s.queue q).started := by
  induction l generalizing s with
  | nil => rw [armList, queue_setQueue_same]; exact ⟨rfl, rfl⟩
  | cons e r ih =>
    obtain ⟨i, c⟩ := e
    unfold armList
    split
    · rw [queue_setQueue_same]; exact ⟨rfl, rfl⟩
    · obtain ⟨h1, h2⟩ := queue_armMarker s q i c
      exact ⟨(ih _).1.trans h1, (ih _).2.trans h2⟩

theorem completeOne_eq {s s1 s2 : State} {q : QNum} {w w1 : Started} (hstat : ∀ x ∈ w.stat, x.1 = 0)
    (hsem : completeSem (completeStat s (s.queue q).func.toNat (s.queue q).job.toNat w).1 (s.queue q).func.toNat w = (s1, w1))
    (hv : vWrite s1 (s.queue q).func.toNat (s.queue q).job.toNat ((s.queue q).comp.toNat + 16 * (w1.idx.toNat % (s.queue q).n)) (recordBytes w1) = .ok s2) :
    completeOne s q w = finishCmd s2 q w1 none := by
  unfold completeOne
  dsimp only
  rw [(completeStat_near hstat).1]
  dsimp only
  rw [hsem]
  dsimp only
  rw [hv]

/-- What COMMAND_COMPLETE does after the completion itself: the markers that waited for the command are armed (R40). -/
theorem commandComplete_eq {s : State} {q : QNum} {idx : BitVec 16} {w : Started} (hc : (s.ctx q).cur = none)
    (hst : (s.queue q).st = .active ∨ (s.queue q).st = .halted) (hw : findDone (s.queue q) idx = some w) (hgone : ∀ u ∈ ((completeOne s q w).queue q).started, u.idx ≠ idx) :
    exec (.commandComplete q idx) s = .next (armReady ((completeOne s q w).setQueue q
      { (completeOne s q w).queue q with unarmed := ((completeOne s q w).queue q).unarmed.filter (·.1 != idx) }) q) := by
  change execCommandComplete q idx s = _
  rw [execCommandComplete]
  have h : (s.ctx q).cur.isSome = false := by rw [hc]; rfl
  simp only [h, Bool.false_eq_true, if_false]
  rw [if_pos hst, hw]
  dsimp only
  rw [if_neg]
  simpa using hgone

theorem halting_finish {s : State} {q : QNum} {w : Started} : Halting (recorded s (s.queue q) w) ((endRaised s q w).queue q) :=
  (halting_errorHalts s q w).trans (halting_endRaised s q w)

/-- A completion takes its command from the queue (R364). -/
theorem finishCmd_gone {s : State} {q : QNum} {w : Started} (hf : (s.queue q).flushing = false) :
    ∀ u ∈ ((finishCmd s q w none).queue q).started, u.idx ≠ w.idx := by
  obtain h | ⟨-, h⟩ := finishCmd_queue (w := w) hf <;> rw [h]
  · rw [halting_finish.started]
    intro u hu
    simpa using (List.mem_filter.mp hu).2
  · simp

/-- An error without the flag that keeps the queue running leaves it halted (R355). -/
theorem finishCmd_halts {s : State} {q : QNum} {w : Started} (hf : (s.queue q).flushing = false) (he : isError w.status.toNat = true)
    (hb : (cmdField w.cmd 1 1).testBit 2 = false) (ha : (s.queue q).st = .active) (hd : (s.queue q).destroying = false) :
    ((finishCmd s q w none).queue q).st = .halted := by
  obtain h | ⟨h, -⟩ := finishCmd_queue (w := w) hf
  · rw [h]
    exact (halting_endRaised s q w).halted (errorHalts_halted he hb ha)
  · rw [hd] at h; cases h

theorem completeSem_cases {s : State} {f : Nat} {w : Started} {n : BitVec 32} {v : BitVec 64} (hw : w.sem = some (n, v)) :
    completeSem s f w = if w.status != 0 then (s, w) else if semCheck s f n.toNat = stOk then (semAdd s n.toNat v, w)
      else (s, { w with status := BitVec.ofNat 16 (semCheck s f n.toNat), dkind := 6, detail := BitVec.ofNat 56 n.toNat }) := by
  unfold completeSem
  rw [hw]

/-- The semaphore of a completion (R344, R366). -/
theorem completeSem_spec (s : State) (f : Nat) (w : Started) (n : BitVec 32) (v : BitVec 64) (hw : w.sem = some (n, v)) :
    (w.status = 0 → semCheck s f n.toNat = stOk →
      ((completeSem s f w).1.sem n.toNat).value = (s.sem n.toNat).value + v ∧ (completeSem s f w).2 = w) ∧
    (w.status = 0 → semCheck s f n.toNat ≠ stOk →
      (completeSem s f w).1 = s ∧ (completeSem s f w).2.status = BitVec.ofNat 16 (semCheck s f n.toNat)) ∧
    (w.status ≠ 0 → completeSem s f w = (s, w)) := by
  rw [completeSem_cases hw]
  refine ⟨fun h0 hc => ?_, fun h0 hc => ?_, fun h0 => ?_⟩
  · rw [if_neg (by simp [h0]), if_pos hc]
    exact ⟨congrArg Sem.value (sem_semStore_same ..), rfl⟩
  · rw [if_neg (by simp [h0]), if_neg hc]
    exact ⟨rfl, rfl⟩
  · rw [if_pos (by simpa using h0)]

/-- Settles O19: the completion of a command whose record can be written. -/
theorem completionWritesTheRecord : Obligations.CompletionWritesTheRecord := by
  unfold Obligations.CompletionWritesTheRecord
  refine ⟨fun q idx s s0 s1 w w1 f va hcur hst hfl hw hstat hf hs0 hsem hva hpage hx => ?_, completeSem_spec⟩
  subst hf hs0
  have hidx : w.idx = idx := by
    have := List.find?_some hw
    simp only [Bool.and_eq_true, beq_iff_eq] at this
    exact this.1
  have hs1 : s1 = (completeSem (completeStat s (s.queue q).func.toNat (s.queue q).job.toNat w).1 (s.queue q).func.toNat w).1 := by rw [hsem]
  have hidx1 : w1.idx = idx := by
    have := completeSem_record (completeStat s (s.queue q).func.toNat (s.queue q).job.toNat w).1 (s.queue q).func.toNat w
    rw [hsem] at this
    exact this.trans hidx
  have hq1 : HoldOnly (s.queue q) (s1.queue q) := by
    have e : (completeStat s (s.queue q).func.toNat (s.queue q).job.toNat w).1.queue q = s.queue q := queue_congr (completeStat_queues ..) q
    have h := holdOnly_completeSem (completeStat s (s.queue q).func.toNat (s.queue q).job.toNat w).1 (s.queue q).func.toNat w q
    rw [e] at h
    rw [hs1]
    exact h
  have hlen := length_recordBytes w1
  obtain ⟨s2, hv, hhost, hdev⟩ := vWrite_record (s := s1) (bs := recordBytes w1) (va := va) (List.ne_nil_of_length_pos (by omega)) (by omega) (by rw [hlen]; exact hx)
  obtain ⟨hold, hq1⟩ := hq1.eq
  have hq2 : s2.queue q = { s.queue q with hold := hold } := (queue_congr (vWrite_ok_queues hv) q).trans hq1
  have hone : completeOne s q w = finishCmd s2 q w1 none := completeOne_eq hstat hsem (by rw [hidx1, ← hva]; exact hv)
  have hfl2 : (s2.queue q).flushing = false := by rw [hq2]; exact hfl
  have hgone := finishCmd_gone (w := w1) hfl2
  rw [hidx1] at hgone
  have hm1 : s1.mem = (completeStat s (s.queue q).func.toNat (s.queue q).job.toNat w).1.mem := by rw [hs1, completeSem_mem]
  refine ⟨_, commandComplete_eq hcur hst hw (by rw [hone]; exact hgone), ?_, ?_, ?_, ?_, ?_, ?_⟩
  · rw [armReady, (queue_armList ..).2, queue_setQueue_same, hone]
    exact hgone
  · intro he hb ha hd
    rw [armReady, (queue_armList ..).1, queue_setQueue_same, hone]
    exact finishCmd_halts hfl2 he hb (by rw [hq2]; exact ha) (by rw [hq2]; exact hd)
  · intro h0
    have hsems : (completeOne s q w).sems = s2.sems := by rw [hone, finishCmd_sems]
    have hmem : (completeOne s q w).mem = s2.mem := by rw [hone, finishCmd_mem h0]
    rw [armReady_sems, armReady_mem]
    refine ⟨hsems.trans ?_, fun p a h => hmem.trans ?_, fun a l h => hmem.trans ?_⟩
    · exact vWrite_ok_sems hv
    · exact (hhost p a h).trans hm1
    · exact (hdev a l h).trans (congrArg (memPut a _) hm1)
  · exact (completeStat_near hstat).2
  · rw [armReady_pending]; exact completeOne_pending ..
  · rw [armReady_time]; exact completeOne_time ..

end Sys2Proof.Machine
end

section
/-! Satisfied waits and replayed prefetches (O17). -/

namespace Sys2Proof.Machine

/-! ### Satisfied waits and replayed prefetches (O17) -/

/-- The end of the wait that holds a queue: its command is among those started, over, and the queue goes on behind it (R295, R368). -/
theorem endWait_spec {s : State} {q : QNum} {i : BitVec 16} {c : Cmd} {n : SemNum} {eq b : Bool} {g : BitVec 64} (h : (s.queue q).hold = .wait i c n eq g b)
    (status dkind reason detail : Nat) :
    ∃ w, ((endWait s q status dkind reason detail).queue q).next = (s.queue q).next + 1 ∧ ((endWait s q status dkind reason detail).queue q).hold = .none ∧
      ((endWait s q status dkind reason detail).queue q).started = (s.queue q).started ++ [w] ∧ w.idx = i ∧ w.cmd = c ∧ w.done = true ∧
      w.status = BitVec.ofNat 16 status ∧ w.detail = BitVec.ofNat 56 detail := by
  have e : endWait s q status dkind reason detail = s.setQueue q (atHead s q (endBlocked (s.queue q) i c status dkind detail reason)) := by
    unfold endWait
    dsimp only
    rw [h]
  rw [e, queue_setQueue_same]
  exact ⟨_, rfl, rfl, rfl, rfl, rfl, rfl, rfl, rfl⟩

theorem endWait_others (s : State) (q : QNum) (status dkind reason detail : Nat) :
    (endWait s q status dkind reason detail).mem = s.mem ∧ (endWait s q status dkind reason detail).sems = s.sems ∧
      (endWait s q status dkind reason detail).msys = s.msys ∧ ∀ p, p ≠ q → (endWait s q status dkind reason detail).queue p = s.queue p := by
  unfold endWait
  dsimp only
  split
  · exact ⟨rfl, rfl, rfl, fun p hp => queue_setQueue_ne _ _ hp⟩
  · exact ⟨rfl, rfl, rfl, fun _ _ => rfl⟩

/-- Tracker entries change, and nothing else. -/
structure TracksOnly (s t : State) : Prop where
  queues : t.queues = s.queues
  mem : t.mem = s.mem
  sems : t.sems = s.sems

theorem tracksOnly_putAll (l : List Track) (s : State) : TracksOnly s (l.foldl (fun s t => putTrack s t none) s) := by
  induction l generalizing s with
  | nil => exact ⟨rfl, rfl, rfl⟩
  | cons t r ih =>
    obtain ⟨hq, hm, hs⟩ := ih (putTrack s t none)
    exact ⟨hq, hm, hs⟩

/-- The entries of the trackers. -/
def tracksOf (s : State) : List Track := s.msys.trackers.flatMap (·.2)

theorem tracksOf_putTrack (s : State) (t : Track) : tracksOf (putTrack s t none) = (tracksOf s).filter fun u => !u.same t := by
  unfold tracksOf putTrack
  dsimp only
  generalize s.msys.trackers = l
  induction l with
  | nil => rfl
  | cons e r ih =>
    rw [List.map_cons, List.flatMap_cons, List.flatMap_cons, List.filter_append, ih]
    congr 1
    rw [← List.filterMap_eq_filter]
    refine List.filterMap_congr fun u _ => ?_
    cases h : u.same t <;> simp [Option.guard, h]

theorem mem_tracksOf_putAll {l : List Track} {s : State} {u : Track} (h : u ∈ tracksOf (l.foldl (fun s t => putTrack s t none) s)) :
    u ∈ tracksOf s ∧ ∀ t ∈ l, u.same t = false := by
  induction l generalizing s with
  | nil => exact ⟨h, by simp⟩
  | cons t r ih =>
    obtain ⟨hm, hr⟩ := ih h
    rw [tracksOf_putTrack, List.mem_filter] at hm
    refine ⟨hm.1, fun v hv => ?_⟩
    obtain rfl | hv := List.mem_cons.mp hv
    · simpa using hm.2
    · exact hr v hv

theorem Track.same_self (t : Track) : t.same t = true := by simp [Track.same]

/-- A wait that ends well frees the entries that it checked (R295). -/
theorem checkedTracks_freed (s : State) (n : SemNum) (eq : Bool) (g : BitVec 64) :
    checkedTracks ((checkedTracks s n eq g).foldl (fun s t => putTrack s t none) s) n eq g = [] := by
  refine List.filter_eq_nil_iff.mpr fun u hu hc => ?_
  obtain ⟨hm, hne⟩ := mem_tracksOf_putAll hu
  have := hne u (List.mem_filter.mpr ⟨hm, hc⟩)
  rw [u.same_self] at this
  cases this

/-- A wait that is satisfied and whose prefetches are valid is over (R295, R368). -/
theorem settleWait_valid {s : State} {q : QNum} {i : BitVec 16} {c : Cmd} {n : SemNum} {eq : Bool} {g : BitVec 64} (h : (s.queue q).hold = .wait i c n eq g true)
    (hv : ∀ k ∈ checkedTracks s n eq g, k.run = none ∧ k.valid s = true) :
    settleWait s q = endWait ((checkedTracks s n eq g).foldl (fun s t => putTrack s t none) s) q stOk 0 0 0 := by
  unfold settleWait
  rw [h]
  dsimp only
  rw [if_pos]
  refine List.all_eq_true.mpr fun k hk => ?_
  obtain ⟨h1, h2⟩ := hv k hk
  simp [h1, h2]

theorem waitSatisfied_spec (q : QNum) (s : State) (i : BitVec 16) (c : Cmd) (n : SemNum) (eq : Bool) (g : BitVec 64)
    (hst : (s.queue q).st = .active ∨ (s.queue q).st = .halted) (h : (s.queue q).hold = .wait i c n eq g true)
    (hv : ∀ k ∈ checkedTracks s n eq g, k.run = none ∧ k.valid s = true) :
    ∃ t w, exec (.waitSatisfied q) s = .next t ∧ (t.queue q).next = (s.queue q).next + 1 ∧ (t.queue q).hold = .none ∧
      (t.queue q).started = (s.queue q).started ++ [w] ∧ w.idx = i ∧ w.cmd = c ∧ w.done = true ∧ w.status = 0 ∧
      checkedTracks t n eq g = [] ∧ t.mem = s.mem ∧ t.sems = s.sems ∧ ∀ q', q' ≠ q → t.queue q' = s.queue q' := by
  have hexec : exec (.waitSatisfied q) s = .next (settleWait s q) := by
    change execWaitSatisfied q s = _
    rw [execWaitSatisfied]
    exact congrArg Host.Outcome.next (if_pos hst)
  rw [settleWait_valid h hv] at hexec
  have hfreed := checkedTracks_freed s n eq g
  obtain ⟨hq, hm, hs⟩ := tracksOnly_putAll (checkedTracks s n eq g) s
  generalize (checkedTracks s n eq g).foldl (fun s t => putTrack s t none) s = u at hexec hfreed hq hm hs
  have hqq : ∀ p, u.queue p = s.queue p := queue_congr hq
  obtain ⟨w, h1, h2, h3, h4, h5, h6, h7, _⟩ := endWait_spec (s := u) (by rw [hqq, h]) stOk 0 0 0
  obtain ⟨e1, e2, e3, e4⟩ := endWait_others u q stOk 0 0 0
  rw [hqq] at h1 h3
  refine ⟨_, w, hexec, h1, h2, h3, h4, h5, h6, h7, ?_, e1.trans hm, e2.trans hs, fun p hp => (e4 p hp).trans (hqq p)⟩
  unfold checkedTracks at hfreed ⊢
  rw [e3]
  exact hfreed

/-- A replay that ends: its status, and whether its entry is valid, tell what becomes of the wait (R295, R296). -/
theorem replayDone_eq {q : QNum} {s s2 : State} {t : Track} {w : Started} (hr : replayOf s q = some (t, w)) (hstat : ∀ x ∈ w.stat, x.1 = 0) (hue : w.ue = none)
    (hs2 : s2 = w.writes.foldl (fun s i => genEnd s i.toNat) (completeStat s (s.queue t.queue).func.toNat t.job.toNat w).1) :
    exec (.prefetchReplayDone q) s =
      (if isError w.status.toNat then
        .next (endWait (putTrack s2 t (some { t with run := none })) q w.status.toNat w.dkind.toNat w.reason.toNat w.detail.toNat)
      else if t.valid s2 then .next (settleWait (putTrack s2 t (some { t with run := none, replays := 0 })) q)
      else if t.replays ≥ s2.reg 0x4030 3 then .next (endWait (putTrack s2 t none) q stRefetch 0 0 0)
      else .next (startRefetch (putTrack s2 t (some { t with run := none })) q { t with run := none })) := by
  subst hs2
  change execPrefetchReplayDone q s = _
  rw [execPrefetchReplayDone, hr]
  dsimp only
  rw [(completeStat_near hstat).1]
  dsimp only
  rw [hue]

/-- Settles O17: satisfied waits, and the four ends of a replay. -/
theorem waitsComplete : Obligations.WaitsComplete := by
  unfold Obligations.WaitsComplete
  refine ⟨waitSatisfied_spec, fun q s s1 s2 t w i c n eq b g hr hstat hue hold hs1 hs2 => ?_⟩
  subst hs1
  have e := replayDone_eq hr hstat hue hs2
  have hq2 : ∀ p, s2.queue p = s.queue p := by
    subst hs2
    exact queue_congr ((foldl_queues _ (fun s (i : BitVec 32) => genEnd_queues s i.toNat) _ _).trans (completeStat_queues ..))
  have hput : ∀ v p, (putTrack s2 t v).queue p = s.queue p := fun v p => (queue_congr rfl p).trans (hq2 p)
  refine ⟨fun he => ?_, fun he hv => ?_, fun he hv hn => ?_, fun he hv hn => ?_⟩
  · rw [if_pos he] at e
    obtain ⟨x, h1, h2, h3, h4, _, _, h7, h8⟩ := endWait_spec (s := putTrack s2 t (some { t with run := none })) (by rw [hput, hold]) w.status.toNat w.dkind.toNat w.reason.toNat w.detail.toNat
    rw [hput] at h1 h3
    exact ⟨_, x, e, h2, h3, h4, h7.trans (BitVec.ofNat_toNat ..), h8.trans (BitVec.ofNat_toNat ..), h1⟩
  · rwa [if_neg (by simp [he]), if_pos hv] at e
  · rw [if_neg (by simp [he]), if_neg (by simp [hv]), if_pos hn] at e
    obtain ⟨x, h1, h2, h3, h4, _, _, h7, _⟩ := endWait_spec (s := putTrack s2 t none) (by rw [hput, hold]) stRefetch 0 0 0
    rw [hput] at h1 h3
    exact ⟨_, x, e, h2, h3, h4, by rw [h7]; rfl, h1⟩
  · rwa [if_neg (by simp [he]), if_neg (by simp [hv]), if_neg (by omega)] at e

end Sys2Proof.Machine
end

section
/-! Verdict rounds, RESHARD and reduction jobs (O16). -/

namespace Sys2Proof.Machine

/-! ### The verdict round, RESHARD and reduction jobs (O16) -/

theorem ctx_congr {s t : State} (h : t.ctxs = s.ctxs) (q : QNum) : t.ctx q = s.ctx q := by rw [State.ctx, h]; rfl

/-- Held grants that apply leave the rest of a context (R440). -/
theorem takeGrants_epoch (x : Ctx) (window : Nat) (p : Port) (tag : BitVec 16) (e : BitVec 6) : (takeGrants x window p tag e).epoch = e := by
  unfold takeGrants
  have h : ∀ (l : List Grant) (y : Ctx), (l.foldl (fun y g => if y.takes window p tag g then y.credit window g else y.hold g) y).epoch = y.epoch := by
    intro l
    induction l with
    | nil => exact fun _ => rfl
    | cons g r ih =>
      intro y
      refine (ih _).trans ?_
      dsimp only
      split <;> rfl
  exact h _ _

/-- Sending what the credits cover leaves a round where it stands. -/
theorem flushRound_ctx (s : State) (q : QNum) (port : Port) (n : Nat) :
    ((flushRound s q port n).ctx q).round = (s.ctx q).round ∧ ((flushRound s q port n).ctx q).epoch = (s.ctx q).epoch := by
  induction n generalizing s with
  | zero => exact ⟨rfl, rfl⟩
  | succ n ih =>
    unfold flushRound
    dsimp only
    split
    · exact ⟨rfl, rfl⟩
    · split
      · exact ⟨rfl, rfl⟩
      · obtain ⟨h1, h2⟩ := ih (sendBacklog _ _ _ _)
        rw [h1, h2, ctx_congr (sendBacklog_ctxs ..), ctx_setCtx_same]
        exact ⟨rfl, rfl⟩

theorem nextAxis_some {s : State} {q : QNum} {jid a : Nat} {v : Verdict} (hv : (s.job jid).verdict = some v) (ha : firstAxis v.axes = some a) :
    nextAxis s q jid = startAxis s q jid a v.word := by
  unfold nextAxis
  dsimp only
  rw [hv]
  dsimp only
  rw [ha]

/-- The context of a round that begins on an axis. -/
def roundCtx (s : State) (q : QNum) (jid a : Nat) (word : List Byte) : Ctx :=
  { takeGrants (s.ctx q) (s.reg 0x3800 2) (axisPort a true) roundTag (s.job jid).epoch with
    round := some (BitVec.ofNat 32 jid, BitVec.ofNat 2 a, 0)
    outq := if (s.job jid).q.getD a 0 = 0 then [roundMsg (s.job jid) q (s.job jid).epoch.toNat 0 0 word] else [] }

/-- A round begins on an axis whose two ports are in service (R451). -/
theorem startAxis_up {s : State} {q : QNum} {jid a : Nat} {word : List Byte} (h1 : (s.port (axisPort a true)).up = true) (h2 : (s.port (axisPort a false)).up = true) :
    startAxis s q jid a word = flushRound (sendBacklog (s.setCtx q (roundCtx s q jid a word)) (axisPort a false)
      (creditMsg (s.job jid) q false (s.job jid).epoch.toNat roundTag.toNat (s.reg 0x3800 2)) none) q (axisPort a true) 2 := by
  unfold startAxis
  dsimp only
  exact if_neg (by
    have e1 : ((s.setCtx q (roundCtx s q jid a word)).port (axisPort a true)).up = true := h1
    have e2 : ((s.setCtx q (roundCtx s q jid a word)).port (axisPort a false)).up = true := h2
    rw [Bool.or_eq_true, Bool.not_eq_true', Bool.not_eq_true']
    intro h
    rcases h with h | h
    · exact Bool.noConfusion (h.symm.trans e1)
    · exact Bool.noConfusion (h.symm.trans e2))

/-- A round that was asked for begins on the lowest axis (R222, R451). -/
theorem verdictRoundStart_spec (q : QNum) (s : State) (j : Job) (v : Verdict) (a : Nat) (hj : s.job? (s.queue q).job.toNat = some j) (hv : j.verdict = some v)
    (hq : v.chain = q) (hc : (s.ctx q).cur = none) (hr : (s.ctx q).round = none) (hres : j.reshard = none) (hd : (s.queue q).started.all (·.done) = true)
    (ha : firstAxis v.axes = some a) (h1 : (s.port (axisPort a true)).up = true) (h2 : (s.port (axisPort a false)).up = true) :
    ∃ t, exec (.verdictRoundStart q) s = .next t ∧ (t.ctx q).round = some (BitVec.ofNat 32 (s.queue q).job.toNat, BitVec.ofNat 2 a, 0) ∧
      (t.ctx q).epoch = j.epoch ∧ t.jobs = s.jobs ∧ t.mem = s.mem ∧ t.queues = s.queues := by
  have hjob := job_of_job? hj
  have hexec : exec (.verdictRoundStart q) s = .next (startAxis s q (s.queue q).job.toNat a v.word) := by
    change execVerdictRoundStart q s = _
    rw [execVerdictRoundStart]
    dsimp only
    rw [hj]
    dsimp only
    rw [hv]
    dsimp only
    rw [if_pos ⟨hq, by rw [hc]; rfl, by rw [hr]; rfl, by rw [hres]; rfl, hd⟩, nextAxis_some (by rw [hjob]; exact hv) ha]
  rw [startAxis_up h1 h2] at hexec
  refine ⟨_, hexec, ?_, ?_, ?_, ?_, ?_⟩
  · rw [(flushRound_ctx ..).1, ctx_congr (sendBacklog_ctxs ..), ctx_setCtx_same]
    rfl
  · rw [(flushRound_ctx ..).2, ctx_congr (sendBacklog_ctxs ..), ctx_setCtx_same]
    exact (takeGrants_epoch ..).trans (by rw [hjob])
  · rw [flushRound_jobs, sendBacklog_jobs]; rfl
  · rw [flushRound_mem, sendBacklog_mem]; rfl
  · rw [flushRound_queues, sendBacklog_queues]; rfl

/-- A word of the round is taken by its context (R451). -/
theorem verdictMessage_taken {p : Port} {m : Msg} {s : State} {q : QNum} {k n : Nat} {jid : BitVec 32} {a : BitVec 2} (hin : (s.port p).inbox.contains m = true)
    (hk : msgKind m = 2) (hcr : msgCredit m = false) (hor : msgOr m = true) (hctx : msgCtx s m = some (q, k)) (hr : (s.ctx q).round = some (jid, a, n))
    (he : (s.ctx q).epoch = msgEpoch m) (ht : msgTag m = roundTag) (hl : m.data.length = 9) (hn : n < roundIn ((s.job jid.toNat).q.getD a.toNat 0)) :
    exec (.verdictMessageReceived p m) s = .next (takeWord (takeMsg s p m) q (s.ctx q) jid a n m) := by
  change execVerdictMessageReceived p m s = _
  rw [execVerdictMessageReceived, if_neg (by simp only [arrived, hin, hk, hcr, hor]; decide)]
  dsimp only
  rw [hctx]
  dsimp only
  rw [hr]
  exact if_pos ⟨he, ht, hl, hn⟩

/-- The state in which a module off coordinate 0 has taken the first word of the round, ORed into its own (R451). -/
def firstWordTaken (s : State) (q : QNum) (x : Ctx) (jid : BitVec 32) (a : BitVec 2) (m : Msg) (j : Job) (v : Verdict) : State :=
  let word := orWords ((msgData m).take 513) v.word
  flushRound (sendBacklog ((s.setJob jid.toNat { j with verdict := some { v with word := word } }).setCtx q
    { x with round := some (jid, a, 1), outq := x.outq ++ [roundMsg j q x.epoch.toNat (j.q.getD a.toNat 0) 0 word] })
    (axisPort a.toNat false) (creditMsg j q false x.epoch.toNat roundTag.toNat (m.data.length + 1)) none) q (axisPort a.toNat true) 2

theorem firstWordTaken_round (s : State) (q : QNum) (x : Ctx) (jid : BitVec 32) (a : BitVec 2) (m : Msg) (j : Job) (v : Verdict) :
    ((firstWordTaken s q x jid a m j v).ctx q).round = some (jid, a, 1) := by
  rw [firstWordTaken, (flushRound_ctx ..).1, ctx_congr (sendBacklog_ctxs ..), ctx_setCtx_same]

theorem firstWordTaken_jobs (s : State) (q : QNum) (x : Ctx) (jid : BitVec 32) (a : BitVec 2) (m : Msg) (j : Job) (v : Verdict) :
    (firstWordTaken s q x jid a m j v).jobs = (s.setJob jid.toNat { j with verdict := some { v with word := orWords ((msgData m).take 513) v.word } }).jobs := by
  rw [firstWordTaken, flushRound_jobs, sendBacklog_jobs]
  rfl

/-- A round in its first pass is not over on its axis. -/
theorem settleRound_waits {s : State} {q : QNum} {jid : BitVec 32} {a : BitVec 2} {v : Verdict} (hr : (s.ctx q).round = some (jid, a, 1))
    (hv : (s.job jid.toNat).verdict = some v) (hme : (s.job jid.toNat).q.getD a.toNat 0 ≠ 0) : settleRound s q = s := by
  unfold settleRound
  dsimp only
  rw [hr]
  dsimp only
  rw [hv]
  exact if_neg (by rw [roundIn, if_neg hme]; simp)

theorem takeWord_first {s : State} {q : QNum} {x : Ctx} {jid : BitVec 32} {a : BitVec 2} {m : Msg} {j : Job} {v : Verdict} (hj : s.job? jid.toNat = some j)
    (hv : j.verdict = some v) (hme : j.q.getD a.toNat 0 ≠ 0) : takeWord s q x jid a 0 m = firstWordTaken s q x jid a m j v := by
  have hjob := job_of_job? hj
  have hafter : (firstWordTaken s q x jid a m j v).job jid.toNat = { j with verdict := some { v with word := orWords ((msgData m).take 513) v.word } } := by
    refine job_of_job? ((congrArg (fun t => tfind t jid.toNat) (firstWordTaken_jobs ..)).trans ?_)
    exact job?_setJob_same ..
  have hs := settleRound_waits (firstWordTaken_round s q x jid a m j v) (v := { v with word := orWords ((msgData m).take 513) v.word }) (by rw [hafter]) (by rw [hafter]; exact hme)
  unfold takeWord
  dsimp only
  rw [hjob, hv]
  dsimp only
  rw [if_neg (by rw [decide_eq_false hme]; decide), if_neg hme, if_pos rfl]
  exact hs

/-- What a first word leaves: its module's word ORed, the round one message further, and memory and queues as they were (R451). -/
theorem verdictMessage_first {s : State} {p : Port} {m : Msg} {q : QNum} {jid : BitVec 32} {a : BitVec 2} {j : Job} {v : Verdict} (hj : s.job? jid.toNat = some j)
    (hv : j.verdict = some v) (hme : j.q.getD a.toNat 0 ≠ 0) (hexec : exec (.verdictMessageReceived p m) s = .next (takeWord (takeMsg s p m) q (s.ctx q) jid a 0 m)) :
    ∃ t, exec (.verdictMessageReceived p m) s = .next t ∧ (t.ctx q).round = some (jid, a, 1) ∧
      t.job? jid.toNat = some { j with verdict := some { v with word := orWords ((msgData m).take 513) v.word } } ∧ t.mem = s.mem ∧ t.queues = s.queues := by
  rw [takeWord_first (j := j) (v := v) ?_ hv hme] at hexec
  · refine ⟨_, hexec, firstWordTaken_round .., ?_, ?_, ?_⟩
    · refine (congrArg (fun t => tfind t jid.toNat) (firstWordTaken_jobs ..)).trans ?_
      exact job?_setJob_same ..
    · rw [firstWordTaken, flushRound_mem, sendBacklog_mem]; exact takeMsg_mem s p m
    · rw [firstWordTaken, flushRound_queues, sendBacklog_queues]; exact takeMsg_queues s p m
  · exact (congrArg (fun t => tfind t jid.toNat) (takeMsg_jobs s p m)).trans hj

/-- A command that is marked done is done, with its status. -/
theorem markDone_started {s : State} {q : QNum} {idx : BitVec 16} {st : Nat} :
    ∀ w ∈ ((markDone s q idx st).queue q).started, w.idx = idx → w.done = true ∧ w.status = BitVec.ofNat 16 st := by
  intro w hw hi
  unfold markDone at hw
  dsimp only at hw
  rw [queue_setQueue_same] at hw
  obtain ⟨u, hu, rfl⟩ := List.mem_map.mp hw
  by_cases h : u.idx = idx
  · rw [if_pos h]; exact ⟨rfl, rfl⟩
  · rw [if_neg h] at hi; exact absurd hi h

/-- RESHARD installs its epoch and roles once no chain of the job runs, at a beat boundary (R453). -/
theorem reshardInstall_spec (job : BitVec 32) (s : State) (j : Job) (q : QNum) (idx : BitVec 16) (c : Cmd) (hj : s.job? job.toNat = some j)
    (hr : j.reshard = some (q, idx, c)) (ha : activeChains s job.toNat = 0) (hs : s.slot = 0) (ht : s.ticking = true) :
    ∃ t, exec (.reshardInstall job) s = .next t ∧
      t.job? job.toNat = some { j with epoch := BitVec.ofNat 6 (cmdField c 8 1), roles := BitVec.ofNat 16 (cmdField c 0x0C 2), reshard := none } ∧
      (∀ w ∈ (t.queue q).started, w.idx = idx → w.done = true ∧ w.status = 0) ∧ t.mem = s.mem ∧ t.sems = s.sems ∧ t.time = s.time := by
  have hexec : exec (.reshardInstall job) s = execReshardInstall job s := rfl
  rw [execReshardInstall, hj] at hexec
  dsimp only at hexec
  rw [hr] at hexec
  dsimp only at hexec
  rw [if_neg (by simp [ha, hs, ht])] at hexec
  refine ⟨_, hexec, ?_, markDone_started, ?_, ?_, ?_⟩
  · have hm : ∀ t : State, (markDone t q idx stOk).job? job.toNat = t.job? job.toNat := fun _ => rfl
    rw [hm]
    split
    · exact job?_setJob_same ..
    · exact job?_setJob_same ..
  all_goals
    unfold markDone
    dsimp only
    split <;> rfl

/-- The states of a reduction job identifier (R454). -/
theorem redJobDrained_spec (r : BitVec 10) (e : BitVec 6) (s : State) (h : tfind s.redJobs r.toNat = some (.draining, e)) (hb : redBusy s r.toNat = false) :
    exec (.redJobDrained r) s = .next { s with redJobs := tput r.toNat (.hold, e) s.redJobs } := by
  change execRedJobDrained r s = _
  rw [execRedJobDrained, h]
  exact if_neg (by simp [hb])

theorem redJobHoldExpiry_spec (r : BitVec 10) (e : BitVec 6) (s : State) (h : tfind s.redJobs r.toNat = some (.hold, e)) :
    exec (.redJobHoldExpiry r) s = .next { s with redJobs := tdel r.toNat s.redJobs } := by
  change execRedJobHoldExpiry r s = _
  rw [execRedJobHoldExpiry, h]

end Sys2Proof.Machine
end

section
/-! The start of a chain (O16). -/

namespace Sys2Proof.Machine

/-! ### What leaves the chain contexts and the queues as they are -/

/-- The chain contexts and the queues of a state. -/
def State.places (s : State) : Tab Ctx × Tab Queue := (s.ctxs, s.queues)

/-- A computation that changes no chain context and no queue. -/
structure PlacesStay {α : Type} (m : M α) : Prop where
  same : ∀ r, ((ExceptT.run m).run r).2.s.places = r.s.places

section
variable {α β : Type}

theorem PlacesStay.pure (a : α) : PlacesStay (Pure.pure a : M α) := ⟨fun _ => rfl⟩
theorem PlacesStay.throw (e : Stop) : PlacesStay (MonadExcept.throw e : M α) := ⟨fun _ => rfl⟩
theorem PlacesStay.get : PlacesStay (MonadState.get : M Run) := ⟨fun _ => rfl⟩
theorem PlacesStay.modify (g : Run → Run) (h : ∀ r, (g r).s.places = r.s.places) : PlacesStay (modify g : M Unit) := ⟨h⟩
theorem PlacesStay.modW (g : Started → Started) : PlacesStay (modW g) := ⟨fun _ => rfl⟩
theorem PlacesStay.modS (g : State → State) (h : ∀ s, (g s).places = s.places) : PlacesStay (modS g) := ⟨fun r => h r.s⟩

theorem PlacesStay.bind {m : M α} {k : α → M β} (h1 : PlacesStay m) (h2 : ∀ a, PlacesStay (k a)) : PlacesStay (m >>= k) := by
  refine ⟨fun r => ?_⟩
  have h := h1.same r
  rw [ExceptT.run_bind, StateT.run_bind]
  generalize (ExceptT.run m).run r = y at h
  obtain ⟨x | a, r1⟩ := y
  · exact h
  · exact ((h2 a).same r1).trans h

/-- A computation that looks at the run first. -/
theorem PlacesStay.got {k : Run → M β} (h : ∀ r, PlacesStay (k r)) : PlacesStay (MonadState.get >>= k) := PlacesStay.bind .get h

theorem PlacesStay.map {m : M α} (g : α → β) (h : PlacesStay m) : PlacesStay (g <$> m) := by
  rw [map_eq_pure_bind]
  exact h.bind fun _ => .pure _

theorem PlacesStay.ite {p : Prop} [Decidable p] {m n : M α} (hm : PlacesStay m) (hn : PlacesStay n) : PlacesStay (if p then m else n) := by
  split <;> assumption

theorem PlacesStay.forEach (l : List α) {g : α → M Unit} (h : ∀ a, PlacesStay (g a)) : PlacesStay (forEach l g) := by
  induction l with
  | nil => exact .pure ()
  | cons a r ih => exact (h a).bind fun _ => ih

theorem PlacesStay.mapEach (l : List α) {g : α → M β} (h : ∀ a, PlacesStay (g a)) : PlacesStay (mapEach l g) := by
  induction l with
  | nil => exact .pure _
  | cons a r ih => exact (h a).bind fun _ => ih.bind fun _ => .pure _
end

theorem stay_stopAt {α : Type} (a b c : Nat) : PlacesStay (stopAt a b c : M α) := .throw _
theorem stay_stopWith {α : Type} (a : Nat) : PlacesStay (stopWith a : M α) := .throw _
theorem stay_countM (c n : Nat) : PlacesStay (countM c n) := .modify _ fun _ => Prod.ext (bumpStep_ctxs ..) (bumpStep_queues ..)
theorem stay_noteSpan (b : Bool) (a n : Nat) : PlacesStay (noteSpan b a n) := .modW _

theorem stay_accStop {α : Type} (near : Bool) (x : Acc α) : PlacesStay (accStop near x) := by
  cases x with
  | ok a => exact .pure a
  | poison va a => exact (PlacesStay.modW _).bind fun _ => stay_stopAt ..
  | fault _ _ | offline | need _ => exact .throw _

theorem stay_scoreboardM (a n : Nat) : PlacesStay (scoreboardM a n) := .got fun _ => .ite (.throw _) (.pure _)

theorem stay_readM (a n : Nat) {tier : Nat} (ht : tier = 0) : PlacesStay (readM tier a n) := by
  subst ht
  unfold readM
  refine .got fun x => ?_
  rw [if_pos rfl]
  refine (stay_scoreboardM ..).bind fun _ => ?_
  split
  · exact stay_accStop ..
  · exact .pure _

theorem stay_unpoison (l : List Nat) : PlacesStay (modS fun s => unpoison s l) := .modS _ fun s => Prod.ext (unpoison_ctxs s l) (unpoison_queues s l)

theorem stay_writeM (a : Nat) (bs : List Byte) {tier : Nat} (ht : tier = 0) : PlacesStay (writeM tier a bs) := by
  subst ht
  unfold writeM
  refine .got fun x => ?_
  dsimp only
  rw [if_pos rfl]
  exact (PlacesStay.modS (fun s => physWrite s a bs) fun _ => rfl).bind fun _ => (stay_unpoison _).bind fun _ => stay_noteSpan ..

theorem stay_readBits (a w : Nat) {tier : Nat} (ht : tier = 0) : PlacesStay (readBits tier a w) := (stay_readM _ _ ht).bind fun _ => .pure _

theorem stay_writeBits (a w v : Nat) {tier : Nat} (ht : tier = 0) : PlacesStay (writeBits tier a w v) := by
  subst ht
  unfold writeBits peekM
  refine .ite (stay_writeM _ _ rfl) ?_
  dsimp only
  rw [if_pos rfl]
  exact PlacesStay.bind (.bind (.bind .get fun _ => .pure _) fun _ => .pure _) fun _ => stay_writeM _ _ rfl

theorem stay_readCodes {t : TDesc} (h : flat t = true) (row c0 n : Nat) : PlacesStay (readCodes t row c0 n) := by
  obtain ⟨ht, h2, h3⟩ := flat_parts h
  unfold readCodes
  rw [if_neg h2, if_neg h3]
  refine .mapEach _ fun c => (stay_readBits _ _ ht).bind fun _ => ?_
  exact .ite (.pure _) ((stay_readM _ _ ht).bind fun _ => .pure _)

theorem stay_countReads (t : TDesc) (c0 : Nat) (l : List (Nat × Nat)) : PlacesStay (countReads t c0 l) := by
  unfold countReads
  dsimp only
  split
  · exact (stay_countM ..).bind fun _ => .ite (stay_countM ..) (.pure _)
  · exact .ite (stay_countM ..) (.pure _)

theorem stay_readRow {t : TDesc} (h : flat t = true) (row c0 n : Nat) : PlacesStay (readRow t row c0 n) := by
  unfold readRow readVals
  refine PlacesStay.bind ((stay_readCodes h ..).bind fun _ => (stay_countReads ..).bind fun _ => ?_) fun _ => .pure _
  split
  · exact .pure _
  · exact stay_stopWith ..

theorem stay_putCodes {t : TDesc} (h : t.tier = 0) (row c0 : Nat) (codes : List Nat) (sc : Nat) : PlacesStay (putCodes t row c0 codes sc) :=
  (PlacesStay.forEach _ fun _ => stay_writeBits _ _ _ h).bind fun _ => .ite (stay_writeM _ _ h) (.pure _)

theorem stay_padRow {t : TDesc} (h : t.tier = 0) (row last : Nat) : PlacesStay (padRow t row last) :=
  .ite (.forEach _ fun _ => stay_writeBits _ _ _ h) (.pure _)

theorem stay_evidenceM (t : TDesc) (b : Bool) : PlacesStay (evidenceM t b) := by
  unfold evidenceM
  refine .ite (.got fun r => ?_) (.pure _)
  dsimp only
  split
  · exact .ite (.modS _ fun _ => rfl) (.pure _)
  · exact .pure _

theorem stay_narrowRow (t : TDesc) (k : Fmt) (row c0 : Nat) (vals : List Nat) (site : Option Nat) (fixed : Option Int) (rne : Bool) :
    PlacesStay (narrowRow t k row c0 vals site fixed rne) :=
  .got fun _ => .mapEach _ fun _ => (stay_countM ..).bind fun _ => (stay_countM ..).bind fun _ => (stay_countM ..).bind fun _ => (stay_evidenceM ..).bind fun _ => .pure _

theorem stay_writeRow {t : TDesc} (h : t.tier = 0) (row c0 : Nat) (vals : List Nat) (site : Option Nat) (fixed : Option Int) (rne : Bool) :
    PlacesStay (writeRow t row c0 vals site fixed rne) := by
  unfold writeRow
  split
  · exact stay_stopWith ..
  · exact (stay_narrowRow ..).bind fun _ => (PlacesStay.forEach _ fun _ => stay_putCodes h ..).bind fun _ => (stay_padRow h ..).bind fun _ => .pure _

theorem stay_noteEvidence : PlacesStay noteEvidence := .modify _ fun _ => rfl

/-! ### A chain that starts (R447) -/

/-- The run of a chain that has started: calm, its context running the command of index idx in a step. -/
structure Chaining (r0 : Run) (idx : BitVec 16) (step : BitVec 64) (r : Run) : Prop where
  calm : Calm r0 false r
  cur : (r.s.ctx r.q).cur = some (idx, r0.c)
  running : (r.s.ctx r.q).running = true
  step : (r.s.ctx r.q).step = step

/-- A computation during which the chain runs on, whatever it answers. -/
abbrev Chains (r0 : Run) (idx : BitVec 16) (step : BitVec 64) {α : Type} (m : M α) : Prop := Tot (Chaining r0 idx step) m fun _ => Chaining r0 idx step

section
variable {r0 : Run} {idx : BitVec 16} {step : BitVec 64} {α β : Type}

/-- What keeps the run calm and changes no context or queue keeps the chain running. -/
theorem Chains.of_keep {m : M α} (h : Keep r0 false m) (hs : PlacesStay m) : Chains r0 idx step m := by
  intro r hr
  obtain ⟨a, r', e, hc⟩ := h r hr.calm
  have hx : r'.s.ctx r'.q = r.s.ctx r.q := by
    have h1 := hs.same r
    rw [e] at h1
    rw [hc.queue, hr.calm.queue]
    exact ctx_congr (congrArg Prod.fst h1) _
  exact ⟨a, r', e, hc, by rw [hx]; exact hr.cur, by rw [hx]; exact hr.running, by rw [hx]; exact hr.step⟩

theorem Chains.pure (a : α) : Chains r0 idx step (Pure.pure a : M α) := Tot.pure a fun _ h => h

theorem Chains.forEach (l : List α) {g : α → M Unit} (h : ∀ a, Chains r0 idx step (g a)) : Chains r0 idx step (forEach l g) := by
  induction l with
  | nil => exact .pure ()
  | cons a r ih => exact Tot.bind (h a) fun _ => ih

/-- A computation that looks at the run first sees its command, job and queue. -/
theorem Chains.got {k : Run → M β} {Q : β → Run → Prop} (h : ∀ x, Chaining r0 idx step x → Tot (Chaining r0 idx step) (k x) Q) :
    Tot (Chaining r0 idx step) (MonadState.get >>= k) Q :=
  Tot.got fun x hx => tot_at hx (h x hx)

/-- The operand that a handle names. -/
theorem Chains.descB {k : TDesc → M β} {Q : β → Run → Prop} {h : Nat} (hv : namable r0.w.copies (r0.s.job r0.job) h = true)
    (hk : Tot (Chaining r0 idx step) (k (operandOf r0.w.copies (r0.s.job r0.job) h)) Q) : Tot (Chaining r0 idx step) (descM h >>= k) Q := by
  intro r hr
  obtain ⟨t, r', e, rfl, hc⟩ := Tot.descM hv r hr.calm
  obtain rfl : r' = r := by
    have := descM_at (h := h) (x := r) (by
      obtain ⟨b, d, hb⟩ := hr.calm.dat
      rw [hr.calm.copies, hb]
      exact hv)
    rw [e] at this
    exact congrArg Prod.snd this
  obtain ⟨b, r2, e2, hq⟩ := hk r' hr
  exact ⟨b, r2, (run_bind_of e).trans e2, hq⟩

/-- A change of the context that leaves its command, its step and its running. -/
theorem Chains.modCtx {g : Ctx → Ctx} (h : ∀ x, (g x).cur = x.cur ∧ (g x).running = x.running ∧ (g x).step = x.step) : Chains r0 idx step (modCtx g) := by
  refine Tot.modify _ fun r hr => ?_
  obtain ⟨h1, h2, h3⟩ := h (r.s.ctx r.q)
  refine ⟨hr.calm.modS (fun s => s.setCtx r.q _) hr.calm.poison hr.calm.dat hr.calm.masks (by simp), ?_, ?_, ?_⟩
  · exact (congrArg Ctx.cur (ctx_setCtx_same ..)).trans (h1.trans hr.cur)
  · exact (congrArg Ctx.running (ctx_setCtx_same ..)).trans (h2.trans hr.running)
  · exact (congrArg Ctx.step (ctx_setCtx_same ..)).trans (h3.trans hr.step)

theorem chains_noteEvidence : Chains r0 idx step noteEvidence := Chains.of_keep keep_noteEvidence stay_noteEvidence
theorem chains_countM (c n : Nat) : Chains r0 idx step (countM c n) := Chains.of_keep (Keep.countM _ _) (stay_countM ..)

theorem chains_sendSeg (shard pos k n wire : Nat) (ovf : Bool) (bs : List Byte) : Chains r0 idx step (sendSeg shard pos k n wire ovf bs) := by
  unfold sendSeg
  refine Chains.got fun x _ => ?_
  exact Tot.bind (Chains.modCtx fun _ => ⟨rfl, rfl, rfl⟩) fun _ => tot_ite (fun _ => chains_countM _ _) fun _ => Chains.pure _

/-- A row of a source that can be read. -/
theorem chains_readRow {t : TDesc} (h : readable t = true) (row c0 n : Nat) : Chains r0 idx step (readRow t row c0 n) := by
  obtain ⟨hf, hn⟩ := readable_parts h
  exact Chains.of_keep (Keep.readRow hf hn _ _ _) (stay_readRow hf ..)

theorem chains_modS {g : State → State} (h : ∀ s, (g s).poison = s.poison ∧ (g s).jobs = s.jobs ∧ (g s).masks = s.masks ∧ (g s).mem = s.mem)
    (hq : ∀ s, (g s).queues = s.queues) (hc : ∀ s, (g s).ctxs = s.ctxs) : Chains r0 idx step (modS g) :=
  Chains.of_keep (Keep.modS g h hq) (.modS g fun s => Prod.ext (hc s) (hq s))

theorem chains_ctxM : Chains r0 idx step ctxM := by
  unfold ctxM
  exact Chains.got fun x hx => Tot.pure _ fun r hr => hr

/-! The operands of the chain (R446). -/
variable (hready : ChainReady r0.w.copies (r0.s.job r0.job) r0.c)
include hready

theorem namable_src : namable r0.w.copies (r0.s.job r0.job) (cmdField r0.c 8 4) = true := by
  obtain ⟨h, _⟩ := hready
  exact h _ (by simp [bucketHandles])

theorem namable_dst : namable r0.w.copies (r0.s.job r0.job) (cmdField r0.c 0x0C 4) = true := by
  obtain ⟨h, _⟩ := hready
  exact h _ (by simp [bucketHandles])

theorem namable_acc (h0 : cmdField r0.c 0x10 4 ≠ 0) : namable r0.w.copies (r0.s.job r0.job) (cmdField r0.c 0x10 4) = true := by
  obtain ⟨h, _⟩ := hready
  exact h _ (by simp [bucketHandles, optH, h0])

/-- The chain set of the running command, GATHER as its command says. -/
theorem chains_chainB {k : Chain → M β} {Q : β → Run → Prop} (hk : ∀ h : Chain, h.gather = bkGather r0.c → Tot (Chaining r0 idx step) (k h) Q) :
    Tot (Chaining r0 idx step) (chainM >>= k) Q := by
  unfold chainM
  simp only [bind_assoc, pure_bind]
  refine Chains.got fun x hx => ?_
  rw [hx.calm.cmd]
  refine Chains.descB ?_ ?_
  · split
    · exact namable_dst hready
    · exact namable_src hready
  · exact hk _ rfl

/-- The local contribution can be read (R447). -/
theorem chains_localVals (hg : bkGather r0.c = false) (a n : Nat) : Chains r0 idx step (localVals a n) := by
  have hsrc := namable_src hready
  have hacc := namable_acc hready
  obtain ⟨-, -, -, hsum⟩ := hready
  obtain ⟨hs, -, ha⟩ := hsum hg
  unfold localVals
  refine Chains.got fun x hx => ?_
  dsimp only
  rw [hx.calm.cmd]
  refine Chains.descB hsrc (Tot.bind (chains_readRow hs _ _ _) fun v => tot_ite (fun _ => Chains.pure _) fun hn => ?_)
  obtain ⟨h0, hr⟩ := ha hn
  exact Chains.descB (hacc h0) (Tot.bind (chains_readRow hr _ _ _) fun _ => Chains.pure _)

theorem chains_chainMode (j a : Nat) : Chains r0 idx step (chainMode j a) := by
  have hsrc := namable_src hready
  unfold chainMode
  refine Chains.got fun x hx => ?_
  dsimp only
  rw [hx.calm.cmd]
  exact tot_ite (fun _ => Chains.pure _) fun _ => Chains.descB hsrc (Chains.pure _)

theorem chains_toWire (wire j a : Nat) (xs : List Nat) : Chains r0 idx step (toWire wire j a xs) := by
  unfold toWire
  refine tot_ite (fun _ => Chains.pure _) fun _ => ?_
  split
  · exact Chains.pure _
  · exact Tot.bind (chains_chainMode hready _ _) fun _ => Tot.bind (chains_countM _ _) fun _ => Tot.bind (chains_countM _ _) fun _ => Chains.pure _

/-- Finished sums can be stored in the owned shard (R442). -/
theorem chains_storeOwned (hg : bkGather r0.c = false) (h : Chain) (a : Nat) (xs : List Nat) : Chains r0 idx step (storeOwned h a xs) := by
  have hdst := namable_dst hready
  have hmode := chains_chainMode (idx := idx) (step := step) hready
  obtain ⟨-, ht, -, hsum⟩ := hready
  obtain ⟨-, hf, -⟩ := hsum hg
  unfold storeOwned
  refine Chains.got fun x hx => ?_
  rw [hx.calm.cmd]
  refine Chains.descB hdst ?_
  dsimp only
  obtain ⟨k, hk⟩ := Option.isSome_iff_exists.1 hf
  rw [hk]
  refine tot_ite (fun _ => Tot.bind (hmode _ _) fun _ => ?_) fun _ => ?_
  · refine Tot.bind (Chains.forEach _ fun p => ?_) fun _ => Chains.of_keep (Keep.padRow ht _ _) (stay_padRow ht ..)
    exact Tot.bind (chains_countM _ _) fun _ => Tot.bind (chains_countM _ _) fun _ =>
      Tot.bind (Chains.of_keep (Keep.evidenceM _ _) (stay_evidenceM ..)) fun _ => Chains.of_keep (Keep.putCodes ht _ _ _ _) (stay_putCodes ht ..)
  · exact Tot.bind (Chains.of_keep (Keep.writeRow ht hf _ _ _ _ _ _) (stay_writeRow ht ..)) fun _ => Chains.pure _

/-- A segment is summed at this module's position and sent on or stored (R442). -/
theorem chains_sumSeg (hg : bkGather r0.c = false) (h : Chain) (s k : Nat) (vin : Option (List Nat)) (ovfIn : Bool) :
    Chains r0 idx step (sumSeg h s k vin ovfIn) := by
  unfold sumSeg
  refine Chains.got fun x _ => ?_
  dsimp only
  refine Tot.bind (chains_localVals hready hg _ _) fun c => ?_
  have send : ∀ v b, Chains r0 idx step (if h.pos s + 1 < h.p then do
      let __discr ← toWire (bkWire x.c) (h.pos s) (h.segAt s k).1 v
      match __discr with
      | (bs, sat) => sendSeg s (h.pos s) k (h.segAt s k).2 (bkWire x.c) (b || sat) bs
    else do
      storeOwned h (h.segAt s k).1 v
      if b then countM 24 1
      modCtx fun y => { y with ovf := y.ovf || b, sqOwned := tput k ((vecSquares v).map (BitVec.ofNat 32)) y.sqOwned }) := fun v b => by
    refine tot_ite (fun _ => Tot.bind (chains_toWire hready _ _ _ _) fun p => chains_sendSeg _ _ _ _ _ _ _) fun _ => ?_
    exact Tot.bind (chains_storeOwned hready hg _ _ _) fun _ => tot_ite (fun _ => Tot.bind (chains_countM _ _) fun _ => Chains.modCtx fun _ => ⟨rfl, rfl, rfl⟩)
      fun _ => Chains.modCtx fun _ => ⟨rfl, rfl, rfl⟩
  exact tot_ite (fun _ => Tot.bind chains_noteEvidence fun _ => send _ _) fun _ => send _ _

theorem chains_storeBytes (a : Nat) (bs : List Byte) : Chains r0 idx step (storeBytes a bs) := by
  have hdst := namable_dst hready
  obtain ⟨-, ht, -⟩ := hready
  unfold storeBytes fieldM
  simp only [bind_assoc, pure_bind]
  refine Chains.got fun x hx => ?_
  rw [hx.calm.cmd]
  exact Chains.descB hdst (Chains.of_keep (Keep.putCodes ht _ _ _ _) (stay_putCodes ht ..))

/-- A segment that arrives is handled, and the space that it held granted again (R440). -/
theorem chains_arriveSeg (m : Msg) : Chains r0 idx step (arriveSeg m) := by
  unfold arriveSeg
  refine Chains.got fun x _ => chains_chainB hready fun h hg => ?_
  extract_lets wire s k n handled bs stored
  have hhandled : ∀ u, Chains r0 idx step (handled u) := fun u =>
    Tot.bind chains_ctxM fun y => Tot.bind (Chains.modCtx fun _ => ⟨rfl, rfl, rfl⟩) fun _ => chains_modS (fun s => by simp) (fun s => by simp) fun s => by simp
  have hstored : ∀ u, Chains r0 idx step (stored u) := fun u => tot_ite (fun _ => Tot.bind (chains_sendSeg _ _ _ _ _ _ _) hhandled) fun _ => hhandled ()
  refine tot_ite (fun _ => Tot.bind (chains_storeBytes hready _ _) fun _ => ?_) fun hn => Tot.bind (chains_sumSeg hready ?_ _ _ _ _ _) hhandled
  · exact tot_ite (fun _ => Tot.bind chains_noteEvidence hstored) fun _ => hstored ()
  · rw [← hg]; simpa using hn

/-- The segments that waited for the chain's start are handled or discarded (R438). -/
theorem chains_drainIn (l : List Msg) : Chains r0 idx step (drainIn l) := by
  induction l with
  | nil => exact Chains.pure _
  | cons m r ih =>
    unfold drainIn
    refine chains_chainB hready fun h _ => Chains.got fun x _ => Tot.bind chains_ctxM fun y => tot_ite (fun _ => Tot.bind (chains_arriveSeg hready m) fun _ => ih) fun _ => ?_
    exact Tot.bind (chains_modS (fun s => by simp [unmatched]) (fun s => by simp [unmatched]) fun s => by simp [unmatched]) fun _ => ih

/-- The module's own segments are formed, and those that have arrived are handled (R447): the part of a chain's start that runs in its context. -/
theorem chains_form (h : Chain) (hg : h.gather = bkGather r0.c) (s k : Nat) :
    Chains r0 idx step (if h.gather then do
        let src ← descM (cmdField r0.c 8 4)
        let l ← readCodes src 0 ((h.segAt s k).1 - h.lo s) (h.segAt s k).2
        storeBytes (h.segAt s k).1 (l.map fun e => BitVec.ofNat 8 e.1)
        sendSeg s 0 k (h.segAt s k).2 0 false (l.map fun e => BitVec.ofNat 8 e.1)
      else sumSeg h s k none false) := by
  refine tot_ite (fun hy => ?_) fun hn => chains_sumSeg hready (by rw [← hg]; simpa using hn) _ _ _ _ _
  have hsrc := namable_src hready
  have hbytes := chains_storeBytes (idx := idx) (step := step) hready
  obtain ⟨-, -, hgather, -⟩ := hready
  obtain ⟨hf, -⟩ := hgather (hg ▸ hy)
  exact Chains.descB hsrc (Tot.bind (Chains.of_keep (Keep.readCodes hf _ _ _) (stay_readCodes hf ..)) fun _ => Tot.bind (hbytes _ _) fun _ => chains_sendSeg _ _ _ _ _ _ _)

/-- The same at the run's start. -/
theorem tot_chainB {k : Chain → M β} {Q : β → Run → Prop} (hk : ∀ h : Chain, h.gather = bkGather r0.c → Tot (· = r0) (k h) Q) : Tot (· = r0) (chainM >>= k) Q := by
  unfold chainM
  simp only [bind_assoc, pure_bind]
  refine tot_getE (tot_bindE (reads_descM ?_) ?_)
  · split
    · exact namable_dst hready
    · exact namable_src hready
  · exact hk _ rfl

/-- A chain starts: its context runs the command in the job's step (R447). -/
theorem startBody_sends (hc : Calm r0 true r0) (hcur : (r0.s.ctx r0.q).cur = some (idx, r0.c)) (hup : (r0.s.port (bucketPort r0.c)).up = true)
    (hs : bkN r0.c = 1 ∨ sends r0.c (r0.s.job r0.job).step = true) : Tot (· = r0) startBody fun _ => Chaining r0 idx (r0.s.job r0.job).step := by
  unfold startBody
  refine tot_getE ?_
  dsimp only
  rw [if_neg (by rcases hs with h | h <;> simp [h])]
  refine tot_chainB hready fun h hg => (Tot.bind (Q := fun _ => Chaining r0 idx (r0.s.job r0.job).step) ?_ fun _ => ?_)
  · refine Tot.modify _ fun r hr => ?_
    subst hr
    refine ⟨hc.weaken.modS (fun s => s.setCtx r.q _) hc.poison hc.dat hc.masks (by simp), ?_, ?_, ?_⟩
    · exact (congrArg Ctx.cur (ctx_setCtx_same ..)).trans hcur
    · exact congrArg Ctx.running (ctx_setCtx_same ..)
    · exact congrArg Ctx.step (ctx_setCtx_same ..)
  have form : Chains r0 idx (r0.s.job r0.job).step (do
      forEach ((List.range h.p).filter fun s => h.pos s == 0) fun s => do
        forEach (List.range (h.nseg s)) fun k => if h.gather then do
            let src ← descM (cmdField r0.c 8 4)
            let l ← readCodes src 0 ((h.segAt s k).1 - h.lo s) (h.segAt s k).2
            storeBytes (h.segAt s k).1 (l.map fun e => BitVec.ofNat 8 e.1)
            sendSeg s 0 k (h.segAt s k).2 0 false (l.map fun e => BitVec.ofNat 8 e.1)
          else sumSeg h s k none false
        modCtx fun x => { x with segs := tput s (2 ^ h.nseg s - 1) x.segs }
      drainIn (r0.s.ctx r0.q).inq
      if !(r0.s.port (bucketPort r0.c)).up then stopWith stOffline) := by
    refine Tot.bind (Chains.forEach _ fun s => Tot.bind (Chains.forEach _ fun k => chains_form hready h hg s k) fun _ => Chains.modCtx fun _ => ⟨rfl, rfl, rfl⟩) fun _ => ?_
    exact Tot.bind (chains_drainIn hready _) fun _ => tot_ite (fun hn => by simp [hup] at hn) fun _ => Chains.pure _
  refine tot_ite (fun hn => ?_) fun _ => form
  have hg' : bkGather r0.c = false := by rw [← hg]; simp only [Bool.and_eq_true, Bool.not_eq_true'] at hn; exact hn.1
  exact Tot.bind (chains_localVals hready hg' _ _) fun _ => Tot.bind (Chains.modCtx fun _ => ⟨rfl, rfl, rfl⟩) fun _ => form

/-- In a step that does not send, the bucket is added and the context is free again (R447). -/
theorem startBody_adds (hc : Calm r0 true r0) (hs : ¬(bkN r0.c = 1 ∨ sends r0.c (r0.s.job r0.job).step = true)) :
    Tot (· = r0) startBody fun _ r => r.q = r0.q ∧ r.w.done = true ∧ (r.s.ctx r0.q).cur = none := by
  obtain ⟨hn, hf⟩ := not_or.mp hs
  have hsrc := namable_src hready
  have hacc := namable_acc hready
  obtain ⟨-, -, hgather, hsum⟩ := hready
  have hg : bkGather r0.c = false := by
    cases h : bkGather r0.c with
    | false => rfl
    | true => exact absurd (hgather h).2 hn
  obtain ⟨hread, -, ha⟩ := hsum hg
  obtain ⟨h0, hr⟩ := ha hn
  unfold startBody
  refine tot_getE ?_
  dsimp only
  rw [if_pos (by simp [hn, hf])]
  refine Tot.bind (tot_at hc (tot_accumulate rfl rfl hsrc (hacc h0) hread hr)) fun _ => Tot.modify _ fun r hr => ?_
  obtain ⟨hd, hr⟩ := hr
  exact ⟨hr.queue, hd, by rw [← hr.queue]; exact congrArg Ctx.cur (ctx_setCtx_same ..)⟩

end

/-! ### CHAIN_START -/

/-- The run of a command that has started and works on (R447). -/
def startedRun (s : State) (q : QNum) (idx : BitVec 16) (w : Started) : Run :=
  { s := s, w := w, q := q, exe := exeOf q (s.queue q), f := (s.queue q).func.toNat, job := (s.queue q).job.toNat, c := w.cmd, step := drawnStep s q idx }

theorem calm_startedRun {s : State} {q : QNum} {idx : BitVec 16} {w : Started} (hc : NearClear s q idx) (hi : w.idx = idx) (hw : w.status = 0) :
    Calm (startedRun s q idx w) true (startedRun s q idx w) := by
  obtain ⟨hp, hn⟩ := hc
  have hn : ∀ g, pendingWrites s q w.idx g = 0 := by rw [hi]; exact hn
  exact ⟨hp, rfl, rfl, rfl, rfl, rfl, rfl, hn, hw, rfl, ⟨_, _, rfl⟩, hn, fun _ => rfl, fun _ => rfl⟩

/-- The started command of an index in queue q becomes w. -/
def putStarted (s : State) (q : QNum) (idx : BitVec 16) (w : Started) : State :=
  s.setQueue q { s.queue q with started := (s.queue q).started.map fun u => if u.idx = idx then w else u }

theorem runStarted_ok {s : State} {q : QNum} {idx : BitVec 16} {act : M Unit} {w : Started} {r : Run}
    (hw : (s.queue q).started.find? (fun w => w.idx == idx) = some w) (h : (ExceptT.run act).run (startedRun s q idx w) = (.ok (), r)) :
    runStarted s q idx act = (.ok, putStarted r.s q idx r.w) := by
  unfold runStarted
  dsimp only
  rw [hw]
  dsimp only
  unfold startedRun at h
  rw [h]
  rfl

/-- A full bucket whose start ends releases the head of its queue (R447). -/
theorem chainStart_eq {q : QNum} {s : State} {i idx : BitVec 16} {c : Cmd} {n : SemNum} {g : BitVec 64} {w : Started} {r : Run} (hh : (s.queue q).hold = .fill i n g true)
    (hcur : (s.ctx q).cur = some (idx, c)) (hw : (s.queue q).started.find? (fun w => w.idx == idx) = some w)
    (h : (ExceptT.run startBody).run (startedRun s q idx w) = (.ok (), r)) :
    exec (.chainStart q) s = .next ((putStarted r.s q idx r.w).setQueue q { (putStarted r.s q idx r.w).queue q with hold := .none }) := by
  change execChainStart q s = _
  rw [execChainStart, hh]
  dsimp only
  unfold startChain
  rw [hcur]
  dsimp only
  rw [runStarted_ok hw h]

theorem putStarted_mem {s : State} {q : QNum} {idx : BitVec 16} {w : Started} :
    ∀ u ∈ ((putStarted s q idx w).queue q).started, u.idx = idx → u = w := by
  intro u hu hi
  rw [putStarted, queue_setQueue_same] at hu
  obtain ⟨v, _, rfl⟩ := List.mem_map.mp hu
  by_cases h : v.idx = idx
  · exact if_pos h
  · rw [if_neg h] at hi; exact absurd hi h

/-- The chain of a full bucket starts, or in a step that does not send its bucket is added (R447). -/
theorem chainStart_spec (q : QNum) (s : State) (i idx : BitVec 16) (c : Cmd) (n : SemNum) (g : BitVec 64) (w : Started) (j : Job) (hh : (s.queue q).hold = .fill i n g true)
    (hcur : (s.ctx q).cur = some (idx, c)) (hw : (s.queue q).started.find? (fun w => w.idx == idx) = some w) (hwc : w.cmd = c) (hws : w.status = 0)
    (hj : j = s.job (s.queue q).job.toNat) (hn : NearClear s q idx) (hr : ChainReady w.copies j c) (hup : (s.port (bucketPort c)).up = true) :
    ∃ t, exec (.chainStart q) s = .next t ∧ (t.queue q).hold = .none ∧
      ((bkN c = 1 ∨ sends c j.step = true) → (t.ctx q).running = true ∧ (t.ctx q).cur = some (idx, c) ∧ (t.ctx q).step = j.step) ∧
      (¬(bkN c = 1 ∨ sends c j.step = true) → (t.ctx q).cur = none ∧ ∀ u ∈ (t.queue q).started, u.idx = idx → u.done = true) := by
  subst hwc hj
  have hi : w.idx = idx := by simpa using List.find?_some hw
  have hc := calm_startedRun hn hi hws
  have hctx : ∀ (r : Run) (x : Queue), ((putStarted r.s q idx r.w).setQueue q x).ctx q = r.s.ctx q := fun _ _ => rfl
  by_cases hs : bkN w.cmd = 1 ∨ sends w.cmd (s.job (s.queue q).job.toNat).step = true
  · obtain ⟨_, r, e, h⟩ := startBody_sends (r0 := startedRun s q idx w) (idx := idx) hr hc hcur hup hs _ rfl
    have hq : r.q = q := h.calm.queue
    obtain ⟨-, h1, h2, h3⟩ := h
    rw [hq] at h1 h2 h3
    refine ⟨_, chainStart_eq hh hcur hw e, by rw [queue_setQueue_same], fun _ => ?_, fun hn => absurd hs hn⟩
    rw [hctx]
    exact ⟨h2, h1, h3⟩
  · obtain ⟨_, r, e, -, hd, h0⟩ := startBody_adds (r0 := startedRun s q idx w) hr hc hs _ rfl
    refine ⟨_, chainStart_eq hh hcur hw e, by rw [queue_setQueue_same], fun hn => absurd hn hs, fun _ => ⟨?_, fun u hu hx => ?_⟩⟩
    · rw [hctx]; exact h0
    · rw [queue_setQueue_same] at hu
      rw [putStarted_mem u hu hx]
      exact hd

/-- Settles O16: rounds, chain starts, RESHARD and reduction jobs. -/
theorem chainsAndRounds : Obligations.ChainsAndRounds := by
  unfold Obligations.ChainsAndRounds
  refine ⟨⟨verdictRoundStart_spec, fun p m s q k n jid a j v hin hk hcr hor hctx hr he ht hl hn hj hv => ?_⟩, ⟨chainStart_spec, reshardInstall_spec⟩,
    redJobDrained_spec, redJobHoldExpiry_spec⟩
  have hexec := verdictMessage_taken hin hk hcr hor hctx hr he ht hl hn
  refine ⟨hexec, fun hme hn0 => ?_⟩
  subst hn0
  exact verdictMessage_first hj hv hme hexec

end Sys2Proof.Machine
end

section
/-! The refutation of O24. -/

namespace Sys2Proof.Machine

/-! #### A host page that another request waits for (O24)

An answer from the host also presents again the requests to the dictionary that waited for a page (R283), beside the function's event records. -/

/-- Function 0 has asked its host for the page at 0, which the first GiB of its page table names, and a DESC_CREATE of the management path waits for a page. -/
def pageAsked : State :=
  { time := { st := .aligned, tick := 1000, refPresent := true }, trust := { sfUp := true }, power := { state := .ready }
    funcs := [(0, { agreed := 1, levelHost := 1, root := 0x10000001, ats := [(0, .requested)] })]
    paths := [(0, { descWait := some [] })]
    mem := memPut 0x10000000 (leBytes 8 0x10010001) (memPut 0x10010000 (leBytes 8 0x43) []) }

/-- The answer presents the DESC_CREATE again, which no longer waits. -/
theorem pageAsked_presented : (match exec (.hostPageResponse 0 0 true 0) pageAsked with
    | .next t => (t.path .mgmt).descWait
    | _ => some []) = none := by decide +kernel

/-- Refutes O24: the answer to a host page request presents the waiting DESC_CREATE again, which changes its path; the statement has only the event records written. -/
theorem not_hostPagesAndPageMoves : ¬ Obligations.HostPagesAndPageMoves := by
  unfold Obligations.HostPagesAndPageMoves
  rintro ⟨⟨hresponse, _⟩, _⟩
  have hnext := hresponse 0 0 true 0 0 pageAsked (by decide +kernel)
  have hpath := pageAsked_presented
  rw [hnext] at hpath
  exact absurd hpath (by decide +kernel)

end Sys2Proof.Machine
end

section
/-! The commands of the vector unit (O54). -/

namespace Sys2Proof.Machine

/-! ### The commands of the vector unit (O54) -/

/-- What the body of a command starts from: a calm run of command c on executor e, for job j, with the descriptors that its head copied. -/
structure BodyRun (r0 : Run) (c : Cmd) (e : Exe) (j : Job) (cs : List (BitVec 32 × Desc × BitVec 8)) : Prop where
  calm : Calm r0 true r0
  cmd : r0.c = c
  exe : r0.exe = e
  job : r0.s.job r0.job = j
  copies : r0.w.copies = cs

/-- A vector command: its handles can be named, its first source can be read and its destination written, and every further source that it names has the destination's shape (R143). -/
structure VecRun (r0 : Run) (c : Cmd) (e : Exe) (j : Job) (cs : List (BitVec 32 × Desc × BitVec 8)) (x out : TDesc) : Prop extends BodyRun r0 c e j cs where
  handles : ∀ k ∈ vecHandles c, namable cs j k = true
  source : x = operandOf cs j (cmdField c 8 4)
  dest : out = operandOf cs j (cmdField c 0x14 4)
  reads : readable x = true
  writes : writable e out = true
  shapes : ∀ h ∈ optH (cmdField c 0x0C 4) ++ optH (cmdField c 0x10 4), vecSrc e out.ext (operandOf cs j h) = true

/-- A command completes where from such a run its body ends. -/
theorem completes_of_body {i : Instr} {q : QNum} {c : Cmd} {resv : Cmd → Bool} {handles : Cmd → List Nat} {body : M Unit} {s s1 : State} {e : Exe} {j : Job}
    {cs : List (BitVec 32 × Desc × BitVec 8)} (hi : exec i s = startCmd q c resv handles body s) (hs : Starts s q c resv handles s1) (hp : NearClear s1 q (s.queue q).next)
    (hcs : cs = (s.queue q).hold.copies) (hj : j = s1.job (s.queue q).job.toNat) (he : e = exeOf q (s.queue q))
    (h : ∀ r0 : Run, r0 = headRun s1 q (s.queue q) c → BodyRun r0 c e j cs → Tot (· = r0) body fun _ r => r.w.status = 0) : Completes i body s s1 q c :=
  completes_of_tot hi hs hp fun r0 h0 h1 h2 h3 h4 _ hc => h r0 h0 ⟨hc, h1, h2.trans he.symm, h3.trans hj.symm, h4.trans hcs.symm⟩

section
variable {r0 : Run} {c : Cmd} {e : Exe} {j : Job} {cs : List (BitVec 32 × Desc × BitVec 8)} {β : Type} {R : β → Run → Prop} {st : Bool} {x out : TDesc}

theorem tot_opDescB (hb : BodyRun r0 c e j cs) {h : Nat} {k : TDesc → M β} (hv : namable cs j h = true) (hk : Tot (Calm r0 st) (k (operandOf cs j h)) R) :
    Tot (Calm r0 st) (descM h >>= k) R := tot_descB hb.job hb.copies hv hk

theorem tot_optDescB (hb : BodyRun r0 c e j cs) {h : Nat} {k : Option TDesc → M β} (hv : h = 0 ∨ namable cs j h = true)
    (hk : Tot (Calm r0 st) (k (optOperand cs j h)) R) : Tot (Calm r0 st) (descOpt h >>= k) R := tot_descOptB hb.job hb.copies hv hk

/-- A body whose work keeps the run calm leaves status OK. -/
theorem BodyRun.ends (h : BodyRun r0 c e j cs) {k : Run → M Unit} (hk : Tot (Calm r0 true) (k r0) fun _ => Calm r0 false) :
    Tot (· = r0) (MonadState.get >>= k) fun _ r => r.w.status = 0 := Keep.done (r0 := r0) (st := false) (tot_first h.calm hk)

theorem writable_dst (h : writable e out = true) : dstOk e out = true := (writable_parts h).2.2
theorem writable_fmt (h : writable e out = true) : (fmtOf out.fmt).isSome = true := (writable_parts h).2.1
theorem readable_fmt (h : readable x = true) : (fmtOf x.fmt).isSome = true := (readable_parts h).2

/-- The rows of a source, of the destination's shape. -/
theorem keep_rowsSome {v : Nat} (h : readable x = true) : Keep r0 st (rowsOr (some x) out v) := Tot.rowsOr _ _ _ fun u hu => by cases hu; exact h

theorem keep_writeOut (h : writable e out = true) (rows : List (List Nat)) (f p i : Nat) (site : Option Nat) (fixed : Option Int) (rne : Bool) :
    Keep r0 false (writeTensor out rows f p i site fixed rne) := Keep.writeTensor (writable_parts h).1 (writable_parts h).2.1 _ _ _ _ _ _ _

/-- The sources named in the command's optional fields are of the destination's shape. -/
theorem VecRun.keepShapes (h : VecRun r0 c e j cs x out) : Keep r0 st (vecShapes c out) := by
  unfold vecShapes
  refine tot_start fun r _ => Keep.forEach _ _ fun k hk => tot_opDescB h.toBodyRun (h.handles k ?_) (Tot.need ?_)
  · simp only [vecHandles, List.mem_append] at hk ⊢
    exact hk.elim (fun hk => .inl (.inr hk)) .inr
  · rw [h.exe]
    exact h.shapes k hk

theorem VecRun.src (h : VecRun r0 c e j cs x out) : namable cs j (cmdField c 8 4) = true := h.handles _ (by simp [vecHandles])
theorem VecRun.dst (h : VecRun r0 c e j cs x out) : namable cs j (cmdField c 0x14 4) = true := h.handles _ (by simp [vecHandles])
theorem VecRun.second (h : VecRun r0 c e j cs x out) : cmdField c 0x0C 4 = 0 ∨ namable cs j (cmdField c 0x0C 4) = true :=
  optH_valid h.handles fun a ha => by simp [vecHandles, ha]
theorem VecRun.third (h : VecRun r0 c e j cs x out) : cmdField c 0x10 4 = 0 ∨ namable cs j (cmdField c 0x10 4) = true :=
  optH_valid h.handles fun a ha => by simp [vecHandles, ha]

/-- The part that the bodies share: the first source and the destination are named. -/
theorem VecRun.srcB (h : VecRun r0 c e j cs x out) {k : TDesc → M β} (hk : Tot (Calm r0 st) (k x) R) : Tot (Calm r0 st) (descM (cmdField c 8 4) >>= k) R :=
  tot_opDescB h.toBodyRun h.src (h.source ▸ hk)
theorem VecRun.dstB (h : VecRun r0 c e j cs x out) {k : TDesc → M β} (hk : Tot (Calm r0 st) (k out) R) : Tot (Calm r0 st) (descM (cmdField c 0x14 4) >>= k) R :=
  tot_opDescB h.toBodyRun h.dst (h.dest ▸ hk)

/-- The destination becomes the command's, and memory may change from there. -/
theorem VecRun.writerB (h : VecRun r0 c e j cs x out) {k : M β} (hk : Tot (Calm r0 true) k R) : Tot (Calm r0 true) (do vecShapes c out; writerM out; k) R :=
  tot_keepB h.keepShapes fun _ => tot_keepB (Keep.writerM _) fun _ => hk

theorem vecReduceBody_tot (h : VecRun r0 c e j cs x out) (hsrc : srcOk e x = true) (hext : out.ext = 1 :: x.ext.drop 1) (hch : x.chan ≤ 2 ^ 20) :
    Tot (· = r0) vecReduceBody fun _ r => r.w.status = 0 := by
  obtain ⟨hf, hn⟩ := readable_parts h.reads
  unfold vecReduceBody
  refine h.ends ?_
  rw [h.cmd, h.exe]
  refine h.srcB (h.dstB (tot_intsB (by simp [hn, writable_fmt h.writes]) (tot_needB (by simp [hsrc, writable_dst h.writes, hext]) ?_)))
  refine h.writerB (tot_keepB (Keep.readAll hf hn) fun rows => tot_toWrite ?_)
  exact tot_keepB (keep_writeOut h.writes _ _ _ _ _ _ _) fun _ => Keep.ite (fun hl => by simp at hl; omega) fun _ => Keep.pure _

theorem dequantiseBody_tot (h : VecRun r0 c e j cs x out) (hsrc : vecSrc e out.ext x = true) (hfmt : out.fmt ≤ 2) : Tot (· = r0) dequantiseBody fun _ r => r.w.status = 0 := by
  unfold dequantiseBody
  refine h.ends ?_
  rw [h.cmd, h.exe]
  refine h.srcB (h.dstB (tot_intsB (by simp [readable_fmt h.reads, writable_fmt h.writes]) (tot_needB (by simp [hsrc, writable_dst h.writes, hfmt]) ?_)))
  exact h.writerB (tot_keepB (keep_rowsSome h.reads) fun _ => tot_toWrite (keep_writeOut h.writes _ _ _ _ _ _ _))

theorem softmaxBody_tot (h : VecRun r0 c e j cs x out) (hsrc : vecSrc e out.ext x = true) (hch : out.chan ≤ 65536)
    (hy : ∀ y ∈ optOperand cs j (cmdField c 0x0C 4), readable y = true ∧ vecSrc e out.ext y = true) : Tot (· = r0) softmaxBody fun _ r => r.w.status = 0 := by
  unfold softmaxBody
  refine h.ends ?_
  rw [h.cmd, h.exe]
  refine h.srcB (tot_optDescB h.toBodyRun h.second (h.dstB ?_))
  generalize optOperand cs j (cmdField c 0x0C 4) = y at hy
  have hins : ∀ t ∈ x :: y.toList, readable t = true ∧ vecSrc e out.ext t = true := by
    simp only [List.mem_cons, Option.mem_toList]
    rintro t (rfl | ht)
    · exact ⟨h.reads, hsrc⟩
    · exact hy t ht
  refine tot_intsB (List.forall_mem_cons.mpr ⟨writable_fmt h.writes, fun t ht => readable_fmt (hins t ht).1⟩) (tot_needB ?_ ?_)
  · rw [Bool.and_eq_true, Bool.and_eq_true, List.all_eq_true]
    exact ⟨⟨writable_dst h.writes, fun t ht => (hins t ht).2⟩, by simpa using hch⟩
  · refine h.writerB (tot_keepB (keep_rowsSome h.reads) fun a => tot_keepB (Tot.rowsOr _ _ _ fun t ht => (hy t ht).1) fun b => tot_keepB (Keep.countM _ _) fun _ => ?_)
    exact tot_toWrite (keep_writeOut h.writes _ _ _ _ _ _ _)

theorem vecChainBody_tot (h : VecRun r0 c e j cs x out) {y z : TDesc} (hy : y = operandOf cs j (cmdField c 0x0C 4)) (hz : z = operandOf cs j (cmdField c 0x10 4))
    (hn1 : chainUses c 1 = true → namable cs j (cmdField c 0x0C 4) = true) (hn2 : chainUses c 2 = true → namable cs j (cmdField c 0x10 4) = true)
    (hsrc : vecSrc e out.ext x = true) (h1 : 1 ≤ cmdField c 0x38 1 % 16) (h8 : cmdField c 0x38 1 % 16 ≤ 8)
    (hyr : chainUses c 1 = true → readable y = true ∧ vecSrc e out.ext y = true) (hzr : chainUses c 2 = true → readable z = true ∧ vecSrc e out.ext z = true) :
    Tot (· = r0) vecChainBody fun _ r => r.w.status = 0 := by
  have rest : ∀ u v : Option TDesc, (∀ t ∈ u, readable t = true ∧ vecSrc e out.ext t = true) → (∀ t ∈ v, readable t = true ∧ vecSrc e out.ext t = true) →
      Tot (Calm r0 true) (do
        noInts (out :: x :: (u.toList ++ v.toList))
        need (decide (1 ≤ cmdField c 0x38 1 % 16) && decide (cmdField c 0x38 1 % 16 ≤ 8) && dstOk e out && (x :: (u.toList ++ v.toList)).all (vecSrc e out.ext)) stCmdInvalid
        vecShapes c out
        writerM out
        let a ← rowsOr (some x) out 0
        let b ← rowsOr u out 0
        let d ← rowsOr v out 0
        writeTensor out (zip3 (chainElem c) a b d) 0 0 0) fun _ => Calm r0 false := by
    intro u v hu hv
    have hins : ∀ t ∈ x :: (u.toList ++ v.toList), readable t = true ∧ vecSrc e out.ext t = true := by
      simp only [List.mem_cons, List.mem_append, Option.mem_toList]
      rintro t (rfl | ht | ht)
      · exact ⟨h.reads, hsrc⟩
      · exact hu t ht
      · exact hv t ht
    refine tot_intsB (List.forall_mem_cons.mpr ⟨writable_fmt h.writes, fun t ht => readable_fmt (hins t ht).1⟩) (tot_needB ?_ ?_)
    · simp only [Bool.and_eq_true, List.all_eq_true, decide_eq_true_eq]
      exact ⟨⟨⟨h1, h8⟩, writable_dst h.writes⟩, fun t ht => (hins t ht).2⟩
    · refine h.writerB (tot_keepB (keep_rowsSome h.reads) fun a => tot_keepB (Tot.rowsOr _ _ _ fun t ht => (hu t ht).1) fun b =>
        tot_keepB (Tot.rowsOr _ _ _ fun t ht => (hv t ht).1) fun d => tot_toWrite (keep_writeOut h.writes _ _ _ _ _ _ _))
  have third : ∀ u : Option TDesc, (∀ t ∈ u, readable t = true ∧ vecSrc e out.ext t = true) → Tot (Calm r0 true) (do
      let in2 ← if chainUses c 2 then some <$> descM (cmdField c 0x10 4) else pure none
      let out ← descM (cmdField c 0x14 4)
      noInts (out :: x :: (u.toList ++ in2.toList))
      need (decide (1 ≤ cmdField c 0x38 1 % 16) && decide (cmdField c 0x38 1 % 16 ≤ 8) && dstOk e out && (x :: (u.toList ++ in2.toList)).all (vecSrc e out.ext)) stCmdInvalid
      vecShapes c out
      writerM out
      let a ← rowsOr (some x) out 0
      let b ← rowsOr u out 0
      let d ← rowsOr in2 out 0
      writeTensor out (zip3 (chainElem c) a b d) 0 0 0) fun _ => Calm r0 false := by
    intro u hu
    cases h2 : chainUses c 2 with
    | true =>
      simp only [if_true]
      refine tot_descMapB h.job h.copies (hn2 h2) (h.dstB (rest u _ hu fun t ht => ?_))
      cases ht
      exact hz ▸ hzr h2
    | false => exact tot_none (h.dstB (rest u none hu (by simp)))
  unfold vecChainBody
  refine h.ends ?_
  rw [h.cmd, h.exe]
  refine h.srcB ?_
  cases h2 : chainUses c 1 with
  | true =>
    refine tot_descMapB h.job h.copies (hn1 h2) (third _ fun t ht => ?_)
    cases ht
    exact hy ▸ hyr h2
  | false => exact tot_none (third none (by simp))

theorem quantiseBody_tot (h : VecRun r0 c e j cs x out) (hv : ∀ k ∈ quantiseHandles c, namable cs j k = true) (hsrc : vecSrc e out.ext x = true)
    (hfix : cmdField c 0x18 1 = 1 → sext 8 (cmdField c 0x19 1) ≠ -128 ∧ (isGm16 out.fmt = true → -124 ≤ sext 8 (cmdField c 0x19 1)))
    (ham : ∀ y ∈ optOperand cs j (cmdField c 0x1C 4), writable e y = true ∧ scalarOk e y = true) : Tot (· = r0) quantiseBody fun _ r => r.w.status = 0 := by
  have h1C : cmdField c 0x1C 4 = 0 ∨ namable cs j (cmdField c 0x1C 4) = true := optH_valid hv fun a ha => by simp [quantiseHandles, ha]
  have hexp : (!(cmdField c 0x18 1 == 1) || (sext 8 (cmdField c 0x19 1) != -128 && (!isGm16 out.fmt || decide (-124 ≤ sext 8 (cmdField c 0x19 1))))) = true := by
    by_cases h18 : cmdField c 0x18 1 = 1
    · obtain ⟨hn, hg⟩ := hfix h18
      cases hgm : isGm16 out.fmt with
      | true => simp [hn, hg hgm]
      | false => simp [hn]
    · simp [h18]
  unfold quantiseBody
  refine h.ends ?_
  rw [h.cmd, h.exe]
  refine h.srcB (h.dstB (tot_optDescB h.toBodyRun h1C ?_))
  refine tot_intsB (by simp [readable_fmt h.reads, writable_fmt h.writes]) ?_
  cases hst : optOperand cs j (cmdField c 0x1C 4) with
  | none =>
    refine tot_needB (by rw [writable_dst h.writes, hsrc, hexp]; rfl) (h.writerB (tot_keepB (keep_rowsSome h.reads) fun a => tot_toWrite ?_))
    exact tot_keepB (keep_writeOut h.writes _ _ _ _ _ _ _) fun _ => Keep.pure _
  | some t =>
    obtain ⟨hw, hsc⟩ := ham t hst
    refine tot_needB (by rw [writable_dst h.writes, hsrc, hexp]; exact hsc)
      (h.writerB (tot_keepB (Keep.writerM t) fun _ => tot_keepB (keep_rowsSome h.reads) fun a => tot_toWrite ?_))
    exact tot_keepB (keep_writeOut h.writes _ _ _ _ _ _ _) fun _ => keep_writeOut hw _ _ _ _ _ _ _

theorem dropoutBody_tot (h : VecRun r0 c e j cs x out) (hv : ∀ k ∈ statHandles c, namable cs j k = true) (hsrc : vecSrc e out.ext x = true)
    (hmk : ∀ y ∈ optOperand cs j (cmdField c 0x20 4), y.tier = 0 ∧ dstOk e y = true ∧ y.fmt = 0x1B ∧ y.rows = out.rows ∧ y.chan = (out.chan + 7) / 8) :
    Tot (· = r0) dropoutBody fun _ r => r.w.status = 0 := by
  have h20 : cmdField c 0x20 4 = 0 ∨ namable cs j (cmdField c 0x20 4) = true := optH_valid hv fun a ha => by simp [statHandles, ha]
  unfold dropoutBody
  refine h.ends ?_
  rw [h.cmd, h.exe]
  refine h.srcB (h.dstB (tot_optDescB h.toBodyRun h20 (tot_intsB (by simp [readable_fmt h.reads, writable_fmt h.writes]) ?_)))
  cases hst : optOperand cs j (cmdField c 0x20 4) with
  | none =>
    refine tot_needB (by simp [writable_dst h.writes, hsrc]) (h.writerB (tot_keepB (keep_rowsSome h.reads) fun a => tot_toWrite ?_))
    exact tot_keepB (keep_writeOut h.writes _ _ _ _ _ _ _) fun _ => Keep.pure _
  | some t =>
    obtain ⟨ht, hd, hf, hrows, hchan⟩ := hmk t hst
    refine tot_needB (by simp [writable_dst h.writes, hsrc, hd, hf, hrows, hchan])
      (h.writerB (tot_keepB (Keep.writerM t) fun _ => tot_keepB (keep_rowsSome h.reads) fun a => tot_toWrite ?_))
    exact tot_keepB (keep_writeOut h.writes _ _ _ _ _ _ _) fun _ => Keep.forEach _ _ fun _ _ => Keep.forEach _ _ fun _ _ => Keep.writeBits _ _ _ ht

/-- The statistics tensor of NORM, where one is named (R147). -/
theorem normBody_tot (h : VecRun r0 c e j cs x out) (hv : ∀ k ∈ statHandles c, namable cs j k = true) (hsrc : vecSrc e out.ext x = true) (hch : out.chan ≤ 65536)
    (hfin : f32IsFinite (cmdField c 0x1C 4) = true) (hneg : fltb (cmdField c 0x1C 4) 0 = false)
    (hg : ∀ y ∈ optOperand cs j (cmdField c 0x0C 4), readable y = true ∧ vecSrc e out.ext y = true)
    (hb : cmdField c 0x18 1 ≠ 1 → ∀ y ∈ optOperand cs j (cmdField c 0x10 4), readable y = true ∧ vecSrc e out.ext y = true)
    (hst : ∀ y ∈ optOperand cs j (cmdField c 0x20 4), writable e y = true ∧ y.fmt = 0 ∧ y.ext = 2 :: out.ext.drop 1) :
    Tot (· = r0) normBody fun _ r => r.w.status = 0 := by
  have h20 : cmdField c 0x20 4 = 0 ∨ namable cs j (cmdField c 0x20 4) = true := optH_valid hv fun a ha => by simp [statHandles, ha]
  have hb' : ∀ y ∈ if cmdField c 0x18 1 == 1 then none else optOperand cs j (cmdField c 0x10 4), readable y = true ∧ vecSrc e out.ext y = true := by
    by_cases h18 : cmdField c 0x18 1 = 1
    · simp [h18]
    · simpa [h18] using hb h18
  have hbias : ∀ k : Option TDesc → M Unit, Tot (Calm r0 true) (k (if cmdField c 0x18 1 == 1 then none else optOperand cs j (cmdField c 0x10 4))) (fun _ => Calm r0 false) →
      Tot (Calm r0 true) (if cmdField c 0x18 1 == 1 then pure none >>= k else descOpt (cmdField c 0x10 4) >>= k) fun _ => Calm r0 false := by
    intro k hk
    by_cases h18 : (cmdField c 0x18 1 == 1) = true
    · rw [if_pos h18] at hk ⊢
      exact tot_none hk
    · rw [if_neg h18] at hk ⊢
      exact tot_optDescB h.toBodyRun h.third hk
  unfold normBody
  refine h.ends ?_
  rw [h.cmd, h.exe]
  refine h.srcB (tot_optDescB h.toBodyRun h.second (hbias _ (h.dstB (tot_optDescB h.toBodyRun h20 ?_))))
  generalize (if cmdField c 0x18 1 == 1 then none else optOperand cs j (cmdField c 0x10 4)) = b at hb'
  generalize optOperand cs j (cmdField c 0x0C 4) = g at hg
  have hins : ∀ t ∈ x :: (g.toList ++ b.toList), readable t = true ∧ vecSrc e out.ext t = true := by
    simp only [List.mem_cons, List.mem_append, Option.mem_toList]
    rintro t (rfl | ht | ht)
    · exact ⟨h.reads, hsrc⟩
    · exact hg t ht
    · exact hb' t ht
  have hall : (x :: (g.toList ++ b.toList)).all (vecSrc e out.ext) = true := List.all_eq_true.mpr fun t ht => (hins t ht).2
  refine tot_intsB (List.forall_mem_cons.mpr ⟨writable_fmt h.writes, fun t ht => readable_fmt (hins t ht).1⟩) ?_
  cases hs : optOperand cs j (cmdField c 0x20 4) with
  | none =>
    refine tot_needB (by rw [writable_dst h.writes, hall, hfin, hneg]; simpa using hch) (h.writerB (tot_keepB (keep_rowsSome h.reads) fun _ =>
      tot_keepB (Tot.rowsOr _ _ _ fun t ht => (hg t ht).1) fun _ => tot_keepB (Tot.rowsOr _ _ _ fun t ht => (hb' t ht).1) fun _ => tot_toWrite ?_))
    exact tot_keepB (keep_writeOut h.writes _ _ _ _ _ _ _) fun _ => Keep.pure _
  | some t =>
    obtain ⟨hw, hf, hext⟩ := hst t hs
    refine tot_needB (by rw [writable_dst h.writes, hall, hfin, hneg]; simp [hch, writable_dst hw, hf, hext]) (h.writerB (tot_keepB (Keep.writerM t) fun _ =>
      tot_keepB (keep_rowsSome h.reads) fun _ => tot_keepB (Tot.rowsOr _ _ _ fun t ht => (hg t ht).1) fun _ =>
      tot_keepB (Tot.rowsOr _ _ _ fun t ht => (hb' t ht).1) fun _ => tot_toWrite ?_))
    exact tot_keepB (keep_writeOut h.writes _ _ _ _ _ _ _) fun _ => keep_writeOut hw _ _ _ _ _ _ _

end

/-- Settles O54: each vector command, by its body. -/
theorem vectorCommandsComplete : Obligations.VectorCommandsComplete := by
  unfold Obligations.VectorCommandsComplete
  intro q c s s1 cs j e x out hn hcs hj he hx hout hr hw hshape
  have run : ∀ {resv handles r0}, Starts s q c resv handles s1 → (∀ k ∈ vecHandles c, k ∈ handles c) → BodyRun r0 c e j cs → VecRun r0 c e j cs x out := by
    intro resv handles r0 hs hl hb
    refine ⟨hb, fun k hk => ?_, hx, hout, hr, hw, hshape⟩
    rw [hcs, hj]
    exact handles_valid hs k (hl k hk)
  have valid : ∀ {resv handles}, Starts s q c resv handles s1 → ∀ k ∈ handles c, namable cs j k = true := by
    intro resv handles hs
    rw [hcs, hj]
    exact handles_valid hs
  refine ⟨fun y z hy hz hs hsrc h1 h8 hyr hzr => completes_of_body rfl hs hn hcs hj he fun r0 _ hb => ?_,
    fun hs hsrc hext hch => completes_of_body rfl hs hn hcs hj he fun r0 _ hb => vecReduceBody_tot (run hs (fun _ h => h) hb) hsrc hext hch,
    fun hs hsrc hch hy => completes_of_body rfl hs hn hcs hj he fun r0 _ hb => softmaxBody_tot (run hs (fun _ h => h) hb) hsrc hch hy,
    fun hs hsrc hch hfin hneg hg hbias hst => completes_of_body rfl hs hn hcs hj he fun r0 _ hb =>
      normBody_tot (run hs (fun _ h => by simp [statHandles, h]) hb) (valid hs) hsrc hch hfin hneg hg hbias hst,
    fun hs hsrc hmk => completes_of_body rfl hs hn hcs hj he fun r0 _ hb => dropoutBody_tot (run hs (fun _ h => by simp [statHandles, h]) hb) (valid hs) hsrc hmk,
    fun hs hsrc hfix ham => completes_of_body rfl hs hn hcs hj he fun r0 _ hb =>
      quantiseBody_tot (run hs (fun _ h => by simp [quantiseHandles, h]) hb) (valid hs) hsrc hfix ham,
    fun hs hsrc hfmt => completes_of_body rfl hs hn hcs hj he fun r0 _ hb => dequantiseBody_tot (run hs (fun _ h => h) hb) hsrc hfmt⟩
  have used : ∀ k, k < 2 → chainUses c (k + 1) = true → namable cs j (cmdField c (0x0C + 4 * k) 4) = true := fun k hk hu =>
    valid hs _ (List.mem_append.mpr (.inr (List.mem_map.mpr ⟨k, List.mem_filter.mpr ⟨List.mem_range.mpr hk, hu⟩, rfl⟩)))
  exact vecChainBody_tot (run hs (fun _ h => List.mem_append.mpr (.inl h)) hb) hy hz (used 0 (by decide)) (used 1 (by decide)) hsrc h1 h8 hyr hzr

end Sys2Proof.Machine
end

section
/-! The commands of the matrix arrays (O52). -/

namespace Sys2Proof.Machine

/-! ### The commands of the matrix arrays (O52) -/

section
variable {r0 : Run} {c : Cmd} {e : Exe} {j : Job} {cs : List (BitVec 32 × Desc × BitVec 8)} {β : Type} {R : β → Run → Prop} {st : Bool} {x : TDesc} {a : Nat}

theorem BodyRun.arrayB (h : BodyRun r0 c e j cs) (ha : e.array? = some a) {k : Nat → M β} (hk : Tot (Calm r0 st) (k a) R) : Tot (Calm r0 st) (arrayM >>= k) R :=
  tot_arrayB (h.exe.symm ▸ ha) hk

/-- LOAD_STAT of a dense tile (R93). -/
theorem loadStatBody_tot (h : BodyRun r0 c e j cs) (ha : e.array? = some a) (hv : namable cs j (cmdField c 8 4) = true) (hx : x = operandOf cs j (cmdField c 8 4))
    (hr : readable x = true) (hsrc : srcOk e x = true) (hl : x.layout = 1) (hf : arrayFmt x.fmt = true) (hform : cmdField c 0x16 1 = 0)
    (hko : cmdField c 0x0C 4 % 32 = 0) (hno : cmdField c 0x10 4 % 4 = 0) (hk1 : 1 ≤ cmdField c 0x14 1) (hk2 : cmdField c 0x14 1 ≤ 64) (hn1 : 1 ≤ cmdField c 0x15 1)
    (hn2 : cmdField c 0x15 1 ≤ 64) (hch : cmdField c 0x0C 4 + cmdField c 0x14 1 ≤ x.chan) (hrows : cmdField c 0x10 4 + cmdField c 0x15 1 ≤ x.rows) :
    Tot (· = r0) (loadStatBody none) fun _ r => r.w.status = 0 := by
  unfold loadStatBody
  refine h.ends ?_
  rw [h.cmd, h.exe]
  refine h.arrayB ha (tot_opDescB h hv ?_)
  rw [← hx, hform]
  simp only [if_true]
  refine tot_needB ?_ (tot_needB ?_ ?_)
  · simp [hsrc, hf, rowLayout, hl, hko, hno, hk1, hk2, hn1, hn2]
  · simp [hch, hrows]
  · refine tot_keepB (keep_leaveTile _ _) fun _ => (tot_loadDense (readable_parts hr).1 _ _ _ _).bind fun l => Tot.given fun hl => ?_
    rw [hl]
    refine tot_none (tot_toWrite ?_)
    exact tot_keepB Keep.getS fun s => tot_keepB (keep_mapStarted _ _ fun _ => ⟨rfl, rfl, rfl⟩) fun _ => tot_keepB (keep_modArray _ _) fun _ => Keep.pure _

/-- A tile's product adds at most 128 terms to a row that starts from zero, so no sum is long (R131). -/
def ShortRow (o : OutRow × Bool × Nat) : Prop := o.2.2 ≤ 128

theorem updateM_short (set : AccSet) (t : Tile) (i k : Nat) {j : Job} {mode tid inc : Nat} {sums : List Nat} (hinc : inc ≤ 128) :
    Tot (Calm r0 st) (updateM a set t true false i k (updateRow j a mode tid inc set k sums)) fun o r => ShortRow o ∧ Calm r0 st r := by
  have hterms : ∀ y, tget 0 (updateRow j a mode tid inc set k sums (zeroRow set k y)).terms k ≤ 128 := fun y => by
    have h1 := terms_updateRow j a mode tid inc set k sums (zeroRow set k y)
    rw [terms_zeroRow] at h1
    omega
  unfold updateM
  refine tot_keepB (Keep.getS) fun s => ?_
  refine (tot_modArray (p := fun y => tget 0 y.terms k ≤ 128) a _ fun y => ?_).bind fun _ => ?_
  · exact hterms y
  · refine (tot_getS (p := fun s => tget 0 (s.array a).terms k ≤ 128) fun r hr => hr.1).bind fun s => Tot.given fun hs => ?_
    refine Tot.conseq (P := Calm r0 st) (Tot.pure _ fun r hr => ⟨?_, hr⟩) (fun r hr => hr.2) fun _ _ h => h
    exact hs

/-- Rows of such sums raise no LONG_SUM. -/
theorem short_sums {γ : Type} {parts : List (List (OutRow × Bool × Nat) × γ)} {mode : Nat} (h : ∀ p ∈ parts, ∀ o ∈ p.1, ShortRow o) :
    ((parts.flatMap (·.1)).any fun o => decide (o.2.2 > longLimit mode)) = false := by
  refine List.any_eq_false.mpr fun o ho => ?_
  obtain ⟨p, hp, ho⟩ := List.mem_flatMap.mp ho
  have h128 : o.2.2 ≤ 128 := h p hp o ho
  have hlim : 2 ^ 20 ≤ longLimit mode := by
    unfold longLimit
    split <;> decide
  simp only [decide_eq_true_eq]
  omega

/-- A step that a body may leave out. -/
theorem tot_whenB {p : Prop} [Decidable p] {m : M Unit} {rest : M β} (hm : Keep r0 st m) (hk : Tot (Calm r0 st) rest R) :
    Tot (Calm r0 st) (if p then m >>= fun _ => rest else rest) R := tot_ite (fun _ => tot_keepB hm fun _ => hk) fun _ => hk

/-- A product that starts its rows from zero and does not drain (R96). -/
theorem productBody_tot (h : BodyRun r0 c e j cs) (tr : Bool) {t : Tile} (ha : e.array? = some a) (hv : namable cs j (cmdField c 8 4) = true)
    (hx : x = operandOf cs j (cmdField c 8 4)) (ht : (r0.s.array a).tile = some t) (hke : t.kExt ≤ 128) (hne : t.nExt ≤ 128) (hr : readable x = true)
    (hout : cmdField c 0x0C 4 = 0) (hmap : cmdField c 0x14 4 = 0) (hfeed : bits (cmdField c 0x2C 1) 6 2 = 0) (hzero : bits (cmdField c 0x2C 1) 4 2 = 1)
    (hlast : (cmdField c 0x2C 1).testBit 3 = false) (hrej : productRejected r0 tr (r0.s.array a) t x none none = false)
    (hrows : cmdField c 0x18 4 + cmdField c 0x1C 4 ≤ x.rows) : Tot (· = r0) (productBody tr none) fun _ r => r.w.status = 0 := by
  have hnone : ∀ n, n = 0 → optOperand cs j n = none := fun n hn => if_pos hn
  have hinc : max 64 (if tr = true then t.nExt else t.kExt) ≤ 128 := by split <;> omega
  unfold productBody
  refine h.ends ?_
  rw [h.cmd]
  refine h.arrayB ha (tot_opDescB h hv (tot_optDescB h (.inl hout) (tot_optDescB h (.inl hmap) ?_)))
  rw [hnone _ hout, hnone _ hmap, ← hx]
  dsimp only
  rw [ht]
  dsimp only
  rw [hlast, hfeed, hzero]
  refine tot_needB (by rw [hrej]; rfl) (tot_none (tot_needB ?_ ?_))
  · simp [productInside, hrows]
  · refine tot_keepB Keep.jobM fun j' => tot_keepB Keep.getS fun s => ?_
    refine tot_whenB (Keep.modW _ fun _ => ⟨rfl, rfl⟩) ?_
    refine (Tot.mapEachP (p := fun y => ∀ o ∈ y.1, ShortRow o) _ _ fun is _ => ?_).bind fun parts => Tot.given fun hparts => ?_
    · refine tot_keepB (Keep.mapEach _ _ fun i _ => ?_) fun vs => tot_keepB (keep_modArray _ _) fun _ => tot_keepB Keep.getS fun s' => tot_keepB (keep_modArray _ _) fun _ => ?_
      · exact tot_keepB (keep_fetchRow hr _ _ _) fun _ => Keep.pure _
      · refine (Tot.mapEachP _ _ fun o _ => updateM_short _ _ _ _ hinc).bind fun out => Tot.given fun hout => Tot.pure _ fun r hr => ⟨hout, hr⟩
    · refine Tot.conseq (Q := fun _ => Calm r0 true) ?_ (fun _ hr => hr) fun _ _ hr => hr.weaken
      simp only [Option.isSome_none, Bool.false_eq_true, if_false, OfNat.zero_ne_ofNat]
      rw [short_sums hparts]
      exact Keep.pure _

/-- The accumulator row i that PRELOAD_ACC writes with values v (R127). -/
def preloadRow (c : Cmd) (set : AccSet) (i : Nat) (v : List Nat) (x : ArrayState) : ArrayState :=
  let k := (cmdField c 0x18 1 + i) % racc set
  let src := bits (cmdField c 0x19 1) 6 2
  let terms := if src = 0 then 0 else if src = 1 then 64 else cmdField c 0x14 4
  makeRes { writeAcc x set k v with
    terms := tput k terms x.terms, ordinal := tput k ((terms + 63) / 64) x.ordinal
    zeroStart := tput k false x.zeroStart, tag := tput k (0, 0) x.tag } set k

/-- PRELOAD_ACC writes whole rows of the accumulators (R127). -/
theorem preloadBody_tot (h : BodyRun r0 c e j cs) {set : AccSet} (ha : e.array? = some a) (hset : set = ((cmdField c 0x19 1).testBit 5, (cmdField c 0x19 1).testBit 4))
    (hv : bits (cmdField c 0x19 1) 6 2 ≠ 0 → namable cs j (cmdField c 8 4) = true) (hx : x = operandOf cs j (cmdField c 8 4)) (ho : otherSet (r0.s.array a) set = false)
    (hwide : set.2 = true → set.1 = true) (hn1 : 1 ≤ cmdField c 0x1A 2) (hn2 : cmdField c 0x1A 2 ≤ racc set) (ha0 : cmdField c 0x18 1 < racc set)
    (hsrc : bits (cmdField c 0x19 1) 6 2 ≠ 0 → readable x = true ∧ srcOk e x = true ∧ x.layout = 1 ∧ cmdField c 0x10 4 + setWidth set ≤ x.chan ∧
      (bits (cmdField c 0x19 1) 6 2 = 1 → x.fmt = 0) ∧ (bits (cmdField c 0x19 1) 6 2 ≠ 1 → cmdField c 0x0C 4 + cmdField c 0x1A 2 ≤ x.rows)) :
    Tot (· = r0) preloadBody fun _ r => r.w.status = 0 := by
  unfold preloadBody
  refine h.ends ?_
  rw [h.cmd, h.exe]
  refine h.arrayB ha ?_
  dsimp only
  rw [← hset]
  have hset2 : ((cmdField c 0x19 1).testBit 5 || !(cmdField c 0x19 1).testBit 4) = true := by
    rw [hset] at hwide
    cases h4 : (cmdField c 0x19 1).testBit 4 with
    | false => rw [Bool.not_false, Bool.or_true]
    | true => rw [show (cmdField c 0x19 1).testBit 5 = true from hwide h4, Bool.true_or]
  by_cases h0 : bits (cmdField c 0x19 1) 6 2 = 0
  · rw [if_pos h0]
    refine tot_none (tot_needB ?_ (tot_keepB (Keep.pure _) fun bias => tot_toWrite ?_))
    · rw [ho, hset2, decide_eq_true hn1, decide_eq_true hn2, decide_eq_true ha0]
      rfl
    exact Keep.forEach _ _ fun i _ => tot_keepB (Keep.pure _) fun _ => keep_modArray _ _
  · obtain ⟨hr, hs, hl, hch, hf1, hrows⟩ := hsrc h0
    obtain ⟨hflat, hfmt⟩ := readable_parts hr
    rw [if_neg h0]
    refine tot_descMapB h.job h.copies (hv h0) ?_
    rw [← hx]
    have hkind : (if bits (cmdField c 0x19 1) 6 2 = 1 then x.fmt == 0 else !isIntFmt x.fmt) = true := by
      split
      · next h1 => simp [hf1 h1]
      · simp [not_int_of_fmt hfmt]
    have hin : (decide (cmdField c 0x10 4 + setWidth set ≤ x.chan) && (bits (cmdField c 0x19 1) 6 2 == 1 || decide (cmdField c 0x0C 4 + cmdField c 0x1A 2 ≤ x.rows))) = true := by
      by_cases h1 : bits (cmdField c 0x19 1) 6 2 = 1
      · simp [hch, h1]
      · simp [hch, hrows h1]
    have vals : ∀ (i : Nat) (bias : List Nat), Keep r0 false (if bits (cmdField c 0x19 1) 6 2 = 2 then do
          let v ← readRow x (cmdField c 0x0C 4 + i) (cmdField c 0x10 4) (setWidth set)
          modArray a (preloadRow c set i v)
        else modArray a (preloadRow c set i bias)) := fun i bias =>
      tot_ite (fun _ => tot_keepB (Keep.readRow hflat hfmt _ _ _) fun _ => keep_modArray _ _) fun _ => keep_modArray _ _
    refine tot_needB ?_ (tot_needB hin (tot_ite (fun _ => tot_keepB (Keep.readRow hflat hfmt _ _ _) fun bias => tot_toWrite ?_) fun _ => tot_toWrite ?_))
    · rw [ho, hset2, decide_eq_true hn1, decide_eq_true hn2, decide_eq_true ha0]
      dsimp only
      rw [hs, hkind, arrayLayout, hl]
      rfl
    · exact Keep.forEach _ _ fun i _ => vals i bias
    · exact Keep.forEach _ _ fun i _ => vals i []

/-- A raw DRAIN of resident rows (R129). -/
theorem drainBody_tot (h : BodyRun r0 c e j cs) {set : AccSet} (ha : e.array? = some a) (hv : namable cs j (cmdField c 8 4) = true) (hx : x = operandOf cs j (cmdField c 8 4))
    (hraw : cmdField c 0x1C 1 = 1) (hset : (r0.s.array a).set = some set) (hn1 : 1 ≤ cmdField c 0x1A 2) (hn2 : cmdField c 0x1A 2 ≤ racc set) (ha0 : cmdField c 0x18 1 < racc set)
    (hres : ∀ k, k < cmdField c 0x1A 2 → isRes (r0.s.array a) ((cmdField c 0x18 1 + k) % racc set) = true) (hd : outDescOk e x = true) (ht : x.tier = 0) (hf : x.fmt = 0)
    (ho : x.oobFault = false ∨ setWidth set ≤ outCols x (cmdField c 0x14 4) (setWidth set) ∧ cmdField c 0x10 4 + cmdField c 0x1A 2 ≤ x.rows) :
    Tot (· = r0) drainBody fun _ r => r.w.status = 0 := by
  have hall : ((List.range (cmdField c 0x1A 2)).map fun i => (cmdField c 0x18 1 + i) % racc set).all (isRes (r0.s.array a)) = true := by
    simpa using hres
  unfold drainBody
  refine h.ends ?_
  rw [h.cmd, h.exe]
  refine h.arrayB ha (tot_opDescB h hv ?_)
  rw [← hx, hraw]
  dsimp only
  rw [hset]
  dsimp only
  refine tot_needB ?_ (tot_none (tot_keepB (Keep.writerM _) fun _ => tot_keepB (Keep.modW _ fun _ => ⟨rfl, rfl⟩) fun _ => tot_keepB (keep_modArray _ _) fun _ => tot_toWrite ?_))
  · rw [hall, hd, hf]
    simp [hn1, hn2, ha0]
  · refine keep_drainRaw ht (by rw [hf]; rfl) _ _ _ _ (ho.imp_right fun ⟨h1, h2⟩ => ⟨h1, fun o hm => ?_⟩)
    obtain ⟨p, hp, rfl⟩ := List.mem_map.mp hm
    have := List.snd_lt_of_mem_zipIdx hp
    simp only [List.length_map, List.length_range] at this
    simp only
    omega

end

/-- A mode byte whose high half is 1 feeds dense rows from zero. -/
theorem feed_zero {m : Nat} (h : bits m 4 4 = 1) : bits m 6 2 = 0 ∧ bits m 4 2 = 1 := by
  simp only [bits] at h ⊢
  omega

/-- A product that does not drain names no destination (R96). -/
theorem noDrain_handles {r : Run} {tr : Bool} {y : ArrayState} {t : Tile} {x : TDesc} {out bmap : Option TDesc} (h : productRejected r tr y t x out bmap = false)
    (hl : (cmdField r.c 0x2C 1).testBit 3 = false) : cmdField r.c 0x0C 4 = 0 ∧ cmdField r.c 0x10 4 = 0 := by
  unfold productRejected at h
  simp only [hl, Bool.or_eq_false_iff, Bool.not_false, Bool.true_and, bne_eq_false_iff_eq] at h
  obtain ⟨⟨⟨⟨⟨⟨⟨⟨-, h9⟩, -⟩, -⟩, -⟩, -⟩, -⟩, -⟩, -⟩ := h
  exact h9

/-- A product without a bitmap feed names no bitmap. -/
theorem bitmap_zero {c : Cmd} (h : productOk c = true) (hf : bits (cmdField c 0x2C 1) 6 2 = 0) : cmdField c 0x14 4 = 0 := by
  unfold productOk at h
  simp only [hf, Bool.and_eq_true, Bool.or_eq_true] at h
  obtain ⟨-, h2⟩ := h
  have hz : zeroBytes c 0x14 4 = true := h2.resolve_left (by decide)
  simpa [zeroBytes] using hz

/-- Settles O52: each array command, by its body. -/
theorem arrayCommandsComplete : Obligations.ArrayCommandsComplete := by
  unfold Obligations.ArrayCommandsComplete
  intro q c s s1 cs j e x a hn hcs hj he ha hx
  have valid : ∀ {resv handles}, Starts s q c resv handles s1 → ∀ k ∈ handles c, namable cs j k = true := by
    intro resv handles hs
    rw [hcs, hj]
    exact handles_valid hs
  refine ⟨fun hs hr hsrc hl hf hform hko hno hk1 hk2 hn1 hn2 hch hrows => completes_of_body rfl hs hn hcs hj he fun r0 _ hb =>
      loadStatBody_tot hb ha (valid hs _ (by simp [loadStatHandles])) hx hr hsrc hl hf hform hko hno hk1 hk2 hn1 hn2 hch hrows,
    fun tr i t hi hs ht hke hne hr hfeed hlast hrej hrows => ?_,
    fun set hs hset ho hwide hn1 hn2 ha0 hsrc => completes_of_body rfl hs hn hcs hj he fun r0 h0 hb => preloadBody_tot hb ha hset ?_ hx (by rw [h0]; exact ho) hwide hn1 hn2 ha0 hsrc,
    fun set hs hraw hset hn1 hn2 ha0 hres hd ht hf ho => completes_of_body rfl hs hn hcs hj he fun r0 h0 hb =>
      drainBody_tot hb ha (valid hs _ (by simp [drainHandles])) hx hraw (by rw [h0]; exact hset) hn1 hn2 ha0 (by rw [h0]; exact hres) hd ht hf ho⟩
  · have hexec : exec i s = startCmd q c productOk productHandles (productBody tr none) s := by
      obtain ⟨rfl, rfl⟩ | ⟨rfl, rfl⟩ := hi <;> rfl
    refine completes_of_body hexec hs hn hcs hj he fun r0 h0 hb => ?_
    have hr0 : productRejected r0 tr (r0.s.array a) t x none none = false := by rw [h0]; exact hrej
    obtain ⟨hfeed0, hzero⟩ := feed_zero hfeed
    obtain ⟨hout, -⟩ := noDrain_handles hr0 (hb.cmd ▸ hlast)
    rw [hb.cmd] at hout
    exact productBody_tot hb tr ha (valid hs _ (by simp [productHandles])) hx (by rw [h0]; exact ht) hke hne hr hout (bitmap_zero (resv_of_starts hs) hfeed0) hfeed0 hzero hlast hr0 hrows
  · intro h0
    exact valid hs _ (by simp [preloadHandles, h0])

end Sys2Proof.Machine
end

section
/-! The commands of the DMA and gather engines (O58). -/

namespace Sys2Proof.Machine

/-! ### The commands of the DMA and gather engines (O58) -/

section
variable {r0 : Run} {o : DmaOps} {c : Cmd} {e : Exe} {j : Job} {cs : List (BitVec 32 × Desc × BitVec 8)} {β : Type} {R : β → Run → Prop} {st : Bool}

/-- A body that first only reads the run: what it works out from it keeps the run calm. -/
theorem BodyRun.looks (h : BodyRun r0 c e j cs) {m : M Unit} (hk : Tot (Calm r0 true) m fun _ => Calm r0 false) : Tot (· = r0) m fun _ r => r.w.status = 0 :=
  Keep.done (r0 := r0) (st := false) (tot_at h.calm hk)

theorem BodyRun.descE (h : BodyRun r0 c e j cs) {n : Nat} {t : TDesc} (ht : t = operandOf cs j n) (hv : namable cs j n = true) {k : TDesc → M β} (hk : Tot (· = r0) (k t) R) :
    Tot (· = r0) (descM n >>= k) R := by
  obtain ⟨-, -, -, rfl, rfl⟩ := h
  subst ht
  exact tot_bindE (reads_descM hv) hk

theorem BodyRun.optDescE (h : BodyRun r0 c e j cs) {n : Nat} {t : Option TDesc} (ht : t = optOperand cs j n) (hv : n = 0 ∨ namable cs j n = true) {k : Option TDesc → M β}
    (hk : Tot (· = r0) (k t) R) : Tot (· = r0) (descOpt n >>= k) R := by
  obtain ⟨-, -, -, rfl, rfl⟩ := h
  subst ht
  exact tot_bindE (reads_descOpt hv) hk

/-- A command's semaphore, absent or of the module and live, is accepted (R361). -/
theorem tot_semE {n : Nat} (h : n = 0xFFFFFFFF ∨ semCheck r0.s r0.f n = stOk) {k : M β} (hk : Tot (· = r0) k R) :
    Tot (· = r0) (if (n != 0xFFFFFFFF) = true then semM n >>= fun _ => k else k) R :=
  tot_ite (fun hn => tot_bindE (reads_semM (h.resolve_left (by simpa using hn))) hk) fun _ => hk

/-- GATHER and SCATTER of tensors in near memory (R289). -/
theorem gatherBody_tot (h : BodyRun r0 c e j cs) (sc : Bool) {o : GOps} (hm : Movable o) (hs : o.src = operandOf cs j (cmdField c 8 4)) (hd : o.dst = operandOf cs j (cmdField c 0x0C 4))
    (hsv : namable cs j (cmdField c 8 4) = true) (hdv : namable cs j (cmdField c 0x0C 4) = true) (hen : (o.side sc).idxEn = true)
    (hiv : namable cs j (o.side sc).indexH = true) (hi : o.idx = operandOf cs j (o.side sc).indexH) (hok : gatherOk c e sc o = true)
    (hin : cmdField c 0x10 4 + cmdField c 0x14 4 ≤ o.idx.count) (hext : ∀ n ∈ (o.side sc).ext, 0 < n) (hoob : sc = true → o.dst.oobFault = false)
    (hsem : cmdField c 0x18 4 = 0xFFFFFFFF ∨ semCheck r0.s r0.f (cmdField c 0x18 4) = stOk) (hpre : (cmdField c 0x20 1).testBit 6 = false) :
    Tot (· = r0) (gatherBody sc false) fun _ r => r.w.status = 0 := by
  obtain ⟨a, b, i⟩ := o
  have hside : (if sc then b.indexH else a.indexH) = (GOps.side ⟨a, b, i⟩ sc).indexH := by cases sc <;> rfl
  have hsideEn : (if sc then b.idxEn else a.idxEn) = (GOps.side ⟨a, b, i⟩ sc).idxEn := by cases sc <;> rfl
  unfold gatherBody
  refine tot_getE ?_
  rw [h.cmd, h.exe]
  refine h.descE hs hsv (h.descE hd hdv (tot_needB ?_ (h.descE ?_ ?_ (tot_needB hok ?_))))
  · rw [hsideEn, hen]
  · rw [hside]; exact hi
  · rw [hside]; exact hiv
  have hpair : (!pairOk a b) = false := by rw [hm.pair]; rfl
  dsimp only
  rw [hpair, hpre]
  simp only [Bool.false_eq_true, if_false, Bool.not_false, if_true]
  refine tot_needB (by simpa using ⟨hin, hext⟩) (tot_semE hsem (h.looks ?_))
  have hai : a.tier = 0 := (flat_parts hm.src).1
  refine tot_keepB (keep_setSem _ _) fun _ => tot_keepB (Keep.writerM _) fun _ =>
    tot_keepB (keep_runAhead (flat_parts hm.idx).1) fun _ => tot_keepB (keep_runAhead hai) fun _ => tot_toWrite ?_
  refine tot_ite (fun hsc => Keep.forEach _ _ fun p _ => keep_scatterAt hm (hoob hsc) _ _ _) fun _ => ?_
  refine tot_ite (fun hb => Keep.forEach _ _ fun p _ => keep_gatherBlock hm ?_ _ _ _) fun _ => Keep.forEach _ _ fun p _ => keep_gatherAt hm _ _ _
  simp only [Bool.and_eq_true, bne_iff_ne] at hb
  exact hb.2

/-- An operand of a move can be moved element by element: it lies in near memory, in a format of integers or of numbers. -/
def Moves (t : TDesc) : Prop := flat t = true ∧ (isIntFmt t.fmt = true ∨ (fmtOf t.fmt).isSome = true)

theorem Moves.near {t : TDesc} (h : Moves t) : t.tier = 0 := (flat_parts h.1).1

theorem Moves.reads {t : TDesc} (h : Moves t) (hn : isIntFmt t.fmt = false) : readable t = true := by
  have hf : (fmtOf t.fmt).isSome = true := h.2.resolve_left (by simp [hn])
  simp [readable, h.1, hf]

/-- Of a pair of which one operand is of numbers both are (R345). -/
theorem pair_numbers {s d : TDesc} (h : pairOk s d = true) : isIntFmt s.fmt = isIntFmt d.fmt := by
  simp only [pairOk, Bool.or_eq_true, beq_iff_eq, Bool.and_eq_true, Bool.not_eq_true'] at h
  rcases h with h | ⟨h1, h2⟩
  · rw [h]
  · rw [h1, h2]

theorem dmaOk_pair {o : DmaOps} {s d : TDesc} (h : dmaOk c e o = true) (hs : o.src = some s) (hd : o.dst = some d) (hop : (opByte c).toNat = 0x50 ∨ (opByte c).toNat = 0x53) :
    pairOk s d = true := by
  unfold dmaOk at h
  rw [hs, hd] at h
  rcases hop with hop | hop <;> rw [hop] at h <;> simp only [Bool.and_eq_true] at h <;> tauto

theorem dmaUnits_keep {z : State} {o : DmaOps} (hz : z.poison = []) (hok : dmaOk c e o = true) (hm : ∀ t ∈ o.src.toList ++ o.dst.toList, Moves t) :
    ∀ u ∈ dmaUnits z c o none, Keep r0 false u.act := by
  obtain ⟨src, dst, stat⟩ := o
  unfold dmaUnits
  dsimp only
  split
  case h_1 d hop =>
    have hd : Moves d := hm d (by simp)
    exact elemUnits_keep fun x first => tot_keepB (keep_storeCode hd.near _ _ _) fun _ => Keep.pure _
  case h_2 b _ _ _ a hop =>
    have ha : Moves a := hm a (by simp)
    refine elemUnits_keep fun x first => tot_keepB (keep_codeAt ha.1 _) fun u => ?_
    cases b with
    | none => exact Keep.pure _
    | some t => exact tot_keepB (keep_codeAt (hm t (by simp)).1 _) fun _ => Keep.pure _
  case h_3 s d hop =>
    have hs : Moves s := hm s (by simp)
    have hd : Moves d := hm d (by simp)
    have hp : pairOk s d = true := dmaOk_pair hok rfl rfl (.inl hop)
    have code : ∀ x, Keep r0 false (asOf z (codeAt s x)) := fun x => keep_asOf hz (keep_codeAt hs.1 x)
    have value : ¬ isIntFmt s.fmt = true → ∀ b x, Keep r0 false (asOf z (valueAt s none b x)) := fun hn b x =>
      keep_asOf hz (keep_valueAt (hs.reads (by simpa using hn)) none b x)
    rw [not_tiled hs.1, if_neg Bool.false_ne_true]
    split
    · refine elemUnits_keep fun x first => ?_
      split
      · exact tot_keepB (code _) fun u => tot_keepB (Keep.pure u.1) fun _ => tot_keepB (keep_addAt hd.near _ _) fun _ => Keep.pure _
      · next hn => exact tot_keepB (value hn _ _) fun _ => tot_keepB (keep_addAt hd.near _ _) fun _ => Keep.pure _
    · split
      · exact elemUnits_keep fun x first => tot_keepB (code _) fun _ => tot_keepB (keep_storeCode hd.near _ _ _) fun _ => Keep.pure _
      · next hne =>
        have hn : isIntFmt s.fmt = false ∧ isIntFmt d.fmt = false := by simpa [pairOk, hne] using hp
        exact pieceUnits_keep hd.near (readable_fmt (hd.reads hn.2)) fun x b => value (by simp [hn.1]) _ _
  case h_4 s d hop =>
    have hs : Moves s := hm s (by simp)
    have hd : Moves d := hm d (by simp)
    have hp : pairOk s d = true := dmaOk_pair hok rfl rfl (.inr hop)
    rw [not_tiled hd.1, if_neg Bool.false_ne_true]
    split
    · exact elemUnits_keep fun x first => tot_keepB (keep_asOf hz (keep_codeAt hs.1 _)) fun _ => tot_keepB (keep_storeCode hd.near _ _ _) fun _ => Keep.pure _
    · next hn =>
      have hdn : isIntFmt d.fmt = false := by simpa using hn
      have hsn : isIntFmt s.fmt = false := (pair_numbers hp).trans hdn
      exact pieceUnits_keep hd.near (readable_fmt (hd.reads hdn)) fun x b => keep_asOf hz (keep_valueAt (hs.reads hsn) none _ _)
  case h_5 => simp

/-- A tensor that is not stored in slots has no mask record (R190). -/
theorem reads_sourceMask {t : TDesc} (h : flat t = true) (first n : Nat) : Reads (sourceMask t first n) r0 none := by
  unfold sourceMask
  rw [not_tiled h]
  rfl

/-- A move: its operands and what R342, R345 and R289 ask of them. -/
structure MoveRun (r0 : Run) (c : Cmd) (e : Exe) (j : Job) (cs : List (BitVec 32 × Desc × BitVec 8)) (o : DmaOps) : Prop extends BodyRun r0 c e j cs where
  ops : o = ⟨optOperand cs j (cmdField c 8 4), optOperand cs j (cmdField c 0x0C 4), optOperand cs j (cmdField c 0x20 4)⟩
  handles : ∀ k ∈ dmaHandles c, namable cs j k = true
  ok : dmaOk c e o = true
  inside : cmdField c 0x2C 4 = 0 ∨ selInside o.src (cmdField c 0x24 4) (cmdField c 0x2C 4) = true ∧ selInside o.dst (cmdField c 0x28 4) (cmdField c 0x2C 4) = true
  moves : ∀ t ∈ o.src.toList ++ o.dst.toList, Moves t
  sem : cmdField c 0x18 4 = 0xFFFFFFFF ∨ semCheck r0.s r0.f (cmdField c 0x18 4) = stOk
  noPrefetch : (cmdField c 0x30 1).testBit 7 = false

theorem MoveRun.src (h : MoveRun r0 c e j cs o) {k : Option TDesc → M β} (hk : Tot (· = r0) (k o.src) R) : Tot (· = r0) (descOpt (cmdField c 8 4) >>= k) R :=
  h.optDescE (by rw [h.ops]) (optH_valid h.handles fun a ha => by simp [dmaHandles, ha]) hk
theorem MoveRun.dst (h : MoveRun r0 c e j cs o) {k : Option TDesc → M β} (hk : Tot (· = r0) (k o.dst) R) : Tot (· = r0) (descOpt (cmdField c 0x0C 4) >>= k) R :=
  h.optDescE (by rw [h.ops]) (optH_valid h.handles fun a ha => by simp [dmaHandles, ha]) hk
theorem MoveRun.stat (h : MoveRun r0 c e j cs o) {k : Option TDesc → M β} (hk : Tot (· = r0) (k o.stat) R) : Tot (· = r0) (descOpt (cmdField c 0x20 4) >>= k) R :=
  h.optDescE (by rw [h.ops]) (optH_valid h.handles fun a ha => by simp [dmaHandles, ha]) hk

theorem MoveRun.sel (h : MoveRun r0 c e j cs o) : (cmdField c 0x2C 4 == 0 || (selInside o.src (cmdField c 0x24 4) (cmdField c 0x2C 4) && selInside o.dst (cmdField c 0x28 4) (cmdField c 0x2C 4))) = true := by
  rcases h.inside with h0 | ⟨h1, h2⟩
  · rw [h0]; rfl
  · rw [h1, h2, Bool.and_self, Bool.or_true]

/-- The units of a move run to their end. -/
theorem MoveRun.unitsB (h : MoveRun r0 c e j cs o) (stat : Option TDesc) {l : List TDesc} (hl : ∀ t ∈ l, t ∈ o.src.toList ++ o.dst.toList)
    {k : State → List Nat × List DUnit × Option Stop → M Unit} {R : Unit → Run → Prop} (hk : ∀ z l rest, Tot (Calm r0 false) (k z (l, rest, none)) R) :
    Tot (Calm r0 true) (do writerOpt stat; forEach l runAheadM; let z ← getS; runUnits (dmaUnits z c o none) >>= k z) R :=
  tot_keepB (Keep.writerOpt _) fun _ => tot_keepB (Keep.forEach _ _ fun t ht => keep_runAhead (h.moves t (hl t ht)).near) fun _ =>
    tot_freshUnits (fun _ hz => dmaUnits_keep hz h.ok h.moves) hk

/-- What a move notes at its end: only its record's own fields for bursts, status block and result. -/
theorem tot_noteMove {b : Burst} {p : Bool} {stat : Started → Option (Nat × List Nat × List Byte)} {l : List Burst} :
    Tot (Calm r0 false) (modW (fun w => let w1 := stoppedAt { w with stat := stat w, bursts := l } b; if p then { w1 with opspec := w.opspec } else w1) >>= fun _ => pure ())
      fun _ => Calm r0 false :=
  tot_keepB (Keep.modW _ (fun w => by dsimp only; split <;> exact ⟨rfl, rfl⟩) fun w => by dsimp only; split <;> rfl) fun _ => Keep.pure _

/-- A check buffer that is free does not hold the head (R342). -/
theorem tot_bufferE {core : Nat} (h : bufferHeld r0.s core = false) {m k : M β} (hk : Tot (· = r0) k R) :
    Tot (· = r0) (getS >>= fun z => if bufferHeld z core = true then m else k) R :=
  tot_bindE (a := r0.s) rfl (by rw [h]; exact hk)

theorem fillBody_tot {d : TDesc} {stat : Option TDesc} (h : MoveRun r0 c e j cs ⟨none, some d, stat⟩) (hop : (opByte c).toNat = 0x51) : Tot (· = r0) (dmaBody false) fun _ r => r.w.status = 0 := by
  unfold dmaBody
  refine tot_getE ?_
  rw [h.cmd, h.exe]
  refine h.src (h.dst (h.stat (tot_needB h.ok (tot_needB h.sel ?_))))
  simp only [hop, Bool.not_false, Bool.true_and, if_true, pure_bind, Nat.reduceBNe]
  refine tot_semE h.sem ?_
  split
  · next heq => exact absurd heq (by decide)
  · refine h.looks (tot_keepB (keep_setSem _ _) fun _ => tot_keepB (Keep.writerOpt _) fun _ => h.unitsB _ (by simp) fun z l rest => tot_noteMove)

theorem compareBody_tot {a : TDesc} {b : Option TDesc} {stat : Option TDesc} (h : MoveRun r0 c e j cs ⟨some a, b, stat⟩) (hop : (opByte c).toNat = 0x52)
    (hbuf : ∀ core, e.core? = some core → bufferHeld r0.s core = false) : Tot (· = r0) (dmaBody false) fun _ r => r.w.status = 0 := by
  have ends : ∀ l : List TDesc, (∀ t ∈ l, t ∈ [a] ++ b.toList) → ∀ k : State → List Nat × List DUnit × Option Stop → M Unit,
      (∀ z x rest, Tot (Calm r0 false) (k z (x, rest, none)) fun _ => Calm r0 false) → Tot (Calm r0 true) (do
        setSem (cmdField c 0x18 4) (cmdField c 0x1C 4); writerOpt stat; forEach l runAheadM; let z ← getS; runUnits (dmaUnits z c ⟨some a, b, stat⟩ none) >>= k z) fun _ => Calm r0 false :=
    fun l hl k hk => tot_keepB (keep_setSem _ _) fun _ => h.unitsB _ hl hk
  unfold dmaBody
  refine tot_getE ?_
  rw [h.cmd, h.exe]
  refine h.src (h.dst (h.stat (tot_needB h.ok (tot_needB h.sel ?_))))
  cases b with
  | none =>
    simp only [hop, Bool.not_false, Bool.true_and, if_true, pure_bind, bne_self_eq_false, Bool.false_eq_true, if_false]
    refine tot_semE h.sem ?_
    split
    · next core _ hcore _ => exact tot_bufferE (hbuf _ hcore) (h.looks (tot_keepB (Keep.modW _ fun _ => ⟨rfl, rfl⟩) fun _ => ends _ (by simp) _ fun z l rest => tot_noteMove))
    · exact h.looks (ends _ (by simp) _ fun z l rest => tot_noteMove)
  | some d =>
    simp only [hop, h.noPrefetch, Bool.not_false, Bool.true_and, if_true, pure_bind, bne_self_eq_false, Bool.false_eq_true, if_false]
    refine tot_semE h.sem ?_
    split
    · next core _ hcore _ => exact tot_bufferE (hbuf _ hcore) (h.looks (tot_keepB (Keep.modW _ fun _ => ⟨rfl, rfl⟩) fun _ => ends _ (by simp) _ fun z l rest => tot_noteMove))
    · exact h.looks (ends _ (by simp) _ fun z l rest => tot_noteMove)

theorem copyBody_tot {s d : TDesc} {stat : Option TDesc} (h : MoveRun r0 c e j cs ⟨some s, some d, stat⟩) (hop : (opByte c).toNat = 0x50) :
    Tot (· = r0) (dmaBody false) fun _ r => r.w.status = 0 := by
  unfold dmaBody
  refine tot_getE ?_
  rw [h.cmd, h.exe]
  refine h.src (h.dst (h.stat (tot_needB h.ok (tot_needB h.sel ?_))))
  simp only [hop, h.noPrefetch, Bool.not_false, Bool.true_and, if_true, pure_bind, Nat.reduceBNe, Bool.false_eq_true, if_false]
  refine tot_semE h.sem ?_
  split
  · next heq => exact absurd heq (by decide)
  · refine h.looks (tot_keepB (keep_setSem _ _) fun _ => tot_keepB (Keep.writerOpt _) fun _ => h.unitsB _ (by simp) fun z l rest =>
      tot_keepB (keep_freeOverlap _ _ _ _) fun _ => tot_noteMove)

theorem transposeBody_tot {s d : TDesc} {stat : Option TDesc} (h : MoveRun r0 c e j cs ⟨some s, some d, stat⟩) (hop : (opByte c).toNat = 0x53) :
    Tot (· = r0) (dmaBody false) fun _ r => r.w.status = 0 := by
  have hs : Moves s := h.moves s (by simp)
  unfold dmaBody
  refine tot_getE ?_
  rw [h.cmd, h.exe]
  refine h.src (h.dst (h.stat (tot_needB h.ok (tot_needB h.sel ?_))))
  simp only [hop, h.noPrefetch, Bool.not_false, Bool.true_and, if_true, Nat.reduceBNe, Bool.false_eq_true, if_false]
  refine tot_semE h.sem (tot_bindE (reads_sourceMask hs.1 _ _) ?_)
  dsimp only
  split
  · next heq => exact absurd heq (by decide)
  · refine h.looks (tot_keepB (keep_setSem _ _) fun _ => tot_keepB (Keep.writerOpt _) fun _ => h.unitsB _ (by simp) fun z l rest =>
      tot_keepB (keep_freeOverlap _ _ _ _) fun _ => tot_noteMove)
end

/-- The operands that a move's opcode asks for (R342, R345). -/
theorem dmaOk_operands {c : Cmd} {e : Exe} {o : DmaOps} (h : dmaOk c e o = true) :
    (opByte c).toNat = 0x51 ∧ (∃ d, o.src = none ∧ o.dst = some d) ∨ (opByte c).toNat = 0x52 ∧ (∃ a, o.src = some a) ∨
    ((opByte c).toNat = 0x50 ∨ (opByte c).toNat = 0x53) ∧ ∃ s d, o.src = some s ∧ o.dst = some d := by
  unfold dmaOk at h
  rw [Bool.and_eq_true] at h
  obtain ⟨-, h⟩ := h
  split at h
  · next d hop hs hd => exact .inl ⟨hop, d, hs, hd⟩
  · next hop hs => exact .inr (.inl ⟨hop, _, hs⟩)
  · next s d hop hs hd => exact .inr (.inr ⟨.inl hop, s, d, hs, hd⟩)
  · next s d hop hs hd => exact .inr (.inr ⟨.inr hop, s, d, hs, hd⟩)
  · cases h

theorem dmaBody_tot {r0 : Run} {c : Cmd} {e : Exe} {j : Job} {cs : List (BitVec 32 × Desc × BitVec 8)} {o : DmaOps} (h : MoveRun r0 c e j cs o)
    (hbuf : ∀ core, e.core? = some core → opByte c = 0x52 → bufferHeld r0.s core = false) : Tot (· = r0) (dmaBody false) fun _ r => r.w.status = 0 := by
  have hop52 : (opByte c).toNat = 0x52 → opByte c = 0x52 := fun h => BitVec.eq_of_toNat_eq h
  have hcases := dmaOk_operands h.ok
  obtain ⟨src, dst, stat⟩ := o
  rcases hcases with ⟨hop, d, rfl, rfl⟩ | ⟨hop, a, rfl⟩ | ⟨hop | hop, s, d, rfl, rfl⟩
  · exact fillBody_tot h hop
  · exact compareBody_tot h hop fun core hc => hbuf core hc (hop52 hop)
  · exact copyBody_tot h hop
  · exact transposeBody_tot h hop

/-- Settles O58: from a calm run each body ends, its reads and stores of near memory meeting nothing that stops them. -/
theorem moveCommandsComplete : Obligations.MoveCommandsComplete := by
  unfold Obligations.MoveCommandsComplete
  constructor
  · intro q c s s1 cs j e o i hn hcs hj he hi hs ho hok hsel hm hsem hpre hbuf
    have hv := handles_valid hs
    rw [← hcs, ← hj] at hv
    have hexec : exec i s = startCmd q c dmaReserved dmaHandles (dmaBody false) s := by
      simp only [List.mem_cons, Prod.mk.injEq, List.not_mem_nil, or_false] at hi
      rcases hi with ⟨rfl, -⟩ | ⟨rfl, -⟩ | ⟨rfl, -⟩ | ⟨rfl, -⟩ <;> rfl
    refine completes_of_body hexec hs hn hcs hj he fun r0 h0 hb => ?_
    refine dmaBody_tot ⟨hb, ho, hv, hok, hsel, hm, by rw [h0]; exact hsem, hpre⟩ ?_
    rw [h0]
    exact hbuf
  · intro q c s s1 cs j e o sc i hn hcs hj he hi hs ho1 ho2 hen hiv hidx hok hpair hin hext hflat hfmt hoob hsem hpre
    have hv := handles_valid hs
    rw [← hcs, ← hj] at hv
    have hm : Movable o := ⟨hflat _ (by simp), hflat _ (by simp), hflat _ (by simp), hfmt _ (by simp), hfmt _ (by simp), hpair⟩
    have hexec : exec i s = startCmd q c gatherReserved gatherHandles (gatherBody sc false) s := by
      rcases hi with ⟨rfl, rfl⟩ | ⟨rfl, rfl⟩ <;> rfl
    refine completes_of_body hexec hs hn hcs hj he fun r0 h0 hb => ?_
    exact gatherBody_tot hb sc hm ho1 ho2 (hv _ (by simp [gatherHandles])) (hv _ (by simp [gatherHandles])) hen hiv hidx hok hin hext hoob (by rw [h0]; exact hsem) hpre

end Sys2Proof.Machine
end

section
/-! Reduction and training commands (O60). -/

namespace Sys2Proof.Machine

/-! ### Reduction and training commands (O60) -/

/-! A bucket that is accepted changes no context and no queue before its chain is launched. -/

theorem stay_setSem (a b : Nat) : PlacesStay (setSem a b) := .modW _

theorem stay_descM (h : Nat) : PlacesStay (descM h) := by
  unfold descM
  refine .got fun r => ?_
  dsimp only
  split
  · exact .pure _
  · refine .ite (stay_stopAt ..) ?_
    split
    · exact .pure _
    · exact stay_stopAt ..

theorem stay_writerM (t : TDesc) : PlacesStay (writerM t) :=
  .ite (PlacesStay.bind (.modS _ fun s => Prod.ext (genStart_ctxs s _) (genStart_queues s _)) fun _ => .modW _) (.pure _)

theorem stay_bump (a b c n : Nat) : PlacesStay (modS fun s => bump s a b c n) := .modS _ fun _ => Prod.ext (bump_ctxs ..) (bump_queues ..)

section
variable {r0 : Run} {c : Cmd} {e : Exe} {j : Job} {cs : List (BitVec 32 × Desc × BitVec 8)} {β : Type} {R : β → Run → Prop} {st : Bool}

/-- A run that is calm, its contexts and queues as they were. -/
def Held (r0 : Run) (st : Bool) (r : Run) : Prop := Calm r0 st r ∧ r.s.places = r0.s.places

/-- What keeps the run calm and changes no context or queue holds it. -/
theorem tot_held {α : Type} {m : M α} (h : Keep r0 st m) (hs : PlacesStay m) : Tot (Held r0 st) m fun _ => Held r0 st := by
  rintro r ⟨hc, hp⟩
  obtain ⟨a, r', e, hq⟩ := h r hc
  have hp' := hs.same r
  rw [e] at hp'
  exact ⟨a, r', e, hq, hp'.trans hp⟩

theorem tot_heldB {α : Type} {m : M α} {k : α → M β} (h : Keep r0 st m) (hs : PlacesStay m) (hk : ∀ a, Tot (Held r0 st) (k a) R) : Tot (Held r0 st) (m >>= k) R :=
  Tot.bind (tot_held h hs) hk

theorem tot_heldDescB (hb : BodyRun r0 c e j cs) {n : Nat} {k : TDesc → M β} (hv : namable cs j n = true) (hk : Tot (Held r0 st) (k (operandOf cs j n)) R) :
    Tot (Held r0 st) (descM n >>= k) R := by
  refine Tot.bind (Q := fun t r => t = operandOf cs j n ∧ Held r0 st r) ?_ fun t => Tot.given ?_
  · rintro r ⟨hc, hp⟩
    obtain ⟨a, r', e, hq⟩ := tot_opDescB hb (k := fun t => (pure t : M TDesc)) (R := fun t r => t = operandOf cs j n ∧ Calm r0 st r) hv (Tot.pure _ fun _ h => ⟨rfl, h⟩) r hc
    have hp' := (stay_descM n).same r
    rw [bind_pure] at e
    rw [e] at hp'
    exact ⟨a, r', e, hq.1, hq.2, hp'.trans hp⟩
  · rintro rfl
    exact hk

/-- Adding a bucket to its accumulator changes no context and no queue. -/
theorem held_accumulate (hb : BodyRun r0 c e j cs) (h1 : namable cs j (cmdField c 8 4) = true) (h2 : namable cs j (cmdField c 0x10 4) = true)
    (h3 : readable (operandOf cs j (cmdField c 8 4)) = true) (h4 : readable (operandOf cs j (cmdField c 0x10 4)) = true) :
    Tot (Held r0 true) accumulate fun _ => Held r0 false := by
  obtain ⟨h3f, h3n⟩ := readable_parts h3
  obtain ⟨h4f, h4n⟩ := readable_parts h4
  unfold accumulate
  refine Tot.got fun x hx => tot_at (P := Held r0 true) hx ?_
  rw [hx.1.cmd, hb.cmd]
  refine tot_heldDescB hb h1 (tot_heldDescB hb h2 ?_)
  refine tot_heldB (Keep.readRow h3f h3n _ _ _) (stay_readRow h3f ..) fun v => tot_heldB (Keep.readRow h4f h4n _ _ _) (stay_readRow h4f ..) fun old => ?_
  have store : ∀ l p, Tot (Held r0 true) (do
      putCodes (operandOf cs j (cmdField c 0x10 4)) 0 0 l 0
      modW fun w => { w with done := true, opspec := p }
      match x.exe with
      | .re d n _ => modS fun s => bump s 9 (2 * d + n) 2 1
      | _ => Pure.pure ()) fun _ => Held r0 false := fun l p => by
    refine Tot.conseq (P := Held r0 false) ?_ (fun r hr => ⟨hr.1.weaken, hr.2⟩) fun _ _ h => h
    refine tot_heldB (Keep.putCodes (flat_parts h4f).1 _ _ _ _) (stay_putCodes (flat_parts h4f).1 ..) fun _ => tot_heldB (Keep.modW _ fun _ => ⟨rfl, rfl⟩) (.modW _) fun _ => ?_
    split
    · exact tot_held (keep_bump _ _ _ _) (stay_bump ..)
    · exact Tot.pure _ fun _ h => h
  exact tot_ite (fun _ => tot_heldB keep_noteEvidence stay_noteEvidence fun _ => store _ _) fun _ => store _ _

theorem Tot.both {α : Type} {P : Run → Prop} {m : M α} {Q1 Q2 : α → Run → Prop} (h1 : Tot P m Q1) (h2 : Tot P m Q2) : Tot P m fun a r => Q1 a r ∧ Q2 a r := by
  intro r hr
  obtain ⟨a, r1, e1, q1⟩ := h1 r hr
  obtain ⟨b, r2, e2, q2⟩ := h2 r hr
  cases e1.symm.trans e2
  exact ⟨a, r1, e1, q1, q2⟩

/-- The operands of a RED_BUCKET that is accepted, in a context that is free (R446, R447). -/
structure BucketRun (r0 : Run) (c : Cmd) (e : Exe) (j : Job) (cs : List (BitVec 32 × Desc × BitVec 8)) (o : BucketOps) : Prop extends BodyRun r0 c e j cs where
  ops : o = ⟨operandOf cs j (cmdField c 8 4), operandOf cs j (cmdField c 0x0C 4), optOperand cs j (cmdField c 0x10 4), optOperand cs j (cmdField c 0x14 4)⟩
  handles : ∀ k ∈ bucketHandles c, namable cs j k = true
  ok : bucketOk c e j o = true
  sems : ∀ k ∈ [cmdField c 0x18 4, cmdField c 0x20 4], k = 0xFFFFFFFF ∨ semCheck r0.s r0.f k = stOk
  cur : (r0.s.ctx r0.q).cur = none
  round : (r0.s.ctx r0.q).round = none
  reshard : j.reshard = none
  verdict : ∀ v ∈ j.verdict, v.chain ≠ r0.q
  reads : sends c j.step = true ∨ readable o.src = true ∧ ∀ t ∈ o.acc, readable t = true

variable {o : BucketOps}

/-- A bucket that does not send has an accumulator (R446). -/
theorem BucketRun.acc (h : BucketRun r0 c e j cs o) (hs : ¬ sends c j.step = true) :
    namable cs j (cmdField c 0x10 4) = true ∧ readable (operandOf cs j (cmdField c 8 4)) = true ∧ readable (operandOf cs j (cmdField c 0x10 4)) = true := by
  have hn : bkN c ≠ 1 := fun hn => hs (by unfold sends; rw [hn]; simp [Nat.mod_one])
  have hacc : o.acc.isSome = true := by
    have := h.ok
    unfold bucketOk at this
    simp only [Bool.and_eq_true] at this
    obtain ⟨⟨⟨⟨⟨⟨-, hacc⟩, -⟩, -⟩, -⟩, -⟩, -⟩ := this
    rw [beq_iff_eq] at hacc
    rw [hacc]
    simpa using hn
  obtain ⟨h1, h2⟩ := h.reads.resolve_left hs
  have hops := h.ops
  have h0 : cmdField c 0x10 4 ≠ 0 := fun h0 => by rw [hops] at hacc; simp [optOperand, h0] at hacc
  refine ⟨h.handles _ (by simp [bucketHandles, optH, h0]), by rw [hops] at h1; exact h1, h2 _ ?_⟩
  rw [hops]
  exact if_neg h0

theorem bucketBody_tot (h : BucketRun r0 c e j cs o) : Tot (· = r0) bucketBody fun _ r => r.w.status = 0 ∧ r.w.idx = r0.w.idx ∧ r.w.done = !sends c j.step ∧ r.s.places = r0.s.places := by
  have hv := h.handles
  have hcur := h.cur
  have hround := h.round
  unfold bucketBody
  refine tot_getE ?_
  rw [h.cmd, h.exe, h.job]
  refine h.descE (t := o.src) (by rw [h.ops]) (hv _ (by simp [bucketHandles])) (h.descE (t := o.dst) (by rw [h.ops]) (hv _ (by simp [bucketHandles])) ?_)
  refine h.optDescE (t := o.acc) (by rw [h.ops]) (optH_valid hv fun a ha => by simp [bucketHandles, ha]) ?_
  refine h.optDescE (t := o.stats) (by rw [h.ops]) (optH_valid hv fun a ha => by simp [bucketHandles, ha]) (tot_needB h.ok ?_)
  dsimp only
  rw [hcur, hround, h.reshard]
  simp only [Option.isSome_none, Bool.or_self, Bool.false_or]
  refine tot_semE (h.sems _ (by simp)) (tot_semE (h.sems _ (by simp)) (tot_ite (fun hasked => ?_) fun _ => tot_at (P := Held r0 true) ⟨h.calm, rfl⟩ ?_))
  · split at hasked
    · next v hj => exact absurd (by simpa using hasked) (h.verdict v hj)
    · cases hasked
  refine tot_heldB (keep_setSem _ _) (stay_setSem ..) fun _ => tot_heldB (Keep.writerM _) (stay_writerM _) fun _ => tot_ite (fun hs => ?_) fun hs => ?_
  · rw [hs]
    refine Tot.bind (Q := fun _ r => r.w.status = 0 ∧ r.w.idx = r0.w.idx ∧ r.s.places = r0.s.places) ?_ fun _ => Tot.modify _ fun r hr => ⟨hr.1, hr.2.1, rfl, hr.2.2⟩
    exact Tot.bind (tot_held Keep.jobM (.got fun _ => .pure _)) fun _ => Tot.modify _ fun r hr => ⟨hr.1.status, hr.1.idx, hr.2⟩
  · obtain ⟨h1, h2, h3⟩ := h.acc hs
    have hs' : sends c j.step = false := by simpa using hs
    have hv1 : namable cs j (cmdField c 8 4) = true := hv _ (by simp [bucketHandles])
    rw [hs']
    obtain ⟨hb, -⟩ := h
    have hend : Tot (Calm r0 true) accumulate fun _ r => r.w.done = true ∧ Calm r0 false r := by
      obtain ⟨-, rfl, -, rfl, rfl⟩ := hb
      exact tot_accumulate rfl rfl hv1 h1 h2 h3
    refine ((hend.conseq (fun r hr => hr.1) fun _ _ h => h).both (held_accumulate hb hv1 h1 h2 h3)).conseq (fun _ h => h) fun _ r hr => ?_
    obtain ⟨⟨hd, hc⟩, -, hp⟩ := hr
    exact ⟨hc.status, hc.idx, hd, hp⟩

/-- A RED_BUCKET whose record is not complete has its chain launched, and one whose record is complete stays as it is. -/
theorem execRedBucket_started {q : QNum} {s : State} {r : Run} (hr : startCmd q c bucketReserved bucketHandles bucketBody s = .next (started q r))
    (hn : (r.s.queue q).next = (s.queue q).next) (hi : r.w.idx = (s.queue q).next) (hw : ∀ w ∈ (r.s.queue q).started, w.idx ≠ (s.queue q).next) :
    execRedBucket q c s = .next (if r.w.done = false then launchBucket (started q r) q (s.queue q).next c else started q r) := by
  obtain ⟨h1, h2⟩ := started_queue q r
  have hfind : ((started q r).queue q).started.find? (fun w => w.idx == (s.queue q).next) = some { r.w with phase := (r.s.queue q).phase } := by
    rw [h2, List.find?_append, List.find?_eq_none.mpr fun w hm => by simpa using hw w hm]
    simp [hi]
  have hne : (((started q r).queue q).next != (s.queue q).next) = true := by
    rw [h1, hn]
    generalize (s.queue q).next = n
    simp
  unfold execRedBucket
  rw [hr]
  dsimp only
  rw [hfind]
  dsimp only
  rw [hne]
  cases r.w.done <;> rfl


/-- RED_FLUSH of a context of its job (R448). -/
theorem flushBody_tot {d n k : Nat} {x : Queue} (hexe : r0.exe = .re d n k) (hx : x = r0.s.queue (ctxQueue d n (cmdField r0.c 8 1 % 64))) (hst : x.st ≠ .free)
    (hj : x.job.toNat = r0.job) : Tot (· = r0) flushBody fun _ r => r.w.status = r0.w.status := by
  have same : ∀ g : State → State, Tot (· = r0) (modS g) fun _ r => r.w.status = r0.w.status := fun g => Tot.modify _ fun r hr => by rw [hr]
  unfold flushBody
  refine tot_getE ?_
  rw [hexe]
  dsimp only
  rw [← hx]
  refine tot_needB (by simp [hst, hj]) ?_
  split
  · exact tot_ite (fun _ => same _) fun _ => same _
  · exact same _

theorem countClose_poison (s : State) (c : Closed) : (countClose s c).poison = s.poison := by
  unfold countClose
  simp only [bump_poison]
  split <;> split <;> simp only [bump_poison]

/-- A CLOSE that ends stores the loss scale and the report in near memory (R243, R244). -/
theorem finishClose_tot (h : BodyRun r0 c e j cs) (hv : ∀ k ∈ lossHandles c, namable cs j k = true)
    (hls : ∀ t ∈ optOperand cs j (cmdField c 0x10 4), nearDst e t = true ∧ t.fmt = 0 ∧ t.count = 2)
    (hrep : ∀ t ∈ optOperand cs j (cmdField c 0x14 4), nearDst e t = true ∧ reportOk t = true) (word : List Byte) (own : Bool) :
    Tot (Calm r0 true) (finishClose word own) fun _ r => r.w.status = 0 := by
  have near : ∀ t, nearDst e t = true → t.tier = 0 := fun t ht => by
    simp only [nearDst, Bool.and_eq_true, beq_iff_eq] at ht
    exact ht.1
  unfold finishClose
  refine Tot.got fun x hx => tot_at hx ?_
  rw [hx.cmd, h.cmd]
  refine tot_optDescB h (optH_valid hv fun a ha => by simp [lossHandles, ha]) (tot_optDescB h (optH_valid hv fun a ha => by simp [lossHandles, ha]) ?_)
  generalize optOperand cs j (cmdField c 0x10 4) = ls at hls
  generalize optOperand cs j (cmdField c 0x14 4) = rep at hrep
  refine Tot.bind (Q := fun _ r => r.s.poison = [] ∧ (∀ g, pendingWrites r.s r.q r.w.idx g = 0) ∧ r.w.status = 0) (Tot.modify _ fun r hr => ?_) fun _ => tot_rebase (fun _ h => h) fun r1 _ h1 => ?_
  · obtain ⟨h1, h2⟩ := hr.near
    exact ⟨(countClose_poison _ _).trans h1, fun g => (pendingWrites_congr (by simp) _ _ g).trans (h2 g), hr.status⟩
  have report : Tot (Calm r1 false) (do
      match rep with
      | some t => do
        let v := leNat (stepRecord (closeJob (x.s.job x.job) word) own)
        putCodes t 0 0 ((List.range t.chan).map fun i => bits v (i * t.width) t.width) 0
      | none => pure ()
      modW fun w => { w with opspec := (closeJob (x.s.job x.job) word).job.lastVerdict }) fun _ r => r.w.status = 0 := by
    have note : Tot (Calm r1 false) (modW fun w => { w with opspec := (closeJob (x.s.job x.job) word).job.lastVerdict }) fun _ r => r.w.status = 0 :=
      Keep.done (r0 := r1) (st := false) (Keep.modW _ fun _ => ⟨rfl, rfl⟩)
    cases rep with
    | none => exact note
    | some t => exact tot_keepB (Keep.putCodes (near t (hrep t rfl).1) _ _ _ _) fun _ => note
  cases ls with
  | none => exact tot_toWrite report
  | some t =>
    obtain ⟨ht, hf, -⟩ := hls t rfl
    exact tot_toWrite (tot_keepB (Keep.writeTensor (near t ht) (by rw [hf]; rfl) _ _ _ _ _ _ _) fun _ => report)

theorem optOk_of {p : TDesc → Bool} {x : Option TDesc} (h : ∀ t ∈ x, p t = true) : optOk p x = true := by
  cases x with
  | none => rfl
  | some t => exact h t rfl

/-- The operands of a CLOSE (R243, R244). -/
theorem closeBody_tot (h : BodyRun r0 c e j cs) (hv : ∀ k ∈ lossHandles c, namable cs j k = true) {axes : Nat} (hax : axes = cmdField c 9 1 % 16) (hver : j.verdict = none) (hcl : j.closed = false)
    (hp : ∀ a ∈ axesOf axes, 2 ≤ j.p.getD a 1) (hq : axes = 0 ∨ chainQueueOk r0.s (cmdField c 0x0C 4) r0.job = true)
    (hls : ∀ t ∈ optOperand cs j (cmdField c 0x10 4), nearDst e t = true ∧ t.fmt = 0 ∧ t.count = 2)
    (hrep : ∀ t ∈ optOperand cs j (cmdField c 0x14 4), nearDst e t = true ∧ reportOk t = true) : Tot (· = r0) closeBody fun _ r => r.w.status = 0 := by
  unfold closeBody
  refine tot_getE ?_
  rw [h.cmd, h.exe, h.job]
  refine h.optDescE rfl (optH_valid hv fun a ha => by simp [lossHandles, ha]) (h.optDescE rfl (optH_valid hv fun a ha => by simp [lossHandles, ha]) ?_)
  dsimp only
  rw [hver, ← hax]
  simp only [Option.isSome_none, Bool.false_eq_true, if_false]
  refine tot_needB ?_ (tot_at h.calm (tot_keepB (Keep.writerOpt _) fun _ => tot_keepB (Keep.writerOpt _) fun _ => tot_ite (fun h0 => ?_) fun h0 => ?_))
  · have ha : ((axesOf axes).all fun a => decide (2 ≤ j.p.getD a 1)) = true := List.all_eq_true.mpr fun a ha => decide_eq_true (hp a ha)
    have hb : (axes == 0 || chainQueueOk r0.s (cmdField c 0x0C 4) r0.job) = true := by
      rcases hq with h0 | h1
      · rw [h0]; rfl
      · rw [h1, Bool.or_true]
    have hc : optOk (fun t => nearDst e t && t.fmt == 0 && t.count == 2) (optOperand cs j (cmdField c 0x10 4)) = true := optOk_of fun t ht => by
      obtain ⟨h1, h2, h3⟩ := hls t ht
      simp [h1, h2, h3]
    have hd : optOk (fun t => nearDst e t && reportOk t) (optOperand cs j (cmdField c 0x14 4)) = true := optOk_of fun t ht => by
      obtain ⟨h1, h2⟩ := hrep t ht
      simp [h1, h2]
    rw [hcl, ha, hb, hc, hd]
    rfl
  · exact finishClose_tot h hv hls hrep _ _
  · refine Tot.bind (Q := fun _ r => r.w.status = 0) (Tot.bind Keep.jobM fun _ => Tot.modify _ fun r hr => hr.status) fun _ => ?_
    exact Tot.bind (Q := fun _ r => r.w.status = 0) (Tot.modify _ fun r hr => hr) fun _ => Tot.modify _ fun r hr => hr

/-- The operands of an OPT_UPDATE that is accepted (R240): what its body reads and stores lies in near memory, in formats of numbers. -/
structure OptRun (r0 : Run) (c : Cmd) (e : Exe) (j : Job) (cs : List (BitVec 32 × Desc × BitVec 8)) (o : OptOps) (h : Hyper) : Prop extends BodyRun r0 c e j cs where
  ops : o = ⟨operandOf cs j (cmdField c 8 4), operandOf cs j (cmdField c 0x0C 4), optOperand cs j (cmdField c 0x10 4), operandOf cs j (cmdField c 0x14 4),
      optOperand cs j (cmdField c 0x18 4), operandOf cs j (cmdField c 0x1C 4)⟩
  handles : ∀ k ∈ optHandles c, namable cs j k = true
  ok : optOps r0.s c e j o = true
  hyper : Reads (hyperM o.hyper) r0 (h, true)
  hyperOk : h.ok (bits (cmdField c 0x24 1) 6 2) = true
  workFmt : ∀ t ∈ o.work, (fmtOf t.fmt).isSome = true
  copy : ∀ t ∈ o.work, t.layout = 3 → (∃ x, Reads (readWork j t) r0 x) ∧ ∀ m ∈ tfind r0.s.masks t.tid, m.st = .idle ∧ ((cmdField c 0x24 1).testBit 5 = true → m.epoch.toNat = cmdField c 0x22 2)

/-- What the acceptance of an OPT_UPDATE says of its tensors (R240). -/
structure OptReadable (s : State) (c : Cmd) (o : OptOps) : Prop where
  master : readable o.master = true
  m1 : readable o.m1 = true
  m2 : ∀ t ∈ o.m2, readable t = true
  grad : readable o.grad = true
  work : ∀ t ∈ o.work, t.tier = 0 ∧ t.layout ≠ 2
  epoch : (cmdField c 0x24 1).testBit 5 = true → ∃ t, o.work = some t ∧ t.layout = 3 ∧ (tfind s.masks t.tid).isSome = true

theorem optOps_readable {s : State} {o : OptOps} (h : optOps s c e j o = true) : OptReadable s c o := by
  unfold optOps at h
  simp only [Bool.and_eq_true] at h
  obtain ⟨⟨⟨⟨⟨⟨⟨⟨⟨⟨⟨⟨⟨⟨⟨⟨⟨-, hd⟩, ht⟩, hf⟩, ⟨⟨hd1, ht1⟩, hf1⟩, -⟩, h2⟩, -⟩, hg⟩, htg⟩, hfg⟩, -⟩, -⟩, -⟩, -⟩, -⟩, -⟩, hw⟩, he⟩ := h
  simp only [Bool.not_eq_true', beq_iff_eq, Bool.or_eq_true] at ht ht1 htg hf hf1
  refine ⟨?_, ?_, fun t hm => ?_, ?_, fun t hm => ?_, fun hb => ?_⟩
  · have : (fmtOf o.master.fmt).isSome = true := by
      rw [hf]
      split <;> rfl
    simp [readable, near_flat hd ht, this]
  · have : (fmtOf o.m1.fmt).isSome = true := by rcases hf1 with h | h <;> rw [h] <;> rfl
    simp [readable, near_flat hd1 ht1, this]
  · rw [Option.mem_def.mp hm] at h2
    simp only [optOk, Bool.and_eq_true, Bool.not_eq_true', beq_iff_eq, Bool.or_eq_true] at h2
    obtain ⟨⟨⟨hd2, ht2⟩, hf2⟩, -⟩ := h2
    have : (fmtOf t.fmt).isSome = true := by rcases hf2 with h | h <;> rw [h] <;> rfl
    simp [readable, near_flat hd2 ht2, this]
  · have : (fmtOf o.grad.fmt).isSome = true := by
      simp only [List.contains_iff_mem, List.mem_cons, List.not_mem_nil, or_false] at hfg
      rcases hfg with h | h | h <;> rw [h] <;> rfl
    simp [readable, src_flat hg htg, this]
  · rw [Option.mem_def.mp hm] at hw
    simp only [optOk, Bool.and_eq_true, beq_iff_eq, bne_iff_ne] at hw
    obtain ⟨⟨⟨⟨⟨⟨h0, -⟩, -⟩, -⟩, hl⟩, -⟩, -⟩ := hw
    exact ⟨h0, hl⟩
  · rw [hb, Bool.not_true, Bool.false_or] at he
    split at he
    · next t hm =>
      simp only [Bool.and_eq_true, beq_iff_eq] at he
      exact ⟨t, hm, he.1, he.2⟩
    · cases he

variable {o : OptOps} {h : Hyper}

/-- The tiles of a working copy: read where it is stored in tiles, none where it is not. -/
def TilesOf (work : Option TDesc) (tiles : Option (TDesc × List WTile)) : Prop :=
  ∀ t ∈ work, (t.layout = 3 ∧ ∃ x, tiles = some x ∧ (fmtOf x.1.fmt).isSome = true) ∨ (t.layout ≠ 3 ∧ tiles = none)

theorem optBody_tot (hr : OptRun r0 c e j cs o h) : Tot (· = r0) optBody fun _ r => r.w.status = 0 := by
  have hv := hr.handles
  obtain ⟨hmaster, hm1, hm2, hgrad, hwork, hepoch⟩ := optOps_readable hr.ok
  unfold optBody
  refine tot_getE ?_
  rw [hr.cmd, hr.exe, hr.job]
  refine hr.descE (t := o.master) (by rw [hr.ops]) (hv _ (by simp [optHandles])) (hr.descE (t := o.m1) (by rw [hr.ops]) (hv _ (by simp [optHandles])) ?_)
  refine hr.optDescE (t := o.m2) (by rw [hr.ops]) (optH_valid hv fun a ha => by simp [optHandles, ha]) (hr.descE (t := o.grad) (by rw [hr.ops]) (hv _ (by simp [optHandles])) ?_)
  refine hr.optDescE (t := o.work) (by rw [hr.ops]) (optH_valid hv fun a ha => by simp [optHandles, ha]) (hr.descE (t := o.hyper) (by rw [hr.ops]) (hv _ (by simp [optHandles])) ?_)
  refine tot_needB hr.ok (tot_bindE hr.hyper (tot_needB hr.hyperOk ?_))
  have hwf := hr.workFmt
  have hcopy := hr.copy
  obtain ⟨hb, -⟩ := hr
  obtain ⟨master, m1, m2, grad, work, hyper⟩ := o
  refine Keep.done (r0 := r0) (st := false) (tot_at (P := CalmSame r0) ⟨rfl, hb.calm⟩ ?_)
  refine Tot.bind (Tot.writerSame _) fun _ => Tot.bind (Tot.writerSame _) fun _ => Tot.bind (Tot.writerOptSame _) fun _ => Tot.bind (Tot.writerOptSame _) fun _ => ?_
  refine tot_ite (fun _ => ?_) fun _ => ?_
  · refine Tot.conseq (P := Calm r0 true) (tot_keepB (keep_bump _ _ _ _) fun _ => tot_toWrite (Keep.modW _ fun _ => ⟨rfl, rfl⟩)) (fun r hr => hr.2) fun _ _ h => h
  extract_lets -underBinder update
  have hupdate : ∀ u, Tot (Calm r0 true) (update u) fun _ => Calm r0 false := fun u => by
    refine tot_keepB (keep_linear hmaster) fun ws => tot_keepB (keep_linear hm1) fun ms => ?_
    extract_lets -underBinder moments
    have hmoments : ∀ vs, Tot (Calm r0 true) (moments vs) fun _ => Calm r0 false := fun vs => by
      refine tot_keepB (keep_linear hgrad) fun gs => ?_
      extract_lets -underBinder store
      have hstore : ∀ tiles, TilesOf work tiles → Tot (Calm r0 false) (store tiles) fun _ => Calm r0 false := fun tiles htiles => by
        refine tot_keepB (Keep.countM _ _) fun _ => tot_keepB (keep_writeKept hm1 _ _ _) fun _ => ?_
        extract_lets -underBinder copy
        have hcopied : ∀ u, Tot (Calm r0 false) (copy u) fun _ => Calm r0 false := fun u => by
          refine tot_keepB (keep_writeKept hmaster _ _ _) fun _ => tot_keepB (keep_linear hmaster) fun now => ?_
          cases work with
          | none => exact Keep.pure _
          | some t =>
            obtain ⟨h0, hl2⟩ := hwork t rfl
            rcases htiles t rfl with ⟨h3, x, rfl, hx⟩ | ⟨h3, rfl⟩
            · exact Keep.forEach _ _ fun w _ => keep_writeWorkTile h0 (hwf t rfl) hx _ _
            · have hread : readable t = true := by simp [readable, flat, h0, hl2, h3, hwf t rfl]
              exact tot_keepB (keep_linearKept hread _) fun _ => keep_writeKept hread _ _ _
        clear_value copy
        cases m2 with
        | none => exact hcopied ()
        | some t => exact tot_keepB (keep_writeKept (hm2 t rfl) _ _ _) fun u => hcopied u
      clear_value store
      cases work with
      | none => exact (hstore none (by simp [TilesOf])).conseq (fun r hr => hr.weaken) fun _ _ h => h
      | some t =>
        refine tot_ite (fun h3 => ?_) fun h3 => ?_
        · obtain ⟨⟨x, hx⟩, -⟩ := hcopy t rfl h3
          exact tot_workB hb.calm (hwork t rfl).1 hx (hstore _ fun u hu => by cases hu; exact .inl ⟨h3, x, rfl, work_fmt hx (hwf t rfl)⟩)
        · exact (hstore none fun u hu => by cases hu; exact .inr ⟨h3, rfl⟩).conseq (fun r hr => hr.weaken) fun _ _ h => h
    clear_value moments
    cases m2 with
    | none => exact hmoments []
    | some t => exact tot_keepB (keep_linear (hm2 t rfl)) fun vs => hmoments vs
  have hstart : ∀ u, Tot (CalmSame r0) (update u) fun _ => Calm r0 false := fun u => (hupdate u).conseq (fun r hr => hr.2) fun _ _ h => h
  clear_value update
  cases work with
  | none => exact hstart ()
  | some t =>
    refine tot_ite (fun h3 => ?_) fun _ => hstart ()
    simp only [Bool.and_eq_true, decide_eq_true_eq] at h3
    obtain ⟨h3, hreg⟩ := h3
    obtain ⟨m, hm⟩ := Option.isSome_iff_exists.1 hreg
    obtain ⟨-, hmask⟩ := hcopy t rfl h3
    obtain ⟨hidle, hep⟩ := hmask m hm
    refine (Tot.idleSame hm hidle).bind fun x => Tot.given ?_
    rintro rfl
    refine tot_ite (fun hst => ?_) fun _ => tot_keepB (keep_refMask _) fun u => hupdate u
    simp only [Bool.and_eq_true, bne_iff_ne] at hst
    exact absurd (hep hst.1) hst.2
end

/-- Settles O60: the bodies end from a calm run, and a bucket that sends has its chain launched. -/
theorem reductionCommandsComplete : Obligations.ReductionCommandsComplete := by
  unfold Obligations.ReductionCommandsComplete
  refine ⟨?_, ?_, ?_, ?_⟩
  · intro q c s s1 cs j e o hn hcs hj he hs ho hok hsem hcur hround hre hver hw hr
    have hv := handles_valid hs
    rw [← hcs, ← hj] at hv
    have hcalm : Calm (headRun s1 q (s.queue q) c) true (headRun s1 q (s.queue q) c) :=
      ⟨hn.1, rfl, rfl, rfl, rfl, rfl, rfl, hn.2, rfl, rfl, ⟨_, _, rfl⟩, hn.2, fun _ => rfl, fun _ => rfl⟩
    have hb : BucketRun (headRun s1 q (s.queue q) c) c e j cs o :=
      { calm := hcalm, cmd := rfl, exe := he.symm, job := hj.symm, copies := hcs.symm, ops := ho, handles := hv, ok := hok, sems := hsem, cur := hcur, round := hround,
        reshard := hre, verdict := hver, reads := hr }
    obtain ⟨_, r, hr, hst, hi, hd, hp⟩ := bucketBody_tot hb _ rfl
    have hq : r.s.queue q = s1.queue q := queue_congr (congrArg Prod.snd hp) q
    refine ⟨r, hr, hst, ?_⟩
    refine (execRedBucket_started (start_ends hs hr) ?_ hi (by rw [hq]; exact hw)).trans ?_
    · rw [hq, queue_of_starts hs]
    · rw [hd]
      cases sends c j.step <;> rfl
  · intro q c s s1 x d n k hs he hx hst hj
    obtain ⟨_, r, hr, hd⟩ := flushBody_tot (r0 := headRun s1 q (s.queue q) c) he hx hst hj _ rfl
    exact ⟨r, hr, start_ends hs hr, hd⟩
  · intro q c s s1 cs j o h hn hcs hj hs ho hok hh hhok hwf hwork
    have hv := handles_valid hs
    rw [← hcs, ← hj] at hv
    refine completes_of_body rfl hs hn hcs hj rfl fun r0 h0 hb => ?_
    subst h0
    exact optBody_tot { toBodyRun := hb, ops := ho, handles := hv, ok := hok, hyper := hh, hyperOk := hhok, workFmt := hwf, copy := hwork }
  · intro q c s s1 cs j e axes hn hcs hj he hs hbit hax hver hcl hp hq hls hrep
    have hv := handles_valid hs
    rw [← hcs, ← hj] at hv
    have hexec : exec (.lossScaleCheck q c) s = startCmd q c lossReserved lossHandles closeBody s := by
      show execLossScaleCheck q c s = _
      unfold execLossScaleCheck
      rw [if_neg (by rw [hbit]; exact Bool.false_ne_true)]
    refine completes_of_body hexec hs hn hcs hj he fun r0 h0 hb => ?_
    subst h0
    exact closeBody_tot hb hv hax hver hcl hp hq hls hrep

end Sys2Proof.Machine
end

section
/-! The commands of the mask unit (O56). -/

namespace Sys2Proof.Machine

/-! ### The commands of the mask unit (O56) -/

section
variable {r0 : Run} {c : Cmd} {e : Exe} {j : Job} {cs : List (BitVec 32 × Desc × BitVec 8)} {β : Type} {R : β → Run → Prop} {st : Bool}

/-- A first layer that is stored element by element names no masks (R190). -/
theorem keep_maskedIds {t : TDesc} (h : flat t = true) : Tot (Calm r0 st) (maskedIds t) fun l r => l = [] ∧ Calm r0 st r := by
  obtain ⟨-, h2, h3⟩ := flat_parts h
  unfold maskedIds slotAddrs
  rw [if_neg h2, if_neg h3]
  exact Tot.bind (Q := fun l r => l = [] ∧ Calm r0 st r) (Tot.pure _ fun _ h => ⟨rfl, h⟩) fun l => Tot.given fun hl => by
    subst hl
    exact tot_keepB Keep.getS fun s => Tot.pure _ fun _ h => ⟨rfl, h⟩

/-- The operands of a PREDICT that is accepted (R256). -/
structure PredictRun (r0 : Run) (c : Cmd) (e : Exe) (j : Job) (cs : List (BitVec 32 × Desc × BitVec 8)) (o : PredOps) : Prop extends BodyRun r0 c e j cs where
  ops : o = ⟨operandOf cs j (cmdField c 8 4), operandOf cs j (cmdField c 0x0C 4), operandOf cs j (cmdField c 0x10 4), optOperand cs j (cmdField c 0x14 4),
      optOperand cs j (cmdField c 0x18 4), optOperand cs j (cmdField c 0x1C 4), operandOf cs j (cmdField c 0x20 4), optOperand cs j (cmdField c 0x24 4),
      optOperand cs j (cmdField c 0x28 4)⟩
  handles : ∀ k ∈ predictHandles c, namable cs j k = true
  ok : predictOk j c e o = true
  reads : ∀ t ∈ [o.x, o.p, o.q] ++ o.w1.toList ++ o.sbias.toList ++ o.b1.toList, readable t = true
  rows : cmdField c 0x34 4 + cmdField c 0x38 4 ≤ o.x.rows

variable {o : PredOps}

theorem near_tier {t : TDesc} (h : nearDst e t = true) : t.tier = 0 := by
  simp only [nearDst, Bool.and_eq_true, beq_iff_eq] at h
  exact h.1

/-- What the acceptance of a PREDICT says (R256): its factors are of formats that R256 lists, its first layer is named, and what it writes lies in near memory. -/
theorem PredictRun.parts (h : PredictRun r0 c e j cs o) : (factorFmt o.p.fmt && factorFmt o.q.fmt) = true ∧ (∃ w, o.w1 = some w) ∧ o.tok.tier = 0 ∧
    (∀ t ∈ o.stats, t.tier = 0) ∧ ∀ t ∈ o.gate, t.tier = 0 := by
  have hk := h.ok
  unfold predictOk at hk
  simp only [Bool.and_eq_true] at hk
  obtain ⟨⟨⟨⟨⟨⟨⟨⟨⟨⟨⟨-, hp⟩, hq⟩, -⟩, ⟨⟨⟨htok, -⟩, -⟩, -⟩⟩, hs⟩, hg⟩, hw⟩, -⟩, -⟩, -⟩, -⟩ := hk
  refine ⟨by rw [hp, hq]; rfl, ?_, near_tier htok, fun t ht => ?_, fun t ht => ?_⟩
  · cases hw1 : o.w1 with
    | none => rw [hw1] at hw; cases hw
    | some w => exact ⟨w, rfl⟩
  · rw [Option.mem_def.mp ht] at hs
    simp only [optOk, Bool.and_eq_true] at hs
    exact near_tier hs.1.1.1
  · rw [Option.mem_def.mp ht] at hg
    simp only [optOk, Bool.and_eq_true] at hg
    exact near_tier hg.1.1.1

/-- The operands are named in the command's order. -/
theorem PredictRun.opsE (h : PredictRun r0 c e j cs o) {k : PredOps → M β} (hk : Tot (· = r0) (k o) R) : Tot (· = r0) (predOps >>= k) R := by
  have hv := h.handles
  have one : ∀ n ∈ [8, 0x0C, 0x10, 0x20], namable cs j (cmdField c n 4) = true := fun n hn => hv _ (by
    simp only [predictHandles, List.mem_append]
    exact .inl (List.mem_map_of_mem (f := fun n => cmdField c n 4) hn))
  have opt : ∀ n ∈ [0x14, 0x18, 0x1C, 0x24, 0x28], cmdField c n 4 = 0 ∨ namable cs j (cmdField c n 4) = true := fun n hn =>
    optH_valid hv fun a ha => by
      simp only [predictHandles, List.mem_append, List.mem_flatMap]
      exact .inr ⟨n, hn, ha⟩
  unfold predOps
  simp only [bind_assoc, pure_bind]
  refine tot_getE ?_
  rw [h.cmd]
  refine h.descE rfl (one _ (by simp)) (h.descE rfl (one _ (by simp)) (h.descE rfl (one _ (by simp)) ?_))
  refine h.optDescE rfl (opt _ (by simp)) (h.optDescE rfl (opt _ (by simp)) (h.optDescE rfl (opt _ (by simp)) ?_))
  refine h.descE rfl (one _ (by simp)) (h.optDescE rfl (opt _ (by simp)) (h.optDescE rfl (opt _ (by simp)) ?_))
  rw [← h.ops]
  exact hk

theorem predictBody_tot (h : PredictRun r0 c e j cs o) : Tot (· = r0) predictBody fun _ r => r.w.status = 0 := by
  obtain ⟨hf, ⟨w1, hw⟩, htok, hstats, hgate⟩ := h.parts
  have hr := h.reads
  have hjob : Reads jobM r0 j := by
    obtain ⟨⟨-, -, -, rfl, -⟩, -⟩ := h
    rfl
  have hx : readable o.x = true := hr _ (by simp)
  have hp : readable o.p = true := hr _ (by simp)
  have hq : readable o.q = true := hr _ (by simp)
  have h1 : readable w1 = true := hr _ (by simp [hw])
  have hsb : ∀ t ∈ o.sbias, readable t = true := fun t ht => hr _ (by simp [Option.mem_def.mp ht])
  have hb1 : ∀ t ∈ o.b1, readable t = true := fun t ht => hr _ (by simp [Option.mem_def.mp ht])
  unfold predictBody
  refine tot_getE ?_
  rw [h.cmd, h.exe]
  refine h.opsE (tot_bindE hjob (tot_needB hf (tot_intsB (fun t ht => readable_fmt (hr t ?_)) (tot_needB h.ok (tot_needB (by simpa using h.rows) (h.looks ?_))))))
  · simp only [List.mem_cons, List.mem_append] at ht ⊢
    tauto
  rw [hw]
  refine Tot.bind (keep_maskedIds (readable_parts h1 |>.1)) fun ids => Tot.given fun hids => ?_
  rw [hids]
  refine tot_keepB (Keep.pure ()) fun _ => tot_keepB (Keep.writerM _) fun _ => tot_keepB (Keep.writerOpt _) fun _ => tot_keepB (Keep.writerOpt _) fun _ => ?_
  refine tot_keepB (Keep.mapEach _ _ fun k _ => keep_maskVals hp _ _ _) fun pc => tot_keepB (Keep.mapEach _ _ fun k _ => keep_maskVals hq _ _ _) fun qc => ?_
  extract_lets -underBinder cols withBias
  have hbias : ∀ b, Tot (Calm r0 true) (withBias b) fun _ => Calm r0 false := fun bias => by
    unfold withBias
    extract_lets -underBinder withB1
    have hwith : ∀ b, Tot (Calm r0 true) (withB1 b) fun _ => Calm r0 false := fun b1 => by
      refine tot_keepB (Keep.mapEach _ _ fun t _ => tot_keepB (keep_maskVals hx _ _ _) fun _ => Keep.pure _) fun xs => ?_
      refine tot_keepB (Keep.mapEach _ _ fun t _ => tot_keepB (keep_auditTile c h1 _ _ _ _) fun _ => Keep.pure _) fun audits => tot_toWrite ?_
      refine tot_keepB (Keep.countM _ _) fun _ => tot_keepB (Keep.countM _ _) fun _ => tot_keepB (Keep.countM _ _) fun _ => tot_keepB (Keep.countM _ _) fun _ =>
        tot_keepB (Keep.countM _ _) fun _ => tot_keepB (Keep.countM _ _) fun _ => tot_keepB (Keep.forEach _ _ fun e _ => Keep.putCodes htok _ _ _ _) fun _ => ?_
      extract_lets -underBinder gates
      have hgates : ∀ u, Keep r0 false (gates u) := fun u => by
        unfold gates
        cases hg : o.gate with
        | none => exact Keep.modW _ fun _ => ⟨rfl, rfl⟩
        | some t => exact tot_keepB (Keep.forEach _ _ fun g _ => Keep.putCodes (hgate t hg) _ _ _ _) fun _ => Keep.modW _ fun _ => ⟨rfl, rfl⟩
      clear_value gates
      cases hs : o.stats with
      | none => exact hgates ()
      | some t => exact tot_keepB (Keep.forEach _ _ fun e _ => Keep.putCodes (hstats t hs) _ _ _ _) fun u => hgates u
    clear_value withB1
    cases hb : o.b1 with
    | none => exact hwith none
    | some t => exact tot_keepB (Keep.map _ (keep_maskVals (hb1 t hb) _ _ _)) fun b => hwith b
  clear_value withBias
  cases hb : o.sbias with
  | none => exact hbias none
  | some t => exact tot_keepB (Keep.map _ (keep_maskVals (hsb t hb) _ _ _)) fun b => hbias b

/-- A command on a weight of near memory that is idle, its tiles of the range well read (R188, R190). -/
structure MaskRun (r0 : Run) (c : Cmd) (e : Exe) (j : Job) (cs : List (BitVec 32 × Desc × BitVec 8)) (w : TDesc) (m : MaskEntry) : Prop extends BodyRun r0 c e j cs where
  weight : w = operandOf cs j (cmdField c 8 4)
  near : w.tier = 0
  source : srcOk e w = true
  layout : w.layout = 3
  entry : tfind r0.s.masks w.tid = some m
  idle : m.st = .idle
  range : cmdField c 0x10 4 ≠ 0
  inside : cmdField c 0x0C 4 + cmdField c 0x10 4 ≤ w.wTiles
  tiles : ∀ i, cmdField c 0x0C 4 ≤ i → i < cmdField c 0x0C 4 + cmdField c 0x10 4 → ∃ t, Reads (readWTile w m.epoch.toNat i) r0 t

variable {w x y : TDesc} {m : MaskEntry}

theorem MaskRun.weightE (h : MaskRun r0 c e j cs w m) {k : MaskEntry → M β} (hk : Tot (· = r0) (k m) R) : Tot (· = r0) (weightM w >>= k) R :=
  tot_bindE (reads_weightM h.entry h.layout (h.exe.symm ▸ h.source)) hk

theorem MaskRun.rangeE (h : MaskRun r0 c e j cs w m) {k : List Nat → M β} (hk : Tot (· = r0) (k (rangeFrom (cmdField c 0x0C 4) (cmdField c 0x10 4))) R) : Tot (· = r0) (rangeM w >>= k) R := by
  have hc := h.cmd
  subst hc
  exact tot_bindE (reads_rangeM h.range h.inside) hk

/-- A tile of the range reads while memory stands. -/
theorem MaskRun.tileB (h : MaskRun r0 c e j cs w m) {i : Nat} (hi : i ∈ rangeFrom (cmdField c 0x0C 4) (cmdField c 0x10 4)) {k : WTile → M β} (hk : ∀ t, Tot (Calm r0 true) (k t) R) :
    Tot (Calm r0 true) (readWTile w m.epoch.toNat i >>= k) R := by
  simp only [rangeFrom, List.mem_map, List.mem_range] at hi
  obtain ⟨d, hd, rfl⟩ := hi
  obtain ⟨t, ht⟩ := h.tiles (cmdField c 0x0C 4 + d) (by omega) (by omega)
  exact ((tot_reads (Looks.readWTile h.calm h.near _ _) ht).conseq (fun _ h => h) fun _ _ h => h.2).bind fun t => hk t

theorem maskScoreBody_tot (h : MaskRun r0 c e j cs w m) (hv : ∀ k ∈ scoreHandles c, namable cs j k = true) (hx : x = operandOf cs j (maskArg c 0)) (hy : y = operandOf cs j (maskArg c 1))
    (hrx : readable x = true) (hsx : srcOk e x = true) (hwy : writable e y = true) (hfy : flat y = true) (hsc : scoreOk w y = true)
    (hform : if (cmdField c 0x30 1).testBit 6 then denseOk w x = true ∧ f32IsFinite (maskArg c 2) = true ∧ f32IsZero (maskArg c 2) = false ∧ f32Neg (maskArg c 2) = false
      else companionOk w x = true ∧ (cmdField c 0x30 1).testBit 5 = false ∧ maskArg c 2 = 0) : Tot (· = r0) maskScoreBody fun _ r => r.w.status = 0 := by
  have hty : y.tier = 0 := (flat_parts hfy).1
  unfold maskScoreBody
  refine tot_getE ?_
  rw [h.cmd, h.exe]
  refine h.descE h.weight (hv _ (by simp [scoreHandles])) (h.descE hx (hv _ (by simp [scoreHandles])) (h.descE hy (hv _ (by simp [scoreHandles])) (h.weightE ?_)))
  extract_lets -underBinder rest
  have hrest : ∀ u, Tot (· = r0) (rest u) fun _ r => r.w.status = 0 := fun u => by
    refine tot_needB ?_ (h.rangeE (tot_at (P := CalmSame r0) ⟨rfl, h.calm⟩ (Tot.bind (Tot.writerSame _) fun _ => tot_maskWorkB h.entry h.idle (st := false) ?_)))
    · have hsd : scoreDstOk w y = true := by simp [scoreDstOk, hsc, not_tiled hfy]
      rw [hsx, hsd, writable_dst hwy]
      split at hform
      · next hg =>
        obtain ⟨h1, h2, h3, h4⟩ := hform
        rw [if_pos hg, h1, h2, h3, h4]
        rfl
      · next hg =>
        obtain ⟨h1, h2, h3⟩ := hform
        rw [if_neg hg, h1, h2, h3]
        rfl
    · refine tot_keepB (Keep.mapEach _ _ fun i hi => h.tileB hi fun t => Keep.mapEach _ _ fun p _ => ?_) fun out => tot_toWrite ?_
      · obtain ⟨n, row⟩ := p
        refine tot_ite (fun _ => tot_keepB (keep_maskVals hrx _ _ _) fun gs => ?_) fun _ => tot_keepB (keep_masterScores hrx _ _ _) fun l => Keep.pure _
        exact tot_ite (fun _ => tot_keepB (Keep.readCodes hfy _ _ _) fun old => tot_keepB (Keep.pure _) fun l => Keep.pure _) fun _ => tot_keepB (Keep.pure _) fun l => Keep.pure _
      · refine tot_keepB (Keep.countM _ _) fun _ => tot_keepB (Keep.forEach _ _ fun p _ => ?_) fun _ => keep_wordM _ _
        exact tot_keepB (Keep.putCodes hty _ _ _ _) fun _ => Keep.padRow hty _ _
  clear_value rest
  exact tot_ite (fun _ => tot_intsB (by simpa using readable_fmt hrx) (hrest _)) fun _ => hrest ()

/-- The operands of a PRUNE or REGROW that is accepted (R189). -/
structure SelectRun (r0 : Run) (c : Cmd) (e : Exe) (j : Job) (cs : List (BitVec 32 × Desc × BitVec 8)) (w x y : TDesc) (m : MaskEntry) : Prop extends MaskRun r0 c e j cs w m where
  handles : ∀ k ∈ selectHandles c, namable cs j k = true
  scores : x = operandOf cs j (maskArg c 0)
  proposals : y = operandOf cs j (maskArg c 1)
  readsScores : readable x = true
  sourceScores : srcOk e x = true
  okScores : scoreOk w x = true
  flatProposals : flat y = true
  destProposals : dstOk e y = true
  okProposals : proposalOk w y = true
  report : ∀ z ∈ optOperand cs j (maskArg c 2), z.tier = 0 ∧ dstOk e z = true ∧ reportOk z = true

theorem SelectRun.selectE (h : SelectRun r0 c e j cs w x y m) {k : TDesc × TDesc × TDesc × Option TDesc × List Nat → M β}
    (hk : Tot (· = r0) (k (w, x, y, optOperand cs j (maskArg c 2), rangeFrom (cmdField c 0x0C 4) (cmdField c 0x10 4))) R) : Tot (· = r0) (selectM >>= k) R := by
  have hv := h.handles
  unfold selectM
  simp only [bind_assoc, pure_bind]
  refine tot_getE ?_
  rw [h.cmd, h.exe]
  refine h.descE h.weight (hv _ (by simp [selectHandles])) (h.descE h.scores (hv _ (by simp [selectHandles])) (h.descE h.proposals (hv _ (by simp [selectHandles])) ?_))
  refine h.optDescE rfl (optH_valid hv fun a ha => by simp [selectHandles, ha]) (h.weightE (tot_needB ?_ (h.rangeE hk)))
  rw [h.okScores, h.sourceScores, h.okProposals, h.destProposals]
  split
  · next z hz =>
    obtain ⟨-, h1, h2⟩ := h.report z hz
    rw [h1, h2]
    rfl
  · rfl

/-- The picks of a tile can be read. -/
theorem keep_picks (h : SelectRun r0 c e j cs w x y m) (t : WTile) (b : Bool) : Keep r0 st (picksM w x t b) := by
  unfold picksM
  exact tot_keepB Keep.jobM fun _ => tot_keepB (Keep.mapEach _ _ fun p _ => Keep.readCodes (readable_parts h.readsScores).1 _ _ _) fun _ => Keep.pure _

theorem SelectRun.nearReport (h : SelectRun r0 c e j cs w x y m) : ∀ z ∈ optOperand cs j (maskArg c 2), z.tier = 0 := fun z hz => (h.report z hz).1

/-- The start that PRUNE and REGROW share: the operands are named and accepted, the writers counted, and the weight's work begins. -/
theorem SelectRun.workB (h : SelectRun r0 c e j cs w x y m) {act : TDesc × TDesc × TDesc × Option TDesc × List Nat → Nat → MaskEntry → M Unit}
    (ha : Tot (Calm r0 true) (act (w, x, y, optOperand cs j (maskArg c 2), rangeFrom (cmdField c 0x0C 4) (cmdField c 0x10 4)) (cmdField c 0x20 2) m) fun _ => Calm r0 false) :
    Tot (· = r0) (selectM >>= fun o => fieldM 0x20 2 >>= fun n => writeSelect o.2.2.1 o.2.2.2.1 >>= fun _ => maskWork o.1 (act o n)) fun _ r => r.w.status = 0 := by
  have hc := h.cmd
  subst hc
  refine h.selectE (tot_bindE (a := cmdField r0.c 0x20 2) rfl (tot_at (P := CalmSame r0) ⟨rfl, h.calm⟩ (Tot.bind (Tot.selectSame _ _) fun _ => ?_)))
  exact tot_maskWorkB h.entry h.idle ha

theorem pruneBody_tot (h : SelectRun r0 c e j cs w x y m) : Tot (· = r0) pruneBody fun _ r => r.w.status = 0 := by
  unfold pruneBody
  refine h.workB (act := fun o n e => _) ?_
  refine tot_keepB (Keep.mapEach _ _ fun i hi => h.tileB hi fun t => keep_picks h _ _) fun us => tot_toWrite ?_
  have hy : y.tier = 0 := (flat_parts h.flatProposals).1
  exact tot_keepB (Keep.countM _ _) fun _ => tot_keepB (Keep.forEach _ _ fun p _ => Keep.putCodes hy _ _ _ _) fun _ =>
    tot_keepB (keep_reportM _ _ _ h.nearReport) fun _ => keep_wordM _ _

theorem regrowBody_tot (h : SelectRun r0 c e j cs w x y m) : Tot (· = r0) regrowBody fun _ r => r.w.status = 0 := by
  have hy : y.tier = 0 := (flat_parts h.flatProposals).1
  unfold regrowBody
  refine h.workB (act := fun o n e => _) ?_
  refine tot_keepB (Keep.mapEach _ _ fun i hi => h.tileB hi fun t => tot_keepB (keep_picks h _ _) fun l => ?_) fun us => tot_toWrite ?_
  · exact tot_keepB (tot_keepB (Keep.readCodes h.flatProposals _ _ _) fun _ => Keep.pure _) fun _ => Keep.pure _
  · exact tot_keepB (Keep.countM _ _) fun _ => tot_keepB (Keep.forEach _ _ fun p _ => Keep.putCodes hy _ _ _ _) fun _ =>
      tot_keepB (keep_reportM _ _ _ h.nearReport) fun _ => keep_wordM _ _

theorem maskGatherBody_tot (h : MaskRun r0 c e j cs w m) (hv : ∀ k ∈ scoreHandles c, namable cs j k = true) (hx : x = operandOf cs j (maskArg c 0)) (hy : y = operandOf cs j (maskArg c 1))
    (hrx : readable x = true) (hsx : srcOk e x = true) (hdx : denseOk w x = true) (hwy : writable e y = true) (hcy : companionOk w y = true) (hf5 : y.fmt ≠ 5) :
    Tot (· = r0) maskGatherBody fun _ r => r.w.status = 0 := by
  unfold maskGatherBody
  refine tot_getE ?_
  rw [h.cmd, h.exe]
  refine h.descE h.weight (hv _ (by simp [scoreHandles])) (h.descE hx (hv _ (by simp [scoreHandles])) (h.descE hy (hv _ (by simp [scoreHandles])) (h.weightE ?_)))
  refine tot_intsB (by simpa using readable_fmt hrx) (tot_needB (by simp [hdx, hsx, hcy, hf5, writable_dst hwy]) (h.rangeE ?_))
  refine tot_at (P := CalmSame r0) ⟨rfl, h.calm⟩ (Tot.bind (Tot.writerSame _) fun _ => tot_maskWorkB h.entry h.idle (st := false) ?_)
  refine tot_keepB (Keep.mapEach _ _ fun i hi => h.tileB hi fun t => Keep.mapEach _ _ fun p _ => tot_keepB (keep_maskVals hrx _ _ _) fun _ => Keep.pure _) fun out => tot_toWrite ?_
  exact tot_keepB (Keep.forEach _ _ fun p _ => tot_keepB (Keep.writeRow (writable_parts hwy).1 (writable_fmt hwy) _ _ _ _ _ _) fun _ => Keep.pure _) fun _ => keep_wordM _ _

/-! A commit changes no queue, so the queue's head has moved on when it ends. -/

theorem stay_skippedM : PlacesStay skippedM := .got fun _ => .pure _
theorem stay_wordM (b : Bool) (n : Nat) : PlacesStay (wordM b n) := .modW _

theorem stay_reportM {t : Option TDesc} (h : ∀ z ∈ t, z.tier = 0) (words : List Nat) (n : Nat) : PlacesStay (reportM t words n) := by
  cases t with
  | none => exact .pure _
  | some t => exact stay_putCodes (h t rfl) ..

theorem stay_changeCompanion (plain : Bool) {t : TDesc} (h : t.tier = 0) (tile : Nat) (u : MUnit) (n : Nat) : PlacesStay (changeCompanion plain t tile u n) :=
  .forEach _ fun _ => (PlacesStay.mapEach _ fun _ => stay_readBits _ _ h).bind fun _ =>
    .ite ((PlacesStay.forEach _ fun _ => stay_writeBits _ _ _ h).bind fun _ => stay_evidenceM ..) (.pure _)

theorem stay_forEach_mem {α : Type} (l : List α) {g : α → M Unit} (h : ∀ a ∈ l, PlacesStay (g a)) : PlacesStay (forEach l g) := by
  induction l with
  | nil => exact .pure ()
  | cons a l ih => exact (h a (by simp)).bind fun _ => ih fun b hb => h b (by simp [hb])

theorem stay_rewriteTile (hw : w.tier = 0) {comps : List TDesc} (hc : ∀ t ∈ comps, t.tier = 0) (t : WTile) (ch : List (MUnit × Nat)) (n : Nat) : PlacesStay (rewriteTile w comps t ch n) :=
  (PlacesStay.forEach _ fun _ => .ite (.pure _) (stay_writeM _ _ hw)).bind fun _ =>
    (PlacesStay.forEach _ fun _ => stay_forEach_mem _ fun d hd => stay_changeCompanion _ (hc d hd) ..).bind fun _ => stay_writeM _ _ hw

theorem stay_writeTensor {t : TDesc} (h : flat t = true) (rows : List (List Nat)) (f p i : Nat) (site : Option Nat) (fixed : Option Int) (rne : Bool) :
    PlacesStay (writeTensor t rows f p i site fixed rne) := by
  obtain ⟨h0, h2, -⟩ := flat_parts h
  unfold writeTensor
  rw [if_neg h2]
  exact .forEach _ fun _ => (stay_writeRow h0 ..).bind fun _ => .pure _

/-- What could be read at the start is read later, with the same result, while memory stands. -/
theorem tot_heldReads {α : Type} {a : α} {b : M α} (hl : Looks r0 b) (h : Reads b r0 a) : Tot (Held r0 true) b fun y r => y = a ∧ Held r0 true r := by
  rintro r ⟨hc, hp⟩
  rcases hl with ⟨z, h1, h2⟩ | ⟨e, r', he⟩
  · have hz : z = a := Except.ok.inj (congrArg Prod.fst (h1.symm.trans h))
    subst hz
    exact ⟨z, r, h2 r hc.seen, rfl, hc, hp⟩
  · cases congrArg Prod.fst (he.symm.trans h)

theorem tid_lt (n : Nat) : (operandOf cs j n).tid < 2 ^ 32 := by
  have hraw : ∀ d : BitVec 1024, rawField d 4 4 < 2 ^ 32 := fun d => by
    unfold rawField bits
    exact Nat.mod_lt _ (by decide)
  unfold operandOf
  split
  · exact hraw _
  · exact hraw _

/-- A tile of a commit: its proposals read, and none of them is at fault (R193). -/
def TileGood (r0 : Run) (w x : TDesc) (t : WTile) : Prop :=
  ∃ ps, Reads (proposalsM w x t.num) r0 ps ∧ ((unitsOf w t).zip ps).all (fun u => !entryBad w.twKind u.2 u.1.pat) = true

/-- The operands of a MASK_COMMIT that is accepted, of a weight without references (R192, R193). -/
structure CommitRun (r0 : Run) (c : Cmd) (e : Exe) (j : Job) (cs : List (BitVec 32 × Desc × BitVec 8)) (w x : TDesc) (m : MaskEntry) : Prop extends BodyRun r0 c e j cs where
  handles : ∀ k ∈ commitHandles c, namable cs j k = true
  weight : w = operandOf cs j (cmdField c 8 4)
  near : w.tier = 0
  source : srcOk e w = true
  layout : w.layout = 3
  access : w.access = 1
  entry : tfind r0.s.masks w.tid = some m
  state : m.st = .idle ∨ m.st = .commitWait ∧ m.commit = some (r0.q, c)
  refs : m.refs = 0
  fields : zeroBytes c 0x0C 8 = true
  named : maskArg c 0 ≠ 0
  companion : maskArg c 1 ≠ 0
  proposals : x = operandOf cs j (maskArg c 0)
  flatProposals : flat x = true
  destProposals : dstOk e x = true
  okProposals : proposalOk w x = true
  companions : ∀ k ∈ [1, 2, 3, 4], ∀ z ∈ optOperand cs j (maskArg c k), z.tier = 0 ∧ dstOk e z = true ∧ companionOk w z = true
  scores : ∀ z ∈ optOperand cs j (maskArg c 5), z.tier = 0 ∧ dstOk e z = true ∧ scoreDstOk w z = true
  report : ∀ z ∈ optOperand cs j (maskArg c 6), z.tier = 0 ∧ dstOk e z = true ∧ reportOk z = true
  tiles : ∀ k, k < w.wTiles → ∃ t, Reads (readWTile w m.epoch.toNat k) r0 t ∧ TileGood r0 w x t

theorem CommitRun.arg (h : CommitRun r0 c e j cs w x m) {i : Nat} (hi : i < 7) : maskArg c i = 0 ∨ namable cs j (maskArg c i) = true :=
  optH_valid h.handles fun a ha => by
    simp only [commitHandles, List.mem_cons, List.mem_flatMap, List.mem_range]
    exact .inr ⟨i, hi, ha⟩

theorem CommitRun.argE (h : CommitRun r0 c e j cs w x m) {i : Nat} (hi : i < 7) {k : Option TDesc → M β} (hk : Tot (· = r0) (k (optOperand cs j (maskArg c i))) R) :
    Tot (· = r0) (descOpt (maskArg c i) >>= k) R := h.optDescE rfl (h.arg hi) hk

theorem CommitRun.argsE (h : CommitRun r0 c e j cs w x m) {k : List (Option TDesc) → M β} (hk : Tot (· = r0) (k ([2, 3, 4].map fun i => optOperand cs j (maskArg c i))) R) :
    Tot (· = r0) (mapEach [2, 3, 4] (fun i => descOpt (maskArg c i)) >>= k) R := by
  have harg := fun i hi => h.arg (i := i) hi
  obtain ⟨⟨-, -, -, rfl, rfl⟩, -⟩ := h
  refine tot_bindE (reads_mapEach _ _ _ fun i hi => reads_descOpt (harg i ?_)) hk
  simp only [List.mem_cons, List.not_mem_nil, or_false] at hi
  omega

/-- The companions of a commit, the first of them named. -/
theorem CommitRun.comps (h : CommitRun r0 c e j cs w x m) : ∀ t ∈ operandOf cs j (maskArg c 1) :: ([2, 3, 4].map fun i => optOperand cs j (maskArg c i)).filterMap id,
    t.tier = 0 ∧ dstOk e t = true ∧ companionOk w t = true := by
  intro t ht
  rcases List.mem_cons.mp ht with rfl | ht
  · exact h.companions 1 (by simp) _ (if_neg h.companion)
  · obtain ⟨z, hz, ht⟩ := List.mem_filterMap.mp ht
    obtain ⟨k, hk, rfl⟩ := List.mem_map.mp hz
    exact h.companions k (by simp only [List.mem_cons, List.not_mem_nil, or_false] at hk ⊢; tauto) t ht

/-- A commit's tiles read, each with its proposals. -/
theorem CommitRun.tilesB (h : CommitRun r0 c e j cs w x m) {k : List WTile → M β} (hk : ∀ ts, (∀ t ∈ ts, TileGood r0 w x t) → Tot (Held r0 true) (k ts) R) :
    Tot (Held r0 true) (mapEach (List.range w.wTiles) (fun i => readWTile w m.epoch.toNat i) >>= k) R := by
  refine (Tot.mapEachP (p := TileGood r0 w x) _ _ fun i hi => ?_).bind fun ts => Tot.given fun hts => hk ts hts
  obtain ⟨t, ht, hg⟩ := h.tiles i (List.mem_range.mp hi)
  exact (tot_heldReads (Looks.readWTile h.calm h.near _ _) ht).conseq (fun _ h => h) fun _ _ h => ⟨h.1 ▸ hg, h.2⟩

theorem maskCommitBody_held (h : CommitRun r0 c e j cs w x m) : Tot (· = r0) maskCommitBody fun _ => Held r0 false := by
  have hp : optOperand cs j (maskArg c 0) = some x := by rw [h.proposals]; exact if_neg h.named
  have hm : optOperand cs j (maskArg c 1) = some (operandOf cs j (maskArg c 1)) := if_neg h.companion
  have hcomps := h.comps
  have hgrow := h.scores
  have hrep := h.report
  have htx : x.tier = 0 := (flat_parts h.flatProposals).1
  unfold maskCommitBody
  refine tot_getE ?_
  rw [h.cmd, h.exe]
  refine h.descE h.weight (h.handles _ (by simp [commitHandles])) (h.argE (by decide) (h.argE (by decide) (h.argsE (h.argE (by decide) (h.argE (by decide) ?_)))))
  refine tot_bindE (reads_weightM h.entry h.layout (h.exe.symm ▸ h.source)) ?_
  rw [hp, hm]
  generalize optOperand cs j (maskArg c 5) = grow at hgrow
  generalize optOperand cs j (maskArg c 6) = rep at hrep
  refine tot_needB ?_ ?_
  · have hg : optOk (fun t => scoreDstOk w t && dstOk e t) grow = true := optOk_of fun t ht => by
      obtain ⟨-, h1, h2⟩ := hgrow t ht
      rw [h1, h2]
      rfl
    have hr : optOk (fun t => reportOk t && dstOk e t) rep = true := optOk_of fun t ht => by
      obtain ⟨-, h1, h2⟩ := hrep t ht
      rw [h1, h2]
      rfl
    rw [h.fields, h.access, h.okProposals, h.destProposals]
    simp only [Bool.and_eq_true]
    refine ⟨⟨⟨by decide, List.all_eq_true.mpr fun t ht => ?_⟩, hg⟩, hr⟩
    obtain ⟨-, h1, h2⟩ := hcomps t ht
    rw [h1, h2]
    rfl
  extract_lets -underBinder mine commit
  have hcommit : ∀ u, Tot (Held r0 true) (commit u) fun _ => Held r0 false := fun u => by
    have hepoch : (tfind r0.s.masks w.tid).map (·.epoch) = some m.epoch := by rw [h.entry]; rfl
    refine tot_heldB (keep_setMasks w.tid _ hepoch) (.modS _ fun _ => rfl) fun _ => tot_heldB (Keep.modW _ fun _ => ⟨rfl, rfl⟩) (.modW _) fun _ => ?_
    refine tot_heldB keep_skippedM stay_skippedM fun skip => h.tilesB fun ts hts => ?_
    extract_lets -underBinder store
    have hstore : ∀ work, Tot (Held r0 true) (store work) fun _ => Held r0 false := fun work => by
      refine tot_heldB (Keep.writerM _) (stay_writerM _) fun _ => Tot.conseq (P := Held r0 false) ?_ (fun r hr => ⟨hr.1.weaken, hr.2⟩) fun _ _ h => h
      extract_lets -underBinder finish
      have hfinish : ∀ u, Tot (Held r0 false) (finish u) fun _ => Held r0 false := fun u => by
        refine tot_heldB (Keep.forEach _ _ fun t _ => Keep.putCodes htx _ _ _ _) (.forEach _ fun t => stay_putCodes htx ..) fun _ => ?_
        refine tot_ite (fun _ => ?_) fun _ => tot_held (keep_wordM _ _) (stay_wordM ..)
        have hnear : ∀ z ∈ rep, z.tier = 0 := fun z hz => (hrep z hz).1
        exact tot_heldB (keep_bump _ _ _ _) (stay_bump ..) fun _ => tot_heldB (keep_reportM _ _ _ hnear) (stay_reportM hnear ..) fun _ => tot_held (keep_wordM _ _) (stay_wordM ..)
      clear_value finish
      refine tot_ite (fun _ => tot_heldB (Keep.forEach _ _ fun t _ => Keep.writeM _ _ h.near) (.forEach _ fun t => stay_writeM _ _ h.near) fun u => hfinish u) fun _ => ?_
      refine tot_heldB (Keep.forEach _ _ fun t _ => Keep.writerM _) (.forEach _ fun t => stay_writerM _) fun _ => ?_
      have hnear := fun t ht => (hcomps t ht).1
      extract_lets -underBinder rewrite
      have hrewrite : ∀ u, Tot (Held r0 false) (rewrite u) fun _ => Held r0 false := fun u => by
        refine tot_heldB (Keep.forEach _ _ fun p _ => keep_rewriteTile h.near hnear _ _ _) (.forEach _ fun p => stay_rewriteTile h.near hnear ..) fun _ => ?_
        cases grow with
        | none => exact hfinish ()
        | some t =>
          obtain ⟨h0, -, h1⟩ := hgrow t rfl
          simp only [scoreDstOk, scoreOk, Bool.and_eq_true, beq_iff_eq, Bool.not_eq_true', TDesc.tiled, Bool.or_eq_false_iff, beq_eq_false_iff_ne] at h1
          obtain ⟨⟨-, hf⟩, hl2, hl3⟩ := h1
          have hflat : flat t = true := by simp [flat, h0, hl2, hl3]
          exact tot_heldB (Keep.writeTensor h0 (by rw [hf]; rfl) _ _ _ _ _ _ _) (stay_writeTensor hflat ..) fun u => hfinish u
      clear_value rewrite
      cases grow with
      | none => exact hrewrite ()
      | some t => exact tot_heldB (Keep.writerM _) (stay_writerM _) fun u => hrewrite u
    clear_value store
    refine tot_ite (fun _ => hstore _) fun _ => ?_
    refine Tot.bind (Q := fun _ => Held r0 true) ((Tot.mapEachP (p := fun _ => True) _ _ fun t ht => ?_).conseq (fun _ h => h) fun _ _ h => h.2) fun work => hstore work
    obtain ⟨ps, hps, hall⟩ := hts t ht
    refine ((tot_heldReads (Looks.bind (Looks.readCodes h.calm.near h.flatProposals _ _ _) fun _ => Looks.pure _) hps).conseq (fun _ h => h) fun _ _ h => h).bind fun y => Tot.given fun hy => ?_
    rw [hy]
    exact tot_needB hall (Tot.pure _ fun r hr => ⟨trivial, hr⟩)
  clear_value commit
  have hfree : ((m.st == .idle || m.st == .commitWait && mine) && m.refs == 0) = true := by
    rw [h.refs]
    rcases h.state with h1 | ⟨h1, h2⟩
    · rw [h1]; rfl
    · have hm : mine = true := by simp [mine, h2]
      rw [h1, hm]
      rfl
  exact tot_ite (fun _ => tot_at (P := Held r0 true) ⟨h.calm, rfl⟩ (hcommit ())) fun hn => absurd hfree hn

/-- A command that has started holds its head no longer. -/
theorem started_hold (q : QNum) (r : Run) : ((started q r).queue q).hold = .none := by
  unfold started pushStarted State.queue
  dsimp only
  rw [traceRec_queues]
  simp only [State.setQueue, tget_tput_same]
  rfl

/-- A MASK_COMMIT that has started leaves the weight's wait (R192). -/
theorem execMaskCommit_started {q : QNum} {s : State} {r : Run} (hr : startCmd q c (maskOk false []) commitHandles maskCommitBody s = .next (started q r))
    (hn : (r.s.queue q).next = (s.queue q).next) : execMaskCommit q c s = .next (leaveWait q c (started q r)) := by
  obtain ⟨h1, -⟩ := started_queue q r
  have hne : ((started q r).queue q).next ≠ (s.queue q).next := by
    rw [h1, hn]
    generalize (s.queue q).next = n
    simp
  unfold execMaskCommit
  rw [hr]
  dsimp only
  rw [started_hold]
  dsimp only
  rw [if_neg hne]

/-- The references of a weight that waits for its commit are gone: the commit is presented (R192). -/
theorem execMaskRefsReleased_commit {q : QNum} {s : State} {m : MaskEntry} {n : Nat} (hn : n < 2 ^ 32) (hm : tfind s.masks n = some m) (hst : m.st = .commitWait)
    (hc : m.commit = some (q, c)) (hr : m.refs = 0) : execMaskRefsReleased (BitVec.ofNat 32 n) s = execMaskCommit q c s := by
  unfold execMaskRefsReleased
  rw [BitVec.toNat_ofNat, Nat.mod_eq_of_lt hn, hm]
  dsimp only
  rw [hc]
  dsimp only
  rw [if_pos ⟨hst, hr⟩]

end

/-- Settles O56: from a calm run each body ends; a commit leaves its weight's wait besides. -/
theorem maskCommandsComplete : Obligations.MaskCommandsComplete := by
  unfold Obligations.MaskCommandsComplete
  constructor
  · intro q c s s1 cs j e w x y m a n hn hcs hj he hw hwt hws hwl hwm hx hy ha hnn
    subst ha hnn
    constructor
    · intro hst hn0 hin htiles
      have run : ∀ r0 : Run, r0 = headRun s1 q (s.queue q) c → BodyRun r0 c e j cs → MaskRun r0 c e j cs w m := fun r0 h0 hb => by
        subst h0
        exact { toBodyRun := hb, weight := hw, near := hwt, source := hws, layout := hwl, entry := hwm, idle := hst, range := hn0, inside := hin, tiles := htiles }
      refine ⟨?_, ?_, ?_⟩
      · intro hs hrx hsx hwy hfy hsc hform
        have hv := handles_valid hs
        rw [← hcs, ← hj] at hv
        exact completes_of_body rfl hs hn hcs hj he fun r0 h0 hb => maskScoreBody_tot (run r0 h0 hb) hv hx hy hrx hsx hwy hfy hsc hform
      · intro i body hi hs hrx hsx hsc hfy hdy hpy hrep
        have hv := handles_valid hs
        rw [← hcs, ← hj] at hv
        have sel : ∀ r0 : Run, r0 = headRun s1 q (s.queue q) c → BodyRun r0 c e j cs → SelectRun r0 c e j cs w x y m := fun r0 h0 hb =>
          { toMaskRun := run r0 h0 hb, handles := hv, scores := hx, proposals := hy, readsScores := hrx, sourceScores := hsx, okScores := hsc, flatProposals := hfy,
            destProposals := hdy, okProposals := hpy, report := hrep }
        rcases hi with ⟨rfl, rfl⟩ | ⟨rfl, rfl⟩
        · exact completes_of_body rfl hs hn hcs hj he fun r0 h0 hb => pruneBody_tot (sel r0 h0 hb)
        · exact completes_of_body rfl hs hn hcs hj he fun r0 h0 hb => regrowBody_tot (sel r0 h0 hb)
      · intro hs hrx hsx hdx hwy hcy hf5
        have hv := handles_valid hs
        rw [← hcs, ← hj] at hv
        exact completes_of_body rfl hs hn hcs hj he fun r0 h0 hb => maskGatherBody_tot (run r0 h0 hb) hv hx hy hrx hsx hdx hwy hcy hf5
    · intro i hi hrefs hs hz hacc h0 h1 hfx hdx hpx hcomps hgrow hrep htiles
      have hv := handles_valid hs
      rw [← hcs, ← hj] at hv
      have hcalm : Calm (headRun s1 q (s.queue q) c) true (headRun s1 q (s.queue q) c) :=
        ⟨hn.1, rfl, rfl, rfl, rfl, rfl, rfl, hn.2, rfl, rfl, ⟨_, _, rfl⟩, hn.2, fun _ => rfl, fun _ => rfl⟩
      have hstate : m.st = .idle ∨ m.st = .commitWait ∧ m.commit = some (q, c) := by
        rcases hi with ⟨-, h⟩ | ⟨-, -, h⟩
        · exact .inl h
        · exact .inr h
      have hb : CommitRun (headRun s1 q (s.queue q) c) c e j cs w x m :=
        { calm := hcalm, cmd := rfl, exe := he.symm, job := hj.symm, copies := hcs.symm, handles := hv, weight := hw, near := hwt, source := hws, layout := hwl, access := hacc,
          entry := hwm, state := hstate, refs := hrefs, fields := beq_iff_eq.mpr hz, named := h0, companion := h1, proposals := hx, flatProposals := hfx, destProposals := hdx,
          okProposals := hpx, companions := hcomps, scores := hgrow, report := hrep, tiles := fun k hk => let ⟨t, ps, h1, h2, h3⟩ := htiles k hk; ⟨t, h1, ps, h2, h3⟩ }
      obtain ⟨_, r, hr, hc, hp⟩ := maskCommitBody_held hb _ rfl
      have hnext : (r.s.queue q).next = (s.queue q).next := by
        rw [queue_congr (congrArg Prod.snd hp) q]
        exact congrArg Queue.next (queue_of_starts hs q)
      have hcommit := execMaskCommit_started (start_ends hs hr) hnext
      refine ⟨r, hr, ?_, hc.status⟩
      rcases hi with ⟨rfl, -⟩ | ⟨rfl | rfl, hm, hst, hcm⟩
      · exact hcommit
      · exact hcommit
      · have htid : w.tid < 2 ^ 32 := by rw [hw]; exact tid_lt _
        exact (execMaskRefsReleased_commit htid hm hst hcm hrefs).trans hcommit
  · intro q c s s1 cs j e o hn hcs hj he hs ho hok hr hrows
    have hv := handles_valid hs
    rw [← hcs, ← hj] at hv
    exact completes_of_body rfl hs hn hcs hj he fun r0 h0 hb => predictBody_tot { toBodyRun := hb, ops := ho, handles := hv, ok := hok, reads := hr, rows := hrows }

end Sys2Proof.Machine
end
